-- ==== Sys2Proof/Word.lean ====
section
/-! DEFINITION. The word types of the VM4 module: 32-bit cells and registers, 64-bit words, bytes, and the 48-bit
address space of R40. -/

namespace Sys2Proof

/-- One byte. -/
abbrev Byte := BitVec 8

/-- A 32-bit yard cell or register (R60, R129). -/
abbrev W32 := BitVec 32

/-- A 64-bit word. -/
abbrev W64 := BitVec 64

/-- A 48-bit address (R40, R45). -/
abbrev Addr := BitVec 48

end Sys2Proof
end

