-- ==== Sys2Proof/Config.lean ====
section
/-! DEFINITION. What the manual leaves open: free values and implementation choices, as constants with no body. -/

namespace Sys2Proof

/-- The free values that meanings draw, one after another (log entry 2). -/
opaque Config.freeWord : Nat → W64

/-- Whether an underflow is detected before rounding: IEEE 754-2019 leaves it to the implementation (R222, log entry
21). -/
opaque Config.tinyBefore : Bool

/-- The reciprocal estimate of a finite nonzero operand, by element code and operand bits (log entry 22). -/
opaque Config.recipEstimate : Nat → Nat → W32

/-- The reciprocal square-root estimate of a finite positive operand, by element code and operand bits (log entry
22). -/
opaque Config.rsqrtEstimate : Nat → Nat → W32

/-- A floating-point sum over elements: the manual gives no order (log entry 24). -/
opaque Config.reduceSum : Nat → List Nat → W32

/-- The flags that such a sum raises. -/
opaque Config.reduceFlags : Nat → List Nat → BitVec 6

/-- Whether `rotate` moves elements towards element 0 (log entry 24). -/
opaque Config.rotateDown : Bool

/-- The element that a shuffle index out of range names (log entry 24). -/
opaque Config.shuffleFar : Nat → Nat → Nat

/-- The NaN that a conversion to E5M2 gives (R224, log entry 23). -/
opaque Config.nanE5m2 : Nat → BitVec 2

/-- Bytes of the boot ROM, whose contents the manual does not give (log entry 73). -/
opaque Config.bootRom : Nat → BitVec 8

/-- Receive buffers of 16 bytes of a drawbar port, by class (log entry 61). -/
opaque Config.drawbarBuffers : Nat → Nat

/-- The opcode of a drawbar packet, by what it asks or answers, whose codes the manual does not give (log entry 60). -/
opaque Config.packetCode : Nat → BitVec 8

/-- The address field of a drawbar packet that names no address, by what it asks or answers (log entry 60). -/
opaque Config.packetPlace : Nat → W64

/-- The first entry of the spill table that a compartment and key may take: the hash is not given (log entry 118). -/
opaque Config.spillHash : Nat → Nat → BitVec 16

/-- The 64 bytes of an entry of the spill table, whose layout is not given, by spill index (log entry 118). -/
opaque Config.spillBytes : Nat → BitVec 512

/-- What a completion carries for a poisoned s1, by its value (log entry 80). -/
opaque Config.poisonedResult : W64 → W64

/-- What `ststat` returns, by the code of the stream's state, accesses made and bytes moved (log entry 86). -/
opaque Config.streamStatus : Nat → Nat → Nat → W64

/-- What a job writes into elements and mask bits of a whole cell that it does not compute, by the words of its descriptor
and the row's place and results: the same for the same job (R366, log entry 156). -/
opaque Config.spareBits : List Nat → List Nat → W64

/-- An element of vd that a conversion does not reach, by the two types and the element's number (log entry 25). -/
opaque Config.unreached : Nat → Nat → Nat → W32

end Sys2Proof
end

