-- ==== Sys2Proof/Machine/Bits.lean ====
section
/-! DEFINITION. Bit fields, sign extension and byte order on natural numbers and words. Every multi-byte field of the
manual is little-endian unless its rule says otherwise. -/

namespace Sys2Proof.Machine

/-- Bits `[hi:lo]` of `x` (R8). -/
def fld (x hi lo : Nat) : Nat := (x >>> lo) % 2 ^ (hi + 1 - lo)

/-- Bit `i` of `x`. -/
def bit (x i : Nat) : Bool := x.testBit i

/-- `x` with bits `[hi:lo]` replaced by `v`. -/
def setFld (x hi lo v : Nat) : Nat :=
  x - (fld x hi lo) <<< lo + (v % 2 ^ (hi + 1 - lo)) <<< lo

/-- `x` with bit `i` set. -/
def setBit (x i : Nat) : Nat := x ||| (1 <<< i)

/-- `x` with bit `i` clear. -/
def clrBit (x i : Nat) : Nat := if x.testBit i then x - 1 <<< i else x

/-- `x` with bit `i` set to `b`. -/
def putBit (x i : Nat) (b : Bool) : Nat := if b then setBit x i else clrBit x i

/-- One bit as a number. -/
def b2n (b : Bool) : Nat := if b then 1 else 0

/-- The two's complement reading of the low `w` bits of `x`. -/
def toSigned (w x : Nat) : Int :=
  let y := x % 2 ^ w
  if y < 2 ^ (w - 1) then (y : Int) else (y : Int) - (2 ^ w : Nat)

/-- The low `w` bits of an integer. -/
def ofSigned (w : Nat) (x : Int) : Nat := (x % ((2 ^ w : Nat) : Int)).toNat

/-- An integer clamped to `[lo, hi]`. -/
def clampInt (lo hi x : Int) : Int := if x < lo then lo else if hi < x then hi else x

/-- A number clamped to `[lo, hi]` (R645). -/
def clamp (lo hi x : Nat) : Nat := if x < lo then lo else if hi < x then hi else x

/-- A saturating increment of an `n`-bit counter. -/
def satAdd (n x k : Nat) : Nat := if x + k < 2 ^ n then x + k else 2 ^ n - 1

/-- The little-endian number of a list of bytes. -/
def leNat : List Byte → Nat
  | [] => 0
  | b :: bs => b.toNat + 256 * leNat bs

/-- The `n` bytes of a number, least significant first. -/
def leBytes : Nat → Nat → List Byte
  | 0, _ => []
  | n + 1, x => BitVec.ofNat 8 x :: leBytes n (x / 256)

/-- The number of ones in the low `w` bits of `x`. -/
def popCount : Nat → Nat → Nat
  | 0, _ => 0
  | w + 1, x => x % 2 + popCount w (x / 2)

/-- The least `i < n` with `p i`, if there is one. -/
def findBelow (n : Nat) (p : Nat → Bool) : Option Nat := (List.range n).find? p

/-- The sum of `f i` for `i < n`. -/
def sumBelow (n : Nat) (f : Nat → Nat) : Nat := (List.range n).foldl (fun a i => a + f i) 0

/-- `f` applied to a value `n` times with the index of each turn, from 0 upward. -/
def foldBelow {α : Type} (n : Nat) (f : Nat → α → α) (a : α) : α := (List.range n).foldl (fun x i => f i x) a

end Sys2Proof.Machine
end

