-- ==== Sys2Proof/Machine/Ecc.lean ====
section
/-! DEFINITION. The SECDED code of yard cells (R132, R133), the Reed-Solomon line code of the stacks (R199, R200), and
CRC-32C and CRC-64 as the manual uses them. -/

namespace Sys2Proof.Machine

/-- The first 32 of the 7-bit values of weight 3, in ascending order (R132). -/
def weight3 : List Nat :=
  [0x07, 0x0B, 0x0D, 0x0E, 0x13, 0x15, 0x16, 0x19,
   0x1A, 0x1C, 0x23, 0x25, 0x26, 0x29, 0x2A, 0x2C,
   0x31, 0x32, 0x34, 0x38, 0x43, 0x45, 0x46, 0x49,
   0x4A, 0x4C, 0x51, 0x52, 0x54, 0x58, 0x61, 0x62]

/-- The column of data bit `d` of a cell (R132). -/
def dataColumn (d : Nat) : Nat := weight3.getD d 0

/-- The exclusive or of the columns of the ones of `x` among bits below `n`. -/
def columnSum (col : Nat → Nat) (n x : Nat) : Nat :=
  foldBelow n (fun i a => if x.testBit i then a ^^^ col i else a) 0

/-- The check bits of good data (R132). -/
def cellCheck (data : Nat) : Nat := columnSum dataColumn 32 data

/-- A stored cell: 32 data bits with 7 check bits above them. -/
abbrev Cell39 := BitVec 39

/-- The data bits of a stored cell. -/
def Cell39.data (c : Cell39) : W32 := c.setWidth 32

/-- The check bits of a stored cell. -/
def Cell39.check (c : Cell39) : Nat := c.toNat / 2 ^ 32

/-- A cell of data and check bits. -/
def mkCell (data : W32) (check : Nat) : Cell39 := BitVec.ofNat 39 (data.toNat + (check % 128) * 2 ^ 32)

/-- A good cell (R132, R134). -/
def goodCell (data : W32) : Cell39 := mkCell data (cellCheck data.toNat)

/-- The syndrome that marks poison (R132). -/
def poisonSyndrome : Nat := 0x7F

/-- A poisoned cell with the given data (R132). -/
def poisonCell (data : W32) : Cell39 := mkCell data (cellCheck data.toNat ^^^ poisonSyndrome)

/-- The syndrome of a stored cell (R132). -/
def Cell39.syndrome (c : Cell39) : Nat := cellCheck c.data.toNat ^^^ c.check

/-- What a read of a stored cell finds (R133). -/
inductive CellRead where
  /-- Syndrome zero. -/
  | good (data : W32)
  /-- The syndrome equals one column; the data is corrected. -/
  | corrected (data : W32)
  /-- The syndrome is 0x7F. -/
  | poisoned (data : W32)
  /-- Any other syndrome. -/
  | uncorrectable (data : W32)
deriving DecidableEq, Repr

/-- Decoding a stored cell (R133). -/
def Cell39.decode (c : Cell39) : CellRead :=
  let s := c.syndrome
  if s = 0 then .good c.data
  else if s = poisonSyndrome then .poisoned c.data
  else if (List.range 7).any (fun b => s == 1 <<< b) then .corrected c.data
  else match findBelow 32 (fun d => dataColumn d == s) with
    | some d => .corrected (c.data ^^^ BitVec.ofNat 32 (1 <<< d))
    | none => .uncorrectable c.data

/-- The data a read delivers. -/
def CellRead.data : CellRead → W32
  | .good d => d
  | .corrected d => d
  | .poisoned d => d
  | .uncorrectable d => d

/-- Whether a read delivers the poison marker (R133). -/
def CellRead.poison : CellRead → Bool
  | .good _ => false
  | .corrected _ => false
  | .poisoned _ => true
  | .uncorrectable _ => true

/-- The product by x in GF(2^16) with x^16 + x^12 + x^3 + x + 1 (R199). -/
def gfDouble (a : Nat) : Nat :=
  if a.testBit 15 then ((a * 2) % 65536) ^^^ 0x100B else a * 2

/-- The product in GF(2^16), by the bits of the first factor from the highest down (R199). -/
def gfMulBits : Nat → Nat → Nat → Nat → Nat
  | 0, _, _, acc => acc
  | n + 1, a, b, acc =>
    gfMulBits n a b (if a.testBit n then gfDouble acc ^^^ b else gfDouble acc)

/-- The product in GF(2^16) (R199). -/
def gfMul (a b : Nat) : Nat := gfMulBits 16 a b 0

/-- α to the power `k`, α being a root of the field polynomial (R199). -/
def gfPow : Nat → Nat
  | 0 => 1
  | k + 1 => gfDouble (gfPow k)

/-- Three check symbols, C2 first (R199). -/
structure RsCheck where
  c2 : Nat
  c1 : Nat
  c0 : Nat
deriving DecidableEq, Repr

/-- The remainder after one more message symbol, highest coefficient first: division by
(x + 1)(x + α)(x + α^2) = x^3 + 7 x^2 + 14 x + 8 over GF(2^16), α being 2 (R199). -/
def rsStep (r : RsCheck) (sym : Nat) : RsCheck :=
  let f := r.c2 ^^^ sym
  ⟨r.c1 ^^^ gfMul 7 f, r.c0 ^^^ gfMul 14 f, gfMul 8 f⟩

/-- The check symbols of a message D0 … D31, M (R199). -/
def rsCheck (msg : List Nat) : RsCheck := msg.foldl rsStep ⟨0, 0, 0⟩

/-- A stored stack line: 32 data symbols, the metadata symbol and three check symbols (R199). -/
structure Line where
  data  : BitVec 512
  mark  : Nat
  check : RsCheck
deriving DecidableEq, Repr

/-- Data symbol Di: line bytes 2i (low) and 2i + 1 (high) (R199). -/
def lineSym (data : BitVec 512) (i : Nat) : Nat := (data.toNat >>> (16 * i)) % 65536

/-- The message D0 … D31, M. -/
def lineMsg (data : BitVec 512) (mark : Nat) : List Nat := (List.range 32).map (lineSym data) ++ [mark]

/-- The metadata symbol of a poisoned line (R199). -/
def poisonMark : Nat := 0xC3C3

/-- A freshly encoded line (R199, R201). -/
def encodeLine (data : BitVec 512) (poison : Bool) : Line :=
  let m := if poison then poisonMark else 0
  ⟨data, m, rsCheck (lineMsg data m)⟩

/-- What a read of a stored line finds (R200). -/
inductive LineRead where
  /-- Syndromes zero and M good. -/
  | good (data : BitVec 512)
  /-- One symbol corrected, M good. -/
  | corrected (data : BitVec 512)
  /-- M is the poison mark after correction. -/
  | poisoned (data : BitVec 512)
  /-- Anything else. -/
  | uncorrectable (data : BitVec 512)
deriving DecidableEq, Repr

/-- The syndromes S0, S1, S2 (R200): the stored check symbols less the ones computed from the stored message make a
polynomial of degree 2 that agrees with the codeword at 1, α and α^2. -/
def Line.syndromes (l : Line) : Nat × Nat × Nat :=
  let r := rsCheck (lineMsg l.data l.mark)
  let e2 := r.c2 ^^^ l.check.c2
  let e1 := r.c1 ^^^ l.check.c1
  let e0 := r.c0 ^^^ l.check.c0
  (e0 ^^^ e1 ^^^ e2, e0 ^^^ gfMul 2 e1 ^^^ gfMul 4 e2, e0 ^^^ gfMul 4 e1 ^^^ gfMul 16 e2)

/-- Decoding a stored line (R200). A single error of value S0 at coefficient x^k has S1 = S0 α^k and S2 = S0 α^2k; the
coefficients are C0, C1, C2, M, D31 … D0 for k = 0 to 35. -/
def Line.decode (l : Line) : LineRead :=
  let (s0, s1, s2) := l.syndromes
  if s0 = 0 ∧ s1 = 0 ∧ s2 = 0 then
    if l.mark = 0 then .good l.data else if l.mark = poisonMark then .poisoned l.data else .uncorrectable l.data
  else
    match findBelow 36 (fun k => s0 != 0 && s1 == gfMul s0 (gfPow k) && s2 == gfMul s1 (gfPow k)) with
    | none => .uncorrectable l.data
    | some k =>
      let mark := if k = 3 then l.mark ^^^ s0 else l.mark
      let data := if 4 ≤ k then l.data ^^^ BitVec.ofNat 512 (s0 <<< (16 * (35 - k))) else l.data
      if mark = 0 then .corrected data else if mark = poisonMark then .poisoned data else .uncorrectable l.data

/-- The data a read of a line delivers. -/
def LineRead.data : LineRead → BitVec 512
  | .good d => d
  | .corrected d => d
  | .poisoned d => d
  | .uncorrectable d => d

/-- Whether a read of a line delivers the poison marker (R200). -/
def LineRead.poison : LineRead → Bool
  | .good _ => false
  | .corrected _ => false
  | .poisoned _ => true
  | .uncorrectable _ => true

/-- One bit of a reflected CRC register with the given reflected polynomial. -/
def crcBit (poly c : Nat) : Nat := if c.testBit 0 then (c >>> 1) ^^^ poly else c >>> 1

/-- One byte through a reflected CRC register. -/
def crcByte (poly c b : Nat) : Nat := foldBelow 8 (fun _ x => crcBit poly x) (c ^^^ b)

/-- CRC-32C of bytes: reflected polynomial 0x82F63B78, initial value and final XOR all ones (R243). -/
def crc32c (bs : List Byte) : Nat :=
  bs.foldl (fun c b => crcByte 0x82F63B78 c b.toNat) 0xFFFFFFFF ^^^ 0xFFFFFFFF

/-- CRC-64 with polynomial 0x42F0_E1EB_A9EA_3693, reflected, initial value and final XOR all ones (R461). -/
def crc64 (bs : List Byte) : Nat :=
  bs.foldl (fun c b => crcByte 0xC96C5795D7870F42 c b.toNat) 0xFFFFFFFFFFFFFFFF ^^^ 0xFFFFFFFFFFFFFFFF

end Sys2Proof.Machine
end

