-- ==== Sys2Proof/Machine/Map.lean ====
section
/-! DEFINITION. Sparse data by key, in one canonical form: keys strictly rising and no entry equal to what an unlisted
key reads as. Equal contents are equal data. -/

namespace Sys2Proof.Machine

/-- Key and value pairs in canonical form (see `Map.wf`). -/
abbrev Map (α : Type) := List (Nat × α)

/-- The value at key `k`; `d k` when the key is not listed. -/
def Map.get {α : Type} (d : Nat → α) : Map α → Nat → α
  | [], k => d k
  | (j, v) :: m, k => if k = j then v else Map.get d m k

/-- The list with any entry at `k` taken out. -/
def Map.del {α : Type} : Map α → Nat → Map α
  | [], _ => []
  | (j, v) :: m, k => if k = j then Map.del m k else (j, v) :: Map.del m k

/-- The list with `v` entered at `k` whatever `v` is. -/
def Map.ins {α : Type} : Map α → Nat → α → Map α
  | [], k, v => [(k, v)]
  | (j, w) :: m, k, v =>
    if k = j then (k, v) :: m else if k < j then (k, v) :: (j, w) :: m else (j, w) :: Map.ins m k v

/-- Writing `v` at `k`; writing what an unlisted key reads as takes the entry out. -/
def Map.set {α : Type} [DecidableEq α] (d : Nat → α) (m : Map α) (k : Nat) (v : α) : Map α :=
  if v = d k then Map.del m k else Map.ins m k v

/-- Applying `f` to the value at `k`. -/
def Map.upd {α : Type} [DecidableEq α] (d : Nat → α) (m : Map α) (k : Nat) (f : α → α) : Map α :=
  Map.set d m k (f (Map.get d m k))

/-- Whether every key is above `k`. -/
def Map.above {α : Type} (k : Nat) : Map α → Bool
  | [] => true
  | (j, _) :: _ => decide (k < j)

/-- The canonical form: keys strictly rising, and no value equal to the unlisted one. -/
def Map.wf {α : Type} [DecidableEq α] (d : Nat → α) : Map α → Bool
  | [] => true
  | (k, v) :: m => decide (v ≠ d k) && Map.above k m && Map.wf d m

end Sys2Proof.Machine
end

