-- ==== Sys2Proof/Machine/Regs.lean ====
section
/-! DEFINITION. The register pages as an address space: the page directory (R47 to R50), the common header (R51), and for
every register its access type field by field, its reset value and its numeric ranges, as each block's chapter lists
them. A register is named by its byte offset in the register-page window (R40), its key. -/

namespace Sys2Proof.Machine

/-- The parts covered (R1). -/
inductive Part where
  | vm4_11 | vm4_21 | vm4_41 | vm4_22 | vm4_42
deriving DecidableEq, Repr

/-- Memory stacks of a part (R1). -/
def Part.stacks : Part → Nat
  | .vm4_11 => 1 | .vm4_21 => 2 | .vm4_41 => 4 | .vm4_22 => 2 | .vm4_42 => 4

/-- I/O dies of a part (R1). -/
def Part.ioDies : Part → Nat
  | .vm4_11 => 1 | .vm4_21 => 1 | .vm4_41 => 1 | .vm4_22 => 2 | .vm4_42 => 2

/-! ### Block type codes (R48) -/

def T.SYS := 0x01
def T.CLK := 0x02
def T.GOV := 0x03
def T.AON := 0x04
def T.YRD := 0x05
def T.TPK := 0x06
def T.STK := 0x07
def T.CCH := 0x08
def T.CTL := 0x09
def T.DPT := 0x0A
def T.CMP := 0x0B
def T.INK := 0x0C
def T.PYR := 0x0D
def T.WRP := 0x0E
def T.STR := 0x0F
def T.FLW := 0x10
def T.FTR := 0x11
def T.FGS := 0x12
def T.INT := 0x13
def T.BGS := 0x14
def T.TLM := 0x15
def T.HST := 0x16
def T.DBR := 0x17
def T.MTB := 0x18
def T.TWC := 0x19
def T.HMI := 0x1A
def T.FUS := 0x1B
def T.XSP := 0x1C

/-- Pages per instance (page directory). -/
def pagesPer (ty : Nat) : Nat :=
  match ty with
  | 0x01 => 2 | 0x02 => 2 | 0x03 => 2 | 0x04 => 2 | 0x05 => 4 | 0x06 => 8 | 0x07 => 2 | 0x08 => 2 | 0x09 => 2
  | 0x0A => 16 | 0x0B => 1 | 0x0C => 4 | 0x0D => 1 | 0x0E => 1 | 0x0F => 1 | 0x10 => 1 | 0x11 => 1 | 0x12 => 66
  | 0x13 => 4 | 0x14 => 2 | 0x15 => 20 | 0x16 => 17 | 0x17 => 3 | 0x18 => 1 | 0x19 => 1 | 0x1A => 2 | 0x1B => 2
  | 0x1C => 1 | _ => 0

/-- Instances of a block on a part (page directory, R50). -/
def instances (p : Part) (ty : Nat) : Nat :=
  match ty with
  | 0x05 => 64 | 0x07 => p.stacks | 0x08 => 64 | 0x09 => 4 | 0x0B => 16 | 0x0C => p.ioDies
  | 0x0D => 2 | 0x0E => 2 | 0x0F => 2 | 0x10 => 2 | 0x11 => 2 | 0x19 => 4
  | 0x17 => p.ioDies - 1
  | _ => if pagesPer ty = 0 then 0 else 1

/-- The key of a register: its offset in the register-page window (R47). -/
def rk (ty inst page off : Nat) : Nat := ty * 0x100000 + (inst * pagesPer ty + page) * 0x1000 + off

/-- The block type of a key. -/
def keyTy (k : Nat) : Nat := k / 0x100000
/-- The page slot of a key. -/
def keySlot (k : Nat) : Nat := k / 0x1000 % 256
/-- The instance of a key. -/
def keyInst (k : Nat) : Nat := keySlot k / pagesPer (keyTy k)
/-- The page index of a key. -/
def keyPage (k : Nat) : Nat := keySlot k % pagesPer (keyTy k)
/-- The offset of a key in its page. -/
def keyOff (k : Nat) : Nat := k % 0x1000

/-- Whether a key lies in a populated page (R49, R50). -/
def populated (p : Part) (k : Nat) : Bool := decide (keyInst k < instances p (keyTy k))

/-- CAP[2:0] of a block: CAN_INJECT, ASSIGNABLE, HAS_UNIT (R51 and the chapters). -/
def capBits (ty inst : Nat) : Nat :=
  match ty with
  | 0x02 => 4 | 0x03 => 4 | 0x05 => 7 | 0x06 => 4 | 0x07 => 5 | 0x08 => 7
  | 0x09 => if inst = 0 then 5 else 7
  | 0x0A => 4 | 0x0C => 7 | 0x0D => 7 | 0x0E => 7 | 0x0F => 7 | 0x10 => 7 | 0x11 => 7 | 0x12 => 4 | 0x13 => 4
  | 0x16 => 4 | 0x17 => 4 | 0x18 => 4 | 0x19 => 4 | 0x1A => 4 | _ => 0

/-- CAP[31:16]: CLK reads the domains present, every other block 0. -/
def capBlock (p : Part) (ty : Nat) : Nat := if ty = T.CLK then (if p.ioDies = 2 then 0x3FFF else 0x07DF) else 0

/-- Whether a page serves its own STICKY, STICKY_MASK, STICKY_FIRST and INJECT words: page 0, and the INK port pages
(R643). On TLM pages the STICKY words read as zero. -/
def ownSticky (ty page : Nat) : Bool := (page = 0 && ty != T.TLM) || ty = T.INK

/-- Blocks whose ENABLE resets to 1 (R51). -/
def enableReset (ty : Nat) : Bool :=
  ty = T.SYS || ty = T.CLK || ty = T.AON || ty = T.HST || ty = T.MTB || ty = T.FUS || ty = T.XSP

/-! ### Access types (R9) -/

/-- How one 32-bit register word is accessed: masks of its fields by access type, and whether the word is RC, WO or
WO for compartment 0. Bits in no mask are read-only. -/
structure Acc where
  rw  : Nat := 0
  sup : Nat := 0
  w1c : Nat := 0
  w1s : Nat := 0
  rc  : Bool := false
  wo  : Bool := false
  woc : Bool := false
deriving DecidableEq, Repr

namespace Acc
/-- Read-only. -/
def ro : Acc := {}
/-- All bits RW. -/
def full : Acc := { rw := 0xFFFFFFFF }
/-- All bits supervisor-RW. -/
def supFull : Acc := { sup := 0xFFFFFFFF }
/-- RC. -/
def count : Acc := { rc := true }
/-- WO. -/
def writeOnly : Acc := { wo := true }
/-- WO, compartment 0. -/
def writeOnlySup : Acc := { woc := true }
end Acc

/-- Whether `off` lies in `[base, base + len)`. -/
def inR (off base len : Nat) : Bool := base ≤ off && off < base + len

/-- The widths and rates of the endpoint (R501): x1, x2 or x4, and rates 1 to 4. -/
def linkFits (width rate : Nat) : Bool := (width = 1 || width = 2 || width = 4) && inR rate 1 4

/-- Access types of the block registers, offsets 0x040 and above, of each block. -/
def blockAcc (ty page off : Nat) : Acc :=
  match ty with
  | 0x01 =>
    if page = 0 then
      if off = 0x048 then .writeOnly else if off = 0x054 then { rw := 0xFFFF } else if off = 0x058 then .writeOnly
      else if off = 0x060 then .full else .ro
    else if off = 0x048 then { rw := 7 } else .ro
  | 0x02 =>
    if page = 0 then
      if off = 0x040 then { rw := 0x110, w1s := 0x200 } else if off = 0x04C then { rw := 0xFFFF } else .ro
    else if off = 0x048 then .count else .ro
  | 0x03 =>
    if page = 0 then
      if off = 0x040 then { rw := 0x313, w1s := 0x400 } else if off = 0x048 then .full
      else if off = 0x04C then { rw := 0xFF00FF } else if off = 0x050 then .full else if off = 0x054 then .full
      else if off = 0x058 then { rw := 0x1F3F } else if off = 0x05C then { rw := 0xFFFF }
      else if inR off 0x060 8 then .full else if off = 0x070 then { rw := 0xFFFF } else .ro
    else if off = 0x040 then { rw := 0xFFD7F } else if off = 0x04C then { rw := 0xFFFF }
      else if off = 0x050 then { rw := 0xFFFF } else .ro
  | 0x04 =>
    if page = 0 then
      if inR off 0x048 8 then .full else if off = 0x050 then { rw := 0x7FFFB } else if off = 0x05C then { rw := 0x377 }
      else .ro
    else .ro
  | 0x05 =>
    match page with
    | 0 =>
      if off = 0x044 then { sup := 0xFF } else if off = 0x048 then .writeOnlySup
      else if inR off 0x050 32 then .supFull else if off = 0x070 then { rw := 0x3FF } else .ro
    | 1 =>
      if off = 0x040 then { rw := 0x3FF } else if off = 0x044 then { sup := 0xF } else if off = 0x050 then .writeOnly
      else .ro
    | 2 =>
      if off = 0x044 then .count
      else if inR off 0x800 0x800 then (if off % 8 = 0 then { sup := 0xFFFFFF } else { sup := 0xFC000000 }) else .ro
    | _ =>
      if inR off 0x040 0x14 then .count else if inR off 0x100 0x80 then .count else if inR off 0x200 0x40 then .count
      else .ro
  | 0x06 =>
    match page with
    | 0 => if off = 0x040 then { rw := 0x100 } else if off = 0x044 then { rw := 0xFFFF }
           else if inR off 0x048 0x14 then .count else .ro
    | 1 => if off = 0x040 then { sup := 0x1FFF } else if off = 0x044 then { sup := 0xFF }
           else if off = 0x048 then .writeOnlySup else if off = 0x050 then { sup := 0x7F }
           else if off = 0x054 then .writeOnlySup else .ro
    | 6 => if inR off 0x040 0xC then .count else .ro
    | 7 => if inR off 0x040 0x18 then .count else .ro
    | _ => .ro
  | 0x07 =>
    if page = 0 then
      if off = 0x04C then .writeOnlySup else if off = 0x050 then { sup := 0x80000000 }
      else if off = 0x058 then { rw := 0xFFFF } else .ro
    else if inR off 0x040 0x18 then .count else if inR off 0x060 8 then .full
      else if off = 0x068 then { rw := 0x8000FFFF } else .ro
  | 0x08 =>
    if page = 0 then .ro
    else if off = 0x040 then { sup := 7 } else if inR off 0x048 16 then .supFull
      else if off = 0x058 then { sup := 0x3FF } else if inR off 0x060 8 then .supFull
      else if inR off 0x080 0x24 then .count else .ro
  | 0x09 =>
    if page = 0 then
      if off = 0x040 then { sup := 0xF1 } else if inR off 0x048 8 then .supFull
      else if off = 0x050 then { sup := 0x3FFFF } else if off = 0x054 then { sup := 0x3FFFF }
      else if off = 0x068 then { sup := 7 } else .ro
    else if inR off 0x040 8 then { sup := 0x3FFFF } else if inR off 0x048 8 then .count
      else if off = 0x058 then { w1s := 1 } else .ro
  | 0x0A =>
    match page with
    | 0 =>
      if inR off 0x048 8 then .supFull else if off = 0x050 then .supFull else if off = 0x054 then .writeOnlySup
      else if off = 0x05C then { sup := 0x3F00 } else if off = 0x060 then { sup := 0xFFFF } else .ro
    | 1 =>
      if off = 0x040 then { sup := 0xFFFF } else if off = 0x044 then .writeOnlySup
      else if inR off 0x050 24 then .supFull else .ro
    | 2 =>
      if off = 0x040 then { sup := 0xFFFFF } else if off = 0x050 then .writeOnlySup
      else if inR off 0x100 0x80 then .supFull else .ro
    | 3 => if off = 0x048 then .count else .ro
    | 4 => if off = 0x050 then .count else .ro
    | 5 => .ro
    | 6 => if inR off 0x040 0x2C then .count else .ro
    | 7 => .ro
    | _ => if inR off 0x040 0x18 || inR off 0x080 0x18 then .count else .ro
  | 0x0B =>
    if off = 0x044 then .writeOnlySup else if off = 0x04C then { sup := 0x101 } else if inR off 0x050 8 then .supFull
    else if off = 0x058 then { sup := 0x1FFF } else if off = 0x060 then .supFull else if off = 0x064 then { sup := 0xFF }
    else if off = 0x070 then { sup := 0x8000FFFF } else if inR off 0x074 8 then .count
    else if inR off 0x080 0x40 then .supFull else if off = 0x0C4 then .supFull
    else if inR off 0x0D0 0x28 then .count else .ro
  | 0x0C =>
    if page = 0 then
      if off = 0x040 then .count else if off = 0x050 then .count
      else if inR off 0x100 0xC0 then
        (if off % 0x20 = 0 then { sup := 0xC000FFFF } else if off % 0x20 < 0x10 then .supFull else .ro)
      else .ro
    else if off = 0x040 then { sup := 0xB8000000 } else if off = 0x044 then .supFull else if off = 0x048 then .supFull
      else if inR off 0x090 16 then .writeOnlySup else if inR off 0x0C0 0x34 then .count
      else if inR off 0x100 0x100 then .supFull else .ro
  | 0x12 =>
    match page with
    | 0 =>
      if inR off 0x040 8 then .supFull else if off = 0x048 then { sup := 0x3F } else if off = 0x04C then .writeOnlySup
      else if inR off 0x058 8 then .supFull else .ro
    | 1 => if inR off 0x040 0x1C then .count else .ro
    | _ => if off = 0x054 then .count else if inR off 0x060 0x14 then .count else if inR off 0x080 0x14 then .count
           else .ro
  | 0x13 =>
    match page with
    | 0 =>
      if off = 0x040 then { sup := 0x101 } else if off = 0x044 then .supFull else if off = 0x04C then .supFull
      else if inR off 0x050 0x30 then .count else if off = 0x100 then .writeOnlySup
      else if inR off 0x108 0xC then .supFull else if off = 0x200 then { sup := 0x3F }
      else if off = 0x204 then .writeOnlySup else if inR off 0x210 16 then .supFull
      else if off = 0x220 then .supFull else if inR off 0x228 8 then .supFull else .ro
    | 1 =>
      if off = 0x040 then .supFull else if inR off 0x048 8 then .supFull
      else if inR off 0x100 0x200 then
        (if off % 0x20 = 0 then { sup := 0xE7FF07FF } else if off % 0x20 = 4 then .supFull
         else if off % 0x20 = 8 then { sup := 0xFFFF } else .ro)
      else .ro
    | 2 =>
      if off = 0x040 then { sup := 0xFF } else if off = 0x044 then .supFull else if off = 0x048 then .supFull
      else if off = 0x080 then { sup := 0xFFFF } else .ro
    | _ =>
      if inR off 0x040 8 then .supFull else if off = 0x048 then { sup := 0x11F } else if inR off 0x050 8 then .supFull
      else if off = 0x060 then .count else .ro
  | 0x14 =>
    if page = 0 then
      if off = 0x040 then { sup := 7 } else if off = 0x044 then .supFull else if inR off 0x04C 8 then .supFull else .ro
    else if off = 0x040 then { sup := 0xFFFF000F } else if off = 0x04C then .supFull else .ro
  | 0x15 =>
    match page with
    | 0 => if off = 0x040 then .supFull else if off = 0x044 then { sup := 0xFFFF, w1s := 0x80000000 } else .ro
    | 1 => if inR off 0x100 8 then .supFull else if off = 0x108 then { sup := 0x1F } else if off = 0x10C then .supFull
           else .ro
    | 2 => .ro
    | 3 => .ro
    | _ => if inR off 0x100 8 then .supFull else if off = 0x108 then { sup := 0x1F } else .ro
  | 0x16 =>
    if page = 0 then
      if off = 0x048 then { sup := 1 } else if inR off 0x050 0x14 then .count
      else if inR off 0x200 0x400 then .supFull else .ro
    else if off = 0x048 then .count else if off = 0x058 then .count
      else if inR off 0x400 0x100 then { rw := 0x8000FFFF, w1s := 0x40000000 }
      else if inR off 0x800 0x400 then .full else .ro
  | 0x17 =>
    if page = 0 then
      if off = 0x040 then { sup := 0xF0300 } else if off = 0x044 then .writeOnlySup
      else if inR off 0x04C 0xC then .supFull else .ro
    else if off = 0x040 then { sup := 1 } else if inR off 0x048 0xC then .count
      else if inR off 0x058 16 then .count else .ro
  | 0x18 => if off = 0x044 then { sup := 0x3F } else if inR off 0x050 0x14 then .count else .ro
  | 0x19 =>
    if off = 0x040 then { sup := 0xFF07 } else if off = 0x044 then .supFull else if off = 0x04C then .writeOnlySup
    else if off = 0x054 then .writeOnlySup else if inR off 0x060 0x18 then .count else if off = 0x080 then { sup := 0x3FF }
    else if off = 0x084 then .supFull else if inR off 0x100 0x100 then { sup := 0x8F3FF3FF } else .ro
  | 0x1A =>
    if page = 0 then
      if off = 0x04C then { sup := 0xFFFF07FF } else if off = 0x050 then { sup := 0xFFF }
      else if inR off 0x080 0xB8 then (if off % 8 = 0 then { sup := 0xFC7FFF00 } else { sup := 0xFFFF })
      else if inR off 0x140 0x20 then { sup := 0xFFFFFF0F } else if inR off 0x1A0 0x5C then .count
      else if inR off 0x200 8 then .count else .ro
    else if inR off 0x040 0x40 then
        (if off % 0x10 = 0 then { sup := 0xC1F0FFFF } else if off % 0x10 = 4 then { sup := 0x0FFF0FFF }
         else if off % 0x10 = 8 then .supFull else .ro)
      else if off = 0x080 then .writeOnly else .ro
  | 0x1B =>
    if page = 0 then .ro
    else if off = 0x040 then { sup := 0x7F } else if off = 0x044 then .supFull else if off = 0x048 then .writeOnlySup
      else .ro
  | 0x1C =>
    if off = 0x040 then { sup := 0xFF03FF } else if off = 0x044 then .writeOnlySup
    else if off = 0x048 then { sup := 0xFFFFFFF } else if inR off 0x100 0x100 then .supFull else .ro
  | _ =>
    -- the five vision engines share one layout, with counters of their own from 0x080 (chapters 11 and 12)
    if 0x0D ≤ ty && ty ≤ 0x11 then
      (if inR off 0x050 4 || inR off 0x058 0x20 then .count
       else if inR off 0x080 0x18 then .count else .ro)
    else .ro

/-- The access type of a register word, header included (R51, R56, R643). -/
def accOf (k : Nat) : Acc :=
  let ty := keyTy k
  let page := keyPage k
  let off := keyOff k
  if off < 0x040 then
    if off = 0x008 then (if ty = T.MTB then { w1s := 0xE } else { rw := 1, w1s := 0xE })
    else if off = 0x010 then (if ownSticky ty page then { w1c := 0xFFFFFFFF } else .ro)
    else if off = 0x014 then (if ownSticky ty page then .full else .ro)
    else if off = 0x01C then (if ownSticky ty page then .writeOnly else .ro)
    else if off = 0x024 then (if page = 0 && (capBits ty (keyInst k)).testBit 1 then { sup := 0xF } else .ro)
    else .ro
  else blockAcc ty page off

/-! ### Reset values -/

/-- Reset values of block registers that are not zero. -/
def blockReset (p : Part) (ty inst page off : Nat) : Nat :=
  match ty with
  | 0x01 => if page = 0 && off = 0x040 then 0x10000 + p.ioDies * 0x100 + p.stacks
            else if page = 1 && off = 0x048 then 3 else 0
  | 0x02 => if page = 0 then (if off = 0x040 then 0x100 else if off = 0x04C then 0xA else 0)
            else if off = 0x040 then (if p.ioDies = 2 then 0x3FFF else 0x07DF) else 0
  | 0x03 =>
    if page = 0 then
      (match off with
       | 0x040 => 0x100 | 0x048 => 0x03520258 | 0x04C => 0x00020005 | 0x050 => 0x0040001A | 0x054 => 0x2710
       | 0x058 => 0x408 | 0x05C => 0x2EE | 0x070 => 0x64 | _ => 0)
    else
      (match off with
       | 0x040 => 0xA140 | 0x04C => 0x6E696164 | 0x050 => 0x50A | 0x054 => 0x258 | _ => 0)
  | 0x06 => if page = 0 then (if off = 0x040 then 0x100 else if off = 0x044 then 0x3E8 else 0) else 0
  | 0x07 => if page = 0 && off = 0x058 then 0x64 else 0
  | 0x0A => if page = 0 then (if off = 0x050 then 0x3E8 else if off = 0x060 then 0x64 else 0) else 0
  | 0x0B => if off = 0x0C4 && inst = 0 then 0x2710 else 0
  | 0x0C => if page = 0 then 0 else if off = 0x044 then 0x0232000A else if off = 0x048 then 0x3E8 else 0
  | 0x12 => if 2 ≤ page && off = 0x054 then 0x7FFF else 0
  | 0x13 =>
    (match page with
     | 0 => if off = 0x040 then 0x101 else if off = 0x044 then 0x7D0 else if off = 0x04C then 0x3E8 else 0
     | 1 => if off = 0x040 then 0xF4240 else if off = 0x048 then 0x40400000 else if off = 0x04C then 0x4F32D05E
            else if inR off 0x100 0x200 && off % 0x20 = 8 then 0x40 else 0
     | 2 => if off = 0x040 then 4 else if off = 0x044 then 0x989680 else if off = 0x048 then 0x100040 else 0
     | _ => if off = 0x048 then 0x10A else if off = 0x058 then 1 else 0)
  | 0x14 =>
    if page = 0 then
      (match off with
       | 0x040 => 7 | 0x044 => 0x100 | 0x04C => 0xEA60 | 0x050 => 0x100000 | _ => 0)
    else if off = 0x040 then 0x03E80004 else if off = 0x04C then 0x0E104E20 else 0
  | 0x15 =>
    (match page with
     | 0 => if off = 0x040 then 0x3E8 else 0
     | 1 => if off = 0x108 then 0xA else if off = 0x10C then 0xF4240 else 0
     | 2 => 0
     | 3 => 0
     | _ => if off = 0x108 then 6 else 0)
  | 0x17 => if page = 0 then (if off = 0x04C then 0x40 else if off = 0x050 then 0x64 else if off = 0x054 then 0xF4240 else 0)
            else 0
  | 0x16 => if page ≠ 0 && inR off 0x800 0x400 && off % 16 = 12 then 1 else 0
  | 0x18 => if off = 0x044 then 0x3E else 0
  | 0x19 => if off = 0x040 then 3 else if off = 0x044 then 0x03E803E8 else 0
  | 0x1A =>
    if page = 0 then
      (if off = 0x04C then 0x14000100 else if off = 0x050 then 0xA
       else if inR off 0x080 0xB8 && off % 8 = 4 then 0x800
       else if inR off 0x140 0x20 then 0x06403208 else 0)
    else 0
  | _ => 0

/-- What a register word reads as when nothing has been stored in it since reset (R51 and the chapters). -/
def regDefault (p : Part) (k : Nat) : W32 :=
  if !populated p k then 0
  else
    let ty := keyTy k
    let inst := keyInst k
    let page := keyPage k
    let off := keyOff k
    if off < 0x040 then
      BitVec.ofNat 32 <|
        if off = 0x000 then ty * 65536 + inst * 256 + page
        else if off = 0x004 then 0x01000000
        else if off = 0x008 then (if page = 0 && enableReset ty then 1 else 0)
        else if off = 0x00C then (if page = 0 && enableReset ty then 1 else 0)
        else if off = 0x020 then capBlock p ty * 65536 + pagesPer ty * 256 + capBits ty inst
        else if off = 0x024 then (if ty = T.CMP then inst else 0)
        else 0
    else BitVec.ofNat 32 (blockReset p ty inst page off)

/-! ### What survives resets -/

/-- Words of the always-on island that a warm reset and a cold restart keep: sticky fields (R10), the strap latches (R110),
RESET_CAUSE, which names the latest cause record, and the registers a chapter marks "kept". DESIGN CHOICE (log entry 142):
STICKY_MASK of AON page 0 is not among them. -/
def keptWord (k : Nat) : Bool :=
  let ty := keyTy k
  let page := keyPage k
  let off := keyOff k
  if off = 0x010 || off = 0x018 then true
  else if ty = T.AON then 0x040 ≤ off
  else if ty = T.SYS then page = 0 && (off = 0x044 || off = 0x050)
  else if ty = T.CLK then page = 0 && (off = 0x058 || off = 0x05C)
  else if ty = T.INT then (page = 2 && inR off 0x050 0x28) || (page = 3 && inR off 0x058 8)
  else if ty = T.HMI then page = 0 && (off = 0x044 || off = 0x050 || inR off 0x080 0xB8)
  else false

/-! ### Numeric ranges (R645) -/

/-- The numeric ranges of a register word: high bit, low bit, least and greatest value. GOV's WINDOW, which the spec gives the
bits [4:0] and the range 1 to 32, is held in [5:0] so that it can hold 32: DESIGN CHOICE, log entry 128. -/
def rangesOf (k : Nat) : List (Nat × Nat × Nat × Nat) :=
  let page := keyPage k
  let off := keyOff k
  match keyTy k with
  | 0x02 => if page = 0 && off = 0x04C then [(15, 0, 1, 1000)] else []
  | 0x03 =>
    if page = 0 then
      (match off with
       | 0x04C => [(23, 16, 1, 8), (7, 0, 1, 50)]
       | 0x054 => [(31, 0, 1000, 1000000)]
       | 0x058 => [(12, 8, 1, 31), (5, 0, 1, 32)]
       | 0x070 => [(15, 0, 10, 5000)]
       | _ => [])
    else []
  | 0x05 => if page = 0 && off = 0x070 then [(9, 0, 0, 767)] else []
  | 0x06 => if page = 0 && off = 0x044 then [(15, 0, 200, 65535)] else []
  | 0x07 => if page = 0 && off = 0x058 then [(15, 0, 10, 1000)] else []
  | 0x0A => if page = 0 then
      (if off = 0x050 then [(31, 0, 100, 1000000)] else if off = 0x060 then [(15, 0, 1, 65535)] else []) else []
  | 0x0B => if off = 0x0C4 then [(31, 0, 1000, 1000000)] else []
  | 0x0C =>
    if page = 0 then (if inR off 0x100 0xC0 && off % 0x20 = 4 then [(31, 0, 100, 10000000)] else [])
    else if off = 0x048 then [(31, 0, 10, 65535)]
    else if inR off 0x100 0x100 then
      (if off % 0x40 = 4 || off % 0x40 = 8 then [(15, 0, 1, 4096)] 
       else if off % 0x40 = 0x1C then [(26, 24, 0, 6), (11, 0, 1, 4000)] else [])
    else []
  | 0x13 =>
    (match page with
     | 0 => if off = 0x044 then [(31, 0, 100, 1000000)] else []
     | 1 => if off = 0x040 then [(31, 0, 10000, 100000000)]
            else if inR off 0x100 0x200 && off % 0x20 = 8 then [(15, 0, 2, 65535)]
            else if inR off 0x100 0x200 && off % 0x20 = 0 then [(26, 16, 0, 1024), (10, 0, 0, 1024)] else []
     | 2 => if off = 0x040 then [(7, 0, 1, 255)] else []
     | _ => if off = 0x048 then [(4, 0, 4, 16)] else [])
  | 0x14 =>
    if page = 0 then
      (if off = 0x044 then [(31, 0, 1, 4096)] else if off = 0x04C then [(31, 0, 1000, 86400000)]
       else if off = 0x050 then [(31, 0, 0x1000, 0x4000000)] else [])
    else if off = 0x040 then [(31, 16, 100, 60000), (3, 0, 1, 15)] else []
  | 0x15 =>
    (match page with
     | 0 => if off = 0x040 then [(31, 0, 100, 1000000)] else []
     | 1 => if off = 0x108 then [(4, 0, 4, 16)] else if off = 0x10C then [(31, 0, 1000, 100000000)] else []
     | 2 => []
     | 3 => []
     | _ => if off = 0x108 then [(4, 0, 4, 12)] else [])
  | 0x17 =>
    if page = 0 then
      (if off = 0x040 then [(19, 16, 2, 4)] else if off = 0x04C then [(31, 0, 16, 1024)]
       else if off = 0x050 then [(31, 0, 10, 100000)] else [])
    else []
  | 0x19 => if off = 0x040 then [(15, 8, 1, 100)] else if off = 0x044 then [(31, 16, 52, 65535), (15, 0, 100, 65535)] else []
  | 0x1A =>
    if page = 0 then
      (if off = 0x04C then [(31, 24, 1, 255), (10, 0, 64, 1024)] else if off = 0x050 then [(11, 0, 0, 3600)]
       else if inR off 0x080 0xB8 then (if off % 8 = 0 then [(22, 16, 0, 64)] else [(15, 8, 1, 255)])
       else if inR off 0x140 0x20 then [(3, 0, 1, 15)] else [])
    else if inR off 0x040 0x40 && off % 0x10 = 0 then [(15, 0, 1, 65535)]
    else []
  | 0x1C => if off = 0x040 then [(7, 0, 1, 255)] else []
  | _ => []

/-- A value with each ranged field brought inside its range (R645). -/
def clampRanges (k v : Nat) : Nat :=
  (rangesOf k).foldl (fun v r => setFld v r.1 r.2.1 (clamp r.2.2.1 r.2.2.2 (fld v r.1 r.2.1))) v

end Sys2Proof.Machine
end

