-- ==== Sys2Proof/Machine/TypesMem.lean ====
section
/-! DEFINITION. Data types of requesters, accesses, the yard (chapter 5), the turnpike and the memory stacks
(chapter 6). -/

namespace Sys2Proof.Machine

/-- What issues an access (R57, R62, R165). -/
inductive Who where
  | coach (n : Fin 64)
  | ctl (n : Fin 4)
  | engine (n : Fin 10)
  | intake (n : Fin 2)
  /-- The PCIe physical function is 0, virtual function n is n (R30). -/
  | host (f : Fin 16)
  | mgmt
  | tap
  /-- A drawbar port, carrying the compartment of the originating requester (R57). -/
  | drawbar (p : Fin 2) (cmp : Fin 16)
  | depot
  | fgs
  | integ
  | bgs
  | tlm
deriving DecidableEq, Repr

/-- The unit id of a requester that is a unit, and 0xFF for the others (R259, R310). -/
def Who.unitId : Who → Nat
  | .coach n => n.val
  | .ctl n => 0x40 + n.val
  | .engine n => 0x48 + n.val
  | _ => 0xFF

/-- Whether a requester is a host function. -/
def Who.isHost : Who → Bool
  | .host _ => true
  | _ => false

/-- The failure kinds of R167. -/
inductive Kind where
  | refusedRights | noRegion | bounds | claimed | pathParity | partialUe | unitStabled | stackOffline | remote
  | postmortemHeld
deriving DecidableEq, Repr

/-- The code of a failure kind (R167). -/
def Kind.code : Kind → Nat
  | .refusedRights => 1 | .noRegion => 2 | .bounds => 3 | .claimed => 4 | .pathParity => 5 | .partialUe => 6
  | .unitStabled => 7 | .stackOffline => 8 | .remote => 9 | .postmortemHeld => 0xA

/-- Kinds that are refusals: an imprecise access fault, or ABORT_FAULT of the job (R169). -/
def Kind.isRefusal : Kind → Bool
  | .refusedRights => true | .noRegion => true | .bounds => true | .claimed => true | .postmortemHeld => true
  | _ => false

/-- How a read or write asks to be treated: for whom it acts, whether it is an instruction fetch, and whether it came
through BAR4 (R142, R304). -/
structure Access where
  who   : Who
  cmp   : Nat
  write : Bool := false
  fetch : Bool := false
  bar4  : Bool := false
  /-- The unit whose claim of private regions the access runs under (R173), as a unit id. -/
  unit  : Nat := 0xFF
  /-- A stream engine's access (R169). -/
  stream : Bool := false
  /-- A write that is not posted: it counts in no tally (R154, R244). -/
  direct : Bool := false
  /-- An intake's port whose writes to stack memory cross the second bundle of its die's pair (R195). -/
  second : Bool := false
deriving DecidableEq, Repr

/-- What a check of an access finds (R142). -/
inductive Verdict where
  | ok
  | held
  | poison
  | fail (k : Kind) (owner : Option Nat)
deriving DecidableEq, Repr

/-- The answer an access returns to its initiator. -/
inductive Answer where
  /-- Data bytes, and whether any of them carries the poison marker. -/
  | data (bytes : List Byte) (poison : Bool)
  /-- A result code. -/
  | code (c : Nat)
  /-- Refused, with the failure kind (R59). -/
  | refused (k : Kind)
  /-- Held: the access waits (R171). -/
  | waits
  /-- A drawbar flit left a port: its 128 bytes (R522). -/
  | flit (port : Nat) (bytes : List Byte)
  /-- An MSI-X message of a vector (R513). -/
  | message (vector : Nat)
  /-- A memory request to the host, with the function of its requester ID (R509). -/
  | outbound (fn : Nat) (write : Bool) (addr len : Nat)
  /-- An error message of a function, for an Unsupported Request on a posted request (R514). -/
  | errorMessage
  /-- Text on UART_TX (R593). -/
  | line (chars : List Byte)
  /-- The cells of the boundary register, group by group, as they are shifted out (R585). -/
  | cells (groups : List Nat)
deriving DecidableEq, Repr

/-- A byte with the poison marker of its cell. -/
abbrev PByte := Byte × Bool

/-- The latest answer that left the module, and to whom. -/
structure Response where
  who    : Who
  answer : Answer
deriving DecidableEq, Repr

/-! ### The yard -/

/-- A page-map entry (PAGE_MAP, R172). -/
structure PageEntry where
  valid     : Bool := false
  sweeping  : Bool := false
  clean     : Bool := true
  lastOwner : Nat := 0
  desc      : Nat := 0
deriving DecidableEq, Repr

/-- What happens to a region when its sweep ends. -/
inductive SweepGoal where
  | none
  /-- COMMIT completes (R139). -/
  | commit
  /-- The pages become free (R141, R175). -/
  | release
  /-- The region is unclaimed and usable again (R174). -/
  | keep
deriving DecidableEq, Repr

/-- A region descriptor slot (R136, R137). -/
structure Desc where
  w0    : Nat := 0
  w1    : Nat := 0
  w2    : Nat := 0
  w3    : Nat := 0
  /-- The unit that has claimed the region (R173). -/
  claim : Option Nat := Option.none
  /-- Held after a compartment kill (R175). -/
  held  : Bool := false
  goal  : SweepGoal := SweepGoal.none
deriving DecidableEq, Repr

/-- A tally (R153). -/
structure Tally where
  value : Nat := 0
  accum : Nat := 0
  owner : Nat := 0
deriving DecidableEq, Repr

/-- Who a tally watch is for (R157, R238, R273, R417). -/
inductive WatchFor where
  | waybill (queue slot : Nat)
  | core (unit : Nat)
  | graph (slot : Nat)
deriving DecidableEq, Repr

/-- A tally watch (R157). -/
structure Watch where
  tally  : Nat
  thresh : Nat
  waiter : WatchFor
deriving DecidableEq, Repr

/-- The kinds of a semaphore (SEM KIND). -/
inductive SemKind where
  | unused | counting | lock | reserved
deriving DecidableEq, Repr

/-- The states of a lock (SEM STATE). -/
inductive LockState where
  | free | held | broken
deriving DecidableEq, Repr

/-- A semaphore (R158, SEM[k]). -/
structure Sem where
  owner       : Nat := 0
  kind        : SemKind := .unused
  state       : LockState := .free
  holderCmp   : Nat := 0
  holderEpoch : Nat := 0
  holderId    : Nat := 0
  holderMod   : Nat := 0
  value       : Nat := 0
deriving DecidableEq, Repr

/-- A queued semaphore request (R160). -/
structure Waiter where
  sem      : Nat
  holder   : Nat
  cmp      : Nat
  epoch    : Nat
  acquire  : Bool
  amount   : Nat
  deadline : Option Nat
deriving DecidableEq, Repr

/-- Where the header of a packet can fail its parity. -/
inductive Hop where
  /-- A link of the mesh (R182). -/
  | link (n : Fin 128)
  /-- A stop of the pixel ring (R194). -/
  | ring (stop : Fin 76)
  /-- A die-to-die bundle (R196). -/
  | bundle (n : Fin 8)
deriving DecidableEq, Repr

/-- What befalls an access on its way, if anything (R440, R442). -/
inductive Mishap where
  | clear
  /-- The header fails parity on a link (R182). -/
  | link (n : Fin 128)
  /-- The header of a ring flit fails parity at a stop (R194). -/
  | ring (stop : Fin 76)
  /-- The header fails parity on a die-to-die bundle: TB0A, TB0B, PB0, CB0, TB1A, TB1B, PB1, CB1 (R196). -/
  | bundle (n : Fin 8)
  /-- A route-table entry of a station has flipped bits, one or more than one, in ACTIVE or SHADOW (R192). -/
  | route (station dest : Fin 64) (shadow double : Bool)
  /-- A control structure of the cluster where the access lands has an uncorrectable error (R466). -/
  | cluster
  /-- Its data fails byte parity at the consumer: a read is poisoned, a write fails (R74, R442). -/
  | data
  /-- A full buffer at its ring stop leaves its flits in their slots, so many times round (R194). -/
  | full (rounds : BitVec 16)
  /-- The header of its response fails parity: what it asked is done, and the requester hears nothing (R182, R183). -/
  | reply (hop : Hop)
deriving DecidableEq, Repr

/-- What comes of a packet on its way: it arrives, its data is spoiled, it is lost, or it arrives and its response is
lost. -/
inductive Fate where
  | arrives | spoiled | lost | unheard
deriving DecidableEq, Repr

/-- Turntable modes (R147). -/
inductive TtMode where
  | linear | row | col | transpose | stride
deriving DecidableEq, Repr

/-- An access that waits: at a cluster until a sweep ends (R171), at its source until an epoch switch is over (R189), or
behind one of those (R152). -/
structure HeldAccess where
  /-- The station of the cluster, or 64 plus the edge station of a stack access. -/
  station : Nat
  acc     : Access
  addr    : Nat
  data    : List Byte
  tag     : Nat
  mode    : TtMode := .linear
  /-- Cells, element size and stride of a read. -/
  cells   : Nat := 0
  elem    : Nat := 32
  stride  : Nat := 1
  /-- Bytes of a read that is not a turntable access; 0 for one that is. -/
  len     : Nat := 0
  /-- The data of a write has lost its parity on the way (R442). -/
  spoiled : Bool := false
  /-- The address at which the part of a turntable write that waits is checked (R149). -/
  part    : Option Nat := none
deriving DecidableEq, Repr

/-- A lock reap in progress after an epoch advance (R162). -/
structure Reap where
  holderMod : Nat
  holder    : Nat
  epoch     : Nat
  /-- Stations whose cluster has finished, one bit each. -/
  done      : Nat := 0
deriving DecidableEq, Repr

/-- How far a posted write or an injected read has come (R165, R183). -/
inductive FlightState where
  /-- Accepted at the target; the acknowledgement is on its way. -/
  | acked
  /-- Dropped at the target; a failure notice is on its way. -/
  | failed (k : Kind)
  /-- No response has come yet. -/
  | pending
deriving DecidableEq, Repr

/-- A posted write, read or atomic that its initiator is still waiting for (R165, R183). -/
structure Flight where
  who    : Who
  cmp    : Nat
  tag    : Nat
  serial : Nat
  addr   : Nat
  posted : Bool
  st     : FlightState
  /-- The tick of injection, from which RSP_TIMEOUT counts (R183). -/
  since  : Nat := 0
  /-- A stream engine's write (R169). -/
  stream : Bool := false
deriving DecidableEq, Repr

/-- A tally increment on its way from the station where its cells have landed (R154). -/
structure Landed where
  tally   : Nat
  cells   : Nat
  granule : Nat
  station : Nat
deriving DecidableEq, Repr

/-- The yard's state beyond its registers. -/
structure YardState where
  /-- Stored cells by cell number, address / 4 (R129). -/
  cells    : Map Cell39 := []
  /-- Page-map entries by station × 768 + page. -/
  pages    : Map PageEntry := []
  /-- Descriptor slots by descriptor id, station × 256 + slot. -/
  descs    : Map Desc := []
  /-- Slots whose COMMIT or RELEASE still runs, by station: slot plus 1, 0 for none (DESC_STATUS BUSY). -/
  busy     : Map Nat := []
  /-- Tallies by station × 1024 + index. -/
  tallies  : Map Tally := []
  watches  : List Watch := []
  /-- Semaphores by station × 256 + index. -/
  sems     : Map Sem := []
  waiters  : List Waiter := []
  held     : List HeldAccess := []
  /-- Holder epochs by holder id (R161). -/
  epochs   : Map Nat := []
  reaps    : List Reap := []
  /-- Scrub write-backs pending: cell numbers and the cells as the scrub read them (R482). -/
  scrubbed : List (Nat × Cell39) := []
  /-- Tally increments on their way, oldest first (R154). -/
  landed   : List Landed := []
  /-- Regions whose release sweep still runs although their slot has been committed again, by descriptor id (R138,
  R141). -/
  orphans  : List (Nat × Desc) := []
  /-- Accesses that a sweep holds while their requester keeps them: by requester and address, oldest first (R171). -/
  waits    : List (Who × Nat) := []
deriving DecidableEq, Repr

/-- Yard atomic operations (R135). -/
inductive AmoOp where
  | add | and | or | swap | cas | min | max | minu | maxu
deriving DecidableEq, Repr

/-- The operation code of an atomic (R219). -/
def AmoOp.func : AmoOp → Nat
  | .add => 0 | .and => 1 | .or => 2 | .swap => 3 | .cas => 4 | .min => 5 | .max => 6 | .minu => 7 | .maxu => 8

/-- Semaphore operations, in func order (R159, R219). -/
inductive SemOp where
  | signal | wait | acquire | release
deriving DecidableEq, Repr

/-! ### The turnpike -/

/-- The unit states of STATUS (R51). -/
inductive UnitState where
  | off | running | resetting | stabled | probation
deriving DecidableEq, Repr

/-- The STATE code (R51). -/
def UnitState.code : UnitState → Nat
  | .off => 0 | .running => 1 | .resetting => 2 | .stabled => 3 | .probation => 4

/-- A turnpike link (R177, R190). -/
structure Link where
  state  : UnitState := .running
  errors : Nat := 0
  /-- The ticks of its latest errors, those within one decay period of the last (R468). -/
  recent : List Nat := []
  /-- The link has passed its probation test (R470). -/
  passed : Bool := false
deriving DecidableEq, Repr

/-- Turnpike state beyond its registers. -/
structure NetState where
  links    : Map Link := []
  /-- ACTIVE entries by router × 64 + destination (R186). -/
  active   : Map Nat := []
  /-- SHADOW entries. -/
  shadow   : Map Nat := []
  /-- A route-table epoch switch runs (R189). -/
  busy     : Bool := false
  /-- Another switch was requested while one runs. -/
  again    : Bool := false
  /-- The route-table epoch number's low bit. -/
  epoch    : Bool := false
  /-- Links to be STABLED when the switch completes (R190). -/
  toStable : List Nat := []
  /-- Reads, atomics and posted writes whose initiators still wait. -/
  flights  : List Flight := []
  /-- What befalls the next packet that the step that runs sends; clear between commands. -/
  way      : Mishap := .clear
  /-- Requesters whose timer has expired and whose response may still come (R183). -/
  expired  : List Who := []
deriving DecidableEq, Repr

/-! ### The memory stacks -/

/-- Controller states (STK_STATUS). -/
inductive StackMode where
  | training | ready | selfRefresh | recalibrating | stabled
deriving DecidableEq, Repr

/-- The STK_STATUS code of a stack that has not tripped; a READY one that has reads 4, HOT_OFFLINE. -/
def StackMode.code : StackMode → Nat
  | .training => 0 | .ready => 1 | .selfRefresh => 2 | .recalibrating => 3 | .stabled => 5

/-- One stack's controller (chapter 6). -/
structure Stack where
  mode     : StackMode := .training
  /-- A CTRL UNIT_RESET runs (R211). -/
  inReset  : Bool := false
  /-- Training has started since the last reset: readings exist (R205). -/
  started  : Bool := false
  /-- STACK_TRIP has put it in self-refresh until it is below 95 °C (R205). -/
  hot      : Bool := false
  /-- Open rows by pseudo-channel × 32 + bank: row plus 1 (R203). -/
  rows     : Map Nat := []
  /-- Stabled pseudo-channels, one bit each (PC_STATE). -/
  pcs      : Nat := 0
  /-- The pseudo-channel being migrated (R210). -/
  migrate  : Option Nat := none
  /-- How many of its lines have been copied, in ascending ia. -/
  copied   : Nat := 0
  /-- The ticks of the latest uncorrectable reads per pseudo-channel, those within one decay period of the last (R468). -/
  ues      : Map (List Nat) := []
  /-- The channel under recalibration (R206). -/
  recal    : Option Nat := none
  /-- Accumulated patrol debt (R483). -/
  debt     : Nat := 0
  /-- The refresh interval is halved (R205). -/
  fastRefresh : Bool := false
  /-- Commands are issued at half rate (R205). -/
  halfRate : Bool := false
deriving DecidableEq, Repr

/-- The stacks' state beyond their registers. -/
structure StackState where
  /-- Stored lines by line number, (address − 0x10_0000_0000) / 64. -/
  lines    : Map Line := []
  ctl      : Map Stack := []
  /-- A stack access has happened since the last reset (R209). -/
  accessed : Bool := false
deriving DecidableEq, Repr

end Sys2Proof.Machine
end

