-- ==== Sys2Proof/Machine/TypesDepot.lean ====
section
/-! DEFINITION. Data types of the depot (chapter 8): waybill images, queues, slots, counters, the matching store, the
timetable and the running record of a unit. -/

namespace Sys2Proof.Machine

/-- A 64-byte waybill image: eight little-endian words (R257). -/
structure Image where
  w0 : Nat := 0
  w1 : Nat := 0
  w2 : Nat := 0
  w3 : Nat := 0
  w4 : Nat := 0
  w5 : Nat := 0
  w6 : Nat := 0
  w7 : Nat := 0
deriving DecidableEq, Repr

namespace Image
def cls (i : Image) : Nat := fld i.w0 63 62
def sub (i : Image) : Nat := fld i.w0 61 59
def ready (i : Image) : Nat := fld i.w0 58 57
def ntok (i : Image) : Nat := fld i.w0 56 55
def tallyEn (i : Image) : Bool := bit i.w0 54
def releaseEn (i : Image) : Bool := bit i.w0 53
def deadlineEn (i : Image) : Bool := bit i.w0 52
def replayable (i : Image) : Bool := bit i.w0 51
def pinEn (i : Image) : Bool := bit i.w0 50
def pin (i : Image) : Nat := fld i.w0 49 43
def ticketValid (i : Image) : Bool := bit i.w0 42
def ticketGraph (i : Image) : Nat := fld i.w0 41 36
def ticketFrame (i : Image) : Nat := fld i.w0 35 34
def tag (i : Image) : Nat := fld i.w0 31 0
def tallyId (i : Image) : Nat := fld i.w1 63 48
def tallyThresh (i : Image) : Nat := fld i.w1 47 32
def form (i : Image) : Nat := fld i.w1 31 0
def ctrId (i : Image) : Nat := fld i.w1 31 12
def ctrInit (i : Image) : Nat := fld i.w1 11 0
def release (i : Image) : Nat := fld i.w2 63 32
def deadline (i : Image) : Nat := fld i.w2 31 0
def succEn (i : Image) : Bool := bit i.w3 63
def succMod (i : Image) : Nat := fld i.w3 62 61
def succId (i : Image) : Nat := fld i.w3 60 41
def succN (i : Image) : Nat := fld i.w3 40 39
def tokEn (i : Image) : Bool := bit i.w3 38
def tokMod (i : Image) : Nat := fld i.w3 37 36
def tokSlot (i : Image) : Nat := fld i.w3 35 34
def voidOnAbort (i : Image) : Bool := bit i.w3 33
def notifyOk (i : Image) : Bool := bit i.w3 32
def tokKey (i : Image) : Nat := fld i.w3 31 0
def stackEn (i : Image) : Bool := bit i.w4 63
def stackRgn (i : Image) : Nat := fld i.w4 61 48
def entry (i : Image) : Nat := fld i.w4 47 0
def privEn (i : Image) : Bool := bit i.w5 63
def priv (i : Image) : Nat := fld i.w5 61 48
def csp (i : Image) : Nat := fld i.w5 47 0
def handlerOff (i : Image) : Nat := fld i.w6 63 32
def arg1 (i : Image) : Nat := fld i.w6 31 0
def arg0 (i : Image) : Nat := i.w7
def job (i : Image) : Nat := fld i.w4 47 0

/-- The eight words, lowest first. -/
def words (i : Image) : List Nat := [i.w0, i.w1, i.w2, i.w3, i.w4, i.w5, i.w6, i.w7]

/-- The 64 bytes of the image. -/
def bytes (i : Image) : List Byte := i.words.flatMap (leBytes 8)

/-- The image of eight words. -/
def ofWords (ws : List Nat) : Image :=
  ⟨ws.getD 0 0, ws.getD 1 0, ws.getD 2 0, ws.getD 3 0, ws.getD 4 0, ws.getD 5 0, ws.getD 6 0, ws.getD 7 0⟩

/-- The image that 512 bits spell, word 0 lowest. -/
def ofBits (b : BitVec 512) : Image := ofWords ((List.range 8).map (fun i => fld b.toNat (64 * i + 63) (64 * i)))

/-- The image of 64 bytes. -/
def ofBytes (bs : List Byte) : Image :=
  ofWords ((List.range 8).map (fun i => leNat ((bs.drop (8 * i)).take 8)))

/-- Whether every reserved field is zero (R257). -/
def reservedZero (i : Image) : Bool :=
  fld i.w0 33 32 == 0 &&
  (if i.cls = 1 then fld i.w4 63 48 == 0 && !(bit i.w5 62) && fld i.w5 47 0 == 0 && i.w6 == 0 && i.w7 == 0
   else if i.cls = 3 then
     (if i.sub = 0 then fld i.w4 63 35 == 0 && i.w6 == 0 && i.w7 == 0
      else fld i.w4 63 32 == 0 && fld i.w4 30 28 == 0 && i.w5 == 0 && i.w6 == 0 && i.w7 == 0)
   else i.sub == 0 && !(bit i.w4 62) && !(bit i.w5 62)) &&
  (i.ready != 0 || i.form == 0)
end Image

/-- A queue descriptor and its indices (R260). TAIL and HEAD are kept as counts since COMMIT; the registers show their
low 16 bits. -/
structure Queue where
  w0   : Nat := 0
  w1   : Nat := 0
  w2   : Nat := 0
  tail : Nat := 0
  occ  : Nat := 0
  head : Nat := 0
deriving DecidableEq, Repr

namespace Queue
def valid (q : Queue) : Bool := bit q.w0 63
def enabled (q : Queue) : Bool := bit q.w0 62
def kind (q : Queue) : Nat := fld q.w0 61 60
def prio (q : Queue) : Nat := fld q.w0 59 58
def brake (q : Queue) : Bool := bit q.w0 57
def hostEn (q : Queue) : Bool := bit q.w0 56
def owner (q : Queue) : Nat := fld q.w0 55 52
def ringLog2 (q : Queue) : Nat := fld q.w0 51 48
def base (q : Queue) : Nat := fld q.w0 47 0
def cls (q : Queue) : Nat := fld q.w1 63 62
def sub (q : Queue) : Nat := fld q.w1 61 59
def cq (q : Queue) : Nat := fld q.w1 47 32
def cqEn (q : Queue) : Bool := bit q.w1 31
def mask (q : Queue) : Nat := q.w2
/-- Entries of the ring (R260). -/
def size (q : Queue) : Nat := 2 ^ (q.ringLog2 + 4)
/-- Word 3: TAIL, OCCUPIED, HEAD. -/
def w3 (q : Queue) : Nat := q.tail % 65536 * 2 ^ 48 + q.occ % 65536 * 2 ^ 32 + q.head % 65536 * 2 ^ 16
/-- A COMPLETION queue is full (R286). -/
def cqFull (q : Queue) : Bool := q.tail - q.head == q.size
/-- PHASE of the record at TAIL (R286). -/
def phase (q : Queue) : Bool := q.tail / q.size % 2 == 0
end Queue

/-- The states of a WORK slot (R275). -/
inductive SlotState where
  | free | waiting | ready | slotted | running | completing
deriving DecidableEq, Repr

/-- Which wait of R268 a WAITING waybill is at. -/
inductive Stage where
  | release | form | tally | done
  /-- Its counter or key serves another waybill, which the enqueue check could not see (log entry 12). -/
  | blocked
deriving DecidableEq, Repr

/-- How a waybill ended: status, user code, late flag, unit, tick and payload s1 (R284, R285). -/
structure Ending where
  status  : Nat := 0
  user    : Nat := 0
  late    : Bool := false
  unit    : Nat := 0xFF
  tick    : Nat := 0
  s1      : Nat := 0
  /-- An engine has read poisoned input (R365). -/
  poison  : Bool := false
deriving DecidableEq, Repr

/-- A slot of a WORK ring. -/
structure Slot where
  state    : SlotState := .free
  stage    : Stage := .release
  image    : Image := {}
  payload  : List Nat := []
  readySeq : Nat := 0
  /-- Replayed work goes ahead of its queue (R288). -/
  ahead    : Bool := false
  replayed : Bool := false
  /-- READY but outside the ready pool (R276). -/
  deferred : Bool := false
  ending   : Ending := {}
  /-- The completion waits for a verdict of the integrity block (R285 item 1), since this tick. -/
  gated    : Option Nat := none
  /-- The completion waits for room in the CQ (R285 item 5). -/
  cqWait   : Bool := false
deriving DecidableEq, Repr

/-- A dependence counter (R269); the binding is queue × 65536 + slot, plus 1. -/
structure Counter where
  value  : Int := 0
  voided : Bool := false
  bound  : Nat := 0
deriving DecidableEq, Repr

/-- One token of a matching entry (R271). -/
structure Token where
  present : Bool := false
  void    : Bool := false
  payload : Nat := 0
deriving DecidableEq, Repr

/-- A matching entry (R271, R272). -/
structure MatchEntry where
  cmp     : Nat
  key     : Nat
  tokens  : List Token
  waiter  : Option (Nat × Nat)
  touch   : Nat
  /-- Its entry in the spill table, when it stands there (R272). -/
  spot    : Option Nat := none
deriving DecidableEq, Repr

/-- What a timetable entry does when it fires (R268, R361, R417). -/
inductive TtAction where
  | waybill (queue slot : Nat)
  | graph (g : Nat)
  | fsync (intake k : Nat)
deriving DecidableEq, Repr

/-- A timetable entry (R274). -/
structure TtEntry where
  due    : Nat
  seq    : Nat
  period : Nat
  action : TtAction
deriving DecidableEq, Repr

/-- A producer that waits on a full queue in brake mode (R263), or for a read that its enqueue needs (R296). -/
structure BrakeWait where
  who      : Who
  cmp      : Nat
  queue    : Nat
  image    : Image
  deadline : Option Nat
  /-- The path: an `enq` of a core, a window write, or the sequencer with its node. -/
  window   : Bool
  node     : Option Nat
  /-- The depot waits for a read of the backing area, not for a slot (R296). -/
  backing  : Bool := false
  /-- It waits for a slot, not for an earlier offer of the same requester (R263, R266). -/
  braked   : Bool := false
deriving DecidableEq, Repr

/-- Why a unit runs a waybill (R281, R447). -/
inductive RunKind where
  | original
  | shadow (sample : Nat)
  | tiebreak (sample : Nat)
deriving DecidableEq, Repr

/-- The waybill a unit runs. -/
structure Running where
  queue   : Nat
  slot    : Nat
  image   : Image
  payload : List Nat
  cmp     : Nat
  kind    : RunKind
  /-- Distinguishes this run from every other since reset. -/
  serial  : Nat
  /-- Posted writes were lost (R169). -/
  lost    : Bool := false
  /-- The run ends when its posted writes are done, with this status (R166). -/
  ended   : Option Ending := none
  /-- It was a sampling candidate when it started (R443, R457). -/
  cand    : Bool := false
  /-- The sample taken of this run, if any (R443). -/
  sample  : Option Nat := none
  /-- The compartment was in gate mode when the waybill was placed. -/
  gate    : Bool := false
  /-- The holder's epoch has advanced for this ending (R161). -/
  advanced : Bool := false
deriving DecidableEq, Repr

/-- A depot operation that waits for a read of the backing area (R296). -/
inductive DepotOp where
  | decrement (ctr : Nat)
  | void (ctr : Nat)
  /-- The waybill bound to a counter is void: `key` is its slot's key plus 1 (R429, R430). -/
  | voidBound (ctr key : Nat)
  | clear (ctr : Nat)
  /-- The waybill bound to a counter is gone: `key` is its slot's key plus 1. -/
  | unbind (ctr key : Nat)
  | arm (queue slot : Nat)
  | token (cmp key slot payload : Nat) (void : Bool)
  /-- A queue command, with the queue and the descriptor words that the registers held (R262). -/
  | command (code queue w0 w1 w2 : Nat)
deriving DecidableEq, Repr

/-- A further SUSPECT record that waits for room in its completion queue (R287). -/
structure Further where
  queue  : Nat
  tag    : Nat
  unit   : Nat
  ticket : Bool
deriving DecidableEq, Repr

/-- Depot state beyond its registers. -/
structure DepotState where
  queues   : Map Queue := []
  /-- Slots by queue × 65536 + index. -/
  slots    : Map Slot := []
  /-- The counters cached on chip, and the ids of those, the latest used first (R38, R294). -/
  counters : Map Counter := []
  cached   : List Nat := []
  store    : List MatchEntry := []
  table    : List TtEntry := []
  /-- Step slots by unit id: queue × 65536 + slot, plus 1, 0 for empty. -/
  steps    : Map Nat := []
  /-- Running waybills by unit id. -/
  runs     : Map (Option Running) := []
  brakes   : List BrakeWait := []
  /-- Watch registrations answered FULL, to be retried (R273). -/
  retries  : List Watch := []
  /-- The queue last served at each priority (R277). -/
  lastRr   : Map Nat := []
  /-- Next ready, timetable, touch and run numbers. -/
  seq      : Nat := 0
  /-- Depot operations held while the stack is offline (R296). -/
  holding  : Bool := false
  heldOps  : List DepotOp := []
  /-- Reads of CTR_ENTRY that wait for the counter (R296). -/
  heldReads : List HeldAccess := []
  further  : List Further := []
  /-- The tick of the latest periodic dispatch epoch boundary (R283). -/
  lastEpoch : Nat := 0
deriving DecidableEq, Repr

end Sys2Proof.Machine
end

