-- ==== Sys2Proof/Machine/TypesInt.lean ====
section
/-! DEFINITION. Data types of the integrity block (chapter 14), of compartments (chapter 9), and of actions that one step
of the module starts and finishes inside itself. -/

namespace Sys2Proof.Machine

/-- The two digests of a run, and the next sequence number of each of its ten sources (R449). -/
structure Digests where
  rd   : Nat := 0
  wd   : Nat := 0
  seqs : List Nat := []
deriving DecidableEq, Repr

/-- How a sampled run ended: status and digests. -/
structure RunEnd where
  status : Nat
  rd     : Nat
  wd     : Nat
deriving DecidableEq, Repr

/-- A sample slot (R444 to R453). -/
structure Sample where
  unit      : Nat
  queue     : Nat
  slot      : Nat
  cmp       : Nat
  image     : Image
  payload   : List Nat
  forced    : Bool
  orig      : Option RunEnd := none
  /-- The unit that runs the shadow now, or ran it. -/
  shadow    : Option Nat := none
  shadowEnd : Option RunEnd := none
  /-- The sample is a MISMATCH and waits for its tie-break (R450). -/
  mismatch  : Bool := false
  tie       : Option Nat := none
  tieEnd    : Option RunEnd := none
  /-- Abandonments of the run now wanted (R446, R451). -/
  abandons  : Nat := 0
  cancelled : Bool := false
  /-- The use of the frame slot that its ticket names (R433). -/
  turn      : Nat := 0
deriving DecidableEq, Repr

/-- A weight-copy digest entry (R461, DIG_W0 to DIG_REF). -/
structure DigEntry where
  w0 : Nat := 0
  w1 : Nat := 0
  w2 : Nat := 0
  ref : Nat := 0
deriving DecidableEq, Repr

/-- The last CPER record of one block, instance and class (R475). -/
structure Coalesce where
  ty    : Nat
  inst  : Nat
  cls   : Nat
  tick  : Nat
  id    : Nat
  count : Nat
  /-- The record stands in the log ring. -/
  logged : Bool
deriving DecidableEq, Repr

/-- A running cross-check (R464). -/
structure XCheck where
  rounds : Nat
  done   : Nat
  mask   : Nat
  failed : Nat
  fmts   : Nat
deriving DecidableEq, Repr

/-- Integrity state beyond its registers and the ledger RAM. -/
structure IntState where
  samples   : Map (Option Sample) := []
  selCount  : Map Nat := []
  /-- K of R455 by coach × 16 + compartment. -/
  kCount    : Map Nat := []
  /-- Candidates and conclusive verdicts of the window that ends next, by compartment (R457). -/
  wTiles    : Map Nat := []
  /-- Counts of the window that ends next, by compartment × 0x400 + offset in its ledger (R460). -/
  noted     : Map Nat := []
  wCompared : Map Nat := []
  /-- A wrong-result verdict arose in the window (R459 rule 1). -/
  wFault    : Map Bool := []
  /-- Windows in a row with U below TARGET / 4 (R459 rule 4). -/
  lowRun    : Map Nat := []
  digests   : Map DigEntry := []
  /-- The digest entry being checked, as it stood when its check began (R485, R487). -/
  digBusy   : Option (Nat × DigEntry) := none
  /-- Entries that CHECK_NOW has asked for. -/
  digAsked  : List Nat := []
  /-- 1 + the tick of each digest entry's latest check start. -/
  digStart  : Map Nat := []
  /-- The entry from which the schedule goes on (R485). -/
  digPtr    : Nat := 0
  /-- The 1,000 ticks in which the reads of the checks so far end, and their bytes in them (R485). -/
  digUsed   : Nat × Nat := (0, 0)
  /-- The running check does not end before this tick (R485, R486). -/
  digAt     : Nat := 0
  /-- Entries whose late check DIG_LATE has told of (R486). -/
  digLated  : List Nat := []
  /-- The running check has repaired its bad copy and checks again (R462, R485). -/
  digRepaired : Bool := false
  /-- The tick, plus 1, since which the schedule of the checks runs; 0 while it does not (R486). -/
  digOn     : Nat := 0
  /-- The tick of the latest ledger window end (R457). -/
  lastWindow : Nat := 0
  xcheck    : Option XCheck := none
  /-- Scores by unit code (R467). -/
  scores    : Map Nat := []
  /-- Tick of each score's last change. -/
  scoreTick : Map Nat := []
  /-- Unit codes in PROBATION whose test has passed (R470). -/
  passed    : List Nat := []
  /-- Records written to the retained ring since power-on (R477). -/
  retained  : Nat := 0
  /-- Retained-ring cursors of requester ports, as words of the ring (R477). -/
  cursors   : List (Who × Nat) := []
  /-- 8-byte words of the ledger RAM with flipped bits, and whether they are uncorrectable (R127). -/
  upsets    : List (Nat × Bool) := []
  coalesce  : List Coalesce := []
  /-- Digests of the runs in progress, by unit id. -/
  runs      : Map Digests := []
deriving DecidableEq, Repr

/-- The states of a compartment (R313). -/
inductive CmpMode where
  | free | active | resetting | killing
deriving DecidableEq, Repr

/-- The CMP_STATE code. -/
def CmpMode.code : CmpMode → Nat
  | .free => 0 | .active => 1 | .resetting => 2 | .killing => 3

/-- A write that names a compartment which is being reset or killed, and waits for step 4 (R318). -/
inductive Owed where
  /-- SEM OWNER and KIND, and VALUE where the same access writes it. -/
  | sem (k owner kind : Nat) (value : Option Nat)
  | tally (t owner : Nat)
deriving DecidableEq, Repr

/-- A compartment's state beyond its page (chapter 9). -/
structure Cmp where
  mode      : CmpMode := .free
  /-- The tick at which the running reset or kill began (KILL_TICKS). -/
  since     : Nat := 0
  /-- COACH_MASK and OTHER_MASK in force since the last dispatch epoch boundary (R299). -/
  coaches   : Nat := 0
  others    : Nat := 0
  /-- INTEG_MODE in force since the last boundary. -/
  gate      : Bool := false
  /-- Windows being zeroed: index and window word (R316). -/
  zeroing   : List (Nat × Nat) := []
  /-- The next event carries LOST_BEFORE (R312). -/
  lost      : Bool := false
  /-- The tick of the last ACCESS_REFUSED event posted for it (R311). -/
  refusedAt : Option Nat := none
  /-- Regions held under POSTMORTEM at the last kill (R315). -/
  heldRegions : Nat := 0
  /-- Late failure notices of a kill post no event (R315 step 3). -/
  quiet     : Bool := false
  /-- Ticks run on each engine in the present share period (R300). -/
  used      : Map Nat := []
  /-- PHASE of the reset or kill: posted writes drain (R314 step 3). -/
  draining  : Bool := false
  /-- Regions whose sweeps the reset or kill waits for (R314, R315 step 5), by descriptor id. -/
  sweeps    : List Nat := []
  /-- Control cores whose unit reset the kill waits for (R315 steps 2 and 3). -/
  cores     : List Nat := []
  /-- Writes of SEM OWNER and TALLY_OWNER that name it and wait for step 4 (R318). -/
  owed      : List Owed := []
deriving DecidableEq, Repr

/-- Who asked for a two-wire command list (R557). -/
inductive ListFor where
  /-- LIST_CMD RUN. -/
  | command
  /-- A CMDLIST node of a frame (R425). -/
  | node (graph frame turn node : Nat)
  /-- The re-plug of a camera (R358). -/
  | replug (port binding : Nat)
deriving DecidableEq, Repr

/-! ### Accesses that leave the module -/

/-- What waits for a read to come back from the host or from another module. -/
inductive FarFor where
  /-- A core's load into a register. -/
  | load (rd bytes : Nat)
  /-- An atomic: the register and bytes. -/
  | atomic (rd bytes : Nat)
  /-- `enq` or a semaphore operation: the register of the result code. -/
  | enq (rd : Nat)
  /-- The image that `enq` reads: the register of the result code, and the queue. -/
  | image (rd queue : Nat)
  /-- An instruction word of a core. -/
  | fetch
  /-- The descriptor that `stcfg` reads. -/
  | desc (engine : Nat)
  /-- The frame that `xret` or `sret` reads. -/
  | frame (ie : Bool)
  /-- A stream engine's read. -/
  | stream (engine : Nat)
  /-- A core's write that is not posted: a register page, local RAM, the ledger RAM or a window of another module
  (R63). -/
  | store
  /-- The sequencer's or the management bus's or the TAP's own access, or a command's. -/
  | plain
  /-- The console's own access (R593). -/
  | console
  /-- A piece that a vision engine reads (R45). -/
  | engine
  /-- A packet of another module, by its sender and tag (R45, R527). -/
  | relay (src xid : Nat)
  /-- Nobody: the program that asked is over. -/
  | dropped
deriving DecidableEq, Repr

/-- What a drawbar packet asks for; packets are abstract, since the manual gives their header's fields but not the codes
of its opcodes (log entry 60): (R293, R527, R89). -/
inductive FarOp where
  | read (addr len : Nat) (fetch : Bool)
  /-- A turntable read (R147): its mode, cells, element size and stride. -/
  | turn (addr : Nat) (mode : TtMode) (cells elem stride : Nat)
  | write (addr : Nat) (bytes : List Byte)
  /-- A turntable write (R147): its mode, element size and stride. -/
  | turnWrite (addr : Nat) (mode : TtMode) (elem stride : Nat) (bytes : List Byte)
  | atomic (op : AmoOp) (addr bytes src cmp : Nat)
  | enqueue (queue : Nat) (image : Image)
  /-- A semaphore operation of a holder at its epoch. -/
  | sem (op : SemOp) (addr count timeout holder epoch : Nat)
  | decrement (ctr n : Nat) (void : Bool)
  | token (key slot payload : Nat) (void : Bool)
  | pressure (q : Option Int)
deriving DecidableEq, Repr

/-- What a drawbar packet answers; data without a byte stands for data that was lost. -/
inductive FarReply where
  | data (bytes : List PByte)
  | code (c : Nat)
  | ack
  | fail (k : Kind)
deriving DecidableEq, Repr

/-- The body of a packet: a request with the transaction tag of its sender, or the answer to one. -/
inductive FarBody where
  | ask (op : FarOp)
  | tell (r : FarReply)
deriving DecidableEq, Repr

/-- A drawbar packet (R522). -/
structure Packet where
  src  : Nat
  dst  : Nat
  cmp  : Nat
  /-- Source station or attachment. -/
  stn  : Nat
  /-- QoS level (R184). -/
  qos  : Nat := 1
  xid  : Nat
  wtag : Nat
  body : FarBody
deriving DecidableEq, Repr

/-- An action that one step starts in one block and finishes in another. Every command carries out what it has started
before it ends, so the list is empty between commands. -/
inductive Todo where
  /-- A tally watch has fired (R157). -/
  | watchFired (w : WatchFor)
  /-- A periodic timetable entry of a graph, due at that tick, has fired (R274, R417). -/
  | graphDue (graph due : Nat)
  /-- A periodic timetable entry of a frame-sync output has fired, late or not (R274, R361). -/
  | fsyncDue (output : Nat) (late : Bool)
  /-- Everything outside the always-on island has restarted: blocks that keep state over it finish (R110). -/
  | restarted
  /-- A unit is to be stabled, by its unit code (R468, R191). -/
  | stable (code : Nat)
  /-- A module warm reset is forced, with its cause and DETAIL (R466). -/
  | forced (cause detail : Nat)
  /-- A bit of ALERT_PENDING has risen (R546, R512). -/
  | alert
  /-- A record or event has been written to a queue (R513). -/
  | recorded (queue : Nat)
  /-- A counter or token set has fired a waybill (R269, R271). -/
  | fired (queue slot : Nat) (void : Bool)
  /-- A WORK slot is COMPLETING: its completion actions are carried out (R285). -/
  | complete (queue slot : Nat)
  /-- A ticketed waybill's status goes to the sequencer (R285 item 4, R427). -/
  | report (image : Image) (queue slot status : Nat) (poison : Bool)
  /-- A unit has reported the end of a run to the integrity block (R449, R450). -/
  | runEnded (unit : Nat) (run : Running) (ending : Ending)
  /-- A waybill that has completed was found SUSPECT; `turn` names the use of its frame slot (R287, R433). -/
  | suspect (image : Image) (queue unit turn : Nat)
  /-- A shadow or tie-break run has been abandoned (R446). -/
  | abandoned (unit : Nat) (run : Running)
  /-- A camera buffer is released (R348, R431). -/
  | release (port binding buf : Nat)
  /-- A closed ticket's slack goes to the governor (R87, R428). -/
  | slack (graph : Nat) (q : Int)
  /-- A command list is asked for on a two-wire bus (R557). -/
  | listAsk (bus index : Nat) (asker : ListFor)
  /-- A command list is to stop at its next transaction boundary (R559). -/
  | listStop (asker : ListFor)
  /-- A failure notice of an intake's write has arrived; the tag names its frame and row (R350, R351). -/
  | rowLost (tag : Nat)
  /-- A command list has ended (R558). -/
  | listDone (asker : ListFor) (ok : Bool)
  /-- INT writes bytes of its log ring (R476). -/
  | logWrite (addr : Nat) (bytes : List Byte)
  /-- What has been held may go on: operations of the depot and commands of the sequencer that wait for a read (R189, R296,
  R436). -/
  | readsAgain
  /-- A read of a page that its block has held is made again (R296). -/
  | readAgain (h : HeldAccess)
  /-- The console takes the next line that waits (R593). -/
  | consoleLine
  /-- Counters of another module are decremented or voided (R285 item 2, R293). -/
  | farCtr (dst cmp ctr n : Nat) (void : Bool)
  /-- A token goes to another module (R285 item 3, R293). -/
  | farToken (dst cmp key slot payload : Nat) (void : Bool)
  /-- An access beyond the module has been answered. -/
  | back (who : Who) (addr : Nat) (what : FarFor) (r : FarReply)
  /-- A packet for this module has arrived at a drawbar port. -/
  | serve (port : Nat) (p : Packet)
  /-- A semaphore request of another module's holder has been answered. -/
  | semFar (holder code : Nat)
  /-- The sweeps that a compartment's reset or kill waits for are done (R314, R315 step 5). -/
  | cmpSwept (cmp : Nat)
deriving DecidableEq, Repr

end Sys2Proof.Machine
end

