-- ==== Sys2Proof/Machine/TypesOps.lean ====
section
/-! DEFINITION. The operand enumerations of the core instructions (R219): operations by name, since the manual gives no
func codes for the vector operations. -/

namespace Sys2Proof.Machine

/-- Scalar register operations, in func order 0 to 20 (R219). -/
inductive ScalarOp where
  | add | sub | and | or | xor | sll | srl | sra | slt | sltu | mul | mulh | mulhu | div | divu | rem | remu | min | max
  | minu | maxu
deriving DecidableEq, Repr

/-- The func code of a scalar operation (R219). -/
def ScalarOp.func : ScalarOp → Nat
  | .add => 0 | .sub => 1 | .and => 2 | .or => 3 | .xor => 4 | .sll => 5 | .srl => 6 | .sra => 7 | .slt => 8
  | .sltu => 9 | .mul => 10 | .mulh => 11 | .mulhu => 12 | .div => 13 | .divu => 14 | .rem => 15 | .remu => 16
  | .min => 17 | .max => 18 | .minu => 19 | .maxu => 20

/-- Scalar immediate operations, opcodes 0x01 to 0x06 in order (R219). -/
inductive ImmOp where
  | addi | andi | ori | xori | slti | shift
deriving DecidableEq, Repr

/-- The opcode of a scalar immediate operation (R219). -/
def ImmOp.opcode : ImmOp → Nat
  | .addi => 1 | .andi => 2 | .ori => 3 | .xori => 4 | .slti => 5 | .shift => 6

/-- Branch conditions, opcodes 0x10 to 0x13 in order (R219). -/
inductive BranchOp where
  | beq | bne | blt | bge
deriving DecidableEq, Repr

/-- The opcode of a branch (R219). -/
def BranchOp.opcode : BranchOp → Nat
  | .beq => 0x10 | .bne => 0x11 | .blt => 0x12 | .bge => 0x13

/-- Element types of the V format, et 0 to 7 (R218). -/
inductive Elem where
  | i8 | u8 | i16 | u16 | i32 | bf16 | fp16 | fp32
deriving DecidableEq, Repr

/-- The et code (R218). -/
def Elem.code : Elem → Nat
  | .i8 => 0 | .u8 => 1 | .i16 => 2 | .u16 => 3 | .i32 => 4 | .bf16 => 5 | .fp16 => 6 | .fp32 => 7

/-- Element width in bits. -/
def Elem.width : Elem → Nat
  | .i8 => 8 | .u8 => 8 | .i16 => 16 | .u16 => 16 | .i32 => 32 | .bf16 => 16 | .fp16 => 16 | .fp32 => 32

/-- Whether an element is a floating-point number. -/
def Elem.isFloat : Elem → Bool
  | .bf16 => true | .fp16 => true | .fp32 => true | _ => false

/-- Whether an integer element is signed. -/
def Elem.isSigned : Elem → Bool
  | .i8 => true | .i16 => true | .i32 => true | _ => false

/-- Vector integer operations (opcode 0x18). -/
inductive VIntOp where
  | add | sub | mul | mulhi | mac | and | or | xor | sll | srl | sra | min | max | abs | sadd | ssub
deriving DecidableEq, Repr

/-- Vector float operations (opcode 0x19). -/
inductive VFltOp where
  | add | sub | mul | fma | fms | min | max | abs | neg | recip | rsqrt
deriving DecidableEq, Repr

/-- Vector compares (opcode 0x1A). -/
inductive VCmpOp where
  | eq | ne | lt | le | isnan | isinvalid
deriving DecidableEq, Repr

/-- Permutes and reductions (opcode 0x1B). -/
inductive VPermOp where
  | broadcast | shuffle | rotate | redAdd | redMax | redMin
deriving DecidableEq, Repr

/-- What a vector conversion converts to or from: a vector element type, or an FP8 type (R224). -/
inductive ConvType where
  | elem (e : Elem)
  | e4m3
  | e5m2
deriving DecidableEq, Repr

/-- Vector moves and predicate operations (opcode 0x1D). -/
inductive VMovOp where
  | scalarToLane | laneToScalar | predAnd | predOr | predXor | predNot | predToScalar | select
deriving DecidableEq, Repr

end Sys2Proof.Machine
end

