-- ==== Sys2Proof/Machine/TypesCore.lean ====
section
/-! DEFINITION. Data types of coaches and control cores (chapter 7). -/

namespace Sys2Proof.Machine

/-- CORE_STATE (CCH page 0). -/
inductive CoreMode where
  | idle | running | waiting | frameFault | debugHalt
deriving DecidableEq, Repr

/-- The CORE_STATE code. -/
def CoreMode.code : CoreMode → Nat
  | .idle => 0 | .running => 1 | .waiting => 2 | .frameFault => 3 | .debugHalt => 4

/-- Why a core waits. -/
inductive WaitFor where
  | none
  /-- Posted writes to be acknowledged; the fence count goes to the register (R166). -/
  | fence (rd : Nat)
  /-- The waybill has ended and its posted writes drain (R239). -/
  | drain
  /-- A queued semaphore request; its result goes to the register (R159). -/
  | sem (rd : Nat)
  /-- A tally watch, with the tick at which it times out (R238). -/
  | tally (deadline : Option Nat)
  /-- A full queue in brake mode; the result goes to the register (R237). -/
  | brake (rd : Nat)
  /-- `wfi` (R254). -/
  | interrupt
  /-- A weight buffer or a stream; the instruction is issued again (R231, R234). -/
  | unit
  /-- An answer of the host or of another module (R45, R511). -/
  | far
deriving DecidableEq, Repr

/-- A stream engine's state (R231 to R234). -/
inductive StreamMode where
  | idle | running | complete | stopped
deriving DecidableEq, Repr

/-- A number for each state of a stream engine. -/
def StreamMode.num : StreamMode → Nat
  | .idle => 0 | .running => 1 | .complete => 2 | .stopped => 3

/-- A FIFO entry: 256 bytes, and whether each byte's cell is poisoned. -/
structure FifoEntry where
  bytes  : List Byte
  poison : List Bool
deriving DecidableEq, Repr

/-- A stream engine (R232). -/
structure Stream where
  /-- The descriptor that `stcfg` has loaded, and the one of the transfer that `ststart` began. -/
  words : List Nat := []
  run   : List Nat := []
  mode  : StreamMode := .idle
  /-- FIFO contents, oldest first, at most four entries. -/
  fifo  : List FifoEntry := []
  /-- Accesses made so far, cells of the present one, and bytes moved. -/
  done  : Nat := 0
  off   : Nat := 0
  pos   : Nat := 0
  /-- Delivered bytes not yet packed into a full entry, or bytes not yet written. -/
  part  : FifoEntry := ⟨[], []⟩
  /-- A read of another module is outstanding. -/
  busy  : Bool := false
deriving DecidableEq, Repr

/-- A strongbox (R246). -/
structure Strongbox where
  frame : List Nat := []
  full  : Bool := false
  count : Nat := 0
deriving DecidableEq, Repr

/-- A core: a coach or a control core (R212). Registers carry their poison bit above their value (R213). -/
structure Core where
  mode     : CoreMode := .idle
  wait     : WaitFor := .none
  /-- S level. -/
  super    : Bool := false
  /-- A control core that a kill has halted does not restart its resident program (R315 step 2). -/
  halted   : Bool := false
  /-- A resident control program runs, not a waybill. -/
  resident : Bool := false
  pc       : Nat := 0
  csp      : Nat := 0
  ssp      : Nat := 0
  handler  : Nat := 0
  stackRgn : Option Nat := Option.none
  /-- Exceptions taken and not yet returned from. -/
  depth    : Nat := 0
  /-- s1 to s31: value, with the poison bit at bit 64. -/
  s        : Map Nat := []
  /-- Vector lanes by register × 64 + lane: value, with the poison bit at bit 32. -/
  v        : Map Nat := []
  /-- p1 to p7. -/
  p        : Map Nat := []
  /-- Accumulator elements by (accumulator × 32 + row) × 64 + column. -/
  acc      : Map Nat := []
  /-- Poisoned accumulator rows, by accumulator × 32 + row. -/
  accBad   : Map Bool := []
  /-- Accumulators of TYPE FLOAT, one bit each. -/
  accFloat : Nat := 0
  /-- Weight-buffer bytes by buffer × 65536 + offset, with the poison bit at bit 8. -/
  wb       : Map Nat := []
  /-- Sparsity metadata bytes by buffer × 8192 + offset, with the poison bit at bit 8. -/
  wbMeta   : Map Nat := []
  /-- WB_CMP: compartment plus 1, 0 when not VALID (R215). -/
  wbCmp    : Nat := 0
  /-- Weight buffers whose content has been folded into RD since the run or load began (R449), one bit each. -/
  wbSeen   : Nat := 0
  streams  : Map Stream := []
  rmode    : Nat := 0
  fpflags  : Nat := 0
  imprecise : Nat := 0
  wbLabel0 : Nat := 0
  wbLabel1 : Nat := 0
  fence    : Nat := 0
  steps    : Nat := 0
  sstatus  : Nat := 0
  ivec     : Nat := 0
  xvec     : Nat := 0
  ipie     : Nat := 0
  timecmp  : Nat := 0
  evqMask  : Nat := 0
  cqMask   : Nat := 0
  /-- The address of a pending ACCESS_IMPRECISE (R242). -/
  pending  : Option Nat := Option.none
  /-- The loop in progress: the address of its first word, the instructions of its body, those left of this pass, and
  passes left (R220). -/
  loop     : Option (Nat × Nat × Nat × Nat) := Option.none
  /-- Words that the fetch queue holds, by address: a loop's body, or a word that has come from beyond the module; each
  with its second word, and the poison bit at bit 64. -/
  queue    : Map Nat := []
  box      : Strongbox := {}
  /-- DISPATCH_EN in force (R253). -/
  dispatch : Bool := false
  /-- DISPATCH_EN has been written, and the write has not yet taken effect. -/
  redo     : Bool := false
  /-- Stepping one instruction in DEBUG_HALT (R591). -/
  stepping : Bool := false
deriving DecidableEq, Repr

/-- The cores, and the control cores' local RAM. -/
structure CoreState where
  /-- By holder id: coaches 0 to 63, CTL0 to CTL3 64 to 67 (R161, R259). -/
  cores : Map Core := []
  /-- Local RAM cells by core × 65536 + offset / 4 (R252). -/
  lram  : Map Cell39 := []
deriving DecidableEq, Repr

end Sys2Proof.Machine
end

