-- ==== Sys2Proof/Machine/TypesPower.lean ====
section
/-! DEFINITION. Data types of the clocks and the governor (chapter 3) and of power, reset, boot and Dormant
(chapter 4). -/

namespace Sys2Proof.Machine

/-- What the CLK block knows of its clocks (R75 to R82). -/
structure Clk where
  /-- REF edges are present. -/
  refPresent : Bool := true
  /-- The REF PLL is locked; from power-up on it locks (R107). -/
  locked     : Bool := false
  /-- REF has been declared lost and is not yet restored (R78). -/
  lost       : Bool := false
  /-- The PLL outputs have stopped (R78 step 5). -/
  stopped    : Bool := false
  /-- The tick runs from the holdover oscillator. -/
  holdover   : Bool := false
  /-- The PLL relocks (R80 step 1). -/
  relocking  : Bool := true
  /-- Quality RANGE is in force (R81). -/
  range      : Bool := false
  /-- Measurements in a row within 500 ppm since RANGE (R81). -/
  good       : Nat := 0
  /-- The latest measurement is within 500 ppm. -/
  inRange    : Bool := true
  /-- The AON clock is present and within 5 % (R82). -/
  aon        : Bool := true
  /-- This follower has been more than one tick from module 0 for more than 1 ms, or slews back since its admission
  (R76, R529). -/
  unaligned  : Bool := false
  /-- Module 0's tick is not LOCKED, or this follower has not heard of it yet (R76, R77). -/
  unled      : Bool := false
  /-- This follower was admitted ahead of module 0 and slews back (R529). -/
  ahead      : Bool := false
  /-- The tick since which the follower is more than one tick from module 0. -/
  apart      : Option Nat := none
  /-- The tick at which an injected loss of REF ends (CLK INJECT 0). -/
  injectEnd  : Option Nat := none
deriving DecidableEq, Repr

/-- The governor's PMBus transaction on BUS1 (R93, R560). -/
inductive GovTxn where
  | page
  /-- VOUT_COMMAND, and whether a thermal change asked for it. -/
  | vout (mv : Nat) (thermal : Bool)
  | read
deriving DecidableEq, Repr

/-- The governor (R87 to R100). -/
structure Gov where
  /-- VCORE_CMD in mV; 0 is unknown. -/
  vcmd     : Nat := 0
  /-- The target that the loop works from, in mV. -/
  target   : Nat := 750
  /-- The newest target not yet sent, and whether a thermal change set it (R93). -/
  next     : Option (Nat × Bool) := none
  /-- The newest target, which goes out after the thermal one that goes before it (R93). -/
  later    : Option Nat := none
  /-- Temperature has moved C since the last evaluation (R91, R93). -/
  cooled   : Bool := false
  txn      : Option GovTxn := none
  /-- PAGE has been accepted for the command that comes next. -/
  paged    : Bool := false
  /-- READ_VOUT is to be sent: SETTLE_US is over. -/
  reading  : Bool := false
  /-- Failures of the present VOUT_COMMAND or READ_VOUT (R94). -/
  fails    : Nat := 0
  /-- Failures of the PAGE that precedes it. -/
  pageFails : Nat := 0
  /-- The tick of the last evaluation (R91). -/
  evaled   : Nat := 0
  /-- The tick at which SETTLE_US is over. -/
  settle   : Option Nat := none
  above    : Nat := 0
  /-- The thermal ceiling in mV (R97). -/
  thermal  : Nat := 900
  /-- Values of q by graph slot, newest first (R88). -/
  windows  : Map (List Int) := []
  /-- Boost ms per second, newest bucket first, at most 60 (R96). -/
  boost    : List Nat := []
  /-- The tick at which boost came into force. -/
  boosting : Option Nat := none
  boostOut : Bool := false
  lastLate : Option Nat := none
  /-- Commanding has stopped after PMBUS_FAIL (R94). -/
  stopped  : Bool := false
  /-- LAST_ACTION. -/
  action   : Nat := 0
  /-- TJ_MAX is at or above THROT_ON (R97). -/
  throttle : Bool := false
  /-- TJ_MAX is at or above 105 °C. -/
  hot      : Bool := false
  /-- PRESSURE values of the other team members (R89). -/
  team     : Map (Option Int) := []
deriving DecidableEq, Repr

/-- The power states (R101). -/
inductive PowerState where
  | off | seqUp | run | seqDown | retry | dormant | hold
deriving DecidableEq, Repr

/-- The phases of a warm reset (R111). -/
inductive WarmPhase where
  | idle
  /-- Step 4, the yard sweep. -/
  | sweep
  /-- Step 5, the 200 µs after VOUT_COMMAND. -/
  | vout
  /-- RESET_N or TEST_EN holds the module in warm reset (R109, R608). -/
  | heldLow
deriving DecidableEq, Repr

/-- Where the boot ROM is (R116). -/
inductive BootStage where
  | idle | primary | secondary | host
  /-- The jump waits: the region of host boot is being swept (R117), or the margin is being probed (R491). -/
  | leaving
  | done | halted
deriving DecidableEq, Repr

/-- The always-on island's sequencer, straps, reset pins and boot state (chapter 4). -/
structure Pwr where
  state     : PowerState := .seqUp
  /-- VR_EN[7:0] and PG[7:0]. -/
  vrEn      : Nat := 1
  pg        : Nat := 0
  /-- The rail the sequencer brings up. -/
  rail      : Nat := 0
  /-- Its PG is high and the 100 µs wait runs. -/
  railWait  : Bool := false
  retries   : Nat := 0
  /-- What SEQ_DOWN leads to. -/
  goal      : PowerState := .retry
  /-- RETRY waits 1 s after a PG_TIMEOUT, 100 ms after a power fault. -/
  longRetry : Bool := false
  /-- Cause and DETAIL of the cold restart in progress (R128). -/
  cause     : Nat := 1
  detail    : Nat := 0
  resetLow  : Bool := false
  testEn    : Bool := false
  perstLow  : Bool := false
  /-- VIO18 is within the limits of R84, as a PROG_CMD has last found it (R596). -/
  vio18     : Bool := true
  /-- A RESET_N assertion latched during SEQ_DOWN (R114). -/
  pinLatched : Bool := false
  /-- A wake event latched during Dormant entry (R125). -/
  wakeLatched : Bool := false
  /-- RTC_NOW at the last wake event (R125, WAKE_TIME). -/
  wakeRtc   : Option Nat := none
  strapped  : Bool := false
  /-- RTC_NOW when the straps were sampled (R604). -/
  strapAt   : Nat := 0
  warm      : WarmPhase := .idle
  boot      : BootStage := .idle
  /-- The boot image under check is loaded in CTL0 local RAM. -/
  loaded    : Bool := false
  bootCount : Nat := 0
  /-- The latest reset was a warm reset. -/
  warmed    : Bool := false
  /-- The BOOT_STATUS code and entry point of the jump that waits. -/
  jump      : Option (Nat × Nat) := none
  /-- The PCIe endpoint has been brought up (R116). -/
  endpoint  : Bool := false
  bootDone  : Bool := false
  bootFail  : Bool := false
  wakeReady : Bool := false
  /-- Ticks counted towards the next watchdog millisecond. -/
  wdtTick   : Nat := 0
  /-- The tick at which the boot ROM began to wait for the host (R116). -/
  hostSince : Nat := 0
deriving DecidableEq, Repr

end Sys2Proof.Machine
end

