-- ==== Sys2Proof/Machine/TypesFgs.lean ====
section
/-! DEFINITION. Data types of the frame-graph sequencer (chapter 13): Psieb tables, graphs, frame slots and tickets. -/

namespace Sys2Proof.Machine

/-- An input entry of a Psieb table (R415). -/
structure GInput where
  port    : Nat
  binding : Nat
  voidBad : Bool
  release : Bool
deriving DecidableEq, Repr

/-- A node entry (R415). -/
structure GNode where
  image      : Image
  kind       : Nat
  launch     : Nat
  readyGraph : Bool
  dlSet      : Bool
  tagMode    : Bool
  relReport  : Bool
  inMask     : Nat
  count      : Nat
  queue      : Nat
  dlOff      : Nat
  stepA      : Nat
  stepB      : Nat
  threshStep : Nat
  edgeFirst  : Nat
  edgeCount  : Nat
  rearm      : List Nat
  clBus      : Nat
  clIndex    : Nat
deriving DecidableEq, Repr

/-- An edge entry (R415). -/
structure GEdge where
  dest     : Nat
  voidProp : Bool
deriving DecidableEq, Repr

/-- A loaded Psieb table (R415). -/
structure GTable where
  maxFrames  : Nat
  cmp        : Nat
  flags      : Nat
  trigger    : Nat
  trigInput  : Nat
  period     : Nat
  phase      : Nat
  deadline   : Nat
  grace      : Nat
  joinWindow : Nat
  ctrBase    : Nat
  trigTally  : Nat
  trigThresh : Nat
  ring       : Nat
  ringLog2   : Nat
  inputs     : List GInput
  nodes      : List GNode
  edges      : List GEdge
  len        : Nat
  check      : Nat
deriving DecidableEq, Repr

/-- How far a node of a ticket has come (R422, R424). -/
inductive NodeStage where
  | off
  /-- Its instances are being enqueued. -/
  | launching
  /-- Launched; a CMDLIST or ACTION node may still count its in-edges. -/
  | sent
  /-- Its command list runs. -/
  | listing
  | reported
  /-- Not launched: an input is absent, or the ticket was abandoned. -/
  | skipped
deriving DecidableEq, Repr

/-- A node of one frame. -/
structure NodeRun where
  stage : NodeStage := .off
  /-- Launched instances that have not reported. -/
  left  : Nat := 0
  /-- An instance has ended with an abort status. -/
  bad   : Bool := false
  /-- In-edges applied to a CMDLIST or ACTION node. -/
  got   : Nat := 0
  /-- A CMDLIST or ACTION node has been voided. -/
  void  : Bool := false
deriving DecidableEq, Repr

/-- A buffer as one frame holds it: its index, and the model's own number of the frame. -/
structure CamBuf where
  index : Nat
  frame : Nat
deriving DecidableEq, Repr

/-- An input of one ticket (R419, R420, R431). -/
structure InputRun where
  /-- The buffer of the bound frame. -/
  buf      : Option CamBuf := none
  absent   : Bool := false
  /-- The FRAME_END has been applied. -/
  ended    : Bool := false
  status   : Nat := 0
  record   : Nat := 0
  released : Bool := false
deriving DecidableEq, Repr

/-- The states of a frame slot (R418). -/
inductive FrameStage where
  | free | armed | opened | draining
deriving DecidableEq, Repr

/-- The GRAPH_STATUS code of a frame slot. -/
def FrameStage.code : FrameStage → Nat
  | .free => 0 | .armed => 1 | .opened => 2 | .draining => 3

/-- A frame slot and its ticket (R418, R427, R428). -/
structure Frame where
  stage   : FrameStage := .free
  /-- Distinguishes this use of the slot from every other since LOAD. -/
  turn    : Nat := 0
  seq     : Nat := 0
  time    : Nat := 0
  degr    : Bool := false
  inputs  : List InputRun := []
  nodes   : Map NodeRun := []
  /-- The first node that ended with an abort status, and the status. -/
  abort   : Option (Nat × Nat) := none
  lost    : Bool := false
  suspect : Bool := false
  poison  : Bool := false
  late    : Bool := false
  /-- The tick of the last report. -/
  last    : Nat := 0
deriving DecidableEq, Repr

/-- A frame of a joining input that is held for JOIN_WINDOW ticks (R419). -/
structure HeldFrame where
  input : Nat
  buf   : CamBuf
  time  : Nat
  till  : Nat
  /-- Its FRAME_END has come before it was bound, and has released the buffer (R420). -/
  released : Bool := false
deriving DecidableEq, Repr

/-- The states of a graph slot (R411). -/
inductive GraphStage where
  | empty | loaded | running | stopping
deriving DecidableEq, Repr

/-- The GRAPH_STATUS code of a graph slot. -/
def GraphStage.code : GraphStage → Nat
  | .empty => 0 | .loaded => 1 | .running => 2 | .stopping => 3

/-- A ticket that has closed in a frame slot: its turn, its record and the record's address (R432, R433). -/
structure Closed where
  turn  : Nat
  bytes : List Byte
  addr  : Nat
  seq   : Nat
deriving DecidableEq, Repr

/-- A graph slot. -/
structure Graph where
  stage  : GraphStage := .empty
  table  : Option GTable := none
  seq    : Nat := 0
  turns  : Nat := 0
  /-- HANDOVER from a slot whose frame slots are not all FREE yet (R414). -/
  source : Option Nat := none
  frames : Map Frame := []
  /-- The frame slot opened last. -/
  last   : Nat := 3
  held   : List HeldFrame := []
  /-- Inputs of tickets that have closed, by input and buffer, whose FRAME_END is still to come (R431). -/
  spent  : List (Nat × CamBuf) := []
  closed : Map (Option Closed) := []
  /-- A full brake-mode queue holds the launch of an instance: frame slot, node, instance (R426). -/
  braked : Option (Nat × Nat × Nat) := none
deriving DecidableEq, Repr

/-- An event on its way from an intake to the sequencer (R349, R351, R359). -/
inductive FgsEvent where
  | start (port binding : Nat) (buf : CamBuf) (time num : Nat) (degr : Bool)
  | fin (port binding : Nat) (buf : CamBuf) (status record : Nat)
  | absent (port binding time record : Nat) (degr : Bool)
deriving DecidableEq, Repr

/-- Port and binding of an event. -/
def FgsEvent.stream : FgsEvent → Nat × Nat
  | .start p b _ _ _ _ => (p, b) | .fin p b _ _ _ => (p, b) | .absent p b _ _ _ => (p, b)

/-- Where a launched instance belongs: WORK queue and slot, graph, frame slot, the turn of the slot, and node. -/
structure Sent where
  queue : Nat
  slot  : Nat
  graph : Nat
  frame : Nat
  turn  : Nat
  node  : Nat
deriving DecidableEq, Repr

/-- A report on its way from the depot (R427). -/
structure Report where
  graph  : Nat
  frame  : Nat
  turn   : Nat
  node   : Nat
  status : Nat
  poison : Bool
deriving DecidableEq, Repr

/-- A trail-mode SUSPECT finding on its way (R433). -/
structure Finding where
  graph : Nat
  frame : Nat
  turn  : Nat
  tag   : Nat
deriving DecidableEq, Repr

/-- A graph command that waits on an offline backing area (R436). -/
structure GraphWait where
  cmd   : Nat
  graph : Nat
  addr  : Nat
deriving DecidableEq, Repr

/-- The sequencer's state beyond its registers. -/
structure FgsState where
  graphs   : Map Graph := []
  events   : List FgsEvent := []
  sent     : List Sent := []
  reports  : List Report := []
  findings : List Finding := []
  waiting  : Option GraphWait := none
deriving DecidableEq, Repr

end Sys2Proof.Machine
end

