-- ==== Sys2Proof/Machine/TypesIntake.lean ====
section
/-! DEFINITION. Data types of the intakes (chapter 11): camera ports, streams and their frames, and the frame-sync
outputs. -/

namespace Sys2Proof.Machine

/-- The stream states (R346). -/
inductive CamState where
  | off | waitFs | inFrame | dropping | detached | replugWait | configuring | configFail | stabled
deriving DecidableEq, Repr

/-- The STREAM_STATUS code (R346). -/
def CamState.code : CamState → Nat
  | .off => 0 | .waitFs => 1 | .inFrame => 2 | .dropping => 3 | .detached => 4 | .replugWait => 5 | .configuring => 6
  | .configFail => 7 | .stabled => 8

/-- A frame of a stream, from its frame start to its record (R347 to R352). -/
structure CamFrame where
  /-- Distinguishes the frame's writes from every other frame's. -/
  serial   : Nat
  buf      : Nat := 0
  time     : Nat := 0
  degr     : Bool := false
  num      : Nat := 0
  seq      : Nat := 0
  /-- Byte clock at the frame start, in MHz (R355). -/
  mhz      : Nat := 0
  /-- Long packets since the frame start. -/
  packets  : Nat := 0
  /-- Line number of the first line start, and of the latest. -/
  first    : Option Nat := none
  line     : Option Nat := none
  /-- The tick of the frame start or the last line end (R353). -/
  last     : Nat := 0
  /-- Stored rows whose line arrived, that are valid, and that have been written, one bit each. -/
  came     : Nat := 0
  good     : Nat := 0
  written  : Nat := 0
  reason   : Nat := 0
  crc      : Nat := 0
  hdrLoss  : Bool := false
  lost     : Nat := 0
  filled   : Bool := false
  early    : Bool := false
  absent   : Bool := false
  /-- STATUS, once the record is written. -/
  status   : Nat := 0
  /-- The record has been written and its acknowledgement is awaited (R351 step 4). -/
  recorded : Bool := false
  /-- A write of the record has failed. -/
  torn     : Bool := false
  /-- What the close needs of the binding. -/
  cmp      : Nat := 0
  height   : Nat := 0
  buffer   : Nat := 0
  rowmap   : Nat := 0
  record   : Nat := 0
deriving DecidableEq, Repr

/-- A stream of a binding. -/
structure CamStream where
  state   : CamState := .off
  nextBuf : Nat := 0
  /-- BUSY bits. -/
  busy    : Nat := 0
  /-- Ticks of the last accepted frame start, the last ABSENT event, and EN being set. -/
  started : Option Nat := none
  absent  : Option Nat := none
  since   : Nat := 0
  /-- The tick at which the hot-plug input rose (R358). -/
  rose    : Nat := 0
  accepted : Nat := 0
  /-- Frames refused since the previous record. -/
  storms  : Nat := 0
  busies  : Nat := 0
  frame   : Option CamFrame := none
  /-- Frames that close, oldest first. -/
  closing : List CamFrame := []
deriving DecidableEq, Repr

/-- A camera port. -/
structure CamPort where
  deskewed : Bool := false
  mhz      : Nat := 0
  fault    : Bool := false
deriving DecidableEq, Repr

/-- The intakes' state beyond their registers. -/
structure InkState where
  /-- By port, 0 to 5. -/
  ports   : Map CamPort := []
  /-- By port × 4 + binding. -/
  streams : Map CamStream := []
  /-- Frames so far. -/
  serials : Nat := 0
  /-- FSYNC outputs that are active: 1 + the tick at which the pulse ends, by output (R361). -/
  pulses  : Map Nat := []
  /-- Frame-sync outputs whose FSYNC_CTRL has been written since the reset (R604). -/
  fsyncSet : Nat := 0
deriving DecidableEq, Repr

/-- A piece of an engine's input that lies beyond its module (R45, R509): the run that reads it, its address and bytes, and
what has come back. -/
structure FarPiece where
  serial : Nat
  addr   : Nat
  len    : Nat
  answer : Option FarReply := none
deriving DecidableEq, Repr

/-- A vision engine's job (R364 to R366, R379). -/
structure Eng where
  /-- The run that the job belongs to. -/
  serial : Nat := 0
  /-- The words of the descriptor. -/
  words  : List Nat := []
  /-- The outputs have been written. -/
  done   : Bool := false
  /-- A poisoned element has been read. -/
  poison : Bool := false
  /-- Pieces that it reads beyond its module. -/
  far    : List FarPiece := []
deriving DecidableEq, Repr

end Sys2Proof.Machine
end

