-- ==== Sys2Proof/Machine/TypesIo.lean ====
section
/-! DEFINITION. Data types of the fuses, the test access port and the boot flash (chapter 19). -/

namespace Sys2Proof.Machine

/-- The fuse array and its programming (R594 to R596). -/
structure Fus where
  /-- The two stored copies of each row. -/
  rows : Map (Nat × Nat) := []
  /-- The row and bits being blown. -/
  prog : Option (Nat × Nat) := none
deriving DecidableEq, Repr

/-- The fuses as the model takes them from the factory: FACTORY_LOCK is set before shipping (R594), and in row 9 both TYP_BIN
and STEP_BIN hold 98, the least value of STEP_BIN (R68). DESIGN CHOICE (log entry 40): the value of either field and every
other row, unblown. -/
def Fus.shipped : Fus := { rows := [(0, (8, 8)), (9, (0x620062, 0x620062))] }

/-- TAP instructions (R583). -/
inductive TapIr where
  | idcode | sample | extest | highz | clamp | pulse | train | memAccess | strongbox | bypass
deriving DecidableEq, Repr

/-- The instruction of an opcode; one that the table does not list acts as BYPASS (R583). -/
def TapIr.ofOpcode (c : Nat) : TapIr := match c with
  | 0x01 => .idcode | 0x02 => .sample | 0x03 => .extest | 0x04 => .highz | 0x05 => .clamp | 0x06 => .pulse
  | 0x07 => .train | 0x10 => .memAccess | 0x11 => .strongbox | _ => .bypass

/-- Groups of cells of the boundary-scan chain (R585); how many cells a group has, and their order in it, is in the BSDL
file alone. -/
inductive ScanGroup where
  | resetN | straps | vrEn | pg | alertMgmt | bus | hmi | led | fsync | uart | xspi | pcie | dphy (port : Fin 6) | drawbar
deriving DecidableEq, Repr

/-- The chain from TDI to TDO (R585): I/O die 0, then I/O die 1 where the part has one. -/
def scanChain (ioDies : Nat) : List ScanGroup :=
  [.resetN, .straps, .vrEn, .pg, .alertMgmt, .bus, .hmi, .led, .fsync, .uart, .xspi, .pcie, .dphy 0, .dphy 1, .dphy 2]
    ++ (if ioDies = 2 then [.dphy 3, .dphy 4, .dphy 5, .drawbar] else [])

/-- Groups whose cells only observe (R586). -/
def ScanGroup.observes (g : ScanGroup) : Bool := g = .resetN || g = .vrEn

/-- The groups that IEEE 1149.6 covers (R587); the cells of the low-power lines among those of a D-PHY port are ordinary. -/
def ScanGroup.isLane : ScanGroup → Bool
  | .pcie => true | .dphy _ => true | .drawbar => true | _ => false

/-- The test access port (R582 to R591). -/
structure Tap where
  /-- The instruction loaded. -/
  ir       : TapIr := .idcode
  /-- The boundary register: the cells of each group of the chain. -/
  boundary : List Nat := []
  /-- STATUS and data of the latest MEM_ACCESS. -/
  mem      : Nat := 0
  /-- The STRONGBOX data register. -/
  box      : Nat := 0
  /-- The line that the console answers while a word of it waits: the word's address, words left (0 for a write), and the
  text so far. -/
  console  : Option (Nat × Nat × List Byte) := none
  /-- Lines that have come meanwhile. -/
  lines    : List (List Byte) := []
deriving DecidableEq, Repr

/-- Flash operations of XSP_CMD (R598). -/
inductive FlashOp where
  | program | erase4 | erase64 | register (opcode : Nat)
deriving DecidableEq, Repr

/-- The boot-flash port (R598). -/
structure Xsp where
  /-- Flash contents by byte offset; an erased byte is 0xFF. -/
  flash : Map Nat := []
  /-- The operation in progress, its flash offset, and the tick at which it began. -/
  op    : Option (FlashOp × Nat × Nat) := none
deriving DecidableEq, Repr

end Sys2Proof.Machine
end

