-- ==== Sys2Proof/Machine/TypesLink.lean ====
section
/-! DEFINITION. Data types of the host link and of the drawbar (chapter 16). -/

namespace Sys2Proof.Machine

/-! ### The host link -/

/-- What a host configuration write changes (R502, R503, R504, R512, R514, and the Base Specification's control bits). -/
inductive ConfigField where
  | memorySpace (f : Fin 16) (on : Bool)
  | busMaster (f : Fin 16) (on : Bool)
  | powerD3 (f : Fin 16) (on : Bool)
  | vfEnable (on : Bool)
  | numVfs (n : Fin 16)
  | msixEnable (f : Fin 16) (on : Bool)
  | msixMask (f : Fin 16) (on : Bool)
  /-- Error reporting in Device Control. -/
  | errorReporting (f : Fin 16) (on : Bool)
  | maxPayload (n : Fin 3)
  | maxRead (n : Fin 6)
  /-- Uncorrectable Error Status bits written with one clear. -/
  | aerClear (f : Fin 16) (bits : W32)
deriving DecidableEq, Repr

/-- A host request that the endpoint holds behind others; `id` is the number of its header (R64, R507). -/
inductive HostReq where
  | bar0 (off value : Nat) (wide : Bool) (id : Nat)
  | bar0Read (off : Nat) (wide : Bool)
  | enqueue (queue : Nat) (image : Image) (id : Nat)
  | window (queue value id : Nat)
  | windowRead (queue : Nat)
  | bar4 (addr : Nat) (bytes : List Byte) (id : Nat)
  | bar4Read (addr len : Nat)
deriving DecidableEq, Repr

/-- A held request, with its function and what befalls it on its way beyond the endpoint (R182, R196). -/
structure HostHeld where
  fn  : Fin 16
  req : HostReq
  way : Mishap := .clear
deriving DecidableEq, Repr

/-- The header of an inbound write (R514): its function, address, length in bytes, and the module's own number for it. -/
structure HostHdr where
  fn   : Nat
  addr : Nat
  len  : Nat
  id   : Nat
deriving DecidableEq, Repr

/-- The AER state of a function: Uncorrectable Error Status and the Header Log. -/
structure Aer where
  status : Nat := 0
  /-- The logged header, and whether it was made up (R514). -/
  hdr    : Option (HostHdr × Bool) := none
deriving DecidableEq, Repr

/-- A read through the outbound window (R509, R511): the parts that are outstanding and those still to be issued, in order,
as address and length. -/
structure OutRead where
  who   : Who
  cmp   : Nat
  addr  : Nat
  what  : FarFor
  parts : List (Nat × Nat) := []
  wait  : List (Nat × Nat) := []
  /-- A part has failed its check. -/
  fault : Bool := false
  got   : List Byte := []
  bad   : Bool := false
deriving DecidableEq, Repr

/-- The endpoint's state beyond its registers. -/
structure HostState where
  /-- The reference clock runs (R518). -/
  refclk   : Bool := true
  vfEnable : Bool := false
  numVfs   : Nat := 0
  /-- Bits by function. -/
  mse      : Nat := 0
  bme      : Nat := 0
  d3       : Nat := 0
  msix     : Nat := 0
  masked   : Nat := 0
  /-- Functions whose error reporting is on. -/
  errs     : Nat := 0
  /-- Max Payload Size and Max Read Request Size codes: 128 bytes times a power of two. -/
  mps      : Nat := 0
  mrrs     : Nat := 2
  aer      : Map Aer := []
  /-- Held posted requests, oldest first (R507). -/
  inbox    : List HostHeld := []
  /-- Headers of the most recent inbound writes, newest last (R514). -/
  headers  : List HostHdr := []
  nextHdr  : Nat := 1
  reads    : List OutRead := []
deriving DecidableEq, Repr

/-! ### The drawbar -/

/-- The class of a packet: 0 RQ, 1 RP, 2 SV. -/
def Packet.cls (p : Packet) : Nat := match p.body with
  | .tell _ => 1
  | .ask (.pressure _) => 2
  | .ask (.decrement _ _ _) => 2
  | .ask (.token _ _ _ _) => 2
  | .ask (.sem _ _ _ _ _ _) => 2
  | .ask _ => 0

/-- The data that a packet carries (R522). Operands that are neither address nor data have no stated place in a packet (log
entry 60). -/
def Packet.data (p : Packet) : List Byte := match p.body with
  | .ask (.write _ bs) => bs
  | .ask (.turnWrite _ _ _ _ bs) => bs
  | .ask (.atomic _ _ _ src cmp) => leBytes 8 src ++ leBytes 8 cmp
  | .ask (.enqueue _ img) => img.bytes
  | .tell (.data bs) => bs.map (·.1)
  | _ => []

/-- Pieces of `n` bytes, the last of which may be shorter; at least one. -/
def piecesOf (n : Nat) (bs : List Byte) : List (List Byte) :=
  (List.range (max 1 ((bs.length + n - 1) / n))).map (fun i => (bs.drop (n * i)).take n)

/-- Receive buffers of 16 bytes that a packet takes: a header for each 64 bytes of data, and the data (R522). -/
def Packet.units (p : Packet) : Nat := (piecesOf 64 p.data).length + (p.data.length + 15) / 16

/-- What a packet asks or answers, by number, and the address that it names. -/
def Packet.kind (p : Packet) : Nat × Option Nat := match p.body with
  | .ask (.read a _ fetch) => (if fetch then 1 else 0, some a)
  | .ask (.turn a _ _ _ _) => (2, some a)
  | .ask (.write a _) => (3, some a)
  | .ask (.turnWrite a _ _ _ _) => (4, some a)
  | .ask (.atomic _ a _ _ _) => (5, some a)
  | .ask (.enqueue _ _) => (6, none)
  | .ask (.sem _ a _ _ _ _) => (7, some a)
  | .ask (.decrement _ _ _) => (8, none)
  | .ask (.token _ _ _ _) => (9, none)
  | .ask (.pressure _) => (10, none)
  | .tell (.data _) => (11, none)
  | .tell (.code _) => (12, none)
  | .tell .ack => (13, none)
  | .tell (.fail _) => (14, none)

/-- The bytes of a packet: for each piece of 64 bytes of its data a header of 16 bytes and the data in whole units
(R522). -/
def Packet.bytes (p : Packet) : List Byte :=
  let a := p.kind.2.getD (Config.packetPlace p.kind.1).toNat
  let ps := piecesOf 64 p.data
  (List.range ps.length).flatMap (fun i =>
    let bs := ps.getD i []
    let n := (bs.length + 15) / 16
    leBytes 1 (64 * p.cls + 16 * (if p.cls = 2 then 3 else p.qos)) ++ leBytes 1 n
      ++ leBytes 1 (64 * (p.src % 4) + 16 * (p.dst % 4) + p.cmp % 16) ++ [Config.packetCode p.kind.1]
      ++ leBytes 6 (a + 64 * i) ++ leBytes 2 p.stn ++ leBytes 2 p.xid ++ leBytes 2 p.wtag
      ++ (bs ++ List.replicate 16 0).take (16 * n))

/-- The body of a flit (R522): a DATA flit holds a piece of the packets' stream, and the packets that end in it. -/
inductive FlitBody where
  | data (ps : List Packet) (piece : List Byte)
  | hello (stackCount teamId size topology port present tick : Nat)
  | tickSync (tick cycle delay : Nat)
  | echo (cookie : Nat)
  | echoReply (cookie : Nat)
deriving DecidableEq, Repr

/-- The TYPE of a flit body. -/
def FlitBody.type : FlitBody → Nat
  | .data _ _ => 1 | .hello _ _ _ _ _ _ _ => 3 | .tickSync _ _ _ => 4 | .echo _ => 5 | .echoReply _ => 6

/-- The bytes of a flit body, without its padding (R522). -/
def FlitBody.bytes : FlitBody → List Byte
  | .data _ piece => piece
  | .hello stackCount teamId size topology port present tick =>
    [stackCount, teamId, size, topology, port, present, 0, 0].flatMap (leBytes 1) ++ leBytes 8 tick
  | .tickSync tick cycle delay => leBytes 8 tick ++ leBytes 2 cycle ++ leBytes 4 delay
  | .echo cookie => leBytes 8 cookie
  | .echoReply cookie => leBytes 8 cookie

/-- A flit of 128 bytes: TYPE, FLAGS with ACK_VALID, SEQ, ACK_SEQ, CREDIT, the body and its CRC (R522). -/
def flitBytes (type seq : Nat) (ack : Option Nat) (credit : Nat) (body : List Byte) : List Byte :=
  let h := leBytes 1 type ++ leBytes 1 (if ack.isSome then 0x80 else 0) ++ leBytes 2 seq ++ leBytes 2 (ack.getD 0)
    ++ leBytes 2 credit ++ (body ++ List.replicate 112 0).take 112
  h ++ leBytes 8 (crc64 h)

/-- A sequenced flit that has been sent. -/
structure Flit where
  seq  : Nat
  body : FlitBody
  /-- CREDIT, which the flit keeps when it is sent again: class and buffers. -/
  credit : Nat × Nat := (0, 0)
deriving DecidableEq, Repr

/-- The header of a received flit: whether its CRC is right, SEQ, ACK_SEQ when ACK_VALID, and CREDIT. -/
structure FlitHdr where
  crcOk  : Bool
  seq    : Fin 4096
  ack    : Option (Fin 4096)
  cls    : Fin 3
  credit : Fin 16384
deriving DecidableEq, Repr

/-- The states of a drawbar port (R524). -/
inductive PortState where
  | disabled | training | hello | up | retrain | down
deriving DecidableEq, Repr

/-- The code of a port state. -/
def PortState.code : PortState → Nat
  | .disabled => 0 | .training => 1 | .hello => 2 | .up => 3 | .retrain => 4 | .down => 5

/-- A drawbar port. -/
structure DbPort where
  state    : PortState := .disabled
  /-- The tick of the latest state change or training attempt. -/
  since    : Nat := 0
  /-- Training is tried again after 100 ms. -/
  retry    : Bool := false
  /-- SEQ of the next flit to send, and of the next one to accept. -/
  nextSeq  : Nat := 0
  rxSeq    : Nat := 0
  /-- A sequenced flit has been accepted: ACK_SEQ is valid. -/
  heard    : Bool := false
  /-- Flits not yet acknowledged, oldest first. -/
  replay   : List Flit := []
  /-- The tick from which the 2 µs run. -/
  ackAt    : Nat := 0
  /-- Replays without ACK_SEQ advancing, and retrains in a row without a flit acknowledged. -/
  replays  : Nat := 0
  retrains : Nat := 0
  /-- Send credit by class. -/
  credit   : List Nat := [0, 0, 0]
  /-- Receive buffers freed and not yet told, by class. -/
  freed    : List Nat := [0, 0, 0]
  /-- Packets that wait for credit, for room in the replay buffer, or for the port. -/
  queue    : List Packet := []
  /-- Members that the neighbour reports as present, and what the latest HELLO has told it. -/
  present  : Nat := 0
  told     : Nat := 0
  /-- The cookie of the latest ECHO, and the REF count at its departure. -/
  echo     : Option (Nat × Nat) := none
  echoAt   : Nat := 0
deriving DecidableEq, Repr

/-- A read, atomic or enqueue of this module at another one (R527). -/
structure Far where
  xid   : Nat
  who   : Who
  posted : Bool := false
  cmp   : Nat
  dst   : Nat
  addr  : Nat
  what  : FarFor
  since : Nat
  /-- The drawbar has lost it on this module (R524). -/
  lost  : Bool := false
deriving DecidableEq, Repr

/-- Whether a packet carries a write. -/
def Packet.isWrite (k : Packet) : Bool := match k.body with
  | .ask (.write _ _) => true
  | .ask (.turnWrite _ _ _ _ _) => true
  | _ => false

/-- What a port has not delivered: packets that wait, and those in flits not acknowledged (R524). -/
def DbPort.undelivered (x : DbPort) : List Packet :=
  x.queue ++ x.replay.flatMap (fun f => match f.body with
    | .data ks _ => ks
    | _ => [])

/-- The drawbar's state beyond its registers. -/
structure DrawbarState where
  ports   : Map DbPort := []
  /-- FORM has been written and not yet decided; its tick. -/
  forming : Option Nat := none
  /-- The module has formed and waits for its first TICK_SYNC (R529). -/
  joining : Bool := false
  /-- REF cycles by which the tick has still to be moved (R77). -/
  slew    : Int := 0
  /-- The ticks from which absent members have had no UP path, plus 1. -/
  gone    : Map Nat := []
  syncAt  : Nat := 0
  nextXid : Nat := 1
  far     : List Far := []
  /-- Packets from a port that have to wait, and whether for a slot of a queue (R266). -/
  stalled : List (Nat × Packet × Bool) := []
  /-- Semaphore requests of other modules that wait, with the holder as the clusters name it. -/
  semAsks : List (Nat × Packet) := []
  /-- Members that have left and whose compartment 0 has not written FORM since (R531). -/
  removed : Nat := 0
  /-- Packets of other modules whose access to this module's host is outstanding (R45, R527). -/
  relayed : List Packet := []
deriving DecidableEq, Repr

end Sys2Proof.Machine
end

