-- ==== Sys2Proof/Machine/TypesBus.lean ====
section
/-! DEFINITION. Data types of the two-wire buses (chapter 17), of the human interface (chapter 18), and of background
services and telemetry (chapter 15). -/

namespace Sys2Proof.Machine

/-! ### The management target -/

/-- A reply that waits for its read phase (R538). -/
inductive MgmtReply where
  | read
  | status
deriving DecidableEq, Repr

/-- How a management frame arrives: whole, cut before its fields end, with a byte too many, with a wrong or missing PEC,
with a T-bit parity error, or with an unknown command byte (R542, R543). -/
inductive MgmtFrame where
  | whole | short | long | badPec | noPec | parity | unknown (cmd : Byte)
deriving DecidableEq, Repr

/-- The management target's state beyond its registers (R535 to R549). -/
structure MgmtState where
  /-- The dynamic address, in I3C mode. -/
  dyn      : Option Nat := none
  /-- I3C_SEEN (R549). -/
  seen     : Bool := false
  ibiOn    : Bool := false
  /-- Hot-Join is enabled: DISEC has not disabled it. -/
  hjOn     : Bool := true
  mwl      : Nat := 264
  mrl      : Nat := 257
  /-- The reply pending, and its bytes: STATUS and data. -/
  reply    : Option MgmtReply := none
  bytes    : List Byte := []
  /-- STATUS of the last command, its command byte, and words completed. -/
  last     : Nat × Nat × Nat := (0, 0, 0)
  /-- The bytes of the latest write phase, its address byte included, which PEC covers (R542). -/
  sent     : List Byte := []
  /-- The tick from which the target acknowledges its address (R537). -/
  upAt     : Nat := 0
  /-- The alert has been released by the alert response (R547). -/
  released : Bool := false
  /-- The bits of ALERT_PENDING that the target has seen rise, and those of them that it has raised by IBI (R548). -/
  known    : Nat := 0
  byIbi    : Nat := 0
  /-- Alerts whose IBI waits, oldest first, and the NACKs in a row of the first one. -/
  ibis     : List Nat := []
  nacks    : Nat := 0
  /-- Alerts that have fallen back to ALERT_N. -/
  fallback : Nat := 0
  /-- Hot-Join NACKs in a row; `hjDone` once it ended (R549). -/
  hjNacks  : Nat := 0
  hjDone   : Bool := true
  hjAt     : Nat := 0
deriving DecidableEq, Repr

/-! ### Controller ports -/

/-- The states of a controller port (PORT_STATUS). -/
inductive TwMode where
  | idle | busy | recovering | stuck
deriving DecidableEq, Repr

/-- A list request: the list, the requester, and what it acts for (R557). -/
structure ListReq where
  index : Nat
  asker : ListFor
deriving DecidableEq, Repr

/-- A running list (R558). -/
structure ListRun where
  req   : ListReq
  /-- List RAM words of the list, and the word of the next command. -/
  start : Nat
  len   : Nat
  pc    : Nat
  /-- The tick at which a DELAY ends. -/
  till  : Option Nat := none
  /-- Address NACKs and lost arbitrations of the present transaction. -/
  nacks : Nat := 0
  losts : Nat := 0
  /-- It is to be ABORTED at its next transaction boundary. -/
  stop  : Bool := false
deriving DecidableEq, Repr

/-- A controller port. -/
structure TwPort where
  mode  : TwMode := .idle
  run   : Option ListRun := none
  queue : List ListReq := []
  ram   : Map Nat := []
  /-- The bytes that the port has put on the bus for its latest transaction: address bytes, data and the PEC of what it
  writes (R556, R560; log entry 170). -/
  wire  : List Byte := []
  /-- Bus levels: the lines as the port last saw them. -/
  scl   : Bool := true
  sda   : Bool := true
deriving DecidableEq, Repr

/-- What the check before a START, or a recovery, finds on the lines (R552). -/
inductive Lines where
  | free
  /-- SDA is low with SCL high, and reads high after one of nine clocks, or not. -/
  | sdaLow (released : Bool)
  | sclLow
  | noRise
deriving DecidableEq, Repr

/-- How a transaction whose START went out ended (R553, R554). -/
inductive WireOut where
  | done
  | addrNack
  | dataNack
  | arbLost
  | pecBad
deriving DecidableEq, Repr

/-! ### The human interface -/

/-- A button or hot-plug input, or a touch channel (R563 to R577). Times are counts of AON cycles, as RTC_NOW keeps them,
unless they are said to be ticks. -/
structure HmiIn where
  /-- Synchronised pin level, or the touch candidate, and when it last changed. -/
  pin      : Bool := false
  pinAt    : Nat := 0
  /-- Debounced level of the pin, or of a touch channel. -/
  level    : Bool := false
  /-- When the input's level last changed. -/
  since    : Nat := 0
  /-- When MIN_GAP ends, plus 1; 0 when no gap runs. -/
  gapEnd   : Nat := 0
  /-- A change waits for room in the event FIFO. -/
  blocked  : Bool := false
  /-- The level last posted, the changes coalesced since, and the tick of the reported level's last change. -/
  posted   : Bool := false
  changes  : Nat := 0
  changed  : Nat := 0
  /-- The tick quality at `changed` was not LOCKED (R76). -/
  degr     : Bool := false
  masked   : Bool := false
  /-- The level has changed to active in Dormant, and the wake it makes is still to come (R125). -/
  rose     : Bool := false
  /-- The time of its last wake, plus 1; 0 for none (R577). -/
  lastWake : Nat := 0
  /-- Touch: RAW and BASE, whether BASE has been set since ENABLE, whether it outlives the wake that follows, and Dormant
  scans in a row at TOUCH_TH or above. -/
  raw      : Nat := 0
  base     : Nat := 0
  based    : Bool := false
  keep     : Bool := false
  hits     : Nat := 0
  /-- Masked when Dormant began: not scanned there until it re-arms (R576). -/
  unscanned : Bool := false
deriving DecidableEq, Repr

/-- An event that waits for room in the XB-HMI FIFO (R578): STUCK (2) or REARMED (3) of an input with its tick and whether
that tick was DEGRADED, or (0) the level that the input reports once there is room. -/
structure HmiEvent where
  input   : Nat
  subkind : Nat
  tick    : Nat
  degr    : Bool := false
deriving DecidableEq, Repr

/-- An LED (R579, R580). -/
structure Led where
  slot  : Nat := 0
  /-- The tick at which the present slot ends; 0 when none has begun. -/
  ends  : Nat := 0
  /-- D in force since the last period boundary. -/
  duty  : Nat := 0
deriving DecidableEq, Repr

/-- The block's state beyond its registers. -/
structure HmiState where
  ins     : Map HmiIn := []
  leds    : Map Led := []
  waiting : List HmiEvent := []
  /-- When the latest touch scan began, plus 1. -/
  scanned : Nat := 0
  /-- TOUCH_TH and NEG_TH of the Dormant channels as they were at entry (R576). -/
  dormant : List (Nat × Nat × Nat) := []
deriving DecidableEq, Repr

/-! ### Background services and telemetry -/

/-- When a stack's recalibration windows fall (R488): the period in ticks and its first tick, and the period and first
tick that take over at the next start of a period. -/
structure Recal where
  period : Nat := 100000
  start  : Nat := 0
  next   : Nat := 100000
  from_  : Nat := 0
deriving DecidableEq, Repr

/-- Telemetry and background services beyond their registers. -/
structure TlmState where
  /-- COUNT[0..15] at the previous module record, the tick of that record, and whether records were skipped before the
  next (R497). -/
  last    : List Nat := []
  lastAt  : Nat := 0
  skipped : Bool := false
  /-- CCOUNT[0..11] at the previous record, by compartment (R498). -/
  cmps    : Map (List Nat) := []
  /-- The number of the latest snapshot, and its tick (R499). -/
  snap    : Nat := 0
  snapAt  : Nat := 0
  /-- SNAP_TAKE has been written and the snapshot is not yet taken. -/
  asked   : Bool := false
  /-- The tick of the latest sample. -/
  sampled : Nat := 0
  /-- Row pointers of yard scrub by station (R481). -/
  rows    : Map Nat := []
  /-- The 1,000 ticks in which each cluster's latest row was issued, and its rows in them (R481). -/
  paced   : Map (Nat × Nat) := []
  /-- Ticks at which the next margin probe, aging measurement and patrol debt step are due. -/
  probeAt : Nat := 0
  /-- The probes at the start of the boot ROM are not over yet (R491). -/
  probing : Bool := false
  ageAt   : Nat := 0
  debtAt  : Nat := 0
  recals  : Map Recal := []
deriving DecidableEq, Repr

end Sys2Proof.Machine
end

