-- ==== Sys2Proof/Syntax.lean ====
section
/-! DEFINITION. The commands of the VM4 module: one constructor for each row of the opcode table, with its operands.
An operand is what the outside world decides: who acts, an address, a value, what a sensor or a pin shows, what a
partner sends. -/

namespace Sys2Proof

open Sys2Proof.Machine

/-- The commands (opcode table). -/
inductive Instr where
  /-- REGISTER_WRITE (R646): A write to a register that has no row of its own stores the fields the requester
  may write, after the rights check. -/
  | registerWrite (who : Who) (addr : Addr) (wide : Bool) (value : W64) (mishap : Mishap)
  /-- COUNTER_READ_CLEAR (R9): A read of an RC register returns its value and then clears it, and an increment
  in the same step is counted after the read. -/
  | counterReadClear (who : Who) (addr : Addr) (wide : Bool) (mishap : Mishap)
  /-- HIGH_WORD_LATCH (R62): A 32-bit read of the low word of a 64-bit register latches the high word for that
  requester. -/
  | highWordLatch (who : Who) (addr : Addr) (mishap : Mishap)
  /-- STICKY_CLEAR (R52): A W1C write to STICKY clears the flags written with one, and VALID of STICKY_FIRST
  clears when STICKY becomes zero. -/
  | stickyClear (who : Who) (ty : Fin 32) (inst : Fin 64) (page : Fin 128) (value : W32)
  /-- UNIT_RESET (R112): Writing UNIT_RESET in CTRL starts a unit reset that ends the running waybill with
  ABORT_KILLED. -/
  | unitReset (who : Who) (ty : Fin 32) (inst : Fin 64)
  /-- UNIT_RESET_COMPLETE (R112): A unit reset finishes and UNIT_RESET reads 0 again. -/
  | unitResetComplete (ty : Fin 32) (inst : Fin 64)
  /-- STABLE_REQ (R470): Writing STABLE_REQ stables a unit, or is declined under the reasons of R471. -/
  | stableReq (who : Who) (ty : Fin 32) (inst : Fin 64)
  /-- PROBATION_REQ (R470): Writing PROBATION_REQ moves a stabled unit into probation and starts its test, or is
  declined. -/
  | probationReq (who : Who) (ty : Fin 32) (inst : Fin 64)
  /-- ENABLE_WRITE (R644): A write to CTRL ENABLE puts a unit in or out of service with its block-specific
  effect. -/
  | enableWrite (who : Who) (ty : Fin 32) (inst : Fin 64) (on : Bool)
  /-- INJECT_ARM (R55): An INJECT write with ARM set arms an error injection on the block's next operation. -/
  | injectArm (who : Who) (ty : Fin 32) (inst : Fin 64) (page : Fin 128) (flag : Fin 32) (param : BitVec 16)
  /-- OWNER_WRITE (R56): A write to OWNER on page 0 of an assignable instance changes the owner for later
  accesses. -/
  | ownerWrite (who : Who) (ty : Fin 32) (inst : Fin 64) (owner : Fin 16)
  /-- TICK (R75): The tick counter advances by one, from REF or from the holdover oscillator. -/
  | tick
  /-- REF_LOST (R78): Two monitor windows without a REF edge declare REF lost, set REF_LOST and put the PLL in
  holdover. -/
  | refLost
  /-- REF_UNLOCK (R78): The REF PLL loses lock with REF edges present, which declares REF lost and sets
  REF_UNLOCK. -/
  | refUnlock
  /-- HOLDOVER_SWITCH (R78): At the next tick boundary after REF loss the tick source becomes the holdover
  oscillator. -/
  | holdoverSwitch
  /-- PLL_OUTPUTS_STOP (R78): PLL outputs stop after holdover, taking the stack PHYs and drawbar offline and
  moving BUS0 to BUS3, xSPI and UART to holdover. -/
  | pllOutputsStop
  /-- REF_QUALIFIED (R80): REF present without a break for REF_QUAL_MS with REF_RESTORE_AUTO set starts the PLL
  relock. -/
  | refQualified
  /-- REF_RESTORE (R80): A write of REF_RESTORE starts the REF restore sequence at once. -/
  | refRestore (who : Who)
  /-- REF_RELOCKED (R80): The PLL relocks, the tick switches back to REF at a tick boundary and the stacks and
  drawbar recover. -/
  | refRelocked
  /-- REF_MEASURE (R81): Every 1,024 AON cycles the CLK block counts REF cycles, updates REF_PPM and sets RANGE
  or loss. -/
  | refMeasure (cycles : W32)
  /-- AON_LOST (R82): No AON edge in 64 µs sets AON_LOST and lets the monitor oscillator run free. -/
  | aonLost
  /-- STEP_RATE_MEASURE (R69): Once every 1 ms the replica stage counts its cycles for 1 µs and updates
  STEP_RATE_MEAS. -/
  | stepRateMeasure (mhz : BitVec 16)
  /-- GOV_EVALUATE (R91): Every EVAL_TICKS the governor compares the module pressure with the slack band and
  moves the VCORE target. -/
  | govEvaluate
  /-- SETTLE_EXPIRE (R93): SETTLE_US after a VOUT_COMMAND the governor issues READ_VOUT. -/
  | settleExpire
  /-- PMBUS_TRANSACTION_DONE (R94): A governor PMBus transaction ends, and the governor checks READ_VOUT,
  retries or sets PMBUS_FAIL. -/
  | pmbusTransactionDone (status : BitVec 8) (word : BitVec 16) (lines : Lines)
  /-- RESUME (R94): A write of RESUME restarts governor commanding after PMBUS_FAIL. -/
  | resume (who : Who)
  /-- MANUAL_TARGET_WRITE (R95): A write of MANUAL_TARGET in MANUAL mode commands the clamped value. -/
  | manualTargetWrite (who : Who) (mv : BitVec 16)
  /-- GOV_MODE_WRITE (R95): A change of GOV MODE commands the new mode's target at once. -/
  | govModeWrite (who : Who) (value : W32)
  /-- BOOST_BUCKET (R96): Each second the boost bucket advances and the 60 s boost budget is checked. -/
  | boostBucket
  /-- TJ_SENSOR_UPDATE (R97): A new junction sensor reading updates TJ_MAX and applies the throttle and HOT
  thresholds. -/
  | tjSensorUpdate (sensor : Fin 18) (value : BitVec 16)
  /-- THERMAL_TRIP (R97): A sensor at or above 110 °C for 10 µs trips the module to power-down and HOLD. -/
  | thermalTrip (sensor : Fin 18)
  /-- POWER_ON_RESET (R101): VAON above 0.72 V for 10 ms with AON present starts SEQ_UP from nothing. -/
  | powerOnReset
  /-- VAON_LOSS (R101): VAON falling below 0.72 V puts the module in OFF. -/
  | vaonLoss
  /-- PG_RISE (R102): A PG input rises during SEQ_UP and the sequencer starts the wait before the next rail. -/
  | pgRise (rail : Fin 8)
  /-- RAIL_WAIT_EXPIRE (R102): The 100 µs wait after a PG expires and the next VR_EN rises, or RUN is entered.
  -/
  | railWaitExpire
  /-- PG_TIMEOUT (R104): PG[k] not rising within 5 ms sets PG_TIMEOUT, sequences down and retries or enters
  HOLD. -/
  | pgTimeout
  /-- POWER_FAULT (R105): A PG fall lasting 10 µs in RUN records POWER_FAULT and starts a cold restart. -/
  | powerFault (rail : Fin 8)
  /-- SEQ_DOWN_END (R101): All PG are low or 20 ms have passed, and the module enters DORMANT, HOLD or RETRY. -/
  | seqDownEnd
  /-- RETRY_EXPIRE (R101): The RETRY wait ends and SEQ_UP starts again. -/
  | retryExpire
  /-- STRAP_SAMPLE (R108): 100 µs after PG[0] first rises the straps are sampled into the always-on island. -/
  | strapSample (straps : BitVec 7)
  /-- REF_BOOT_TIMEOUT (R107): REF still absent 20 ms after PG[3] is treated as lost and boot goes on from
  holdover. -/
  | refBootTimeout
  /-- RESET_N_ASSERT (R109): RESET_N held low for 1 µs in RUN starts a warm reset, or is latched in SEQ_DOWN. -/
  | resetNAssert
  /-- RESET_N_RELEASE (R109): RESET_N rising lets CTL0 start, or in HOLD starts a cold restart. -/
  | resetNRelease
  /-- TEST_EN_ASSERT (R608): TEST_EN high holds the module in warm reset as though RESET_N were low. -/
  | testEnAssert (level : Bool)
  /-- WARM_RESET (R111): A WARM_RESET write with the key starts the warm reset sequence. -/
  | warmReset (who : Who) (key : BitVec 8)
  /-- WARM_RESET_SWEEP_DONE (R111): The warm-reset yard sweep ends and the module sends VOUT_COMMAND for 0.75 V.
  -/
  | warmResetSweepDone (status : BitVec 8)
  /-- WARM_RESET_VOUT_WAIT_EXPIRE (R111): The 200 µs after the reset VOUT_COMMAND expire, the stacks leave
  self-refresh and CTL0 starts the boot ROM. -/
  | warmResetVoutWaitExpire
  /-- PERST_N_ASSERT (R113): PERST_N assertion resets the PCIe endpoint and drops in-flight host requests. -/
  | perstNAssert
  /-- PERST_N_RELEASE (R113): PERST_N release lets the endpoint restart, and restarts a host-boot wait. -/
  | perstNRelease
  /-- BOOT_ROM_START (R116): CTL0 starts the boot ROM, which tries boot sources in the order BOOT_SRC gives. -/
  | bootRomStart
  /-- BOOT_HOST_DOORBELL (R116): The host writes the image length to BOOT_HOST_DOORBELL and the ROM copies and
  checks the image. -/
  | bootHostDoorbell (who : Who) (value : W32)
  /-- HOST_BOOT_TIMEOUT (R116): No doorbell within 10 s fails the host attempt with HOST_TIMEOUT. -/
  | hostBootTimeout
  /-- BOOT_IMAGE_CHECK (R119): A loaded image is checked for magic, limits, digest and signature, and the ROM
  jumps or tries the next source. -/
  | bootImageCheck (flash : Bool) (octal : Option Byte)
  /-- WDT_KICK (R122): A write of 0x4B to WDT_KICK reloads the watchdog. -/
  | wdtKick (who : Who) (value : W32)
  /-- WDT_EXPIRE (R122): The watchdog expires and warns CTL0, or forces a warm reset at the second expiry. -/
  | wdtExpire
  /-- DORMANT_REQ (R123): A DORMANT_REQ write with the key stops dispatch and sequences the rails down into
  DORMANT, or is refused with no wake source. -/
  | dormantReq (who : Who) (key : BitVec 8)
  /-- WAKE_EVENT (R125): An enabled wake source becomes active after debounce and starts a cold restart from
  DORMANT. -/
  | wakeEvent (mgmt : Bool)
  /-- RTC_ALARM (R124): RTC_NOW reaches RTC_ALARM and raises the RTC wake source. -/
  | rtcAlarm
  /-- YARD_READ (R142): A yard read is checked at the landing cluster, decoded under ECC and returned with any
  poison. -/
  | yardRead (who : Who) (addr : Addr) (mode : TtMode) (cells : Fin 33) (elem : Fin 33) (stride : BitVec 16)
      (mishap : Mishap) (upset : BitVec 39)
  /-- YARD_WRITE (R165): A posted yard write is checked at the landing cluster and written, or dropped with a
  failure notice. -/
  | yardWrite (who : Who) (addr : Addr) (bytes : List Byte) (mishap : Mishap) (parity : Bool) (rounds : BitVec 16)
  /-- POSTED_WRITE_ACK (R165): The target accepts a posted write into its order and the acknowledgement reaches
  the initiator. -/
  | postedWriteAck (who : Who)
  /-- FAILURE_NOTICE (R168): A failure notice arrives at the initiator, counting LOST_WRITES and affecting the
  waybill or posting a late event. -/
  | failureNotice (who : Who)
  /-- AMO_ADD (R135): An atomic ADD acts on one aligned location at its cluster. -/
  | amoAdd (core : Fin 68) (rd ra rb : Fin 32) (wide : Bool) (mishap : Mishap)
  /-- AMO_AND (R135): An atomic AND acts on one aligned location at its cluster. -/
  | amoAnd (core : Fin 68) (rd ra rb : Fin 32) (wide : Bool) (mishap : Mishap)
  /-- AMO_OR (R135): An atomic OR acts on one aligned location at its cluster. -/
  | amoOr (core : Fin 68) (rd ra rb : Fin 32) (wide : Bool) (mishap : Mishap)
  /-- AMO_SWAP (R135): An atomic SWAP exchanges one aligned location at its cluster. -/
  | amoSwap (core : Fin 68) (rd ra rb : Fin 32) (wide : Bool) (mishap : Mishap)
  /-- AMO_CAS (R135): An atomic compare-and-swap acts on one aligned location at its cluster. -/
  | amoCas (core : Fin 68) (rd ra rb : Fin 32) (wide : Bool) (mishap : Mishap)
  /-- AMO_MIN (R135): An atomic signed MIN acts on one aligned location. -/
  | amoMin (core : Fin 68) (rd ra rb : Fin 32) (wide : Bool) (mishap : Mishap)
  /-- AMO_MAX (R135): An atomic signed MAX acts on one aligned location. -/
  | amoMax (core : Fin 68) (rd ra rb : Fin 32) (wide : Bool) (mishap : Mishap)
  /-- AMO_MINU (R135): An atomic unsigned MIN acts on one aligned location. -/
  | amoMinu (core : Fin 68) (rd ra rb : Fin 32) (wide : Bool) (mishap : Mishap)
  /-- AMO_MAXU (R135): An atomic unsigned MAX acts on one aligned location. -/
  | amoMaxu (core : Fin 68) (rd ra rb : Fin 32) (wide : Bool) (mishap : Mishap)
  /-- DESC_READ (R138): DESC_CMD READ copies the selected descriptor slot into DESC_W0 to DESC_W3. -/
  | descRead (who : Who) (cluster : Fin 64)
  /-- DESC_COMMIT (R139): DESC_CMD COMMIT checks a descriptor, claims its pages and sweeps them as R172
  requires. -/
  | descCommit (who : Who) (cluster : Fin 64)
  /-- DESC_RELEASE (R141): DESC_CMD RELEASE clears VALID and sweeps the region when required. -/
  | descRelease (who : Who) (cluster : Fin 64)
  /-- DESC_MODIFY (R140): DESC_CMD MODIFY replaces a valid descriptor's unlocked fields. -/
  | descModify (who : Who) (cluster : Fin 64)
  /-- SWEEP_DONE (R170): A sweep finishes, the pages become CLEAN and held accesses proceed. -/
  | sweepDone (region : BitVec 14)
  /-- TALLY_INCREMENT (R154): The cells of a landed write are added to a tally's ACCUM and VALUE is advanced by
  whole granules. -/
  | tallyIncrement (mishap : Mishap)
  /-- TALLY_REARM (R156): A TALLY_REARM write sets VALUE and ACCUM of the selected tally to zero. -/
  | tallyRearm (who : Who) (cluster : Fin 64)
  /-- TALLY_WATCH_REGISTER (R157): A watch request registers, fires at once or is answered FULL. -/
  | tallyWatchRegister (tally thresh : BitVec 16) (waiter : WatchFor)
  /-- SEM_SIGNAL (R159): SIGNAL adds to a counting semaphore and grants queued waiters in order. -/
  | semSignal (core : Fin 68) (rd ra rb : Fin 32) (count : BitVec 8) (mishap : Mishap)
  /-- SEM_WAIT (R159): WAIT takes from a counting semaphore or queues the caller. -/
  | semWait (core : Fin 68) (rd ra rb : Fin 32) (count : BitVec 8) (mishap : Mishap)
  /-- SEM_ACQUIRE (R159): ACQUIRE takes a free or broken lock, or queues behind its holder. -/
  | semAcquire (core : Fin 68) (rd ra rb : Fin 32) (count : BitVec 8) (mishap : Mishap)
  /-- SEM_RELEASE (R159): RELEASE by the holder hands the lock to the first waiter or frees it. -/
  | semRelease (core : Fin 68) (rd ra rb : Fin 32) (count : BitVec 8) (mishap : Mishap)
  /-- SEM_TIMEOUT (R159): A queued semaphore request's timeout expires and it is answered TIMEOUT. -/
  | semTimeout (holder : Fin 640)
  /-- SEM_KIND_WRITE (R164): A write of KIND by compartment 0 sets the semaphore free with VALUE 0 and answers
  its waiters RESET. -/
  | semKindWrite (who : Who) (cluster : Fin 64) (sem : Fin 256) (value : W32)
  /-- SEM_VALUE_WRITE (R164): A write of VALUE by compartment 0 to a counting semaphore grants its waiters as
  SIGNAL does. -/
  | semValueWrite (who : Who) (cluster : Fin 64) (sem : Fin 256) (value : W32)
  /-- LOCK_REAP (R162): A reaper broadcast reaches a cluster, which marks the holder's locks BROKEN and grants
  waiters BROKEN. -/
  | lockReap (holder : Fin 68) (cluster : Fin 64) (mishap : Mishap)
  /-- LOCK_REAP_DONE (R162): Every cluster has finished reaping, and the holder may return to service. -/
  | lockReapDone (holder : Fin 68)
  /-- FENCE (R166): fence holds the core until its posted writes are acknowledged or failed and returns the
  failure count. -/
  | fence (core : Fin 68) (rd : Fin 32)
  /-- RSP_TIMEOUT (R183): No response within RSP_TIMEOUT ticks poisons a read or fails a posted write with
  PATH_PARITY. -/
  | rspTimeout (who : Who) (beyond : Bool)
  /-- LATE_RSP (R183): A response arriving after its timer expired is discarded and counted. -/
  | lateRsp (who : Who)
  /-- EPOCH_CMD (R189): EPOCH_CMD starts a route-table epoch switch by holding new RQ packets. -/
  | epochCmd (who : Who)
  /-- EPOCH_SWITCH_DONE (R189): No old-epoch RQ packet remains, SHADOW becomes ACTIVE and sources resume. -/
  | epochSwitchDone
  /-- EPOCH_SLOW (R189): The switch has not reached its swap within 65,536 steps and EPOCH_SLOW sets. -/
  | epochSlow
  /-- ROUTE_DATA_WRITE (R188): A write of ROUTE_DATA stores a SHADOW route entry when ROUTE_AUTO is 0. -/
  | routeDataWrite (who : Who) (value : W32)
  /-- LINK_STABLE (R190): LINK_CMD stable installs tables avoiding the link at an epoch switch and then stables
  it. -/
  | linkStable (who : Who)
  /-- LINK_PROBATION (R470): LINK_CMD probation starts the test packets of a stabled link. -/
  | linkProbation (who : Who)
  /-- STACK_READ (R203): A stack read is checked against stack windows, decoded and returned, or poisoned when
  offline. -/
  | stackRead (who : Who) (addr : Addr) (len : Fin 4097) (bar4 : Bool) (mishap : Mishap) (upset : BitVec 576)
      (parity : Fin 4) (die : BitVec 8)
  /-- STACK_WRITE (R201): A posted stack write is checked, encoded and written, or dropped with a failure
  notice. -/
  | stackWrite (who : Who) (addr : Addr) (bytes : List Byte) (mishap : Mishap) (damaged : Bool) (parity : Fin 4)
  /-- STACK_TEMP_READ (R205): Every 1 ms the controller reads stack temperature and applies its refresh, hot and
  trip actions. -/
  | stackTempRead (stack : Fin 4) (value : BitVec 16)
  /-- STACK_TRAINING_DONE (R211): A stack completes training, or fails it and is stabled. -/
  | stackTrainingDone (stack : Fin 4) (ok : Bool)
  /-- STACK_RECAL_DONE (R207): After REF restore the stack finishes recalibration and leaves self-refresh. -/
  | stackRecalDone (stack : Fin 4)
  /-- RECAL_WINDOW (R488): A channel's recalibration window starts at its scheduled tick, or is skipped while
  offline. -/
  | recalWindow (stack : Fin 4) (channel : Fin 16)
  /-- PATROL_READ (R208): The controller reads the line at SCRUB_PTR, writes it back corrected or poisoned and
  advances. -/
  | patrolRead (stack : Fin 4) (upset : BitVec 576)
  /-- PATROL_DEBT_TICK (R483): Every 1,000 ticks the patrol debt rises by the SCRUB_CTRL rate. -/
  | patrolDebtTick
  /-- PC_CMD_STABLE (R210): PC_CMD stables a pseudo-channel, migrating it to spares or taking it offline. -/
  | pcCmdStable (who : Who) (stack : Fin 4) (channel : Fin 32)
  /-- MIGRATE_DONE (R210): Migration of a pseudo-channel to spares ends and the channel is stabled. -/
  | migrateDone (stack : Fin 4) (lines : Option (BitVec 24))
  /-- SPARE_EN_WRITE (R209): A write of SPARE_EN sets spare reservation, or is ignored with SPARE_LATE after the
  first stack access. -/
  | spareEnWrite (who : Who) (on : Bool)
  /-- WAYBILL_START (R214): A waybill starts on a coach or control core, which clears its state and loads entry,
  stack and arguments. -/
  | waybillStart (core : Fin 68)
  /-- SCALAR_ALU (R221): A scalar register operation selected by func executes. -/
  | scalarAlu (core : Fin 68) (rd ra rb : Fin 32) (func : Fin 2048)
  /-- SCALAR_IMMEDIATE (R219): A scalar immediate operation executes. -/
  | scalarImmediate (core : Fin 68) (op : ImmOp) (rd ra : Fin 32) (imm : BitVec 16)
  /-- LUI (R219): lui loads a shifted immediate. -/
  | lui (core : Fin 68) (rd : Fin 32) (imm : BitVec 16)
  /-- LOAD (R219): A scalar load reads memory at ra + imm. -/
  | load (core : Fin 68) (rd ra : Fin 32) (size : Fin 4) (imm : BitVec 16) (mishap : Mishap) (upset : BitVec 39)
  /-- STORE (R219): A scalar store writes rd at ra + imm as a posted write. -/
  | store (core : Fin 68) (rd ra : Fin 32) (size : Fin 4) (imm : BitVec 16) (mishap : Mishap)
  /-- BRANCH (R219): A conditional branch compares two registers and may jump. -/
  | branch (core : Fin 68) (op : BranchOp) (ra rb : Fin 32) (off : BitVec 16)
  /-- JAL (R219): jal jumps and links into s31. -/
  | jal (core : Fin 68) (off : BitVec 26)
  /-- JALR (R219): jalr jumps to a register address and links. -/
  | jalr (core : Fin 68) (rd ra : Fin 32) (imm : BitVec 16)
  /-- LOOP (R220): loop repeats the next instructions a counted number of times from the fetch queue. -/
  | loop (core : Fin 68) (ra : Fin 32) (off : BitVec 16)
  /-- VECTOR_INTEGER (R221): A vector integer operation executes per lane. -/
  | vectorInteger (core : Fin 68) (elem : Elem) (op : VIntOp) (vd va vb : Fin 32) (p : Fin 8) (pz : Bool)
  /-- VECTOR_FLOAT (R222): A vector floating-point operation executes under IEEE 754 and the NaN order. -/
  | vectorFloat (core : Fin 68) (elem : Elem) (op : VFltOp) (vd va vb : Fin 32) (p : Fin 8) (pz : Bool)
  /-- VECTOR_COMPARE (R223): A vector compare writes a predicate. -/
  | vectorCompare (core : Fin 68) (elem : Elem) (op : VCmpOp) (vd va vb : Fin 32) (p : Fin 8) (pz : Bool)
  /-- VECTOR_PERMUTE (R219): A vector permute or reduction executes. -/
  | vectorPermute (core : Fin 68) (elem : Elem) (op : VPermOp) (vd va vb : Fin 32) (p : Fin 8) (pz : Bool)
  /-- VECTOR_CONVERT (R224): A vector conversion between element types rounds and saturates. -/
  | vectorConvert (core : Fin 68) (src dst : ConvType) (vd va : Fin 32) (p : Fin 8) (pz : Bool)
  /-- VECTOR_MOVE (R219): A vector move, predicate operation or select executes. -/
  | vectorMove (core : Fin 68) (op : VMovOp) (vd va vb : Fin 32) (p : Fin 8) (pz : Bool)
  /-- VLD (R234): vld pops a FIFO entry of an IN stream into a vector register, waiting while empty. -/
  | vld (core : Fin 68) (vd : Fin 32) (stream : Fin 8) (mishap : Mishap)
  /-- VST (R234): vst pushes a vector register into an OUT stream FIFO, waiting while full. -/
  | vst (core : Fin 68) (stream : Fin 8) (va : Fin 32) (mishap : Mishap)
  /-- MMA (R226): mma multiplies activations by a weight buffer and accumulates into an accumulator. -/
  | mma (core : Fin 68) (fmt : Fin 16) (ad : Fin 8) (va sa : Fin 32) (wb : Fin 2) (sp z : Bool)
  /-- MRD (R230): mrd copies an accumulator row into a vector register. -/
  | mrd (core : Fin 68) (vd : Fin 32) (ad : Fin 8) (row : Fin 32)
  /-- MWR (R230): mwr writes a vector register into an accumulator row. -/
  | mwr (core : Fin 68) (fmt : Fin 16) (ad : Fin 8) (row va : Fin 32)
  /-- MCLR (R230): mclr clears an accumulator and sets its TYPE. -/
  | mclr (core : Fin 68) (fmt : Fin 16) (ad : Fin 8)
  /-- WBWAIT (R231): wbwait waits until a weight buffer is not LOADING. -/
  | wbwait (core : Fin 68) (wb : Fin 2)
  /-- STCFG (R232): stcfg loads a 32-byte stream descriptor. -/
  | stcfg (core : Fin 68) (stream : Fin 8) (ra : Fin 32)
  /-- STSTART (R233): ststart starts a stream engine transfer. -/
  | ststart (core : Fin 68) (stream : Fin 8) (mishap : Mishap)
  /-- STSTOP (R219): ststop stops a stream engine. -/
  | ststop (core : Fin 68) (stream : Fin 8)
  /-- STWAIT (R219): stwait waits for a stream to complete. -/
  | stwait (core : Fin 68) (stream : Fin 8) (mishap : Mishap)
  /-- STSTAT (R219): ststat returns a stream's status. -/
  | ststat (core : Fin 68) (rd : Fin 32) (stream : Fin 8)
  /-- STREAM_COMPLETE (R231): A stream finishes its transfer, ending LOADING of a weight buffer it targeted. -/
  | streamComplete (core : Fin 64) (stream : Fin 8) (mishap : Mishap)
  /-- TWAIT (R238): twait registers a tally watch and waits for it, retrying FULL every 64 steps. -/
  | twait (core : Fin 68) (rd ra rb : Fin 32)
  /-- TWAIT_TIMEOUT (R238): A twait timeout expires and the waybill ends ABORT_TIMEOUT. -/
  | twaitTimeout (core : Fin 68)
  /-- WATCH_RETRY (R273): A watch answered FULL is retried every 64 steps. -/
  | watchRetry
  /-- TREARM (R156): trearm rearms a tally owned by the waybill's compartment. -/
  | trearm (core : Fin 68) (ra : Fin 32)
  /-- ENQ (R237): enq offers a 64-byte waybill image to a queue and returns the result code. -/
  | enq (core : Fin 68) (rd ra rb : Fin 32)
  /-- CSRR (R219): csrr reads a CSR. -/
  | csrr (core : Fin 68) (rd : Fin 32) (csr : Fin 1024)
  /-- CSRW (R219): csrw writes a CSR. -/
  | csrw (core : Fin 68) (ra : Fin 32) (csr : Fin 1024)
  /-- TRAP (R241): trap raises a TRAP exception with a code. -/
  | trap (core : Fin 68) (code : Fin 32)
  /-- BRK (R241): brk raises BREAK or enters DEBUG_HALT when a debugger is attached. -/
  | brk (core : Fin 68)
  /-- XRET (R245): xret pops the exception frame and returns at no higher level. -/
  | xret (core : Fin 68)
  /-- DONE (R239): done ends the waybill once its posted writes are acknowledged or failed. -/
  | done (core : Fin 68)
  /-- ABORT (R239): abort ends the waybill with ABORT_FAULT and a user code. -/
  | abort (core : Fin 68) (rb : Fin 32)
  /-- SCSRR (R217): scsrr reads a supervisor CSR on a control core at S level. -/
  | scsrr (core : Fin 68) (rd : Fin 32) (csr : Fin 1024)
  /-- SCSRW (R217): scsrw writes a supervisor CSR on a control core at S level. -/
  | scsrw (core : Fin 68) (ra : Fin 32) (csr : Fin 1024)
  /-- SBRD (R248): sbrd on CTL0 reads a strongbox word, clearing FULL on word 7. -/
  | sbrd (core : Fin 68) (rd ra : Fin 32) (word : Fin 8)
  /-- SRET (R219): sret returns as xret does and sets IE. -/
  | sret (core : Fin 68)
  /-- WFI (R254): wfi waits for any pending enabled interrupt source. -/
  | wfi (core : Fin 68)
  /-- LI (R219): li loads a sign-extended 32-bit immediate. -/
  | li (core : Fin 68) (rd : Fin 32) (imm : W32)
  /-- LIH (R219): lih loads the upper 32 bits of a register. -/
  | lih (core : Fin 68) (rd : Fin 32) (imm : W32)
  /-- ACCESS_IMPRECISE (R242): A refusal notice for the core's own posted write arrives and the core takes an
  imprecise access fault. -/
  | accessImprecise (core : Fin 68)
  /-- INTERRUPT (R254): A control core takes a pending enabled interrupt at S level through IVEC. -/
  | interrupt (core : Fin 4)
  /-- DBG_HALT_REQ (R591): A write of HALT_REQ in DBG_CTRL halts a core in DEBUG_HALT. -/
  | dbgHaltReq (who : Who) (core : Fin 68) (value : Fin 8)
  /-- DBG_STEP (R591): A write of STEP in DBG_CTRL steps a halted core by one instruction. -/
  | dbgStep (who : Who) (core : Fin 68)
  /-- LRAM_CLEAR (R252): A write of LRAM_CLEAR zeroes a halted control core's local RAM. -/
  | lramClear (who : Who) (core : Fin 4)
  /-- LRAM_CLEAR_DONE (R252): Zeroing of the local RAM finishes and LRAM_CLEAR reads 0. -/
  | lramClearDone (core : Fin 4)
  /-- ENQUEUE_WINDOW_WRITE (R263): A 64-byte write at offset 0 of an enqueue window offers a waybill to its
  queue. -/
  | enqueueWindowWrite (who : Who) (queue : BitVec 16) (image : BitVec 512) (mishap : Mishap)
  /-- BRAKE_TIMEOUT (R263): A braked window enqueue waits BRAKE_LIMIT ticks and is then refused. -/
  | brakeTimeout
  /-- RECORD_TOKEN (R267): A TOKEN record delivers its token to the matching store. -/
  | recordToken (who : Who) (queue : BitVec 16) (key : W32) (slot : Fin 4) (payload : W64) (void : Bool)
  /-- RECORD_DECREMENT (R267): A DECREMENT record decrements or voids a counter N times. -/
  | recordDecrement (who : Who) (queue : BitVec 16) (counter : BitVec 20) (n : BitVec 8) (void : Bool)
  /-- QCMD_READ (R262): QCMD READ copies a queue descriptor into QDESC_W0 to W3. -/
  | qcmdRead (who : Who)
  /-- QCMD_COMMIT (R262): QCMD COMMIT checks and installs a queue descriptor. -/
  | qcmdCommit (who : Who)
  /-- QCMD_MODIFY (R262): QCMD MODIFY changes the unlocked fields of a valid queue. -/
  | qcmdModify (who : Who)
  /-- QCMD_RELEASE (R262): QCMD RELEASE clears a queue that is not busy. -/
  | qcmdRelease (who : Who)
  /-- QCMD_PURGE (R262): QCMD PURGE ends every WAITING and READY waybill of a queue. -/
  | qcmdPurge (who : Who)
  /-- CTR_CLEAR (R269): CTR_CMD CLEAR clears an unbound counter. -/
  | ctrClear (who : Who)
  /-- TIMETABLE_FIRE (R274): A timetable entry falls due and fires, releasing a waybill or a periodic action. -/
  | timetableFire
  /-- PLACEMENT (R278): The dispatcher places a ready waybill on an idle unit or in a step slot. -/
  | placement (mishap : Mishap)
  /-- SLOTTED_START (R280): A step-slot waybill starts 2 steps after its unit reports its previous end. -/
  | slottedStart (unit : BitVec 8)
  /-- WAYBILL_END (R285): A unit reports a waybill's end and the depot carries out its completion actions. -/
  | waybillEnd (unit : BitVec 8) (mishap : Mishap)
  /-- CQ_HEAD_WRITE (R286): An 8-byte write at offset 8 of a CQ window advances HEAD and lets held completions
  proceed. -/
  | cqHeadWrite (who : Who) (queue : BitVec 16) (value : W64) (ep : Bool)
  /-- DISPATCH_EPOCH_BOUNDARY (R283): Every EPOCH_TICKS a dispatch epoch boundary updates the pool and rotation.
  -/
  | dispatchEpochBoundary
  /-- DPT_EPOCH_CMD (R283): A write of DPT EPOCH_CMD starts a dispatch epoch boundary. -/
  | dptEpochCmd (who : Who)
  /-- BACKING_RETRY (R296): A depot operation held on an offline backing area retries every 1 ms. -/
  | backingRetry (mishap : Mishap)
  /-- DUPLICATE_ABANDON (R281): A unit running a duplicate abandons it within 64 steps of a foreground waybill
  filling its step slot. -/
  | duplicateAbandon (unit : BitVec 8)
  /-- CMP_ACTIVATE (R313): CMP_CMD ACTIVATE makes a FREE compartment ACTIVE and starts a new ledger epoch. -/
  | cmpActivate (who : Who) (cmp : Fin 16) (key : BitVec 8)
  /-- CMP_RESET (R314): CMP_CMD RESET starts a compartment reset that ends its work and keeps its configuration.
  -/
  | cmpReset (who : Who) (cmp : Fin 16) (key : BitVec 8)
  /-- CMP_KILL (R315): CMP_CMD KILL starts a compartment kill that removes everything it holds. -/
  | cmpKill (who : Who) (cmp : Fin 16) (key : BitVec 8)
  /-- CMP_DRAIN_DONE (R314): All posted writes of the ended units are acknowledged or failed and the reset or
  kill completes its later steps. -/
  | cmpDrainDone (cmp : Fin 16)
  /-- STACK_WINDOW_ZEROED (R316): Background zeroing of a killed window finishes and STACK_ZEROED is posted. -/
  | stackWindowZeroed (cmp : Fin 16)
  /-- COACH_MASK_WRITE (R298): A write of COACH_MASK assigns coaches, or is ignored with ASSIGN_CONFLICT. -/
  | coachMaskWrite (who : Who) (cmp : Fin 16) (value : W64)
  /-- OTHER_MASK_WRITE (R298): A write of OTHER_MASK assigns control cores and engines, or is ignored with
  ASSIGN_CONFLICT. -/
  | otherMaskWrite (who : Who) (cmp : Fin 16) (value : W32)
  /-- STKWIN_WRITE (R303): A write of a stack window is checked and takes effect or is rejected. -/
  | stkwinWrite (who : Who) (cmp : Fin 16) (window : Fin 8) (value : W64)
  /-- EVQ_WRITE (R309): A write of EVQ names the compartment's event queue or gives EVQ_BAD. -/
  | evqWrite (who : Who) (cmp : Fin 16) (value : W32)
  /-- SHARE_PERIOD_END (R300): A share period ends and the engine budgets restart. -/
  | sharePeriodEnd
  /-- CSI_FRAME_START (R348): A frame start packet is stamped and accepted into a buffer, or refused for storm
  or busy buffer. -/
  | csiFrameStart (port : Fin 6) (vc : Fin 16) (number : BitVec 16) (header : Fin 3) (mhz : BitVec 16)
  /-- CSI_FRAME_END (R351): A frame end packet closes an open frame and starts the close sequence. -/
  | csiFrameEnd (port : Fin 6) (vc : Fin 16) (header : Fin 3)
  /-- CSI_LINE_START (R355): A line start packet begins a line and the port measures its byte clock. -/
  | csiLineStart (port : Fin 6) (vc : Fin 16) (line : BitVec 16) (header : Fin 3) (mhz : BitVec 16)
  /-- CSI_LINE_END (R353): A line end packet ends a line and restarts the line timeout. -/
  | csiLineEnd (port : Fin 6) (vc : Fin 16) (header : Fin 3)
  /-- CSI_LONG_PACKET (R350): A long packet of a bound stream is cropped, converted and written as a row. -/
  | csiLongPacket (port : Fin 6) (vc : Fin 16) (dt : Fin 64) (payload : List Byte) (crcOk : Bool) (header : Fin 3)
      (parity full : Bool) (mishap : Mishap)
  /-- CSI_DESKEW (R341): A deskew sequence is received and the port is deskewed. -/
  | csiDeskew (port : Fin 6)
  /-- LINE_TIMEOUT (R353): No line end or frame end for LINE_TIMEOUT ticks closes the frame early. -/
  | lineTimeout (port : Fin 6) (binding : Fin 4) (clockAbsent : Bool)
  /-- FRAME_CLOSE_DRAINED (R351): Every write of a closing frame is acknowledged or failed and the row map and
  record are written. -/
  | frameCloseDrained (port : Fin 6) (binding : Fin 4) (mishap : Mishap)
  /-- FRAME_RECORD_DONE (R351): The row map and frame record are acknowledged and FRAME_END is sent to the
  sequencer. -/
  | frameRecordDone (port : Fin 6) (binding : Fin 4) (mishap : Mishap)
  /-- STREAM_RELEASE (R348): A RELEASE bit write clears a buffer's BUSY bit. -/
  | streamRelease (who : Who) (port : Fin 6) (binding : Fin 4) (buffers : Fin 16)
  /-- STREAM_REPLUG (R358): A REPLUG write restarts the binding's command list from CONFIG_FAIL. -/
  | streamReplug (who : Who) (port : Fin 6) (binding : Fin 4)
  /-- BIND_ENABLE (R342): Setting EN of a binding enables the stream or sets BIND_LOCKED. -/
  | bindEnable (who : Who) (port : Fin 6) (binding : Fin 4) (value : W32)
  /-- HOTPLUG_FALL (R357): A binding's hot-plug input falls, closing an open frame and entering DETACHED. -/
  | hotplugFall (port : Fin 6) (binding : Fin 4)
  /-- HOTPLUG_RISE (R358): A binding's hot-plug input rises and REPLUG_WAIT starts. -/
  | hotplugRise (port : Fin 6) (binding : Fin 4)
  /-- REPLUG_HOLD_EXPIRE (R358): The input held high for REPLUG_MS starts the command list or enters WAIT_FS. -/
  | replugHoldExpire (port : Fin 6) (binding : Fin 4)
  /-- ABSENT_TICKS_EXPIRE (R359): ABSENT_TICKS pass without a frame and an ABSENT record and event are sent. -/
  | absentTicksExpire (port : Fin 6) (binding : Fin 4)
  /-- FSYNC_ENABLE (R361): Setting EN of an FSYNC output inserts its periodic timetable entry, or sets TT_FULL.
  -/
  | fsyncEnable (who : Who) (output : Fin 6) (value : W32)
  /-- FSYNC_WIDTH_EXPIRE (R361): WIDTH ticks after a pulse starts the FSYNC output goes inactive. -/
  | fsyncWidthExpire (output : Fin 6)
  /-- ENGINE_JOB_START (R364): A vision engine reads and checks its job descriptor and starts the job or ends it
  ABORT_FAULT. -/
  | engineJobStart (engine : Fin 10) (mishap : Mishap)
  /-- PYR_JOB (R372): A pyramid job builds its Gaussian and Laplacian rows. -/
  | pyrJob (inst : Fin 2) (parity : List Nat) (mishap : Mishap)
  /-- WRP_JOB (R375): A warp job resamples its output rectangle. -/
  | wrpJob (inst : Fin 2) (parity : List Nat) (mishap : Mishap)
  /-- STR_JOB (R390): A stereo job computes disparity for its band. -/
  | strJob (inst : Fin 2) (parity : List Nat) (mishap : Mishap)
  /-- FLW_JOB (R398): A flow job computes motion vectors for its band. -/
  | flwJob (inst : Fin 2) (parity : List Nat) (mishap : Mishap)
  /-- FTR_DETECT (R403): A DETECT job finds, ranks and describes features. -/
  | ftrDetect (inst : Fin 2) (parity : List Nat) (mishap : Mishap)
  /-- FTR_MATCH (R409): A MATCH job pairs query and train features. -/
  | ftrMatch (inst : Fin 2) (parity : List Nat) (mishap : Mishap)
  /-- ENGINE_JOB_END (R366): A vision engine finishes its job and reports the waybill end. -/
  | engineJobEnd (engine : Fin 10)
  /-- GRAPH_LOAD (R413): GRAPH_CMD LOAD reads and checks a Psieb table into a graph slot. -/
  | graphLoad (who : Who) (mishap : Mishap)
  /-- GRAPH_START (R414): GRAPH_CMD START runs a loaded graph, with or without handover. -/
  | graphStart (who : Who) (handover : Option (Fin 64)) (mishap : Mishap)
  /-- GRAPH_STOP (R411): GRAPH_CMD STOP puts a running graph in STOPPING. -/
  | graphStop (who : Who)
  /-- GRAPH_UNLOAD (R411): GRAPH_CMD UNLOAD empties a loaded graph slot. -/
  | graphUnload (who : Who)
  /-- GRAPH_TRIGGER (R417): GRAPH_CMD TRIGGER gives a running graph a software trigger. -/
  | graphTrigger (who : Who)
  /-- FGS_FRAME_START (R417): A FRAME_START event triggers an input graph or is bound or held for joining. -/
  | fgsFrameStart
  /-- JOIN_WINDOW_EXPIRE (R419): A joining input unbound at the end of JOIN_WINDOW becomes ABSENT for the
  ticket. -/
  | joinWindowExpire (graph : Fin 64)
  /-- FGS_FRAME_END (R420): A FRAME_END event sets its input's status in the bound ticket. -/
  | fgsFrameEnd
  /-- FGS_ABSENT_EVENT (R421): An ABSENT event on the trigger input produces a slotless ticket that closes at
  once. -/
  | fgsAbsentEvent
  /-- NODE_REPORT (R427): The depot reports a ticketed waybill's status and the sequencer applies out-edges. -/
  | nodeReport
  /-- ABANDON_DEADLINE (R430): At timestamp + DEADLINE + GRACE an open ABANDON ticket closes VOID. -/
  | abandonDeadline (graph : Fin 64) (frame : Fin 4)
  /-- SUSPECT_FINDING (R433): A trail-mode SUSPECT finding marks an open ticket or amends a closed ticket's
  record. -/
  | suspectFinding
  /-- FGS_BACKING_RETRY (R436): A graph operation held on an offline backing area retries every 1 ms. -/
  | fgsBackingRetry (mishap : Mishap)
  /-- SHADOW_END (R450): A sample's original and shadow have both ended and INT compares their digests. -/
  | shadowEnd (slot : Fin 256)
  /-- TIEBREAK_END (R451): A tie-break run ends and decides the verdict and the faulty unit. -/
  | tiebreakEnd (slot : Fin 256)
  /-- GATE_WAIT_EXPIRE (R453): A gate-mode original held GATE_WAIT ticks is released unchecked. -/
  | gateWaitExpire
  /-- LEDGER_WINDOW_END (R457): At each window end INT updates each ledger's U and adjusts RATE. -/
  | ledgerWindowEnd (upset : Option (Fin 8192 × Bool))
  /-- DIG_REGISTER (R463): DIG_CMD REGISTER installs a weight-copy digest entry, computing REF when asked. -/
  | digRegister (who : Who)
  /-- DIG_CHECK_NOW (R463): DIG_CMD CHECK_NOW runs a digest check ahead of the schedule. -/
  | digCheckNow (who : Who)
  /-- DIG_REMOVE (R487): DIG_CMD REMOVE removes an entry, ending its running check. -/
  | digRemove (who : Who)
  /-- DIGEST_CHECK_START (R485): BGS starts the scheduled check of the next digest entry. -/
  | digestCheckStart
  /-- DIGEST_CHECK_DONE (R462): A digest check finishes and repairs or reports a mismatch. -/
  | digestCheckDone (mishap : Mishap)
  /-- XC_START (R464): XC_CMD START runs the cross-check program on the coaches in XC_MASK. -/
  | xcStart (who : Who) (rounds : BitVec 16) (formats : Fin 16)
  /-- XCHECK_ROUND_DONE (R465): A cross-check round ends and each coach is compared with the majority. -/
  | xcheckRoundDone (odd : List (Fin 64 × W32))
  /-- PROBATION_TEST_DONE (R470): A probation test passes or fails. -/
  | probationTestDone (code : BitVec 16) (pass : Bool)
  /-- SCORE_DECAY (R467): Each DECAY_TICKS without change lowers a unit's score by one. -/
  | scoreDecay (code : BitVec 16)
  /-- RET_STATUS_READ (R477): A read of RET_STATUS resets the requester's retained-ring cursor. -/
  | retStatusRead (who : Who)
  /-- RET_DATA_READ (R477): A read of RET_DATA returns the word at the cursor and advances it. -/
  | retDataRead (who : Who)
  /-- YARD_SCRUB_ROW (R481): A cluster reads one bank row for scrub. -/
  | yardScrubRow (cluster : Fin 64) (mishap : Mishap)
  /-- SCRUB_WRITEBACK (R482): Corrected cells of a scrubbed row are written back unless a foreground write
  intervened. -/
  | scrubWriteback (cluster : Fin 64)
  /-- MARGIN_PROBE (R491): BGS probes the matched-delay margin and raises MARGIN_FLOOR when short. -/
  | marginProbe (margins : List (Fin 16))
  /-- AGING_MEASURE (R493): BGS measures each station's ring oscillator and updates AGE. -/
  | agingMeasure (ppm : List (BitVec 16))
  /-- TLM_SAMPLE (R495): Every SAMPLE_TICKS TLM copies sensor values onto page 0. -/
  | tlmSample
  /-- TLM_RECORD (R497): Every RECORD_TICKS TLM writes module and compartment telemetry records. -/
  | tlmRecord (mishap : Mishap)
  /-- SNAP_TAKE (R499): A write of SNAP_TAKE requests a snapshot. -/
  | snapTake (who : Who)
  /-- TLM_SNAPSHOT (R499): TLM writes a double-buffered snapshot page. -/
  | tlmSnapshot (mishap : Mishap)
  /-- HOST_BAR0_ACCESS (R505): A host memory request to BAR0 reaches a register page as the function's
  compartment. -/
  | hostBar0Access (fn : Fin 16) (off : BitVec 28) (wide : Bool) (write : Option W64) (ep : Bool)
      (mishap : Mishap)
  /-- HOST_BAR2_ENQUEUE (R507): A host 64-byte write to BAR2 enqueues after earlier BAR4 writes are
  acknowledged; without an image the host reads the window (R505). -/
  | hostBar2Enqueue (fn : Fin 16) (queue : BitVec 16) (image : Option (BitVec 512)) (ep : Bool) (mishap : Mishap)
  /-- HOST_BAR4_READ (R508): A host read through BAR4 reaches the yard or stack and completes, with EP on
  poison. -/
  | hostBar4Read (fn : Fin 16) (addr : Addr) (len : Fin 4097) (mishap : Mishap)
  /-- HOST_BAR4_WRITE (R508): A host posted write through BAR4 is checked where it lands. -/
  | hostBar4Write (fn : Fin 16) (addr : Addr) (bytes : List Byte) (ep : Bool) (mishap : Mishap)
  /-- HOST_WRITE_FAILED (R514): A failure notice for a host write is logged through AER and posted as an event.
  -/
  | hostWriteFailed (fn : Fin 16)
  /-- OUTBOUND_READ (R511): A request through the outbound window issues a memory read to the host. -/
  | outboundRead (who : Who) (addr : Addr) (len : Fin 4097)
  /-- OUTBOUND_READ_COMPLETE (R511): An outbound read completes, poisoned on error or timeout. -/
  | outboundReadComplete (who : Who) (ok : Bool) (bytes : List Byte)
  /-- OUTBOUND_WRITE (R510): A posted write through the outbound window issues a memory write to the host. -/
  | outboundWrite (who : Who) (addr : Addr) (bytes : List Byte)
  /-- OUTBOUND_WRITE_ACK (R510): The link partner acknowledges an outbound write's TLP. -/
  | outboundWriteAck (who : Who)
  /-- FUNCTION_LEVEL_RESET (R504): A function-level reset of a VF or the PF resets that function's state. -/
  | functionLevelReset (fn : Fin 16)
  /-- CONFIG_WRITE (R503): A host configuration write changes function enables such as VF Enable and Bus Master
  Enable. -/
  | configWrite (field : ConfigField)
  /-- VEC_BIND_WRITE (R513): A write of VEC_BIND binds an MSI-X vector to a queue, or is rejected. -/
  | vecBindWrite (who : Who) (fn : Fin 16) (vector : Fin 64) (value : W32)
  /-- VECTOR_ARM (R513): A write of ARMED re-arms a vector, sending at once when the queue holds unread entries.
  -/
  | vectorArm (who : Who) (fn : Fin 16) (vector : Fin 64)
  /-- HOST_LINK_DOWN (R516): The PCIe link leaves L0, dropping inbound requests and posting HOST_LINK. -/
  | hostLinkDown
  /-- HOST_LINK_UP (R516): The PCIe link returns to L0 and HOST_LINK up is posted. -/
  | hostLinkUp (width : Fin 8) (rate : Fin 16)
  /-- REFCLK_LOST (R518): No PCIe reference clock edge for 4 µs takes the link down. -/
  | refclkLost
  /-- REFCLK_RESTORED (R518): The reference clock present for 1 ms restarts link training. -/
  | refclkRestored
  /-- PORT_ENABLE (R524): Setting PORT_EN starts a drawbar port's training. -/
  | portEnable (who : Who) (port : Fin 2) (on : Bool)
  /-- PORT_LOCKED (R524): A drawbar port's lanes lock and align and it moves to HELLO. -/
  | portLocked (port : Fin 2)
  /-- PORT_TRAINING_TIMEOUT (R524): 5 ms without lock retries training after 100 ms. -/
  | portTrainingTimeout (port : Fin 2)
  /-- PORT_DOWN_EXPIRE (R524): 100 ms in DOWN returns the port to TRAINING. -/
  | portDownExpire (port : Fin 2)
  /-- HELLO (R526): A received HELLO flit is checked and brings the port UP or DOWN. -/
  | hello (port : Fin 2) (hdr : FlitHdr) (id size : Fin 8) (topology : Fin 4) (sender : Fin 2) (present anew : Fin 16)
  /-- DATA_FLIT (R523): A received DATA flit is accepted in order or discarded with a NAK. -/
  | dataFlit (port : Fin 2) (hdr : FlitHdr) (packets : List Packet)
  /-- NAK (R523): A received NAK makes the sender replay unacknowledged flits. -/
  | nak (port : Fin 2) (hdr : FlitHdr)
  /-- REPLAY_TIMEOUT (R523): 2 µs without acknowledgement replays unacknowledged flits. -/
  | replayTimeout (port : Fin 2)
  /-- RETRAIN_DONE (R523): A retraining port is acknowledged again, or goes DOWN after four failures. -/
  | retrainDone (port : Fin 2) (ok : Bool)
  /-- FORM (R525): TEAM_CMD FORM enables the ports and exchanges HELLO to form a team. -/
  | form (who : Who)
  /-- FORM_NO_PATH (R526): Module 0 not present within 1 s of FORM gives NO_PATH. -/
  | formNoPath
  /-- ECHO (R529): Every 1 s an UP port sends ECHO to measure link delay. -/
  | echo (port : Fin 2) (cycle : Fin 200)
  /-- ECHO_REPLY (R529): A received ECHO_REPLY sets the port's link delay. -/
  | echoReply (port : Fin 2) (hdr : FlitHdr) (cookie : W64) (cycle : Fin 200)
  /-- TICK_SYNC_SEND (R529): Module 0 sends TICK_SYNC every SYNC_TICKS ticks. -/
  | tickSyncSend (cycle : Fin 200)
  /-- TICK_SYNC (R529): A received TICK_SYNC is forwarded and corrects the follower's tick. -/
  | tickSync (port : Fin 2) (hdr : FlitHdr) (time : W64) (cycle : Fin 200) (delay : W32) (here : Fin 200)
      (transit : BitVec 16) (locked : Bool)
  /-- MEMBER_TIMEOUT (R530): No UP path to a member for MEMBER_TIMEOUT ticks removes it from the team. -/
  | memberTimeout (member : Fin 4)
  /-- MGMT_READ (R538): A management READ command accesses up to 64 words as the management requester. -/
  | mgmtRead (addr : Addr) (count : BitVec 8) (frame : MgmtFrame)
  /-- MGMT_WRITE (R541): A management WRITE command writes up to 64 words before the transaction ends. -/
  | mgmtWrite (addr : Addr) (count : BitVec 8) (words : List W32) (frame : MgmtFrame)
  /-- MGMT_STATUS (R538): A management STATUS command returns the last command's status. -/
  | mgmtStatus (frame : MgmtFrame)
  /-- MGMT_READ_PHASE (R538): A read transaction returns a pending READ or STATUS reply, or SEQUENCE. -/
  | mgmtReadPhase (repeated : Bool)
  /-- ALERT_RESPONSE_READ (R547): A read of the alert response address answers with the static address and may
  release ALERT_N. -/
  | alertResponseRead (wins : Bool)
  /-- ENTDAA (R536): CCC ENTDAA assigns a dynamic address and enters I3C mode. -/
  | entdaa (addr : Fin 128)
  /-- SETDASA (R536): CCC SETDASA assigns a dynamic address from the static one. -/
  | setdasa (addr : Fin 128)
  /-- SETNEWDA (R536): CCC SETNEWDA changes the dynamic address. -/
  | setnewda (addr : Fin 128)
  /-- RSTDAA (R535): CCC RSTDAA clears the dynamic address and returns to I²C mode. -/
  | rstdaa
  /-- ENEC (R536): CCC ENEC enables in-band interrupts or hot-join. -/
  | enec (interrupts hotJoin : Bool)
  /-- DISEC (R536): CCC DISEC disables in-band interrupts or hot-join. -/
  | disec (interrupts hotJoin : Bool)
  /-- GETPID (R536): CCC GETPID returns the Provisional ID. -/
  | getpid
  /-- GETBCR (R536): CCC GETBCR returns BCR 0x06. -/
  | getbcr
  /-- GETDCR (R536): CCC GETDCR returns DCR 0x00. -/
  | getdcr
  /-- GETSTATUS (R536): CCC GETSTATUS returns target status. -/
  | getstatus
  /-- SETMWL (R536): CCC SETMWL sets the maximum write length. -/
  | setmwl (len : BitVec 16)
  /-- SETMRL (R536): CCC SETMRL sets the maximum read length. -/
  | setmrl (len : BitVec 16)
  /-- GETMWL (R536): CCC GETMWL returns the maximum write length. -/
  | getmwl
  /-- GETMRL (R536): CCC GETMRL returns the maximum read length. -/
  | getmrl
  /-- MGMT_SCL_TIMEOUT (R545): SCL held low for 29 ms releases the lines and abandons the transaction. -/
  | mgmtSclTimeout
  /-- IBI_RETRY (R548): A pending IBI is raised again at a bus-free condition, falling back after 8 NACKs. -/
  | ibiRetry (ack : Bool)
  /-- HOT_JOIN (R549): After a reset with I3C_SEEN and HJ_EN the target raises Hot-Join, repeating every 100 ms.
  -/
  | hotJoin (ack : Bool)
  /-- LIST_RUN (R557): LIST_CMD RUN, a CMDLIST node or a re-plug requests a command list on a port. -/
  | listRun (who : Who) (bus : Fin 4) (list : Fin 64)
  /-- LIST_WRITE (R556): A list WRITE command runs one write transaction. -/
  | listWrite (bus : Fin 4) (lines : Lines) (out : WireOut)
  /-- LIST_CHECK (R556): A list CHECK command reads a byte and compares it under a mask. -/
  | listCheck (bus : Fin 4) (lines : Lines) (out : WireOut) (byte : Byte)
  /-- LIST_DELAY (R556): A list DELAY command waits a number of microseconds. -/
  | listDelay (bus : Fin 4)
  /-- LIST_READ (R556): A list READ command reads bytes into READ_BUF. -/
  | listRead (bus : Fin 4) (lines : Lines) (out : WireOut) (bytes : List Byte)
  /-- LIST_END (R558): A list reaches END or fails and its outcome goes to LIST_RESULT and the requester. -/
  | listEnd (bus : Fin 4)
  /-- ADDR_RETRY (R553): A NACKed address is retried after 10 SCL periods of bus free. -/
  | addrRetry (bus : Fin 4) (lines : Lines) (out : WireOut) (bytes : List Byte)
  /-- ARB_LOST_RETRY (R554): Lost arbitration waits for STOP and tBUF and retries. -/
  | arbLostRetry (bus : Fin 4) (lines : Lines) (out : WireOut) (bytes : List Byte)
  /-- STRETCH_TIMEOUT (R554): SCL stretched beyond STRETCH_LIMIT fails the transaction with TIMEOUT and recovers
  the bus. -/
  | stretchTimeout (bus : Fin 4) (lines : Lines)
  /-- RECOVER (R552): A write of RECOVER runs the bus check and nine-clock recovery. -/
  | recover (who : Who) (bus : Fin 4) (lines : Lines)
  /-- LIST_DIR_WRITE (R555): A write of a LIST_DIR entry stores it, or is ignored with LIST_BUSY. -/
  | listDirWrite (who : Who) (bus : Fin 4) (list : Fin 64) (value : W32)
  /-- LRAM_DATA_ACCESS (R555): An access to LRAM_DATA reads or writes a list RAM word and advances LRAM_SEL. -/
  | lramDataAccess (who : Who) (bus : Fin 4) (write : Option W32)
  /-- GOV_PAGE (R560): The governor sends PAGE on BUS1. -/
  | govPage (lines : Lines)
  /-- GOV_VOUT_COMMAND (R560): The governor sends VOUT_COMMAND on BUS1. -/
  | govVoutCommand (lines : Lines)
  /-- GOV_READ_VOUT (R560): The governor reads READ_VOUT on BUS1. -/
  | govReadVout (lines : Lines)
  /-- DEBOUNCE_EXPIRE (R566): A pin level held for DEBOUNCE changes an input's debounced level. -/
  | debounceExpire (input : Fin 23) (full : Bool)
  /-- EVENT_GAP_END (R567): An input's MIN_GAP ends and one coalesced event is posted if its level changed. -/
  | eventGapEnd (input : Fin 23) (full : Bool)
  /-- STUCK_EXPIRE (R568): An input active for STUCK quarter-seconds is masked and STUCK is posted. -/
  | stuckExpire (input : Fin 23) (full : Bool)
  /-- REARM_EXPIRE (R569): A masked input inactive for REARM quarter-seconds is re-armed. -/
  | rearmExpire (input : Fin 23) (full : Bool)
  /-- TOUCH_SCAN (R570): Every SCAN_MS each enabled touch channel is measured and its baseline and candidate
  updated. -/
  | touchScan (raws : List (BitVec 16)) (slow full : Bool)
  /-- DORMANT_TOUCH_SCAN (R576): In DORMANT the two Dormant channels are scanned every quarter-second. -/
  | dormantTouchScan (first second : BitVec 16)
  /-- INPUT_CFG_WRITE (R566): A write of INPUT_CFG changes POL and other settings, changing the level at once.
  -/
  | inputCfgWrite (who : Who) (input : Fin 23) (value : W32) (full : Bool)
  /-- LED_CTRL_WRITE (R580): A write of LED_CTRL restarts that LED's pattern at slot 0. -/
  | ledCtrlWrite (who : Who) (led : Fin 4) (value : W32)
  /-- LED_RESTART (R580): A write of LED_RESTART restarts the named LEDs together. -/
  | ledRestart (who : Who) (leds : Fin 16)
  /-- LED_SLOT_ADVANCE (R580): Every SLOT_MS an LED pattern moves to its next slot. -/
  | ledSlotAdvance (led : Fin 4)
  /-- TAP_RESET (R582): TRST_N low or five TMS-high cycles reset the TAP to IDCODE. -/
  | tapReset
  /-- IDCODE (R584): The IDCODE instruction selects the 32-bit identity register. -/
  | idcode
  /-- SAMPLE_PRELOAD (R583): SAMPLE/PRELOAD captures and loads the boundary register. -/
  | samplePreload (pins load : List Nat)
  /-- EXTEST (R588): EXTEST drives the pins from the boundary register. -/
  | extest (pins load : List Nat)
  /-- HIGHZ (R588): HIGHZ puts the pins in high impedance. -/
  | highz
  /-- CLAMP (R588): CLAMP holds the pins from the boundary register with bypass selected. -/
  | clamp
  /-- EXTEST_PULSE (R587): EXTEST_PULSE runs IEEE 1149.6 pulse tests on the lanes. -/
  | extestPulse (pins load : List Nat)
  /-- EXTEST_TRAIN (R587): EXTEST_TRAIN runs IEEE 1149.6 train tests on the lanes. -/
  | extestTrain (pins load : List Nat)
  /-- BYPASS (R583): BYPASS selects the one-bit bypass register. -/
  | bypass (opcode : Byte)
  /-- MEM_ACCESS (R589): An Update-DR of MEM_ACCESS reads or writes one address as compartment 0. -/
  | memAccess (op : Fin 4) (addr : Addr) (value : W32)
  /-- STRONGBOX (R590): An Update-DR of STRONGBOX reads a strongbox word, or clears FULL. -/
  | strongbox (holder : Fin 128) (word : Fin 8) (clear : Bool)
  /-- UART_READ (R593): The console R command reads words and replies in hexadecimal. -/
  | uartRead (line : List Byte)
  /-- UART_WRITE (R593): The console W command writes one word. -/
  | uartWrite (line : List Byte)
  /-- UART_IDENT (R593): The console I command replies with IDCODE, BOOT_STATUS and RESET_CAUSE. -/
  | uartIdent (line : List Byte)
  /-- PROG_CMD (R596): A PROG_CMD with the key starts blowing fuse bits, or is refused. -/
  | progCmd (who : Who) (value : W32) (vio : Bool)
  /-- FUSE_PROG_DONE (R596): Fuse blowing ends and the row is read back, setting PROG_FAIL for unblown bits. -/
  | fuseProgDone (missA missB : W32)
  /-- XSP_PAGE_PROGRAM (R598): XSP_CMD page program writes the buffer to flash. -/
  | xspPageProgram (who : Who)
  /-- XSP_ERASE_4K (R598): XSP_CMD erases a 4 KiB flash sector. -/
  | xspErase4k (who : Who)
  /-- XSP_ERASE_64K (R598): XSP_CMD erases a 64 KiB flash block. -/
  | xspErase64k (who : Who)
  /-- XSP_REGISTER_READ (R598): XSP_CMD reads a flash register into the buffer. -/
  | xspRegisterRead (who : Who) (opcode : Byte)
  /-- XSP_CMD_DONE (R598): A flash operation finishes and BUSY clears. -/
  | xspCmdDone (status : Byte) (bytes : List Byte)
  /-- FLASH_TIMEOUT (R598): A flash access not done within 10 ms sets FLASH_TIMEOUT and returns poison. -/
  | flashTimeout (reader : Option (Who × Addr))
  /-- AON_RESTORED (R82): The AON clock returns after AON_LOST, AON_PRESENT sets again and the RTC, wake and HMI
  timers go back to counting AON cycles. -/
  | aonRestored
  /-- AON_CYCLE (R124): Each AON cycle advances RTC_NOW and the AON-counted timers of the always-on island. -/
  | aonCycle
  /-- STACK_REFRESH (R203): A per-bank refresh, or a refresh the stack requests, falls due and closes every open
  row of that bank. -/
  | stackRefresh (stack : Fin 4) (channel : Fin 32) (bank : Fin 32)
  /-- RECAL_CHANNEL_DONE (R206): A channel's periodic recalibration ends, waiting accesses proceed and a second
  failure sets RECAL_FAIL. -/
  | recalChannelDone (stack : Fin 4) (failures : Fin 3)
  /-- IN_BAND_LINK_RESET (R109): An in-band link reset from the host resets the PCIe endpoint as an endpoint
  reset. -/
  | inBandLinkReset
  /-- IDLE_FLIT (R523): A received IDLE flit delivers ACK_SEQ and credits, freeing replay-buffer entries and
  send credit. -/
  | idleFlit (port : Fin 2) (hdr : FlitHdr)
  /-- ECHO_RECEIVE (R529): A port receives an ECHO flit and returns its cookie in an ECHO_REPLY. -/
  | echoReceive (port : Fin 2) (hdr : FlitHdr) (cookie : W64)
  /-- PIN_LEVEL_CHANGE (R566): The synchronised level of a button or hot-plug pin changes and its debounce time
  starts again. -/
  | pinLevelChange (input : Fin 23) (level full : Bool)
  /-- PWM_PERIOD_BOUNDARY (R579): At each 4,096-cycle PWM period boundary an LED output takes its new D and goes
  to its active level. -/
  | pwmPeriodBoundary (led : Fin 4)
  /-- DOMAIN_MEASURE (R71): Every 1 ms the CLK block measures each domain's frequency against the tick and
  updates DOMAIN_FREQ, DOMAIN_ACTIVE and DOMAIN_STOPS. -/
  | domainMeasure (khz : List W32) (toggled stopped : BitVec 14)
deriving DecidableEq, Repr

end Sys2Proof
end

