-- ==== Sys2Proof/Machine/State.lean ====
section
/-! DEFINITION. The state of a VM4 module: the device (every register, memory, queue and block state of the manual), the
fuse array, and the queue of commands that wait. State is plain data. -/

namespace Sys2Proof.Machine

/-- The module's state but for its one-time-programmable fuses and the queue of commands. -/
structure Dev where
  part    : Part := .vm4_42
  /-- Register words by their offset in the register-page window (R47); `regDefault` gives the unlisted ones. -/
  regs    : Map W32 := []
  /-- High-word latches by requester port: the key of the high word and its value (R62). -/
  latches : List (Who × Nat × W32) := []
  /-- Armed injections by page key: 1 + FLAG × 65536 + PARAM, 0 for none (R55). -/
  inj     : Map Nat := []
  clk     : Clk := {}
  gov     : Gov := {}
  pwr     : Pwr := {}
  yard    : YardState := {}
  net     : NetState := {}
  stk     : StackState := {}
  dpt     : DepotState := {}
  integ   : IntState := {}
  cmps    : Map Cmp := []
  cores   : CoreState := {}
  fgs     : FgsState := {}
  ink     : InkState := {}
  /-- Vision engines, by unit id. -/
  engs    : Map Eng := []
  fus     : Fus := Fus.shipped
  tap     : Tap := {}
  xsp     : Xsp := {}
  hst     : HostState := {}
  dbr     : DrawbarState := {}
  mgmt    : MgmtState := {}
  /-- Controller ports BUS0 to BUS3. -/
  twc     : Map TwPort := []
  hmi     : HmiState := {}
  tlm     : TlmState := {}
  /-- Ledger RAM words of 32 bits by offset / 4 (R127). -/
  ledger  : Map W32 := []
  /-- The answers that left the module in the latest step, in order. -/
  rsp     : List Response := []
  /-- Pages whose STICKY_FIRST has been captured in the step that runs (R52); empty between commands. -/
  firsts  : List Nat := []
  /-- Actions that one step starts and finishes; empty between commands. -/
  todo    : List Todo := []
  /-- How many free values have been drawn: the model's own field, which names the next one. -/
  fresh   : Nat := 0
deriving DecidableEq, Repr

/-- The module. -/
structure State where
  dev     : Dev
  /-- Commands that wait, first in first out. -/
  pending : List Instr
deriving DecidableEq, Repr

/-- No command of the opcode table ends in a fault: the manual gives every one of them an effect. Safe. -/
inductive Fault where
deriving DecidableEq, Repr

/-- Why the model answers a command with no effect. -/
inductive Refusal where
  /-- Raised by `exec` for a command whose meaning has not been written. Safe: nothing can be proved of it. -/
  | notModelled (mnemonic : String)
deriving DecidableEq, Repr

/-- The module right after a power-on reset: the fuse shadows that are not zero and their mirror in GOV CAL, RESET_CAUSE,
and the ledger's format word and first cause record. -/
def Dev.reset : Dev :=
  { regs := [(1048656, 1), (3149916, 0x620062), (28311808, 8), (28311844, 0x620062)], ledger := [(0, 1), (5, 1), (66, 0x101)] }

/-- The module right after a power-on reset, with no command waiting. -/
def State.reset : State := { dev := Dev.reset, pending := [] }

end Sys2Proof.Machine
end

