-- ==== Sys2Proof/Machine/Ops.lean ====
section
/-! DEFINITION. The named operations over registers, sticky flags, unit states, the tick, the ledger RAM and free values,
on which every meaning is built. -/

namespace Sys2Proof.Machine

/-! ### Register words -/

/-- The value of a register word. -/
def rd (d : Dev) (k : Nat) : Nat := (Map.get (regDefault d.part) d.regs k).toNat

/-- Storing a register word. -/
def wr (k v : Nat) (d : Dev) : Dev := { d with regs := Map.set (regDefault d.part) d.regs k (BitVec.ofNat 32 v) }

/-- A 64-bit register, low word at `k`. -/
def rd64 (d : Dev) (k : Nat) : Nat := rd d k + rd d (k + 4) * 2 ^ 32

/-- Storing a 64-bit register. -/
def wr64 (k v : Nat) (d : Dev) : Dev := wr (k + 4) (v / 2 ^ 32) (wr k v d)

/-- A field of a register word. -/
def rdF (d : Dev) (k hi lo : Nat) : Nat := fld (rd d k) hi lo

/-- Storing a field of a register word. -/
def wrF (k hi lo v : Nat) (d : Dev) : Dev := wr k (setFld (rd d k) hi lo v) d

/-- A bit of a register word. -/
def rdB (d : Dev) (k i : Nat) : Bool := bit (rd d k) i

/-- Storing a bit of a register word. -/
def wrB (k i : Nat) (b : Bool) (d : Dev) : Dev := wr k (putBit (rd d k) i b) d

/-- Counting in a 32-bit register that saturates. -/
def bump (k : Nat) (d : Dev) : Dev := wr k (satAdd 32 (rd d k) 1) d

/-- Adding to a 32-bit register that saturates. -/
def bumpBy (k n : Nat) (d : Dev) : Dev := wr k (satAdd 32 (rd d k) n) d

/-- Counting in a 32-bit register that wraps. -/
def bumpWrap (k : Nat) (d : Dev) : Dev := wr k (rd d k + 1) d

/-- Counting in a 64-bit counter of a block's pages, which saturates. -/
def bump64 (k : Nat) (d : Dev) : Dev := wr64 k (satAdd 64 (rd64 d k) 1) d

/-- Adding to a 64-bit counter of a block's pages, which saturates. -/
def bump64By (k n : Nat) (d : Dev) : Dev := wr64 k (satAdd 64 (rd64 d k) n) d

/-- Adding to a 64-bit count that runs on, modulo 2^64. -/
def wrap64By (k n : Nat) (d : Dev) : Dev := wr64 k (rd64 d k + n) d

/-- TLM runs: it is unpowered in Dormant, and counts and samples again from WAKE_READY on (R500). -/
def tlmUp (d : Dev) : Bool := decide (d.pwr.state ≠ .dormant) && d.pwr.wakeRtc.isNone

/-- Counting in COUNT[i] of TLM page 1, and in CCOUNT[i] of a compartment's TLM page (R496). -/
def tcount (i n : Nat) (d : Dev) : Dev := if tlmUp d then wrap64By (rk T.TLM 0 1 (0x040 + 8 * i)) n d else d
def ccount (c i n : Nat) (d : Dev) : Dev :=
  if tlmUp d then wrap64By (rk T.TLM 0 (4 + c % 16) (0x040 + 8 * i)) n d else d

/-- `f` when `b`, else nothing. -/
def doIf (b : Bool) (f : Dev → Dev) (d : Dev) : Dev := if b then f d else d

/-- `f` for each element in order. -/
def each {α : Type} (xs : List α) (f : α → Dev → Dev) (d : Dev) : Dev := xs.foldl (fun d x => f x d) d

/-! ### Page headers -/

/-- CTRL, STATUS and the STICKY words of a page. -/
def kCTRL (ty inst : Nat) : Nat := rk ty inst 0 0x008
def kSTATUS (ty inst : Nat) : Nat := rk ty inst 0 0x00C
def kSTICKY (ty inst page : Nat) : Nat := rk ty inst page 0x010
def kMASK (ty inst page : Nat) : Nat := rk ty inst page 0x014
def kFIRST (ty inst page : Nat) : Nat := rk ty inst page 0x018
def kOWNER (ty inst : Nat) : Nat := rk ty inst 0 0x024

/-- CTRL ENABLE of an instance. -/
def enabled (d : Dev) (ty inst : Nat) : Bool := rdB d (kCTRL ty inst) 0

/-- STATE of an instance (R51). -/
def unitState (d : Dev) (ty inst : Nat) : UnitState :=
  match rdF d (kSTATUS ty inst) 3 0 with
  | 1 => .running | 2 => .resetting | 3 => .stabled | 4 => .probation | _ => .off

/-- Setting STATE of an instance. -/
def setUnitState (ty inst : Nat) (u : UnitState) (d : Dev) : Dev := wrF (kSTATUS ty inst) 3 0 u.code d

/-- The owner of a page: OWNER of page 0 of its instance (R56). -/
def ownerOf (d : Dev) (ty inst : Nat) : Nat := rdF d (kOWNER ty inst) 3 0

/-- Pages of a type that carry STICKY words of their own: instance and page index (R643). -/
def stickyPages (p : Part) (ty : Nat) : List (Nat × Nat) :=
  (List.range (instances p ty)).flatMap (fun i => if ty = T.INK then [(i, 0), (i, 1), (i, 2), (i, 3)] else [(i, 0)])

/-- Flags that raise the page alert whatever STICKY_MASK holds: FRAME_FAULT on CTL1 to CTL3 and MARGIN_EXHAUSTED
(R641). -/
def alwaysAlert (ty inst : Nat) : Nat :=
  if ty = T.CTL && inst ≠ 0 then 1 else if ty = T.BGS then 8 else 0

/-- Whether a page raises its alert (R51, R641). -/
def pageAlert (d : Dev) (ty inst page : Nat) : Bool :=
  rd d (kSTICKY ty inst page) &&& (rd d (kMASK ty inst page) ||| alwaysAlert ty inst) != 0

/-- Whether a page of a type raises its alert. -/
def typeAlert (d : Dev) (ty : Nat) : Bool := (stickyPages d.part ty).any (fun q => pageAlert d ty q.1 q.2)

/-- ALERT_PENDING (SYS page 1). -/
def alertPending (d : Dev) : Nat := (List.range 0x1D).foldl (fun a t => if typeAlert d t then setBit a t else a) 0

/-- STICKY_FIRST captures a flag when VALID is 0; of flags that set in the same step, the lowest-numbered one (R52). -/
def captureFirst (ty inst page n detail : Nat) (d : Dev) : Dev :=
  let k := kFIRST ty inst page
  let w := 0x80000000 + n * 65536 + detail % 65536
  if !rdB d k 31 then wr k w { d with firsts := k :: d.firsts }
  else if d.firsts.contains k && decide (n < rdF d k 20 16) then wr k w d else d

/-- Setting a sticky flag with its DETAIL. A bit of ALERT_PENDING that rises is noted. -/
def flag (ty inst page n detail : Nat) (d : Dev) : Dev :=
  let before := typeAlert d ty
  let d1 := wr (kSTICKY ty inst page) (setBit (rd d (kSTICKY ty inst page)) n) d
  let d2 := captureFirst ty inst page n detail d1
  if !before && typeAlert d2 ty then { d2 with todo := d2.todo ++ [.alert] } else d2

/-- Setting a flag of page 0. -/
def flag0 (ty inst n detail : Nat) (d : Dev) : Dev := flag ty inst 0 n detail d

/-- Whether a sticky flag is set. -/
def flagged (d : Dev) (ty inst page n : Nat) : Bool := rdB d (kSTICKY ty inst page) n

/-- A W1C write to STICKY: VALID of STICKY_FIRST clears when STICKY becomes zero (R52). FLAG and DETAIL read 0 with it: DESIGN
CHOICE, log entry 138. -/
def clearSticky (ty inst page v : Nat) (d : Dev) : Dev :=
  let k := kSTICKY ty inst page
  let d1 := wr k (rd d k &&& (0xFFFFFFFF ^^^ (v % 2 ^ 32))) d
  if rd d1 k = 0 then wr (kFIRST ty inst page) 0 d1 else d1

/-! ### Injections (R55) -/

/-- The page whose INJECT word serves a page. -/
def injPage (ty inst page : Nat) : Nat := rk ty inst page 0

/-- The PARAM of an armed injection of a flag. -/
def armed (d : Dev) (ty inst page n : Nat) : Option Nat :=
  let v := Map.get (fun _ => 0) d.inj (injPage ty inst page)
  if v = 0 then none else if (v - 1) / 65536 = n then some ((v - 1) % 65536) else none

/-- An injection fires: it is no longer pending. -/
def fired (ty inst page : Nat) (d : Dev) : Dev :=
  wrB (rk ty inst page 0x00C) 4 false { d with inj := Map.set (fun _ => 0) d.inj (injPage ty inst page) 0 }

/-- Arming an injection; a second arming replaces the first. -/
def arm (ty inst page n param : Nat) (d : Dev) : Dev :=
  wrB (rk ty inst page 0x00C) 4 true
    { d with inj := Map.set (fun _ => 0) d.inj (injPage ty inst page) (1 + n * 65536 + param) }

/-! ### Time (R75, R76) -/

def kTick : Nat := rk T.CLK 0 0 0x050

/-- The tick. -/
def tick (d : Dev) : Nat := rd64 d kTick

/-- QUALITY (R76): 0 LOCKED, 1 RANGE, 2 HOLDOVER, 3 UNALIGNED. A follower is UNALIGNED whenever module 0 is not LOCKED
(R77). LOCKED and RANGE need REF present and the PLL locked, so without lock the quality reads as HOLDOVER; the order of the
other conditions is the model's (log entry 125). -/
def quality (d : Dev) : Nat :=
  if d.clk.unled then 3
  else if d.clk.holdover || !d.clk.locked then 2
  else if d.clk.range then 1
  else if d.clk.unaligned then 3
  else 0

/-- The DEGRADED bit of a timestamp (R76). -/
def degraded (d : Dev) : Bool := quality d != 0

/-- Whether a deadline has come. -/
def due (d : Dev) (t : Nat) : Bool := decide (t ≤ tick d)

/-! ### Ledger RAM (R127)

An upset of the RAM stays in its 8-byte word until the word is read or written: a single one is corrected and sets
LEDGER_CE, a double one sets LEDGER_UE and is poisoned (log entry 136). -/

/-- The 8-byte words that an access touches. -/
def ledgerWords (off len : Nat) : List Nat := (List.range ((off % 8 + len + 7) / 8)).map (off / 8 + ·)

/-- Whether a read of the ledger RAM is uncorrectable, and the flags that it sets. -/
def ledgerSeen (off len : Nat) (d : Dev) : Bool × Dev :=
  let met := d.integ.upsets.filter (fun u => (ledgerWords off len).contains u.1)
  let d1 := met.foldl (fun d u => if u.2 then flag0 T.AON 0 3 u.1 d else flag0 T.AON 0 2 0 d) d
  (met.any (·.2), { d1 with integ := { d1.integ with
    upsets := d1.integ.upsets.filter (fun u => u.2 || !(ledgerWords off len).contains u.1) } })

/-- A write of the ledger RAM ends a single upset of each word it touches, and a double one of each word it fills. -/
def ledgerMended (off len : Nat) (d : Dev) : Dev :=
  { d with integ := { d.integ with upsets := d.integ.upsets.filter (fun u =>
      !((ledgerWords off len).contains u.1 && (!u.2 || (off ≤ 8 * u.1 && 8 * u.1 + 8 ≤ off + len)))) } }

/-- A 32-bit word of the ledger RAM. -/
def ledRd (d : Dev) (off : Nat) : Nat := (Map.get (fun _ => (0 : W32)) d.ledger (off / 4)).toNat

/-- Writing a 32-bit word of the ledger RAM. -/
def ledWr (off v : Nat) (d : Dev) : Dev :=
  { d with ledger := Map.set (fun _ => (0 : W32)) d.ledger (off / 4) (BitVec.ofNat 32 v) }

/-- A 64-bit word of the ledger RAM. -/
def ledRd64 (d : Dev) (off : Nat) : Nat := ledRd d off + ledRd d (off + 4) * 2 ^ 32

/-- Writing a 64-bit word of the ledger RAM. -/
def ledWr64 (off v : Nat) (d : Dev) : Dev := ledWr (off + 4) (v / 2 ^ 32) (ledWr off v d)

/-- A 32-bit write by the hardware, which ends the upsets that it can (R127). -/
def ledPut (off v : Nat) (d : Dev) : Dev := ledgerMended off 4 (ledWr off v d)

/-- Writing bytes to the ledger RAM, a multiple of four: the upsets of the words that it fills end. -/
def ledBytes (off : Nat) (bs : List Byte) (d : Dev) : Dev :=
  ledgerMended off bs.length
    (foldBelow (bs.length / 4) (fun i d => ledWr (off + 4 * i) (leNat ((bs.drop (4 * i)).take 4)) d) d)

/-! ### Free values and answers -/

/-- A value the manual does not state, and the state that has drawn it. -/
def draw (d : Dev) : W64 × Dev := (Config.freeWord d.fresh, { d with fresh := d.fresh + 1 })

/-- A code that the manual does not state, among those that its table lists (R638). -/
def drawOf (codes : List Nat) (d : Dev) : Nat × Dev :=
  let v := draw d
  (codes.getD (v.1.toNat % codes.length) 0, v.2)

/-- Data with the poison marker that goes to the host completes with EP set, and is counted (R508). -/
def epSent (who : Who) (a : Answer) (d : Dev) : Dev :=
  match who, a with
  | .host _, .data _ true => bump (rk T.HST 0 0 0x060) d
  | _, _ => d

/-- Answering a requester. -/
def answer (who : Who) (a : Answer) (d : Dev) : Dev :=
  let e := epSent who a d
  { e with rsp := e.rsp ++ [⟨who, a⟩] }

/-- Starting an action that this step will finish. -/
def push (t : Todo) (d : Dev) : Dev := { d with todo := d.todo ++ [t] }

/-! ### Commands -/

/-- A command whose effect is `f`; the answers of earlier steps have left, and nothing befalls a packet yet. -/
def act (f : Dev → Dev) (s : State) : Host.Outcome State Fault Refusal :=
  .next { s with dev := f { s.dev with rsp := [], net := { s.dev.net with way := .clear } } }

end Sys2Proof.Machine
end

