-- ==== Sys2Proof/Machine/Cper.lean ====
section
/-! DEFINITION. CPER export (R474 to R477) and unit scores (R467, R468): what other blocks report to the integrity
block. -/

namespace Sys2Proof.Machine

/-- The GUID of R642 in UEFI byte order. -/
def torfelGuid : List Byte :=
  [0xC2, 0xF6, 0xA1, 0xD3, 0xB0, 0x58, 0x7A, 0x4E, 0x9C, 0x14, 0x2B, 0x6F, 0x0E, 0x91, 0xA7, 0xD5]

/-- What a CPER record says beyond what INT adds itself (R474). -/
structure Cper where
  cls    : Nat
  block  : Nat
  inst   : Nat := 0
  page   : Nat := 0
  cmp    : Option Nat := none
  addr   : Nat := 0
  tag    : Nat := 0
  queue  : Nat := 0xFFFF
  unit   : Nat := 0xFF
  unit2  : Nat := 0xFF
  detail : Nat := 0
deriving DecidableEq, Repr

/-- The severity of an event class (R474): 0 Recoverable, 1 Fatal, 2 Corrected, 3 Informational. -/
def severity (cls : Nat) : Nat :=
  if cls = 0x01 then 2 else if cls = 0x15 || cls = 0x21 then 3 else if cls = 0x30 then 1 else 0

/-- The module number (R44): TEAM_ID on a two-I/O-die part that has formed a team, else 0. -/
def moduleNo (d : Dev) : Nat :=
  if d.part.ioDies = 2 && rdB d (rk T.DBR 0 0 0x048) 31 then rdF d (rk T.SYS 0 0 0x044) 4 3 else 0

/-- The 16-byte field of a GUID left not valid. -/
def noGuid : List Byte := List.replicate 16 0

/-- The bytes of a CPER record (R474; the UEFI header and descriptor layouts are PRESUMED, log entry 20). -/
def cperBytes (d : Dev) (c : Cper) (id count : Nat) (coalesced : Bool) : List Byte :=
  let sev := leBytes 4 (severity c.cls)
  let kept := severity c.cls < 2
  let text := [0x56, 0x4D, 0x34, 0x20, 0x6D, 0x6F, 0x64, 0x75, 0x6C, 0x65, 0x20, BitVec.ofNat 8 (0x30 + moduleNo d)]
  let head := [0x43, 0x50, 0x45, 0x52, 0x01, 0x01, 0xFF, 0xFF, 0xFF, 0xFF, 0x01, 0x00] ++ sev ++ leBytes 4 0
    ++ leBytes 4 256 ++ leBytes 8 0 ++ noGuid ++ noGuid ++ torfelGuid ++ noGuid ++ leBytes 8 id ++ leBytes 4 0
    ++ leBytes 8 0 ++ List.replicate 12 0
  let desc := leBytes 4 200 ++ leBytes 4 56 ++ leBytes 2 0x0100 ++ [0x02, 0x00] ++ leBytes 4 1 ++ torfelGuid ++ noGuid
    ++ sev ++ text ++ List.replicate 8 0
  let flags := b2n (degraded d) * 128 + b2n kept * 64 + b2n coalesced
  let cmp := match c.cmp with
    | some n => 0x80 + n
    | none => 0
  let u := match c.cmp with
    | some n => rd d (rk T.INT 0 1 (0x110 + 0x20 * n))
    | none => 0
  let body := leBytes 2 1 ++ leBytes 1 c.cls ++ leBytes 1 flags ++ leBytes 1 (moduleNo d) ++ leBytes 1 c.block
    ++ leBytes 1 c.inst ++ leBytes 1 cmp ++ leBytes 8 (tick d) ++ leBytes 8 (c.addr % 2 ^ 48) ++ leBytes 4 c.tag
    ++ leBytes 2 c.queue ++ leBytes 1 c.unit ++ leBytes 1 c.unit2 ++ leBytes 4 c.detail
    ++ leBytes 4 (rd d (kSTICKY c.block c.inst c.page)) ++ leBytes 4 u ++ leBytes 4 count ++ leBytes 8 0
  head ++ desc ++ body

/-! ### Where a line lies (R198) -/

/-- The first address of stack memory. -/
def stackBase : Nat := 0x1000000000

/-- log2 of the number of fitted stacks. -/
def stackLog (p : Part) : Nat := match p.stacks with
  | 1 => 0 | 2 => 1 | _ => 2

/-- Fitted stack memory in bytes (R41). -/
def fitted (p : Part) : Nat := p.stacks * 2 ^ 34

/-- SPARE_EN (R209). -/
def spareEn (d : Dev) : Bool := rdB d (rk T.STK 0 0 0x050) 31

/-- Usable stack memory in bytes (R209). -/
def usable (d : Dev) : Nat := if spareEn d then fitted d.part / 32 * 31 else fitted d.part

/-- The stack, pseudo-channel and inner address of an offset into the stack window (R198). -/
def stackMap (p : Part) (o : Nat) : Nat × Nat × Nat :=
  let g := o >>> 8
  let n := stackLog p
  ((g ^^^ (g >>> 7)) % p.stacks, ((g >>> n) ^^^ (g >>> (n + 5))) % 32, (o >>> (13 + n)) * 256 + o % 256)

/-- A stack's controller. -/
def stackOf (d : Dev) (p : Nat) : Stack := Map.get (fun _ => ({} : Stack)) d.stk.ctl p

/-- Changing a stack's controller. -/
def updStack (p : Nat) (f : Stack → Stack) (d : Dev) : Dev :=
  { d with stk := { d.stk with ctl := Map.upd (fun _ => ({} : Stack)) d.stk.ctl p f } }

/-- Whether a stack answers accesses (R205, R207, R211): it is READY or recalibrates one channel, has not tripped, and no
reset runs. -/
def stackOnline (d : Dev) (p : Nat) : Bool :=
  let c := stackOf d p
  !c.inReset && !c.hot && (c.mode = .ready)

/-- Bytes of a pseudo-channel that a spare takes over, and of the part of each other channel that is kept for it
(R210). -/
def spareFrom : Nat := 496 * 2 ^ 20
def spareBytes : Nat := 16 * 2 ^ 20

/-- Whether the line at an inner address of a pseudo-channel is served from the spares: its channel has been migrated, or
is being migrated and the line has been copied (R210). -/
def onSpare (d : Dev) (p pc ia : Nat) : Bool :=
  (rdB d (rk T.STK p 0 0x050) 8 && rdF d (rk T.STK p 0 0x050) 4 0 = pc) ||
    ((stackOf d p).migrate = some pc && decide (ia / 64 < (stackOf d p).copied))

/-- The stack, pseudo-channel and inner address that serve an offset into the stack window (R198, R210). -/
def servedAt (d : Dev) (o : Nat) : Nat × Nat × Nat :=
  let m := stackMap d.part o
  let k := m.2.2 / spareBytes
  if decide (m.2.2 < spareFrom) && onSpare d m.1 m.2.1 m.2.2 then
    (m.1, if k < m.2.1 then k else k + 1, spareFrom + m.2.2 % spareBytes)
  else m

/-- Whether the line at an offset into the stack window can be reached: its stack answers, and the pseudo-channel that
serves it is not stabled (R207, R210). -/
def lineOnline (d : Dev) (o : Nat) : Bool :=
  let m := servedAt d o
  stackOnline d m.1 && !(stackOf d m.1).pcs.testBit m.2.1

/-- A stored line, by line number. -/
def getLine (d : Dev) (n : Nat) : Line := Map.get (fun _ => encodeLine 0 false) d.stk.lines n

/-- Storing a line. -/
def putLine (n : Nat) (l : Line) (d : Dev) : Dev :=
  { d with stk := { d.stk with lines := Map.set (fun _ => encodeLine 0 false) d.stk.lines n l } }

/-- A little-endian line of 64 bytes. -/
def lineOfBytes (bs : List Byte) : BitVec 512 := BitVec.ofNat 512 (leNat (bs.take 64))

/-- Writing whole good lines at a 64-byte aligned address of stack memory (R201). -/
def putLines (addr : Nat) (bs : List Byte) (d : Dev) : Dev :=
  foldBelow (bs.length / 64)
    (fun i d => putLine ((addr - stackBase) / 64 + i) (encodeLine (lineOfBytes (bs.drop (64 * i))) false) d) d

/-! ### Stations (R178, R186, R191) -/

/-- The ACTIVE route entry of a router for a destination (R186). -/
def route (d : Dev) (s t : Nat) : Nat := Map.get (fun _ => 0) d.net.active (s * 64 + t)

/-- Whether a destination station is UNREACHABLE from a station: the entry that the source's router looks up, also for what
goes from an attachment of a station to that station (R178, R186). -/
def cutOff (d : Dev) (src : Option Nat) (t : Nat) : Bool :=
  match src with
  | none => false
  | some s => fld (route d s t) 7 6 == 3

/-- The station whose edge port serves a pseudo-channel of a stack (R178). -/
def edgeStation (p pc : Nat) : Nat := (if p < 2 then 0 else 7) + 32 * (p % 2) + 8 * (pc / 8)

/-- Whether the edge station of one of the 256-byte granules of `len` bytes at an offset into the stack window is
unreachable from a source (R191, R198). -/
def edgeCut (d : Dev) (src : Option Nat) (o len : Nat) : Bool :=
  (List.range ((o % 256 + len + 255) / 256)).any (fun i =>
    let m := stackMap d.part ((o / 256 + i) * 256)
    cutOff d src (edgeStation m.1 m.2.1))

/-! ### The log and the retained ring -/

def kLogNext : Nat := rk T.INT 0 3 0x058

/-- Setting the Record ID of the next record; a register that has never been written reads 1. -/
def nextId (d : Dev) : Nat := rd64 d kLogNext

/-- The log ring (R476): base, size, and whether it can be written now. -/
def logBase (d : Dev) : Nat := rd64 d (rk T.INT 0 3 0x040) % 2 ^ 48
def logSize (d : Dev) : Nat := 2 ^ rdF d (rk T.INT 0 3 0x048) 4 0

/-- Where a record with an ID goes in the log ring. -/
def logSlot (d : Dev) (id : Nat) : Nat := logBase d + 256 * (id % logSize d)

/-- Whether the log ring takes records now: INT reaches it from its attachment at station 6 (R476, R191). -/
def logReady (d : Dev) (id : Nat) : Bool :=
  bit (rd64 d (rk T.INT 0 3 0x040)) 63 && decide (stackBase ≤ logSlot d id) &&
    decide (logSlot d id + 256 ≤ stackBase + usable d) && lineOnline d (logSlot d id - stackBase) &&
    !edgeCut d (some 6) (logSlot d id - stackBase) 256

/-- Whether the log ring is full for a record that may not overwrite (R476). -/
def logFull (d : Dev) (id : Nat) : Bool :=
  !rdB d (rk T.INT 0 3 0x048) 8 && decide (logSize d ≤ id - rd64 d (rk T.INT 0 3 0x050))

/-- Writing a new CPER record (R474 to R477). -/
def cperWrite (c : Cper) (count : Nat) (coalesced : Bool) (d : Dev) : Dev :=
  let id := nextId d
  let bs := cperBytes d c id count coalesced
  let d1 := tcount 15 1 (wr64 kLogNext (id + 1) d)
  let d2 := if severity c.cls < 2 then
      { ledBytes (0x5000 + 256 * (d.integ.retained % 64)) bs d1 with
        integ := { d1.integ with retained := d1.integ.retained + 1 } }
    else d1
  if !logReady d id then d2
  else if logFull d id then flag0 T.INT 0 13 0 (bump (rk T.INT 0 3 0x060) d2)
  else push (.logWrite (logSlot d id) bs) d2

/-- Whether a record written now goes into the log ring. -/
def logTakes (d : Dev) (id : Nat) : Bool := logReady d id && !logFull d id

/-- The newest record of the log ring takes a new COUNT in place, at 0x2C of its body: nothing else of it changes
(R475). -/
def cperRewrite (id count : Nat) (d : Dev) : Dev :=
  push (.logWrite (logSlot d id + 244) (leBytes 4 count)) d

/-- Reporting an event to INT: CORRECTED and PATH_PARITY events coalesce (R475). -/
def cper (c : Cper) (d0 : Dev) : Dev :=
  let d := if c.cls = 1 then tcount 10 1 d0 else if c.cls = 2 then tcount 11 1 d0 else d0
  if c.cls ≠ 0x01 ∧ c.cls ≠ 0x04 then cperWrite c 1 false d
  else
    let id := nextId d
    let same := fun (q : Coalesce) => q.ty == c.block && q.inst == c.inst && q.cls == c.cls
    let others := d.integ.coalesce.filter (fun q => !same q)
    let note := fun (x : Coalesce) (d : Dev) => { d with integ := { d.integ with coalesce := others ++ [x] } }
    let fresh := fun n => (⟨c.block, c.inst, c.cls, tick d, id, n, logTakes d id⟩ : Coalesce)
    match d.integ.coalesce.find? same with
    | some q =>
      if tick d - q.tick < rd d (rk T.INT 0 0 0x04C) then
        (if q.logged && q.id + 1 = id && logReady d q.id then
           note { q with count := q.count + 1 } (cperRewrite q.id (q.count + 1) d)
         else note (fresh (q.count + 1)) (cperWrite c (q.count + 1) true d))
      else note (fresh 1) (cperWrite c 1 false d)
    | none => note (fresh 1) (cperWrite c 1 false d)

/-- Whether a read of the ledger RAM is uncorrectable, with the flags and the records of the upsets that it meets
(R127, R474). -/
def ledgerRead (off len : Nat) (d : Dev) : Bool × Dev :=
  let met := d.integ.upsets.filter (fun u => (ledgerWords off len).contains u.1)
  let r := ledgerSeen off len d
  (r.1, met.foldl (fun d u => cper { cls := if u.2 then 0x02 else 0x01, block := T.AON, inst := 0, detail := u.1 } d) r.2)

/-! ### Scores -/

/-- The block type and instance of a unit id (R259). -/
def unitPage (u : Nat) : Nat × Nat :=
  if u < 0x40 then (T.CCH, u) else if u < 0x44 then (T.CTL, u - 0x40)
  else (0x0D + (u - 0x48) / 2, (u - 0x48) % 2)

/-- The block type and instance of a unit code of kind 0, 1 or 3 (R469). -/
def codePage (code : Nat) : Nat × Nat :=
  if code / 0x1000 = 0 then unitPage code else if code / 0x1000 = 1 then (T.YRD, code % 0x1000)
  else (T.INK, code % 0x1000)

/-- A unit's score (R467). -/
def scoreOf (d : Dev) (code : Nat) : Nat := Map.get (fun _ => 0) d.integ.scores code

/-- Setting a unit's score, with the tick of the change. -/
def setScore (code v : Nat) (d : Dev) : Dev :=
  { d with integ := { d.integ with
      scores := Map.set (fun _ => 0) d.integ.scores code v
      scoreTick := Map.set (fun _ => 0) d.integ.scoreTick code (tick d) } }

/-- Automatic stabling (R468): with AUTO_STABLE 0, only the flag and the record. -/
def autoStable (code : Nat) (d : Dev) : Dev :=
  let d1 := flag0 T.INT 0 9 code d
  if rdB d (rk T.INT 0 0 0x040) 8 then push (.stable code) d1
  else cper { cls := 0x20, block := T.INT, detail := code, unit := if code < 0x1000 then code else 0xFF } d1

/-- A finding against a unit of kind 0 or 1 raises its score (R467); one at which it has reached STABLE_SCORE stables it
(R468). -/
def score (code k : Nat) (d : Dev) : Dev :=
  let old := scoreOf d code
  let new := min 255 (old + k)
  let d1 := setScore code new d
  let limit := rdF d (rk T.INT 0 2 0x040) 7 0
  if limit ≤ new then autoStable code d1 else d1

end Sys2Proof.Machine
end

