-- ==== Sys2Proof/Machine/YardOps.lean ====
section
/-! DEFINITION. The yard's cells, page map and rights checks, its tallies and watches (chapter 5), and the turnpike's
reachability (chapter 6), as operations that other meanings use. -/

namespace Sys2Proof.Machine

/-! ### Places -/

/-- Bytes of a cluster. -/
def clusterBytes : Nat := 0x300000

/-- The first yard address beyond the yard (R40). -/
def yardEnd : Nat := 64 * clusterBytes

/-- The station whose cluster holds a yard address. -/
def stationAt (a : Nat) : Nat := a / clusterBytes

/-- Keys of the YRD pages of a station. -/
def kY (s page off : Nat) : Nat := rk T.YRD s page off

/-- Counting on YRD page 3: a counter that saturates sets COUNTER_SAT. -/
def countY (s off k : Nat) (d : Dev) : Dev :=
  let n := rd d (kY s 3 off)
  let d1 := bumpBy (kY s 3 off) k d
  if n < 0xFFFFFFFF ∧ 0xFFFFFFFF ≤ n + k then flag0 T.YRD s 9 (off / 4) d1 else d1

/-- A cluster that is STABLED, or in PROBATION and so out of service (R176, R470). -/
def clusterOut (d : Dev) (s : Nat) : Bool :=
  unitState d T.YRD s = .stabled || unitState d T.YRD s = .probation

/-! ### Routes (R178, R186, R191) -/

/-- The station a requester injects at; none for requesters that reach the yard by the pixel ring. -/
def homeStation : Who → Option Nat
  | .coach n => some n.val
  | .ctl n => some (match n.val with | 0 => 1 | 1 => 2 | 2 => 57 | _ => 58)
  | .host f => some (if f.val % 2 = 0 then 3 else 4)
  | .mgmt => some 3
  | .tap => some 3
  | .drawbar p _ => some (59 + p.val)
  | .depot => some 0
  | .fgs => some 5
  | .integ => some 6
  | .bgs => some 6
  | .tlm => some 61
  | .engine _ => none
  | .intake _ => none

/-! ### Paths (R177, R186) -/

/-- Links along a row from column `x` to column `x2`. -/
def rowLinks (y x x2 : Nat) : List Nat := (List.range (max x x2 - min x x2)).map (fun i => 2 * (8 * y + min x x2 + i))

/-- Links along a column from row `y` to row `y2`. -/
def colLinks (x y y2 : Nat) : List Nat := (List.range (max y y2 - min y y2)).map (fun i => 2 * (8 * (min y y2 + i) + x) + 1)

/-- The links of the XY path and of the YX path (R186). -/
def xyPath (s t : Nat) : List Nat := rowLinks (s / 8) (s % 8) (t % 8) ++ colLinks (t % 8) (s / 8) (t / 8)
def yxPath (s t : Nat) : List Nat := colLinks (s % 8) (s / 8) (t / 8) ++ rowLinks (t / 8) (s % 8) (t % 8)

/-- The links that a packet crosses between two stations under the ACTIVE tables (R186). -/
def pathLinks (d : Dev) (s t : Nat) : List Nat :=
  let e := route d s t
  match e / 64 % 4 with
  | 0 => xyPath s t
  | 1 => yxPath s t
  | 2 => xyPath s (e % 64) ++ yxPath (e % 64) t
  | _ => []

/-- An epoch switch holds the RQ packets that a source has not yet injected (R189): those of every requester that reaches
its destination through a station, other than a coach at its own cluster. Requesters without a station reach the yard by
the pixel ring. -/
def switchHolds (d : Dev) (src : Option Nat) (own : Bool) : Bool := d.net.busy && src.isSome && !own

/-- A coach at the cluster of its own station, which it reaches by the cluster's wide port (R143). -/
def ownCluster (w : Who) (s : Nat) : Bool := match w with
  | .coach n => n.val = s
  | _ => false

/-- Whether a requester's table makes a cluster unreachable; a coach needs no route to the cluster of its own station. -/
def clusterCut (d : Dev) (w : Who) (s : Nat) : Bool := !ownCluster w s && cutOff d (homeStation w) s

/-- An epoch switch holds what a requester sends to a cluster. -/
def yardSwitch (d : Dev) (w : Who) (s : Nat) : Bool := switchHolds d (homeStation w) (ownCluster w s)

/-- UNREACHABLE is set and the destination's coach and cluster are to be stabled (R191). -/
def noteCut (t : Nat) (d : Dev) : Dev :=
  let d1 := flag0 T.TPK 0 6 t d
  let d2 := if unitState d1 T.CCH t = .stabled then d1 else push (.stable t) d1
  if unitState d2 T.YRD t = .stabled then d2 else push (.stable (0x1000 + t)) d2

/-! ### Pages and regions -/

/-- The page-map entry of a yard page. -/
def getPage (d : Dev) (p : Nat) : PageEntry := Map.get (fun _ => ({} : PageEntry)) d.yard.pages p

/-- Changing a page-map entry. -/
def updPage (p : Nat) (f : PageEntry → PageEntry) (d : Dev) : Dev :=
  { d with yard := { d.yard with pages := Map.upd (fun _ => ({} : PageEntry)) d.yard.pages p f } }

/-- A descriptor slot, by descriptor id. -/
def getDesc (d : Dev) (id : Nat) : Desc := Map.get (fun _ => ({} : Desc)) d.yard.descs id

/-- Changing a descriptor slot. -/
def updDesc (id : Nat) (f : Desc → Desc) (d : Dev) : Dev :=
  { d with yard := { d.yard with descs := Map.upd (fun _ => ({} : Desc)) d.yard.descs id f } }

namespace Desc
def valid (r : Desc) : Bool := bit r.w0 63
def postmortem (r : Desc) : Bool := bit r.w0 62
def sweep (r : Desc) : Nat := fld r.w0 61 60
def twoD (r : Desc) : Bool := bit r.w0 59
def classN (r : Desc) : Bool := bit r.w0 58
def host (r : Desc) : Bool := bit r.w0 57
def fetch (r : Desc) : Bool := bit r.w0 56
def wr (r : Desc) : Bool := bit r.w0 55
def rd (r : Desc) : Bool := bit r.w0 54
def owner (r : Desc) : Nat := fld r.w0 51 48
def readers (r : Desc) : Nat := fld r.w0 47 32
def sizePages (r : Desc) : Nat := fld r.w0 31 16
def basePage (r : Desc) : Nat := fld r.w0 15 0
/-- WB of a 2-D region (R131). -/
def wb (r : Desc) : Nat := fld r.w1 55 48 + 1
def base (r : Desc) : Nat := r.basePage * 0x1000
def bytes (r : Desc) : Nat := r.sizePages * 0x1000
/-- The pages of the region. -/
def pages (r : Desc) : List Nat := (List.range r.sizePages).map (r.basePage + ·)
/-- The region sweeps. -/
def sweeping (r : Desc) : Bool := r.goal != .none
/-- The slot after a release: VALID is clear, and the other fields stand as they were (R141). -/
def freed (r : Desc) : Desc := { w0 := clrBit r.w0 63, w1 := r.w1, w2 := r.w2, w3 := r.w3 }
/-- The tally bindings in force: tally key and granule (R137). -/
def bindings (r : Desc) : List (Nat × Nat) :=
  [r.w2, r.w3].filterMap (fun w =>
    if bit w 63 then some (fld w 15 0, if fld w 51 32 = 0 then 0x100000 else fld w 51 32) else none)
end Desc

/-- The region whose page-map entry covers a yard address. -/
def regionAt (d : Dev) (a : Nat) : Option (Nat × Desc) :=
  let e := getPage d (a / 0x1000)
  if a < yardEnd && e.valid then some (e.desc, getDesc d e.desc) else none

/-- Whether a page belongs to a 2-D region, which turns the rows of its blocks through the banks (R131). -/
def pageTurned (d : Dev) (p : Nat) : Bool := match regionAt d (p * 0x1000) with
  | some (_, r) => r.twoD
  | none => false

/-- The bank that holds the cell at a yard address (R130, R131). -/
def bankOf (d : Dev) (a : Nat) : Nat :=
  let n := a / 4 % 1024
  match regionAt d a with
  | some (_, r) => if r.twoD then (n / 32 + n % 32) % 32 else a % clusterBytes / 4 % 32
  | none => a % clusterBytes / 4 % 32

/-- The class rule of R144: coaches, control cores and what comes by the turnpike use the wide port; engines and intakes
the narrow one. -/
def narrow : Who → Bool
  | .engine _ => true
  | .intake _ => true
  | _ => false

/-- The port of a cluster that carries a requester's accesses (R143): 0 the wide one, which serves the station's coach and
what comes by the turnpike, 1 the narrow one, which serves the pixel ring. -/
def portAt (who : Who) : Nat := if narrow who then 1 else 0

/-- Whether the region or page of a yard address is being swept (R171, R176). -/
def sweepsAt (d : Dev) (a : Nat) : Bool := match regionAt d a with
  | none => false
  | some (_, r) => r.sweeping || (getPage d (a / 0x1000)).sweeping || unitState d T.YRD (stationAt a) = .resetting

/-- An access that a sweep holds is one of those that its cluster holds, in the order in which they came (R171). -/
def countWait (w : Who) (a : Nat) (d : Dev) : Dev :=
  if sweepsAt d a then { d with yard := { d.yard with waits := d.yard.waits ++ [(w, a)] } } else d

/-- One that its requester keeps and issues again counts once. -/
def noteWait (w : Who) (a : Nat) (d : Dev) : Dev := if d.yard.waits.contains (w, a) then d else countWait w a d

/-- The requesters of the accesses beyond the sixteen that a cluster holds to its sweeping regions (R171). -/
def pressing (d : Dev) (s : Nat) : List Who := ((d.yard.waits.filter (fun w => stationAt w.2 = s)).map (·.1)).drop 16

/-- Whether an access waits behind others at a cluster: behind one of the same initiator, which keeps its order (R152), or
behind the seventeenth access to sweeping regions, which back-pressures the port that carries it (R171). One that the
cluster holds already is not behind the others. -/
def behindHeld (d : Dev) (who : Who) (a : Nat) : Bool :=
  d.yard.held.any (fun h => h.station = stationAt a && h.acc.who = who) ||
    (!d.yard.waits.contains (who, a) && (pressing d (stationAt a)).any (fun w => portAt w = portAt who))

/-- The check of an access where it lands, in the order of R142 (R644, R176, R191, R189). `fits` says whether every cell
of the access lies in a region. -/
def landingCheck (d : Dev) (acc : Access) (a : Nat) (fits : Nat → Desc → Bool) : Verdict :=
  let s := stationAt a
  if behindHeld d acc.who a || yardSwitch d acc.who s then .held
  else if clusterCut d acc.who s || clusterOut d s then (if acc.write then .fail .unitStabled none else .poison)
  else if !enabled d T.YRD s then .fail .noRegion none
  else
    match regionAt d a with
    | none => .fail .noRegion none
    | some (id, r) =>
      if r.sweeping || (getPage d (a / 0x1000)).sweeping || unitState d T.YRD s = .resetting then .held
      else if !fits id r then .fail .bounds (some r.owner)
      else if r.held && !(acc.cmp = 0 && !acc.write) then .fail .postmortemHeld (some r.owner)
      else if (match r.claim with
               | some u => u != acc.unit && !(acc.cmp = 0 && !acc.write)
               | none => false) then .fail .claimed (some r.owner)
      else
        let base := acc.cmp = 0 || (acc.cmp = r.owner && (if acc.write then r.wr else r.rd)) ||
          (!acc.write && r.readers.testBit acc.cmp && r.rd)
        if base && (!acc.fetch || r.fetch) && (!acc.bar4 || r.host) then .ok
        else .fail .refusedRights (some r.owner)

/-- The check of an access of `len` bytes at a yard address. -/
def yardCheck (d : Dev) (acc : Access) (a len : Nat) : Verdict :=
  landingCheck d acc a (fun _ r => decide (a + len ≤ r.base + r.bytes))

/-! ### Cells -/

/-- Where the cell with a number stands: bank word × 32 + bank, its row of a 2-D region turned by the row's number
(R130, R131). -/
def cellPlace (d : Dev) (n : Nat) : Nat := if pageTurned d (n / 1024) then n / 32 * 32 + (n / 32 % 32 + n % 32) % 32 else n

/-- A stored cell, by cell number. The yard keeps its cells by bank and bank word, so that a page which changes its layout
unswept shows them at their places. -/
def getCell (d : Dev) (n : Nat) : Cell39 := Map.get (fun _ => goodCell 0) d.yard.cells (cellPlace d n)

/-- Storing a cell. -/
def putCell (n : Nat) (c : Cell39) (d : Dev) : Dev :=
  { d with yard := { d.yard with cells := Map.set (fun _ => goodCell 0) d.yard.cells (cellPlace d n) c } }

/-- A page is no longer CLEAN once a cell of it has been written (R172). -/
def dirty (a : Nat) (d : Dev) : Dev := updPage (a / 0x1000) (fun e => { e with clean := false }) d

/-- An injected correctable error shows on a cell whose data is good; a poisoned or an uncorrectable one stays so (R55,
R133; DEDUCED, log entry 175). -/
def CellRead.noisy : CellRead → CellRead
  | .good w => .corrected w
  | o => o

/-- Reading one cell under ECC (R133), with the injections of flags 0 and 1 (R55). The result is the data and the
poison marker. The cluster's own rewriting of a cell leaves its page CLEAN (R172, DESIGN CHOICE, log entry 180). -/
def readCell (n : Nat) (d : Dev) : (W32 × Bool) × Dev :=
  let a := 4 * n
  let s := stationAt a
  let b := bankOf d a
  let hit := fun k => decide (armed d T.YRD s 0 k = some b)
  let c := getCell d n
  let d0 := if hit 0 || hit 1 then fired T.YRD s 0 d else d
  let res := if hit 1 then CellRead.uncorrectable c.data else if hit 0 then c.decode.noisy else c.decode
  match res with
  | .good w => ((w, false), d0)
  | .corrected w =>
    ((w, false), cper { cls := 0x01, block := T.YRD, inst := s, addr := a, detail := b }
      (flag0 T.YRD s 0 b (countY s 0x040 1 d0)))
  | .poisoned w => ((w, true), flag0 T.YRD s 2 b (countY s 0x048 1 d0))
  | .uncorrectable w =>
    ((w, true), score (0x1000 + s) 1
      (cper { cls := 0x02, block := T.YRD, inst := s, addr := a, detail := b }
        (flag0 T.YRD s 1 b (countY s 0x044 1 (putCell n (poisonCell w) d0)))))

/-- Reading cells one after another. -/
def readCells : Nat → Nat → Dev → List (W32 × Bool) × Dev
  | _, 0, d => ([], d)
  | n, k + 1, d =>
    let r := readCell n d
    let rest := readCells (n + 1) k r.2
    (r.1 :: rest.1, rest.2)

/-- The bytes of cells, in address order. -/
def cellBytes (cs : List (W32 × Bool)) : List PByte :=
  cs.flatMap (fun c => (leBytes 4 c.1.toNat).map (fun b => (b, c.2)))

/-- The number of cells that `len` bytes at `a` touch. -/
def cellsTouched (a len : Nat) : Nat := if len = 0 then 0 else (a + len - 1) / 4 - a / 4 + 1

/-- Reading `len` bytes at a yard address. -/
def readYard (a len : Nat) (d : Dev) : List PByte × Dev :=
  let r := readCells (a / 4) (cellsTouched a len) (tcount 5 len d)
  (((cellBytes r.1).drop (a % 4)).take len, r.2)

/-- What a write puts into one cell: a whole cell its new data; a part of one the merged data, unless the read half
finds poison or an uncorrectable error (R134). `bs` gives each of the four bytes that is written. -/
def mergeCell (n : Nat) (bs : List (Option Byte)) (d : Dev) : Option W32 × Dev :=
  let a := 4 * n
  if bs.all Option.isSome then (some (BitVec.ofNat 32 (leNat (bs.map (·.getD 0)))), d)
  else
    let s := stationAt a
    let b := bankOf d a
    if armed d T.YRD s 0 3 = some b then (none, flag0 T.YRD s 3 b (fired T.YRD s 0 d))
    else
      let r := readCell n d
      if r.1.2 then (none, flag0 T.YRD s 3 b r.2)
      else
        let old := leBytes 4 r.1.1.toNat
        (some (BitVec.ofNat 32 (leNat ((List.range 4).map (fun i => (bs.getD i none).getD (old.getD i 0))))), r.2)

/-- The bytes written in cell `n` by a write of `bs` at `a`. -/
def cellPart (a : Nat) (bs : List Byte) (n : Nat) : List (Option Byte) :=
  (List.range 4).map (fun i => if 4 * n + i < a then none else bs[4 * n + i - a]?)

/-- Storing words in cells one after another, with fresh check bits. -/
def putWords : Nat → List W32 → Dev → Dev
  | _, [], d => d
  | n, w :: ws, d => putWords (n + 1) ws (putCell n (goodCell w) (dirty (4 * n) d))

/-- Writing bytes at a yard address: when a cell cannot be merged the write is dropped and changes no cell (R134,
R167). The answer says whether it was written. -/
def writeCells (a : Nat) (bs : List Byte) (d : Dev) : Bool × Dev :=
  let r := (List.range (cellsTouched a bs.length)).foldl
    (fun (r : List (Option W32) × Dev) i =>
      let m := mergeCell (a / 4 + i) (cellPart a bs (a / 4 + i)) r.2
      (r.1 ++ [m.1], m.2)) ([], d)
  if r.1.all Option.isSome then (true, putWords (a / 4) (r.1.map (·.getD 0)) r.2) else (false, r.2)

/-! ### Tallies (R153 to R157) -/

/-- A tally, by station × 1024 + index. -/
def getTally (d : Dev) (t : Nat) : Tally := Map.get (fun _ => ({} : Tally)) d.yard.tallies t

/-- Changing a tally. -/
def updTally (t : Nat) (f : Tally → Tally) (d : Dev) : Dev :=
  { d with yard := { d.yard with tallies := Map.upd (fun _ => ({} : Tally)) d.yard.tallies t f } }

/-- Watches of a tally whose threshold is met fire, once, in the order of registration (R157). -/
def fireWatches (t : Nat) (reached : Nat) (d : Dev) : Dev :=
  let hit := fun (w : Watch) => w.tally == t && decide (w.thresh ≤ reached)
  let d1 := { d with yard := { d.yard with watches := d.yard.watches.filter (fun w => !hit w) } }
  { d1 with todo := d1.todo ++ (d.yard.watches.filter hit).map (fun w => .watchFired w.waiter) }

/-- Cells that landed are added to a tally; VALUE advances by whole granules (R154). -/
def tallyAdd (t cells granule : Nat) (d : Dev) : Dev :=
  let v := getTally d t
  let acc := v.accum + cells
  let up := acc / granule
  let val := v.value + up
  let d1 := updTally t (fun x => { x with value := val % 2 ^ 32, accum := acc % granule }) d
  let d2 := if 2 ^ 32 ≤ val then flag0 T.YRD (t / 1024) 8 (t % 1024) d1 else d1
  if up = 0 then d2 else fireWatches t (min val (2 ^ 32 - 1)) d2

/-- A landed write of `n` cells sends increments to the tallies bound to its region; one that cannot reach its tally, or
finds its cluster out of service or out of use, is dropped (R154, R191, R644). The increments act one by one afterwards. -/
def countCells (a n : Nat) (d : Dev) : Dev :=
  match regionAt d a with
  | none => d
  | some (_, r) =>
    each r.bindings (fun b d =>
      let s := b.1 / 1024
      if (stationAt a ≠ s && cutOff d (some (stationAt a)) s) || clusterOut d s || !enabled d T.YRD s then d
      else { d with yard := { d.yard with landed := d.yard.landed ++ [⟨b.1, n, b.2, stationAt a⟩] } }) d

/-- A rearm sets VALUE and ACCUM to zero (R156). -/
def rearm (t : Nat) (d : Dev) : Dev := updTally t (fun x => { x with value := 0, accum := 0 }) d

/-- Watches in use at a cluster. -/
def watchesUsed (d : Dev) (s : Nat) : Nat := (d.yard.watches.filter (fun w => w.tally / 1024 = s)).length

/-- What a watch request is answered (R157). -/
inductive WatchAnswer where
  | fired | registered | full
deriving DecidableEq, Repr

/-- A tally watch request (R157). -/
def watchTally (w : Watch) (d : Dev) : WatchAnswer × Dev :=
  if w.thresh ≤ (getTally d w.tally).value then (.fired, d)
  else if watchesUsed d (w.tally / 1024) < 256 then
    (.registered, { d with yard := { d.yard with watches := d.yard.watches ++ [w] } })
  else (.full, flag0 T.YRD (w.tally / 1024) 7 (w.tally % 1024) d)

/-! ### Writing where a posted write lands -/

/-- CROSS_CLASS counts the accesses of `cells` cells through the port of the other class (R144): a wide port takes up to
32 cells in one access, a narrow port up to 4 (R147). -/
def countClass (who : Who) (a cells : Nat) (d : Dev) : Dev :=
  match regionAt d a with
  | some (_, r) =>
    if narrow who != r.classN then countY (stationAt a) 0x04C (if narrow who then (cells + 3) / 4 else (cells + 31) / 32) d
    else d
  | none => d

/-- A write that has passed its check: the cells, then the tallies (R134, R154). A write that fails is counted in none, and
so is one that is not posted. -/
def landYard (acc : Access) (a : Nat) (bs : List Byte) (d : Dev) : Bool × Dev :=
  let r := writeCells a bs (countClass acc.who a (cellsTouched a bs.length) (tcount 5 bs.length d))
  if r.1 then (true, if acc.direct then r.2 else countCells a (cellsTouched a bs.length) r.2) else (false, r.2)

end Sys2Proof.Machine
end

