-- ==== Sys2Proof/Machine/StackOps.lean ====
section
/-! DEFINITION. Stack memory as operations that other meanings use: the checks of windows (R302 to R304), reading and
writing lines (R199 to R203, R207), and the spare mapping (R209, R210). -/

namespace Sys2Proof.Machine

/-- Keys of the STK pages of a stack. -/
def kS (p page off : Nat) : Nat := rk T.STK p page off

/-! ### Stations (R178, R195) -/

/-- The station from which a requester reaches stack memory (R178); `second` says that an intake's port uses the second
bundle of its die's pair (R195). -/
def stackSource (who : Who) (second : Bool) : Option Nat :=
  match who with
  | .engine n => some (if n.val % 2 = 0 then 7 else 56)
  | .intake n => some ((if n.val = 0 then 3 else 59) + b2n second)
  | w => homeStation w

/-- The edge station that serves an address of stack memory. -/
def stackStation (d : Dev) (a : Nat) : Nat :=
  let m := stackMap d.part (a - stackBase)
  edgeStation m.1 m.2.1

/-- Whether the edge station of a part of an access is unreachable from its source (R191). -/
def stackCutOff (d : Dev) (acc : Access) (a len : Nat) : Bool :=
  edgeCut d (stackSource acc.who acc.second) (a - stackBase) len

/-- Whether a stack access waits: an epoch switch holds it (R189), or it stands behind an access of the same initiator to
the same edge station (R202). -/
def stackHeld (d : Dev) (acc : Access) (a : Nat) : Bool :=
  switchHolds d (stackSource acc.who acc.second) false ||
    d.yard.held.any (fun h => h.acc.who = acc.who && h.station = 64 + stackStation d a)

/-! ### Windows (R302 to R304) -/

/-- STKWIN[k] of a compartment. -/
def stkWin (d : Dev) (c k : Nat) : Nat := rd64 d (rk T.CMP c 0 (0x080 + 8 * k))

/-- The first offset of a window into the stack window, and its bytes. -/
def winBase (w : Nat) : Nat := fld w 14 0 * 0x200000
def winBytes (w : Nat) : Nat := (fld w 46 32 + 1) * 0x200000

/-- Whether a window is in force and covers bytes at an offset. -/
def winCovers (w o len : Nat) : Bool := bit w 63 && decide (winBase w ≤ o) && decide (o + len ≤ winBase w + winBytes w)

/-- The compartment whose valid window covers an offset, the lowest-numbered when several do (R311). -/
def winOwner (d : Dev) (o : Nat) : Option Nat :=
  findBelow 16 (fun c => (List.range 8).any (fun k => winCovers (stkWin d c k) o 1))

/-- Whether a window has the right an access needs (R302, R304). -/
def winAllows (acc : Access) (w : Nat) : Bool :=
  (if acc.write then bit w 61 else bit w 62) && (!acc.fetch || bit w 60) && (!acc.bar4 || bit w 59)

/-- Whether two ranges given by start and length overlap. -/
def overlaps (a la b lb : Nat) : Bool := decide (a < b + lb) && decide (b < a + la)

/-- Whether bytes at an offset are being zeroed for a killed compartment (R316). -/
def beingZeroed (d : Dev) (o len : Nat) : Bool :=
  d.cmps.any (fun e => e.2.zeroing.any (fun z => overlaps o len (winBase z.2) (winBytes z.2)))

/-- The check of a stack access at the controller (R202, R304, R209). Memory that is being zeroed is only compartment 0's
(R316): another compartment is refused REFUSED_RIGHTS there, a kind that the spec does not name (DESIGN CHOICE, log entry
119). -/
def stackCheck (d : Dev) (acc : Access) (a len : Nat) : Verdict :=
  let o := a - stackBase
  if usable d < o + len then .fail .noRegion none
  else if acc.cmp = 0 then .ok
  else
    let ws := ((List.range 8).map (stkWin d acc.cmp)).filter (fun w => winCovers w o len)
    if ws.isEmpty then .fail .noRegion (winOwner d o)
    else if ws.any (winAllows acc) && !beingZeroed d o len then .ok else .fail .refusedRights (winOwner d o)

/-! ### Where a line is kept (R210) -/

/-- The row that serves a line: stack, pseudo-channel and bank, row (R203, R210). The lines keep their numbers whichever
channel serves them, so that contents are one list. -/
def rowKey (d : Dev) (o : Nat) : Nat × Nat × Nat :=
  let m := servedAt d o
  (m.1, m.2.1 * 32 + m.2.2 / 1024 % 32, m.2.2 / 32768)

/-- The row of an access is open afterwards (R203). -/
def openRow (o : Nat) (d : Dev) : Dev :=
  let r := rowKey d o
  updStack r.1 (fun c => { c with rows := Map.set (fun _ => 0) c.rows r.2.1 (r.2.2 + 1) }) d

/-- A stack access has happened since the last reset (R209). -/
def noteAccess (d : Dev) : Dev := { d with stk := { d.stk with accessed := true } }

/-- The ticks of a list that lie within one decay period of the present tick, with the present one (R468). -/
def withinDecay (d : Dev) (ts : List Nat) : List Nat :=
  ts.filter (fun t => decide (tick d < t + rd d (rk T.INT 0 2 0x044))) ++ [tick d]

/-- An uncorrectable read of a pseudo-channel: PC_LIMIT of them within any one decay period stable it (R468). -/
def countUe (p pc : Nat) (d : Dev) : Dev :=
  let ts := withinDecay d (Map.get (fun _ => []) (stackOf d p).ues pc)
  let d1 := updStack p (fun c => { c with ues := Map.set (fun _ => []) c.ues pc ts }) d
  if rdF d (rk T.INT 0 2 0x048) 31 16 ≤ ts.length then autoStable (0x4000 + p * 32 + pc) d1 else d1

/-! ### Lines -/

/-- A read of a line that is offline (R207). -/
def offlineAccess (p : Nat) (d : Dev) : Dev := flag0 T.STK p 3 0 (bump (kS p 1 0x04C) d)

/-- An injected correctable error shows on a line whose data is good; a poisoned or an uncorrectable one stays so (R55,
R200; DEDUCED, log entry 175). -/
def LineRead.noisy : LineRead → LineRead
  | .good w => .corrected w
  | o => o

/-- Decoding the line with a line number (R200), with the injections of flags 0 and 1. -/
def readLine (n : Nat) (d : Dev) : (BitVec 512 × Bool) × Dev :=
  let o := n * 64
  let m := servedAt d o
  let p := m.1
  let pc := m.2.1
  let d0 := noteAccess d
  if !lineOnline d o then ((0, true), offlineAccess p d0)
  else
    let d0 := openRow o d0
    let hit := fun k => decide (armed d T.STK p 0 k = some pc)
    let d0 := if hit 0 || hit 1 then fired T.STK p 0 d0 else d0
    let l := getLine d n
    let res := if hit 1 then LineRead.uncorrectable l.data else if hit 0 then l.decode.noisy else l.decode
    match res with
    | .good w => ((w, false), d0)
    | .corrected w =>
      ((w, false), cper { cls := 0x01, block := T.STK, inst := p, addr := stackBase + o, detail := pc }
        (flag0 T.STK p 0 pc (bump (kS p 1 0x040) d0)))
    | .poisoned w => ((w, true), flag0 T.STK p 2 pc (bump (kS p 1 0x048) d0))
    | .uncorrectable w =>
      let d1 := flag0 T.STK p 1 pc (bump (kS p 1 0x044) (putLine n (encodeLine w true) d0))
      let d2 := if bit (rd64 d1 (kS p 1 0x058)) 63 then d1
                else wr64 (kS p 1 0x058) (2 ^ 63 + (stackBase + o)) d1
      ((w, true), countUe p pc (cper { cls := 0x02, block := T.STK, inst := p, addr := stackBase + o, detail := pc } d2))

/-- The bytes of a line. -/
def lineBytes (l : BitVec 512) : List Byte := leBytes 64 l.toNat

/-- Reading `len` bytes at an address of stack memory. -/
def readStack (a len : Nat) (d : Dev) : List PByte × Dev :=
  let o := a - stackBase
  let lines := if len = 0 then 0 else (o + len - 1) / 64 - o / 64 + 1
  let r := (List.range lines).foldl
    (fun (r : List PByte × Dev) i =>
      let x := readLine (o / 64 + i) r.2
      (r.1 ++ (lineBytes x.1.1).map (fun b => (b, x.1.2)), x.2)) ([], d)
  ((r.1.drop (o % 64)).take len, r.2)

/-- Why a line cannot take a write, and what it would hold (R201). A write that an offline stack drops counts in
OFFLINE_ACCESSES (R207). -/
def mergeLine (n a : Nat) (bs : List Byte) (d : Dev) : Except Kind (BitVec 512) × Dev :=
  let o := n * 64
  let base := stackBase + o
  let p := (stackMap d.part o).1
  if !lineOnline d o then (.error .stackOffline, bump (kS p 1 0x04C) (noteAccess d))
  else
    let part := (List.range 64).map (fun i => if base + i < a then none else bs[base + i - a]?)
    if part.all Option.isSome then (.ok (lineOfBytes (part.map (·.getD 0))), openRow o (noteAccess d))
    else
      let r := readLine n d
      if r.1.2 then (.error .partialUe, flag0 T.STK p 4 0 r.2)
      else
        let old := lineBytes r.1.1
        (.ok (lineOfBytes ((List.range 64).map (fun i => (part.getD i none).getD (old.getD i 0)))), r.2)

/-- Storing lines one after another, freshly encoded. -/
def putLinesFrom : Nat → List (BitVec 512) → Dev → Dev
  | _, [], d => d
  | n, w :: ws, d => putLinesFrom (n + 1) ws (putLine n (encodeLine w false) d)

/-- Writing bytes at an address of stack memory: when a line cannot take its part the write is dropped and changes no
line (R201, R167). Flag 5 may be injected. -/
def landStack (a : Nat) (bs : List Byte) (d : Dev) : Option Kind × Dev :=
  let o := a - stackBase
  let m := stackMap d.part o
  if armed d T.STK m.1 0 5 = some m.2.1 then
    (some .pathParity, cper { cls := 0x04, block := T.STK, inst := m.1, addr := a, detail := m.2.1 }
      (flag0 T.STK m.1 5 0 (fired T.STK m.1 0 d)))
  else
    let lines := if bs.isEmpty then 0 else (o + bs.length - 1) / 64 - o / 64 + 1
    let r := (List.range lines).foldl
      (fun (r : List (Except Kind (BitVec 512)) × Dev) i =>
        let x := mergeLine (o / 64 + i) a bs r.2
        (r.1 ++ [x.1], x.2)) ([], d)
    match r.1.findSome? (fun x => match x with
      | .error k => some k
      | .ok _ => none) with
    | some k => (some k, r.2)
    | none => (none, putLinesFrom (o / 64) (r.1.map (fun x => match x with
      | .ok w => w
      | .error _ => 0)) r.2)

end Sys2Proof.Machine
end

