-- ==== Sys2Proof/Machine/Way.lean ====
section
/-! DEFINITION. What befalls a packet on its way: headers that fail on a link, a ring stop or a bundle, and route tables that
have flipped bits (R182, R192, R194, R196); accesses that are held, and those whose response is awaited (R165, R171, R183). -/

namespace Sys2Proof.Machine

/-- A router drops a packet whose header fails parity (R182); a link whose errors rise by LINK_LIMIT within any one decay
period is stabled (R468). -/
def headerError (link : Nat) (d : Dev) : Dev :=
  let l := Map.get (fun _ => ({} : Link)) d.net.links link
  let ts := withinDecay d l.recent
  let l2 := { l with errors := satAdd 16 l.errors 1, recent := ts }
  let d1 := { d with net := { d.net with links := Map.set (fun _ => ({} : Link)) d.net.links link l2 } }
  let d2 := flag0 T.TPK 0 1 link (bump (rk T.TPK 0 0 0x048) d1)
  if rdF d (rk T.INT 0 2 0x048) 15 0 ≤ ts.length then autoStable (0x2000 + link) d2 else d2

/-- Whether a link id names a link of the mesh (R177). -/
def linkExists (l : Nat) : Bool := decide (l < 128) && (if l % 2 = 0 then l / 2 % 8 != 7 else decide (l / 2 < 56))

/-- A control structure of a cluster has an uncorrectable error: CTRL_UE_STABLED, its CPER record, and INT stables the
cluster (R466, R468). -/
def clusterUpset (s : Nat) (d : Dev) : Dev :=
  autoStable (0x1000 + s) (cper { cls := 0x23, block := T.YRD, inst := s, detail := 0x1000 + s } (flag0 T.INT 0 12 s d))

/-- The die-to-die bundles that a packet crosses (R195): those of its source, and the one to the block that it is for. An
intake's rows go to the yard by its die's PB bundle, and to stack memory by the TB bundle of their port. CB0 and CB1 carry
no access, but what the running command tells the other die (log entry 152). -/
def bundlesOf (w : Who) (second : Bool) (t a : Nat) : List Nat :=
  (match w with
    | .host f => [f.val % 2]
    | .mgmt => [0]
    | .tap => [0]
    | .intake n => if a < yardEnd then [4 * n.val + 2] else [4 * n.val + b2n second]
    | .drawbar p _ => [4 + p.val]
    | _ => []) ++
  (if a < yardEnd || (stackBase ≤ a && decide (a < stackBase + 2 ^ 36)) then [] else if t = 3 then [0] else if t = 59 then [4] else [])

/-- Whether a packet from a station to a station crosses a place, or its response does, which returns by the same stops and
bundles and by the path of its own tables (R186, R195). -/
def crosses (d : Dev) (w : Who) (second : Bool) (src : Option Nat) (t a : Nat) (back : Bool) : Hop → Bool
  | .link l => linkExists l.val && (match src with
      | some s => (if back then pathLinks d t s else pathLinks d s t).contains l.val
      | none => false)
  | .ring _ => src.isNone && narrow w
  | .bundle n => (bundlesOf w second t a).contains n.val

/-- A header fails its parity at a place, and the packet is dropped there (R182, R194, R196). -/
def hopDrops (h : Hop) (d : Dev) : Dev :=
  match h with
  | .link l => headerError l.val d
  | .ring s => flag0 T.TPK 0 7 s.val d
  | .bundle n => flag0 T.TPK 0 8 n.val (bump (rk T.TPK 0 7 (0x040 + 4 * n.val)) (bump (rk T.TPK 0 0 0x048) d))

/-- Positions on the clockwise ring, INK0 first (R193). -/
def ringOrder : List Nat :=
  [1000] ++ List.range 8 ++ [72, 74, 76, 78, 80] ++ (List.range 8).map (15 - ·) ++ (List.range 8).map (16 + ·)
    ++ (List.range 8).map (31 - ·) ++ [1001] ++ (List.range 8).map (32 + ·) ++ [73, 75, 77, 79, 81]
    ++ (List.range 8).map (47 - ·) ++ (List.range 8).map (48 + ·) ++ (List.range 8).map (63 - ·)

/-- The ring stop of a requester on the pixel ring. -/
def ringStop : Who → Option Nat
  | .engine n => some (72 + n.val)
  | .intake n => some (1000 + n.val)
  | _ => none

/-- The ring that reaches a station in fewer stops, clockwise on a tie (R194). -/
def ringFor (src dst : Nat) : Nat :=
  let i := ringOrder.idxOf src
  let j := ringOrder.idxOf dst
  let cw := (j + 76 - i) % 76
  if cw ≤ 76 - cw then 0 else 1

/-- A full destination buffer leaves a ring flit circulating (R194): `n` times round. -/
def ringRefused (w : Who) (a n : Nat) (d : Dev) : Dev :=
  match ringStop w with
  | some s => bumpBy (rk T.TPK 0 6 (0x040 + 4 * ringFor s (stationAt a))) n d
  | none => d

/-- What a mishap on the way from a station to a station does, and what comes of the packet (R74, R182, R192, R194, R196,
R442, R466). A link or a bundle acts on the packets that cross it, and a ring stop on those of the pixel ring. On CB0 or CB1 it
is no access whose header fails (R195). -/
def mishap (m : Mishap) (w : Who) (second : Bool) (src : Option Nat) (t a : Nat) (d : Dev) : Fate × Dev :=
  let drop := fun (h : Hop) => if crosses d w second src t a false h then (Fate.lost, hopDrops h d) else (.arrives, d)
  match m with
  | .clear => (.arrives, d)
  | .link l => drop (.link l)
  | .ring s => drop (.ring s)
  | .bundle n =>
    if n.val % 4 ≠ 3 then drop (.bundle n)
    else (.arrives, if n.val / 4 < d.part.ioDies then hopDrops (.bundle n) d else d)
  | .reply h => if crosses d w second src t a true h then (.unheard, hopDrops h d) else (.arrives, d)
  | .route s t sh two =>
    let at' := s.val * 128 + b2n sh * 64 + t.val
    if two then (.lost, push (.forced 0x08 at') (flag0 T.TPK 0 0 at' d))
    else (.arrives, cper { cls := 0x01, block := T.TPK, detail := at' } (bump (rk T.TPK 0 0 0x058) d))
  | .cluster => (.arrives, if a < yardEnd then clusterUpset (stationAt a) d else d)
  | .data => (.spoiled, d)
  | .full n => (.arrives, if a < yardEnd then ringRefused w a n.toNat d else d)

/-- Sending a packet from a station to a station: what the running command says befalls its next packet befalls this
one, and the ones after it go undisturbed. -/
def sendTo (w : Who) (second : Bool) (src : Option Nat) (t a : Nat) (d : Dev) : Fate × Dev :=
  match d.net.way with
  | .clear => (.arrives, d)
  | m => mishap m w second src t a { d with net := { d.net with way := .clear } }

/-- Sending an access to the yard or to stack memory on its way. -/
def sendOff (acc : Access) (a : Nat) (d : Dev) : Fate × Dev :=
  if a < yardEnd then sendTo acc.who acc.second (homeStation acc.who) (stationAt a) a d
  else sendTo acc.who acc.second (stackSource acc.who acc.second) (stackStation d a) a d

/-- What befalls the next packet of the step. -/
def onWay (m : Mishap) (d : Dev) : Dev := { d with net := { d.net with way := m } }

/-- Data of an access has lost its byte parity at its consumer (R74, R442): the CPER record, with the waybill's tag. -/
def parityAt (acc : Access) (a tag : Nat) (d : Dev) : Dev :=
  let place := if a < yardEnd then (T.YRD, stationAt a) else (T.STK, (stackMap d.part (a - stackBase)).1)
  cper { cls := 0x04, block := place.1, inst := place.2, cmp := some acc.cmp, addr := a, tag := tag, unit := acc.who.unitId } d

/-! ### Accesses that wait, and accesses under way -/

/-- Where an access is held: at its cluster, or for a stack access under its edge station. -/
def heldAt (d : Dev) (a : Nat) : Nat := if a < yardEnd then stationAt a else 64 + stackStation d a

/-- Holding an access (R171). One that a sweep holds is counted with those that its cluster holds, once however often it is
tried again. -/
def park (h : HeldAccess) (d : Dev) : Dev :=
  let place := fun (x : HeldAccess) => x.part.getD x.addr
  let same := d.yard.held.countP (fun x => x.acc.who = h.acc.who && place x = place h)
  let d1 := if d.yard.waits.count (h.acc.who, place h) ≤ same then countWait h.acc.who (place h) d else d
  { d1 with yard := { d1.yard with held := d1.yard.held ++ [h] } }

/-- Noting a posted write, read or atomic that its initiator waits for. -/
def launch (f : Flight) (d : Dev) : Dev := { d with net := { d.net with flights := d.net.flights ++ [f] } }

/-- The station or attachment whose timer a requester uses, for DETAIL. -/
def timerStation (w : Who) : Nat := (homeStation w).getD ((stackSource w false).getD 0)

/-- The timer of a requester's access expires (R183). -/
def timedOut (w : Who) (d : Dev) : Dev :=
  { flag0 T.TPK 0 2 (timerStation w) (bump (rk T.TPK 0 0 0x04C) d) with
    net := { d.net with expired := d.net.expired ++ [w] } }

end Sys2Proof.Machine
end

