-- ==== Sys2Proof/Machine/Events.lean ====
section
/-! DEFINITION. Events to compartments (R309 to R312), refusals (R59, R311), failure notices (R167 to R169), and reads and
writes of the yard and of stack memory with their checks. -/

namespace Sys2Proof.Machine

/-! ### Compartments and queues -/

/-- What a compartment that nothing has touched is: compartment 0 is always ACTIVE (R313). -/
def cmpDefault (n : Nat) : Cmp := if n = 0 then { mode := .active } else {}

/-- A compartment. -/
def getCmp (d : Dev) (n : Nat) : Cmp := Map.get cmpDefault d.cmps n

/-- Changing a compartment. -/
def updCmp (n : Nat) (f : Cmp → Cmp) (d : Dev) : Dev := { d with cmps := Map.upd cmpDefault d.cmps n f }

/-- Whether a compartment is ACTIVE. -/
def cmpActive (d : Dev) (n : Nat) : Bool := (getCmp d n).mode = .active

/-- Keys of a CMP page. -/
def kC (n off : Nat) : Nat := rk T.CMP n 0 off

/-- A queue. -/
def getQueue (d : Dev) (q : Nat) : Queue := Map.get (fun _ => ({} : Queue)) d.dpt.queues q

/-- Changing a queue. -/
def updQueue (q : Nat) (f : Queue → Queue) (d : Dev) : Dev :=
  { d with dpt := { d.dpt with queues := Map.upd (fun _ => ({} : Queue)) d.dpt.queues q f } }

/-- Whether a COMPLETION queue has room for `n` more entries (R286, R310). -/
def cqRoom (q : Queue) (n : Nat) : Bool := decide (q.tail - q.head + n ≤ q.size)

/-- A write of a block of the module (the depot, telemetry, INT) where it lands: dropped when its check fails, when its
edge station cannot be reached, or when its stack does not take it (R191, R207, R261). -/
def ownLand (acc : Access) (a : Nat) (bs : List Byte) (d : Dev) : Bool × Dev :=
  if a < yardEnd then
    (match yardCheck d acc a bs.length with
     | .ok => landYard acc a bs d
     | _ => (false, d))
  else if stackBase ≤ a && stackCheck d acc a bs.length = .ok then
    (if stackCutOff d acc a bs.length then (false, offlineAccess (stackMap d.part (a - stackBase)).1 d)
     else (let r := landStack a bs (ccount acc.cmp 5 bs.length (tcount 6 bs.length d)); (r.1.isNone, r.2)))
  else (false, d)

/-- Whether a write of a block of the module waits: at a sweep, for an epoch switch, or behind another of its own (R152,
R171, R189). -/
def ownHeld (d : Dev) (acc : Access) (a len : Nat) : Bool :=
  if a < yardEnd then yardCheck d acc a len = .held else decide (stackBase ≤ a) && stackHeld d acc a

/-- A write of a block of the module: held like any other, and lost where its header fails (R182); its timer runs when no
response comes (R183). Where all goes well its acknowledgement comes in the same step (log entry 172). The answer says
whether it has landed or may yet. -/
def ownWrite (acc : Access) (a : Nat) (bs : List Byte) (d : Dev) : Bool × Dev :=
  if ownHeld d acc a bs.length then
    (true, park { station := heldAt d a, acc := acc, addr := a, data := bs, tag := 0 } d)
  else
    let on := sendOff acc a d
    let fly := launch ⟨acc.who, acc.cmp, 0, 0, a, true, .pending, tick d, false⟩
    match on.1 with
    | .arrives => ownLand acc a bs on.2
    | .unheard => let r := ownLand acc a bs on.2; (r.1, fly r.2)
    | .lost => (true, fly on.2)
    | .spoiled => (false, parityAt acc a 0 (doIf (yardEnd ≤ a) (flag0 T.STK (stackMap d.part (a - stackBase)).1 5 0) on.2))

/-- The module's own writes into a ring, acting for compartment 0 (R261). -/
def ringWrite (a : Nat) (bs : List Byte) (d : Dev) : Dev := (ownWrite { who := .depot, cmp := 0, write := true } a bs d).2

/-! ### Events -/

/-- An event (R310). -/
structure Event where
  kind    : Nat
  subkind : Nat := 0
  unit    : Nat := 0xFF
  subject : Nat
  addr    : Nat := 0
  detail  : Nat := 0
  queue   : Nat := 0xFFFF
  tag     : Nat := 0
  /-- TIMESTAMP and DEGRADED where they are not those of the tick of posting (R76, R578). -/
  stamp   : Option (Nat × Bool) := none
deriving DecidableEq, Repr

/-- The 32 bytes of an event record (R310). -/
def eventBytes (d : Dev) (e : Event) (phase lost : Bool) : List Byte :=
  let flags := b2n phase * 128 + b2n ((e.stamp.map (·.2)).getD (degraded d)) * 64 + b2n lost * 32 + e.subject % 16
  leBytes 4 e.tag ++ leBytes 1 e.kind ++ leBytes 1 e.subkind ++ leBytes 1 e.unit ++ leBytes 1 flags
    ++ leBytes 8 (e.addr % 2 ^ 48) ++ leBytes 4 e.detail ++ leBytes 2 e.queue ++ [0, BitVec.ofNat 8 (b2n phase * 128)]
    ++ leBytes 8 ((e.stamp.map (·.1)).getD (tick d))

/-- The event queue of a compartment (R309). -/
def evq (d : Dev) (n : Nat) : Option Nat := if rdB d (kC n 0x070) 31 then some (rdF d (kC n 0x070) 15 0) else none

/-- Posting an event to one compartment, or dropping it (R310, R312). An event starts at an even index: behind an odd
TAIL, which only a queue that has served as the CQ of a work queue has, it leaves one entry out (log entry 154). -/
def post (n : Nat) (e : Event) (d : Dev) : Dev :=
  let drop := flag0 T.CMP n 1 0 (bump (kC n 0x074) (updCmp n (fun c => { c with lost := true }) d))
  match evq d n with
  | none => drop
  | some q =>
    let q0 := getQueue d q
    let qd := { q0 with tail := q0.tail + q0.tail % 2 }
    if !(cmpActive d n || e.kind = 0x06) || !cqRoom qd 2 then drop
    else
      let bs := eventBytes d e qd.phase (getCmp d n).lost
      let d1 := updCmp n (fun c => { c with lost := false }) (ringWrite (qd.base + 16 * (qd.tail % qd.size)) bs d)
      push (.recorded q) (updQueue q (fun x => { x with tail := qd.tail + 2 }) d1)

/-- Posting an event to its SUBJECT and to compartment 0. -/
def postBoth (e : Event) (d : Dev) : Dev := post 0 e (if e.subject = 0 then d else post e.subject e d)

/-! ### Refusals (R59, R311) -/

/-- The waybill a unit runs. -/
def runOf (d : Dev) (u : Nat) : Option Running := Map.get (fun _ => none) d.dpt.runs u

/-- Setting the waybill a unit runs. -/
def setRun (u : Nat) (r : Option Running) (d : Dev) : Dev :=
  { d with dpt := { d.dpt with runs := Map.set (fun _ => none) d.dpt.runs u r } }

/-- The tag of the waybill a unit runs, or 0. -/
def tagOf (d : Dev) (u : Nat) : Nat := match runOf d u with
  | some r => r.image.tag
  | none => 0

/-- A refused access is counted and reported: REFUSALS and REFUSED of the requester's compartment, and at most one event
to compartment 0 in any 1,000 ticks (R311). For a host write, HOST_WRITE_FAILED replaces the event (R514). -/
def refused (acc : Access) (k : Kind) (owner : Option Nat) (shared : Bool) (a : Nat) (d : Dev) : Dev :=
  let tail := match owner with
    | some o => b2n shared * 32 + o % 16
    | none => 16
  let d1 := flag0 T.CMP acc.cmp 0 (k.code * 256 + tail) (ccount acc.cmp 11 1 (bump (kC acc.cmp 0x078) d))
  let recent := match (getCmp d acc.cmp).refusedAt with
    | some t => decide (tick d < t + 1000)
    | none => false
  if recent || (acc.write && acc.who.isHost) then d1
  else
    let e : Event := { kind := 0x03, subkind := k.code, unit := acc.who.unitId, subject := acc.cmp, addr := a,
                       detail := b2n acc.write * 256 + tail, tag := tagOf d acc.who.unitId }
    post 0 e (updCmp acc.cmp (fun c => { c with refusedAt := some (tick d) }) d1)

/-- A decode error, which has no owner (R59). -/
def decodeError (acc : Access) (a : Nat) (d : Dev) : Dev := refused acc .noRegion none false a d

/-- The cluster that refused an access notes it. -/
def clusterRefused (acc : Access) (k : Kind) (a : Nat) (d : Dev) : Dev :=
  flag0 T.YRD (stationAt a) 10 (k.code * 256 + acc.cmp) d

/-! ### Reads and writes -/

/-- What a read brings. -/
inductive ReadOut where
  | data (bs : List PByte)
  | fail (k : Kind)
  | held
deriving DecidableEq, Repr

/-- What a write meets. -/
inductive WriteOut where
  | ok
  | fail (k : Kind)
  | held
deriving DecidableEq, Repr

/-- A read of `len` bytes of the yard within one cluster. -/
def yardRead (acc : Access) (a len : Nat) (d : Dev) : ReadOut × Dev :=
  match yardCheck d acc a len with
  | .ok =>
    let r := readYard a len (countClass acc.who a (cellsTouched a len) d)
    (.data r.1, r.2)
  | .held => (.held, d)
  | .poison =>
    (.data (List.replicate len (0, true)), d)
  | .fail k o => (.fail k, refused acc k o false a (clusterRefused acc k a d))

/-- A read of `len` bytes of stack memory. -/
def stackRead (acc : Access) (a len : Nat) (d : Dev) : ReadOut × Dev :=
  if stackHeld d acc a then (.held, d)
  else if stackCutOff d acc a len then
    (.data (List.replicate len (0, true)), offlineAccess (stackMap d.part (a - stackBase)).1 d)
  else
    match stackCheck d acc a len with
    | .fail k o => (.fail k, refused acc k o false a d)
    | _ =>
      let r := readStack a len (ccount acc.cmp 5 len (tcount 6 len d))
      (.data r.1, r.2)

/-- The accesses, one for each cluster, that an access to `len` bytes becomes (R149): offset and length. -/
def clusterParts (a len : Nat) : List (Nat × Nat) :=
  let first := min len ((stationAt a + 1) * clusterBytes - a)
  if yardEnd ≤ a || first = len then [(0, len)] else [(0, first), (first, len - first)]

/-- The parts of an access that sweeps hold. -/
def noteWaits (acc : Access) (a len : Nat) (d : Dev) : Dev :=
  each (clusterParts a len) (fun p d => noteWait acc.who (a + p.1) d) d

/-- What the parts of a read bring together: nothing while one is held, and a failure when one fails. -/
def ReadOut.join : ReadOut → ReadOut → ReadOut
  | .held, _ => .held
  | _, .held => .held
  | .fail k, _ => .fail k
  | _, .fail k => .fail k
  | .data bs, .data cs => .data (bs ++ cs)

/-- What the parts of a write meet together. -/
def WriteOut.join : WriteOut → WriteOut → WriteOut
  | .held, _ => .held
  | _, .held => .held
  | .fail k, _ => .fail k
  | _, w => w

/-- A read of the yard or of stack memory; a part that falls in the next cluster is an access of its own (R149). -/
def memRead (acc : Access) (a len : Nat) (d : Dev) : ReadOut × Dev :=
  if a < yardEnd then
    let r := (clusterParts a len).foldl (fun (r : ReadOut × Dev) p =>
      let x := yardRead acc (a + p.1) p.2 r.2
      (r.1.join x.1, x.2)) (.data [], d)
    if r.1 = .held then (.held, noteWaits acc a len d) else r
  else if stackBase ≤ a && a < stackBase + 2 ^ 36 then stackRead acc a len d
  else (.fail .noRegion, decodeError acc a d)

/-- The consumer finds that data of a unit has lost its byte parity (R74, R442). -/
def pathParity (acc : Access) (a : Nat) (d : Dev) : Dev := parityAt acc a (tagOf d acc.who.unitId) d

/-- Read data that fails its parity at the requester is poisoned (R442). -/
def ReadOut.spoil : ReadOut → ReadOut
  | .data bs => .data (bs.map (fun b => (b.1, true)))
  | o => o

/-- A read of a unit that waits for its data in one step, with what befalls it on its way (R182, R183, R442): one that is
lost, or whose answer is, is poisoned when its timer expires, which the model lets happen in the same step (log entry 172). -/
def readPiece (acc : Access) (a n : Nat) (d : Dev) : ReadOut × Dev :=
  let on := sendOff acc a d
  if on.1 = .lost then (.data (List.replicate n (0, true)), timedOut acc.who on.2)
  else
    let r := memRead acc a n on.2
    match r.1, on.1 with
    | .data bs, .unheard => ((ReadOut.data bs).spoil, timedOut acc.who r.2)
    | .data bs, .spoiled => ((ReadOut.data bs).spoil, pathParity acc a r.2)
    | o, _ => (o, r.2)

/-- A write of bytes to the yard within one cluster, where it lands. -/
def yardWrite (acc : Access) (a : Nat) (bs : List Byte) (d : Dev) : WriteOut × Dev :=
  match yardCheck d acc a bs.length with
  | .ok =>
    let r := landYard acc a bs d
    (if r.1 then .ok else .fail .partialUe, r.2)
  | .held => (.held, d)
  | .poison => (.fail .unitStabled, d)
  | .fail k o =>
    (.fail k,
      if k.isRefusal then refused acc k o false a (clusterRefused acc k a d) else d)

/-- A write of bytes to stack memory, where it lands. -/
def stackWrite (acc : Access) (a : Nat) (bs : List Byte) (d : Dev) : WriteOut × Dev :=
  if stackHeld d acc a then (.held, d)
  else if stackCutOff d acc a bs.length then (.fail .stackOffline, offlineAccess (stackMap d.part (a - stackBase)).1 d)
  else
    match stackCheck d acc a bs.length with
    | .fail k o => (.fail k, refused acc k o false a d)
    | _ =>
      let r := landStack a bs (ccount acc.cmp 5 bs.length (tcount 6 bs.length d))
      (match r.1 with
       | none => .ok
       | some k => .fail k, r.2)

/-- A write to the yard or to stack memory; a part that falls in the next cluster is an access of its own (R149). -/
def memWrite (acc : Access) (a : Nat) (bs : List Byte) (d : Dev) : WriteOut × Dev :=
  if a < yardEnd then
    let r := (clusterParts a bs.length).foldl (fun (r : WriteOut × Dev) p =>
      let x := yardWrite acc (a + p.1) ((bs.drop p.1).take p.2) r.2
      (r.1.join x.1, x.2)) (.ok, d)
    if r.1 = .held then (.held, noteWaits acc a bs.length d) else r
  else if stackBase ≤ a && a < stackBase + 2 ^ 36 then stackWrite acc a bs d
  else (.fail .noRegion, decodeError acc a d)

/-- A write whose data fails its parity at its target: dropped there, once it has passed the check that its address must
pass (R142, R167, R304, R442). -/
def spoiledPart (acc : Access) (a len : Nat) (d : Dev) : WriteOut × Dev :=
  if a < yardEnd then
    (match yardCheck d acc a len with
     | .ok => (.fail .pathParity, pathParity acc a d)
     | _ => yardWrite acc a (List.replicate len 0) d)
  else if stackHeld d acc a then (.held, d)
  else if stackCutOff d acc a len || stackCheck d acc a len ≠ .ok then stackWrite acc a (List.replicate len 0) d
  else (.fail .pathParity, flag0 T.STK (stackMap d.part (a - stackBase)).1 5 0 (pathParity acc a d))

/-- A part of a write where it lands, whose data may have lost its parity. -/
def partWrite (spoiled : Bool) (acc : Access) (a : Nat) (bs : List Byte) (d : Dev) : WriteOut × Dev :=
  if spoiled && (a < yardEnd || (stackBase ≤ a && a < stackBase + 2 ^ 36)) then spoiledPart acc a bs.length d
  else memWrite acc a bs d

/-! ### Posted writes (R165 to R169) -/

/-- What becomes of a posted write after it has met its target. -/
def postedOutcome (w : WriteOut) : FlightState := match w with
  | .ok => .acked
  | .fail k => .failed k
  | .held => .pending

/-- A posted write of a unit to the yard or to stack memory, one for each cluster (R149): it lands at its target in the
same step, and its acknowledgement or failure notice is on its way (log entry 5); one that must wait is held (R165,
R171). -/
def postWrite (spoiled : Bool) (acc : Access) (tag serial a : Nat) (bs : List Byte) (d : Dev) : WriteOut × Dev :=
  (clusterParts a bs.length).foldl (fun (r : WriteOut × Dev) p =>
    let b := a + p.1
    let cs := (bs.drop p.1).take p.2
    let x := partWrite spoiled acc b cs r.2
    (r.1.join x.1, match x.1 with
      | .held => park { station := heldAt d b, acc := acc, addr := b, data := cs, tag := tag, spoiled := spoiled } r.2
      | o => launch ⟨acc.who, acc.cmp, tag, serial, b, true, postedOutcome o, tick d, acc.stream⟩ x.2)) (.ok, d)

/-- Where an initiator keeps LOST_WRITES and FIRST_LOST, and the flag it sets: block, instance, page, flag (R168). -/
def lostHome (who : Who) (cmp : Nat) : Option (Nat × Nat × Nat × Nat × Nat) :=
  match who with
  | .coach n => some (kY n.val 3 (0x200 + 4 * cmp), kY n.val 3 (0x280 + 8 * cmp), T.YRD, n.val, 11)
  | .engine n =>
    let p := unitPage (0x48 + n.val)
    some (rk p.1 p.2 0 0x074, rk p.1 p.2 0 0x078, p.1, p.2, 2)
  | .intake n => some (rk T.INK n.val 0 0x040, rk T.INK n.val 0 0x048, T.INK, n.val, 0)
  | .fgs => some (rk T.FGS 0 1 0x058, rk T.FGS 0 1 0x060, T.FGS, 0, 8)
  | .host f => some (rk T.HST 0 (1 + f.val) 0x048, rk T.HST 0 (1 + f.val) 0x050, T.HST, 0, 5)
  | _ => none

/-- What the receiving station does with a failure notice (R168). -/
def countLost (who : Who) (cmp a : Nat) (k : Kind) (d : Dev) : Dev :=
  match lostHome who cmp with
  | none => d
  | some (kl, kf, ty, inst, n) =>
    let d1 := match who with
      | .coach m => countY m.val (0x200 + 4 * cmp) 1 d
      | _ => bump kl d
    let d2 := ccount cmp 10 1 <| if bit (rd64 d1 kf) 63 then d1 else wr64 kf (2 ^ 63 + k.code * 2 ^ 56 + a % 2 ^ 48) d1
    let low := match who with
      | .host f => f.val
      | _ => cmp
    flag0 ty inst n (k.code * 256 + low) d2

/-- A core, by holder id. -/
def getCore (d : Dev) (h : Nat) : Core := Map.get (fun _ => ({} : Core)) d.cores.cores h

/-- Changing a core. -/
def updCore (h : Nat) (f : Core → Core) (d : Dev) : Dev :=
  { d with cores := { d.cores with cores := Map.upd (fun _ => ({} : Core)) d.cores.cores h f } }

/-- The holder id of a core: coaches 0 to 63, CTL0 to CTL3 64 to 67 (R161). -/
def holderOf : Who → Option Nat
  | .coach n => some n.val
  | .ctl n => some (64 + n.val)
  | _ => none

/-- What the initiator's block does with a failure notice beyond the waybill: an intake marks the row (R350), and its
tag is the model's own name of the row, which no record shows. -/
def noticeTag (f : Flight) : Nat := match f.who with
  | .intake _ => 0
  | _ => f.tag

/-- Posting the late-failure event of a write whose waybill has completed (R169). An intake runs no waybill. -/
def lateFailure (f : Flight) (k : Kind) (d : Dev) : Dev :=
  match f.who with
  | .intake _ => push (.rowLost f.tag) d
  | _ =>
    if (getCmp d f.cmp).quiet then d
    else post f.cmp { kind := 0x01, subkind := k.code, unit := f.who.unitId, subject := f.cmp, addr := f.addr,
                      tag := f.tag } d

/-- A refused write of an engine ends its job ABORT_FAULT (R169). -/
def refuseJob (u serial : Nat) (d : Dev) : Dev :=
  match runOf d u with
  | some r =>
    if r.serial = serial then
      let e := r.ended.getD { unit := u }
      setRun u (some { r with ended := some (if 0x20 ≤ e.status then e else { e with status := 0x23 }) }) d
    else d
  | none => d

/-- A refused posted write of a core (R169, R239, R242): a stream engine's ends the waybill ABORT_FAULT, and so does any
that arrives after `done` or `abort`; else an imprecise access fault becomes pending, and a further one is only
counted. -/
def refuseWrite (h : Nat) (f : Flight) (d : Dev) : Dev :=
  let fault := fun (d : Dev) => updCore h (fun c =>
    if c.pending.isNone then { c with pending := some f.addr } else { c with imprecise := c.imprecise + 1 }) d
  match runOf d h with
  | some r =>
    if r.serial ≠ f.serial then d
    else if r.ended.isSome then refuseJob h f.serial d
    else if f.stream then
    updCore h (fun c => { c with wait := .drain, streams := [], mode := if c.mode = .debugHalt then .debugHalt else .waiting })
      (refuseJob h f.serial d)
    else fault d
  | none => if (getCore d h).resident && f.serial = 0 then fault d else d

/-- A failure notice arrives (R168, R169): counted at the station; the core's count for `fence` rises; a refusal makes
the core take an imprecise access fault; another kind marks the waybill that still runs, or posts a late-failure
event. -/
def failureNotice (f : Flight) (k : Kind) (d : Dev) : Dev :=
  let d1 := cper { cls := 0x05, block := match f.who with
                     | .coach _ => T.YRD
                     | .engine n => (unitPage (0x48 + n.val)).1
                     | .intake _ => T.INK
                     | .host _ => T.HST
                     | .fgs => T.FGS
                     | .ctl _ => T.CTL
                     | _ => T.DPT,
                   inst := match f.who with
                     | .coach n => n.val
                     | .engine n => (unitPage (0x48 + n.val)).2
                     | .intake n => n.val
                     | .ctl n => n.val
                     | _ => 0,
                   cmp := some f.cmp, addr := f.addr, tag := noticeTag f, unit := f.who.unitId, detail := k.code }
    (countLost f.who f.cmp f.addr k d)
  let d2 := match holderOf f.who with
    | some h => updCore h (fun c => { c with fence := c.fence + 1 }) d1
    | none => d1
  if k.isRefusal then (match f.who with
    | .intake _ => push (.rowLost f.tag) d2
    | .engine n => refuseJob (0x48 + n.val) f.serial d2
    | w => match holderOf w with
      | some h => refuseWrite h f d2
      | none => d2)
  else
    match runOf d2 f.who.unitId with
    | some r =>
      if r.serial = f.serial then setRun f.who.unitId (some { r with lost := true }) d2 else lateFailure f k d2
    | none => lateFailure f k d2

end Sys2Proof.Machine
end

