-- ==== Sys2Proof/Machine/Flags.lean ====
section
/-! DEFINITION. Floating-point numbers as exact dyadic values, one rounding, and the exception flags of FPFLAGS
(R222 to R224, R229). -/

namespace Sys2Proof.Machine

/-! ### FPFLAGS -/

/-- The bits of FPFLAGS (CSR 0x008). -/
def fNX : Nat := 2
def fUF : Nat := 4
def fOF : Nat := 8
def fNV : Nat := 16
def fDZ : Nat := 32
def fACC : Nat := 64

/-! ### Formats -/

/-- A binary format: exponent and mantissa bits. E4M3 has no infinity and one NaN magnitude. -/
structure Fmt where
  e  : Nat
  m  : Nat
  fn : Bool := false
deriving DecidableEq, Repr

def fmtFp32 : Fmt := ⟨8, 23, false⟩
def fmtBf16 : Fmt := ⟨8, 7, false⟩
def fmtFp16 : Fmt := ⟨5, 10, false⟩
def fmtE4m3 : Fmt := ⟨4, 3, true⟩
def fmtE5m2 : Fmt := ⟨5, 2, false⟩

namespace Fmt
def bias (f : Fmt) : Nat := 2 ^ (f.e - 1) - 1
def signBit (f : Fmt) : Nat := 2 ^ (f.e + f.m)
/-- The exponent of the least subnormal bit. -/
def qmin (f : Fmt) : Int := 1 - (f.bias : Int) - f.m
/-- The largest finite magnitude. -/
def maxBits (f : Fmt) : Nat := if f.fn then 2 ^ (f.e + f.m) - 2 else (2 ^ f.e - 1) * 2 ^ f.m - 1
/-- The magnitude that an overflow gives: infinity, or NaN in E4M3 (R224). -/
def infBits (f : Fmt) : Nat := if f.fn then 2 ^ (f.e + f.m) - 1 else (2 ^ f.e - 1) * 2 ^ f.m
/-- The canonical quiet NaN (R223). -/
def nan (f : Fmt) : Nat := if f.fn then 2 ^ (f.e + f.m) - 1 else (2 ^ f.e - 1) * 2 ^ f.m + 2 ^ (f.m - 1)
/-- The designated invalid code: the canonical quiet NaN with its lowest bit set (R223, R325). -/
def invalid (f : Fmt) : Nat := f.nan + 1
end Fmt

/-- A decoded number: the designated invalid code, another NaN (signalling or not), an infinity, or mant × 2^exp. -/
inductive FpVal where
  | bad
  | nan (signal : Bool)
  | inf (neg : Bool)
  | fin (neg : Bool) (mant : Nat) (exp : Int)
deriving DecidableEq, Repr

/-- Decoding the bits of a format. FP8 formats have no designated code. -/
def Fmt.decode (f : Fmt) (x : Nat) : FpVal :=
  let neg := fld x (f.e + f.m) (f.e + f.m) = 1
  let ex := fld x (f.e + f.m - 1) f.m
  let ma := x % 2 ^ f.m
  if f.fn then
    (if ex = 2 ^ f.e - 1 && ma = 2 ^ f.m - 1 then .nan false
     else if ex = 0 then .fin neg ma f.qmin
     else .fin neg (ma + 2 ^ f.m) (f.qmin + ex - 1))
  else if ex = 2 ^ f.e - 1 then
    (if ma = 0 then .inf neg
     else if 7 ≤ f.m && x % 2 ^ (f.e + f.m + 1) = f.invalid then .bad
     else .nan (!(x.testBit (f.m - 1))))
  else if ex = 0 then .fin neg ma f.qmin
  else .fin neg (ma + 2 ^ f.m) (f.qmin + ex - 1)

/-! ### Rounding -/

/-- Whether the magnitude is rounded up: the modes of RMODE[1:0] (R224), given the last bit kept and how the remainder
compares with half (0 zero, 1 below, 2 half, 3 above). -/
def roundUp (mode : Nat) (neg odd : Bool) (rem : Nat) : Bool :=
  match mode % 4 with
  | 0 => rem = 3 || (rem = 2 && odd)
  | 1 => false
  | 2 => neg && rem ≠ 0
  | _ => !neg && rem ≠ 0

/-- A magnitude shifted right by `s` bits and rounded: the result, and whether it is inexact. `sticky` says that the
exact value is a little larger. -/
def shiftRound (mode : Nat) (neg : Bool) (mant s : Nat) (sticky : Bool) : Nat × Bool :=
  let k := mant >>> s
  let r := mant % 2 ^ s
  let half := 2 ^ s / 2
  let rem := if r = 0 && !sticky then 0
    else if s = 0 then 1
    else if r < half then 1
    else if r = half && !sticky then 2
    else 3
  (if roundUp mode neg (k % 2 = 1) rem then k + 1 else k, rem ≠ 0)

/-- Rounding an exact value to a format (R222, R224): the bits and the flags. -/
def Fmt.round (f : Fmt) (mode : Nat) (neg : Bool) (mant : Nat) (exp : Int) (sticky : Bool := false) (sat : Bool := false) :
    Nat × Nat :=
  let sg := if neg then f.signBit else 0
  if mant = 0 then (sg, 0)
  else
    let len := Nat.log2 mant + 1
    let q := max (exp + len - 1 - f.m) f.qmin
    let up := (exp - q).toNat
    let r := if q ≤ exp then ((mant <<< up), sticky) else shiftRound mode neg mant (q - exp).toNat sticky
    let k := r.1
    let carry := decide (2 ^ (f.m + 1) ≤ k)
    let k2 := if carry then k / 2 else k
    let q2 := if carry then q + 1 else q
    let field := (q2 - f.qmin + 1).toNat
    let bits := if k2 < 2 ^ f.m then k2 else (field - 1) * 2 ^ f.m + k2
    let tiny := decide (exp + len - 1 < f.qmin + f.m) &&
      (Config.tinyBefore || decide (bits < 2 ^ f.m) ||
        decide ((shiftRound mode neg mant (len - 1 - f.m) sticky).1 < 2 ^ (f.m + 1)))
    if f.maxBits < bits then
      let toMax := sat || mode % 4 = 1 || (mode % 4 = 2 && !neg) || (mode % 4 = 3 && neg)
      (sg + (if toMax then f.maxBits else f.infBits), fOF + fNX)
    else (sg + bits, (if r.2 then fNX else 0) + (if r.2 && tiny then fUF else 0))

/-! ### Operations on values -/

/-- The integer mantissa of a finite value at a lower exponent. -/
def scaleTo (e : Int) (neg : Bool) (mant : Nat) (exp : Int) : Int :=
  let v : Int := ((mant <<< (exp - e).toNat : Nat) : Int)
  if neg then -v else v

/-- The exact sum of finite values, as a signed mantissa and an exponent. -/
def sumExact (xs : List (Bool × Nat × Int)) : Int × Int :=
  let e := xs.foldl (fun m x => if x.2.1 = 0 then m else min m x.2.2) (xs.foldl (fun m x => max m x.2.2) (-100000))
  (xs.foldl (fun s x => if x.2.1 = 0 then s else s + scaleTo e x.1 x.2.1 x.2.2) 0, e)

/-- Rounding an exact signed value; an exact zero that comes of unlike signs is +0, or −0 when rounding down. -/
def Fmt.roundInt (f : Fmt) (mode : Nat) (v : Int) (e : Int) (zeroNeg : Bool) : Nat × Nat :=
  if v = 0 then ((if zeroNeg then f.signBit else 0), 0) else f.round mode (decide (v < 0)) v.natAbs e

/-- NaN results of an arithmetic operation by R223 rules 1 and 2: the bits and flags, when one applies. -/
def nanOf (f : Fmt) (xs : List FpVal) : Option (Nat × Nat) :=
  if xs.any (fun x => x = .bad) then some (f.invalid, 0)
  else if xs.any (fun x => x = .nan true) then some (f.nan, fNV)
  else if xs.any (fun x => x = .nan false) then some (f.nan, 0)
  else none

/-- A product of two values that are no NaN: none for an infinity times zero. -/
def mulVal : FpVal → FpVal → Option FpVal
  | .fin a m e, .fin b n g => some (.fin (a != b) (m * n) (e + g))
  | .inf a, .fin b n _ => if n = 0 then none else some (.inf (a != b))
  | .fin a m _, .inf b => if m = 0 then none else some (.inf (a != b))
  | .inf a, .inf b => some (.inf (a != b))
  | _, _ => none

/-- Changing the sign of a value. -/
def negVal : FpVal → FpVal
  | .inf a => .inf (!a)
  | .fin a m e => .fin (!a) m e
  | x => x

/-- The sum of two values that are no NaN, rounded once: an invalid operation for infinities of unlike signs. -/
def Fmt.addVal (f : Fmt) (mode : Nat) (x y : FpVal) : Nat × Nat :=
  match x, y with
  | .inf a, .inf b => if a = b then ((if a then f.signBit else 0) + f.infBits, 0) else (f.nan, fNV)
  | .inf a, _ => ((if a then f.signBit else 0) + f.infBits, 0)
  | _, .inf b => ((if b then f.signBit else 0) + f.infBits, 0)
  | .fin a m e, .fin b n g =>
    let s := sumExact [(a, m, e), (b, n, g)]
    let zn := if m = 0 && n = 0 then (if a = b then a else mode % 4 = 2) else mode % 4 = 2
    f.roundInt mode s.1 s.2 zn
  | _, _ => (f.nan, fNV)

/-- add (R222, R223). -/
def Fmt.add (f : Fmt) (mode x y : Nat) : Nat × Nat :=
  let a := f.decode x
  let b := f.decode y
  (nanOf f [a, b]).getD (f.addVal mode a b)

/-- sub. -/
def Fmt.sub (f : Fmt) (mode x y : Nat) : Nat × Nat :=
  let a := f.decode x
  let b := f.decode y
  (nanOf f [a, b]).getD (f.addVal mode a (negVal b))

/-- Rounding a value that is no NaN. -/
def Fmt.roundVal (f : Fmt) (mode : Nat) : FpVal → Nat × Nat
  | .inf a => ((if a then f.signBit else 0) + f.infBits, 0)
  | .fin a m e => f.round mode a m e
  | _ => (f.nan, fNV)

/-- mul. -/
def Fmt.mul (f : Fmt) (mode x y : Nat) : Nat × Nat :=
  let a := f.decode x
  let b := f.decode y
  (nanOf f [a, b]).getD (match mulVal a b with
    | some v => f.roundVal mode v
    | none => (f.nan, fNV))

/-- fma: x × y + z, or with `minus` x × y − z, rounded once (R222). -/
def Fmt.fma (f : Fmt) (mode x y z : Nat) (minus : Bool) : Nat × Nat :=
  let a := f.decode x
  let b := f.decode y
  let c := if minus then negVal (f.decode z) else f.decode z
  (nanOf f [a, b, c]).getD (match mulVal a b with
    | some v => f.addVal mode v c
    | none => (f.nan, fNV))

/-- The quotient of two numbers, rounded once: the ledger's division (R457). -/
def Fmt.div (f : Fmt) (mode x y : Nat) : Nat × Nat :=
  let a := f.decode x
  let b := f.decode y
  (nanOf f [a, b]).getD (match a, b with
    | .inf _, .inf _ => (f.nan, fNV)
    | .inf s, .fin t _ _ => ((if s != t then f.signBit else 0) + f.infBits, 0)
    | .fin s _ _, .inf t => ((if s != t then f.signBit else 0), 0)
    | .fin s m e, .fin t n g =>
      if n = 0 then (if m = 0 then (f.nan, fNV) else ((if s != t then f.signBit else 0) + f.infBits, fDZ))
      else
        let k := 80
        f.round mode (s != t) ((m <<< k) / n) (e - g - k) ((m <<< k) % n ≠ 0)
    | _, _ => (f.nan, fNV))

/-- A natural number in a format. -/
def Fmt.ofNat (f : Fmt) (mode n : Nat) : Nat × Nat := f.round mode false n 0

/-- Whether one value is below another: none when they cannot be ordered. -/
def ltVal : FpVal → FpVal → Option Bool
  | .fin a m e, .fin b n g =>
    let l := min e g
    some (decide (scaleTo l a m e < scaleTo l b n g))
  | .inf a, .inf b => some (a && !b)
  | .inf a, .fin _ _ _ => some a
  | .fin _ _ _, .inf b => some (!b)
  | _, _ => none

/-- Whether two values are equal. -/
def eqVal (x y : FpVal) : Bool :=
  match ltVal x y, ltVal y x with
  | some false, some false => true
  | _, _ => false

/-- min and max (R223): the designated code, then the operand that is a number, then the lesser or greater, −0 below
+0. One ordinary NaN operand gives the other operand, and two give the canonical NaN (DEDUCED, log entry 184). -/
def Fmt.minMax (f : Fmt) (isMax : Bool) (x y : Nat) : Nat × Nat :=
  let a := f.decode x
  let b := f.decode y
  let isNan : FpVal → Bool := fun v => match v with
    | FpVal.nan _ => true
    | _ => false
  let fl := if a = .nan true || b = .nan true then fNV else 0
  if a = .bad || b = .bad then (f.invalid, 0)
  else if isNan a && isNan b then (f.nan, fl)
  else if isNan a then (y, fl)
  else if isNan b then (x, fl)
  else
    let less := ltVal a b = some true || (eqVal a b && f.signBit ≤ x && y < f.signBit)
    (if less != isMax then x else y, 0)

/-- Whether bits are any NaN, the designated code included. -/
def Fmt.isNan (f : Fmt) (x : Nat) : Bool := match f.decode x with
  | .bad => true
  | .nan _ => true
  | _ => false

/-! ### Conversions (R224) -/

/-- Converting a number to a format (R224). `sat` is FP8_SAT and concerns FP8 destinations only. With it an infinity gives the
largest finite value, and the NaN of an FP8 format takes the operand's sign (DESIGN CHOICE, log entry 185). -/
def convertFp (dst : Fmt) (mode : Nat) (sat : Bool) (v : FpVal) (nanSign : Bool) : Nat × Nat :=
  let small := decide (dst.m < 7)
  match v with
  | .bad => if small then (fp8Nan dst nanSign, 0) else (dst.invalid, 0)
  | .nan s => (if small then fp8Nan dst nanSign else dst.nan, if s then fNV else 0)
  | .inf a => ((if a then dst.signBit else 0) + (if small && sat then dst.maxBits else dst.infBits), 0)
  | .fin a m e =>
    if small then
      -- an overflow gives the largest finite value, or NaN or infinity, by FP8_SAT alone
      let r := dst.round mode a m e
      if r.2.testBit 3 then ((if a then dst.signBit else 0) + (if sat then dst.maxBits else dst.infBits), r.2) else r
    else dst.round mode a m e
where
  /-- The NaN of an FP8 format: 0x7F or 0xFF in E4M3, a NaN of its own choosing in E5M2. -/
  fp8Nan (f : Fmt) (neg : Bool) : Nat :=
    (if neg then f.signBit else 0) +
      (if f.fn then f.infBits else f.infBits + 1 + (Config.nanE5m2 (b2n neg)).toNat % 3)

/-- Converting a number to an integer range: saturating, NaN to 0 with NV (R224). -/
def convertInt (lo hi : Int) (mode : Nat) (v : FpVal) : Int × Nat :=
  match v with
  | .bad => (0, fNV)
  | .nan _ => (0, fNV)
  | .inf a => (if a then lo else hi, fNV)
  | .fin a m e =>
    let r := if 0 ≤ e then (m <<< e.toNat, false) else shiftRound mode a m (-e).toNat false
    let i : Int := if a then -(r.1 : Int) else r.1
    if i < lo then (lo, fNV) else if hi < i then (hi, fNV) else (i, if r.2 then fNX else 0)

end Sys2Proof.Machine
end

