-- ==== Sys2Proof/Machine/Operands.lean ====
section
/-! DEFINITION. The operands of core instructions: scalar registers, vector elements, predicates and accumulators with
their poison bits (R212, R213, R250), and what every operation computes on them (R219 to R230). -/

namespace Sys2Proof.Machine

/-- A value with its poison bit. -/
abbrev PVal := Nat × Bool

/-! ### Waiting -/

/-- A core that waited goes on; a halted one stays halted. -/
def Core.goes (c : Core) : Core := { c with wait := .none, mode := if c.mode = .debugHalt then .debugHalt else .running }

/-- A core waits. -/
def Core.waits (w : WaitFor) (c : Core) : Core :=
  { c with wait := w, mode := if c.mode = .debugHalt then .debugHalt else .waiting }

/-! ### Registers -/

/-- A scalar register; s0 reads as zero (R212, R213). -/
def Core.sReg (c : Core) (r : Nat) : PVal :=
  let v := Map.get (fun _ => 0) c.s r
  if r % 32 = 0 then (0, false) else (v % 2 ^ 64, bit v 64)

/-- Writing a scalar register; a write to s0 is discarded. -/
def Core.setS (r v : Nat) (poison : Bool) (c : Core) : Core :=
  if r % 32 = 0 then c else { c with s := Map.set (fun _ => 0) c.s (r % 32) (v % 2 ^ 64 + b2n poison * 2 ^ 64) }

/-- A vector lane. -/
def Core.lane (c : Core) (r i : Nat) : PVal :=
  let v := Map.get (fun _ => 0) c.v (64 * r + i)
  (v % 2 ^ 32, bit v 32)

/-- Writing a vector lane. -/
def Core.setLane (r i : Nat) (x : PVal) (c : Core) : Core :=
  { c with v := Map.set (fun _ => 0) c.v (64 * r + i) (x.1 % 2 ^ 32 + b2n x.2 * 2 ^ 32) }

/-- Writing the 64 lanes of a register. -/
def Core.setLanes (r : Nat) (xs : List PVal) (c : Core) : Core :=
  foldBelow 64 (fun i c => c.setLane r i (xs.getD i (0, false))) c

/-- The elements of a register at a width of 4, 8, 16 or 32 bits, each with the poison of its lane (R212). -/
def Core.elems (c : Core) (r w : Nat) : List PVal :=
  let per := 32 / w
  (List.range (64 * per)).map (fun i =>
    let l := c.lane r (i / per)
    (fld l.1 (w * (i % per) + w - 1) (w * (i % per)), l.2))

/-- Packing elements into the lanes of a register: a lane is poisoned when one of its elements is. -/
def Core.setElems (r w : Nat) (xs : List PVal) (c : Core) : Core :=
  let per := 32 / w
  c.setLanes r ((List.range 64).map (fun l =>
    let es := (xs.drop (per * l)).take per
    (es.foldr (fun x a => x.1 % 2 ^ w + a * 2 ^ w) 0, es.any (·.2))))

/-- A predicate; p0 reads as all ones (R212). -/
def Core.pred (c : Core) (p : Nat) : Nat := if p % 8 = 0 then 2 ^ 256 - 1 else Map.get (fun _ => 0) c.p (p % 8)

/-- Writing a predicate; a write to p0 is discarded. -/
def Core.setPred (p v : Nat) (c : Core) : Core :=
  if p % 8 = 0 then c else { c with p := Map.set (fun _ => 0) c.p (p % 8) (v % 2 ^ 256) }

/-- Setting exception flags. -/
def Core.raiseFp (fl : Nat) (c : Core) : Core := { c with fpflags := c.fpflags ||| fl }

/-- What a predicated operation leaves in its destination: predicated-off elements keep their value, or with `pz` become
zero (R218). -/
def predicated (p : Nat) (pz : Bool) (old new : List PVal) : List PVal :=
  (List.range new.length).map (fun i =>
    if p.testBit i then new.getD i (0, false) else if pz then (0, false) else old.getD i (0, false))

/-- Writing the results of an element-wise operation under a predicate. -/
def Core.writeElems (vd w p : Nat) (pz : Bool) (xs : List PVal) (c : Core) : Core :=
  c.setElems vd w (predicated (c.pred p) pz (c.elems vd w) xs)

/-! ### Scalar operations (R219, R221) -/

/-- A scalar ALU result on 64-bit operands and its flags. -/
def scalarOp (op : ScalarOp) (a b : Nat) : Nat × Nat :=
  let s := toSigned 64 a
  let t := toSigned 64 b
  let m := 2 ^ 64
  match op with
  | .add => ((a + b) % m, 0)
  | .sub => ((a + m - b) % m, 0)
  | .and => (a &&& b, 0)
  | .or => (a ||| b, 0)
  | .xor => (a ^^^ b, 0)
  | .sll => (if 64 ≤ b then 0 else (a <<< b) % m, 0)
  | .srl => (if 64 ≤ b then 0 else a >>> b, 0)
  | .sra => (if 64 ≤ b then (if s < 0 then m - 1 else 0) else ofSigned 64 (s / (2 ^ b : Nat)), 0)
  | .slt => (b2n (decide (s < t)), 0)
  | .sltu => (b2n (decide (a < b)), 0)
  | .mul => (a * b % m, 0)
  | .mulh => (ofSigned 64 (s * t / (2 ^ 64 : Nat)), 0)
  | .mulhu => (a * b / m, 0)
  | .div => if b = 0 then (m - 1, fDZ) else (ofSigned 64 (s.tdiv t), 0)
  | .divu => if b = 0 then (m - 1, fDZ) else (a / b, 0)
  | .rem => if b = 0 then (a, fDZ) else (ofSigned 64 (s.tmod t), 0)
  | .remu => if b = 0 then (a, fDZ) else (a % b, 0)
  | .min => (if s ≤ t then a else b, 0)
  | .max => (if s ≤ t then b else a, 0)
  | .minu => (min a b, 0)
  | .maxu => (max a b, 0)

/-- A 16-bit immediate, sign-extended to 64 bits (R218). -/
def imm64 (i : BitVec 16) : Nat := ofSigned 64 i.toInt

/-- A 32-bit immediate, sign-extended to 64 bits. -/
def imm32 (i : W32) : Nat := ofSigned 64 i.toInt

/-- A scalar immediate result; none for a shift kind that the manual does not define. The kinds follow the order of the
shifts in R219. -/
def immOp (op : ImmOp) (a : Nat) (i : BitVec 16) : Option (Nat × Nat) :=
  let x := imm64 i
  match op with
  | .addi => some (scalarOp .add a x)
  | .andi => some (scalarOp .and a x)
  | .ori => some (scalarOp .or a x)
  | .xori => some (scalarOp .xor a x)
  | .slti => some (scalarOp .slt a x)
  | .shift =>
    let n := i.toNat % 64
    if fld i.toNat 15 8 ≠ 0 then none
    else match fld i.toNat 7 6 with
      | 0 => some (scalarOp .sll a n)
      | 1 => some (scalarOp .srl a n)
      | 2 => some (scalarOp .sra a n)
      | _ => none

/-- Whether a branch is taken. -/
def branchTaken (op : BranchOp) (a b : Nat) : Bool :=
  match op with
  | .beq => a = b
  | .bne => a ≠ b
  | .blt => decide (toSigned 64 a < toSigned 64 b)
  | .bge => decide (toSigned 64 b ≤ toSigned 64 a)

/-! ### Vector integer operations (R221) -/

/-- The least and greatest value of an integer element. -/
def Elem.range (e : Elem) : Int × Int :=
  if e.isSigned then (-((2 ^ (e.width - 1) : Nat) : Int), ((2 ^ (e.width - 1) : Nat) : Int) - 1)
  else (0, ((2 ^ e.width : Nat) : Int) - 1)

/-- The number an integer element stands for. -/
def Elem.toInt (e : Elem) (x : Nat) : Int := if e.isSigned then toSigned e.width x else x

/-- One element of a vector integer operation: `acc` is the destination's old element. -/
def vecInt (e : Elem) (op : VIntOp) (a b acc : Nat) : Nat :=
  let w := e.width
  let s := e.toInt a
  let t := e.toInt b
  let r := e.range
  match op with
  | .add => ofSigned w (s + t)
  | .sub => ofSigned w (s - t)
  | .mul => ofSigned w (s * t)
  | .mulhi => ofSigned w (s * t / (2 ^ w : Nat))
  | .mac => ofSigned w (e.toInt acc + s * t)
  | .and => a &&& b
  | .or => a ||| b
  | .xor => a ^^^ b
  | .sll => if w ≤ b then 0 else (a <<< b) % 2 ^ w
  | .srl => if w ≤ b then 0 else a >>> b
  | .sra => if w ≤ b then (if toSigned w a < 0 then 2 ^ w - 1 else 0) else ofSigned w (toSigned w a / (2 ^ b : Nat))
  | .min => if s ≤ t then a else b
  | .max => if s ≤ t then b else a
  | .abs => ofSigned w s.natAbs
  | .sadd => ofSigned w (clampInt r.1 r.2 (s + t))
  | .ssub => ofSigned w (clampInt r.1 r.2 (s - t))

/-! ### Vector float operations (R222, R223) -/

/-- The format of a float element. -/
def Elem.fmt (e : Elem) : Fmt :=
  match e with
  | .bf16 => fmtBf16
  | .fp16 => fmtFp16
  | _ => fmtFp32

/-- A free word as the result of arithmetic on valid operands: a NaN that arises there is the canonical one (R334). -/
def Fmt.arisen (f : Fmt) (x : Nat) : Nat := if f.isNan x then f.nan else x

/-- An estimate: the special operands as IEEE 754 gives 1/x and 1/√x, any other by the implementation's table. -/
def estimate (e : Elem) (root : Bool) (x : Nat) : Nat × Nat :=
  let f := e.fmt
  let v := f.decode x
  (nanOf f [v]).getD (match v with
    | .inf s => if root && s then (f.nan, fNV) else (if s then f.signBit else 0, 0)
    | .fin s m _ =>
      if m = 0 then ((if s then f.signBit else 0) + f.infBits, fDZ)
      else if root && s then (f.nan, fNV)
      else
        (f.arisen ((if root then Config.rsqrtEstimate e.code x else Config.recipEstimate e.code x).toNat % 2 ^ e.width), 0)
    | _ => (f.nan, 0))

/-- A sign operation: NaNs by R223; it signals no exception (IEEE 754-2019 5.5.1, R222). -/
def signOp (f : Fmt) (neg : Bool) (x : Nat) : Nat × Nat :=
  (((nanOf f [f.decode x]).map (·.1)).getD (if neg then x ^^^ f.signBit else x % f.signBit), 0)

/-- One element of a vector float operation: `acc` is the destination's old element. -/
def vecFloat (e : Elem) (mode : Nat) (op : VFltOp) (a b acc : Nat) : Nat × Nat :=
  let f := e.fmt
  match op with
  | .add => f.add mode a b
  | .sub => f.sub mode a b
  | .mul => f.mul mode a b
  | .fma => f.fma mode a b acc false
  | .fms => f.fma mode a b acc true
  | .min => f.minMax false a b
  | .max => f.minMax true a b
  | .abs => signOp f false a
  | .neg => signOp f true a
  | .recip => estimate e false a
  | .rsqrt => estimate e true a

/-- One element of a compare, and its flags; none for a test that integers do not have. lt and le signal NV for every NaN
operand, eq and ne for a signaling one (R222, DESIGN CHOICE, log entry 182). -/
def vecCompare (e : Elem) (op : VCmpOp) (a b : Nat) : Option (Bool × Nat) :=
  if e.isFloat then
    let f := e.fmt
    let x := f.decode a
    let y := f.decode b
    let nan := f.isNan a || f.isNan b
    let sig := if x = .nan true || y = .nan true then fNV else 0
    match op with
    | .eq => some (eqVal x y, sig)
    | .ne => some (!eqVal x y, sig)
    | .lt => some (ltVal x y = some true, if nan then fNV else 0)
    | .le => some (ltVal x y = some true || eqVal x y, if nan then fNV else 0)
    | .isnan => some (f.isNan a, 0)
    | .isinvalid => some (x = .bad, 0)
  else
    match op with
    | .eq => some (a = b, 0)
    | .ne => some (a ≠ b, 0)
    | .lt => some (decide (e.toInt a < e.toInt b), 0)
    | .le => some (decide (e.toInt a ≤ e.toInt b), 0)
    | _ => none

/-! ### Conversions (R224) -/

/-- The number of a conversion type, for the free values that depend on it. -/
def ConvType.num : ConvType → Nat
  | .elem e => e.code
  | .e4m3 => 8
  | .e5m2 => 9

/-- The width of a conversion type. -/
def ConvType.width : ConvType → Nat
  | .elem e => e.width
  | .e4m3 => 8
  | .e5m2 => 8

/-- The float format of a conversion type, if it is one. -/
def ConvType.fmt? : ConvType → Option Fmt
  | .elem e => if e.isFloat then some e.fmt else none
  | .e4m3 => some fmtE4m3
  | .e5m2 => some fmtE5m2

/-- Converting one element; `rmode` is RMODE. Every conversion between integer types saturates, a narrowing one or not (R224,
DESIGN CHOICE, log entry 185). -/
def convertElem (src dst : ConvType) (rmode x : Nat) : Nat × Nat :=
  let mode := rmode % 4
  let sat := bit rmode 2
  let val : FpVal := match src with
    | .elem e => if e.isFloat then e.fmt.decode x else
        let i := e.toInt x
        .fin (decide (i < 0)) i.natAbs 0
    | .e4m3 => fmtE4m3.decode x
    | .e5m2 => fmtE5m2.decode x
  match dst with
  | .elem e =>
    if e.isFloat then convertFp e.fmt mode false val false
    else
      let r := e.range
      match src with
      | .elem s =>
        if s.isFloat then
          let v := convertInt r.1 r.2 mode val
          (ofSigned e.width v.1, v.2)
        else (ofSigned e.width (clampInt r.1 r.2 (s.toInt x)), 0)
      | _ =>
        let v := convertInt r.1 r.2 mode val
        (ofSigned e.width v.1, v.2)
  | .e4m3 => convertFp fmtE4m3 mode sat val (bit x (src.width - 1))
  | .e5m2 => convertFp fmtE5m2 mode sat val (bit x (src.width - 1))

/-! ### Vector instructions on a core -/

/-- An element-wise operation of one register or two and the destination's old value, with flags gathered over the elements
that the predicate lets through. -/
def Core.elementwise (vd va vb w p : Nat) (pz acc two : Bool) (f : Nat → Nat → Nat → Nat × Nat) (c : Core) : Core :=
  let as := c.elems va w
  let bs := c.elems vb w
  let ds := c.elems vd w
  let rs := (List.range as.length).map (fun i =>
    let a := as.getD i (0, false)
    let b := bs.getD i (0, false)
    let o := ds.getD i (0, false)
    let r := f a.1 b.1 o.1
    ((r.1, a.2 || (two && b.2) || (acc && o.2)), r.2))
  let fl := (List.range rs.length).foldl (fun x i =>
    if (c.pred p).testBit i then x ||| (rs.getD i ((0, false), 0)).2 else x) 0
  (c.writeElems vd w p pz (rs.map (·.1))).raiseFp fl

/-- Vector integer (opcode 0x18). -/
def Core.vint (e : Elem) (op : VIntOp) (vd va vb p : Nat) (pz : Bool) (c : Core) : Core :=
  c.elementwise vd va vb e.width p pz (op = .mac) (op ≠ .abs) (fun a b o => (vecInt e op a b o, 0))

/-- Vector float (opcode 0x19). -/
def Core.vflt (e : Elem) (op : VFltOp) (vd va vb p : Nat) (pz : Bool) (c : Core) : Core :=
  c.elementwise vd va vb e.width p pz (op = .fma || op = .fms)
    (!(op = .abs || op = .neg || op = .recip || op = .rsqrt)) (vecFloat e c.rmode op)

/-- Compare into a predicate (opcode 0x1A): the bits of the elements are written, the others stay. -/
def Core.vcmp (e : Elem) (op : VCmpOp) (pd va vb p : Nat) (pz : Bool) (c : Core) : Core :=
  let as := c.elems va e.width
  let bs := c.elems vb e.width
  let r := (List.range as.length).foldl (fun (r : Nat × Nat) i =>
    let x := (vecCompare e op (as.getD i (0, false)).1 (bs.getD i (0, false)).1).getD (false, 0)
    if (c.pred p).testBit i then (putBit r.1 i x.1, r.2 ||| x.2)
    else if pz then (clrBit r.1 i, r.2) else r) (c.pred pd, 0)
  (c.setPred pd r.1).raiseFp r.2

/-- The sum of floating-point elements: computed exactly and rounded once in a 16-bit format; in FP32, where the order of
the additions is open, a free value with those free flags that a sum can raise; with no element +0 and no flag (R222, R223,
log entry 24). -/
def reduceSum (e : Elem) (mode : Nat) (xs : List Nat) : Nat × Nat :=
  let f := e.fmt
  let vs := xs.map f.decode
  let pinf := vs.any (· = .inf false)
  let ninf := vs.any (· = .inf true)
  (nanOf f vs).getD (
    if pinf && ninf then (f.nan, fNV)
    else if pinf then (f.infBits, 0)
    else if ninf then (f.signBit + f.infBits, 0)
    else if xs.isEmpty then (0, 0)
    else if e.width = 32 then
      (f.arisen ((Config.reduceSum (4 * e.code + mode) xs).toNat % 2 ^ e.width),
       (Config.reduceFlags (4 * e.code + mode) xs).toNat &&& (fNX + fUF + fOF + fNV))
    else
      let ts := vs.filterMap (fun v => match v with
        | .fin n m x => some (n, m, x)
        | _ => none)
      let s := sumExact ts
      let allZero := ts.all (fun t => t.2.1 = 0)
      let neg := if allZero && ts.all (fun t => t.1) then !ts.isEmpty
                 else if allZero && ts.all (fun t => !t.1) then false else mode % 4 = 2
      f.roundInt mode s.1 s.2 neg)

/-- The sum, maximum or minimum of elements; a maximum or minimum of none is 0 (R222, DESIGN CHOICE, log entry 183). -/
def reduceElems (e : Elem) (op : VPermOp) (mode : Nat) (xs : List Nat) : Nat × Nat :=
  let most := fun (up : Bool) => match xs with
    | [] => ((0, 0) : Nat × Nat)
    | x :: r => r.foldl (fun (a : Nat × Nat) y => let z := e.fmt.minMax up a.1 y; (z.1, a.2 ||| z.2)) (e.fmt.minMax up x x)
  let fold := fun (i : VIntOp) => match xs with
    | [] => ((0, 0) : Nat × Nat)
    | x :: r => (r.foldl (fun a y => vecInt e i a y 0) x, 0)
  if e.isFloat then
    match op with
    | .redMax => most true
    | .redMin => most false
    | _ => reduceSum e mode xs
  else
    match op with
    | .redMax => fold .max
    | .redMin => fold .min
    | _ => (xs.foldl (fun a y => vecInt e .add a y 0) 0, 0)

/-- Permutes and reductions (opcode 0x1B). Broadcast and rotate take their element number from the vb field; a
reduction writes element 0 (log entry 24). -/
def Core.vperm (e : Elem) (op : VPermOp) (vd va vb p : Nat) (pz : Bool) (c : Core) : Core :=
  let w := e.width
  let as := c.elems va w
  let n := as.length
  let at' := fun i => as.getD i (0, false)
  match op with
  | .broadcast => c.writeElems vd w p pz (List.replicate n (at' vb))
  | .shuffle =>
    let is := c.elems vb w
    c.writeElems vd w p pz ((List.range n).map (fun i =>
      let ix := is.getD i (0, false)
      let a := at' (if ix.1 < n then ix.1 else Config.shuffleFar n ix.1 % n)
      (a.1, a.2 || ix.2)))
  | .rotate => c.writeElems vd w p pz ((List.range n).map (fun i =>
      at' ((if Config.rotateDown then i + vb else i + n - vb) % n)))
  | _ =>
    let on := (List.range n).filter (fun i => (c.pred p).testBit i)
    let r := reduceElems e op (c.rmode % 4) (on.map (fun i => (at' i).1))
    let bad := on.any (fun i => (at' i).2)
    let old := c.elems vd w
    (c.setElems vd w ((r.1, bad) :: old.drop 1)).raiseFp r.2

/-- Convert between element types (opcode 0x1C): element i of va becomes element i of vd; elements of vd beyond those
that va holds take values from `rest` (log entry 25). -/
def Core.vconv (src dst : ConvType) (vd va p : Nat) (pz : Bool) (rest : Nat → Nat) (c : Core) : Core :=
  let w := dst.width
  let as := c.elems va src.width
  let old := c.elems vd w
  let rs := (List.range old.length).map (fun i =>
    match as[i]? with
    | some a => let r := convertElem src dst c.rmode a.1; ((r.1, a.2), r.2)
    | none => ((rest i % 2 ^ w, false), 0))
  let fl := (List.range rs.length).foldl (fun x i =>
    if (c.pred p).testBit i then x ||| (rs.getD i ((0, false), 0)).2 else x) 0
  (c.setElems vd w (predicated (c.pred p) pz old (rs.map (·.1)))).raiseFp fl

/-- Moves and predicate logic (opcode 0x1D) on 32-bit lanes; the vb field gives the lane or the 64-bit word (log entry
24). -/
def Core.vmove (op : VMovOp) (vd va vb p : Nat) (pz : Bool) (c : Core) : Core :=
  match op with
  | .scalarToLane => c.setLane vd vb (c.sReg va)
  | .laneToScalar => let l := c.lane va vb; c.setS vd l.1 l.2
  | .predAnd => c.setPred vd (c.pred va &&& c.pred vb)
  | .predOr => c.setPred vd (c.pred va ||| c.pred vb)
  | .predXor => c.setPred vd (c.pred va ^^^ c.pred vb)
  | .predNot => c.setPred vd (2 ^ 256 - 1 - c.pred va)
  | .predToScalar => c.setS vd (fld (c.pred va) (64 * (vb % 4) + 63) (64 * (vb % 4))) false
  | .select =>
    let as := c.elems va 32
    let bs := c.elems vb 32
    let _ := pz
    c.setElems vd 32 ((List.range 64).map (fun i =>
      if (c.pred p).testBit i then as.getD i (0, false) else bs.getD i (0, false)))

/-! ### The matrix unit (R226 to R230) -/

/-- A matrix format (R226). -/
structure MFmt where
  a     : Option Fmt
  w     : Option Fmt
  bits  : Nat
  k     : Nat
  maxK  : Nat
  aSign : Bool := true
deriving DecidableEq, Repr

/-- The format of an fmt code; none when it is reserved. -/
def mfmt (code : Nat) : Option MFmt :=
  match code with
  | 0 => some ⟨none, none, 8, 8, 1024, true⟩
  | 1 => some ⟨none, none, 4, 16, 2048, true⟩
  | 2 => some ⟨some fmtE4m3, some fmtE4m3, 8, 8, 1024, true⟩
  | 3 => some ⟨some fmtE5m2, some fmtE5m2, 8, 8, 1024, true⟩
  | 4 => some ⟨some fmtBf16, some fmtBf16, 16, 4, 512, true⟩
  | 5 => some ⟨some fmtFp16, some fmtFp16, 16, 4, 512, true⟩
  | 6 => some ⟨some fmtE4m3, some fmtE5m2, 8, 8, 1024, true⟩
  | 7 => some ⟨some fmtE5m2, some fmtE4m3, 8, 8, 1024, true⟩
  | 8 => some ⟨none, none, 8, 8, 1024, false⟩
  | _ => none

/-- The class of a format: FLOAT or INT (R226). -/
def MFmt.isFloat (f : MFmt) : Bool := f.a.isSome

/-- An accumulator element. -/
def Core.accElem (c : Core) (a i j : Nat) : Nat := Map.get (fun _ => 0) c.acc ((32 * a + i) * 64 + j)

/-- Writing an accumulator element. -/
def Core.setAcc (a i j v : Nat) (c : Core) : Core :=
  { c with acc := Map.set (fun _ => 0) c.acc ((32 * a + i) * 64 + j) (v % 2 ^ 32) }

/-- The poison bit of an accumulator row. -/
def Core.accPoison (c : Core) (a i : Nat) : Bool := Map.get (fun _ => false) c.accBad (32 * a + i)

/-- Setting the poison bit of an accumulator row. -/
def Core.setAccPoison (a i : Nat) (b : Bool) (c : Core) : Core :=
  { c with accBad := Map.set (fun _ => false) c.accBad (32 * a + i) b }

/-- A byte of a weight buffer with its poison. -/
def Core.wbByte (c : Core) (b o : Nat) : PVal :=
  let v := Map.get (fun _ => 0) c.wb (65536 * b + o)
  (v % 256, bit v 8)

/-- A byte of a weight buffer's metadata with its poison; beyond the 8 KiB of the area it reads as zero (R227, DESIGN CHOICE,
log entry 186). -/
def Core.metaByte (c : Core) (b o : Nat) : PVal :=
  let v := if o < 8192 then Map.get (fun _ => 0) c.wbMeta (8192 * b + o) else 0
  (v % 256, bit v 8)

/-- Weight element j of stored row r. -/
def Core.wElem (c : Core) (b bits r j : Nat) : PVal :=
  let n := (r * 64 + j) * bits
  let o := n / 8
  let x := c.wbByte b o
  if bits = 16 then
    let y := c.wbByte b (o + 1)
    (x.1 + 256 * y.1, x.2 || y.2)
  else if bits = 4 then (x.1 >>> (n % 8) % 16, x.2)
  else x

/-- The nibble of sparsity metadata for group g and column j: two row indices (R227). -/
def Core.nibble (c : Core) (b g j : Nat) : PVal :=
  let x := c.metaByte b (32 * g + j / 2)
  (x.1 >>> (4 * (j % 2)) % 16, x.2)

/-- Weight W[r][j], dense or 2:4 sparse (R227). -/
def Core.weight (c : Core) (b bits : Nat) (sp : Bool) (r j : Nat) : PVal :=
  if !sp then c.wElem b bits r j
  else
    let n := c.nibble b (r / 4) j
    if r % 4 = n.1 % 4 then let w := c.wElem b bits (2 * (r / 4)) j; (w.1, w.2 || n.2)
    else if r % 4 = n.1 / 4 then let w := c.wElem b bits (2 * (r / 4) + 1) j; (w.1, w.2 || n.2)
    else (0, n.2)

/-- Whether every metadata nibble that an mma reads names two ascending rows. -/
def Core.metaOk (c : Core) (b koff k : Nat) : Bool :=
  (List.range (k / 4)).all (fun g => (List.range 64).all (fun j =>
    let n := (c.nibble b (koff / 4 + g) j).1
    decide (n % 4 < n / 4)))

/-- Activation A[i][k] (R226). -/
def Core.activation (c : Core) (f : MFmt) (sp : Bool) (va i k : Nat) : PVal :=
  let r := if sp && f.k ≤ k then va + 1 else va
  let kk := if sp then k % f.k else k
  let n := (32 * kk + i) * f.bits
  let l := c.lane r (n / 32)
  (fld l.1 (n % 32 + f.bits - 1) (n % 32), l.2)

/-- A sum of products for a FLOAT accumulator, rounded once (R229). -/
def floatDot (a w : Fmt) (old : Nat) (xs : List (Nat × Nat)) : Nat :=
  let o := fmtFp32.decode old
  let ps := xs.map (fun x => (a.decode x.1, w.decode x.2))
  if o = .bad || ps.any (fun p => p.1 = .bad || p.2 = .bad) then fmtFp32.invalid
  else
    let prods := ps.map (fun p => mulVal p.1 p.2)
    let vs := some o :: prods
    let nan := (fmtFp32.isNan old) || prods.any Option.isNone
    let pinf := vs.any (· = some (.inf false))
    let ninf := vs.any (· = some (.inf true))
    if nan || (pinf && ninf) then fmtFp32.nan
    else if pinf then fmtFp32.infBits
    else if ninf then fmtFp32.signBit + fmtFp32.infBits
    else
      let s := sumExact (vs.filterMap (fun v => match v with
        | some (.fin n m e) => some (n, m, e)
        | _ => none))
      (fmtFp32.roundInt 0 s.1 s.2 false).1

/-- A sum of products for an INT accumulator: the wrapped value, and whether it wrapped (R228). -/
def intDot (bits : Nat) (aSign : Bool) (old : Nat) (xs : List (Nat × Nat)) : Nat × Bool :=
  let s := xs.foldl (fun (s : Int) x =>
    s + (if aSign then toSigned bits x.1 else (x.1 : Int)) * toSigned bits x.2) (toSigned 32 old)
  (ofSigned 32 s, decide (s < -2147483648) || decide (2147483647 < s))

/-- mma on checked operands (R226, R250). -/
def Core.mma (f : MFmt) (ad va koff b : Nat) (sp z : Bool) (c : Core) : Core :=
  let kn := if sp then 2 * f.k else f.k
  let ws := (List.range 64).map (fun j => (List.range kn).map (fun k => c.weight b f.bits sp (koff + k) j))
  let reads := fun i => (List.range kn).map (fun k => c.activation f sp va i k)
  -- a poisoned lane or byte that it reads poisons every row it adds into (R250)
  let anyBad := ws.any (fun col => col.any (·.2)) || (List.range 32).any (fun i => (reads i).any (·.2))
  let c1 := foldBelow 32 (fun i (c' : Core) =>
    let as := reads i
    let bad := anyBad || (!z && c.accPoison ad i)
    let c2 := foldBelow 64 (fun j (c3 : Core) =>
      let xs := (as.map (·.1)).zip ((ws.getD j []).map (·.1))
      let old := if z then 0 else c.accElem ad i j
      match f.a, f.w with
      | some fa, some fw => c3.setAcc ad i j (floatDot fa fw old xs)
      | _, _ =>
        let r := intDot f.bits f.aSign old xs
        (c3.setAcc ad i j r.1).raiseFp (if r.2 then fACC else 0)) c'
    c2.setAccPoison ad i bad) c
  { c1 with accFloat := if z then putBit c1.accFloat ad f.isFloat else c1.accFloat }

/-- mclr (R230). -/
def Core.mclr (ad : Nat) (isFloat : Bool) (c : Core) : Core :=
  { c with
    acc := c.acc.filter (fun (e : Nat × Nat) => e.1 / 2048 ≠ ad)
    accBad := c.accBad.filter (fun (e : Nat × Bool) => e.1 / 32 ≠ ad)
    accFloat := putBit c.accFloat ad isFloat }

/-- mrd: a row of an accumulator to the lanes of a register (R230, R250). -/
def Core.mrd (vd ad row : Nat) (poison : Bool) (c : Core) : Core :=
  c.setLanes vd ((List.range 64).map (fun j => (c.accElem ad row j, poison || c.accPoison ad row)))

/-- mwr: the lanes of a register to a row of an accumulator (R230). -/
def Core.mwr (ad row va : Nat) (isFloat poison : Bool) (c : Core) : Core :=
  let c1 := foldBelow 64 (fun j (c' : Core) => c'.setAcc ad row j (c.lane va j).1) c
  let c2 := c1.setAccPoison ad row (poison || (List.range 64).any (fun j => (c.lane va j).2))
  { c2 with accFloat := putBit c2.accFloat ad isFloat }

end Sys2Proof.Machine
end

