-- ==== Sys2Proof/Machine/SemOps.lean ====
section
/-! DEFINITION. Semaphores and locks (R158 to R164) and holder epochs (R161, R162), as operations. -/

namespace Sys2Proof.Machine

/-! ### Semaphores -/

/-- A semaphore, by station × 256 + index. -/
def getSem (d : Dev) (k : Nat) : Sem := Map.get (fun _ => ({} : Sem)) d.yard.sems k

/-- Changing a semaphore. -/
def updSem (k : Nat) (f : Sem → Sem) (d : Dev) : Dev :=
  { d with yard := { d.yard with sems := Map.upd (fun _ => ({} : Sem)) d.yard.sems k f } }

/-- Waiters of a semaphore, in arrival order. -/
def waitersOf (d : Dev) (k : Nat) : List Waiter := d.yard.waiters.filter (fun w => w.sem = k)

/-- Waiter slots in use at a cluster (R160). -/
def waitersUsed (d : Dev) (s : Nat) : Nat := (d.yard.waiters.filter (fun w => w.sem / 256 = s)).length

/-- Taking one holder's request off a semaphore's queue. -/
def dropWaiter (k h : Nat) (d : Dev) : Dev :=
  { d with yard := { d.yard with waiters := d.yard.waiters.filter (fun w => !(w.sem = k && w.holder = h)) } }

/-- A queued request is answered: the result goes to the core's register and the core goes on (R159). -/
def answerSem (h code : Nat) (d : Dev) : Dev :=
  if 128 ≤ h then push (.semFar h code) d
  else match (getCore d h).wait with
  | .sem r => updCore h (fun c => (c.setS r code false).goes) d
  | _ => d

/-- The present epoch of a holder (R161). -/
def epochOf (d : Dev) (h : Nat) : Nat := Map.get (fun _ => 0) d.yard.epochs h

/-- The module of a holder as the clusters name it: a holder of module m elsewhere in the team is 128 × (m + 1) above its
holder id. -/
def holderModule (d : Dev) (h : Nat) : Nat := if h < 128 then moduleNo d else h / 128 - 1

/-- A lock taken by a holder. -/
def lockTaken (d : Dev) (cmp h : Nat) (s : Sem) : Sem :=
  { s with state := .held, holderCmp := cmp, holderEpoch := epochOf d h, holderId := h % 128, holderMod := holderModule d h }

/-- A lock with nobody holding it. -/
def lockFree (s : Sem) : Sem :=
  { s with state := .free, holderCmp := 0, holderEpoch := 0, holderId := 0, holderMod := 0 }

/-- Waiters of a counting semaphore are granted in strict arrival order (R159, R160). -/
def grantCounting : Nat → Nat → Dev → Dev
  | 0, _, d => d
  | n + 1, k, d =>
    match waitersOf d k with
    | [] => d
    | w :: _ =>
      if w.amount ≤ (getSem d k).value then
        grantCounting n k (answerSem w.holder 0
          (dropWaiter k w.holder (updSem k (fun s => { s with value := s.value - w.amount }) d)))
      else d

/-- Handing a lock to its first waiter with a result, or leaving it FREE (R159, R163). -/
def handLock (k code : Nat) (d : Dev) : Dev :=
  match waitersOf d k with
  | [] => updSem k lockFree d
  | w :: _ => answerSem w.holder code (dropWaiter k w.holder (updSem k (lockTaken d w.cmp w.holder) d))

/-- Every waiter of a semaphore is answered RESET (R164). -/
def resetWaiters (k : Nat) (d : Dev) : Dev :=
  each (waitersOf d k) (fun w d => answerSem w.holder 9 (dropWaiter k w.holder d)) d

/-- Whether a holder of this module cannot reach a cluster (R191). -/
def holderCut (d : Dev) (h st : Nat) : Bool :=
  if h < 64 then clusterCut d (.coach (Fin.ofNat 64 h)) st
  else if h < 68 then clusterCut d (.ctl (Fin.ofNat 4 (h - 64))) st else false

/-- The check every operation makes first (R158, R176), and then the kind: a result code when the operation ends
there. Whether a holder of another module reaches the cluster is judged at the drawbar port that its operation came by. -/
def semGuard (d : Dev) (k cmp h : Nat) (lock : Bool) : Option Nat :=
  let s := getSem d k
  let st := k / 256
  if clusterOut d st || holderCut d h st then some 9
  else if cmp ≠ s.owner ∧ cmp ≠ 0 then some 8
  else if (if lock then s.kind != .lock else s.kind != .counting) then some 7
  else none

/-- Queueing a request: TIMEOUT at once for a timeout of 0, BUSY when no slot is free (R159, R160). The answer is a
result code, or none when the caller waits. -/
def semQueue (k cmp h amount timeout : Nat) (acquire : Bool) (d : Dev) : Option Nat × Dev :=
  if timeout = 0 then (some 2, d)
  else if 128 ≤ waitersUsed d (k / 256) then (some 3, flag0 T.YRD (k / 256) 5 (k % 256) d)
  else
    let dl := if timeout = 0xFFFFFFFF then none else some (tick d + timeout)
    (none, { d with yard := { d.yard with
      waiters := d.yard.waiters ++ [⟨k, h, cmp, epochOf d h, acquire, amount, dl⟩] } })

/-- SIGNAL n (R159). -/
def semSignal (k cmp h n : Nat) (d : Dev) : Nat × Dev :=
  match semGuard d k cmp h false with
  | some c => (c, d)
  | none =>
    if 0xFFFFFF < (getSem d k).value + n then (6, flag0 T.YRD (k / 256) 6 (k % 256) d)
    else (0, grantCounting 128 k (updSem k (fun s => { s with value := s.value + n }) d))

/-- WAIT n (R159). -/
def semWait (k cmp h n timeout : Nat) (d : Dev) : Option Nat × Dev :=
  match semGuard d k cmp h false with
  | some c => (some c, d)
  | none =>
    if n ≤ (getSem d k).value ∧ (waitersOf d k).isEmpty then
      (some 0, updSem k (fun s => { s with value := s.value - n }) d)
    else semQueue k cmp h n timeout false d

/-- Whether a lock is held by a holder at its current epoch. -/
def heldBy (d : Dev) (s : Sem) (h : Nat) : Bool :=
  s.state = .held && s.holderId = h % 128 && s.holderEpoch = epochOf d h && s.holderMod = holderModule d h

/-- ACQUIRE (R159). -/
def semAcquire (k cmp h timeout : Nat) (d : Dev) : Option Nat × Dev :=
  match semGuard d k cmp h true with
  | some c => (some c, d)
  | none =>
    let s := getSem d k
    match s.state with
    | .free => (some 0, updSem k (lockTaken d cmp h) d)
    | .broken => (some 1, updSem k (lockTaken d cmp h) d)
    | .held => if heldBy d s h then (some 5, d) else semQueue k cmp h 0 timeout true d

/-- RELEASE (R159). -/
def semRelease (k cmp h : Nat) (d : Dev) : Nat × Dev :=
  match semGuard d k cmp h true with
  | some c => (c, d)
  | none => if heldBy d (getSem d k) h then (0, handLock k 0 d) else (4, d)

/-- Compartment 0 writes KIND: FREE with VALUE 0, and its waiters are answered RESET (R164). -/
def semKind (k kind : Nat) (d : Dev) : Dev :=
  let kd := match kind % 4 with
    | 1 => SemKind.counting
    | 2 => .lock
    | 3 => .reserved
    | _ => .unused
  resetWaiters k (updSem k (fun s => { lockFree s with kind := kd, value := 0 }) d)

/-- Compartment 0 writes VALUE: a counting semaphore grants as SIGNAL does (R164). A lock's VALUE stays 0 (SEM[k]). -/
def semValue (k v : Nat) (d : Dev) : Dev :=
  match (getSem d k).kind with
  | .lock => d
  | .counting => grantCounting 128 k (updSem k (fun s => { s with value := v % 2 ^ 24 }) d)
  | _ => updSem k (fun s => { s with value := v % 2 ^ 24 }) d

/-- A write of OWNER and KIND of a semaphore, and of VALUE where the same access writes it: the KIND acts first (R164). -/
def semOwned (k owner kind : Nat) (value : Option Nat) (d : Dev) : Dev :=
  let d1 := semKind k kind (updSem k (fun x => { x with owner := owner }) d)
  match value with
  | some v => semValue k v d1
  | none => d1

/-- The SEM word of a semaphore (SEM[k]). -/
def semWord (d : Dev) (k : Nat) : Nat :=
  let s := getSem d k
  let kind := match s.kind with
    | .unused => 0
    | .counting => 1
    | .lock => 2
    | .reserved => 3
  let st := match s.state with
    | .free => 0
    | .held => 1
    | .broken => 2
  s.owner * 2 ^ 60 + kind * 2 ^ 58 + st * 2 ^ 56 + s.holderCmp * 2 ^ 52 + s.holderEpoch * 2 ^ 44 + s.holderId * 2 ^ 37
    + s.holderMod * 2 ^ 32 + min 255 (waitersOf d k).length * 2 ^ 24 + s.value

/-- A cluster that is reset: HELD locks become BROKEN, counting VALUES zero, waiters are answered RESET (R164). -/
def semClusterReset (s : Nat) (d : Dev) : Dev :=
  let ks := (d.yard.sems.map (·.1)).filter (fun k => k / 256 = s)
  each ks (fun k d => resetWaiters k
    (updSem k (fun x => if x.kind = .counting then { x with value := 0 }
      else if x.state = .held then { x with state := .broken } else x) d)) d

/-! ### Epochs and the reaper (R161, R162) -/

/-- A holder's epoch advances: its queued requests are dropped without an answer, and its locks are to be reaped. -/
def epochAdvance (h : Nat) (d : Dev) : Dev :=
  let old := epochOf d h
  { d with yard := { d.yard with
      epochs := Map.set (fun _ => 0) d.yard.epochs h ((old + 1) % 256)
      waiters := d.yard.waiters.filter (fun w => w.holder ≠ h)
      reaps := d.yard.reaps ++ [⟨moduleNo d, h, old, 0⟩] } }

/-- A reaper broadcast reaches a cluster: every HELD lock of that holder and epoch becomes BROKEN, and its first waiter
is granted BROKEN (R162, R163). -/
def reapAt (r : Reap) (s : Nat) (d : Dev) : Dev :=
  let ks := (d.yard.sems.filter (fun e => e.1 / 256 = s && e.2.kind = .lock && e.2.state = .held &&
    e.2.holderId = r.holder && e.2.holderEpoch = r.epoch && e.2.holderMod = r.holderMod)).map (·.1)
  each ks (fun k d =>
    let d1 := flag0 T.YRD s 4 (k % 256) (bump (kY s 2 0x044) (updSem k (fun x => { x with state := .broken }) d))
    if (waitersOf d1 k).isEmpty then d1 else handLock k 1 d1) d

end Sys2Proof.Machine
end

