-- ==== Sys2Proof/Machine/DepotOps.lean ====
section
/-! DEFINITION. The depot's queues, readiness and completion (chapter 8) as operations. -/

namespace Sys2Proof.Machine

/-- Keys of the DPT pages. -/
def kD (page off : Nat) : Nat := rk T.DPT 0 page off

/-- STAT[i] and CSTAT[c][i] count (DPT pages 6 and 8 to 15). -/
def stat (i : Nat) (d : Dev) : Dev := bump (kD 6 (0x040 + 4 * i)) d
def cstat (c i : Nat) (d : Dev) : Dev := bump (kD (8 + c / 2) (0x040 + 0x40 * (c % 2) + 4 * i)) d

/-- A dispatch, a completion or an abort (index 0 to 2) of a compartment, for telemetry (R496). -/
def told (c i : Nat) (d : Dev) : Dev := ccount c i 1 (tcount i 1 d)

/-- The next number in the depot's order of events. -/
def nextSeq (d : Dev) : Nat := d.dpt.seq
def stepSeq (d : Dev) : Dev := { d with dpt := { d.dpt with seq := d.dpt.seq + 1 } }

/-- The key of a slot. -/
def slotKey (q i : Nat) : Nat := q * 65536 + i

/-- A slot of a WORK ring. -/
def getSlot (d : Dev) (q i : Nat) : Slot := Map.get (fun _ => ({} : Slot)) d.dpt.slots (slotKey q i)

/-- Changing a slot. -/
def updSlot (q i : Nat) (f : Slot → Slot) (d : Dev) : Dev :=
  { d with dpt := { d.dpt with slots := Map.upd (fun _ => ({} : Slot)) d.dpt.slots (slotKey q i) f } }

/-- Slots that satisfy a condition, with queue and index. -/
def slotsWhere (d : Dev) (p : Nat → Slot → Bool) : List (Nat × Nat × Slot) :=
  d.dpt.slots.filterMap (fun e => if p (e.1 / 65536) e.2 then some (e.1 / 65536, e.1 % 65536, e.2) else none)

/-- Freeing a slot. -/
def freeSlot (q i : Nat) (d : Dev) : Dev :=
  updQueue q (fun x => { x with occ := x.occ - 1 })
    { d with dpt := { d.dpt with slots := Map.set (fun _ => ({} : Slot)) d.dpt.slots (slotKey q i) {} } }

/-! ### READY (R275, R276) -/

/-- Ready pool entries in use. -/
def poolUsed (d : Dev) : Nat := (slotsWhere d (fun _ s => s.state = .ready && !s.deferred)).length

/-- The first deferred waybill, in the order in which they became READY. -/
def firstDeferred (d : Dev) : Option (Nat × Nat × Slot) :=
  (slotsWhere d (fun _ s => s.state = .ready && s.deferred)).foldl
    (fun b x => match b with
      | none => some x
      | some y => if x.2.2.readySeq < y.2.2.readySeq then some x else some y) none

/-- A place in the pool has come free: the first deferred waybill takes it (R276). -/
def fillPool (d : Dev) : Dev :=
  if poolUsed d < 16384 then
    match firstDeferred d with
    | some (q, i, _) => updSlot q i (fun s => { s with deferred := false }) d
    | none => d
  else d

/-- A waybill becomes READY (R276). A waybill that returns keeps its place by ready time (R278, R280). -/
def makeReady (q i : Nat) (back : Bool) (d : Dev) : Dev :=
  let n := nextSeq d
  let full := decide (16384 ≤ poolUsed d)
  let d1 := updSlot q i (fun s => { s with
    state := .ready, stage := .done, deferred := full, readySeq := if back then s.readySeq else n }) (stepSeq d)
  if full then flag0 T.DPT 0 14 0 d1 else d1

/-! ### Ends without a run -/

/-- Whether a status is an ABORT code (chapter 22). -/
def isAbort (st : Nat) : Bool := decide (0x20 ≤ st) && decide (st ≤ 0x26)

/-- Lateness (R284 item 3). -/
def isLate (img : Image) (dn : Nat) : Bool :=
  img.deadlineEn && decide ((dn + 2 ^ 32 - img.deadline - 1) % 2 ^ 32 < 2 ^ 31 - 1)

/-- A waybill ends without running: its completion actions follow (R268, R273, R277, R279). -/
def endUnrun (q i status : Nat) (d : Dev) : Dev :=
  push (.complete q i) (updSlot q i (fun s => { s with
    state := .completing
    ending := { status := status, tick := tick d, late := isLate s.image (tick d % 2 ^ 32) } }) d)

/-! ### The backing area (R294 to R296) -/

/-- DEPOT_BASE as an offset into the stack window, when it is set. -/
def backing (d : Dev) : Option Nat :=
  let v := rd64 d (kD 0 0x048)
  if bit v 63 && decide (stackBase ≤ v % 2 ^ 48) then some (v % 2 ^ 48 - stackBase) else none

/-- What a read of the backing area brings. -/
inductive Backed where
  | here | offline | fatal
  /-- It waits for an epoch switch, or behind a write of the depot (R189, R202). -/
  | held
deriving DecidableEq, Repr

/-- A poisoned read of the backing area: META_UE, and the module resets (R295). -/
def metaLost (code entry : Nat) (d : Dev) : Dev := push (.forced 0x06 (code * 2 ^ 24 + entry % 2 ^ 24)) (flag0 T.DPT 0 1 code d)

/-- BACKING_OFFLINE and BACKING_WAIT: something waits for a read of the backing area or of a ring (R296). -/
def backingWaits (d : Dev) : Dev :=
  wrB (kD 0 0x040) 30 true (flag0 T.DPT 0 12 0 { d with dpt := { d.dpt with holding := true } })

/-- Holding an operation until its read of the backing area completes: a stack that does not answer is flagged (R189,
R296). -/
def holdOp (why : Backed) (op : DepotOp) (d : Dev) : Dev :=
  let d1 := { d with dpt := { d.dpt with heldOps := d.dpt.heldOps ++ [op] } }
  if why = .held then d1 else backingWaits d1

/-- Whether the depot, at its attachment at station 0, cannot reach the line at an offset into the stack window (R191,
R207). -/
def depotOffline (d : Dev) (o len : Nat) : Bool := !lineOnline d o || edgeCut d (some 0) o len

/-- Reading bytes of the backing area at an offset into the stack window (R295, R296); a read of an offline stack counts as
any other does (R207). -/
def readBacking (o len code entry : Nat) (d : Dev) : Backed × Nat × Dev :=
  if depotOffline d o len then (.offline, 0, offlineAccess (stackMap d.part o).1 d)
  else
    let r := readPiece { who := .depot, cmp := 0 } (stackBase + o) len d
    match r.1 with
    | .held => (.held, 0, r.2)
    | .data bs => if bs.any (·.2) then (.fatal, 0, metaLost code entry r.2) else (.here, leNat (bs.map (·.1)), r.2)
    | .fail _ => (.fatal, 0, metaLost code entry r.2)

/-- A write of the depot to the backing area; one that does not reach its stack is dropped (R191, R207). -/
def writeBacking (o : Nat) (bs : List Byte) (d : Dev) : Dev := ringWrite (stackBase + o) bs d

/-- The descriptor of a queue in the backing area: 32 bytes, written when a queue command changes it (R294, log entry
118). -/
def backQueue (q : Nat) (d : Dev) : Dev :=
  match backing d with
  | some b =>
    let qd := getQueue d q
    writeBacking (b + 32 * q) (leBytes 8 qd.w0 ++ leBytes 8 qd.w1 ++ leBytes 8 qd.w2 ++ leBytes 8 qd.w3) d
  | none => d

/-- A queue command reads the queue's descriptor in the backing area (R294, log entry 118): a poisoned one is fatal to the
module (R33, R295). -/
def fetchQueue (q : Nat) (d : Dev) : Backed × Dev :=
  match backing d with
  | some b => let r := readBacking (b + 32 * q) 32 0x01 q d; (r.1, r.2.2)
  | none => (.here, d)

/-! ### Counters (R269, R270) -/

/-- The 8 bytes of a counter in the backing area (R294). -/
def counterWord (x : Counter) : Nat :=
  (if x.bound = 0 then 0 else (x.bound - 1) % 2 ^ 32 * 2 ^ 32 + 2 ^ 31) + b2n x.voided * 2 ^ 30 + ofSigned 24 x.value

/-- The counter that 8 bytes of the backing area hold. -/
def wordCounter (w : Nat) : Counter :=
  { value := toSigned 24 (w % 2 ^ 24), voided := bit w 30, bound := if bit w 31 then w / 2 ^ 32 + 1 else 0 }

/-- Where a counter stands in the backing area, as an offset into the stack window. -/
def counterAt (b c : Nat) : Nat := b + 0x200000 + 8 * c

/-- A dependence counter: on chip, or where it stands in the backing area. -/
def getCtr (d : Dev) (c : Nat) : Counter :=
  match backing d with
  | some b =>
    if d.dpt.cached.contains c then Map.get (fun _ => ({} : Counter)) d.dpt.counters c
    else
      let o := counterAt b c
      wordCounter (fld (getLine d (o / 64)).data.toNat (o % 64 * 8 + 63) (o % 64 * 8))
  | none => Map.get (fun _ => ({} : Counter)) d.dpt.counters c

/-- Changing a counter on chip. -/
def updCtr (c : Nat) (f : Counter → Counter) (d : Dev) : Dev :=
  { d with dpt := { d.dpt with counters := Map.upd (fun _ => ({} : Counter)) d.dpt.counters c f } }

/-- The counters that the chip holds at most. -/
def cacheSize : Nat := 16384

/-- A counter that leaves the chip stands in the backing area. -/
def evictCtr (b c : Nat) (d : Dev) : Dev :=
  let w := counterWord (Map.get (fun _ => ({} : Counter)) d.dpt.counters c)
  updCtr c (fun _ => {}) (writeBacking (counterAt b c) (leBytes 8 w) { d with dpt := { d.dpt with cached := d.dpt.cached.erase c } })

/-- A counter is brought on chip: the one used longest ago leaves when the chip is full (R38, R294, log entry 118). -/
def fetchCtr (c : Nat) (d : Dev) : Backed × Dev :=
  let first := fun (d : Dev) => { d with dpt := { d.dpt with cached := c :: d.dpt.cached.erase c } }
  match backing d with
  | none => (.here, d)
  | some b =>
    if d.dpt.cached.contains c then (.here, first d)
    else
      let r := readBacking (counterAt b c) 8 0x02 c d
      match r.1 with
      | .here =>
        let d1 := if d.dpt.cached.length < cacheSize then r.2.2
          else match r.2.2.dpt.cached.getLast? with
            | some v => evictCtr b v r.2.2
            | none => r.2.2
        (.here, first (updCtr c (fun _ => wordCounter r.2.1) d1))
      | x => (x, r.2.2)

/-- An operation on a counter that is on chip, or is brought there; it is held while the backing area is offline (R296). -/
def withCtr (c : Nat) (op : DepotOp) (f : Dev → Dev) (d : Dev) : Dev :=
  let r := fetchCtr c d
  match r.1 with
  | .here => f r.2
  | .fatal => r.2
  | why => holdOp why op r.2

/-- Whether a counter can be read now. -/
def ctrReadable (d : Dev) (c : Nat) : Bool :=
  match backing d with
  | some b => d.dpt.cached.contains c || (!depotOffline d (counterAt b c) 8 &&
      !stackHeld d { who := .depot, cmp := 0 } (stackBase + counterAt b c))
  | none => true

/-- BLOCK_OWNER of the block of a counter. -/
def ctrOwner (d : Dev) (c : Nat) : Nat :=
  let b := c / 4096
  rdF d (kD 2 (0x100 + 4 * (b / 8))) (4 * (b % 8) + 3) (4 * (b % 8))

/-- VALUE changes, saturating at 24 bits with COUNTER_SAT (R270). -/
def ctrAdd (c : Nat) (k : Int) (d : Dev) : Dev :=
  let v := (getCtr d c).value + k
  let w := clampInt (-8388608) 8388607 v
  let d1 := updCtr c (fun x => { x with value := w }) d
  if v = w then d1 else flag0 T.DPT 0 8 (c / 4096) d1

/-- A bound counter fires: it is clear and unbound, and its waybill fires (R269). -/
def ctrFire (c : Nat) (void : Bool) (d : Dev) : Dev :=
  let b := (getCtr d c).bound
  push (.fired ((b - 1) / 65536) ((b - 1) % 65536) void) (updCtr c (fun _ => {}) d)

/-- A bound counter that is due fires: voided, or VALUE 0, or below 0 after a bind, which sets COUNTER_UNDER (R269). -/
def ctrCheck (c : Nat) (bind : Bool) (d : Dev) : Dev :=
  let x := getCtr d c
  let under := bind && decide (x.value < 0)
  if x.bound = 0 then d
  else
    let d1 := if under then flag0 T.DPT 0 7 (c / 4096) d else d
    if x.voided then ctrFire c true d1
    else if x.value = 0 || under then ctrFire c false d1
    else d1

/-- A decrement (R269). -/
def ctrDec (c : Nat) (d : Dev) : Dev := withCtr c (.decrement c) (fun d => ctrCheck c false (ctrAdd c (-1) d)) d

/-- A void (R269). -/
def ctrVoid (c : Nat) (d : Dev) : Dev :=
  withCtr c (.void c) (fun d => ctrCheck c false (updCtr c (fun x => { x with voided := true }) d)) d

/-- A void of a waybill, if it is bound to the counter (R429, R430). -/
def ctrVoidBound (key c : Nat) (d : Dev) : Dev :=
  withCtr c (.voidBound c key) (fun d => if (getCtr d c).bound ≠ key then d
    else ctrCheck c false (updCtr c (fun x => { x with voided := true }) d)) d

/-- A bind (R269). -/
def ctrBind (c q i init : Nat) (d : Dev) : Dev :=
  ctrCheck c true (ctrAdd c init (updCtr c (fun x => { x with bound := slotKey q i + 1 }) d))

/-- A counter that is not bound is cleared (DPT page 2, R424). -/
def ctrZero (c : Nat) (d : Dev) : Dev :=
  withCtr c (.clear c) (fun d => if (getCtr d c).bound ≠ 0 then d else updCtr c (fun _ => {}) d) d

/-- The waybill that a counter is bound to is gone: the counter is clear and unbound (R291). -/
def ctrUnbind (c key : Nat) (d : Dev) : Dev :=
  withCtr c (.unbind c key) (fun d => if (getCtr d c).bound = key then updCtr c (fun _ => {}) d else d) d

/-- A decrement or void sent by a compartment: dropped when it does not own the block (R270). -/
def ctrAction (cmp c : Nat) (f : Nat → Dev → Dev) (d : Dev) : Dev :=
  let c := c % 1048576
  if ctrOwner d c = cmp then f c d else flag0 T.DPT 0 9 (c / 4096) d

/-! ### Matching store (R271, R272) -/

/-- The entry of a compartment and key. -/
def findMatch (d : Dev) (cmp key : Nat) : Option MatchEntry :=
  d.dpt.store.find? (fun e => e.cmp = cmp && e.key = key)

/-- Entries on chip, and in the spill table. -/
def matchUsed (d : Dev) : Nat := (d.dpt.store.filter (fun e => e.spot.isNone)).length
def spillUsed (d : Dev) : Nat := (d.dpt.store.filter (fun e => e.spot.isSome)).length

/-- Replacing the entry of a compartment and key, or adding it. -/
def putMatch (e : MatchEntry) (d : Dev) : Dev :=
  { d with dpt := { d.dpt with
      store := d.dpt.store.filter (fun x => !(x.cmp = e.cmp && x.key = e.key)) ++ [e] } }

/-- Taking an entry out. -/
def dropMatch (cmp key : Nat) (d : Dev) : Dev :=
  { d with dpt := { d.dpt with store := d.dpt.store.filter (fun x => !(x.cmp = cmp && x.key = key)) } }

/-- The entry of the spill table that a compartment and key may take: the first free one of the eight from their hash on
(R272). -/
def spillSpot (d : Dev) (cmp key : Nat) : Option Nat :=
  let h := (Config.spillHash cmp key).toNat
  ((List.range 8).map (fun i => (h + i) % 65536)).find? (fun i => !d.dpt.store.any (fun e => e.spot = some i))

/-- The entry to spill: the least recently touched that has no waiting waybill. -/
def spillVictim (d : Dev) : Option MatchEntry :=
  (d.dpt.store.filter (fun e => e.spot.isNone && e.waiter.isNone)).foldl
    (fun b e => match b with
      | none => some e
      | some x => if e.touch < x.touch then some e else some x) none

/-- The entry to spill and where it goes, when the chip is full. -/
def spillMove (d : Dev) : Option (MatchEntry × Nat) :=
  (spillVictim d).bind (fun e => (spillSpot d e.cmp e.key).map (fun i => (e, i)))

/-- Room for one more entry on chip: there is some, or one entry can spill (R272). -/
def matchRoom (d : Dev) : Bool := decide (matchUsed d < 32768) || (spillMove d).isSome

/-- Where an entry of the spill table stands, as an offset into the stack window. -/
def spillAt (b i : Nat) : Nat := b + 0xA00000 + 64 * i

/-- Making room for one more entry on chip (R272): the entry that spills is written to the backing area. -/
def makeRoom (d : Dev) : Dev :=
  if matchUsed d < 32768 then d
  else match spillMove d with
    | some (e, i) =>
      let d1 := match backing d with
        | some b => writeBacking (spillAt b i) (lineBytes (Config.spillBytes i)) d
        | none => d
      putMatch { e with spot := some i } d1
    | none => d

/-- An entry of the spill table comes back on chip: its place in the table is free first, so that another entry may take it
(R272). -/
def bringBack (e : MatchEntry) (d : Dev) : Dev := putMatch { e with spot := none } (makeRoom (dropMatch e.cmp e.key d))

/-- Reading an entry of the spill table (R295, R296). -/
def fetchSpill (i : Nat) (d : Dev) : Backed × Dev :=
  match backing d with
  | some b => let r := readBacking (spillAt b i) 64 0x03 i d; (r.1, r.2.2)
  | none => (.here, d)

/-- No token. -/
def noTokens : List Token := List.replicate 4 {}

/-- A set that has become complete passes its payloads to the waiting waybill, void when any token of it is void
(R271). -/
def matchCheck (cmp key : Nat) (d : Dev) : Dev :=
  match findMatch d cmp key with
  | none => d
  | some e =>
    match e.waiter with
    | none => d
    | some (q, i) =>
      let n := (getSlot d q i).image.ntok + 1
      let set := e.tokens.take n
      if set.all (·.present) then
        push (.fired q i (set.any (·.void)))
          (updSlot q i (fun s => { s with payload := set.map (·.payload) }) (dropMatch cmp key d))
      else d

/-- A token reaches an entry on chip (R271). -/
def tokenPut (e : MatchEntry) (slot payload : Nat) (void : Bool) (d : Dev) : Dev :=
  if ((e.tokens[slot]?).getD {}).present then flag0 T.DPT 0 10 e.key d
  else matchCheck e.cmp e.key (stepSeq (putMatch { e with
    touch := nextSeq d, tokens := e.tokens.set slot ⟨true, void, payload % 2 ^ 64⟩ } d))

/-- A token that finds no room is dropped (R272). -/
def tokenLost (d : Dev) : Dev := flag0 T.DPT 0 6 0 (bump (kD 3 0x048) d)

/-- A token is delivered to (compartment, key): a spilled entry comes back on chip first (R271, R272). -/
def deliverToken (cmp key slot payload : Nat) (void : Bool) (d : Dev) : Dev :=
  match findMatch d cmp key with
  | some e =>
    (match e.spot with
     | none => tokenPut e slot payload void d
     | some i =>
       let r := fetchSpill i d
       match r.1 with
       | .offline => holdOp .offline (.token cmp key slot payload void) r.2
       | .held => holdOp .held (.token cmp key slot payload void) r.2
       | .fatal => r.2
       | .here =>
         if matchRoom (dropMatch cmp key r.2) then tokenPut { e with spot := none } slot payload void (bringBack e r.2)
         else tokenLost r.2)
  | none =>
    if matchRoom d then tokenPut ⟨cmp, key, noTokens, none, nextSeq d, none⟩ slot payload void (makeRoom d)
    else tokenLost d

/-- A waybill joins the entry of its key (R271); a spilled entry comes back on chip for it. One that finds no room, which
its enqueue had seen, waits for some (log entry 12). -/
def joinMatch (cmp key q i : Nat) (d : Dev) : Dev :=
  let n := nextSeq d
  let join := fun (e : MatchEntry) (d : Dev) =>
    matchCheck cmp key (stepSeq (putMatch { e with waiter := some (q, i), touch := n, spot := none } d))
  let wait := updSlot q i (fun s => { s with stage := .blocked })
  match findMatch d cmp key with
  | some e =>
    (match e.spot with
     | none => join e d
     | some j =>
       let r := fetchSpill j d
       match r.1 with
       | .offline => holdOp .offline (.arm q i) r.2
       | .held => holdOp .held (.arm q i) r.2
       | .fatal => r.2
       | .here => if matchRoom (dropMatch cmp key r.2) then join e (bringBack e r.2) else wait r.2)
  | none =>
    if matchRoom d then stepSeq (putMatch ⟨cmp, key, noTokens, some (q, i), n, none⟩ (makeRoom d)) else wait d

/-! ### The timetable (R274) -/

/-- Whether one entry fires before another. -/
def ttBefore (a b : TtEntry) : Bool := decide (a.due < b.due) || (a.due = b.due && decide (a.seq < b.seq))

/-- Inserting in firing order. -/
def ttInsert (e : TtEntry) : List TtEntry → List TtEntry
  | [] => [e]
  | x :: xs => if ttBefore e x then e :: x :: xs else x :: ttInsert e xs

/-- Waybill entries and periodic entries in use. -/
def ttWaybills (d : Dev) : Nat := (d.dpt.table.filter (fun e => match e.action with
  | .waybill _ _ => true
  | _ => false)).length
def ttPeriodic (d : Dev) : Nat := d.dpt.table.length - ttWaybills d

/-- Adding an entry. -/
def ttAdd (dueTick period : Nat) (a : TtAction) (d : Dev) : Dev :=
  stepSeq { d with dpt := { d.dpt with table := ttInsert ⟨dueTick, nextSeq d, period, a⟩ d.dpt.table } }

/-- Taking out the entries that satisfy a condition. -/
def ttDrop (p : TtAction → Bool) (d : Dev) : Dev :=
  { d with dpt := { d.dpt with table := d.dpt.table.filter (fun e => !p e.action) } }

/-! ### Arming waits (R268) -/

/-- The owner of a queue. -/
def queueOwner (d : Dev) (q : Nat) : Nat := (getQueue d q).owner

/-- Arming the tally wait (R273). -/
def armTally (q i : Nat) (d : Dev) : Dev :=
  let img := (getSlot d q i).image
  let t := img.tallyId
  let d0 := updSlot q i (fun s => { s with stage := .tally }) d
  if !img.tallyEn then makeReady q i false d0
  else if clusterOut d (t / 1024) || cutOff d (some 0) (t / 1024) then endUnrun q i 0x25 d0
  else if !enabled d T.YRD (t / 1024) || (getTally d t).owner ≠ queueOwner d q then endUnrun q i 0x23 d0
  else
    let r := watchTally ⟨t, img.tallyThresh, .waybill q i⟩ d0
    match r.1 with
    | .fired => makeReady q i false r.2
    | .registered => r.2
    | .full =>
      let d1 := flag0 T.DPT 0 4 (t / 1024) r.2
      { d1 with dpt := { d1.dpt with retries := d1.dpt.retries ++ [⟨t, img.tallyThresh, .waybill q i⟩] } }

/-- Arming the counter or the token wait. -/
def armForm (q i : Nat) (d : Dev) : Dev :=
  let img := (getSlot d q i).image
  let d0 := updSlot q i (fun s => { s with stage := .form }) d
  let wait := updSlot q i (fun s => { s with stage := .blocked }) d
  if img.ready = 1 then
    withCtr img.ctrId (.arm q i) (fun d =>
      if (getCtr d img.ctrId).bound ≠ 0 then updSlot q i (fun s => { s with stage := .blocked }) d
      else ctrBind img.ctrId q i img.ctrInit d) d0
  else if img.ready = 2 then
    (match findMatch d (queueOwner d q) img.form with
     | some e => if e.waiter.isSome then wait else joinMatch (queueOwner d q) img.form q i d0
     | none => joinMatch (queueOwner d q) img.form q i d0)
  else armTally q i d0

/-- Arming the release wait (R268, R274). -/
def armRelease (q i : Nat) (d : Dev) : Dev :=
  let img := (getSlot d q i).image
  if img.releaseEn && decide (0 < img.release) then ttAdd (tick d + img.release) 0 (.waybill q i) d
  else armForm q i d

/-- A waybill that found its counter or key in use arms it once it is free (log entry 12). -/
def unblock (p : Nat → Slot → Bool) (d : Dev) : Dev :=
  match slotsWhere d (fun q s => s.state = .waiting && s.stage = .blocked && p q s) with
  | [] => d
  | (q, i, _) :: _ => armForm q i d

/-- A counter or token set has fired a waybill: void, it completes at once; else it arms its later waits (R268). -/
def slotFired (q i : Nat) (void : Bool) (d : Dev) : Dev :=
  let s := getSlot d q i
  if s.state ≠ .waiting then d
  else
    let d1 := if void then stat 8 (endUnrun q i 0x21 d) else armTally q i d
    unblock (fun q2 s2 => s.image.ready = 2 && s2.image.ready = 2 && matchRoom d1 &&
        ((findMatch d1 (queueOwner d1 q2) s2.image.form).bind (·.waiter)).isNone) <|
    unblock (fun q2 s2 => s2.image.ready = s.image.ready && s2.image.ready ≠ 0 &&
      (if s.image.ready = 1 then s2.image.ctrId = s.image.ctrId
       else s2.image.form = s.image.form && queueOwner d q2 = queueOwner d q)) d1

/-! ### Enqueue (R263 to R267) -/

/-- What an enqueue comes to. -/
inductive EnqOut where
  | code (c : Nat)
  /-- The queue is full and in brake mode. -/
  | brake
  /-- The enqueue needs a read of the backing area that has to wait: whether it is offline (R189, R296). -/
  | backing (offline : Bool)
deriving DecidableEq, Repr

/-- Whether a unit id is inside the UNIT_MASK of a queue (R260, R264). -/
def inMask (qd : Queue) (u : Nat) : Bool :=
  if qd.cls = 0 then decide (u < 64) && qd.mask.testBit u
  else if qd.cls = 1 then decide (0x48 + 2 * qd.sub ≤ u) && decide (u < 0x4A + 2 * qd.sub) && qd.mask.testBit (u % 2)
  else decide (0x41 ≤ u) && decide (u ≤ 0x43) && qd.mask.testBit (u - 0x40)

/-- The checks that waybills and records share: DPT and queue enabled, owner ACTIVE, requester (R264, R306). -/
def enqGuard (d : Dev) (cmp q : Nat) : Option Nat :=
  let qd := getQueue d q
  if !enabled d T.DPT 0 || !qd.valid || !qd.enabled || !cmpActive d qd.owner then some 0x0B
  else if cmp ≠ qd.owner ∧ cmp ≠ 0 then some 0x03
  else none

/-- The checks of a waybill in order, as far as they need no counter (R264): where they end it. -/
def enqEarly (d : Dev) (cmp q : Nat) (seq : Bool) (img : Image) : Option EnqOut :=
  let qd := getQueue d q
  match enqGuard d cmp q with
  | some c => some (.code c)
  | none =>
    if qd.kind ≠ 0 then some (.code 0x05)
    else if !img.reservedZero || img.cls ≠ qd.cls || img.sub ≠ (if qd.cls = 1 then qd.sub else 0) ||
        (img.ticketValid && !seq) || (img.pinEn && !inMask qd img.pin) || img.ready = 3 then some (.code 0x04)
    else if (getSlot d q (qd.tail % qd.size)).state ≠ .free then some (if qd.brake then .brake else .code 0x01)
    else if img.releaseEn && decide (0 < img.release) && decide (16128 ≤ ttWaybills d) then some (.code 0x06)
    else none

/-- The checks that come after those: the waybill's counter, which is on chip now, and its key (R264). -/
def enqLate (d : Dev) (q : Nat) (img : Image) : Nat :=
  let o := (getQueue d q).owner
  if img.ready = 1 && (getCtr d img.ctrId).bound ≠ 0 then 0x0C
  else if img.ready = 1 && ctrOwner d img.ctrId ≠ o then 0x03
  else if img.ready = 2 && ((findMatch d o img.form).bind (·.waiter)).isSome then 0x08
  else if img.ready = 2 && ((findMatch d o img.form).all (fun e => e.spot.isSome)) && !matchRoom d then 0x07
  else 0x00

/-- The checks of a waybill in order (R264), with its counter brought on chip: an enqueue whose counter is offline is held
(R296), and one whose counter is poisoned is lost with the module (R295). -/
def enqCheck (d : Dev) (cmp q : Nat) (seq : Bool) (img : Image) : EnqOut × Dev :=
  match enqEarly d cmp q seq img with
  | some o => (o, d)
  | none =>
    let r := if img.ready = 1 then fetchCtr img.ctrId d else (.here, d)
    match r.1 with
    | .here => (.code (enqLate r.2 q img), r.2)
    | .offline => (.backing true, r.2)
    | .held => (.backing false, r.2)
    | .fatal => (.code 0x0B, r.2)

/-- The flags a refusal code sets (R272, R274). -/
def enqFlags (q c : Nat) (d : Dev) : Dev :=
  if c = 0x06 then flag0 T.DPT 0 5 q d else if c = 0x07 then flag0 T.DPT 0 6 0 d else d

/-- Accepting a waybill into the slot at TAIL and arming its waits (R265, R268). -/
def accept (q : Nat) (img : Image) (d : Dev) : Dev :=
  let qd := getQueue d q
  let i := qd.tail % qd.size
  let d1 := ringWrite (qd.base + 64 * i) img.bytes d
  let d2 := updQueue q (fun x => { x with tail := x.tail + 1, occ := x.occ + 1 }) d1
  let d3 := updSlot q i (fun _ => { state := .waiting, image := img }) d2
  armRelease q i (cstat qd.owner 0 (stat 0 d3))

/-- A refused enqueue is counted (R266). -/
def countRefusal (q : Nat) (d : Dev) : Dev :=
  cstat (queueOwner d q) 3 (stat 3 (flag0 T.DPT 0 2 q d))

/-- The checks of a record: those of R264 that bear on one, and the owner of its counter (R267). -/
def recordCheck (d : Dev) (cmp q : Nat) (seq : Bool) (img : Image) : Nat :=
  let qd := getQueue d q
  match enqGuard d cmp q with
  | some c => c
  | none =>
    if !img.reservedZero || (img.sub ≠ 0 && img.sub ≠ 1) || (img.ticketValid && !seq) ||
        (img.pinEn && !inMask qd img.pin) || img.ready = 3 then 0x04
    else if img.sub = 1 && ctrOwner d (fld img.w4 19 0) ≠ qd.owner then 0x03
    else 0x00

/-- What a record does (R267). -/
def recordAct (q : Nat) (img : Image) (d : Dev) : Dev :=
  let o := queueOwner d q
  if img.sub = 0 then deliverToken o (fld img.w4 31 0) (fld img.w4 34 33) img.w5 (bit img.w4 32) d
  else
    let c := fld img.w4 19 0
    let d1 := foldBelow (fld img.w4 27 20 + 1) (fun _ d => ctrDec c d) d
    if bit img.w4 31 then ctrVoid c d1 else d1

/-- A refused enqueue or record of a requester that is not the owner of what it names is a refused access (R59, R311). -/
def notOwner (w : Who) (cmp q c : Nat) (d : Dev) : Dev :=
  if c = 0x03 then
    refused { who := w, cmp := cmp, write := true } .refusedRights (some (queueOwner d q)) false (0x60000000 + 0x40 * q) d
  else d

/-- An error injected into a cached structure of the depot shows at its next operation (R295): corrected, or fatal to the
module; the entry index that the cause carries is open (log entry 88). The answer says whether the operation goes on. -/
def metaCheck (d : Dev) : Bool × Dev :=
  let known := fun p => decide (1 ≤ p % 256) && decide (p % 256 ≤ 7)
  match (armed d T.DPT 0 0 0).filter known, (armed d T.DPT 0 0 1).filter known with
  | some p, _ => (true, cper { cls := 0x01, block := T.DPT, inst := 0, detail := p % 256 }
      (flag0 T.DPT 0 0 (p % 256) (fired T.DPT 0 0 d)))
  | none, some p =>
    let r := draw (flag0 T.DPT 0 1 (p % 256) (fired T.DPT 0 0 d))
    (false, push (.forced 0x06 (p % 256 * 2 ^ 24 + r.1.toNat % 2 ^ 24)) r.2)
  | none, none => (true, d)

/-- A depot operation, unless an injected error of a cached structure is fatal (R295). -/
def depotCheck (f : Dev → Dev) (d : Dev) : Dev :=
  let m := metaCheck d
  if m.1 then f m.2 else m.2

/-- An enqueue at this module's depot: a waybill or a record (R263 to R267). -/
def enqueue (w : Who) (cmp q : Nat) (seq : Bool) (img : Image) (d : Dev) : EnqOut × Dev :=
  let m := metaCheck d
  let d := m.2
  if !m.1 then (.code 0x0B, d)
  else if img.cls = 3 then
    let c := recordCheck d cmp q seq img
    (.code c, if c = 0 then recordAct q img d else notOwner w cmp q c (countRefusal q d))
  else
    match enqCheck d cmp q seq img with
    | (.code 0, d) => (.code 0, accept q img d)
    | (.code c, d) => (.code c, notOwner w cmp q c (enqFlags q c (countRefusal q d)))
    | (o, d) => (o, d)

/-- A producer waits at a queue: for a slot, which BRAKE_WAITS counts (R263), or for a read of the backing area, which has
no limit (R296). -/
def awaits (o : EnqOut) (b : BrakeWait) (d : Dev) : Dev :=
  let add := fun (b : BrakeWait) (d : Dev) => { d with dpt := { d.dpt with brakes := d.dpt.brakes ++ [b] } }
  match o with
  | .backing off => doIf off backingWaits (add { b with backing := true, deadline := none } d)
  | _ => add { b with braked := true } (stat 4 d)

/-! ### Completion (R284 to R287) -/

/-- The 16 bytes of a completion record (R286). -/
def recordBytes (tag status user unit : Nat) (phase late replayed ticket : Bool) (q slot dn : Nat) :
    List Byte :=
  leBytes 4 tag ++ leBytes 1 status ++ leBytes 1 user ++ leBytes 1 unit
    ++ leBytes 1 (b2n phase * 128 + b2n late * 64 + b2n replayed * 32 + b2n ticket * 16)
    ++ leBytes 2 q ++ leBytes 2 slot ++ leBytes 4 dn

/-- Writing a completion record at TAIL of a CQ that has room (R286). -/
def writeRecord (cq tag status user unit : Nat) (late replayed ticket : Bool) (q slot dn : Nat) (d : Dev) : Dev :=
  let c := getQueue d cq
  push (.recorded cq) (updQueue cq (fun x => { x with tail := x.tail + 1 })
    (ringWrite (c.base + 16 * (c.tail % c.size))
      (recordBytes tag status user unit c.phase late replayed ticket q slot dn) d))

/-- The REFUSED record of a window enqueue (R266). -/
def refusedRecord (q tag : Nat) (d : Dev) : Dev :=
  let qd := getQueue d q
  if qd.valid && qd.kind = 0 && qd.cqEn && cqRoom (getQueue d qd.cq) 1 then
    writeRecord qd.cq tag 0x10 0 0xFF false false false q 0xFFFF (tick d % 2 ^ 32) d
  else d

/-- A further record with STATUS SUSPECT, which waits while the CQ is full (R285, R287). -/
def suspectRecord (q tag unit : Nat) (ticket : Bool) (d : Dev) : Dev :=
  let qd := getQueue d q
  if !(qd.valid && qd.cqEn) then d
  else if cqRoom (getQueue d qd.cq) 1 then
    writeRecord qd.cq tag 0x31 0 unit false false ticket q 0xFFFF (tick d % 2 ^ 32) d
  else { d with dpt := { d.dpt with further := d.dpt.further ++ [⟨q, tag, unit, ticket⟩] } }

/-- Items 5 and 6 of the completion actions: the record, held while the CQ is full, and the slot (R285). -/
def finishSlot (q i : Nat) (d : Dev) : Dev :=
  let qd := getQueue d q
  let s := getSlot d q i
  let e := s.ending
  let want := qd.cqEn && ((e.status ≠ 0 && e.status ≠ 1) || s.image.notifyOk)
  if want && !cqRoom (getQueue d qd.cq) 1 then updSlot q i (fun s => { s with cqWait := true }) d
  else
    let d1 := if want then
        writeRecord qd.cq s.image.tag e.status e.user e.unit e.late s.replayed s.image.ticketValid q i
          (e.tick % 2 ^ 32) d
      else d
    freeSlot q i d1

/-- Items 2 to 6 of the completion actions (R285). -/
def completeSlot (q i : Nat) (d : Dev) : Dev :=
  let s := getSlot d q i
  if s.state ≠ .completing then d
  else
    let img := s.image
    let e := s.ending
    let o := queueOwner d q
    let void := isAbort e.status && img.voidOnAbort
    let here := moduleNo d
    let d1 := if !img.succEn then d
      else if img.succMod ≠ here then push (.farCtr img.succMod o img.succId (img.succN + 1) void) d
      else foldBelow (img.succN + 1) (fun k d => ctrAction o (img.succId + k) (if void then ctrVoid else ctrDec) d) d
    let d2 := if !img.tokEn then d1
      else if img.tokMod ≠ here then push (.farToken img.tokMod o img.tokKey img.tokSlot e.s1 void) d1
      else deliverToken o img.tokKey img.tokSlot e.s1 void d1
    let d3 := if img.ticketValid then push (.report img q i e.status e.poison) d2 else d2
    let d4 := told o 1 (cstat o 2 (stat 2 d3))
    let d5 := if isAbort e.status then told o 2 (cstat o 4 d4) else d4
    finishSlot q i (if e.late then cstat o 5 d5 else d5)

/-- A consumer has made room in a CQ: completions held for it proceed, and then further records (R285 item 5, R286). -/
def releaseCq (cq : Nat) (d : Dev) : Dev :=
  let d1 := each (slotsWhere d (fun q s => s.state = .completing && s.cqWait && (getQueue d q).cq = cq))
    (fun x d =>
      if cqRoom (getQueue d cq) 1 then
        finishSlot x.1 x.2.1 (updSlot x.1 x.2.1 (fun s => { s with cqWait := false }) d)
      else d) d
  each d1.dpt.further (fun f d => suspectRecord f.queue f.tag f.unit f.ticket d)
    { d1 with dpt := { d1.dpt with further := [] } }

end Sys2Proof.Machine
end

