-- ==== Sys2Proof/Machine/Units.lean ====
section
/-! DEFINITION. Units and the depot: private regions (R173, R174), dispatch (R276 to R283), the end of a run (R284,
R285), and what a unit reset and a loss of the unit do to its waybills (R288, R290). -/

namespace Sys2Proof.Machine

/-! ### Sweeps and private regions -/

/-- A region's sweep starts, with what happens at its end (R170 to R174). -/
def startSweep (id : Nat) (g : SweepGoal) (d : Dev) : Dev :=
  let r := getDesc d id
  each r.pages (fun p d => updPage p (fun e => { e with sweeping := true }) d) (updDesc id (fun x => { x with goal := g }) d)

/-- The private regions a waybill names (R258). -/
def privateRegions (d : Dev) (img : Image) : List Nat :=
  (if img.privEn then [img.priv] else []) ++
  (if img.cls ≠ 1 && img.stackEn && (getDesc d img.stackRgn).valid && (getDesc d img.stackRgn).sweep ≠ 0
   then [img.stackRgn] else [])

/-- Whether every private region of a waybill is owned by its compartment (R279). -/
def regionsOwned (d : Dev) (img : Image) (cmp : Nat) : Bool :=
  (privateRegions d img).all (fun id => (getDesc d id).valid && (getDesc d id).owner = cmp)

/-- Whether none of them is claimed or sweeping, in the sweep of its whole cluster neither (R279, R173, R176). -/
def regionsFree (d : Dev) (img : Image) : Bool :=
  (privateRegions d img).all (fun id =>
    let r := getDesc d id
    r.claim.isNone && !r.sweeping && r.pages.all (fun p => unitState d T.YRD (p / 768) ≠ .resetting))

/-- The waybill claims its private regions when it starts (R279). -/
def claimRegions (u : Nat) (img : Image) (d : Dev) : Dev :=
  each (privateRegions d img) (fun id d =>
    if (getDesc d id).sweep = 0 then d else updDesc id (fun r => { r with claim := some u }) d) d

/-- What happens to the private regions when the claiming waybill ends, by the SWEEP that each has then; one that sweeps
already is only unclaimed (R174). -/
def releaseRegions (u status : Nat) (d : Dev) : Dev :=
  each ((d.yard.descs.filter (fun e => e.2.claim = some u)).map (·.1)) (fun id d =>
    let r := getDesc d id
    let d1 := updDesc id (fun r => { r with claim := none }) d
    if !r.sweeping && (r.sweep = 2 || (r.sweep = 1 && isAbort status)) then startSweep id .keep d1 else d1) d

/-! ### The dispatch pool (R283) -/

/-- Dispatch targets (R23): coaches, CTL1 to CTL3 and engines, by unit id. -/
def targets : List Nat := List.range 64 ++ [0x41, 0x42, 0x43] ++ (List.range 10).map (0x48 + ·)

/-- COACH_POOL and OTHER_POOL. -/
def kCoachPool : Nat := kD 5 0x040
def kOtherPool : Nat := kD 5 0x048

/-- Whether a unit is in the dispatch pool. -/
def inPool (d : Dev) (u : Nat) : Bool :=
  if u < 64 then (rd64 d kCoachPool).testBit u
  else if u < 0x44 then rdB d kOtherPool (10 + (u - 0x41)) else rdB d kOtherPool (u - 0x48)

/-- The WORK slot in a unit's step slot: queue and index. -/
def stepSlot (d : Dev) (u : Nat) : Option (Nat × Nat) :=
  let v := Map.get (fun _ => 0) d.dpt.steps u
  if v = 0 then none else some ((v - 1) / 65536, (v - 1) % 65536)

/-- Setting a unit's step slot. -/
def setStep (u : Nat) (x : Option (Nat × Nat)) (d : Dev) : Dev :=
  { d with dpt := { d.dpt with steps := Map.set (fun _ => 0) d.dpt.steps u (match x with
    | some (q, i) => slotKey q i + 1
    | none => 0) } }

/-- The waybill in a unit's step slot returns to READY, keeping its ready time (R280). -/
def unslot (u : Nat) (d : Dev) : Dev :=
  match stepSlot d u with
  | some (q, i) => makeReady q i true (setStep u none d)
  | none => d

/-- Whether a unit should be in the pool at a boundary (R283, R644, R253). -/
def poolWorthy (d : Dev) (u : Nat) : Bool :=
  let p := unitPage u
  let st := unitState d p.1 p.2
  enabled d p.1 p.2 && st != .stabled && st != .probation && st != .off &&
    (p.1 ≠ T.CTL || (getCore d (64 + p.2)).dispatch)

/-- Clearing a unit's bit in the stabled map (R470, R472). -/
def mapBit (code : Nat) (on : Bool) (d : Dev) : Dev :=
  let i := code % 0x1000
  let put := fun (k b : Nat) => wr64 k (putBit (rd64 d k) b on) d
  match code / 0x1000 with
  | 0 => if i < 64 then put (rk T.INT 0 2 0x050) i
         else if i < 0x44 then put (rk T.INT 0 2 0x058) (10 + (i - 0x41)) else put (rk T.INT 0 2 0x058) (i - 0x48)
  | 1 => put (rk T.INT 0 2 0x060) i
  | 2 => if i < 64 then put (rk T.INT 0 2 0x068) i else put (rk T.INT 0 2 0x070) (i - 64)
  | 3 => put (rk T.INT 0 2 0x058) (16 + i)
  | _ => d

/-- Whether a unit in probation has passed its test (R470). -/
def passed (d : Dev) (code : Nat) : Bool := d.integ.passed.contains code

/-- A unit that has passed its probation returns to service (R470). -/
def admitUnit (code : Nat) (d : Dev) : Dev :=
  let p := codePage code
  let d1 := setScore code 0 (mapBit code false (setUnitState p.1 p.2 .running d))
  { d1 with integ := { d1.integ with passed := d1.integ.passed.filter (· ≠ code) } }

/-- Whether the locks of a holder are being reaped (R162). -/
def reaping (d : Dev) (u : Nat) : Bool := d.yard.reaps.any (fun r => r.holder = u && r.holderMod = moduleNo d)

/-- Whether the waybill in the step slot of a unit that leaves the pool returns to READY (R280): not where CTRL ENABLE alone
takes the unit out, whose slotted work runs to its end (R644, log entry 174). -/
def losesSlot (d : Dev) (u : Nat) : Bool :=
  let p := unitPage u
  let st := unitState d p.1 p.2
  st = .stabled || st = .probation || (p.1 = T.CTL && !(getCore d (64 + p.2)).dispatch)

/-- A dispatch epoch boundary (R283, R299). A unit that has passed its probation returns once its locks are reaped
(R162). -/
def boundary (d : Dev) : Dev :=
  let d1 := each (targets.filter (fun u => passed d u && !reaping d u &&
    unitState d (unitPage u).1 (unitPage u).2 = .probation)) admitUnit d
  let d2 := each (List.range 16) (fun n d => updCmp n (fun c => { c with
    coaches := rd64 d (kC n 0x050), others := rd d (kC n 0x058), gate := rdB d (kC n 0x04C) 0 }) d) d1
  let d3 := each (targets.filter (fun u => inPool d2 u && !poolWorthy d2 u && losesSlot d2 u)) unslot d2
  let coach := (List.range 64).foldl (fun a u => if poolWorthy d3 u then setBit a u else a) 0
  let engines := (List.range 10).foldl (fun a e => if poolWorthy d3 (0x48 + e) then setBit a e else a) 0
  let other := [1, 2, 3].foldl (fun a c => if poolWorthy d3 (0x40 + c) then setBit a (9 + c) else a) engines
  let d4 := wr kOtherPool other (wr64 kCoachPool coach d3)
  let k := kD 0 0x05C
  wr (kD 0 0x058) (rd d4 (kD 0 0x058) + 1) (wrF k 5 0 (rdF d4 k 5 0 + rdF d4 k 13 8) d4)

/-! ### Choosing a unit (R277, R278, R300, R301) -/

/-- Whether a compartment is assigned a unit, by the masks in force (R297, R299). -/
def assigned (d : Dev) (cmp u : Nat) : Bool :=
  let c := getCmp d cmp
  if u < 64 then c.coaches.testBit u else if u < 0x44 then c.others.testBit (10 + (u - 0x41))
  else c.others.testBit (u - 0x48)

/-- Units of a queue's CLASS and SUB. -/
def ofClass (qd : Queue) (u : Nat) : Bool :=
  if qd.cls = 0 then decide (u < 64)
  else if qd.cls = 1 then decide (0x48 + 2 * qd.sub ≤ u) && decide (u < 0x4A + 2 * qd.sub)
  else decide (0x41 ≤ u) && decide (u ≤ 0x43)

/-- Eligible units before engine budgets (R277). -/
def eligible0 (d : Dev) (q : Nat) (img : Image) (u : Nat) : Bool :=
  let qd := getQueue d q
  ofClass qd u && inMask qd u && assigned d qd.owner u && inPool d u && (!img.pinEn || img.pin = u)

/-- A compartment is over budget on an engine (R300). -/
def overBudget (d : Dev) (cmp e : Nat) : Bool :=
  let s := fld (rd64 d (kC cmp 0x060)) (4 * e + 3) (4 * e)
  s ≠ 0 && decide (rd d (kC 0 0x0C4) * s / 16 ≤ Map.get (fun _ => 0) (getCmp d cmp).used e)

/-- READY waybills in the pool. -/
def readySlots (d : Dev) : List (Nat × Nat × Slot) := slotsWhere d (fun _ s => s.state = .ready && !s.deferred)

/-- Another compartment within budget on the unit has a ready waybill eligible for it (R301). -/
def rivalWithin (d : Dev) (cmp u : Nat) : Bool :=
  (readySlots d).any (fun x =>
    let o := queueOwner d x.1
    o ≠ cmp && !overBudget d o (u - 0x48) && eligible0 d x.1 x.2.2.image u)

/-- Eligible units (R277, R301). -/
def eligible (d : Dev) (q : Nat) (img : Image) (u : Nat) : Bool :=
  eligible0 d q img u && !(decide (0x48 ≤ u) && overBudget d (queueOwner d q) (u - 0x48) && rivalWithin d (queueOwner d q) u)

/-- Units in rotation order (R278). -/
def rotation (d : Dev) : List Nat :=
  let b := rdF d (kD 0 0x05C) 5 0
  (List.range 64).map (fun i => (b + i) % 64) ++ [0x41, 0x42, 0x43] ++ (List.range 10).map (0x48 + ·)

/-- Whether a unit is idle: it runs nothing, is in no reset, no resident program, debugger or kill holds it, and its locks
are not being reaped (R162, R315 step 2). -/
def unitIdle (d : Dev) (u : Nat) : Bool :=
  let p := unitPage u
  (runOf d u).isNone && unitState d p.1 p.2 != .resetting && (decide (0x44 ≤ u) || ((getCore d u).mode = .idle && !(getCore d u).halted)) &&
    !reaping d u

/-- Coaches whose held weights belong to the owner come first (R278 rule 1). -/
def weightsFirst (d : Dev) (owner : Nat) (us : List Nat) : List Nat :=
  let mine := fun u => decide (u < 64) && (getCore d u).wbCmp = owner + 1
  us.filter mine ++ us.filter (fun u => !mine u)

/-- Where a waybill is placed (R278). -/
inductive Spot where
  | idle (u : Nat)
  | step (u : Nat)
  | displace (u : Nat)
deriving DecidableEq, Repr

/-- The unit whose step slot holds the lowest priority below `prio`, the first in order among equals. -/
def displaceable (d : Dev) (prio : Nat) (us : List Nat) : Option Nat :=
  ((List.range prio).findSome? (fun p => us.find? (fun u => match stepSlot d u with
    | some (q, _) => (getQueue d q).prio = p
    | none => false)))

/-- The first rule of R278 that yields a unit. -/
def spotFor (d : Dev) (q : Nat) (img : Image) : Option Spot :=
  let us := weightsFirst d (queueOwner d q) ((rotation d).filter (eligible d q img))
  match us.find? (fun u => unitIdle d u && (stepSlot d u).isNone) with
  | some u => some (.idle u)
  | none =>
    match us.find? (fun u => (stepSlot d u).isNone && !unitIdle d u) with
    | some u => some (.step u)
    | none => (displaceable d (getQueue d q).prio us).map .displace

/-- The order in which the dispatcher considers ready waybills (R277, R288): a rank, least first. -/
def rank (d : Dev) (q : Nat) (s : Slot) : Nat :=
  let p := (getQueue d q).prio
  let last := Map.get (fun _ => 0xFFFF) d.dpt.lastRr p
  (3 - p) * 2 ^ 120 + ((q + 65536 - last - 1) % 65536) * 2 ^ 100 + b2n (!s.ahead) * 2 ^ 90 + s.readySeq

/-- Inserting by rank. -/
def rankInsert (d : Dev) (x : Nat × Nat × Slot) : List (Nat × Nat × Slot) → List (Nat × Nat × Slot)
  | [] => [x]
  | y :: ys => if rank d x.1 x.2.2 < rank d y.1 y.2.2 then x :: y :: ys else y :: rankInsert d x ys

/-- READY waybills in the order of R277. -/
def readyOrder (d : Dev) : List (Nat × Nat × Slot) := (readySlots d).foldl (fun l x => rankInsert d x l) []

/-! ### Runs -/

/-- Giving a waybill to a unit: it is RUNNING, and claims its private regions (R275, R279). -/
def startRun (u q i : Nat) (d : Dev) : Dev :=
  let s := getSlot d q i
  let o := queueOwner d q
  let n := nextSeq d
  let run : Running := { queue := q, slot := i, image := s.image, payload := s.payload, cmp := o, kind := .original,
                         serial := n + 1, gate := (getCmp d o).gate }
  claimRegions u s.image (updSlot q i (fun s => { s with state := .running, ahead := false }) (setRun u (some run) (stepSeq d)))

/-- A unit's run is to end with a status once its posted writes are done; the first reported ending stands. -/
def setEnding (u status user s1 : Nat) (d : Dev) : Dev :=
  match runOf d u with
  | some r =>
    if r.ended.isSome then d
    else setRun u (some { r with ended := some { status := status, user := user, unit := u, s1 := s1 } }) d
  | none => d

/-- Posted writes of an initiator that are not yet acknowledged or failed, those that a sweep holds included (R166). -/
def outstanding (d : Dev) (who : Who) : Nat :=
  (d.net.flights.filter (fun f => f.who = who && f.posted)).length +
    (d.yard.held.filter (fun h => h.acc.who = who && h.acc.write)).length

/-- The requester that a unit id names. -/
def unitWho (u : Nat) : Who :=
  if u < 64 then .coach (Fin.ofNat 64 u) else if u < 0x44 then .ctl (Fin.ofNat 4 (u - 0x40))
  else .engine (Fin.ofNat 10 (u - 0x48))

/-- An engine's job. -/
def getEng (d : Dev) (u : Nat) : Eng := Map.get (fun _ => ({} : Eng)) d.engs u

/-- Whether the job of a run has read poison, however it ends (R365). -/
def readPoison (d : Dev) (r : Running) (u : Nat) : Bool := (getEng d u).poison && (getEng d u).serial = r.serial

/-- The final status of a run (R284). -/
def finalStatus (d : Dev) (r : Running) (e : Ending) : Ending :=
  let late := isLate r.image (tick d % 2 ^ 32)
  { e with status := if isAbort e.status then e.status else if r.lost then 0x30 else if late then 1 else 0,
           late := late, tick := tick d, poison := e.poison || readPoison d r e.unit }

/-- A unit reports the end of its run: regions, epoch, integrity block, and the slot's completion (R284, R285). -/
def finishRun (u : Nat) (d : Dev) : Dev :=
  match runOf d u with
  | none => d
  | some r =>
    match r.ended with
    | none => d
    | some e0 =>
      if outstanding d (unitWho u) ≠ 0 then d
      else
        let e := finalStatus d r e0
        let p := unitPage u
        let d1 := releaseRegions u e.status d
        let d2 := if isAbort e.status && !r.advanced && decide (u < 0x44) && r.kind = .original then epochAdvance u d1
                  else d1
        let d3 := if e.status = 0x20 && r.kind = .original then
            cper { cls := 0x03, block := p.1, inst := p.2, cmp := some r.cmp, tag := r.image.tag, queue := r.queue,
                   unit := u } d2
          else d2
        let d4 := push (.runEnded u r e) (setRun u none d3)
        let idle := fun (c : Core) =>
          if c.mode = .frameFault then c
          else { c with wait := .none, mode := if c.mode = .debugHalt then .debugHalt else .idle }
        let d5 := if u < 0x44 then doIf (decide (u < 64)) (bump64 (rk T.CCH u 1 0x080)) (updCore u idle d4) else d4
        match r.kind with
        | .original =>
          let held := r.gate && r.sample.isSome
          let d6 := updSlot r.queue r.slot (fun s => { s with
            state := .completing, ending := e, gated := if held then some (tick d) else none }) d5
          if held then d6 else push (.complete r.queue r.slot) d6
        | _ => d5

/-- The run of a unit that is reset, or lost, ends with a status, unless it has already ended with an abort that is not yet
reported; a duplicate is abandoned (R112, R288, R290, R446). The holder's epoch has advanced with the reset or the
stabling, and an ending that is part of it advances it no more (R161). -/
def cutRun (u status : Nat) (d : Dev) : Dev :=
  match runOf d u with
  | none => d
  | some r =>
    match r.kind with
    | .original =>
      if r.advanced || r.ended.any (fun e => isAbort e.status) then d
      else setRun u (some { r with advanced := true, ended := some { status := status, unit := u } }) d
    | _ => push (.abandoned u r) (setRun u none d)

/-- A REPLAYABLE waybill whose unit is lost returns to READY ahead of its queue (R288). -/
def replay (u : Nat) (r : Running) (d : Dev) : Dev :=
  let d1 := releaseRegions u 0x25 (setRun u none d)
  stat 7 (updSlot r.queue r.slot (fun s => { s with ahead := true, replayed := true })
    (makeReady r.queue r.slot true d1))

/-- The accesses of a unit that sweeps hold are no longer its cluster's to hold, and answers that an engine's job waits for
are of no use to the next. -/
def forgetWaits (u : Nat) (d : Dev) : Dev :=
  let mine := fun (w : Who) => 0x48 ≤ u && w = unitWho u
  { d with
    yard := { d.yard with waits := d.yard.waits.filter (fun w => w.1 ≠ unitWho u) }
    dbr := { d.dbr with far := d.dbr.far.map (fun f => if mine f.who && !f.posted then { f with what := .dropped } else f) }
    hst := { d.hst with reads := d.hst.reads.map (fun r => if mine r.who then { r with what := .dropped } else r) } }

/-- The waybills of a unit that is stabled (R280, R288). -/
def loseRun (u : Nat) (d : Dev) : Dev :=
  let d1 := unslot u (forgetWaits u d)
  match runOf d1 u with
  | none => d1
  | some r =>
    if r.kind = .original && !r.advanced && !r.ended.any (fun e => isAbort e.status) && r.image.replayable &&
        !(getSlot d1 r.queue r.slot).replayed then
      replay u r d1
    else cutRun u 0x25 d1

/-- The waybills of a unit that takes a unit reset (R112, R280, R290). -/
def resetRun (u : Nat) (d : Dev) : Dev := cutRun u 0x24 (unslot u (forgetWaits u d))

end Sys2Proof.Machine
end

