-- ==== Sys2Proof/Machine/Rights.lean ====
section
/-! DEFINITION. Who acts for which compartment (R57), and the rights of requesters at register pages (R57, R58, R646). -/

namespace Sys2Proof.Machine

/-- Whether the SERVICE_CLOSE fuse is in force (R597). -/
def serviceClosed (d : Dev) : Bool := rdB d (rk T.FUS 0 0 0x100) 0

/-- The compartment a requester acts for (R57, R30). -/
def cmpOf (d : Dev) (w : Who) : Nat :=
  let ofRun := fun u => match runOf d u with
    | some r => some r.cmp
    | none => none
  match w with
  | .coach n => (ofRun n.val).getD 0
  | .ctl n =>
    if n.val = 0 || (getCore d (64 + n.val)).super then 0
    else (ofRun (0x40 + n.val)).getD (rdF d (rk T.CTL n.val 0 0x040) 7 4)
  | .engine n => (ofRun (0x48 + n.val)).getD 0
  | .host f => f.val
  | .drawbar _ c => c.val
  | _ => 0

/-- The address of a register word. -/
def regAddr (k : Nat) : Nat := 0x40000000 + k

/-- Whether an address lies in the register-page window, and its key. -/
def regKey (a : Nat) : Option Nat := if 0x40000000 ≤ a ∧ a < 0x50000000 then some (a - 0x40000000) else none

/-- A requester restricted as the management bus is after SERVICE_CLOSE. -/
def closedBus (d : Dev) (w : Who) : Bool := w = .mgmt && serviceClosed d

/-- Whether a page is assignable: CAP[1] (R56). -/
def assignable (k : Nat) : Bool := (capBits (keyTy k) (keyInst k)).testBit 1

/-- The owner in the sense of the rights table: pages that are not assignable count as OWNER 0 (R57, R58). -/
def tableOwner (d : Dev) (k : Nat) : Nat := if assignable k then ownerOf d (keyTy k) (keyInst k) else 0

/-- VEC_BIND, the MSI-X table and the PBA of the page of VF n, which compartment n reaches too (R506). -/
def ownFunction (c k : Nat) : Bool := keyTy k = T.HST && keyPage k = 1 + c && decide (0x400 ≤ keyOff k)

/-- Whether a requester may read a register word (R57). Unpopulated slots read as zero for everyone (R49). -/
def mayRead (d : Dev) (w : Who) (k : Nat) : Bool :=
  if !populated d.part k then true
  else if closedBus d w then
    keyTy k = T.TLM || decide (keyOff k ≤ 0x020) || (keyTy k = T.INT && keyPage k = 3 && (keyOff k = 0x064 || keyOff k = 0x068))
  else
    let c := cmpOf d w
    if c = 0 then true
    else
      let o := tableOwner d k
      o = c || o = 15 || (keyTy k = T.CMP && keyInst k = c) || (keyTy k = T.TLM && keyPage k = 4 + c) || ownFunction c k

/-- Fields of a register word that a requester other than compartment 0 may write where its page is its own: RW, W1C and
W1S fields, and registers marked WO (R9, R57, R646). -/
def openMask (k : Nat) : Nat :=
  let a := accOf k
  if a.wo then 0xFFFFFFFF else a.rw ||| a.w1c ||| a.w1s

/-- The fields a requester may write (R57, R646): none when it may write no field at all and the write is refused, a
read-only register among them (log entry 89); words that read as zero ignore writes (R51, R643). OWNER cannot name
compartment 15 (R58). -/
def writeMask (d : Dev) (w : Who) (k : Nat) : Option Nat :=
  if !populated d.part k then some 0
  else if closedBus d w then (if keyOff k = 0x010 then some (accOf k).w1c else none)
  else
    let c := cmpOf d w
    if c = 0 || ownFunction c k then some 0xFFFFFFFF
    else if tableOwner d k ≠ c || c = 15 then none
    else if keyOff k = 0x008 || keyOff k = 0x01C || keyOff k = 0x024 then none
    else if openMask k ≠ 0 then some (openMask k)
    else if keyOff k = 0x010 || keyOff k = 0x014 || (decide (0x028 ≤ keyOff k) && decide (keyOff k < 0x040)) then some 0
    else none

/-- A refused access at a register page (R59, R311). -/
def refusedReg (w : Who) (k : Nat) (write : Bool) (d : Dev) : Dev :=
  let o := if assignable k || keyTy k = T.CMP then ownerOf d (keyTy k) (keyInst k) else 0
  let shared := assignable k && o = 15
  refused { who := w, cmp := cmpOf d w, write := write } .refusedRights (some o) shared (regAddr k) d

/-- A command that is a write of a register by a requester: refused when it may write no field of it, and then answered
as refused. -/
def guarded (w : Who) (k : Nat) (f : Dev → Dev) (d : Dev) : Dev :=
  match writeMask d w k with
  | some _ => f d
  | none => answer w (.refused .refusedRights) (refusedReg w k true d)

/-- A command that is a write of a field that only compartment 0 may write. -/
def guardedSup (w : Who) (k : Nat) (f : Dev → Dev) (d : Dev) : Dev :=
  if populated d.part k && cmpOf d w = 0 && !closedBus d w then f d
  else if !populated d.part k then d
  else answer w (.refused .refusedRights) (refusedReg w k true d)

end Sys2Proof.Machine
end

