-- ==== Sys2Proof/Machine/YardCmds.lean ====
section
/-! DEFINITION. What the commands of the yard do (chapter 5): reads and writes with the turntable, atomics, descriptor
commands, sweeps, tallies, semaphores and reaping. -/

namespace Sys2Proof.Machine

/-! ### The turntable (R147, R148) -/

/-- The yard address of cell (r, c) of a 2-D region (R131). -/
def cellAddr (g : Desc) (r c : Nat) : Nat :=
  g.base + ((r / 32) * g.wb + c / 32) * 0x1000 + (r % 32 * 32 + c % 32) * 4

/-- The row and column of a yard address in a 2-D region. -/
def cellRC (g : Desc) (a : Nat) : Nat × Nat :=
  let o := a - g.base
  let k := o / 0x1000
  let n := o % 0x1000 / 4
  (k / g.wb * 32 + n / 32, k % g.wb * 32 + n % 32)

/-- Whether a port serves a turntable mode with a number of cells, an element size and a stride (R147, R148). -/
def ttShape (w : Who) (m : TtMode) (n e stride : Nat) : Bool :=
  match m with
  | .transpose => !narrow w && (e = 8 || e = 16 || e = 32)
  | .stride => !narrow w && decide (1 ≤ stride) && decide (stride ≤ 4095)
  | _ => decide (1 ≤ n) && decide (n ≤ if narrow w then 4 else 32)

/-- Whether a mode fits the layout of a region, and a ROW access its width (R147). -/
def ttFits (g : Desc) (a : Nat) (m : TtMode) (n : Nat) : Bool :=
  match m with
  | .linear => true
  | .stride => !g.twoD
  | .row => g.twoD && decide ((cellRC g a).2 + n ≤ 32 * g.wb)
  | _ => g.twoD

/-- The addresses of the cells that a turntable access of a region delivers, in order (R147). -/
def ttCells (g : Desc) (a : Nat) (m : TtMode) (n stride : Nat) : List Nat :=
  let rc := cellRC g a
  match m with
  | .linear => (List.range n).map (fun i => a + 4 * i)
  | .stride => (List.range 32).map (fun i => a + 4 * (i * stride))
  | .row => (List.range n).map (fun i => cellAddr g rc.1 (rc.2 + i))
  | .col => (List.range n).map (fun i => cellAddr g (rc.1 + i) rc.2)
  | .transpose => (List.range 32).map (fun i => cellAddr g (rc.1 + i) rc.2)

/-- One of the accesses, one per cluster, that a turntable access becomes (R149): the places of its cells in the whole
access with their addresses, and whether the mode fits the region. -/
structure TtPart where
  fits  : Bool
  cells : List (Nat × Nat)
deriving DecidableEq, Repr

/-- The address that a part is checked at. -/
def TtPart.head (p : TtPart) : Nat := (p.cells.head?.map (·.2)).getD 0

/-- The parts of a turntable access (R149). DESIGN CHOICE (log entry 148): a STRIDE access whose cells lie in two clusters
becomes one access for each, as the modes that R149 names do. An access that no region covers, or whose mode does not fit its region, is
checked at its first address. -/
def ttParts (d : Dev) (a : Nat) (m : TtMode) (n stride : Nat) : List TtPart :=
  match regionAt d a with
  | none => [⟨true, [(0, a)]⟩]
  | some (_, g) =>
    if !ttFits g a m n then [⟨false, [(0, a)]⟩]
    else
      let cells := ttCells g a m n stride
      let placed := (List.range cells.length).zip cells
      ((cells.map stationAt).eraseDups).map (fun s => ⟨true, placed.filter (fun c => stationAt c.2 = s)⟩)

/-- The check of a part where it lands (R142). -/
def partCheck (d : Dev) (acc : Access) (p : TtPart) : Verdict :=
  landingCheck d acc p.head (fun id _ => p.fits && p.cells.all (fun c => (regionAt d c.2).map (·.1) = some id))

/-- Reading cells at addresses. -/
def readAt : List Nat → Dev → List (W32 × Bool) × Dev
  | [], d => ([], d)
  | a :: as, d =>
    let r := readCell (a / 4) d
    let rest := readAt as r.2
    (r.1 :: rest.1, rest.2)

/-- TRANSPOSE regroups elements of E bits (R148). -/
def regroup (e : Nat) (cs : List (W32 × Bool)) : List PByte :=
  let per := 32 / e
  let bytes := e / 8
  (List.range per).flatMap (fun k => cs.flatMap (fun c =>
    (leBytes bytes (c.1.toNat >>> (k * e))).map (fun b => (b, c.2))))

/-- Reading the cells of a part that has been let in. -/
def readPart (acc : Access) (p : TtPart) (d : Dev) : List (W32 × Bool) × Dev :=
  readAt (p.cells.map (·.2)) (countClass acc.who p.head p.cells.length (tcount 5 (4 * p.cells.length) d))

/-- A turntable read: each part is checked and counted on its own (R142, R147, R149), and none is read while one is
held. -/
def ttRead (acc : Access) (a : Nat) (m : TtMode) (n e stride : Nat) (d : Dev) : ReadOut × Dev :=
  let ps := ttParts d a m n stride
  if ps.any (fun p => partCheck d acc p = .held) then (.held, each ps (fun p d => noteWait acc.who p.head d) d)
  else
    let r := ps.foldl (fun (r : (Option Kind × List (W32 × Bool)) × Dev) p =>
      match partCheck d acc p with
      | .fail k o =>
        ((r.1.1.or (some k), r.1.2), refused acc k o false p.head (clusterRefused acc k p.head r.2))
      | .ok =>
        let x := readPart acc p r.2
        ((r.1.1, r.1.2 ++ x.1), x.2)
      | _ => ((r.1.1, r.1.2 ++ List.replicate p.cells.length (0, true)), r.2)) ((none, []), d)
    (match r.1.1 with
     | some k => .fail k
     | none => .data (if m = .transpose then regroup e r.1.2 else cellBytes r.1.2), r.2)

/-! ### Reads and writes as commands -/

/-- Storage upset: bits of one stored cell flip (R440). -/
def upsetCell (a : Nat) (bits : BitVec 39) (d : Dev) : Dev :=
  if bits = 0 then d else putCell (a / 4) (getCell d (a / 4) ^^^ bits) d

/-- What a read answers its requester. -/
def readAnswer : ReadOut → Answer
  | .data bs => .data (bs.map (·.1)) (bs.any (·.2))
  | .fail k => .refused k
  | .held => .waits

/-- Holding a requester's access. -/
def hold (h : HeldAccess) (d : Dev) : Dev := park h (answer h.acc.who .waits d)

/-- The serial number of the waybill a unit runs. -/
def serialOf (d : Dev) (u : Nat) : Nat := ((runOf d u).map (·.serial)).getD 0

/-- The flights that a step has launched hear nothing of what became of them (R183). -/
def unanswered (before d : Dev) : Dev :=
  let n := before.net.flights.length
  { d with net := { d.net with
      flights := d.net.flights.take n ++ (d.net.flights.drop n).map (fun f => { f with st := .pending }) } }

/-- The response of a read has been lost on its way back: the requester waits for its timer (R183). -/
def unheardRead (acc : Access) (a : Nat) (d : Dev) : Dev :=
  launch ⟨acc.who, acc.cmp, tagOf d acc.who.unitId, 0, a, false, .pending, tick d, false⟩ d

/-- How a read that its target has answered ends at its requester, by what befell it on its way. -/
def endRead (acc : Access) (a : Nat) (f : Fate) (o : ReadOut) (d : Dev) : Dev :=
  match f with
  | .unheard => unheardRead acc a d
  | .spoiled => answer acc.who (readAnswer o.spoil) (pathParity acc a d)
  | _ => answer acc.who (readAnswer o) d

/-- A posted write of a unit on its way: one that is lost, or whose response is, has no response, and one whose
data is spoiled fails at its target (R182, R183, R442). -/
def sendWrite (acc : Access) (tag a : Nat) (bs : List Byte) (d : Dev) : Dev :=
  let serial := serialOf d acc.who.unitId
  let on := sendOff acc a d
  let fly := fun st => launch ⟨acc.who, acc.cmp, tag, serial, a, true, st, tick d, acc.stream⟩
  match on.1 with
  | .lost => fly .pending on.2
  | .spoiled => (postWrite true acc tag serial a bs on.2).2
  | .arrives => (postWrite false acc tag serial a bs on.2).2
  | .unheard => unanswered on.2 (postWrite false acc tag serial a bs on.2).2

/-- YARD_READ: `n` cells at `a` in a turntable mode (R142, R133); a shape that the requester's port does not serve starts
nothing (R147). `m0` is what befalls the request on its way, `upset` the bits of the first cell that have flipped in
storage. -/
def yardReadCmd (w : Who) (a : Nat) (m : TtMode) (n e stride : Nat) (m0 : Mishap) (upset : BitVec 39) (d : Dev) :
    Dev :=
  let acc : Access := { who := w, cmp := cmpOf d w, unit := w.unitId }
  if yardEnd ≤ a then answer w (.refused .noRegion) (decodeError acc a d)
  else if !ttShape w m n e stride then d
  else
    let on := sendOff acc a (onWay m0 d)
    if on.1 = .lost then unheardRead acc a on.2
    else
      let r := ttRead acc a m n e stride (upsetCell a upset on.2)
      match r.1 with
      | .held => hold { station := stationAt a, acc := acc, addr := a, data := [], tag := 0, mode := m, cells := n, elem := e,
                        stride := stride } r.2
      | o => endRead acc a on.1 o r.2

/-- YARD_WRITE: a posted write where it lands (R165, R142, R134). `m0` is what befalls it on its way, `parity`
says that its data fails byte parity at the bank, `rounds` how often a full ring buffer refused its flits. -/
def yardWriteCmd (w : Who) (a : Nat) (bs : List Byte) (m0 : Mishap) (parity : Bool) (rounds : Nat) (d : Dev) : Dev :=
  let acc : Access := { who := w, cmp := cmpOf d w, write := true, unit := w.unitId }
  let tag := tagOf d w.unitId
  if yardEnd ≤ a then
    launch ⟨w, acc.cmp, tag, serialOf d w.unitId, a, true, .failed .noRegion, tick d, false⟩ (decodeError acc a d)
  else sendWrite acc tag a bs (ringRefused w a rounds (onWay (if parity then .data else m0) d))

/-- The cells of a turntable write, in the order of their addresses: TRANSPOSE takes them apart as R148 delivers them. -/
def scatter (m : TtMode) (e : Nat) (bs : List Byte) : List (List Byte) :=
  if m = .transpose then
    (List.range 32).map (fun c => (List.range (32 / e)).flatMap (fun k => (bs.drop ((k * 32 + c) * (e / 8))).take (e / 8)))
  else (List.range (bs.length / 4)).map (fun i => (bs.drop (4 * i)).take 4)

/-- One part of a turntable write: its cells are checked, then every cell lands (R142, R147, R149). -/
def ttWritePart (spoiled : Bool) (acc : Access) (p : TtPart) (m : TtMode) (e : Nat) (bs : List Byte) (d : Dev) :
    WriteOut × Dev :=
  let a := p.head
  match partCheck d acc p with
  | .ok =>
    let words := scatter m e bs
    let d1 := countClass acc.who a p.cells.length (tcount 5 (4 * p.cells.length) d)
    if spoiled then (.fail .pathParity, pathParity acc a d) else
    (.ok, countCells a p.cells.length (each p.cells (fun c d => (writeCells c.2 (words.getD c.1 []) d).2) d1))
  | .held => (.held, d)
  | .poison => (.fail .unitStabled, d)
  | .fail k o => (.fail k, if k.isRefusal then refused acc k o false a (clusterRefused acc k a d) else d)

/-- A turntable write whose outcome its requester is told at once: nothing lands while a part of it has to wait (R149). -/
def turnWrite (acc : Access) (a : Nat) (m : TtMode) (e stride : Nat) (bs : List Byte) (d : Dev) : WriteOut × Dev :=
  let r := (ttParts d a m (bs.length / 4) stride).foldl (fun (r : WriteOut × Dev) p =>
    let x := ttWritePart false acc p m e bs r.2
    (r.1.join x.1, x.2)) (.ok, d)
  if r.1 = .held then (.held, each (ttParts d a m (bs.length / 4) stride) (fun p d => noteWait acc.who p.head d) d) else r

/-- The parts of a posted turntable write, where they land: one that must wait is held. -/
def landTurn (spoiled : Bool) (acc : Access) (tag serial a : Nat) (m : TtMode) (e stride : Nat) (bs : List Byte) (d : Dev) :
    Dev :=
  each (ttParts d a m (bs.length / 4) stride) (fun p d =>
    let r := ttWritePart spoiled acc p m e bs d
    match r.1 with
    | .held => park { station := stationAt p.head, acc := acc, addr := a, data := bs, tag := tag, mode := m, elem := e,
                      stride := stride, spoiled := spoiled, part := some p.head } d
    | o => launch ⟨acc.who, acc.cmp, tag, serial, p.head, true, postedOutcome o, tick d, acc.stream⟩ r.2) d

/-- A posted turntable write, one for each cluster (R149, R165). -/
def sendTurn (acc : Access) (tag a : Nat) (m : TtMode) (e stride : Nat) (bs : List Byte) (d : Dev) : Dev :=
  let serial := serialOf d acc.who.unitId
  let on := sendOff acc a d
  let fly := fun st => launch ⟨acc.who, acc.cmp, tag, serial, a, true, st, tick d, acc.stream⟩
  match on.1 with
  | .lost => fly .pending on.2
  | .spoiled => landTurn true acc tag serial a m e stride bs on.2
  | .arrives => landTurn false acc tag serial a m e stride bs on.2
  | .unheard => unanswered on.2 (landTurn false acc tag serial a m e stride bs on.2)

/-- The part of a held turntable write that its cluster holds. -/
def heldPart (d : Dev) (h : HeldAccess) : TtPart :=
  ((ttParts d h.addr h.mode (h.data.length / 4) h.stride).find? (fun p => stationAt p.head = h.station)).getD
    ⟨true, [(0, h.addr)]⟩

/-- Whose access of the test access port it is: the console's carry the tag 1 (R589, R593). -/
def tapFor (h : HeldAccess) : FarFor := if h.tag = 1 then .console else .plain

/-- A held write is tried again: one that still must wait stays held; of the others the outcome is on its way, but for the
module's own records (R165, R171). -/
def retryWrite (h : HeldAccess) (d : Dev) : Dev :=
  if h.acc.who = .depot || h.acc.who = .tlm || h.acc.who = .integ then (ownWrite h.acc h.addr h.data d).2
  else
    let r := if h.mode = .linear then partWrite h.spoiled h.acc h.addr h.data d
      else ttWritePart h.spoiled h.acc (heldPart d h) h.mode h.elem h.data d
    match r.1 with
    | .held => park h d
    | o => match h.acc.who with
      | .bgs => r.2
      | .tap => push (.back .tap h.addr (tapFor h) (match o with
        | .fail k => .fail k
        | _ => .ack)) r.2
      | w => launch ⟨w, h.acc.cmp, h.tag, serialOf d w.unitId, h.addr, true, postedOutcome o, tick d, h.acc.stream⟩ r.2

/-- A held read is tried again. -/
def retryRead (h : HeldAccess) (d : Dev) : Dev :=
  let r := if h.len ≠ 0 then memRead h.acc h.addr h.len d else ttRead h.acc h.addr h.mode h.cells h.elem h.stride d
  match h.acc.who, r.1 with
  | _, .held => park h d
  | .tap, .data bs => push (.back .tap h.addr (tapFor h) (.data bs)) r.2
  | .tap, .fail k => push (.back .tap h.addr (tapFor h) (.fail k)) r.2
  | w, o => answer w (readAnswer o) r.2

/-- Held accesses proceed, in the order of their issue (R152, R171, R189); what the depot and the sequencer have had to put
off is tried again. -/
def releaseHeld (d : Dev) : Dev :=
  push .readsAgain <| each d.yard.held (fun h d => if h.acc.write then retryWrite h d else retryRead h d)
    { d with yard := { d.yard with held := [], waits := d.yard.waits.filter (fun w => sweepsAt d w.2) } }

/-- The first flight of a requester that satisfies a condition, and the flights without it. -/
def takeFlight (p : Flight → Bool) : List Flight → Option Flight × List Flight
  | [] => (none, [])
  | f :: fs => if p f then (some f, fs) else ((takeFlight p fs).1, f :: (takeFlight p fs).2)

/-- A core that waits at a fence goes on when nothing is outstanding: the count goes to the register (R166). -/
def fenceCheck (w : Who) (d : Dev) : Dev :=
  match holderOf w with
  | none => d
  | some h =>
    match (getCore d h).wait with
    | .fence r =>
      if outstanding d w = 0 then
        updCore h (fun c => ({ (c.setS r c.fence false) with fence := 0 } : Core).goes) d
      else d
    | _ => d

/-- POSTED_WRITE_ACK: the oldest accepted posted write of a requester is acknowledged (R165). -/
def ackCmd (w : Who) (d : Dev) : Dev :=
  let t := takeFlight (fun f => f.who = w && f.posted && f.st = .acked) d.net.flights
  fenceCheck w { d with net := { d.net with flights := t.2 } }

/-- FAILURE_NOTICE: the oldest dropped posted write of a requester is reported (R168, R169). -/
def noticeCmd (w : Who) (d : Dev) : Dev :=
  if w.isHost then d else
  let isFail := fun (f : Flight) => match f.st with
    | .failed _ => f.who = w && f.posted
    | _ => false
  let t := takeFlight isFail d.net.flights
  match t.1 with
  | some f =>
    match f.st with
    | .failed k => fenceCheck w (failureNotice f k { d with net := { d.net with flights := t.2 } })
    | _ => d
  | none => d

/-- LATE_RSP: a response whose timer has expired is discarded and counted (R183). -/
def lateRspCmd (w : Who) (d : Dev) : Dev :=
  if d.net.expired.contains w then
    flag0 T.TPK 0 3 (timerStation w)
      (bump (rk T.TPK 0 0 0x050) { d with net := { d.net with expired := d.net.expired.erase w } })
  else d

/-! ### Atomics (R135) -/

/-- The new value of an atomic on `w`-bit operands. -/
def amoValue (op : AmoOp) (w old src cmp : Nat) : Nat :=
  let s := toSigned w old
  let t := toSigned w src
  match op with
  | .add => (old + src) % 2 ^ w
  | .and => old &&& src
  | .or => old ||| src
  | .swap => src
  | .cas => if old = cmp then src else old
  | .min => if s ≤ t then old else src
  | .max => if s ≤ t then src else old
  | .minu => min old src
  | .maxu => max old src

/-- A yard atomic of 4 or 8 bytes: it needs RD and WR; poison changes nothing and returns the marker (R135, R176). The
answer is the old value with its poison marker, or the failure. -/
def amo (acc : Access) (a bytes : Nat) (op : AmoOp) (src cmp : Nat) (d : Dev) : Except Kind (Nat × Bool) × Dev :=
  let rdAcc := { acc with write := false }
  let wrAcc := { acc with write := true }
  if yardEnd ≤ a then (.error .noRegion, decodeError wrAcc a d)
  else
    match yardCheck d rdAcc a bytes with
    | .poison => (.ok (0, true), d)
    | .held => (.error .claimed, d)
    | .fail k o => (.error k, refused rdAcc k o false a (clusterRefused rdAcc k a d))
    | .ok =>
      match yardCheck d wrAcc a bytes with
      | .ok =>
        let r := readYard a bytes (countClass acc.who a (bytes / 4) d)
        let old := leNat (r.1.map (·.1))
        if r.1.any (·.2) then (.ok (old, true), r.2)
        else (.ok (old, false), (writeCells a (leBytes bytes (amoValue op (8 * bytes) old src cmp)) r.2).2)
      | .fail k o => (.error k, refused wrAcc k o false a (clusterRefused wrAcc k a d))
      | _ => (.error .refusedRights, d)

/-! ### Descriptor commands (R138 to R141) -/

/-- The descriptor slot that DESC_SEL selects, as a descriptor id. -/
def descSel (d : Dev) (s : Nat) : Nat := s * 256 + rdF d (kY s 0 0x044) 7 0

/-- Whether a descriptor command runs (DESC_STATUS BUSY). -/
def descBusy (d : Dev) (s : Nat) : Bool := Map.get (fun _ => 0) d.yard.busy s ≠ 0

/-- Ending a command with a result. -/
def descResult (s r : Nat) (d : Dev) : Dev :=
  wr (kY s 0 0x04C) r { d with yard := { d.yard with busy := Map.set (fun _ => 0) d.yard.busy s 0 } }

/-- A command that goes on until a sweep ends. -/
def descRuns (s id : Nat) (d : Dev) : Dev :=
  { d with yard := { d.yard with busy := Map.set (fun _ => 0) d.yard.busy s (id % 256 + 1) } }

/-- The descriptor in DESC_W0 to DESC_W3. -/
def descOffered (d : Dev) (s : Nat) : Desc :=
  { w0 := rd64 d (kY s 0 0x050), w1 := rd64 d (kY s 0 0x058), w2 := rd64 d (kY s 0 0x060), w3 := rd64 d (kY s 0 0x068) }

/-- A reserved bit is nonzero, or SWEEP is 0b11 (R137). -/
def badField (r : Desc) : Bool :=
  fld r.w0 53 52 ≠ 0 || fld r.w1 63 56 ≠ 0 || fld r.w1 47 32 ≠ 0 || fld r.w2 62 52 ≠ 0 || fld r.w2 31 16 ≠ 0 ||
    fld r.w3 62 52 ≠ 0 || fld r.w3 31 16 ≠ 0 || r.sweep = 3

/-- An enabled binding names a tally of another owner, or of a stabled cluster. -/
def badTally (d : Dev) (r : Desc) : Bool :=
  r.bindings.any (fun b => (getTally d b.1).owner ≠ r.owner || clusterOut d (b.1 / 1024))

/-- DESC_CMD READ. -/
def descRead (s : Nat) (d : Dev) : Dev :=
  if descBusy d s then d
  else
    let r := getDesc d (descSel d s)
    descResult s 0 (wr64 (kY s 0 0x068) r.w3 (wr64 (kY s 0 0x060) r.w2 (wr64 (kY s 0 0x058) r.w1 (wr64 (kY s 0 0x050) r.w0 d))))

/-- The result of a COMMIT before it claims pages (R138). -/
def commitCheck (d : Dev) (s : Nat) (r : Desc) : Nat :=
  let old := getDesc d (descSel d s)
  if old.valid then 0x01
  else if badField r then 0x0A
  else if r.sizePages = 0 || decide (49152 < r.basePage + r.sizePages) then 0x02
  else if r.twoD && r.sizePages % r.wb ≠ 0 then 0x04
  else if r.basePage / 768 ≠ s then 0x06
  else if badTally d r then 0x05
  else if r.pages.any (fun p => clusterOut d (p / 768)) then 0x09
  else if r.pages.any (fun p => (getPage d p).valid) then 0x03
  else 0x00

/-- Whether a COMMIT sweeps a page (R172). -/
def sweepsPage (e : PageEntry) (r : Desc) : Bool := !e.clean && (e.lastOwner ≠ r.owner || r.sweep ≠ 0)

/-- A slot whose VALID is 0 may be committed while its old region still sweeps: that sweep goes on without the slot (R138,
R141). -/
def orphan (id : Nat) (d : Dev) : Dev :=
  let old := getDesc d id
  if old.sweeping then { d with yard := { d.yard with orphans := d.yard.orphans ++ [(id, old)] } } else d

/-- DESC_CMD COMMIT (R139, R172). -/
def descCommit (s : Nat) (d : Dev) : Dev :=
  if descBusy d s then d
  else
    let r := descOffered d s
    let c := commitCheck d s r
    if c ≠ 0 then descResult s c d
    else
      let id := descSel d s
      let any := r.pages.any (fun p => sweepsPage (getPage d p) r)
      let d1 := each r.pages (fun p d => updPage p (fun e => { e with
        valid := true, sweeping := sweepsPage e r, lastOwner := r.owner, desc := id }) d) d
      let d2 := updDesc id (fun _ => { r with
        w0 := setBit r.w0 63, goal := if any then .commit else .none }) (orphan id d1)
      if any then descRuns s id d2 else descResult s 0 d2

/-- The pages of a region become free (R141). -/
def freePages (r : Desc) (d : Dev) : Dev := each r.pages (fun p d => updPage p (fun e => { e with valid := false, desc := 0 }) d) d

/-- DESC_CMD RELEASE (R141). -/
def descRelease (s : Nat) (d : Dev) : Dev :=
  if descBusy d s then d
  else
    let id := descSel d s
    let r := getDesc d id
    if !r.valid then descResult s 0x07 d
    else if r.held || r.sweep ≠ 0 then
      descRuns s id (startSweep id .release (updDesc id (fun x => { x with w0 := clrBit x.w0 63 }) d))
    else descResult s 0 (updDesc id Desc.freed (freePages r d))

/-- DESC_CMD MODIFY (R140). -/
def descModify (s : Nat) (d : Dev) : Dev :=
  if descBusy d s then d
  else
    let id := descSel d s
    let old := getDesc d id
    let r := descOffered d s
    let locked := r.basePage ≠ old.basePage || r.sizePages ≠ old.sizePages || r.twoD ≠ old.twoD ||
      fld r.w1 55 48 ≠ fld old.w1 55 48 || r.owner ≠ old.owner
    let c := if !old.valid then 0x07 else if locked then 0x08 else if badField r then 0x0A
             else if badTally d r then 0x05 else 0x00
    if c ≠ 0 then descResult s c d
    else descResult s 0 (updDesc id (fun x => { x with w0 := setBit r.w0 63, w1 := r.w1, w2 := r.w2, w3 := r.w3 }) d)

/-- STATE of a descriptor slot (DESC_STATUS). -/
def descState (r : Desc) : Nat :=
  if r.sweeping then 3 else if r.held then 4 else if r.claim.isSome then 2 else if r.valid then 1 else 0

/-! ### Sweeps (R170, R171) -/

/-- Zeroing the cells of yard pages: every cell then holds zero with valid check bits. -/
def zeroPages (p : Nat → Bool) (d : Dev) : Dev :=
  { d with yard := { d.yard with cells := d.yard.cells.filter (fun e => !p (e.1 / 1024)) } }

/-- Pages of a list that lie in a station's cluster. -/
def pagesIn (s : Nat) (ps : List Nat) : Nat := (ps.filter (fun p => p / 768 = s)).length

/-- The pages of a region that sweep are zero and CLEAN, and the sweep is counted (R170). -/
def sweepPages (r : Desc) (d : Dev) : Dev :=
  let ps := r.pages.filter (fun p => (getPage d p).sweeping)
  let d1 := each ps (fun p d => updPage p (fun e => { e with sweeping := false, clean := true }) d)
    (zeroPages (fun p => ps.contains p) d)
  each ((List.range 64).filter (fun s => pagesIn s ps ≠ 0)) (fun s d => countY s 0x050 (pagesIn s ps * 32) d) d1

/-- The compartments that wait for a region's sweep hear that it is over (R314, R315). -/
def sweptFor (id : Nat) (d : Dev) : Dev :=
  foldBelow 16 (fun c d =>
    if (getCmp d c).sweeps.contains id then
      push (.cmpSwept c) (updCmp c (fun x => { x with sweeps := x.sweeps.erase id }) d)
    else d) d

/-- SWEEP_DONE: a region's sweep ends; its pages are CLEAN, what waited for it goes on, and held accesses proceed. The
sweep of a region whose slot has been committed again ends first. -/
def sweepDone (id : Nat) (d : Dev) : Dev :=
  match d.yard.orphans.find? (fun o => o.1 = id) with
  | some o =>
    let d1 := freePages o.2 (sweepPages o.2 { d with yard := { d.yard with orphans := d.yard.orphans.erase o } })
    sweptFor id (releaseHeld d1)
  | none =>
    let r := getDesc d id
    if !r.sweeping then d
    else
      let d2 := sweepPages r d
      let s := id / 256
      let mine := Map.get (fun _ => 0) d.yard.busy s = id % 256 + 1
      let d3 := match r.goal with
        | .release => updDesc id Desc.freed (freePages r d2)
        | _ => updDesc id (fun x => { x with goal := .none }) d2
      sweptFor id (releaseHeld (if mine then descResult s 0 d3 else d3))

/-! ### Tallies -/

/-- TALLY_INCREMENT: the oldest increment on its way reaches its tally (R154); a cluster that is out of service or out of
use drops it (R176, R644), and so does a router where its header fails (R182). -/
def tallyIncrement (d : Dev) : Dev :=
  match d.yard.landed with
  | [] => d
  | x :: rest =>
    let s := x.tally / 1024
    let on := sendTo .integ false (some x.station) s (s * clusterBytes) { d with yard := { d.yard with landed := rest } }
    if on.1 = .lost || clusterOut d s || !enabled d T.YRD s then on.2 else tallyAdd x.tally x.cells x.granule on.2

/-- The tally that TALLY_SEL selects. -/
def tallySel (d : Dev) (s : Nat) : Nat := s * 1024 + rdF d (kY s 1 0x040) 9 0

/-- Whose a watch request is. -/
def watchSource (w : WatchFor) : Who :=
  match w with
  | .waybill _ _ => .depot
  | .core h => if h < 64 then .coach (Fin.ofNat 64 h) else .ctl (Fin.ofNat 4 (h - 64))
  | .graph _ => .fgs

/-- Whether a tally's cluster is in service and reachable for a requester (R176, R191). -/
def tallyNear (d : Dev) (w : Who) (t : Nat) : Bool := !clusterOut d (t / 1024) && !clusterCut d w (t / 1024)

/-- A watch that its cluster cannot take (R176, R191, R273, R644): the waybill that waits at its tally completes
ABORT_UNIT_LOST when the cluster is out of service or out of reach, and ABORT_FAULT when it refuses; the core issues its
instruction again; a graph's trigger waits for nothing. -/
def watchRefused (w : Watch) (d : Dev) : Dev :=
  match w.waiter with
  | .waybill q i =>
    if (getSlot d q i).state = .waiting && (getSlot d q i).stage = .tally then
      endUnrun q i (if tallyNear d (watchSource w.waiter) w.tally then 0x23 else 0x25) d
    else d
  | .core h => updCore h (fun c => match c.wait with
    | .tally _ => { c with mode := .running, wait := .none }
    | _ => c) d
  | .graph _ => d

/-- Whether a cluster takes a watch: it is near, it serves, and the tally is owned by the compartment that the waybill
acts for (R273). -/
def watchTaken (d : Dev) (w : Watch) : Bool :=
  tallyNear d (watchSource w.waiter) w.tally && enabled d T.YRD (w.tally / 1024) &&
    (match w.waiter with
     | .waybill q _ => (getTally d w.tally).owner = queueOwner d q
     | _ => true)

/-- TALLY_WATCH_REGISTER (R157, R273). -/
def watchRegister (w : Watch) (d : Dev) : Dev :=
  if !watchTaken d w then watchRefused w d
  else
    let r := watchTally w d
    match r.1 with
    | .fired => push (.watchFired w.waiter) r.2
    | .registered => r.2
    | .full =>
      match w.waiter with
      | .core _ => r.2
      | _ => { r.2 with dpt := { r.2.dpt with retries := r.2.dpt.retries ++ [w] } }

/-! ### Semaphores -/

/-- SEM_TIMEOUT: a queued request whose timeout has expired is answered TIMEOUT (R159). No waiter behind it is granted until
the next SIGNAL or VALUE write (R160, DESIGN CHOICE, log entry 179). -/
def semTimeout (h : Nat) (d : Dev) : Dev :=
  match d.yard.waiters.find? (fun w => w.holder = h && (match w.deadline with
    | some t => decide (t ≤ tick d)
    | none => false)) with
  | some w => answerSem h 2 (dropWaiter w.sem h d)
  | none => d

/-- LOCK_REAP: the broadcast for a holder reaches a cluster (R162); an unreachable or stabled one counts as finished. One
whose header fails is dropped, and is sent again (R182, log entry 153). -/
def lockReap (h s : Nat) (d : Dev) : Dev :=
  match d.yard.reaps.find? (fun r => r.holder = h) with
  | none => d
  | some r =>
    let src := if h < 64 then some h else homeStation (.ctl (Fin.ofNat 4 (h - 64)))
    let on := sendTo .integ false src s (s * clusterBytes) d
    if on.1 = .lost then on.2
    else
      let d1 := if holderCut d h s then on.2 else reapAt r s on.2
      { d1 with yard := { d1.yard with reaps := d1.yard.reaps.map (fun x =>
          if x = r then { x with done := setBit x.done s } else x) } }

/-- LOCK_REAP_DONE: every cluster has finished for a holder (R162). -/
def lockReapDone (h : Nat) (d : Dev) : Dev :=
  { d with yard := { d.yard with reaps := d.yard.reaps.filter (fun r => !(r.holder = h && r.done = 2 ^ 64 - 1)) } }

end Sys2Proof.Machine
end

