-- ==== Sys2Proof/Machine/NetCmds.lean ====
section
/-! DEFINITION. What the commands of the turnpike and of the memory stacks do (chapter 6). -/

namespace Sys2Proof.Machine

/-! ### Links and paths (R177, R186, R188) -/

/-- Keys of the TPK pages. -/
def kT (page off : Nat) : Nat := rk T.TPK 0 page off

/-- A link. -/
def getLink (d : Dev) (l : Nat) : Link := Map.get (fun _ => ({} : Link)) d.net.links l

/-- Changing a link. -/
def updLink (l : Nat) (f : Link → Link) (d : Dev) : Dev :=
  { d with net := { d.net with links := Map.upd (fun _ => ({} : Link)) d.net.links l f } }

/-- Whether new tables may use a link: it is RUNNING or has passed its probation, and is not about to be stabled (R188,
R190). -/
def usableLink (d : Dev) (l : Nat) : Bool :=
  let k := getLink d l
  (k.state = .running || (k.state = .probation && k.passed)) && !d.net.toStable.contains l

/-- The waypoint that gives the fewest hops, the lowest among equals (R188). -/
def bestWay (d : Dev) (s t : Nat) : Option Nat :=
  let hops := fun w => (xyPath s w).length + (yxPath w t).length
  ((List.range 64).filter (fun w => (xyPath s w ++ yxPath w t).all (usableLink d))).foldl
    (fun b w => match b with
      | none => some w
      | some v => if hops w < hops v then some w else some v) none

/-- The entry that the TPK block computes for a source and a destination (R188). -/
def computedRoute (d : Dev) (s t : Nat) : Nat :=
  if (xyPath s t).all (usableLink d) then 0x00
  else if (yxPath s t).all (usableLink d) then 0x40
  else match bestWay d s t with
    | some w => 0x80 + w
    | none => 0xC0

/-- The SHADOW tables computed for every source and destination (R188). -/
def computeShadow (d : Dev) : Dev :=
  { d with net := { d.net with shadow :=
      ((List.range 4096).map (fun k => (k, computedRoute d (k / 64) (k % 64)))).filter (fun e => e.2 ≠ 0) } }

/-- ROUTE_AUTO. -/
def routeAuto (d : Dev) : Bool := rdB d (kT 0 0x040) 8

/-- Starting an epoch switch; a second one waits for the first (R189). -/
def startSwitch (d : Dev) : Dev :=
  if d.net.busy then { d with net := { d.net with again := true } } else { d with net := { d.net with busy := true } }

/-- A link's state has changed or is to change: with ROUTE_AUTO the tables are computed, and then the epoch switches
(R188, R190). Without it compartment 0 does both. -/
def reroute (d : Dev) : Dev := if routeAuto d then startSwitch (computeShadow d) else d

/-- Destinations that a station cannot reach under the ACTIVE tables. -/
def unreachables (d : Dev) : List Nat :=
  (List.range 64).filter (fun t => (List.range 64).any (fun s => cutOff d (some s) t))

/-- Whether the ACTIVE tables use a link. -/
def linkUsed (d : Dev) (l : Nat) : Bool := (List.range 4096).any (fun k => (pathLinks d (k / 64) (k % 64)).contains l)

/-- Links become STABLED (R190, R470). -/
def linksDown (ls : List Nat) (d : Dev) : Dev :=
  each ls (fun l d =>
    cper { cls := 0x20, block := T.TPK, detail := 0x2000 + l }
      (mapBit (0x2000 + l) true (flag0 T.TPK 0 4 l (updLink l (fun k => { k with state := .stabled, passed := false }) d)))) d

/-- EPOCH_SWITCH_DONE: SHADOW becomes ACTIVE; links to be stabled are STABLED once the tables installed avoid them, and
links that have passed their probation are RUNNING once the tables installed use them (R189, R190, R470). Accesses held
for the switch go on. -/
def switchDone (d : Dev) : Dev :=
  if !d.net.busy then d
  else
    let d0 := { d with net := { d.net with active := d.net.shadow, epoch := !d.net.epoch, busy := d.net.again, again := false } }
    let down := d.net.toStable.filter (fun l => !linkUsed d0 l)
    let up := ((d.net.links.filter (fun e => e.2.state = .probation && e.2.passed && !d.net.toStable.contains e.1)).map (·.1)).filter
      (linkUsed d0)
    let d1 := { d0 with net := { d0.net with toStable := d.net.toStable.filter (fun l => !down.contains l) } }
    let d2 := linksDown down d1
    let d3 := each up (fun l d => mapBit (0x2000 + l) false
      (updLink l (fun k => { k with state := .running, passed := false, recent := [] }) d)) d2
    releaseHeld (each (unreachables d3) noteCut d3)

/-- EPOCH_SLOW (R189). -/
def epochSlow (d : Dev) : Dev := if d.net.busy then flag0 T.TPK 0 5 0 d else d

/-- The entry that ROUTE_SEL selects. -/
def routeSel (d : Dev) : Nat := rdF d (kT 1 0x040) 11 0

/-- ROUTE_DATA write: a SHADOW entry, with ROUTE_AUTO 0 (R188). -/
def routeData (v : Nat) (d : Dev) : Dev :=
  if routeAuto d || !rdB d (kT 1 0x040) 12 then d
  else { d with net := { d.net with shadow := Map.set (fun _ => 0) d.net.shadow (routeSel d) (v % 256) } }

/-- Declining a request (R471). -/
def decline (code reason : Nat) (d : Dev) : Dev :=
  wr (rk T.INT 0 2 0x04C) (0x80000000 + reason * 0x10000 + code) (flag0 T.INT 0 11 reason d)

/-- Stabling a link: tables that avoid it are installed first (R190); they avoid one whose probation has not passed. It returns
through a probation of its own again (R470). -/
def stableLink (l : Nat) (d : Dev) : Dev :=
  if !linkExists l then d
  else if (getLink d l).state = .stabled then decline (0x2000 + l) 0x05 d
  else if (getLink d l).state = .probation && !(getLink d l).passed && !linkUsed d l then linksDown [l] d
  else if d.net.toStable.contains l then d
  else reroute (updLink l (fun k => { k with passed := false }) { d with net := { d.net with toStable := d.net.toStable ++ [l] } })

/-- A link's probation test starts (R470); its state has changed (R188). -/
def probeLink (l : Nat) (d : Dev) : Dev :=
  if !linkExists l then d
  else if (getLink d l).state = .stabled then reroute (updLink l (fun k => { k with state := .probation, passed := false }) d)
  else decline (0x2000 + l) 0x01 d

/-- The link that LINK_SEL selects. -/
def linkSel (d : Dev) : Nat := rdF d (kT 1 0x050) 6 0

/-! ### Stack accesses -/

/-- Storage upset: bits of one stored line flip, data symbols first, then M, C2, C1, C0 (R440). -/
def upsetLine (a : Nat) (bits : BitVec 576) (d : Dev) : Dev :=
  if bits = 0 then d
  else
    let n := (a - stackBase) / 64
    let l := getLine d n
    let sym := fun i => (bits.toNat >>> (16 * i)) % 65536
    putLine n { data := l.data ^^^ bits.setWidth 512, mark := l.mark ^^^ sym 32,
                check := ⟨l.check.c2 ^^^ sym 33, l.check.c1 ^^^ sym 34, l.check.c0 ^^^ sym 35⟩ } d

/-- Command parity: `k` failures reported by the stack; the third fails the access (chapter 6, STK). -/
def caFailures (a k : Nat) (d : Dev) : Dev :=
  let m := stackMap d.part (a - stackBase)
  let d1 := bumpBy (kS m.1 1 0x050) (min k 2) d
  if 3 ≤ k then flag0 T.STK m.1 6 m.2.1 d1 else d1

/-- On-die corrections reported by the stack (R197). -/
def dieEcc (a k : Nat) (d : Dev) : Dev := bumpBy (kS (stackMap d.part (a - stackBase)).1 1 0x054) k d

/-- Whether an access reaches its stack now and passes the check of the controller there (R202, R304). -/
def stackLets (d : Dev) (acc : Access) (a len : Nat) : Bool :=
  !stackHeld d acc a && !stackCutOff d acc a len && stackCheck d acc a len = .ok

/-- STACK_READ (R203, R200, R304): what befalls the request on its way, storage upsets of the first line, command parity
failures, and corrections inside the die. -/
def stackReadCmd (w : Who) (a len : Nat) (bar4 : Bool) (m0 : Mishap) (upset : BitVec 576) (ca die : Nat) (d : Dev) : Dev :=
  let acc : Access := { who := w, cmp := cmpOf d w, bar4 := bar4, unit := w.unitId }
  if a < stackBase ∨ stackBase + usable d ≤ a then answer w (.refused .noRegion) (decodeError acc a d)
  else
    let on := sendOff acc a (onWay m0 d)
    if on.1 = .lost then unheardRead acc a on.2
    else
      let d1 := dieEcc a die (caFailures a ca (upsetLine a upset on.2))
      if 3 ≤ ca && stackLets d1 acc a len then endRead acc a on.1 (.data (List.replicate len (0, true))) d1
      else
        let r := memRead acc a len d1
        match r.1 with
        | .held => hold { station := heldAt d a, acc := acc, addr := a, data := [], tag := 0, len := len } d1
        | o => endRead acc a on.1 o r.2

/-- STACK_WRITE: a posted write on its way to where it lands (R201, R304, R165); `parity` says that its data fails byte
parity at the controller. -/
def stackWriteCmd (w : Who) (a : Nat) (bs : List Byte) (m0 : Mishap) (parity : Bool) (ca : Nat) (d : Dev) : Dev :=
  let acc : Access := { who := w, cmp := cmpOf d w, write := true, unit := w.unitId }
  let tag := tagOf d w.unitId
  let fly := fun st d => launch ⟨w, acc.cmp, tag, serialOf d w.unitId, a, true, st, tick d, false⟩ d
  if a < stackBase ∨ stackBase + usable d ≤ a then fly (.failed .noRegion) (decodeError acc a d)
  else if 3 ≤ ca && stackLets d acc a bs.length then
    let on := sendOff acc a (onWay m0 d)
    if on.1 = .lost then fly .pending on.2
    else fly (if on.1 = .unheard then .pending else .failed .stackOffline) (caFailures a ca on.2)
  else sendWrite acc tag a bs (onWay (if parity then .data else m0) (caFailures a ca d))

/-! ### Stack controllers -/

/-- A stack is stabled as a whole; a unit reset of it goes on to its end (R211). -/
def stableStack (p : Nat) (d : Dev) : Dev :=
  cper { cls := 0x20, block := T.STK, inst := p, detail := 0x5000 + p }
    (setUnitState T.STK p .stabled (updStack p (fun c => { c with mode := .stabled }) d))

/-- Whether every fitted stack has completed training (R121, R211). -/
def stacksTrained (d : Dev) : Bool :=
  (List.range d.part.stacks).all (fun p => (stackOf d p).mode != .training)

/-- WAKE_READY sets when BOOT_DONE is set and the stacks have trained; WAKE_TIME holds the ms since the wake event, at most
65,535: DESIGN CHOICE, log entry 144 (R121, R126). -/
def wakeCheck (d : Dev) : Dev :=
  if d.pwr.bootDone && stacksTrained d && !d.pwr.wakeReady then
    let d1 := { d with pwr := { d.pwr with wakeReady := true, wakeRtc := none } }
    match d.pwr.wakeRtc with
    | some t => wr (rk T.AON 0 0 0x060) (min 0xFFFF ((rd64 d (rk T.AON 0 0 0x040) - t) * 1000 / 32768)) d1
    | none => d1
  else d

/-- STACK_TEMP_READ: the reading and its thresholds, in 1/16 °C, from the start of training on (R205). A stack that has
tripped is in self-refresh until it is below 95 °C. -/
def stackTemp (p : Nat) (t : BitVec 16) (d : Dev) : Dev :=
  if d.part.stacks ≤ p || !(stackOf d p).started then d
  else
    let x := t.toInt
    let d1 := wrF (kS p 0 0x044) 15 0 t.toNat d
    let d2 := updStack p (fun c => { c with fastRefresh := decide (85 * 16 < x), halfRate := decide (95 * 16 ≤ x) }) d1
    let d3 := if 95 * 16 ≤ x then flag0 T.STK p 9 0 d2 else d2
    if 105 * 16 ≤ x then updStack p (fun c => { c with hot := true, rows := [], recal := none }) (flag0 T.STK p 10 0 d3)
    else if x < 95 * 16 then updStack p (fun c => { c with hot := false }) d3
    else d3

/-- STACK_TRAINING_DONE: a stack completes training, or fails it and is stabled; a reset that retrains it ends (R211). With
REF lost the stack stays in self-refresh (R78). -/
def trainingDone (p : Nat) (ok : Bool) (d : Dev) : Dev :=
  if d.part.stacks ≤ p || ((stackOf d p).mode != .training && !(stackOf d p).inReset) then d
  else
    let d0 := updStack p (fun c => { c with inReset := false }) (wrB (kCTRL T.STK p) 1 false d)
    let d1 := if ok then
        let u := if unitState d0 T.STK p = .stabled then UnitState.stabled
                 else if enabled d0 T.STK p then .running else .off
        let m := if unitState d0 T.STK p = .stabled then StackMode.stabled
                 else if d.clk.lost then .selfRefresh else .ready
        setUnitState T.STK p u (updStack p (fun c => { c with mode := m }) d0)
      else stableStack p (flag0 T.STK p 7 0 d0)
    wakeCheck d1

/-- Training of the fitted stacks starts (R205, chapter 4). -/
def trainStacks (d : Dev) : Dev :=
  each (List.range d.part.stacks) (fun p d => updStack p (fun c => { c with started := true }) d) d

/-- STACK_RECAL_DONE: after REF restore the stack leaves self-refresh (R207). -/
def recalDone (p : Nat) (d : Dev) : Dev :=
  if (stackOf d p).mode = .recalibrating then updStack p (fun c => { c with mode := .ready }) d else d

/-- A unit reset of a stack starts: self-refresh and retraining; queued accesses, open rows and patrol debt are cleared
(R211). -/
def stackReset (p : Nat) (d : Dev) : Dev := updStack p (fun c => { c with inReset := true, rows := [], debt := 0, recal := none }) d

/-- The line of a stack at a place of its SCRUB_PTR, as a line number of the window (R208). DESIGN CHOICE (log entry 150):
the line index counts the stack's lines in ascending order of their addresses. -/
def patrolLine (d : Dev) (p ptr : Nat) : Nat :=
  (List.range d.part.stacks).foldl (fun a i =>
    let cand := ptr / 4 * 4 * d.part.stacks + i * 4 + ptr % 4
    if (stackMap d.part (cand * 64)).1 = p then cand else a) 0

/-- The line of the window at a line number of a pseudo-channel's own place, in ascending ia (R198). -/
def channelLine (d : Dev) (p pc j : Nat) : Nat :=
  let m := 2 ^ (stackLog d.part + 5)
  (List.range m).foldl (fun a i =>
    let cand := (j / 4 * m + i) * 4 + j % 4
    let at_ := stackMap d.part (cand * 64)
    if at_.1 = p && at_.2.1 = pc then cand else a) 0

/-- Lines of a stack that are not in its spares, and those that SCRUB_PTR goes over: with a channel on the spares these
follow, at their new place (R484). -/
def patrolLines (d : Dev) : Nat := max 1 (usable d / 64 / d.part.stacks)
def patrolTotal (d : Dev) (p : Nat) : Nat := patrolLines d + b2n (rdB d (kS p 0 0x050) 8) * (spareFrom / 64)

/-- The line at a place of SCRUB_PTR. DESIGN CHOICE (log entry 150): the spares' lines come after the others, in ascending
ia of the channel that they hold. -/
def patrolAt (d : Dev) (p ptr : Nat) : Nat :=
  if ptr < patrolLines d then patrolLine d p ptr else channelLine d p (rdF d (kS p 0 0x050) 4 0) (ptr - patrolLines d)

/-- Whether SCRUB_PTR skips a place: its line lies in a stabled pseudo-channel (R484). -/
def patrolSkips (d : Dev) (p ptr : Nat) : Bool :=
  let o := patrolAt d p ptr * 64
  (stackOf d p).pcs.testBit (if ptr < patrolLines d then (stackMap d.part o).2.1 else (servedAt d o).2.1)

/-- The first place from SCRUB_PTR on, and of the next so many, that it does not skip (R484). -/
def patrolPlace (d : Dev) (p : Nat) : Nat → Nat → Nat
  | 0, ptr => ptr
  | n + 1, ptr => if patrolSkips d p ptr then patrolPlace d p n ((ptr + 1) % patrolTotal d p) else ptr

/-- PATROL_READ: while there is debt, the line at SCRUB_PTR is read, written back corrected or poisoned, and the pointer
advances (R208, R483, R484). -/
def patrolRead (p : Nat) (upset : BitVec 576) (d : Dev) : Dev :=
  let old := rd64 d (kS p 1 0x060) % patrolTotal d p
  let ptr := patrolPlace d p (patrolTotal d p) old
  let n := patrolAt d p ptr
  if d.part.stacks ≤ p || !stackOnline d p || (stackOf d p).debt = 0 then d
  else
    let d1 := upsetLine (stackBase + n * 64) upset d
    let fixed := match (getLine d1 n).decode with
      | .corrected w => some (encodeLine w false)
      | _ => none
    let d2 := (readLine n d1).2
    let d3 := match fixed with
      | some l => putLine n l d2
      | none => d2
    let d4 := updStack p (fun c => { c with debt := c.debt - 1 }) d3
    let next := (ptr + 1) % patrolTotal d p
    let d5 := if next ≤ old then bumpWrap (rk T.BGS 0 0 (0x070 + 4 * p)) d4 else d4
    wr64 (kS p 1 0x060) next d5

/-- Lines of a pseudo-channel to migrate (R210). -/
def migrateLines : Nat := spareFrom / 64

/-- A pseudo-channel becomes STABLED; the migration of another one goes on (R210). -/
def pcStabled (p pc : Nat) (d : Dev) : Dev :=
  cper { cls := 0x20, block := T.STK, inst := p, detail := 0x4000 + p * 32 + pc }
    (flag0 T.STK p 11 pc (updStack p (fun c =>
      let mine := decide (c.migrate = some pc)
      { c with pcs := setBit c.pcs pc, migrate := if mine then none else c.migrate, copied := if mine then 0 else c.copied }) d))

/-- Stabling a pseudo-channel: with a free spare it is migrated first (R210). -/
def stablePc (p pc : Nat) (d : Dev) : Dev :=
  let c := stackOf d p
  if d.part.stacks ≤ p then d
  else if c.pcs.testBit pc then decline (0x4000 + p * 32 + pc) 0x05 d
  else if c.migrate = some pc then d
  else if spareEn d && !rdB d (kS p 0 0x050) 8 && c.migrate.isNone then
    wr (kS p 0 0x054) (0x80000000 + migrateLines) (updStack p (fun c => { c with migrate := some pc, copied := 0 }) d)
  else pcStabled p pc d

/-- The copies of lines on the spares: corrected, and an uncorrectable one as poisoned (R210). The rows that are read stay
open (R203). -/
def copyLines (p pc first count : Nat) (d : Dev) : Dev :=
  let mine := d.stk.lines.filter (fun (e : Nat × Line) =>
    let m := stackMap d.part (e.1 * 64)
    m.1 = p && m.2.1 = pc && inR (m.2.2 / 64) first count && decide (m.2.2 < spareFrom))
  each mine (fun e d => openRow (e.1 * 64) <| match e.2.decode with
    | .corrected w => putLine e.1 (encodeLine w false) d
    | .uncorrectable w => putLine e.1 (encodeLine w true) d
    | _ => d) d

/-- MIGRATE_DONE: nothing is copied while the stack is in a unit reset or else offline, and the migration then resumes where it
stopped (R211). So many further lines of the channel are on the spares, in ascending ia, or all that are left; with the
last of them the channel is stabled (R210). -/
def migrateDone (p : Nat) (lines : Option Nat) (d : Dev) : Dev :=
  let c := stackOf d p
  match c.migrate with
  | none => d
  | some pc =>
    if c.inReset || !stackOnline d p then d else
    let left := migrateLines - c.copied
    let n := min left (lines.getD left)
    let d0 := copyLines p pc c.copied n d
    if n < left then
      wr (kS p 0 0x054) (0x80000000 + (left - n)) (updStack p (fun x => { x with copied := c.copied + n }) d0)
    else pcStabled p pc (flag0 T.STK p 12 pc (wr (kS p 0 0x054) 0 (wrF (kS p 0 0x050) 8 0 (256 + pc) d0)))

/-- SPARE_EN write: ignored with SPARE_LATE after the first stack access since the last reset (R209). -/
def spareWrite (on : Bool) (d : Dev) : Dev :=
  if d.stk.accessed then flag0 T.STK 0 13 0 d else wrB (kS 0 0 0x050) 31 on d

/-- STACK_REFRESH: every open row of a bank closes (R203). -/
def stackRefresh (p pc bank : Nat) (d : Dev) : Dev :=
  updStack p (fun c => { c with rows := Map.set (fun _ => 0) c.rows (pc * 32 + bank) 0 }) d

/-- RECAL_CHANNEL_DONE: the channel's rows are closed; two failures keep the previous settings and set RECAL_FAIL
(R206). -/
def recalChannelDone (p : Nat) (failures : Nat) (d : Dev) : Dev :=
  match (stackOf d p).recal with
  | none => d
  | some ch =>
    let d1 := updStack p (fun c => { c with recal := none, rows := c.rows.filter (fun r => r.1 / 64 ≠ ch) }) d
    if 2 ≤ failures then flag0 T.STK p 8 ch d1 else d1

end Sys2Proof.Machine
end

