-- ==== Sys2Proof/Machine/Resets.lean ====
section
/-! DEFINITION. Unit resets (R54, R110, R112, R161, R162, R176) of cores, engines and clusters, the resident programs of
control cores (R253), and the sample slots that a killed compartment loses (R473). -/

namespace Sys2Proof.Machine

/-- The mode of a core that would go into `m`: one that the debugger holds stays halted (R591). -/
def Core.modeOr (c : Core) (m : CoreMode) : CoreMode := if c.mode = .debugHalt then .debugHalt else m

/-- What a core keeps when everything in it starts again. -/
def Core.blank (c : Core) : Core :=
  { box := c.box, dispatch := c.dispatch, redo := c.redo, halted := c.halted, mode := c.modeOr .idle }

/-- A control core that starts another program: the S-level CSRs and ssp are its supervisor's, and stay (R214, R254); a
waybill's start loads both stack pointers by R258. -/
def Core.renewed (c : Core) : Core :=
  { c.blank with
    sstatus := c.sstatus, ivec := c.ivec, xvec := c.xvec, ipie := c.ipie, timecmp := c.timecmp, evqMask := c.evqMask
    cqMask := c.cqMask, ssp := c.ssp }

/-- A core's tally watches are taken away. -/
def dropWatches (h : Nat) (d : Dev) : Dev :=
  { d with yard := { d.yard with watches := d.yard.watches.filter (fun w => w.waiter ≠ .core h) } }

/-- A core loses its working state, with the watches that wait for it. -/
def blankCore (u : Nat) (d : Dev) : Dev := dropWatches u (updCore u Core.blank d)

/-- A control core starts its resident program at C level, CTL0 at S level (R216, R253). -/
def startResident (n : Nat) (d : Dev) : Dev :=
  updCore (64 + n) (fun c => { c.renewed with
    mode := c.modeOr .running, resident := true, super := n = 0, halted := false, redo := false
    pc := rd64 d (rk T.CTL n 0 0x048) % 2 ^ 48 }) d

/-- Setting or clearing CTRL UNIT_RESET of an instance, which reads 1 until the reset completes (R51). -/
def resetBit (ty inst : Nat) (on : Bool) (d : Dev) : Dev := wrB (kCTRL ty inst) 1 on d

/-- A unit reset puts a unit that is neither STABLED nor in PROBATION into RESETTING (R470). -/
def enterReset (ty inst : Nat) (d : Dev) : Dev :=
  let st := unitState d ty inst
  let d1 := if st = .stabled || st = .probation then d else setUnitState ty inst .resetting d
  resetBit ty inst true d1

/-- A unit reset of a dispatch target starts: its waybill ends ABORT_KILLED, its slotted waybill returns to READY, a
core's working state is cleared and its holder epoch advances (R112, R161, R280, R290). -/
def resetUnit (u : Nat) (d : Dev) : Dev :=
  let p := unitPage u
  let d1 := if u < 0x44 then epochAdvance u d else d
  let d2 := resetRun u (enterReset p.1 p.2 d1)
  if u < 0x44 then blankCore u d2 else d2

/-- A unit reset of a cluster starts (R164, R176): locks break, values and tallies are zero, and accesses are held until
its sweep ends. -/
def resetCluster (s : Nat) (d : Dev) : Dev :=
  let d1 := semClusterReset s (enterReset T.YRD s d)
  each ((d1.yard.tallies.map (·.1)).filter (fun t => t / 1024 = s)) rearm d1

/-- The sweep of a whole cluster ends: every cell holds zero, and every page is CLEAN (R170, R176). -/
def sweepCluster (s : Nat) (d : Dev) : Dev :=
  let d1 := zeroPages (fun p => p / 768 = s) d
  let clean := fun (e : Nat × PageEntry) => if e.1 / 768 = s then (e.1, { e.2 with clean := true }) else e
  let ps := (d1.yard.pages.map clean).filter (fun (e : Nat × PageEntry) => e.2 ≠ ({} : PageEntry))
  countY s 0x050 (768 * 32) { d1 with yard := { d1.yard with pages := ps } }

/-- Whether every cluster has finished with the locks of a holder (R162). -/
def reaped (d : Dev) (h : Nat) : Bool :=
  !(d.yard.reaps.any (fun r => r.holder = h && r.holderMod = moduleNo d && r.done ≠ 2 ^ 64 - 1))

/-- A unit reset completes: UNIT_RESET reads 0 and a unit in RESETTING runs again; a holder waits for the lock reaper
(R162), and a control core with DISPATCH_EN 0 starts its resident program (R253) unless a kill has halted it or a compartment reset is to restart it (R314 step
6). -/
def resetDone (ty inst : Nat) (d : Dev) : Dev :=
  if !rdB d (kCTRL ty inst) 1 then d
  else
    let u := if ty = T.CCH then inst else if ty = T.CTL then 0x40 + inst else 0xFF
    if u ≠ 0xFF ∧ reaped d u = false then d
    else
      let d1 := resetBit ty inst false d
      let d2 := if unitState d1 ty inst = .resetting then setUnitState ty inst .running d1 else d1
      let d3 := if ty = T.YRD then releaseHeld (sweepCluster inst d2) else d2
      if ty = T.CTL && inst ≠ 0 && !(getCore d3 (64 + inst)).dispatch && !(getCore d3 (64 + inst)).halted &&
          (getCmp d3 (rdF d3 (rk T.CTL inst 0 0x040) 7 4)).mode != .resetting
        then startResident inst d3 else d3

/-! ### Samples of a killed compartment (R473) -/

/-- A sample slot. -/
def getSample (d : Dev) (k : Nat) : Option Sample := Map.get (fun _ => none) d.integ.samples k

/-- Setting a sample slot. -/
def setSample (k : Nat) (x : Option Sample) (d : Dev) : Dev :=
  { d with integ := { d.integ with samples := Map.set (fun _ => none) d.integ.samples k x } }

/-- Taking a unit's run away without an ending. -/
def dropRun (u : Nat) (d : Dev) : Dev :=
  let d1 := setRun u none (forgetWaits u d)
  if u < 0x44 then blankCore u d1 else d1

/-- The duplicate runs of a sample slot stop. -/
def stopDuplicates (k : Nat) (d : Dev) : Dev :=
  each (targets.filter (fun u => match runOf d u with
    | some r => r.kind = .shadow k || r.kind = .tiebreak k
    | none => false)) dropRun d

/-- The run of a unit no longer counts as sampled in a slot. -/
def unsample (u k : Nat) (d : Dev) : Dev :=
  match runOf d u with
  | some r => if r.sample = some k then setRun u (some { r with sample := none }) d else d
  | none => d

/-- A sample is dropped: its duplicates stop, and its original no longer counts as sampled. -/
def dropSample (k : Nat) (d : Dev) : Dev :=
  match getSample d k with
  | some x => setSample k none (unsample x.unit k (stopDuplicates k d))
  | none => d

/-- Samples that satisfy a condition, with their slots. -/
def samplesWhere (d : Dev) (p : Sample → Bool) : List (Nat × Sample) :=
  d.integ.samples.filterMap (fun e => match e.2 with
    | some x => if p x then some (e.1, x) else none
    | none => none)

end Sys2Proof.Machine
end

