-- ==== Sys2Proof/Machine/Sampling.lean ====
section
/-! DEFINITION. Sampled duplicate execution (R443 to R453) and the counters of the ledger (R455, R458, R460). -/

namespace Sys2Proof.Machine

/-! ### Registers and ledger areas -/

/-- Keys of the INT pages. -/
def kI (page off : Nat) : Nat := rk T.INT 0 page off

/-- STAT[i] of INT page 0. -/
def istat (i : Nat) (d : Dev) : Dev := bump (kI 0 (0x050 + 4 * i)) d

/-- A per-compartment word of INT page 1: LCFG, LTARGET, LDET_N, LRATE, LU, LDET_WORST. -/
def kL (n off : Nat) : Nat := kI 1 (0x100 + 0x20 * n + off)

/-- LCFG of a compartment; compartment 0's is ignored, so that its ledger only counts (R454, log entry 173). -/
def ledgerCfg (d : Dev) (n : Nat) : Nat := if n = 0 then 0 else rd d (kL n 0)

/-- The MODE of a compartment's ledger (R454). -/
def ledgerMode (d : Dev) (n : Nat) : Nat := fld (ledgerCfg d n) 31 30

/-- The current RATE of a compartment. -/
def ledgerRate (d : Dev) (n : Nat) : Nat := rdF d (kL n 0x0C) 10 0

/-- The ledger-RAM offset of a compartment's ledger (R460). -/
def ledgerAt (n off : Nat) : Nat := 0x1000 + n * 0x400 + off

/-- Counting in a 64-bit field of a compartment's ledger. -/
def ledgerCount (n off : Nat) (d : Dev) : Dev := ledWr64 (ledgerAt n off) (ledRd64 d (ledgerAt n off) + 1) d

/-- A count that the ledger takes at the end of the window (R460): TILES, DROPPED, CANCELLED and GATE_UNCHECKED. -/
def ledgerNote (n off : Nat) (d : Dev) : Dev :=
  { d with integ := { d.integ with noted := Map.upd (fun _ => 0) d.integ.noted (n * 0x400 + off) (· + 1) } }

/-- ATTRIB[u] of a compartment (R458, R460). -/
def attrib (d : Dev) (n u : Nat) : Nat := fld (ledRd d (ledgerAt n (0x100 + 2 * u - 2 * (u % 2)))) (16 * (u % 2) + 15) (16 * (u % 2))

/-- Setting ATTRIB[u]. -/
def setAttrib (n u v : Nat) (d : Dev) : Dev :=
  let o := ledgerAt n (0x100 + 2 * u - 2 * (u % 2))
  ledWr o (setFld (ledRd d o) (16 * (u % 2) + 15) (16 * (u % 2)) v) d

/-- An ORIG_AT_FAULT or UNRESOLVED verdict counts against the original's unit (R458). -/
def blame (n u : Nat) (d : Dev) : Dev :=
  let d1 := setAttrib n u (satAdd 16 (attrib d n u) 1) (ledgerCount n 0x030 d)
  { d1 with integ := { d1.integ with wFault := Map.set (fun _ => false) d1.integ.wFault n true } }

/-- A unit is stabled: ATTRIB of each compartment moves from M_ACTIVE to M_RETIRED (R458). -/
def retire (u : Nat) (d : Dev) : Dev :=
  each (List.range 16) (fun n d =>
    let a := attrib d n u
    if a = 0 then d
    else setAttrib n u 0 (ledWr64 (ledgerAt n 0x038) (ledRd64 d (ledgerAt n 0x038) + a)
      (ledWr64 (ledgerAt n 0x030) (ledRd64 d (ledgerAt n 0x030) - a) d))) d

/-! ### K of the latency mode (R455, R456) -/

/-- K of a coach and compartment. -/
def kOf (d : Dev) (u n : Nat) : Nat := Map.get (fun _ => 0) d.integ.kCount (16 * u + n)

/-- Setting K; LDET_WORST follows. -/
def setK (u n v : Nat) (d : Dev) : Dev :=
  let d1 := { d with integ := { d.integ with kCount := Map.set (fun _ => 0) d.integ.kCount (16 * u + n) v } }
  wr (kL n 0x14) ((List.range 64).foldl (fun m c => max m (kOf d1 c n)) 0) d1

/-- A tile has run on a coach: K rises, and DET_OVERDUE sets when it reaches 2 × DET_N. -/
def countK (u n : Nat) (d : Dev) : Dev :=
  if ledgerMode d n ≠ 2 then d
  else
    let k := kOf d u n + 1
    let d1 := setK u n k d
    if k = 2 * rdF d (kL n 8) 15 0 then flag0 T.INT 0 14 u d1 else d1

/-- A conclusive sample of a coach (R455, R457). -/
def conclusive (x : Sample) (d : Dev) : Dev :=
  let d1 := ledgerCount x.cmp 0x020 (istat 1 d)
  let d2 := { d1 with integ := { d1.integ with
    wCompared := Map.upd (fun _ => 0) d1.integ.wCompared x.cmp (· + 1) } }
  if x.unit < 64 then setK x.unit x.cmp 0 d2 else d2

/-! ### Selection (R443 to R445) -/

/-- Whether a waybill is a sampling candidate. -/
def candidate (d : Dev) (cmp : Nat) (img : Image) : Bool :=
  (img.cls = 0 || img.cls = 1) && cmp ≠ 0 && ledgerMode d cmp ≠ 0 && rdB d (kI 0 0x040) 0

/-- The hash that selects samples. -/
def selHash (img : Image) (q i cmp n : Nat) : Nat :=
  crc32c (leBytes 4 img.tag ++ leBytes 2 q ++ leBytes 2 i ++ leBytes 1 cmp ++ leBytes 3 0 ++ leBytes 4 n) >>> 22

/-- Units other than some on which a duplicate of a waybill can ever run. -/
def everEligible (d : Dev) (q : Nat) (but : List Nat) : List Nat :=
  let qd := getQueue d q
  targets.filter (fun u => !but.contains u && ofClass qd u && inMask qd u && assigned d qd.owner u)

/-- The present use of the frame slot that a waybill's ticket names. -/
def turnOf (d : Dev) (img : Image) : Nat :=
  (Map.get (fun _ => ({} : Frame)) (Map.get (fun _ => ({} : Graph)) d.fgs.graphs img.ticketGraph).frames
    img.ticketFrame).turn

/-- An original starts: it may become a sample. -/
def sampleStart (u : Nat) (d : Dev) : Dev :=
  match runOf d u with
  | none => d
  | some r =>
    if r.kind ≠ .original || !candidate d r.cmp r.image then d
    else
      let n := (Map.get (fun _ => 0) d.integ.selCount r.cmp + 1) % 2 ^ 32
      let d1 := setRun u (some { r with cand := true })
        { d with integ := { d.integ with selCount := Map.set (fun _ => 0) d.integ.selCount r.cmp n } }
      let forced := ledgerMode d r.cmp = 2 && u < 64 && decide (rdF d (kL r.cmp 8) 15 0 ≤ kOf d u r.cmp + 1)
      if !forced && decide (ledgerRate d r.cmp ≤ selHash r.image r.queue r.slot r.cmp n) then d1
      else
        let d2 := istat 0 d1
        match findBelow 256 (fun k => (getSample d k).isNone) with
        | none => ledgerNote r.cmp 0x058 (flag0 T.INT 0 5 0 (istat 6 d2))
        | some k =>
          if (everEligible d r.queue [u]).isEmpty then ledgerNote r.cmp 0x058 (istat 7 d2)
          else
            let d3 := setSample k (some { unit := u, queue := r.queue, slot := r.slot, cmp := r.cmp, image := r.image,
                                          payload := r.payload, forced := forced,
                                          turn := turnOf d r.image }) d2
            setRun u (some { r with cand := true, sample := some k })
              { d3 with integ := { d3.integ with runs := Map.set (fun _ => ({} : Digests)) d3.integ.runs u {} } }

/-! ### Placing duplicates (R281, R445, R447, R450) -/

/-- Units in ascending order after one, wrapping. -/
def after (u : Nat) : List Nat := targets.filter (fun v => u < v) ++ targets.filter (fun v => v ≤ u)

/-- The unit for the duplicate that a sample wants now. -/
def duplicateUnit (d : Dev) (x : Sample) : Option Nat :=
  let but := match x.shadow with
    | some v => if x.mismatch then [x.unit, v] else [x.unit]
    | none => [x.unit]
  (after x.unit).find? (fun v => !but.contains v && eligible0 d x.queue { x.image with w0 := clrBit x.image.w0 50 } v
    && unitIdle d v && (stepSlot d v).isNone)

/-- Whether a sample wants a run placed now. -/
def wantsRun (x : Sample) : Bool :=
  if x.mismatch then x.tie.isNone else x.shadow.isNone && x.shadowEnd.isNone

/-- Starting a duplicate on a unit. -/
def startDuplicate (k v : Nat) (x : Sample) (d : Dev) : Dev :=
  let run : Running := { queue := x.queue, slot := x.slot, image := x.image, payload := x.payload, cmp := x.cmp,
                         kind := if x.mismatch then .tiebreak k else .shadow k, serial := nextSeq d + 1 }
  let d1 := setRun v (some run) (stepSeq d)
  let d2 := { d1 with integ := { d1.integ with runs := Map.set (fun _ => ({} : Digests)) d1.integ.runs v {} } }
  let d3 := if x.mismatch then istat 9 d2 else d2
  setSample k (some (if x.mismatch then { x with tie := some v } else { x with shadow := some v })) d3

/-- The first sample that wants a run for which a unit is idle. -/
def nextDuplicate (d : Dev) : Option (Nat × Nat × Sample) :=
  (samplesWhere d wantsRun).findSome? (fun e => (duplicateUnit d e.2).map (fun v => (e.1, v, e.2)))

/-! ### Verdicts (R450 to R452) -/

/-- Releasing a gate-mode original that is held, with its own status or SUSPECT (R452). -/
def releaseGate (q i : Nat) (suspect : Bool) (d : Dev) : Dev :=
  let s := getSlot d q i
  if s.state = .completing && s.gated.isSome then
    push (.complete q i) (updSlot q i (fun s => { s with
      gated := none, ending := if suspect then { s.ending with status := 0x31 } else s.ending }) d)
  else d

/-- The result of a sample is wrong or in doubt (R452, R287, R433). -/
def suspectSample (x : Sample) (d : Dev) : Dev :=
  let s := getSlot d x.queue x.slot
  if s.state = .completing && s.gated.isSome then releaseGate x.queue x.slot true d
  else push (.suspect x.image x.queue x.unit x.turn) d

/-- A cancelled sample gives no verdict; a held original is released (R448, R450, R452). -/
def cancelSample (k : Nat) (d : Dev) : Dev :=
  match getSample d k with
  | none => d
  | some x => releaseGate x.queue x.slot false (dropSample k (ledgerNote x.cmp 0x060 (istat 8 d)))

/-- A verdict in which nothing is wrong with the original: INCONCLUSIVE (false) or AGREE and DUP_AT_FAULT (true). -/
def settled (k : Nat) (x : Sample) (d : Dev) : Dev := releaseGate x.queue x.slot false (dropSample k d)

/-- The CPER record of a verdict (class 0x11). -/
def verdictRecord (x : Sample) (v : Nat) (d : Dev) : Dev :=
  let p := unitPage x.unit
  cper { cls := 0x11, block := p.1, inst := p.2, cmp := some x.cmp, tag := x.image.tag, queue := x.queue,
         unit := x.unit, unit2 := x.shadow.getD 0xFF, detail := v } d

/-- UNRESOLVED (R451). -/
def unresolved (k : Nat) (x : Sample) (d : Dev) : Dev :=
  let d1 := ledgerCount x.cmp 0x048 (istat 10 (flag0 T.INT 0 3 x.unit (verdictRecord x 3 d)))
  let d2 := blame x.cmp x.unit (conclusive x d1)
  let d3 := score x.unit 2 d2
  let d4 := match x.shadow with
    | some v => score v 2 d3
    | none => d3
  suspectSample x (dropSample k d4)

/-- ORIG_AT_FAULT (R451). -/
def origAtFault (k : Nat) (x : Sample) (d : Dev) : Dev :=
  suspectSample x (dropSample k (score x.unit 4 (blame x.cmp x.unit (conclusive x (verdictRecord x 2 d)))))

/-- DUP_AT_FAULT (R451, R458). -/
def dupAtFault (k : Nat) (x : Sample) (d : Dev) : Dev :=
  let d1 := ledgerCount x.cmp 0x040 (conclusive x (verdictRecord x 1 d))
  settled k x (match x.shadow with
    | some v => score v 4 d1
    | none => d1)

/-- SHADOW_END: the original and its shadow have both ended (R450). -/
def shadowEnd (k : Nat) (d : Dev) : Dev :=
  match getSample d k with
  | none => d
  | some x =>
    match x.orig, x.shadowEnd with
    | some o, some s =>
      if x.mismatch then d
      else if isAbort o.status || s.status = 0x20 then cancelSample k d
      else if o.rd ≠ s.rd then settled k x (ledgerCount x.cmp 0x050 (istat 4 d))
      else if o.wd = s.wd then settled k x (ledgerCount x.cmp 0x028 (istat 2 (conclusive x d)))
      else
        let p := unitPage x.unit
        let d1 := cper { cls := 0x10, block := p.1, inst := p.2, cmp := some x.cmp, tag := x.image.tag,
                         queue := x.queue, unit := x.unit, unit2 := x.shadow.getD 0xFF, detail := x.unit }
          (flag0 T.INT 0 2 x.unit (istat 3 d))
        let y := { x with mismatch := true, abandons := 0 }
        let but := [x.unit] ++ (match x.shadow with
          | some v => [v]
          | none => [])
        if (everEligible d x.queue but).isEmpty then unresolved k y d1 else setSample k (some y) d1
    | _, _ => d

/-- TIEBREAK_END (R451). -/
def tiebreakEnd (k : Nat) (d : Dev) : Dev :=
  match getSample d k with
  | none => d
  | some x =>
    match x.orig, x.shadowEnd, x.tieEnd with
    | some o, some s, some t =>
      if t.rd ≠ o.rd then unresolved k x d
      else if t.wd = o.wd then dupAtFault k x d
      else if t.wd = s.wd then origAtFault k x d
      else unresolved k x d
    | _, _, _ => d

/-- A gate-mode original has been held for GATE_WAIT ticks (R453). -/
def gateOver (lim now : Nat) (s : Slot) : Bool := match s.gated with
  | some t => decide (t + lim ≤ now)
  | none => false

/-- The verdict that is due on a sample whose runs have ended is given (R473). -/
def giveVerdict (k : Nat) (x : Sample) (d : Dev) : Dev :=
  if x.mismatch then (if x.tieEnd.isSome then tiebreakEnd k d else d)
  else if x.orig.isSome && x.shadowEnd.isSome then shadowEnd k d else d

/-- GATE_WAIT_EXPIRE: an original held for GATE_WAIT ticks is released unchecked, unless its verdict is due at that moment
(R453, R473). -/
def gateExpire (d : Dev) : Dev :=
  let lim := rd d (kI 0 0x044)
  match slotsWhere d (fun _ s => gateOver lim (tick d) s) with
  | [] => d
  | (q, i, _) :: _ =>
    let mine := fun (d : Dev) => samplesWhere d (fun x => x.queue = q && x.slot = i)
    let d0 := each (mine d) (fun e d => giveVerdict e.1 e.2 d) d
    if (getSlot d0 q i).gated.isNone then d0
    else
      let o := queueOwner d0 q
      let d1 := ledgerNote o 0x068 (flag0 T.INT 0 4 o (istat 11 d0))
      releaseGate q i false (each (mine d1) (fun e d => dropSample e.1 d) d1)

/-! ### Ends of runs -/

/-- What a run's ending adds to the write digest (R449). -/
def endDigest (e : Ending) : Nat :=
  crc32c (leBytes 1 e.status ++ leBytes 1 e.user ++ leBytes 8 e.s1 ++ leBytes 5 0)

/-- The digests of a unit's run. -/
def digestsOf (d : Dev) (u : Nat) : Digests := Map.get (fun _ => ({} : Digests)) d.integ.runs u

/-- Setting the digests of a unit's run. -/
def setDigests (u : Nat) (x : Digests) (d : Dev) : Dev :=
  { d with integ := { d.integ with runs := Map.set (fun _ => ({} : Digests)) d.integ.runs u x } }

/-- Folding one access into the digests of a unit's run, when it belongs to a sample (R449). -/
def foldAccess (u source addr : Nat) (write : Bool) (bs : List Byte) (d : Dev) : Dev :=
  match runOf d u with
  | none => d
  | some r =>
    if r.kind = .original && r.sample.isNone then d
    else
      let x := digestsOf d u
      let n := x.seqs.getD source 0
      let c := crc32c (leBytes 1 source ++ leBytes 4 n ++ leBytes 6 addr ++ leBytes 1 bs.length ++ bs)
      let seqs := (List.range 10).map (fun i => if i = source then (n + 1) % 2 ^ 32 else x.seqs.getD i 0)
      setDigests u (if write then { x with wd := (x.wd + c) % 2 ^ 64, seqs := seqs }
        else { x with rd := (x.rd + c) % 2 ^ 64, seqs := seqs }) d

/-- The run of a unit has performed an operation that cancels its sample (R448). -/
def cancelRun (u : Nat) (d : Dev) : Dev :=
  match runOf d u with
  | none => d
  | some r =>
    match r.kind with
    | .original => (match r.sample with
      | some k => cancelSample k d
      | none => d)
    | .shadow k => cancelSample k d
    | .tiebreak k => cancelSample k d

/-- A tile of a compartment has ended (R455, R457, R460): every one counts in TILES and, on a coach, in K; W_TILES takes
the candidates and the waybills of the other classes. -/
def countTile (u : Nat) (r : Running) (d : Dev) : Dev :=
  let d1 := ledgerNote r.cmp 0x018 d
  let d2 := if r.image.cls ≠ 0 || r.cand then
      { d1 with integ := { d1.integ with wTiles := Map.upd (fun _ => 0) d1.integ.wTiles r.cmp (· + 1) } }
    else d1
  if u < 64 then countK u r.cmp d2 else d2

/-- INT learns of the end of a run (R449, R450, R457). -/
def runEnded (u : Nat) (r : Running) (e : Ending) (d : Dev) : Dev :=
  let x := digestsOf d u
  let fin : RunEnd := ⟨e.status, x.rd, (x.wd + endDigest e) % 2 ^ 64⟩
  let d0 := setDigests u {} d
  match r.kind with
  | .original =>
    let d1 := countTile u r d0
    (match r.sample with
     | some k => (match getSample d1 k with
       | some s => if s.queue = r.queue && s.slot = r.slot && s.unit = u then setSample k (some { s with orig := some fin }) d1
                   else d1
       | none => d1)
     | none => d1)
  | .shadow k =>
    (match getSample d0 k with
     | some s =>
       if armed d0 T.INT 0 0 2 |>.isSome then
         setSample k (some { s with shadowEnd := some { fin with wd := (fin.wd + 1) % 2 ^ 64 } }) (fired T.INT 0 0 d0)
       else setSample k (some { s with shadowEnd := some fin }) d0
     | none => d0)
  | .tiebreak k =>
    (match getSample d0 k with
     | some s => setSample k (some { s with tieEnd := some fin }) d0
     | none => d0)

/-- A duplicate has been abandoned (R446, R451). -/
def abandoned (u : Nat) (r : Running) (d : Dev) : Dev :=
  let d0 := istat 5 (setDigests u {} d)
  match r.kind with
  | .original => d0
  | .shadow k =>
    (match getSample d0 k with
     | some x =>
       if 2 ≤ x.abandons then dropSample k (ledgerNote x.cmp 0x058 d0)
       else setSample k (some { x with abandons := x.abandons + 1, shadow := none }) d0
     | none => d0)
  | .tiebreak k =>
    (match getSample d0 k with
     | some x =>
       if 2 ≤ x.abandons then unresolved k x d0
       else setSample k (some { x with abandons := x.abandons + 1, tie := none }) d0
     | none => d0)

end Sys2Proof.Machine
end

