-- ==== Sys2Proof/Machine/DepotCmds.lean ====
section
/-! DEFINITION. What the commands of the depot do (chapter 8): enqueue windows, records, queue and counter commands,
placement, the timetable, completion queues and dispatch epochs. -/

namespace Sys2Proof.Machine

/-! ### Enqueue windows (R263 to R267) -/

/-- The deadline of a window enqueue that begins to wait now (R263). -/
def brakeDeadline (d : Dev) : Option Nat := some (tick d + rdF d (kD 0 0x060) 15 0)

/-- What becomes of an offer through a window: a refusal writes a REFUSED record (R266); a full queue in brake mode
makes the producer wait up to BRAKE_LIMIT ticks. An offer behind one of the same requester to the same queue waits with it,
so that they are accepted in order (R263). -/
def offerWindow (w : Who) (q : Nat) (img : Image) (d : Dev) : Dev :=
  let c := cmpOf d w
  let b : BrakeWait := { who := w, cmp := c, queue := q, image := img, deadline := brakeDeadline d, window := true, node := none }
  match d.dpt.brakes.find? (fun b => b.who = w && b.queue = q) with
  | some first =>
    -- behind an offer that waits for a slot it waits for one too; behind one that waits for a read it has no limit yet
    answer w .waits (if first.braked then awaits .brake b d
      else { d with dpt := { d.dpt with brakes := d.dpt.brakes ++ [{ b with deadline := none }] } })
  | none =>
    let r := enqueue w c q false img d
    match r.1 with
    | .code 0 => answer w (.code 0) r.2
    | .code n => answer w (.code n) (refusedRecord q img.tag r.2)
    | o => answer w .waits (awaits o b r.2)

/-- Any other access to an enqueue window is refused (R263, R59). -/
def refusedWindow (w : Who) (q off : Nat) (write : Bool) (d : Dev) : Dev :=
  answer w (.refused .refusedRights)
    (refused { who := w, cmp := cmpOf d w, write := write } .refusedRights (some (queueOwner d q)) false
      (0x60000000 + 0x40 * q + off) d)

/-- A brake wait that ends in refusal is flagged; a wait for a read of the backing area is no brake wait (R266). -/
def brakeFlag (b : BrakeWait) (d : Dev) : Dev := doIf b.braked (flag0 T.DPT 0 3 b.queue) d

/-- A window enqueue that has waited ends in refusal (R266). -/
def brakeRefused (b : BrakeWait) (d : Dev) : Dev := refusedRecord b.queue b.image.tag (brakeFlag b d)

/-- BRAKE_TIMEOUT: the first braked window enqueue whose wait is over is refused (R263, R266). -/
def brakeTimeout (d : Dev) : Dev :=
  let late := fun (b : BrakeWait) => match b.deadline with
    | some t => b.window && decide (t ≤ tick d)
    | none => false
  match d.dpt.brakes.find? late with
  | none => d
  | some b =>
    let d1 := { d with dpt := { d.dpt with brakes := d.dpt.brakes.erase b } }
    brakeRefused b (countRefusal b.queue d1)

/-- The image of a TOKEN record (R257). -/
def tokenImage (key slot payload : Nat) (void : Bool) : Image :=
  { w0 := 3 * 2 ^ 62, w4 := slot % 4 * 2 ^ 33 + b2n void * 2 ^ 32 + key % 2 ^ 32, w5 := payload % 2 ^ 64 }

/-- The image of a DECREMENT record (R257). -/
def decrementImage (ctr n : Nat) (void : Bool) : Image :=
  { w0 := 3 * 2 ^ 62 + 1 * 2 ^ 59, w4 := b2n void * 2 ^ 31 + n % 256 * 2 ^ 20 + ctr % 2 ^ 20 }

/-- A read of 8 bytes at offset 0 of an enqueue window (R286). -/
def windowWord (d : Dev) (q : Nat) : Nat :=
  let qd := getQueue d q
  let full := if qd.kind = 0 then (getSlot d q (qd.tail % qd.size)).state ≠ .free else qd.cqFull
  qd.w3 + b2n full

/-- CQ_HEAD_WRITE: the consumer advances HEAD, and completions held for room proceed (R285, R286). -/
def cqHead (w : Who) (q v : Nat) (d : Dev) : Dev :=
  let qd := getQueue d q
  let c := cmpOf d w
  if qd.valid && qd.kind = 1 && (c = qd.owner || c = 0) then
    releaseCq q (updQueue q (fun x => { x with head := x.head + (v + 65536 - x.head % 65536) % 65536 }) d)
  else refusedWindow w q 8 true d

/-! ### Queue commands (R260 to R262) -/

/-- QUEUE_SEL. -/
def queueSel (d : Dev) : Nat := rdF d (kD 1 0x040) 15 0

/-- QSTATUS. -/
def qResult (c : Nat) (d : Dev) : Dev := wr (kD 1 0x048) c d

/-- The descriptor in QDESC_W0 to QDESC_W2. -/
def queueOffered (d : Dev) : Queue :=
  { w0 := rd64 d (kD 1 0x050), w1 := rd64 d (kD 1 0x058), w2 := rd64 d (kD 1 0x060) }

/-- Whether a ring is misaligned, outside fitted memory, or too large. -/
def badRing (d : Dev) (qd : Queue) : Bool :=
  let e := if qd.kind = 0 then 64 else 16
  let len := e * qd.size
  decide (12 < qd.ringLog2) || qd.base % e ≠ 0 ||
    !(decide (qd.base + len ≤ yardEnd) ||
      (decide (stackBase ≤ qd.base) && decide (qd.base + len ≤ stackBase + fitted d.part)))

/-- Whether CQ names no VALID COMPLETION queue of the same owner. -/
def badCq (d : Dev) (qd : Queue) : Bool :=
  let c := getQueue d qd.cq
  qd.kind = 0 && qd.cqEn && !(c.valid && c.kind = 1 && c.owner = qd.owner)

/-- QCMD READ. -/
def qRead (q : Nat) (d : Dev) : Dev :=
  let qd := getQueue d q
  qResult 0 (wr64 (kD 1 0x068) qd.w3 (wr64 (kD 1 0x060) qd.w2 (wr64 (kD 1 0x058) qd.w1 (wr64 (kD 1 0x050) qd.w0 d))))

/-- QCMD COMMIT of a descriptor. -/
def qCommit (q : Nat) (n : Queue) (d : Dev) : Dev :=
  if (getQueue d q).valid then qResult 1 d
  else if badRing d n then qResult 2 d
  else if badCq d n then qResult 6 d
  else qResult 0 (backQueue q (updQueue q (fun _ => { n with w0 := setBit n.w0 63, tail := 0, occ := 0, head := 0 }) d))

/-- QCMD MODIFY. -/
def qModify (q : Nat) (n : Queue) (d : Dev) : Dev :=
  let o := getQueue d q
  if !o.valid then qResult 3 d
  else if n.kind ≠ o.kind || n.owner ≠ o.owner || n.ringLog2 ≠ o.ringLog2 || n.base ≠ o.base then qResult 5 d
  else if badCq d n then qResult 6 d
  else qResult 0 (backQueue q (updQueue q (fun x => { x with w0 := setBit n.w0 63, w1 := n.w1, w2 := n.w2 }) d))

/-- Whether a COMPLETION queue is named by a VALID WORK queue. -/
def cqNamed (d : Dev) (q : Nat) : Bool :=
  d.dpt.queues.any (fun e => e.2.valid && e.2.kind = 0 && e.2.cqEn && e.2.cq = q)

/-- QCMD RELEASE. -/
def qRelease (q : Nat) (d : Dev) : Dev :=
  let o := getQueue d q
  if !o.valid then qResult 3 d
  else if (o.kind = 0 && o.occ ≠ 0) || (o.kind = 1 && cqNamed d q) then qResult 4 d
  else qResult 0 (backQueue q (updQueue q (fun x => { x with w0 := clrBit x.w0 63 }) d))

/-- A slot is freed without completion actions, and everything it waits for forgets it (R291). -/
def dropSlot (q i : Nat) (d : Dev) : Dev :=
  let s := getSlot d q i
  let mine := fun (w : Watch) => w.waiter = .waybill q i
  let d1 := ttDrop (· = .waybill q i) d
  let d2 := { d1 with
    yard := { d1.yard with watches := d1.yard.watches.filter (fun w => !mine w) }
    dpt := { d1.dpt with
      retries := d1.dpt.retries.filter (fun w => !mine w)
      heldOps := d1.dpt.heldOps.filter (· ≠ .arm q i)
      store := d1.dpt.store.filter (fun e => e.waiter ≠ some (q, i)) } }
  let d3 := if s.image.ready = 1 && s.state = .waiting && s.stage = .form then ctrUnbind s.image.ctrId (slotKey q i + 1) d2 else d2
  fillPool (freeSlot q i d3)

/-- QCMD PURGE: every WAITING and READY waybill of the queue ends under the kill handling (R262, R291). -/
def qPurge (q : Nat) (d : Dev) : Dev :=
  if !(getQueue d q).valid then qResult 3 d
  else
    qResult 0 (unblock (fun _ _ => true)
      (each (slotsWhere d (fun p s => p = q && (s.state = .waiting || s.state = .ready)))
        (fun x d => dropSlot x.1 x.2.1 d) d))

/-- A queue command by its code. -/
def queueOp (code q : Nat) (n : Queue) (d : Dev) : Dev :=
  match code with
  | 0 => qRead q d | 1 => qCommit q n d | 2 => qModify q n d | 3 => qRelease q d | _ => qPurge q d

/-- A queue command reads the queue's descriptor first (R294): it is held, BUSY, while that read has to wait (R296), and a
poisoned one is fatal (R295). -/
def queueTry (code q : Nat) (n : Queue) (d : Dev) : Dev :=
  let r := fetchQueue q d
  match r.1 with
  | .here => queueOp code q n r.2
  | .fatal => r.2
  | why => holdOp why (.command code q n.w0 n.w1 n.w2) (wr (kD 1 0x048) (2 ^ 31) r.2)

/-- A write of QCMD: codes above 4 do nothing, and neither does a write while a command is held (R262). -/
def queueCmd (v : Nat) (d : Dev) : Dev :=
  if 4 < fld v 2 0 || rdB d (kD 1 0x048) 31 then d
  else depotCheck (queueTry (fld v 2 0) (queueSel d) (queueOffered d)) d

/-- An operation that was held for a read of the backing area is tried again (R296). -/
def retryOp (op : DepotOp) (d : Dev) : Dev :=
  match op with
  | .decrement c => ctrDec c d
  | .void c => ctrVoid c d
  | .voidBound c key => ctrVoidBound key c d
  | .clear c => ctrZero c d
  | .unbind c key => ctrUnbind c key d
  | .arm q i => if (getSlot d q i).state = .waiting && (getSlot d q i).stage = .form then armForm q i d else d
  | .token cmp key slot payload void => deliverToken cmp key slot payload void d
  | .command code q w0 w1 w2 => queueTry code q { w0 := w0, w1 := w1, w2 := w2 } d

/-- Every held operation is tried again, in order. -/
def retryOps (d : Dev) : Dev := each d.dpt.heldOps retryOp { d with dpt := { d.dpt with heldOps := [] } }

/-! ### Counters -/

/-- CTR_CMD CLEAR: ignored while the counter is bound (DPT page 2). -/
def ctrClear (d : Dev) : Dev := ctrZero (rdF d (kD 2 0x040) 19 0) d

/-- CTR_ENTRY of the counter that CTR_SEL names, as it stands on chip (R294); zero on the management bus, which cannot wait,
for one that a read could not bring there (log entry 118). -/
def ctrEntry (d : Dev) (c : Nat) : Nat :=
  if (backing d).isNone || d.dpt.cached.contains c then counterWord (getCtr d c) else 0

/-- A read of CTR_ENTRY brings the counter on chip: offline, it sets BACKING_OFFLINE; poisoned, it is fatal (R295, R296). -/
def ctrLook (d : Dev) : Dev :=
  let r := fetchCtr (rdF d (kD 2 0x040) 19 0) d
  if r.1 = .offline then flag0 T.DPT 0 12 0 r.2 else r.2

/-! ### The timetable -/

/-- FSYNC_PERIOD of an output, at least 100 ticks (R361, R645). -/
def fsyncPeriod (d : Dev) (n k : Nat) : Nat := max 100 (rd d (rk T.INK n 0 (0x104 + 0x20 * k)))

/-- TIMETABLE_FIRE: the first entry fires when it is due (R274). -/
def timetableFire (d : Dev) : Dev :=
  match d.dpt.table with
  | [] => d
  | e :: rest =>
    if tick d < e.due then d
    else
      let d1 := { d with dpt := { d.dpt with table := rest } }
      let d2 := if e.due < tick d then bump (kD 4 0x050) d1 else d1
      let period := match e.action with
        | .fsync n k => fsyncPeriod d n k
        | _ => e.period
      let d3 := if e.period = 0 then d2 else ttAdd (e.due + period) period e.action d2
      match e.action with
      | .waybill q i => armForm q i d3
      | .graph g => push (.graphDue g e.due) d3
      | .fsync _ k => push (.fsyncDue k (decide (e.due < tick d))) d3

/-! ### Placement (R276 to R281, R292, R296) -/

/-- What the depot reads in a slot of a ring (R292, R296): a stack that does not answer, or a read that a sweep or an epoch
switch holds (R171, R189), makes the placement wait. -/
inductive RingRead where
  | good | poison | offline | held
deriving DecidableEq, Repr

/-- Reading the image in a slot's place in its ring. -/
def readRing (q i : Nat) (d : Dev) : RingRead × Dev :=
  let a := (getQueue d q).base + 64 * i
  if stackBase ≤ a && depotOffline d (a - stackBase) 64 then (.offline, offlineAccess (stackMap d.part (a - stackBase)).1 d)
  else
    let r := readPiece { who := .depot, cmp := 0 } a 64 d
    match r.1 with
    | .data bs => (if bs.any (·.2) then .poison else .good, r.2)
    | .held => (.held, r.2)
    | .fail _ => (.poison, r.2)

/-- A poisoned image: the slot is freed and a record written without the waybill's actions; the record waits while the CQ
is full, and the slot with it (R285 item 5, R292). -/
def poisonWaybill (q i : Nat) (d : Dev) : Dev :=
  fillPool (finishSlot q i (updSlot q i (fun s => { s with
    state := .completing, image := { w0 := 0xFFFFFFFF }, replayed := false
    ending := { status := 0x20, tick := tick d } }) (flag0 T.DPT 0 11 q (stat 9 d))))

/-- A waybill starts on a unit (R275, R279, R443). -/
def startOn (u q i : Nat) (d : Dev) : Dev :=
  told (queueOwner d q) 0 (cstat (queueOwner d q) 1 (stat 1 (sampleStart u (startRun u q i d))))

/-- Placing a waybill. -/
def placeAt (q i : Nat) (s : Spot) (d : Dev) : Dev :=
  let slotIn := fun u d => stat 5 (setStep u (some (q, i)) (updSlot q i (fun x => { x with state := .slotted }) d))
  let d1 := match s with
    | .idle u => startOn u q i d
    | .step u => slotIn u d
    | .displace u => slotIn u (stat 6 (unslot u d))
  fillPool { d1 with dpt := { d1.dpt with
    lastRr := Map.set (fun _ => 0xFFFF) d1.dpt.lastRr (getQueue d q).prio q } }

/-- The engine on which a waybill waits only because its compartment is over budget (R301). -/
def limitedEngine (d : Dev) (q : Nat) (img : Image) : Option Nat :=
  ((List.range 10).find? (fun e => eligible0 d q img (0x48 + e) && overBudget d (queueOwner d q) e &&
    rivalWithin d (queueOwner d q) (0x48 + e)))

/-- The first waybill in order that can be placed is placed, or ends without running (R277 to R279, R292, R296). The
answer says whether there was one. -/
def placeFirst : List (Nat × Nat × Slot) → Dev → Bool × Dev
  | [], d => (false, d)
  | (q, i, s) :: rest, d =>
    if s.image.pinEn && !inPool d s.image.pin then (true, fillPool (endUnrun q i 0x25 d))
    else
      match spotFor d q s.image with
      | none =>
        placeFirst rest (match limitedEngine d q s.image with
          | some e => flag0 T.CMP (queueOwner d q) 6 e d
          | none => d)
      | some spot =>
        if !regionsOwned d s.image (queueOwner d q) then (true, fillPool (endUnrun q i 0x23 d))
        else if !regionsFree d s.image then placeFirst rest d
        else
          match readRing q i d with
          | (.offline, d1) => placeFirst rest (backingWaits d1)
          | (.held, d1) => placeFirst rest d1
          | (.poison, d1) => (true, poisonWaybill q i d1)
          | (.good, d1) => (true, placeAt q i spot d1)

/-- PLACEMENT: one foreground waybill, or when none can be placed a sampled duplicate (R277, R281). -/
def placement (d : Dev) : Dev :=
  let r := placeFirst (readyOrder d) d
  if r.1 then r.2
  else match nextDuplicate r.2 with
    | some (k, v, x) => startDuplicate k v x r.2
    | none => r.2

/-- SLOTTED_START: the waybill in a unit's step slot starts, after the check of its private regions (R279, R280). -/
def slottedStart (u : Nat) (d : Dev) : Dev :=
  match stepSlot d u with
  | none => d
  | some (q, i) =>
    if !unitIdle d u then d
    else
      let img := (getSlot d q i).image
      if !regionsOwned d img (queueOwner d q) then endUnrun q i 0x23 (setStep u none d)
      else if !regionsFree d img then unslot u d
      else startOn u q i (setStep u none d)

/-- Whether something of the depot waits for a read (R189, R296). -/
def depotWaits (d : Dev) : Bool :=
  d.dpt.holding || !d.dpt.heldOps.isEmpty || !d.dpt.heldReads.isEmpty || d.dpt.brakes.any (·.backing)

/-- BACKING_RETRY: an operation, an enqueue or a read of CTR_ENTRY held for a read of the backing area or of a ring is tried
again (R296). -/
def backingRetry (d : Dev) : Dev :=
  if depotWaits d then
    let d1 := wrB (kD 0 0x040) 30 false { d with dpt := { d.dpt with
      holding := false, heldReads := [], brakes := d.dpt.brakes.map (fun b => { b with backing := false }) } }
    placement (retryOps { d1 with todo := d1.todo ++ d.dpt.heldReads.map .readAgain })
  else d

/-- DUPLICATE_ABANDON: a unit whose step slot has filled abandons the duplicate it runs (R281). -/
def duplicateAbandon (u : Nat) (d : Dev) : Dev :=
  match runOf d u with
  | some r => if r.kind ≠ .original && (stepSlot d u).isSome then push (.abandoned u r) (dropRun u d) else d
  | none => d

/-- WATCH_RETRY: watches answered FULL are tried again (R273). -/
def watchRetry (d : Dev) : Dev :=
  each d.dpt.retries (fun w d => watchRegister w (stat 10 d)) { d with dpt := { d.dpt with retries := [] } }

/-! ### Dispatch epochs -/

/-- Writes of DISPATCH_EN of CTL1 to CTL3 that can take effect (R253, R283 step 3): one that leaves it 0 starts the resident
program of a core on which none has begun or which has ended it (log entry 121). A core whose locks are being reaped
waits (R162), and one that a kill has halted stays halted until DISPATCH_EN is written again (R315 step 2). -/
def applyDispatchEn (d : Dev) : Dev :=
  each [1, 2, 3] (fun n d =>
    let want := rdB d (rk T.CTL n 0 0x040) 0
    let c := getCore d (64 + n)
    if !(want != c.dispatch || (c.redo && !want && c.mode = .idle && !c.resident)) || unitState d T.CTL n = .resetting ||
        reaping d (0x40 + n) || !(c.mode = .idle || c.wait = .interrupt) || (runOf d (0x40 + n)).isSome then d
    else if want then updCore (64 + n) (fun c => { c.renewed with dispatch := true, redo := false }) d
    else
      let d1 := updCore (64 + n) (fun c => { c with dispatch := false }) d
      if c.halted then d1 else startResident n d1) d

/-- A dispatch epoch boundary (R283). -/
def epochBoundary (d : Dev) : Dev := boundary (applyDispatchEn d)

/-- DISPATCH_EPOCH_BOUNDARY: every EPOCH_TICKS ticks. -/
def periodicBoundary (d : Dev) : Dev :=
  if d.dpt.lastEpoch + rd d (kD 0 0x050) ≤ tick d then
    epochBoundary { d with dpt := { d.dpt with lastEpoch := tick d } }
  else d

/-- The first of a list of waiting producers that may offer its waybill again: its queue is no longer full, it does not wait
for the backing area, and no earlier one of the same requester waits for the same queue (R263). -/
def firstReady (d : Dev) : List (Who × Nat) → List BrakeWait → Option BrakeWait
  | _, [] => none
  | seen, b :: bs =>
    if b.backing || seen.contains (b.who, b.queue) || enqEarly d b.cmp b.queue b.node.isSome b.image = some .brake then
      firstReady d ((b.who, b.queue) :: seen) bs
    else some b

/-- A producer that waits on a queue in brake mode offers its waybill again once a slot is free (R237, R263). -/
def brakeReady (d : Dev) : Option BrakeWait := firstReady d [] d.dpt.brakes

end Sys2Proof.Machine
end

