-- ==== Sys2Proof/Machine/CmpCmds.lean ====
section
/-! DEFINITION. What the commands of compartments do (chapter 9): assignments, stack windows, event queues, activation,
reset and kill. -/

namespace Sys2Proof.Machine

/-- Setting CMP_RESULT. -/
def cResult (n c : Nat) (d : Dev) : Dev := wrF (kC n 0x048) 7 0 c d

/-- A rejected configuration write: CONFIG_REJECTED with the result code. -/
def rejected (n c : Nat) (d : Dev) : Dev := flag0 T.CMP n 4 c d

/-- Whether a compartment is RESETTING or KILLING. -/
def cmpBusy (d : Dev) (n : Nat) : Bool := (getCmp d n).mode = .resetting || (getCmp d n).mode = .killing

/-- A configuration write, ignored with BUSY while the compartment is RESETTING or KILLING (R313). -/
def configure (n : Nat) (f : Dev → Dev) (d : Dev) : Dev := if cmpBusy d n then cResult n 1 d else f d

/-! ### Assignments (R297, R298) -/

/-- Bits of `mask` that another compartment from 1 to 15 holds in a mask register. -/
def conflict (d : Dev) (n off mask : Nat) : Bool :=
  n ≠ 0 && (List.range 16).any (fun m => m ≠ 0 && m ≠ n && (rd64 d (kC m off) &&& mask) != 0)

/-- A write of a half of COACH_MASK or OTHER_MASK that gives the whole register `v`. -/
def maskWrite (n off v sole : Nat) (d : Dev) : Dev :=
  if conflict d n off (v &&& sole) then rejected n 4 (cResult n 4 d)
  else if off = 0x050 then cResult n 0 (wr64 (kC n off) v d) else cResult n 0 (wr (kC n off) (v % 0x2000) d)

/-- COACH_MASK write. -/
def coachMask (n v : Nat) (d : Dev) : Dev := configure n (maskWrite n 0x050 v (2 ^ 64 - 1)) d

/-- OTHER_MASK write: engines can be shared, control cores cannot. -/
def otherMask (n v : Nat) (d : Dev) : Dev :=
  configure n (fun d =>
    if n ≠ 0 && (List.range 16).any (fun m => m ≠ 0 && m ≠ n && (rd d (kC m 0x058) &&& v &&& 0x1C00) != 0)
    then rejected n 4 (cResult n 4 d) else cResult n 0 (wr (kC n 0x058) (v % 0x2000) d)) d

/-! ### Stack windows (R302, R303) -/

/-- Whether a window overlaps memory being zeroed. -/
def overZeroing (d : Dev) (w : Nat) : Bool :=
  (List.range 16).any (fun m => (getCmp d m).zeroing.any (fun z =>
    overlaps (winBase w) (winBytes w) (winBase z.2) (winBytes z.2)))

/-- Whether a window overlaps a valid window of another compartment and either can be written. -/
def overWindow (d : Dev) (n w : Nat) : Bool :=
  (List.range 16).any (fun m => m ≠ n && (List.range 8).any (fun k =>
    let x := stkWin d m k
    bit x 63 && (bit x 61 || bit w 61) && overlaps (winBase w) (winBytes w) (winBase x) (winBytes x)))

/-- The check of a window (R303). -/
def winCheck (d : Dev) (n w : Nat) : Nat :=
  if usable d < winBase w + winBytes w then 0x10
  else if overWindow d n w then 0x11
  else if bit (rd64 d (kD 0 0x048)) 63 && overlaps (stackBase + winBase w) (winBytes w) (rd64 d (kD 0 0x048) % 2 ^ 48) 0x1000000
    then 0x12
  else if overZeroing d w then 0x13
  else 0

/-- The bits of a window word that hold something: the others are reserved and read as zero (R302). -/
def winBits (w : Nat) : Nat := fld w 63 58 * 2 ^ 58 + fld w 46 32 * 2 ^ 32 + fld w 14 0

/-- STKWIN[k] write: the whole word. -/
def stkWinWrite (n k w0 : Nat) (d : Dev) : Dev :=
  let w := winBits w0
  configure n (fun d =>
    let key := kC n (0x080 + 8 * k)
    let c := if bit w 63 then winCheck d n w else 0
    let d1 := wr (kC n 0x0C0) (k * 256 + c) d
    if c = 0 then wr64 key w d1 else rejected n c (wr64 key (clrBit w 63) d1)) d

/-! ### Event queue (R309) -/

/-- EVQ write. -/
def evqWrite (n v : Nat) (d : Dev) : Dev :=
  configure n (fun d =>
    let q := fld v 15 0
    let qd := getQueue d q
    let bad := !(qd.valid && qd.kind = 1 && qd.owner = n) || cqNamed d q
    if bad then rejected n 0x20 (cResult n 0x20 (wr (kC n 0x070) q d))
    else cResult n 0 (wr (kC n 0x070) (v &&& 0x8000FFFF) d)) d

/-! ### Share periods (R300) -/

/-- SHARE_PERIOD_END: at the tick multiples of SHARE_PERIOD the budgets restart. -/
def sharePeriodEnd (d : Dev) : Dev :=
  if tick d % rd d (kC 0 0x0C4) = 0 then each (List.range 16) (fun n d => updCmp n (fun c => { c with used := [] }) d) d else d

/-! ### Activation, reset and kill (R313 to R318) -/

/-- CMP_CMD with a key: BAD_KEY, or NOT_ALLOWED on compartment 0's page, or the command. -/
def cmpCmd (n key : Nat) (f : Dev → Dev) (d : Dev) : Dev :=
  if key ≠ 0xC5 then cResult n 2 d else if n = 0 then cResult n 3 d else f d

/-- A new ledger epoch: the area is zeroed, counts that wait for the window's end go, and EPOCH_TICK is written (R460). -/
def ledgerEpoch (n : Nat) (d : Dev) : Dev :=
  ledWr64 (ledgerAt n 0x008) (tick d)
    { d with
      integ := { d.integ with noted := d.integ.noted.filter (fun (e : Nat × Nat) => e.1 / 0x400 ≠ n) }
      ledger := d.ledger.filter (fun (e : Nat × W32) => !(inR (4 * e.1) (ledgerAt n 0) 0x400)) }

/-- The counters of a compartment start again from zero, and the change that its next record holds with them (R496,
R498). -/
def countersZero (n : Nat) (d : Dev) : Dev :=
  each (List.range 12) (fun i d => wr64 (rk T.TLM 0 (4 + n) (0x040 + 8 * i)) 0 d)
    { d with tlm := { d.tlm with cmps := Map.set (fun _ => []) d.tlm.cmps n [] } }

/-- ACTIVATE (R313). The result of ACTIVATE of an ACTIVE compartment is not stated: one of
the results of CMP_RESULT (R638, log entry 95). -/
def cmpActivate (n : Nat) (d : Dev) : Dev :=
  match (getCmp d n).mode with
  | .free => countersZero n (ledgerEpoch n (cResult n 0 (updCmp n (fun c => { c with mode := .active, quiet := false }) d)))
  | .active => let v := drawOf [0x00, 0x01, 0x02, 0x03, 0x04, 0x20] d; cResult n v.1 v.2
  | _ => cResult n 1 d

/-- The control cores whose resident program acts for a compartment. -/
def ctlsOf (d : Dev) (n : Nat) : List Nat := ([1, 2, 3] : List Nat).filter (fun c => rdF d (rk T.CTL c 0 0x040) 7 4 = n)

/-- Units that run a waybill of a compartment, and control cores whose resident program is its own. -/
def unitsOf (d : Dev) (n : Nat) : List Nat :=
  targets.filter (fun u =>
    (match runOf d u with
     | some r => r.cmp = n
     | none => false) ||
    (decide (0x41 ≤ u) && decide (u ≤ 0x43) && (getCore d u).resident && rdF d (rk T.CTL (u - 0x40) 0 0x040) 7 4 = n))

/-- Zeroing lines of stack memory. -/
def zeroLines (first count : Nat) (d : Dev) : Dev :=
  { d with stk := { d.stk with lines := d.stk.lines.filter (fun (e : Nat × Line) => !(inR e.1 first count)) } }

/-- The counters of a compartment are cleared and unbound, on chip and in the backing area (R291, R294). -/
def cutCounters (n : Nat) (d : Dev) : Dev :=
  let d1 := { d with dpt := { d.dpt with
    counters := d.dpt.counters.filter (fun (e : Nat × Counter) => ctrOwner d e.1 ≠ n) } }
  match backing d with
  | some b =>
    each ((List.range 256).filter (fun k => ctrOwner d (4096 * k) = n))
      (fun k d => zeroLines (counterAt b (4096 * k) / 64) 512 d) d1
  | none => d1

/-- What the depot does when a compartment is reset or killed (R291): slots are freed without completion actions,
counters, matching entries, timetable entries and watches go, and RUNNING waybills end through unit resets. Enqueues that
wait on its queues meet R306 when they are tried again. -/
def cutWork (n : Nat) (d : Dev) : Dev :=
  let d0 := each (samplesWhere d (fun x => x.cmp = n)) (fun e d => dropSample e.1 d) d
  let d1 := each (unitsOf d0 n) resetUnit d0
  let d2 := each (slotsWhere d1 (fun q _ => queueOwner d1 q = n)) (fun x d =>
    dropSlot x.1 x.2.1 (if (getSlot d x.1 x.2.1).state = .slotted then
      each (targets.filter (fun u => stepSlot d u = some (x.1, x.2.1))) (fun u d => setStep u none d) d else d)) d1
  let d3 := cutCounters n { d2 with dpt := { d2.dpt with
    store := d2.dpt.store.filter (fun e => e.cmp ≠ n)
    further := d2.dpt.further.filter (fun f => queueOwner d2 f.queue ≠ n) } }
  unblock (fun _ _ => true) d3

/-- RESET starts (R314 steps 1 and 2). -/
def cmpResetStart (n : Nat) (d : Dev) : Dev :=
  cutWork n (updCmp n (fun c => { c with mode := .resetting, since := tick d, draining := true }) d)

/-- CMP_CMD RESET. -/
def cmpReset (n : Nat) (d : Dev) : Dev :=
  match (getCmp d n).mode with
  | .active => cResult n 0 (cmpResetStart n (wrB (kC n 0x048) 31 true d))
  | _ => cResult n 1 d

/-! ### Digest entries (R461, R463, R485, R487) -/

/-- A digest entry. -/
def getDig (d : Dev) (e : Nat) : DigEntry := Map.get (fun _ => ({} : DigEntry)) d.integ.digests e

/-- Setting a digest entry. -/
def setDig (e : Nat) (x : DigEntry) (d : Dev) : Dev :=
  { d with integ := { d.integ with digests := Map.set (fun _ => ({} : DigEntry)) d.integ.digests e x } }

/-- A slot takes a new entry, or none: no check of it has started yet (R486). -/
def newDig (e : Nat) (x : DigEntry) (d : Dev) : Dev :=
  let d1 := setDig e x d
  { d1 with integ := { d1.integ with
    digStart := Map.set (fun _ => 0) d1.integ.digStart e 0, digLated := d1.integ.digLated.filter (· ≠ e) } }

/-- The first entry from the schedule's pointer on, in ascending entry number and again from 0, that is VALID and of which
`p` holds (R485). -/
def digFrom (p : Nat → Bool) (d : Dev) : Option Nat :=
  ((List.range 64).map (fun i => (d.integ.digPtr + i) % 64)).find? (fun e => bit (getDig d e).w0 63 && p e)

/-- DIG_STATUS counts the valid entries, and DIG_NEXT shows the next of them. -/
def digCount (d : Dev) : Dev :=
  wr (rk T.BGS 0 0 0x054) ((digFrom (fun _ => true) d).getD 0)
    (wrF (kI 0 0x208) 6 0 ((d.integ.digests.filter (fun (e : Nat × DigEntry) => bit e.2.w0 63)).length) d)

/-- The checks of the entries of which `p` holds, by number and compartment, end with no result and no event, those that
CHECK_NOW asked for among them (R487). What the schedule has not yet read of the budget is free again. -/
def endChecks (p : Nat → Nat → Bool) (d : Dev) : Dev :=
  let cmpOf := fun (x : DigEntry) => fld x.w0 51 48
  let d1 := { d with integ := { d.integ with digAsked := d.integ.digAsked.filter (fun e => !p e (cmpOf (getDig d e))) } }
  match d.integ.digBusy with
  | some (k, x) =>
    if p k (cmpOf x) then
      (let now := tick d / 1000
       let used := if now < d.integ.digUsed.1 then (now, rd d (rk T.BGS 0 0 0x050)) else d.integ.digUsed
       wrB (kI 0 0x208) 31 false { d1 with integ := { d1.integ with digBusy := none, digRepaired := false, digUsed := used } })
    else d1
  | none => d1

/-- Digest entries of a killed compartment become not VALID, and their checks end (R463, R487). -/
def killDigests (n : Nat) (d : Dev) : Dev :=
  let d1 := endChecks (fun _ c => c = n) d
  digCount { d1 with integ := { d1.integ with digests := d1.integ.digests.map (fun (e : Nat × DigEntry) =>
    if fld e.2.w0 51 48 = n then (e.1, { e.2 with w0 := clrBit e.2.w0 63 }) else e) } }

/-- KILL starts (R315 steps 1 and 2): the queues are disabled, and control cores of the compartment stay halted with
PROG_CMP 0. -/
def cmpKillStart (n : Nat) (d : Dev) : Dev :=
  let since := if (getCmp d n).mode = .resetting then (getCmp d n).since else tick d
  let ctls := ctlsOf d n
  let d1 := cutWork n (updCmp n (fun c =>
    { c with mode := .killing, since := since, draining := true, quiet := true, cores := ctls }) (killDigests n d))
  let d2 := each ctls (fun c d =>
    let d1 := if unitState d T.CTL c = .resetting then d else resetUnit (0x40 + c) d
    wrF (rk T.CTL c 0 0x040) 7 4 0 (updCore (64 + c) (fun x => { x with halted := true, redo := false }) d1)) d1
  each (d2.dpt.queues.filter (fun (e : Nat × Queue) => e.2.owner = n)) (fun e d =>
    updQueue e.1 (fun x => { x with w0 := clrBit x.w0 62 }) d) d2

/-- CMP_CMD KILL. -/
def cmpKill (n : Nat) (d : Dev) : Dev :=
  match (getCmp d n).mode with
  | .free => cResult n 0 d
  | .killing => cResult n 1 d
  | _ => cResult n 0 (cmpKillStart n (wrB (kC n 0x048) 31 true d))

/-- Whether the unit resets through which a compartment's work ends are over, and no posted write of its units still
waits, those that are held included (R314 steps 2 and 3). -/
def drained (d : Dev) (n : Nat) : Bool :=
  !(d.net.flights.any (fun f => f.cmp = n && f.posted && f.who.unitId ≠ 0xFF)) &&
    !(d.yard.held.any (fun h => h.acc.cmp = n && h.acc.write && h.acc.who.unitId ≠ 0xFF)) &&
    !((getCmp d n).cores.any (fun c => rdB d (kCTRL T.CTL c) 1)) &&
    !(targets.any (fun u => (match runOf d u with
        | some r => r.cmp = n
        | none => (ctlsOf d n).any (fun c => 0x40 + c = u)) &&
      rdB d (kCTRL (unitPage u).1 (unitPage u).2) 1))

/-- The ended runs of a compartment report; on a reset their private regions are handled as for ABORT_KILLED (R314 step
5), and on a kill they are regions of the compartment like any other (R315 step 5). -/
def endRuns (n : Nat) (kill : Bool) (d : Dev) : Dev :=
  each (targets.filter (fun u => match runOf d u with
    | some r => r.cmp = n
    | none => false)) (fun u d =>
      setDigests u {} (setRun u none (if kill then d else releaseRegions u 0x24 d))) d

/-- Tallies owned by a compartment. -/
def talliesOf (d : Dev) (n : Nat) : List Nat := (d.yard.tallies.filter (fun e => e.2.owner = n)).map (·.1)

/-- Semaphores owned by a compartment. -/
def semsOf (d : Dev) (n : Nat) : List Nat := (d.yard.sems.filter (fun e => e.2.owner = n)).map (·.1)

/-- Counting semaphores of a compartment go to 0 and their waiters are answered RESET (R164); on a kill its locks become
FREE too (R315 step 4). -/
def cutSems (n : Nat) (locks : Bool) (d : Dev) : Dev :=
  each (semsOf d n) (fun k d =>
    let s := getSem d k
    if s.kind = .counting then resetWaiters k (updSem k (fun s => { s with value := 0 }) d)
    else if locks && s.kind = .lock then resetWaiters k (updSem k lockFree d)
    else d) d

/-- What the last step of a reset or kill posts and records. -/
def cmpDone (n kind fl detail : Nat) (m : CmpMode) (d : Dev) : Dev :=
  let took := tick d - (getCmp d n).since
  let e : Event := { kind := kind, subject := n, detail := if kind = 6 then took else detail }
  let d1 := if kind = 6 then postBoth e d else post 0 e d
  wrB (kC n 0x048) 31 false (wr (kC n 0x0C8) took (flag0 T.CMP n fl 0
    (updCmp n (fun c => { c with mode := m, draining := false, cores := [] }) d1)))

/-- Writes of SEM OWNER and TALLY_OWNER that named the compartment meanwhile act after step 4 (R318). -/
def payOwed (n : Nat) (d : Dev) : Dev :=
  each (getCmp d n).owed (fun o d => match o with
    | .sem k owner kind value => semOwned k owner kind value d
    | .tally t owner => updTally t (fun x => { x with owner := owner }) d)
    (updCmp n (fun c => { c with owed := [] }) d)

/-- A write that names a compartment which is being reset or killed waits for step 4; any other acts at once (R318). -/
def owe (n : Nat) (o : Owed) (f : Dev → Dev) (d : Dev) : Dev :=
  if (getCmp d n).draining then updCmp n (fun c => { c with owed := c.owed ++ [o] }) d else f d

/-- Step 6 of a reset (R314). -/
def resetFinish (n : Nat) (d : Dev) : Dev :=
  cmpDone n 6 2 0 .active (each ((ctlsOf d n).filter (fun c =>
    !(getCore d (64 + c)).dispatch && unitState d T.CTL c != .resetting)) startResident d)

/-- Step 5 of a kill: each region of the compartment is swept and released, or held (R175); one whose COMMIT still runs
stays as committed (R318). -/
def killRegions (n : Nat) (d : Dev) : Dev :=
  let ids := (d.yard.descs.filter (fun e => e.2.valid && e.2.owner = n && e.2.goal != .commit)).map (·.1)
  each ids (fun id d =>
    let r := getDesc d id
    if r.postmortem then updDesc id (fun r => { r with held := true, claim := none }) d
    else startSweep id .release (updDesc id (fun r => { r with w0 := clrBit r.w0 63, claim := none }) d)) d

/-- Step 6 of a kill: coaches that hold the compartment's weights zero them. -/
def killWeights (n : Nat) (d : Dev) : Dev :=
  each ((List.range 64).filter (fun u => (getCore d u).wbCmp = n + 1)) (fun u d =>
    updCore u (fun c => { c with wb := [], wbMeta := [], wbCmp := 0, wbLabel0 := 0, wbLabel1 := 0 }) d) d

/-- Step 7 of a kill: windows become not VALID, and those with ZERO_ON_KILL are to be zeroed (R315, R316). -/
def killWindows (n : Nat) (d : Dev) : Dev :=
  let ws := (List.range 8).filterMap (fun k =>
    let w := stkWin d n k
    if bit w 63 && bit w 58 then some (k, w) else none)
  let d1 := each (List.range 8) (fun k d =>
    let key := kC n (0x080 + 8 * k)
    wr64 key (clrBit (rd64 d key) 63) d) d
  updCmp n (fun c => { c with zeroing := c.zeroing ++ ws }) d1

/-- Pages that can be assigned: type and instance (R56). -/
def assignablePages (p : Part) : List (Nat × Nat) :=
  [T.YRD, T.CCH, T.CTL, T.INK, T.PYR, T.WRP, T.STR, T.FLW, T.FTR].flatMap (fun ty =>
    ((List.range (instances p ty)).filter (fun i => (capBits ty i).testBit 1)).map (fun i => (ty, i)))

/-- Step 8 of a kill: masks and shares are 0, and every owner field that names the compartment becomes 0. The 0xF of a
page's OWNER names no compartment (R58). -/
def killOwners (n : Nat) (d : Dev) : Dev :=
  let d1 := wr64 (kC n 0x060) 0 (wr (kC n 0x058) 0 (wr64 (kC n 0x050) 0 d))
  let d2 := each (assignablePages d.part) (fun q d => if ownerOf d q.1 q.2 = n && n ≠ 15 then wrF (kOWNER q.1 q.2) 3 0 0 d else d) d1
  let d3 := each (semsOf d2 n) (fun k d => updSem k (fun s => { s with owner := 0 }) d) d2
  let d4 := each (talliesOf d3 n) (fun t d => updTally t (fun x => { x with owner := 0 }) d) d3
  each (List.range 256) (fun b d =>
    if ctrOwner d (b * 4096) = n then wrF (kD 2 (0x100 + 4 * (b / 8))) (4 * (b % 8) + 3) (4 * (b % 8)) 0 d else d) d4

/-- Steps 6 to 9 of a kill (R315). -/
def killFinish (n : Nat) (d : Dev) : Dev :=
  let heldN := ((d.yard.descs.filter (fun e => e.2.held && e.2.owner = n))).length
  let d1 := epochBoundary (killDigests n (killOwners n (killWindows n (killWeights n d))))
  let zeroing := !(getCmp d1 n).zeroing.isEmpty
  cmpDone n 7 3 (heldN % 65536 + b2n zeroing * 65536) .free d1

/-- A reset or kill goes on once the sweeps of its step 5 are done. -/
def cmpSwept (n : Nat) (d : Dev) : Dev :=
  let c := getCmp d n
  if c.draining || !c.sweeps.isEmpty then d
  else match c.mode with
    | .killing => killFinish n d
    | .resetting => resetFinish n d
    | _ => d

/-- Step 4 of a reset or kill: semaphores, tallies, and on a kill their watches (R314, R315). -/
def cutYard (n : Nat) (kill : Bool) (d : Dev) : Dev :=
  let d1 := each (talliesOf d n) rearm (cutSems n kill d)
  let mine := talliesOf d1 n
  if kill then { d1 with yard := { d1.yard with watches := d1.yard.watches.filter (fun w => !mine.contains w.tally) } }
  else d1

/-- The regions that sweep, by descriptor id. -/
def sweepsNow (d : Dev) : List Nat := (d.yard.descs.filter (fun e => e.2.sweeping)).map (·.1)

/-- CMP_DRAIN_DONE: the later steps of a reset or kill follow once every posted write has been acknowledged or has failed
(R314, R315): steps 4 and 5, and the rest when the sweeps of step 5 are done. -/
def cmpDrainDone (n : Nat) (d : Dev) : Dev :=
  let c := getCmp d n
  if !c.draining || !drained d n then d
  else
    let kill := decide (c.mode = .killing)
    let d1 := payOwed n (cutYard n kill d)
    let mine := (d1.yard.descs.filter (fun e => e.2.owner = n && e.2.goal != .commit)).map (·.1)
    let d2 := endRuns n kill d1
    let d3 := if kill then killRegions n d2 else d2
    cmpSwept n (updCmp n (fun x => { x with draining := false, sweeps := (sweepsNow d3).filter mine.contains }) d3)

/-- STACK_WINDOW_ZEROED: the window that a compartment zeroes first is done (R316). -/
def windowZeroed (n : Nat) (d : Dev) : Dev :=
  match (getCmp d n).zeroing with
  | [] => d
  | (k, w) :: rest =>
    let d1 := zeroLines (winBase w / 64) (winBytes w / 64) (updCmp n (fun c => { c with zeroing := rest }) d)
    let d2 := post 0 { kind := 8, subkind := k, subject := n, addr := stackBase + winBase w } d1
    if rest.isEmpty then flag0 T.CMP n 5 0 d2 else d2

/-- CMP_STATE of a compartment. -/
def cmpStateWord (d : Dev) (n : Nat) : Nat :=
  let c := getCmp d n
  c.mode.code + b2n (d.yard.descs.any (fun e => e.2.held && e.2.owner = n)) * 65536 + b2n (!c.zeroing.isEmpty) * 131072

end Sys2Proof.Machine
end

