-- ==== Sys2Proof/Machine/FgsOps.lean ====
section
/-! DEFINITION. The frame-graph sequencer (chapter 13): loading a Psieb table, launching nodes, tickets. -/

namespace Sys2Proof.Machine

/-! ### Registers and slots -/

/-- Keys of FGS pages 0 and 1, and of the page of graph slot `g`. -/
def kF (page off : Nat) : Nat := rk T.FGS 0 page off
def kG (g off : Nat) : Nat := rk T.FGS 0 (2 + g) off

/-- A graph slot. -/
def getGraph (d : Dev) (g : Nat) : Graph := Map.get (fun _ => ({} : Graph)) d.fgs.graphs g

/-- Changing a graph slot. -/
def updGraph (g : Nat) (f : Graph → Graph) (d : Dev) : Dev :=
  { d with fgs := { d.fgs with graphs := Map.upd (fun _ => ({} : Graph)) d.fgs.graphs g f } }

/-- A frame slot. -/
def getFrame (d : Dev) (g f : Nat) : Frame := Map.get (fun _ => ({} : Frame)) (getGraph d g).frames f

/-- Changing a frame slot. -/
def updFrame (g f : Nat) (u : Frame → Frame) (d : Dev) : Dev :=
  updGraph g (fun x => { x with frames := Map.upd (fun _ => ({} : Frame)) x.frames f u }) d

/-- A node of a frame. -/
def getNode (d : Dev) (g f n : Nat) : NodeRun := Map.get (fun _ => ({} : NodeRun)) (getFrame d g f).nodes n

/-- Changing a node of a frame. -/
def updNode (g f n : Nat) (u : NodeRun → NodeRun) (d : Dev) : Dev :=
  updFrame g f (fun x => { x with nodes := Map.upd (fun _ => ({} : NodeRun)) x.nodes n u }) d

/-- An input of a frame. -/
def getInput (d : Dev) (g f k : Nat) : InputRun := (getFrame d g f).inputs.getD k {}

/-- Changing an input of a frame. -/
def updInput (g f k : Nat) (u : InputRun → InputRun) (d : Dev) : Dev :=
  updFrame g f (fun x => { x with inputs := x.inputs.modify k u }) d

/-- Frame slots in use by a graph. -/
def framesWhere (d : Dev) (g : Nat) (p : Frame → Bool) : List Nat :=
  (List.range 4).filter (fun f => p (getFrame d g f))

/-- GRAPH_STATUS follows the slot. -/
def graphStatus (d : Dev) (g : Nat) : Nat :=
  let x := getGraph d g
  let fs := (List.range 4).foldl (fun a f => a + (getFrame d g f).stage.code * 4 ^ f) 0
  fs * 65536 + ((x.table.map (·.cmp)).getD 0) * 256 + x.stage.code

/-- An empty table, for the tables of slots that hold none. -/
def noTable : GTable :=
  { maxFrames := 0, cmp := 0, flags := 0, trigger := 0, trigInput := 0, period := 0, phase := 0, deadline := 0, grace := 0,
    joinWindow := 0, ctrBase := 0, trigTally := 0, trigThresh := 0, ring := 0, ringLog2 := 0, inputs := [], nodes := [],
    edges := [], len := 0, check := 0 }

/-- The table of a graph slot. -/
def tableOf (d : Dev) (g : Nat) : GTable := (getGraph d g).table.getD noTable

namespace GTable
def armAhead (t : GTable) : Bool := bit t.flags 7
/-- 0 RUN_ON, 1 SKIP_WHILE_LATE, 2 ABANDON. -/
def policy (t : GTable) : Nat := fld t.flags 5 4
def evtDrop (t : GTable) : Bool := bit t.flags 1
def evtTicket (t : GTable) : Bool := bit t.flags 0
/-- The graph counter of a node in a frame slot (R423). -/
def ctr (t : GTable) (f n : Nat) : Nat := (t.ctrBase + 256 * f + n) % 1048576
/-- In-edges of a node: the edges whose DEST names it (R416). -/
def indeg (t : GTable) (n : Nat) : Nat := (t.edges.filter (fun e => e.dest = n)).length
/-- The input that triggers the graph, if one does. -/
def trigIn (t : GTable) : Option Nat := if t.trigger = 1 then some t.trigInput else none
end GTable

/-! ### Reading a table (R413, R415, R416) -/

/-- A field of bytes. -/
def fieldAt (bs : List Byte) (off n : Nat) : Nat := leNat ((bs.drop off).take n)

/-- Whether a range of bytes is zero. -/
def zeroAt (bs : List Byte) (off n : Nat) : Bool := ((bs.drop off).take n).all (· = 0)

/-- A node entry and whether one of its reserved bits is set. -/
def parseNode (bs : List Byte) (at_ : Nat) : GNode × Bool :=
  let u := fun off n => fieldAt bs (at_ + off) n
  let flags := u 0x41 1
  let img := Image.ofBytes ((bs.drop at_).take 64)
  ({ image := img, kind := u 0x40 1, launch := fld flags 1 0, readyGraph := bit flags 2, dlSet := bit flags 3,
     tagMode := bit flags 4, relReport := bit flags 5, inMask := u 0x42 1, count := u 0x44 2 + 1, queue := u 0x46 2,
     dlOff := u 0x48 4, stepA := u 0x4C 4, stepB := u 0x50 8, threshStep := u 0x58 2, edgeFirst := u 0x5A 2,
     edgeCount := u 0x5C 2, rearm := (List.range 4).map (fun i => u (0x60 + 2 * i) 2), clBus := u 0x68 1,
     clIndex := u 0x69 1 },
   fld flags 7 6 ≠ 0 || fld (u 0x42 1) 7 4 ≠ 0 || fld (u 0x68 1) 7 2 ≠ 0 || u 0x43 1 ≠ 0 || u 0x5E 2 ≠ 0 || !zeroAt bs (at_ + 0x6A) 22)

/-- The table in its bytes. -/
def parseTable (bs : List Byte) : GTable :=
  let u := fun off n => fieldAt bs off n
  let nn := u 0x10 2
  let ne := u 0x12 2
  { maxFrames := u 0x15 1, cmp := u 0x16 1, flags := u 0x17 1, trigger := u 0x18 1, trigInput := u 0x19 1,
    period := u 0x1C 4, phase := u 0x20 4, deadline := u 0x24 4, grace := u 0x28 4, joinWindow := u 0x2C 4,
    ctrBase := u 0x30 4 % 1048576, trigTally := u 0x34 2, trigThresh := u 0x36 2, ring := u 0x38 8 % 2 ^ 48,
    ringLog2 := u 0x40 1,
    inputs := (List.range (u 0x14 1)).map (fun k =>
      let f := u (0x82 + 32 * k) 1
      { port := u (0x80 + 32 * k) 1, binding := u (0x81 + 32 * k) 1, voidBad := bit f 1, release := bit f 0 }),
    nodes := (List.range nn).map (fun n => (parseNode bs (0x100 + 128 * n)).1),
    edges := (List.range ne).map (fun e =>
      { dest := u (0x100 + 128 * nn + 4 * e) 1, voidProp := bit (u (0x101 + 128 * nn + 4 * e) 1) 0 }),
    len := u 0x08 4, check := u 0x0C 4 }

/-- What TOTAL_LEN must be. -/
def tableLen (nn ne : Nat) : Nat := (0x100 + 128 * nn + 4 * ne + 63) / 64 * 64

/-- Reserved bytes of the header and of the input entries are zero (log entry 31). -/
def headerReserved (bs : List Byte) : Bool :=
  zeroAt bs 0x06 2 && zeroAt bs 0x1A 2 && zeroAt bs 0x41 63 && fld (fieldAt bs 0x17 1) 6 6 = 0 &&
    fld (fieldAt bs 0x17 1) 3 2 = 0 && fieldAt bs 0x30 4 < 1048576 && fieldAt bs 0x3E 2 = 0 &&
    (List.range (min 4 (fieldAt bs 0x14 1))).all (fun k =>
      fieldAt bs (0x82 + 32 * k) 1 < 4 && zeroAt bs (0x83 + 32 * k) 29)

/-- BAD_HEADER. -/
def badHeader (bs : List Byte) : Bool :=
  fieldAt bs 0 4 ≠ 0x31495350 || fieldAt bs 4 2 ≠ 1 || 0x10000 < fieldAt bs 8 4 ||
    fieldAt bs 8 4 ≠ tableLen (fieldAt bs 0x10 2) (fieldAt bs 0x12 2) || !headerReserved bs

/-- BAD_CHECK: CHECK is the CRC-32C of the table with CHECK taken as zero. -/
def badCheck (bs : List Byte) : Bool := crc32c (bs.take 12 ++ [0, 0, 0, 0] ++ bs.drop 16) ≠ fieldAt bs 12 4

/-- BAD_COUNT. -/
def badCount (bs : List Byte) : Bool :=
  let t := parseTable bs
  let nn := fieldAt bs 0x10 2
  nn = 0 || 256 < nn || 1024 < fieldAt bs 0x12 2 || 4 < fieldAt bs 0x14 1 || t.maxFrames = 0 || 4 < t.maxFrames ||
    3 < t.trigger || (t.trigger = 1 && t.inputs.length ≤ t.trigInput) || t.ringLog2 < 4 || 12 < t.ringLog2 ||
    t.deadline = 0 || 0x7FFFFFFF < t.deadline || 15 < t.cmp || t.policy = 3 || 65535 < t.joinWindow || t.ring % 64 ≠ 0 ||
    (t.trigger = 0 && (t.period < 100 || 0x7FFFFFFF < t.period || t.period ≤ t.phase))

/-- Edges as source node and edge index. -/
def edgePairs (t : GTable) : List (Nat × Nat) :=
  (List.range t.nodes.length).flatMap (fun n => match t.nodes[n]? with
    | some x => (List.range x.edgeCount).map (fun j => (n, x.edgeFirst + j))
    | none => [])

/-- The destination of an edge. -/
def destOf (t : GTable) (e : Nat) : Nat := (t.edges[e]?.map (·.dest)).getD 0

/-- Taking out, as often as there are nodes, every node that no remaining node leads to; what remains holds a cycle. -/
def peel (t : GTable) : Nat → List Nat → List Nat
  | 0, ns => ns
  | k + 1, ns => peel t k (ns.filter (fun n => (edgePairs t).any (fun p => ns.contains p.1 && destOf t p.2 = n)))

/-- The nodes that edges lead to from a set of nodes, and the set. -/
def grow (t : GTable) : Nat → List Nat → List Nat
  | 0, ns => ns
  | k + 1, ns => grow t k (ns ++ (((edgePairs t).filter (fun p => ns.contains p.1)).map (fun p => destOf t p.2)).filter
      (fun n => !ns.contains n))

/-- The edges that lie on a cycle. -/
def loopEdges (t : GTable) : List Nat :=
  let rest := peel t t.nodes.length (List.range t.nodes.length)
  if rest.isEmpty then []
  else ((edgePairs t).filter (fun p => rest.contains p.1 &&
    (grow t t.nodes.length [destOf t p.2]).contains p.1)).map (·.2)

/-- The first failing node of BAD_EDGE, one whose out-edges pass EDGE_COUNT, else the first failing edge (R413, R416). -/
def badEdge (t : GTable) (bs : List Byte) : Option Nat :=
  let far := (List.range t.nodes.length).find? (fun n => match t.nodes[n]? with
    | some x => decide (t.edges.length < x.edgeFirst + x.edgeCount)
    | none => false)
  let loops := loopEdges t
  let fails := fun e => decide (t.nodes.length ≤ destOf t e) || loops.contains e ||
    (match t.nodes[destOf t e]? with
     | some x => x.kind = 0 && !x.readyGraph
     | none => false) ||
    !zeroAt bs (0x102 + 128 * t.nodes.length + 4 * e) 2 || 1 < fieldAt bs (0x101 + 128 * t.nodes.length + 4 * e) 1
  far <|> (List.range t.edges.length).find? fails

/-- LOAD's check of a CMDLIST node's list: the entry is VALID and its OWNER is the graph's compartment, or 0 (R557). -/
def listBad (d : Dev) (cmp : Nat) (x : GNode) : Bool :=
  let w := rd d (rk T.TWC x.clBus 0 (0x100 + 4 * x.clIndex))
  3 < x.clBus || 63 < x.clIndex || !bit w 31 || (fld w 27 24 ≠ 0 && fld w 27 24 ≠ cmp)

/-- The template's CLASS or SUB is not its queue's (R264). -/
def templateOff (q : Queue) (x : GNode) : Bool := q.cls ≠ x.image.cls || x.image.sub ≠ (if q.cls = 1 then q.sub else 0)

/-- Whether a node is rejected (R416). -/
def nodeBad (d : Dev) (t : GTable) (x : GNode) (reserved : Bool) : Bool :=
  let only := match t.trigIn with
    | some k => 2 ^ k
    | none => 2 ^ t.trigInput
  let way := x.kind = 0
  reserved || 2 < x.kind || 256 < x.count ||
    (way && (x.image.ticketValid || x.image.ticketGraph ≠ 0 || x.image.ticketFrame ≠ 0)) ||
    (!way && x.image ≠ {}) ||
    (way && x.readyGraph && 1 < x.count) ||
    (x.launch = 0 && x.dlSet) ||
    (x.launch ≤ 1 && (x.inMask &&& (15 ^^^ (only % 16))) ≠ 0) ||
    decide (2 ^ t.inputs.length ≤ x.inMask) ||
    (x.launch = 3 && t.trigger ≠ 1) ||
    (way && (!x.image.reservedZero || x.image.ready = 3 || (x.image.pinEn && !inMask (getQueue d x.queue) x.image.pin) ||
      (x.readyGraph && x.image.ready = 1))) ||
    (way && (getQueue d x.queue).valid && (getQueue d x.queue).kind = 0 && templateOff (getQueue d x.queue) x) ||
    (x.kind = 1 && listBad d t.cmp x)

/-- BAD_QUEUE: the queue of a WAYBILL node. -/
def queueBad (d : Dev) (t : GTable) (x : GNode) : Bool :=
  let q := getQueue d x.queue
  x.kind = 0 && (!(q.valid && q.enabled && q.kind = 0 && q.owner = t.cmp) || templateOff q x)

/-- The key of a register of a camera binding (chapter 11). -/
def kBind (port b off : Nat) : Nat := rk T.INK (port / 3) (1 + port % 3) (0x100 + 0x40 * b + off)

/-- BAD_INPUT: the binding of an input. -/
def inputBad (d : Dev) (t : GTable) (x : GInput) : Bool :=
  5 < x.port || 3 < x.binding || rdF d (kBind x.port x.binding 0) 30 27 ≠ t.cmp

/-- The first index below `n` with a fault. -/
def firstBad {α : Type} (xs : List α) (p : Nat → α → Bool) : Option Nat :=
  (List.range xs.length).find? (fun i => match xs[i]? with
    | some x => p i x
    | none => false)

/-- The result of LOAD for the bytes of a table: code and failing index (R413). -/
def loadCheck (d : Dev) (bs : List Byte) (poison : Bool) : Nat × Nat :=
  let t := parseTable bs
  if badHeader bs then (0x03, 0)
  else if poison || badCheck bs then (0x04, 0)
  else if badCount bs then (0x05, 0)
  else match badEdge t bs with
    | some i => (0x06, i)
    | none =>
      match firstBad t.nodes (fun n x => nodeBad d t x (parseNode bs (0x100 + 128 * n)).2) with
      | some i => (0x07, i)
      | none =>
        match firstBad t.nodes (fun _ x => queueBad d t x) with
        | some i => (0x08, i)
        | none =>
          if t.ctrBase % 1024 ≠ 0 || ctrOwner d t.ctrBase ≠ t.cmp then (0x09, 0)
          else match firstBad t.inputs (fun _ x => inputBad d t x) with
            | some _ => (0x0A, 0)
            | none => if cmpActive d t.cmp then (0, 0) else (0x0B, 0)

/-- Reading `n` 64-byte lines, acting for compartment 0: the bytes, and whether one is poisoned or refused; nothing while a
line has to wait, which is then read anew with the others. -/
def readLines (a : Nat) : Nat → Dev → Option (List Byte × Bool) × Dev
  | 0, d => (some ([], false), d)
  | n + 1, d =>
    let r := readPiece { who := .fgs, cmp := 0 } a 64 d
    match r.1 with
    | .held => (none, r.2)
    | o =>
      let line : List Byte × Bool := match o with
        | .data bs => (bs.map (·.1), bs.any (·.2))
        | _ => (List.replicate 64 0, true)
      let rest := readLines (a + 64) n r.2
      (rest.1.map (fun x => (line.1 ++ x.1, line.2 || x.2)), rest.2)

/-! ### The cached table (R436) -/

/-- A forced reset for a graph whose table is lost. -/
def tableLost (g : Nat) (d : Dev) : Dev := push (.forced 0x07 g) (flag0 T.FGS 0 1 g d)

/-- The sequencer uses the cached table of a graph slot; an injected error shows here (FGS INJECT), and a corrected one is
counted with the module's corrected errors (R474, log entry 157). -/
def useTable (g : Nat) (d : Dev) : Dev :=
  if (armed d T.FGS 0 0 0).any (fun p => p % 64 = g) then
    cper { cls := 0x01, block := T.FGS, inst := 0, detail := g } (flag0 T.FGS 0 0 g (fired T.FGS 0 0 d))
  else if (armed d T.FGS 0 0 1).any (fun p => p % 64 = g) then tableLost g (fired T.FGS 0 0 d)
  else d

/-! ### Events (R434) -/

/-- Posting a sequencer event to the graph's compartment. -/
def graphEvent (g kind subkind tag addr seq f : Nat) (d : Dev) : Dev :=
  post (tableOf d g).cmp { kind := kind, subkind := subkind, subject := (tableOf d g).cmp, addr := addr,
                           detail := seq % 65536 * 65536 + g * 256 + f, tag := tag } d

/-! ### Input buffers (R431) -/

/-- Releasing an input's buffer once. -/
def releaseInput (g f k : Nat) (d : Dev) : Dev :=
  let x := getInput d g f k
  match x.buf, (tableOf d g).inputs[k]? with
  | some b, some i => if i.release && !x.released then
      push (.release i.port i.binding b.index) (updInput g f k (fun x => { x with released := true }) d) else d
  | _, _ => d

/-- Releasing every bound input of a frame. -/
def releaseInputs (g f : Nat) (d : Dev) : Dev := each (List.range 4) (fun k d => releaseInput g f k d) d

/-! ### Reports of nodes (R424, R427) -/

/-- Statuses that void (R424): REFUSED and the aborts. -/
def voids (status : Nat) : Bool := status = 0x10 || isAbort status

/-- A report's effect on the ticket (R427). -/
def markTicket (g f n status : Nat) (poison : Bool) (d : Dev) : Dev :=
  updFrame g f (fun x => { x with
    abort := if voids status && x.abort.isNone then some (n, status) else x.abort
    lost := x.lost || status = 0x30
    suspect := x.suspect || status = 0x31
    poison := x.poison || poison
    late := x.late || status = 1
    last := tick d }) d

/-- One out-edge of a node that has reported. -/
def applyEdge (g f e : Nat) (bad : Bool) (d : Dev) : Dev :=
  let t := tableOf d g
  match t.edges[e]? with
  | none => d
  | some x =>
    let void := bad && x.voidProp
    match t.nodes[x.dest]? with
    | none => d
    | some y =>
      if y.kind = 0 then depotCheck (ctrAction t.cmp (t.ctr f x.dest) (if void then ctrVoid else ctrDec)) d
      else updNode g f x.dest (fun r => if void then { r with void := true } else { r with got := r.got + 1 }) d

/-- A node has reported: its out-edges are applied in order, and its inputs may be released (R424, R431). -/
def nodeReported (g f n : Nat) (stage : NodeStage) (d : Dev) : Dev :=
  let r := getNode d g f n
  match (tableOf d g).nodes[n]? with
  | none => d
  | some x =>
    let d1 := updNode g f n (fun r => { r with stage := stage }) d
    let d2 := if (getFrame d1 g f).stage = .draining then d1
      else (List.range x.edgeCount).foldl (fun d j => applyEdge g f (x.edgeFirst + j) r.bad d) d1
    if x.relReport && (getFrame d1 g f).stage ≠ .draining then
      each ((List.range 4).filter (fun k => x.inMask.testBit k)) (fun k d => releaseInput g f k d) d2
    else d2

/-- A node that is not launched reports ABORT_INPUT_ABSENT (R422). -/
def nodeSkipped (g f n : Nat) (d : Dev) : Dev :=
  nodeReported g f n .skipped (markTicket g f n 0x21 false (updNode g f n (fun r => { r with bad := true }) d))

/-! ### Launching (R422, R423, R426) -/

/-- The waybill image of an instance (R423). -/
def instanceImage (t : GTable) (g f seq time n i : Nat) (x : GNode) : Image :=
  let m := x.image
  let tag := if x.tagMode then fld m.tag 31 24 * 2 ^ 24 + i % 256 * 65536 + seq % 65536 else m.tag
  let w0 := setFld (setFld (setFld (setBit m.w0 42) 41 36 g) 35 34 f) 31 0 tag
  let w0 := if x.dlSet then setBit w0 52 else w0
  let w0 := if x.readyGraph then setFld w0 58 57 1 else w0
  let w1 := setFld m.w1 47 32 (m.tallyThresh + i * x.threshStep)
  let w1 := if x.readyGraph then setFld w1 31 0 (t.ctr f n * 4096 + t.indeg n % 4096) else w1
  let w2 := if x.dlSet then setFld m.w2 31 0 (time + x.dlOff) else m.w2
  if m.cls = 1 then { m with w0 := w0, w1 := w1, w2 := w2, w4 := setFld m.w4 47 0 (m.job + i * x.stepA) }
  else { m with w0 := w0, w1 := w1, w2 := w2, w6 := setFld m.w6 31 0 (m.arg1 + i * x.stepA),
                w7 := (m.w7 + i * x.stepB) % 2 ^ 64 }

/-- One instance is enqueued through the sequencer path (R263, R422, R426); `again` says that it has waited for a slot
(R266). The answer is what it has to wait for, if it has to. -/
def launchOne (again : Bool) (g f n i : Nat) (x : GNode) (d : Dev) : Option EnqOut × Dev :=
  let t := tableOf d g
  let fr := getFrame d g f
  let seq := if fr.stage = .armed then (getGraph d g).seq + 1 else fr.seq
  let img := instanceImage t g f seq fr.time n i x
  let q := x.queue
  let s := (getQueue d q).tail % (getQueue d q).size
  let r := enqueue .fgs t.cmp q true img d
  match r.1 with
  | .code 0 =>
    let mine : Sent := ⟨q, s, g, f, fr.turn, n⟩
    let d1 := bump64 (kF 1 0x048) (updNode g f n (fun r => { r with left := r.left + 1 }) r.2)
    (none, { d1 with fgs := { d1.fgs with
      sent := mine :: d1.fgs.sent.filter (fun e => !(e.queue = q && e.slot = s)) } })
  | .code _ =>
    let d1 := flag0 T.FGS 0 6 (g * 256 + n) (bump64 (kF 1 0x050) (doIf again (flag0 T.DPT 0 3 q) r.2))
    (none, markTicket g f n 0x10 false (updNode g f n (fun r => { r with bad := true }) d1))
  | o => (some o, r.2)

/-- Instances from `i` upward are enqueued, `k` of them; a full brake-mode queue, or a read of the backing
area, stops the launch until it is over. -/
def launchFrom (g f n : Nat) (x : GNode) (again : Bool) : Nat → Nat → Dev → Dev
  | 0, _, d => updNode g f n (fun r => { r with stage := .sent }) d
  | k + 1, i, d =>
    match launchOne again g f n i x d with
    | (none, d1) => launchFrom g f n x false k (i + 1) d1
    | (some o, e) =>
      let t := tableOf d g
      let img := instanceImage t g f (getFrame d g f).seq (getFrame d g f).time n i x
      let w : BrakeWait := { who := .fgs, cmp := t.cmp, queue := x.queue, image := img, deadline := none, window := false,
                             node := some g }
      awaits o w (updGraph g (fun y => { y with braked := some (f, n, i) }) e)

/-- Launching a node: its REARM tallies, then its kind's action (R422). -/
def launchNode (g f n : Nat) (x : GNode) (d : Dev) : Dev :=
  let c := (tableOf d g).cmp
  let d1 := each (x.rearm.filter (· ≠ 0xFFFF)) (fun t d =>
    if ((getTally d t).owner = c || c = 0) && !clusterOut d (t / 1024) && !clusterCut d .fgs (t / 1024) then rearm t d
    else d) d
  if x.kind = 0 then
    launchFrom g f n x false x.count 0 (updNode g f n (fun r => { r with stage := .launching }) d1)
  else updNode g f n (fun r => { r with stage := .sent }) d1

/-- Every input of a node's IN_MASK is bound. -/
def inputsBound (d : Dev) (g f : Nat) (x : GNode) : Bool :=
  (List.range 4).all (fun k => !x.inMask.testBit k || (getInput d g f k).buf.isSome)

/-- An input of a node's IN_MASK is absent. -/
def inputAbsent (d : Dev) (g f : Nat) (x : GNode) : Bool :=
  (List.range 4).any (fun k => x.inMask.testBit k && (getInput d g f k).absent)

/-- Whether a node's LAUNCH and IN_MASK allow it now (R422). -/
def launchable (d : Dev) (g f : Nat) (x : GNode) : Bool :=
  let fr := getFrame d g f
  match fr.stage with
  | .armed => x.launch = 0
  | .opened =>
    let ended := match (tableOf d g).trigIn with
      | some k => (getInput d g f k).ended
      | none => false
    x.launch ≤ 1 || (x.launch = 2 && inputsBound d g f x) || (x.launch = 3 && ended && inputsBound d g f x)
  | _ => false

/-- One thing a node of a frame can do now, in the order of node index. -/
def nodeStep (g f n : Nat) (d : Dev) : Option Dev :=
  let t := tableOf d g
  let r := getNode d g f n
  let fr := getFrame d g f
  match t.nodes[n]? with
  | none => none
  | some x =>
    match r.stage with
    | .off =>
      if fr.stage = .opened && inputAbsent d g f x then some (nodeSkipped g f n d)
      else if launchable d g f x && (getGraph d g).braked.isNone then some (launchNode g f n x d)
      else none
    | .sent =>
      if x.kind = 0 then (if r.left = 0 then some (nodeReported g f n .reported d) else none)
      else if r.void then
        some (nodeReported g f n .reported (markTicket g f n 0x21 false (updNode g f n (fun r => { r with bad := true }) d)))
      else if t.indeg n ≤ r.got then
        (if x.kind = 2 then some (nodeReported g f n .reported (markTicket g f n 0 false d))
         else some (push (.listAsk x.clBus x.clIndex (.node g f fr.turn n))
           (updNode g f n (fun r => { r with stage := .listing }) d)))
      else none
    | _ => none

/-! ### Tickets (R418, R428 to R432) -/

/-- q of a completion (R87, R428): floor(256 × (DEADLINE − completion) / DEADLINE), saturated to 16 bits. -/
def slackOf (deadline completion : Nat) : Int :=
  clampInt (-32768) 32767 ((256 * ((deadline : Int) - completion)).fdiv deadline)

/-- The state a ticket closes in (R428). -/
def ticketState (fr : Frame) (completion deadline : Nat) (abandoned : Bool) : Nat :=
  if fr.inputs.any (fun x => x.absent || x.status ≠ 0) then 5
  else if fr.abort.isSome || abandoned then 3
  else if fr.lost || fr.suspect || fr.poison then 4
  else if deadline < completion then 2
  else 1

/-- The ticket record (R432). -/
def ticketBytes (t : GTable) (g f : Nat) (fr : Frame) (completion : Nat) (q : Int) (st : Nat) (abandoned noSlot : Bool) :
    List Byte :=
  let flags := b2n fr.degr * 128 + b2n (decide (t.deadline < completion)) * 64 + b2n abandoned * 32 + b2n fr.poison * 16
    + b2n fr.lost * 8 + b2n fr.late * 4 + f
  let input := fun k => fr.inputs.getD k {}
  let status := (List.range 4).foldl (fun a k =>
    a + (if (input k).absent then 3 else (input k).status) * 4 ^ k) 0
  leBytes 8 fr.time ++ leBytes 8 fr.seq ++ leBytes 4 completion ++ leBytes 4 t.deadline
    ++ leBytes 2 (ofSigned 16 q) ++ leBytes 1 st ++ leBytes 1 flags ++ leBytes 1 (b2n noSlot * 64 + g) ++ leBytes 1 status
    ++ leBytes 1 ((fr.abort.map (·.1)).getD 0xFF) ++ leBytes 1 ((fr.abort.map (·.2)).getD 0)
    ++ (List.range 4).flatMap (fun k =>
      leBytes 8 (if k < t.inputs.length then (input k).record else 0xFFFFFFFFFFFFFFFF))

/-- Writing a ticket record as one posted write acting for the compartment. -/
def writeTicket (g addr : Nat) (bs : List Byte) (d : Dev) : Dev :=
  sendWrite { who := .fgs, cmp := (tableOf d g).cmp, write := true } 0 addr bs d

/-- What every close does: counters, q, the record and the event (R428, R432, R434). -/
def closeTicket (g f : Nat) (fr : Frame) (completion : Nat) (abandoned noSlot : Bool) (d : Dev) : Dev :=
  let t := tableOf d g
  let q := slackOf t.deadline completion
  let st := ticketState fr completion t.deadline abandoned
  let addr := t.ring + 64 * (fr.seq % 2 ^ t.ringLog2)
  let bs := ticketBytes t g f fr completion q st abandoned noSlot
  let told := fun (d : Dev) => if st = 2 then tcount 13 1 (ccount t.cmp 7 1 d) else if st = 3 then tcount 14 1 (ccount t.cmp 8 1 d)
    else if st = 4 then ccount t.cmp 9 1 d else d
  let d1 := told (tcount 12 1 (ccount t.cmp 6 1 (bump (kF 1 0x044) (bump (kG g (0x060 + 4 * (st - 1))) d))))
  let d2 := wr (kG g 0x050) (ofSigned 16 q) (wr (kG g 0x058) completion d1)
  let d3 := if q < toSigned 16 (rd d2 (kG g 0x054)) then wr (kG g 0x054) (ofSigned 16 q) d2 else d2
  let d4 := if t.deadline < completion then flag0 T.FGS 0 4 g d3 else d3
  let d5 := writeTicket g addr bs (push (.slack g q) d4)
  let d6 := if noSlot then d5 else updGraph g (fun x => { x with
    closed := Map.set (fun _ => none) x.closed f (some ⟨fr.turn, bs, addr, fr.seq⟩) }) d5
  if t.evtTicket && st ≠ 1 then graphEvent g 0x20 st 0 addr fr.seq f d6 else d6

/-- Graph counters of a frame slot whose node was never launched, or still waits at a full queue with nothing enqueued, go
back to zero (R424). -/
def resetCounters (g f : Nat) (d : Dev) : Dev :=
  let t := tableOf d g
  each ((List.range t.nodes.length).filter (fun n =>
      let r := getNode d g f n
      r.stage = .off || r.stage = .skipped || (r.stage = .launching && r.left = 0)))
    (fun n d => if ctrOwner d (t.ctr f n) = t.cmp then depotCheck (ctrZero (t.ctr f n)) d else d) d

/-- Inputs of a frame slot whose FRAME_END is still to come. -/
def openInputs (fr : Frame) : List (Nat × CamBuf) :=
  (List.range fr.inputs.length).filterMap (fun k =>
    let x := fr.inputs.getD k {}
    if x.ended then none else x.buf.map (fun b => (k, b)))

/-- A frame slot becomes FREE; the record of its last ticket stays, and so does which FRAME_ENDs are still to come. -/
def freeFrame (g f : Nat) (d : Dev) : Dev :=
  let due := openInputs (getFrame d g f)
  updFrame g f (fun _ => {}) (updGraph g (fun x => { x with spent := x.spent ++ due }) d)

/-- Frame slot `f` is armed: nodes that wait before the frame exists will be launched (R418). -/
def armFrame (g f : Nat) (d : Dev) : Dev :=
  let t := tableOf d g
  let n := (getGraph d g).turns + 1
  updFrame g f (fun _ => { stage := .armed, turn := n, inputs := t.inputs.map (fun _ => {}) })
    (updGraph g (fun x => { x with turns := n }) d)

/-- The first FREE slot in round-robin order after the slot opened last (R418). -/
def nextFree (d : Dev) (g : Nat) : Option Nat :=
  let m := (tableOf d g).maxFrames
  ((List.range m).map (fun i => ((getGraph d g).last + 1 + i) % m)).find? (fun f => (getFrame d g f).stage = .free)

/-- Whether the predecessor of a handover still has frame slots in use (R414). -/
def handover (d : Dev) (g : Nat) : Bool := (getGraph d g).source.isSome

/-- Arming ahead when no slot is in use (R418). -/
def armAhead (g : Nat) (d : Dev) : Dev :=
  let x := getGraph d g
  if x.stage = .running && (tableOf d g).armAhead && !handover d g then
    match nextFree d g with
    | some f => armFrame g f d
    | none => d
  else d

/-- Whether every node of a frame has been launched or marked, and has reported (R428). -/
def allReported (d : Dev) (g f : Nat) : Bool :=
  (List.range (tableOf d g).nodes.length).all (fun n =>
    let s := (getNode d g f n).stage
    s = .reported || s = .skipped)

/-- Whether every launched waybill of a DRAINING slot has reported (R430); a command list that still runs is no waybill. -/
def allDrained (d : Dev) (g f : Nat) : Bool :=
  (List.range (tableOf d g).nodes.length).all (fun n => (getNode d g f n).left = 0)

/-- Ticket completion in ticks from the timestamp. -/
def sinceStart (fr : Frame) (t : Nat) : Nat := t - fr.time

/-- A ticket whose nodes have all reported closes (R428). -/
def closeFrame (g f : Nat) (d : Dev) : Dev :=
  let fr := getFrame d g f
  let alone := (framesWhere d g (fun x => x.stage ≠ .free)).all (· = f)
  let d1 := closeTicket g f fr (sinceStart fr fr.last) false false d
  let d2 := freeFrame g f (resetCounters g f (releaseInputs g f d1))
  if alone then armAhead g d2 else d2

/-- A DRAINING slot whose waybills have all reported is freed (R430). -/
def freeDrained (g f : Nat) (d : Dev) : Dev := freeFrame g f (releaseInputs g f d)

/-- Held frames that are bound no more: each counts as a miss, and its buffer is released (R419). -/
def dropHeld (g : Nat) (p : HeldFrame → Bool) (d : Dev) : Dev :=
  let t := tableOf d g
  each ((getGraph d g).held.filter p) (fun h d =>
    let d := bump (kG g 0x08C) d
    match t.inputs[h.input]? with
    | some i => if i.release && !h.released then push (.release i.port i.binding h.buf.index) d else d
    | none => d) (updGraph g (fun x => { x with held := x.held.filter (fun h => !p h) }) d)

/-- A graph that has stopped gives up its timetable entry and its watch. -/
def dropTriggers (g : Nat) (d : Dev) : Dev :=
  let d1 := ttDrop (· = .graph g) d
  { d1 with
    yard := { d1.yard with watches := d1.yard.watches.filter (fun w => w.waiter ≠ .graph g) }
    dpt := { d1.dpt with retries := d1.dpt.retries.filter (fun w => w.waiter ≠ .graph g) } }

/-- One thing a graph can do now (R411, R414, R422, R428). -/
def graphStep (g : Nat) (d : Dev) : Option Dev :=
  let x := getGraph d g
  let nodes := List.range (tableOf d g).nodes.length
  let fs := framesWhere d g (fun f => f.stage = .armed || f.stage = .opened)
  match fs.findSome? (fun f => nodes.findSome? (fun n => nodeStep g f n d)) with
  | some e => some e
  | none =>
    match (framesWhere d g (fun f => f.stage = .opened)).find? (fun f => allReported d g f) with
    | some f => some (closeFrame g f d)
    | none =>
      match (framesWhere d g (fun f => f.stage = .draining)).find? (fun f => allDrained d g f) with
      | some f => some (freeDrained g f d)
      | none =>
        if x.stage = .stopping && (framesWhere d g (fun f => f.stage ≠ .free)).isEmpty then
          some (dropTriggers g (updGraph g (fun y => { y with stage := .loaded }) (dropHeld g (fun _ => true) d)))
        else match x.source with
          | some h =>
            if (framesWhere d h (fun f => f.stage ≠ .free)).isEmpty then
              some (armAhead g (updGraph g (fun y => { y with source := none }) d))
            else none
          | none => none

/-- A graph does all it can. -/
def pumpGraph : Nat → Nat → Dev → Dev
  | 0, _, d => d
  | k + 1, g, d => match graphStep g d with
    | some e => pumpGraph k g e
    | none => d

/-- The most things a graph does in a row: every node of four frames launches, runs and reports, and the frames close. -/
def pumpLimit : Nat := 4096

/-- A graph, and the graphs that take over from it, do all they can (R411, R414). -/
def pump (g : Nat) (d : Dev) : Dev :=
  let d0 := pumpGraph pumpLimit g d
  let d1 := wr (kG g 0x040) (graphStatus d0 g) d0
  each ((List.range 64).filter (fun h => (getGraph d1 h).source = some g)) (fun h d =>
    let e := pumpGraph pumpLimit h d
    wr (kG h 0x040) (graphStatus e h) e) d1

/-! ### Triggers (R417 to R421, R430) -/

/-- A trigger is dropped: counted, and announced when EVT_DROP is 1 (R414, R418, R430, R434). -/
def dropTrigger (g why : Nat) (d : Dev) : Dev :=
  let d1 := if why = 1 then bump (kG g 0x084) d
    else if why = 0 then flag0 T.FGS 0 5 g (bump (kG g 0x080) d) else bump (kG g 0x080) d
  if (tableOf d g).evtDrop then graphEvent g 0x22 why 0 0 (getGraph d g).seq 0 d1 else d1

/-- A trigger that a STOPPING graph with no ARMED slot drops (R439): it is announced like any other, as a trigger without a
slot, and counts in no register (R434, log entry 107). -/
def dropLast (g : Nat) (d : Dev) : Dev :=
  doIf (tableOf d g).evtDrop (graphEvent g 0x22 0 0 0 (getGraph d g).seq 0) d

/-- Binding a frame to an input of a ticket. -/
def bindInput (g f k : Nat) (buf : CamBuf) (d : Dev) : Dev := updInput g f k (fun x => { x with buf := some buf }) d

/-- Whether two ticks lie within a window of each other. -/
def within (a b w : Nat) : Bool := decide (a ≤ b + w) && decide (b ≤ a + w)

/-- Held frames of joining inputs bind to a new ticket (R419). -/
def bindHeld (g f : Nat) (d : Dev) : Dev :=
  let t := tableOf d g
  each (List.range t.inputs.length) (fun k d =>
    match (getGraph d g).held.find? (fun h => h.input = k && within h.time (getFrame d g f).time t.joinWindow) with
    | some h => updInput g f k (fun x => { x with released := h.released })
        (bindInput g f k h.buf (updGraph g (fun x => { x with held := x.held.filter (· ≠ h) }) d))
    | none => d) d

/-- Opening a frame slot: the ticket is created (R418). -/
def openFrame (g f time : Nat) (degr : Bool) (bound : Option (Nat × CamBuf)) (d : Dev) : Dev :=
  let n := (getGraph d g).seq + 1
  let d1 := wr64 (kG g 0x048) n (bump (kF 1 0x040) (updGraph g (fun x => { x with seq := n, last := f }) d))
  let d2 := updFrame g f (fun x => { x with stage := .opened, seq := n, time := time, degr := degr, last := time }) d1
  let d3 := match bound with
    | some (k, b) => bindInput g f k b d2
    | none => d2
  bindHeld g f d3

/-- A trigger of a graph at a frame timestamp, with the input and buffer that triggered it (R414, R417, R418, R430). -/
def trigger (g time : Nat) (degr : Bool) (bound : Option (Nat × CamBuf)) (d0 : Dev) : Dev :=
  let d := useTable g d0
  let x := getGraph d g
  let t := tableOf d g
  let armed := (framesWhere d g (fun f => f.stage = .armed)).head?
  let lateNow := t.policy = 1 &&
    !(framesWhere d g (fun f => f.stage = .opened && decide (f.time + t.deadline < tick d))).isEmpty
  match x.stage with
  | .running =>
    if handover d g then dropTrigger g 2 d
    else if lateNow then dropTrigger g 1 d
    else match armed with
      | some f => pump g (openFrame g f time degr bound d)
      | none =>
        match nextFree d g with
        | some f => pump g (openFrame g f time degr bound (armFrame g f d))
        | none => dropTrigger g 0 d
  | .stopping =>
    match armed with
    | some f => if lateNow then dropTrigger g 1 d else pump g (openFrame g f time degr bound d)
    | none => dropLast g d
  | _ => d

/-- The watch of a TALLY graph (R417). -/
def watchTrigger (g : Nat) (d : Dev) : Dev :=
  let t := tableOf d g
  if t.trigger = 2 && (getTally d t.trigTally).owner = t.cmp && !clusterOut d (t.trigTally / 1024) then
    watchRegister ⟨t.trigTally, t.trigThresh, .graph g⟩ d
  else d

/-- The watch of a TALLY graph has fired: the tally is rearmed and watched again, and the graph is triggered (R417). -/
def tallyTrigger (g : Nat) (d : Dev) : Dev :=
  let x := getGraph d g
  if x.stage = .running || x.stage = .stopping then
    trigger g (tick d) (degraded d) none (watchTrigger g (rearm (tableOf d g).trigTally d))
  else d

/-- A periodic entry of a graph has fired (R417). -/
def periodicTrigger (g due : Nat) (d : Dev) : Dev := trigger g due (degraded d) none d

/-! ### Events of the intake -/

/-- Graph slots that take an input from a stream, with the input's index. -/
def listeners (d : Dev) (s : Nat × Nat) : List (Nat × Nat) :=
  (List.range 64).flatMap (fun g =>
    let x := getGraph d g
    if x.stage = .running || x.stage = .stopping then
      ((List.range (tableOf d g).inputs.length).filter (fun k => match (tableOf d g).inputs[k]? with
        | some i => (i.port, i.binding) = s
        | none => false)).map (fun k => (g, k))
    else [])

/-- A FRAME_START reaches one input of a graph (R417, R419). -/
def frameStart (g k : Nat) (buf : CamBuf) (time : Nat) (degr : Bool) (d : Dev) : Dev :=
  let t := tableOf d g
  if t.trigIn = some k then trigger g time degr (some (k, buf)) d
  else
    match (framesWhere d g (fun f => f.stage = .opened)).find? (fun f =>
        let fr := getFrame d g f
        let x := fr.inputs.getD k {}
        x.buf.isNone && !x.absent && decide (tick d ≤ fr.time + t.joinWindow)) with
    | some f => pump g (bindInput g f k buf d)
    | none => updGraph g (fun x => { x with held := x.held ++ [⟨k, buf, time, tick d + t.joinWindow, false⟩] }) d

/-- The counters of the bound waybills that a ticket's nodes have launched are voided: those of READY_GRAPH nodes, and with
`own` also those that wait on their template's own counter (R429, R430). -/
def voidNodes (g f : Nat) (own : Bool) (p : Nat → GNode → Bool) (d : Dev) : Dev :=
  let t := tableOf d g
  let turn := (getFrame d g f).turn
  each (d.fgs.sent.filter (fun e => e.graph = g && e.frame = f && e.turn = turn)) (fun e d =>
    let img := (getSlot d e.queue e.slot).image
    match t.nodes[e.node]? with
    | some x =>
      if p e.node x && img.ready = 1 && (own || x.readyGraph) then
        depotCheck (ctrAction t.cmp img.ctrId (ctrVoidBound (slotKey e.queue e.slot + 1))) d
      else d
    | none => d) d

/-- A FRAME_END reaches one input of a graph: it is applied to the ticket to which its frame is bound, or the buffer is
released; the buffer of a ticket that has closed has been (R420, R429, R431). -/
def frameEnd (g k : Nat) (buf : CamBuf) (status record : Nat) (d : Dev) : Dev :=
  let t := tableOf d g
  match t.inputs[k]? with
  | none => d
  | some i =>
    if (getGraph d g).spent.contains (k, buf) then
      updGraph g (fun x => { x with spent := x.spent.filter (· ≠ (k, buf)) }) d
    else match (framesWhere d g (fun f => f.stage = .opened || f.stage = .draining)).find? (fun f =>
        let x := (getFrame d g f).inputs.getD k {}
        x.buf = some buf && !x.ended) with
    | some f =>
      if (getFrame d g f).stage = .draining then updInput g f k (fun x => { x with ended := true }) d
      else
        let d1 := updInput g f k (fun x => { x with ended := true, status := status, record := record }) d
        let d2 := if i.voidBad && (status = 1 || status = 2) then
            each (List.range t.nodes.length) (fun n d =>
              match t.nodes[n]? with
              | none => d
              | some x =>
                let r := getNode d g f n
                if x.inMask.testBit k && x.kind ≠ 0 && (r.stage = .off || r.stage = .sent) then
                  updNode g f n (fun r => { r with void := true }) d
                else d) (voidNodes g f false (fun _ x => x.inMask.testBit k) d1)
          else d1
        pump g d2
    | none =>
      let mine := fun (h : HeldFrame) => h.input = k && h.buf = buf
      let d1 := updGraph g (fun x => { x with held := x.held.map (fun h => if mine h then { h with released := true } else h) }) d
      if i.release then push (.release i.port i.binding buf.index) d1 else d1

/-- An ABSENT event on the trigger input: a ticket that uses no frame slot closes at once, with the tick of the event and
its DEGRADED bit (R76, R421). -/
def absentTicket (g k time : Nat) (degr : Bool) (d : Dev) : Dev :=
  let t := tableOf d g
  if t.trigIn = some k then
    let n := (getGraph d g).seq + 1
    let fr : Frame := { seq := n, time := time, degr := degr, last := time,
                        inputs := (List.range t.inputs.length).map (fun j =>
                          if j = k then { absent := true } else {}) }
    let d1 := closeTicket g 0 fr 0 false true (wr64 (kG g 0x048) n (updGraph g (fun x => { x with seq := n }) d))
    if (framesWhere d1 g (fun x => x.stage ≠ .free)).isEmpty then pump g (armAhead g d1) else d1
  else d

/-- The window of a graph's joining inputs has ended (R419): unbound inputs of its tickets are ABSENT, and held frames
that nobody took are released. -/
def joinExpire (g : Nat) (d0 : Dev) : Dev :=
  let past := fun (f : Frame) => f.stage = .opened && decide (f.time + (tableOf d0 g).joinWindow < tick d0)
  let d := doIf (!(framesWhere d0 g past).isEmpty || (getGraph d0 g).held.any (fun h => decide (h.till < tick d0))) (useTable g) d0
  let t := tableOf d g
  let d1 := each (framesWhere d g (fun f => f.stage = .opened && decide (f.time + t.joinWindow < tick d))) (fun f d =>
    each (List.range t.inputs.length) (fun k d =>
      let x := getInput d g f k
      if t.trigIn ≠ some k && x.buf.isNone && !x.absent then
        bump (kG g 0x08C) (updInput g f k (fun x => { x with absent := true }) d)
      else d) d) d
  pump g (dropHeld g (fun h => decide (h.till < tick d)) d1)

/-- ABANDON: an OPEN ticket that is past its deadline and grace closes VOID (R430). -/
def abandonFrame (g f : Nat) (d0 : Dev) : Dev :=
  let d := useTable g d0
  let t := tableOf d g
  let fr := getFrame d g f
  let at_ := fr.time + t.deadline + t.grace
  let others := (framesWhere d g (fun x => x.stage ≠ .free)).all (· = f)
  let d1 := bump (kG g 0x088) (closeTicket g f fr (at_ - fr.time) true false d)
  let d2 := voidNodes g f true (fun _ _ => true) (resetCounters g f d1)
  let d3 := updFrame g f (fun x => { x with stage := .draining }) d2
  let d4 := match (getGraph d3 g).braked with
    | some (f2, _, _) => if f2 = f then
        updGraph g (fun x => { x with braked := none })
          { d3 with dpt := { d3.dpt with brakes := d3.dpt.brakes.filter (fun b => b.node ≠ some g) } }
      else d3
    | none => d3
  pump g (if others then armAhead g d4 else d4)

/-! ### Reports and findings (R427, R433) -/

/-- The depot reports a ticketed waybill: the instance it was launched as is found by its queue and slot. -/
def reportOf (q i status : Nat) (poison : Bool) (d : Dev) : Dev :=
  match d.fgs.sent.find? (fun e => e.queue = q && e.slot = i) with
  | none => d
  | some e => { d with fgs := { d.fgs with
      sent := d.fgs.sent.filter (· ≠ e)
      reports := d.fgs.reports ++ [⟨e.graph, e.frame, e.turn, e.node, status, poison⟩] } }

/-- A report is applied to its ticket (R424, R427, R430). -/
def applyReport (r : Report) (d0 : Dev) : Dev :=
  let d := bump64 (kF 1 0x050) (useTable r.graph d0)
  let fr := getFrame d r.graph r.frame
  if fr.stage = .free || fr.turn ≠ r.turn then d
  else
    let d1 := updNode r.graph r.frame r.node (fun x => { x with left := x.left - 1, bad := x.bad || voids r.status }) d
    pump r.graph (if fr.stage = .draining then d1 else markTicket r.graph r.frame r.node r.status r.poison d1)

/-- A command list of a CMDLIST node has ended (R425); a failure is flagged also where the ticket is gone (R558). -/
def listReport (g f turn n : Nat) (ok : Bool) (d : Dev) : Dev :=
  let d0 := if ok then d else flag0 T.FGS 0 9 g d
  let fr := getFrame d0 g f
  if fr.stage = .free || fr.turn ≠ turn || (getNode d0 g f n).stage ≠ .listing then d0
  else
    let d1 := if ok then d0 else updNode g f n (fun r => { r with bad := true }) d0
    let d2 := if fr.stage = .draining then d1 else markTicket g f n (if ok then 0 else 0x23) false d1
    pump g (nodeReported g f n .reported d2)

/-- A SUSPECT finding: a report of an open ticket, or an amendment of the last one closed in the slot (R433). -/
def applyFinding (x : Finding) (d : Dev) : Dev :=
  let fr := getFrame d x.graph x.frame
  if fr.turn = x.turn && (fr.stage = .armed || fr.stage = .opened) then
    updFrame x.graph x.frame (fun f => { f with suspect := true }) d
  else
    match Map.get (fun _ => none) (getGraph d x.graph).closed x.frame with
    | none => d
    | some c =>
      let bs := (c.bytes.set 0x1A 4).modify 0x1C (fun b => b ||| 0x80)
      let d1 := updGraph x.graph (fun y => { y with
        closed := Map.set (fun _ => none) y.closed x.frame (some { c with bytes := bs }) }) d
      let d2 := flag0 T.FGS 0 7 x.graph (bump (kG x.graph 0x090) (writeTicket x.graph c.addr bs d1))
      graphEvent x.graph 0x21 4 x.tag c.addr c.seq x.frame d2

/-! ### Commands (R411 to R414) -/

/-- CMD_STATUS. -/
def graphResult (code idx : Nat) (d : Dev) : Dev := wr (kF 0 0x050) (idx % 65536 * 256 + code) d

/-- FGS_BASE, if valid. -/
def graphBacking (d : Dev) : Option Nat :=
  if bit (rd64 d (kF 0 0x040)) 63 then some (rd64 d (kF 0 0x040) % 2 ^ 48) else none

/-- Whether the first `len` bytes of the backing of a graph slot can be reached: each 256-byte granule lies in a stack of
its own (R198, R436). -/
def backingUp (d : Dev) (g len : Nat) : Bool := match graphBacking d with
  | some b =>
    let o := b + g * 0x10000 - stackBase
    b < stackBase || (!edgeCut d (homeStation .fgs) o len &&
      (List.range ((len + 255) / 256)).all (fun i => lineOnline d (o + 256 * i)))
  | none => true

/-- A command waits for a read that is held (R171, R189): BUSY stays 1. -/
def graphHold (cmd g addr : Nat) (d : Dev) : Dev :=
  let d1 := wr (kF 0 0x050) 0x80000000 d
  { d1 with fgs := { d1.fgs with waiting := some ⟨cmd, g, addr⟩ } }

/-- A command waits for a stack that is offline (R436). -/
def graphWait (cmd g addr : Nat) (d : Dev) : Dev := graphHold cmd g addr (flag0 T.FGS 0 2 g d)

/-- LOAD (R413). -/
def graphLoad (g addr : Nat) (d : Dev) : Dev :=
  let x := getGraph d g
  if x.stage = .running || x.stage = .stopping then graphResult 0x01 0 d
  else match graphBacking d with
    | none => graphResult 0x02 0 d
    | some base =>
      match readLines addr 4 d with
      | (none, d1) => graphHold 1 g addr d1
      | (some h, d1) =>
        if h.2 || badHeader h.1 then graphResult 0x03 0 d1
        else match readLines addr (fieldAt h.1 8 4 / 64) d with
          | (none, d2) => graphHold 1 g addr d2
          | (some r, d2) =>
            let c := loadCheck d2 r.1 r.2
            if c.1 ≠ 0 then graphResult c.1 c.2 d2
            else if !backingUp d g (fieldAt h.1 8 4) then graphWait 1 g addr d2
            else
              let t := parseTable r.1
              let d3 := (ownWrite { who := .fgs, cmp := 0, write := true } (base + g * 0x10000) r.1 d2).2
              let d4 := updGraph g (fun _ => { stage := .loaded, table := some t }) d3
              graphResult 0 0 (wr (kG g 0x040) (graphStatus d4 g) (wr (kG g 0x0A0) t.len (wr (kG g 0x0A4) t.check d4)))

/-- Whether a handover source can be taken over (R413). -/
def badHandover (d : Dev) (g src : Nat) : Bool :=
  let t := tableOf d g
  let s := tableOf d src
  let same := match t.trigger with
    | 0 => t.period = s.period && t.phase = s.phase
    | 1 => (t.inputs[t.trigInput]?).map (fun i => (i.port, i.binding)) =
             (s.inputs[s.trigInput]?).map (fun i => (i.port, i.binding))
    | 2 => t.trigTally = s.trigTally
    | _ => true
  (getGraph d src).stage ≠ .running || src = g || t.cmp ≠ s.cmp || t.trigger ≠ s.trigger || !same

/-- The first k × PERIOD + PHASE at or after a tick (R417). -/
def firstDue (period phase now : Nat) : Nat :=
  if now ≤ phase then phase else phase + (now - phase + period - 1) / period * period

/-- GRAPH_CMD's word of START, with the slot that hands over. -/
def startCode (from? : Option Nat) : Nat := 2 + (match from? with
  | some s => 2 ^ 22 + s * 65536
  | none => 0)

/-- START (R413, R414). -/
def graphStart (g : Nat) (from? : Option Nat) (d : Dev) : Dev :=
  let x := getGraph d g
  let t := tableOf d g
  if x.stage ≠ .loaded then graphResult 0x11 0 d
  else if from?.any (fun s => badHandover d g s) then graphResult 0x12 0 d
  else if t.trigger = 0 && decide (256 ≤ ttPeriodic d) then graphResult 0x10 0 (flag0 T.FGS 0 3 g d)
  else if !backingUp d g t.len then graphWait (startCode from?) g 0 d
  else
    match (match graphBacking d with
      | some b => readLines (b + g * 0x10000) (t.len / 64) d
      | none => (some ([], false), d)) with
    | (none, e) => graphHold (startCode from?) g 0 e
    | (some r, e) =>
    if r.2 then tableLost g e
    else
      let d1 := match from? with
        | some s => updGraph s (fun y => { y with stage := .stopping }) e
        | none => e
      let d2 := updGraph g (fun y => { y with
        stage := .running, seq := 0, last := t.maxFrames - 1, source := from? }) d1
      let d3 := wr64 (kG g 0x048) 0 d2
      let d4 := if t.trigger = 0 then ttAdd (firstDue t.period t.phase (tick d)) t.period (.graph g) d3 else d3
      let d5 := watchTrigger g (armAhead g d4)
      let d6 := match from? with
        | some s => pump s d5
        | none => d5
      graphResult 0 0 (pump g d6)

/-- STOP (R411). -/
def graphStop (g : Nat) (d : Dev) : Dev :=
  if (getGraph d g).stage = .running then
    graphResult 0 0 (pump g (updGraph g (fun x => { x with stage := .stopping, source := none }) d))
  else graphResult (if (getGraph d g).stage = .stopping then 0x01 else 0x11) 0 d

/-- UNLOAD (R411). -/
def graphUnload (g : Nat) (d : Dev) : Dev :=
  match (getGraph d g).stage with
  | .loaded =>
    let d1 := updGraph g (fun _ => {}) d
    graphResult 0 0 (wr (kG g 0x0A0) 0 (wr (kG g 0x0A4) 0 (wr (kG g 0x040) 0 d1)))
  | .empty => graphResult 0x11 0 d
  | _ => graphResult 0x01 0 d

/-- TRIGGER (R411, R417): a software trigger at the command's tick. -/
def graphTrigger (g : Nat) (d : Dev) : Dev :=
  if (getGraph d g).stage = .running then graphResult 0 0 (trigger g (tick d) (degraded d) none d)
  else graphResult 0x11 0 d

/-- A write of GRAPH_CMD (R411). -/
def graphCmd (v : Nat) (d : Dev) : Dev :=
  if rdB d (kF 0 0x050) 31 then d
  else
    let g := rdF d (kF 0 0x048) 5 0
    let d0 := useTable g d
    match fld v 2 0 with
    | 1 => graphLoad g (rd64 d (kF 0 0x058) % 2 ^ 48) d0
    | 2 => graphStart g (if bit v 22 then some (fld v 21 16) else none) d0
    | 3 => graphStop g d0
    | 4 => graphUnload g d0
    | 5 => graphTrigger g d0
    | _ => d

/-- FGS_BACKING_RETRY: a command held on an offline backing area is tried again (R436). -/
def graphRetry (d : Dev) : Dev :=
  match d.fgs.waiting with
  | none => d
  | some w =>
    let d1 := wr (kF 0 0x050) 0 { d with fgs := { d.fgs with waiting := none } }
    if w.cmd = 1 then graphLoad w.graph w.addr d1
    else graphStart w.graph (if bit w.cmd 22 then some (fld w.cmd 21 16) else none) d1

/-! ### Compartments (R435) -/

/-- The graphs of a compartment stop: their frame slots are discarded (R435). -/
def stopGraphs (n : Nat) (kill : Bool) (d : Dev) : Dev :=
  each ((List.range 64).filter (fun g => (getGraph d g).stage ≠ .empty && (tableOf d g).cmp = n)) (fun g d =>
    let x := getGraph d g
    let d1 := dropTriggers g d
    let d2 := { d1 with
      fgs := { d1.fgs with
        sent := d1.fgs.sent.filter (fun e => e.graph ≠ g)
        reports := d1.fgs.reports.filter (fun e => e.graph ≠ g) }
      dpt := { d1.dpt with brakes := d1.dpt.brakes.filter (fun b => b.node ≠ some g) } }
    let d3 := updGraph g (fun _ => if kill then {} else { x with
      stage := .loaded, frames := [], held := [], spent := [], braked := none, source := none }) d2
    let d4 := if kill then wr (kG g 0x0A0) 0 (wr (kG g 0x0A4) 0 d3) else d3
    wr (kG g 0x040) (graphStatus d4 g) d4) d

/-- A graph whose enqueue can go on goes on launching; `again` says that it has waited for a slot (R266, R426). -/
def unbrake (again : Bool) (g : Nat) (d : Dev) : Dev :=
  match (getGraph d g).braked with
  | none => d
  | some (f, n, i) =>
    let d1 := updGraph g (fun x => { x with braked := none })
      { d with dpt := { d.dpt with brakes := d.dpt.brakes.filter (fun b => b.node ≠ some g) } }
    match (tableOf d g).nodes[n]? with
    | some x => pump g (launchFrom g f n x again (x.count - i) i d1)
    | none => d1

end Sys2Proof.Machine
end

