-- ==== Sys2Proof/Machine/ClkCmds.lean ====
section
/-! DEFINITION. Clocks (R71 to R82), the governor (R87 to R100) and the tick (R75). -/

namespace Sys2Proof.Machine

/-! ### REF, AON and the tick source -/

/-- Changing what the CLK block knows. -/
def updClk (f : Clk → Clk) (d : Dev) : Dev := { d with clk := f d.clk }

/-- REF is declared lost (R78): the PLL outputs enter holdover. `edges` says that REF edges are still there, `unlock` that
the PLL has lost lock by itself, which sets REF_UNLOCK too. Edges that stop after REF has been declared lost end its
presence. -/
def refLost (edges unlock : Bool) (d : Dev) : Dev :=
  if d.clk.lost then
    (if edges then d else updClk (fun c => { c with refPresent := false, relocking := false, good := 0 }) d)
  else
    let d1 := flag0 T.CLK 0 0 0 (updClk (fun c => { c with
      lost := true, locked := false, refPresent := edges, relocking := false, good := 0 }) d)
    if unlock then flag0 T.CLK 0 2 0 d1 else d1

/-- Stacks that answer go into self-refresh: their PHYs are offline (R78, R79, R111). -/
def selfRefresh (d : Dev) : Dev :=
  each (List.range d.part.stacks) (fun p d =>
    if (stackOf d p).mode = .ready || (stackOf d p).mode = .recalibrating then
      updStack p (fun c => { c with mode := .selfRefresh, rows := [], recal := none }) d else d) d

/-- HOLDOVER_SWITCH: the tick source becomes the holdover oscillator, and every stack channel enters self-refresh (R78
steps 3 and 4). -/
def holdoverSwitch (d : Dev) : Dev :=
  if d.clk.lost then selfRefresh (updClk (fun c => { c with holdover := true }) d) else d

/-- REF_QUALIFIED: REF has been present for REF_QUAL_MS, and the PLL relocks when REF_RESTORE_AUTO is 1 (R80). -/
def refQualified (d : Dev) : Dev :=
  let held := match d.clk.injectEnd with
    | some t => decide (tick d < t)
    | none => false
  if d.clk.lost && !held then
    updClk (fun c => { c with refPresent := true, injectEnd := none, relocking := c.relocking || rdB d (rk T.CLK 0 0 0x040) 8 }) d
  else d

/-- REF_RESTORE: a write of 1 restores REF now; the bit clears itself (R80). -/
def refRestore (d : Dev) : Dev := if d.clk.lost then updClk (fun c => { c with relocking := true }) d else d

/-- REF_MEASURE: REF cycles counted over 1,024 AON cycles, against 781,250 (R81, R82). REF_PPM saturates at the limits of
its 16 bits: DESIGN CHOICE, log entry 127. Every deviation above 2,000 ppm is a loss of REF, as R81 says, also one that R82
would report as REF_RANGE only: DESIGN CHOICE, log entry 126. AON is more than 5 % off when REF's count says so of AON. -/
def refMeasure (cycles : Nat) (d : Dev) : Dev :=
  let dev : Int := (cycles : Int) - 781250
  let ppm := clampInt (-32768) 32767 (Int.tdiv (dev * 128) 100)
  let off := dev.natAbs * 1000000
  let aonOff := d.clk.refPresent && (decide (105 * cycles < 100 * 781250) || decide (100 * 781250 < 95 * cycles))
  let d1 := wr (rk T.CLK 0 0 0x048) (ofSigned 16 ppm) d
  if off ≤ 500 * 781250 then
    let n := d1.clk.good + 1
    updClk (fun c => { c with good := n, inRange := true, range := c.range && decide (n < 2) }) d1
  else
    let d2 := flag0 T.CLK 0 1 (ofSigned 16 ppm) (updClk (fun c => { c with good := 0, inRange := false, range := true }) d1)
    let d3 := if aonOff then flag0 T.CLK 0 4 0 (updClk (fun c => { c with aon := false }) d2) else d2
    if 2000 * 781250 < off then refLost d.clk.refPresent false d3 else d3

/-- AON_LOST: no AON edge in 64 µs while REF is present (R82). -/
def aonLost (d : Dev) : Dev :=
  if d.clk.refPresent then flag0 T.CLK 0 3 0 (updClk (fun c => { c with aon := false }) d) else d

/-- AON_RESTORED: AON_PRESENT sets again. -/
def aonRestored (d : Dev) : Dev := updClk (fun c => { c with aon := true }) d

/-- DOMAIN_MEASURE: frequencies, activity and stops of the domains of this part (R71, R72). -/
def domainMeasure (khz : List Nat) (toggled stopped : Nat) (d : Dev) : Dev :=
  let mask := rd d (rk T.CLK 0 1 0x040)
  let d1 := foldBelow 14 (fun i d =>
    wr (rk T.CLK 0 1 (0x050 + 4 * i)) (if mask.testBit i then khz.getD i 0 else 0) d) d
  let d2 := wr (rk T.CLK 0 1 0x044) (toggled &&& mask) d1
  wr (rk T.CLK 0 1 0x048) (rd d2 (rk T.CLK 0 1 0x048) ||| (stopped &&& mask)) d2

/-- STEP_RATE_MEASURE: the replica's count (R69). -/
def stepRate (mhz : Nat) (d : Dev) : Dev := wr (rk T.GOV 0 1 0x058) (mhz % 65536) d

/-! ### The governor: limits and pressure -/

/-- Keys of the GOV pages. -/
def kV (page off : Nat) : Nat := rk T.GOV 0 page off

/-- Changing the governor. -/
def updGov (f : Gov → Gov) (d : Dev) : Dev := { d with gov := f d.gov }

/-- The junction sensors of this part. -/
def tjSensors (p : Part) : List Nat := List.range (if p.ioDies = 2 then 18 else 17)

/-- A junction sensor's reading in 1/16 °C. -/
def tjOf (d : Dev) (k : Nat) : Int := toSigned 16 (rd d (kV 1 (0x060 + 4 * k)))

/-- The highest reading and its sensor (R97). Of sensors that read the same the lowest index is reported: DESIGN CHOICE, log
entry 134. -/
def tjMax (d : Dev) : Nat × Int :=
  (tjSensors d.part).foldl (fun b k => if b.2 < tjOf d k then (k, tjOf d k) else b) (0, tjOf d 0)

/-- BOOST_USED: boost ms in the trailing 60 s. -/
def boostUsed (d : Dev) : Nat := d.gov.boost.foldl (· + ·) 0

/-- The effective floor (R90). -/
def govFloor (d : Dev) : Nat := max (max (rdF d (kV 0 0x048) 15 0) (rdF d (kV 1 0x054) 15 0)) 600

/-- The effective ceiling (R90). -/
def govCeiling (d : Dev) : Nat :=
  let boost := rdB d (kV 0 0x040) 4 && !d.gov.boostOut && decide ((tjMax d).2 < 95 * 16)
  max (govFloor d) (min (min (rdF d (kV 0 0x048) 31 16) d.gov.thermal) (if boost then 900 else 850))

/-- A target brought into [F, C]. -/
def govClamp (d : Dev) (mv : Nat) : Nat := min (max mv (govFloor d)) (govCeiling d)

/-- MODE is AUTO; every other value is MANUAL. -/
def govAuto (d : Dev) : Bool := rdF d (kV 0 0x040) 1 0 = 1

/-- The last commanded VCORE. Before the first command it is the regulator's power-up value (R85, R91); after PMBUS_FAIL,
with VCORE unknown, the same 750 mV is the base: DESIGN CHOICE, log entry 133. -/
def vcmd (d : Dev) : Nat := if d.gov.vcmd = 0 then 750 else d.gov.vcmd

/-- The target that commanding heads for: the newest that waits, the one under way, or the last commanded (R93). -/
def goal (d : Dev) : Nat := match d.gov.later, d.gov.next, d.gov.txn with
  | some v, _, _ => v
  | none, some (v, _), _ => v
  | none, none, some (.vout v _) => v
  | none, none, _ => vcmd d

/-- The pressure of an enrolled graph: the lowest q of its window (R88). -/
def graphPressure (d : Dev) (g : Nat) : Option Int :=
  if bit (rd64 d (kV 0 0x060)) g then (Map.get (fun _ => []) d.gov.windows g).min? else none

/-- The module pressure of this module's own graphs, and the slot that sets it. Of graphs of equal pressure the lowest slot is
reported: DESIGN CHOICE, log entry 129. -/
def ownPressure (d : Dev) : Option (Nat × Int) :=
  (List.range 64).foldl (fun b g => match graphPressure d g, b with
    | some q, none => some (g, q)
    | some q, some x => if q < x.2 then some (g, q) else b
    | none, _ => b) none

/-- The module pressure, the team's lowest when TEAM_PRESSURE is 1 (R88, R89). -/
def pressure (d : Dev) : Option Int :=
  let own := (ownPressure d).map (·.2)
  if d.part.ioDies = 2 && rdB d (kV 0 0x040) 9 then
    d.gov.team.foldl (fun b e => match e.2, b with
      | some q, some x => some (min q x)
      | some q, none => some q
      | none, _ => b) own
  else own

/-- PRESSURE: this module's own pressure, with TEAM_PRESSURE set too, since a slot of this module sets it: DESIGN CHOICE, log
entry 130. -/
def pressureWord (d : Dev) : Nat := match ownPressure d with
  | some (g, q) => 2 ^ 31 + g * 65536 + ofSigned 16 q
  | none => 0

/-- Boost is in force: from the command above 850 mV until the one that lowers it has settled (R96). -/
def boostOn (d : Dev) : Bool := d.gov.boosting.isSome

/-- GOV_STATUS. -/
def govStatus (d : Dev) : Nat :=
  let v := d.gov.vcmd
  d.gov.action * 2 ^ 22 + b2n (v = govFloor d) * 2 ^ 21 + b2n (v = govCeiling d) * 2 ^ 20 +
    b2n (decide (105 * 16 ≤ (tjMax d).2)) * 2 ^ 19 + b2n (decide (d.gov.thermal < 900)) * 2 ^ 18 + b2n (boostOn d) * 2 ^ 17 +
    b2n (d.gov.txn.isSome || d.gov.settle.isSome || d.gov.reading || d.gov.next.isSome) * 2 ^ 16 + v

/-! ### Commanding (R93 to R95) -/

/-- A new target: only the newest is sent next, and a thermal change goes before every other (R93). A target that arises while
a thermal one waits is sent after it; the thermal one is brought into [F, C] as they are now. -/
def setTarget (mv : Nat) (thermal : Bool) (action : Nat) (d : Dev) : Dev :=
  if !enabled d T.GOV 0 || d.gov.stopped then d
  else
    let act := fun (g : Gov) => if action = 0 then g.action else action
    let ahead := match d.gov.next with
      | some (v, true) => if thermal then none else some (govClamp d v)
      | _ => none
    match ahead with
    | some v => updGov (fun g => { g with
        target := mv, next := some (v, true), later := if mv = v then none else some mv, action := act g }) d
    | none =>
      if mv = d.gov.vcmd && d.gov.txn.isNone && d.gov.next.isNone then d
      else updGov (fun g => { g with target := mv, next := some (mv, thermal), later := none, action := act g }) d

/-- The targets that wait are brought into [F, C]. -/
def confine (d : Dev) : Dev :=
  updGov (fun g => { g with next := g.next.map (fun p => (govClamp d p.1, p.2)), later := g.later.map (govClamp d) }) d

/-- What F, C or MODE have become takes effect: MANUAL commands its target, AUTO brings the goal into its limits (R91,
R95). -/
def govApply (thermal : Bool) (d : Dev) : Dev :=
  if govAuto d then
    let v := govClamp d (goal d)
    if v = goal d then confine d else setTarget v thermal 0 d
  else setTarget (govClamp d (rdF d (kV 0 0x05C) 15 0)) thermal 0 d

/-- A change that may move F or C, by temperature or not: MANUAL commands its target when it did; AUTO waits for the next
evaluation (R91, R95), which hears whether temperature moved C (R93). -/
def limited (thermal : Bool) (f : Dev → Dev) (d : Dev) : Dev :=
  let d1 := f d
  let moved := govCeiling d1 ≠ govCeiling d
  if govAuto d1 then updGov (fun g => { g with cooled := g.cooled || (thermal && decide moved) }) d1
  else if govFloor d1 = govFloor d && !moved then d1
  else govApply (thermal && decide moved) d1

/-- THROT_ON in °C (R98). -/
def throtOn (d : Dev) : Nat := min 100 (max 80 (rdF d (kV 1 0x04C) 7 0))

/-- THROT_OFF in °C: at least 2 °C below THROT_ON (R98). -/
def throtOff (d : Dev) : Nat := min (rdF d (kV 1 0x04C) 15 8) (throtOn d - 2)

/-- The thermal ceiling moves at an evaluation, by what TJ_MAX is now (R97). -/
def thermalStep (d : Dev) : Dev :=
  let m := (tjMax d).2
  let t := d.gov.thermal
  let n := if 16 * throtOn d ≤ m then max (govFloor d) (t - rdF d (kV 1 0x050) 7 0)
           else if m < 16 * throtOff d then min 900 (t + rdF d (kV 1 0x050) 15 8)
           else t
  updGov (fun g => { g with thermal := n }) d

/-- An evaluation is due: EVAL_TICKS have passed since the last (R91). -/
def evalDue (d : Dev) : Bool := due d (d.gov.evaled + rd d (kV 0 0x054))

/-- An evaluation in AUTO mode, after the thermal ceiling has moved (R91). -/
def autoEvaluate (thermal : Bool) (d : Dev) : Dev :=
  let v := vcmd d
  let step := rdF d (kV 0 0x04C) 7 0
  match pressure d with
  | none => govApply thermal d
  | some p =>
    if p < toSigned 16 (rdF d (kV 0 0x050) 15 0) then
      let n := min (v + step) (govCeiling d)
      setTarget (govClamp d n) thermal (if v < n then 1 else 0) (updGov (fun g => { g with above := 0 }) d)
    else if toSigned 16 (rdF d (kV 0 0x050) 31 16) < p then
      (if d.gov.above + 1 = rdF d (kV 0 0x058) 12 8 then
        let n := max (v - step) (govFloor d)
        setTarget (govClamp d n) thermal (if n < v then 2 else 0) (updGov (fun g => { g with above := 0 }) d)
       else govApply thermal (updGov (fun g => { g with above := g.above + 1 }) d))
    else govApply thermal (updGov (fun g => { g with above := 0 }) d)

/-- GOV_EVALUATE (R91, R95, R97): the thermal ceiling moves, and AUTO mode evaluates; with GOV ENABLE 0 nothing does. -/
def govEvaluate (d : Dev) : Dev :=
  if !evalDue d || !enabled d T.GOV 0 then d
  else
    let d1 := limited true thermalStep (updGov (fun g => { g with evaled := tick d }) d)
    if govAuto d1 then autoEvaluate d1.gov.cooled (updGov (fun g => { g with cooled := false }) d1) else d1

/-- WINDOW in frames. -/
def windowOf (d : Dev) : Nat := max 1 (rdF d (kV 0 0x058) 5 0)

/-- WINDOW is written: a graph keeps its last WINDOW values (R88). -/
def windowWrite (v : Nat) (d : Dev) : Dev :=
  let d1 := wr (kV 0 0x058) v d
  updGov (fun g => { g with windows := g.windows.map (fun e => (e.1, e.2.take (windowOf d1))) }) d1

/-- ENROLL is written: a graph that is not enrolled keeps no values (R88). -/
def enrollKept (d : Dev) : Dev :=
  updGov (fun g => { g with windows := g.windows.filter (fun e => bit (rd64 d (kV 0 0x060)) e.1) }) d

/-- The governor has raised the target for a LATE ticket within the last 1,000 ticks (R92). -/
def lateRaised (d : Dev) : Bool := match d.gov.lastLate with
  | some t => decide (tick d < t + 1000)
  | none => false

/-- An enrolled graph closes a LATE ticket (R92): the target rises at once, or is C already. This acts in AUTO mode only:
DESIGN CHOICE, log entry 132. -/
def lateFast (g : Nat) (d : Dev) : Dev :=
  if !govAuto d || !enabled d T.GOV 0 || !rdB d (kV 0 0x040) 8 then d
  else if govCeiling d ≤ goal d then flag0 T.GOV 0 6 g d
  else if lateRaised d then d
  else
    setTarget (min (goal d + rdF d (kV 0 0x04C) 23 16 * rdF d (kV 0 0x04C) 7 0) (govCeiling d)) false 3
      (updGov (fun v => { v with lastLate := some (tick d) }) d)

/-- A closed ticket's q reaches the governor (R87, R88, R92). -/
def govSlack (g : Nat) (q : Int) (d : Dev) : Dev :=
  if !bit (rd64 d (kV 0 0x060)) g then d
  else
    let d1 := updGov (fun v => { v with
      windows := Map.set (fun _ => []) v.windows g ((q :: Map.get (fun _ => []) v.windows g).take (windowOf d)) }) d
    if q < 0 then lateFast g d1 else d1

/-- Whether the governor may use BUS1 now. -/
def govFree (d : Dev) : Bool := enabled d T.GOV 0 && !d.gov.stopped && d.gov.txn.isNone

/-- Whether a VOUT_COMMAND is due: a target waits and nothing settles. -/
def voutDue (d : Dev) : Bool := d.gov.next.isSome && d.gov.settle.isNone && !d.gov.reading

/-- PAGE_EN. -/
def pageEn (d : Dev) : Bool := rdB d (kV 1 0x040) 10

/-- GOV_PAGE: PAGE precedes each command when PAGE_EN is 1 (R560). -/
def govPage (d : Dev) : Dev :=
  if govFree d && pageEn d && !d.gov.paged && (voutDue d || d.gov.reading) then
    updGov (fun g => { g with txn := some .page }) d
  else d

/-- GOV_VOUT_COMMAND. -/
def govVout (d : Dev) : Dev :=
  match d.gov.next with
  | some (v, thermal) =>
    if govFree d && voutDue d && (!pageEn d || d.gov.paged) then
      updGov (fun g => { g with
        txn := some (.vout v thermal), next := g.later.map (fun w => (w, false)), later := none, paged := false }) d
    else d
  | none => d

/-- GOV_READ_VOUT. -/
def govRead (d : Dev) : Dev :=
  if govFree d && d.gov.reading && (!pageEn d || d.gov.paged) then
    updGov (fun g => { g with txn := some .read, reading := false, paged := false }) d
  else d

/-- SETTLE_EXPIRE: SETTLE_US after a VOUT_COMMAND, READ_VOUT is due; boost ends when the command that lowered VCORE has
settled (R93, R96). -/
def settleExpire (d : Dev) : Dev :=
  match d.gov.settle with
  | none => d
  | some t =>
    if tick d < t then d
    else updGov (fun g => { g with settle := none, reading := true,
                                   boosting := if g.vcmd ≤ 850 then none else g.boosting }) d

/-- A ULINEAR16 word in mV, rounded down: the exponent is VOUT_EXP (R85). -/
def voutMv (d : Dev) (w : Nat) : Nat :=
  let e := toSigned 5 (rdF d (kV 1 0x040) 15 11)
  if e < 0 then w * 1000 / 2 ^ e.natAbs else w * 1000 * 2 ^ e.natAbs

/-- The targets that wait after a VOUT_COMMAND of `v` has failed: a newer one goes first, but a thermal one gives way to
another thermal one only, and a newer one then follows it (R93). -/
def requeued (v : Nat) (thermal : Bool) (g : Gov) : Gov := match g.next with
  | some (w, false) => if thermal then { g with next := some (v, true), later := some w } else g
  | some (_, true) => g
  | none => { g with next := some (v, thermal) }

/-- A governor transaction has failed (R94): three retries, then commanding stops. -/
def govFailed (status : Nat) (d : Dev) : Dev :=
  let t := d.gov.txn
  if 3 ≤ (if t = some .page then d.gov.pageFails else d.gov.fails) then
    flag0 T.GOV 0 0 status (updGov (fun g => { g with
      txn := none, fails := 0, pageFails := 0, stopped := true, vcmd := 0, next := none, later := none, settle := none, reading := false
      paged := false }) d)
  else
    updGov (fun g => match t with
      | some .page => { g with txn := none, pageFails := g.pageFails + 1 }
      | some (.vout v thermal) => requeued v thermal { g with txn := none, fails := g.fails + 1 }
      | some .read => { g with txn := none, fails := g.fails + 1, reading := true }
      | none => g) d

/-- PMBUS_TRANSACTION_DONE: the outcome of the governor's transaction, a two-wire status and the word read (R94). -/
def pmbusDone (status word : Nat) (d : Dev) : Dev :=
  match d.gov.txn with
  | none => d
  | some t =>
    if (armed d T.GOV 0 0 0).isSome then
      let v := drawOf [1, 2, 3, 4, 5, 6] (fired T.GOV 0 0 d)
      govFailed v.1 v.2
    else if status ≠ 0 then govFailed status d
    else
      let d1 := updGov (fun g => { g with txn := none, fails := if t = .page then g.fails else 0, pageFails := 0 }) d
      match t with
      | .page => updGov (fun g => { g with paged := true }) d1
      | .vout v _ => updGov (fun g => { g with
          vcmd := v, settle := some (tick d + rdF d (kV 0 0x070) 15 0)
          boosting := if 850 < v && g.boosting.isNone then some (tick d) else g.boosting }) d1
      | .read =>
        let mv := min 65535 (voutMv d1 word)
        let d2 := wr (kV 1 0x044) mv d1
        if mv + 15 < vcmd d1 || vcmd d1 + 15 < mv then flag0 T.GOV 0 1 mv d2 else d2

/-- RESUME (R94): commanding goes on. -/
def govResume (d : Dev) : Dev := if d.gov.stopped then govApply false (updGov (fun g => { g with stopped := false }) d) else d

/-- MANUAL_TARGET is written: in AUTO it is only stored (R95). -/
def manualTarget (v : Nat) (d : Dev) : Dev :=
  let d1 := wr (kV 0 0x05C) (v % 65536) d
  if govAuto d1 then d1 else govApply false d1

/-- GOV_CTRL is written: a change of MODE commands the new mode's target at once, and so does BOOST_EN in MANUAL when C moves
(R95). -/
def govCtrl (v : Nat) (d : Dev) : Dev :=
  let write := wr (kV 0 0x040) ((v &&& 0x113) ||| (if d.part.ioDies = 2 then v &&& 0x200 else 0))
  let d1 := limited false write d
  let d2 := if bit v 10 then govResume d1 else d1
  if govAuto d2 = govAuto d then d2 else govApply false d2

/-! ### Boost and temperature (R96, R97) -/

/-- The boost budget is checked: at 2,000 ms in 60 s boost ends and C is commanded at once; below them it is available
again. -/
def boostCheck (d : Dev) : Dev :=
  let used := boostUsed d
  let d1 := wr (kV 0 0x06C) (min 65535 used) d
  if 2000 ≤ used && !d.gov.boostOut then
    let d2 := flag0 T.GOV 0 5 0 (limited false (updGov (fun g => { g with boostOut := true })) d1)
    if govCeiling d2 < goal d2 then setTarget (govCeiling d2) true 2 d2 else confine d2
  else if used < 2000 && d.gov.boostOut then limited false (updGov (fun g => { g with boostOut := false })) d1
  else d1

/-- A millisecond of boost. -/
def boostMs (d : Dev) : Dev :=
  if boostOn d then
    boostCheck (updGov (fun g => { g with boost := match g.boost with
      | [] => [1]
      | b :: bs => (b + 1) :: bs }) d)
  else d

/-- BOOST_BUCKET: a second is over. -/
def boostBucket (d : Dev) : Dev := boostCheck (updGov (fun g => { g with boost := (0 :: g.boost).take 60 }) d)

/-- The thresholds of R97, against TJ_MAX as it is now. With GOV ENABLE 0 only the thermal trip acts (R95). -/
def thermalCheck (d : Dev) : Dev :=
  if !enabled d T.GOV 0 then d
  else
    let m := tjMax d
    let warm := decide (((16 * throtOn d : Nat) : Int) ≤ m.2)
    let hot := decide (105 * 16 ≤ m.2)
    let d1 := if warm && !d.gov.throttle then flag0 T.GOV 0 2 m.1 d else d
    let d2 := if hot && !d.gov.hot then flag0 T.GOV 0 3 m.1 d1 else d1
    updGov (fun g => { g with throttle := warm, hot := hot, thermal := if hot then govFloor d else g.thermal }) d2

/-- TJ_SENSOR_UPDATE (R97). -/
def tjUpdate (k : Nat) (v : BitVec 16) (d : Dev) : Dev :=
  if !(tjSensors d.part).contains k then d
  else
    limited true (fun d =>
      let d1 := wr (kV 1 (0x060 + 4 * k)) v.toNat d
      let m := tjMax d1
      thermalCheck (wr (kV 1 0x048) (m.1 * 65536 + ofSigned 16 m.2) d1)) d

/-- THERM_THRESH is written, with THROT_ON held to 80 to 100 °C (R98): the new thresholds act at once. -/
def threshWrite (v : Nat) (d : Dev) : Dev :=
  limited true thermalCheck (wr (kV 1 0x04C) (0x6E690000 + setFld v 7 0 (clamp 80 100 (fld v 7 0)) % 65536) d)

/-! ### The tick (R75, R76) -/

/-- The watchdog counts tick time in milliseconds; the TAP holding CTL0 halted pauses it (R122). -/
def wdtMs (d : Dev) : Dev :=
  if rdF d (rk T.SYS 0 0 0x054) 15 0 = 0 || (getCore d 64).mode = .debugHalt then d
  else wrF (rk T.SYS 0 0 0x05C) 31 16 (rdF d (rk T.SYS 0 0 0x05C) 31 16 - 1) d

/-- Engines count the ticks they run for a compartment (R300). -/
def engineTick (d : Dev) : Dev :=
  each (List.range 10) (fun e d => match runOf d (0x48 + e) with
    | some r => updCmp r.cmp (fun c => { c with used := Map.upd (fun _ => 0) c.used e (· + 1) })
        (ccount r.cmp 4 1 (bump (kC r.cmp (0x0D0 + 4 * e)) d))
    | none => d) d

/-- TICK: the tick advances by one. -/
def tickCmd (d : Dev) : Dev :=
  let d1 := wrap64By kTick 1 (if d.clk.holdover then wrap64By (rk T.CLK 0 0 0x058) 1 d else d)
  let d2 := match armed d1 T.CLK 0 0 0 with
    | some ms => updClk (fun c => { c with injectEnd := some (tick d1 + 1000 * ms) })
        (refLost false false (fired T.CLK 0 0 d1))
    | none => d1
  let d3 := engineTick d2
  if tick d3 % 1000 = 0 then boostMs (wdtMs d3) else d3

end Sys2Proof.Machine
end

