-- ==== Sys2Proof/Machine/Crypto.lean ====
section
/-! DEFINITION. SHA-256 and ECDSA P-256 verification, which the boot ROM uses (R118, R119). The manual names them; their
definitions are PRESUMED from FIPS 180-4 and FIPS 186-4 (log entry 41). -/

namespace Sys2Proof.Machine

/-! ### SHA-256 -/

/-- The 64 round constants. -/
def shaK : List Nat :=
  [0x428A2F98, 0x71374491, 0xB5C0FBCF, 0xE9B5DBA5, 0x3956C25B, 0x59F111F1, 0x923F82A4, 0xAB1C5ED5,
   0xD807AA98, 0x12835B01, 0x243185BE, 0x550C7DC3, 0x72BE5D74, 0x80DEB1FE, 0x9BDC06A7, 0xC19BF174,
   0xE49B69C1, 0xEFBE4786, 0x0FC19DC6, 0x240CA1CC, 0x2DE92C6F, 0x4A7484AA, 0x5CB0A9DC, 0x76F988DA,
   0x983E5152, 0xA831C66D, 0xB00327C8, 0xBF597FC7, 0xC6E00BF3, 0xD5A79147, 0x06CA6351, 0x14292967,
   0x27B70A85, 0x2E1B2138, 0x4D2C6DFC, 0x53380D13, 0x650A7354, 0x766A0ABB, 0x81C2C92E, 0x92722C85,
   0xA2BFE8A1, 0xA81A664B, 0xC24B8B70, 0xC76C51A3, 0xD192E819, 0xD6990624, 0xF40E3585, 0x106AA070,
   0x19A4C116, 0x1E376C08, 0x2748774C, 0x34B0BCB5, 0x391C0CB3, 0x4ED8AA4A, 0x5B9CCA4F, 0x682E6FF3,
   0x748F82EE, 0x78A5636F, 0x84C87814, 0x8CC70208, 0x90BEFFFA, 0xA4506CEB, 0xBEF9A3F7, 0xC67178F2]

/-- The initial hash value. -/
def shaH0 : List Nat :=
  [0x6A09E667, 0xBB67AE85, 0x3C6EF372, 0xA54FF53A, 0x510E527F, 0x9B05688C, 0x1F83D9AB, 0x5BE0CD19]

/-- Rotation of a 32-bit word to the right. -/
def rotr32 (x n : Nat) : Nat := (x >>> n ||| x <<< (32 - n)) % 2 ^ 32

/-- The next word of the message schedule; the list is newest first. -/
def shaNext (w : List Nat) : Nat :=
  let a := w.getD 14 0
  let b := w.getD 1 0
  let s0 := rotr32 a 7 ^^^ rotr32 a 18 ^^^ a >>> 3
  let s1 := rotr32 b 17 ^^^ rotr32 b 19 ^^^ b >>> 10
  (w.getD 15 0 + s0 + w.getD 6 0 + s1) % 2 ^ 32

/-- The message schedule of a block of 16 words, oldest first. -/
def shaSchedule (block : List Nat) : List Nat :=
  (foldBelow 48 (fun _ w => shaNext w :: w) block.reverse).reverse

/-- One round on the eight working variables. -/
def shaRound (h : List Nat) (k w : Nat) : List Nat :=
  match h with
  | [a, b, c, e, f, g, i, j] =>
    -- a b c d are the first four, e f g h the last four
    let s1 := rotr32 f 6 ^^^ rotr32 f 11 ^^^ rotr32 f 25
    let ch := (f &&& g) ^^^ ((f ^^^ 0xFFFFFFFF) &&& i)
    let t1 := (j + s1 + ch + k + w) % 2 ^ 32
    let s0 := rotr32 a 2 ^^^ rotr32 a 13 ^^^ rotr32 a 22
    let maj := (a &&& b) ^^^ (a &&& c) ^^^ (b &&& c)
    [(t1 + s0 + maj) % 2 ^ 32, a, b, c, (e + t1) % 2 ^ 32, f, g, i]
  | _ => h

/-- Compressing one block. -/
def shaBlock (h block : List Nat) : List Nat :=
  let out := (shaK.zip (shaSchedule block)).foldl (fun s p => shaRound s p.1 p.2) h
  (h.zip out).map (fun p => (p.1 + p.2) % 2 ^ 32)

/-- A big-endian number. -/
def beNat (bs : List Byte) : Nat := bs.foldl (fun a b => a * 256 + b.toNat) 0

/-- Compressing a number of blocks of 16 words. -/
def shaBlocks (h : List Nat) : Nat → List Byte → List Nat
  | 0, _ => h
  | n + 1, bs => shaBlocks (shaBlock h ((List.range 16).map (fun i => beNat ((bs.drop (4 * i)).take 4)))) n (bs.drop 64)

/-- SHA-256 of a message, as a 256-bit number. -/
def sha256 (msg : List Byte) : Nat :=
  let n := msg.length
  let pad := (119 - n % 64) % 64
  let bits := (List.range 8).map (fun i => BitVec.ofNat 8 (8 * n / 256 ^ (7 - i)))
  let all := msg ++ [0x80] ++ List.replicate pad 0 ++ bits
  (shaBlocks shaH0 (all.length / 64) all).foldl (fun a x => a * 2 ^ 32 + x) 0

/-! ### ECDSA on P-256 -/

/-- The field prime, the group order and the coefficient b. -/
def p256P : Nat := 2 ^ 256 - 2 ^ 224 + 2 ^ 192 + 2 ^ 96 - 1
def p256N : Nat := 0xFFFFFFFF00000000FFFFFFFFFFFFFFFFBCE6FAADA7179E84F3B9CAC2FC632551
def p256B : Nat := 0x5AC635D8AA3A93E7B3EBBD55769886BC651D06B0CC53B0F63BCE3C3E27D2604B

/-- The generator. -/
def p256G : Nat × Nat :=
  (0x6B17D1F2E12C4247F8BCE6E563A440F277037D812DEB33A0F4A13945D898C296,
   0x4FE342E2FE1A7F9B8EE7EB4A7C0F9E162BCE33576B315ECECBB6406837BF51F5)

/-- x to the power e modulo m; k is the number of bits of e. -/
def powMod (x m : Nat) : Nat → Nat → Nat
  | 0, _ => 1 % m
  | k + 1, e =>
    let h := powMod x m k (e / 2)
    if e % 2 = 1 then h * h % m * x % m else h * h % m

/-- The inverse modulo a prime. -/
def invMod (x m : Nat) : Nat := powMod (x % m) m 256 (m - 2)

/-- The sum of two points; none is the point at infinity. -/
def p256Add (a b : Option (Nat × Nat)) : Option (Nat × Nat) :=
  match a, b with
  | none, _ => b
  | _, none => a
  | some (x1, y1), some (x2, y2) =>
    if x1 = x2 ∧ (y1 + y2) % p256P = 0 then none
    else
      let l := if x1 = x2 then (3 * x1 * x1 + p256P - 3) % p256P * invMod (2 * y1) p256P % p256P
               else (y2 + p256P - y1) % p256P * invMod (x2 + p256P - x1) p256P % p256P
      let x3 := (l * l + 2 * p256P - x1 - x2) % p256P
      some (x3, (l * (x1 + p256P - x3) + p256P - y1) % p256P)

/-- The product of a point and a number of k bits. -/
def p256Mul (a : Option (Nat × Nat)) : Nat → Nat → Option (Nat × Nat)
  | 0, _ => none
  | k + 1, e =>
    let h := p256Mul a k (e / 2)
    let t := p256Add h h
    if e % 2 = 1 then p256Add t a else t

/-- Whether a point lies on the curve. -/
def p256On (x y : Nat) : Bool :=
  x < p256P && y < p256P && (y * y % p256P == (x * x % p256P * x + (p256P - 3) * x + p256B) % p256P)

/-- Whether (r, s) is a signature of a 256-bit hash under a public key. -/
def ecdsaVerify (hash : Nat) (key : Nat × Nat) (r s : Nat) : Bool :=
  if r = 0 ∨ p256N ≤ r ∨ s = 0 ∨ p256N ≤ s ∨ p256On key.1 key.2 = false then false
  else
    let w := invMod s p256N
    let u1 := hash * w % p256N
    let u2 := r * w % p256N
    match p256Add (p256Mul (some p256G) 256 u1) (p256Mul (some key) 256 u2) with
    | none => false
    | some (x, _) => x % p256N == r

end Sys2Proof.Machine
end

