-- ==== Sys2Proof/Machine/PowerCmds.lean ====
section
/-! DEFINITION. Power, resets, boot, watchdog and Dormant (chapter 4). -/

namespace Sys2Proof.Machine

/-- Changing the always-on sequencer and boot state. -/
def updPwr (f : Pwr → Pwr) (d : Dev) : Dev := { d with pwr := f d.pwr }

/-- Keys of the SYS and AON pages. -/
def kSys (page off : Nat) : Nat := rk T.SYS 0 page off
def kAon (page off : Nat) : Nat := rk T.AON 0 page off

/-! ### Fuse shadows (R594, R595) -/

/-- The two copies of a fuse row. -/
def fuseCopies (d : Dev) (r : Nat) : Nat × Nat := Map.get (fun _ => (0, 0)) d.fus.rows r

/-- Whether a row is reserved (R594). -/
def fuseReserved (r : Nat) : Bool := r = 15 || inR r 52 12 || 127 < r

/-- The value of a row: the OR of its copies. -/
def fuseRow (d : Dev) (r : Nat) : Nat := if fuseReserved r then 0 else (fuseCopies d r).1 ||| (fuseCopies d r).2

/-- A shadow of a row on FUS page 0. -/
def kFuse (r : Nat) : Nat := rk T.FUS 0 0 (0x100 + 4 * r)

/-- Reading a row into its shadow; copies that differ set FUSE_MISMATCH. -/
def readFuse (r : Nat) (d : Dev) : Dev :=
  let c := fuseCopies d r
  let d1 := wr (kFuse r) (fuseRow d r) d
  if c.1 ≠ c.2 && !fuseReserved r then flag0 T.FUS 0 0 r d1 else d1

/-- Reading every shadow; GOV page 1 mirrors row 9, and PCI_IDS the Vendor ID of row 10 (R68, R502, R595). -/
def readFuses (d : Dev) : Dev :=
  let d1 := each (d.fus.rows.map (·.1)) readFuse d
  wr (rk T.HST 0 0 0x040) (rdF d1 (kFuse 10) 15 0) (wr (rk T.GOV 0 1 0x05C) (rd d1 (kFuse 9)) d1)

/-! ### Cause records (R127, R128) -/

/-- The blocks whose STICKY words a cause record holds. -/
def causeBlocks : List Nat := [T.SYS, T.CLK, T.GOV, T.AON, T.DPT, T.FGS, T.TPK, T.INT]

/-- Writing a cause record; RESET_CAUSE and CAUSE_INDEX follow. -/
def writeCause (cause source detail : Nat) (d : Dev) : Dev :=
  let i := ledRd d 0x14 % 32
  let bs := leBytes 8 (tick d) ++ leBytes 1 cause ++ leBytes 1 (b2n (degraded d)) ++ leBytes 2 source ++ leBytes 4 detail
    ++ causeBlocks.flatMap (fun t => leBytes 4 (rd d (kSTICKY t 0 0))) ++ List.replicate 16 0
  let d1 := ledPut 0x14 ((i + 1) % 32) (ledBytes (0x100 + 64 * i) bs (ledPut 0 1 d))
  wr (kSys 0 0x050) (cause + detail % 2 ^ 24 * 256) (wr (kAon 1 0x04C) i d1)

/-- A second cause was absorbed: FLAGS[1] of the latest record (R114). -/
def absorbed (d : Dev) : Dev :=
  let o := 0x100 + 64 * rdF d (kAon 1 0x04C) 4 0 + 8
  ledPut o (ledRd d o ||| 0x200) d

/-- The SOURCE of a cause: the block that raised it, 0 when none (log entry 42). -/
def causeSource (cause : Nat) : Nat := match cause with
  | 0x05 => T.CTL * 256
  | 0x06 => T.DPT * 256
  | 0x07 => T.FGS * 256
  | 0x08 => T.TPK * 256
  | 0x0A => T.GOV * 256
  | _ => 0

/-- Counting in the ledger header, from what it holds: DESIGN CHOICE, log entry 147. -/
def ledCount (off : Nat) (d : Dev) : Dev := ledPut off (ledRd d off + 1) d

/-! ### Clearing (R110) -/

/-- Units named in the stabled map return to STABLED (R472). -/
def restable (d : Dev) : Dev :=
  let d1 := each targets (fun u d =>
    let on := if u < 64 then bit (rd64 d (rk T.INT 0 2 0x050)) u
      else rdB d (rk T.INT 0 2 0x058) (if u < 0x44 then 10 + (u - 0x41) else u - 0x48)
    if on then setUnitState (unitPage u).1 (unitPage u).2 .stabled d else d) d
  let d2 := each (List.range 64) (fun s d =>
    if bit (rd64 d (rk T.INT 0 2 0x060)) s then setUnitState T.YRD s .stabled d else d) d1
  let d3 := each (List.range d.part.ioDies) (fun i d =>
    if rdB d (rk T.INT 0 2 0x058) (16 + i) then setUnitState T.INK i .stabled d else d) d2
  let links := (List.range 128).filter (fun l =>
    if l < 64 then bit (rd64 d3 (rk T.INT 0 2 0x068)) l else bit (rd64 d3 (rk T.INT 0 2 0x070)) (l - 64))
  if links.isEmpty then d3
  else switchDone (startSwitch (computeShadow (each links (fun l d => updLink l (fun x => { x with state := .stabled }) d) d3)))

/-- A reset takes the drawbar ports to DOWN, from any state; writes not delivered set REMOTE_LOST (R524). -/
def portsFall (before : DrawbarState) (d : Dev) : Dev :=
  if d.part.ioDies ≠ 2 then d
  else
    let lost := before.ports.any (fun e => e.2.undelivered.any Packet.isWrite)
    let d1 := { d with dbr := { d.dbr with ports := [0, 1].map (fun p => (p, ({ state := .down, since := tick d } : DbPort))) } }
    doIf lost (flag0 T.DBR 0 6 0) (each [1, 2] (fun i => wrF (rk T.DBR 0 i 0x044) 3 0 PortState.down.code) d1)

/-- What a warm reset leaves of the port: an access that waited is gone with what it waited for, and STATUS says that it was
not done (log entry 164). -/
def tapKept (d : Dev) : Tap :=
  { d.tap with mem := if d.tap.mem % 4 = 1 then d.tap.mem + 1 else d.tap.mem, console := none, lines := [] }

/-- Everything outside the always-on island restarts. A warm reset keeps stack contents, local RAM, strongboxes and the
yard's cells until its sweep; a cold restart does not. -/
def logicReset (warm : Bool) (d : Dev) : Dev :=
  let boxes : Map Core := d.cores.cores.filterMap (fun (e : Nat × Core) =>
    if e.2.box = ({} : Strongbox) then none else some (e.1, { box := e.2.box }))
  let keep := fun (k : Nat) => keptWord k || k = kTick || k = kTick + 4
  let e : Dev := {
    part := d.part
    regs := d.regs.filter (fun (e : Nat × W32) => keep e.1)
    clk := if !warm then { aon := d.clk.aon } else { d.clk with unaligned := false, unled := false, ahead := false, apart := none, injectEnd := none }
    gov := { throttle := d.gov.throttle, hot := d.gov.hot, evaled := tick d }
    pwr := { d.pwr with boot := .idle, loaded := false, bootDone := false, bootFail := false, wakeReady := false, wdtTick := 0
                        hostSince := 0, jump := none, endpoint := false }
    yard := { cells := if warm then d.yard.cells else [] }
    stk := if warm then { lines := d.stk.lines, ctl := (List.range d.part.stacks).filterMap (fun p =>
        if (stackOf d p).mode = .training then none else some (p, ({ mode := .selfRefresh } : Stack))) } else {}
    integ := { retained := d.integ.retained, upsets := d.integ.upsets }
    cores := if warm then { cores := boxes, lram := d.cores.lram } else {}
    fus := d.fus
    tap := if warm then tapKept d else {}
    xsp := { d.xsp with op := none }
    hst := { refclk := d.hst.refclk }
    mgmt := d.mgmt
    hmi := d.hmi
    todo := [.restarted]
    ledger := d.ledger
    rsp := d.rsp
    fresh := d.fresh }
  restable (readFuses (portsFall d.dbr e))

/-- Blowing bits of a row's two copies. -/
def blow (r a b : Nat) (d : Dev) : Dev :=
  let c := fuseCopies d r
  { d with fus := { d.fus with rows := Map.set (fun _ => (0, 0)) d.fus.rows r (c.1 ||| a, c.2 ||| b) } }

/-- A reset during programming leaves a partly blown row: bits below a place that is not stated (R596). -/
def progCut (d : Dev) : Dev :=
  match d.fus.prog with
  | none => d
  | some (r, bits) =>
    let v := draw d
    let part := bits % 2 ^ (v.1.toNat % 33)
    let d1 := blow r part part v.2
    { d1 with fus := { d1.fus with prog := none } }

/-- What a power-on reset leaves of the button and hot-plug inputs: the pins, with the debounced level of each at its pin
and no debounce pending (R566). -/
def hmiPins (d : Dev) : HmiState :=
  { ins := (d.hmi.ins.filter (fun e => decide (8 ≤ e.1) && e.2.pin)).map (fun e => (e.1, { pin := true, level := true })) }

/-- LEVELS and RAW_LEVELS show them: POL is 0 after a power-on reset. -/
def showPins (d : Dev) : Dev :=
  let m := d.hmi.ins.foldl (fun m e => setBit m e.1) 0
  wr (rk T.HMI 0 0 0x048) m (wr (rk T.HMI 0 0 0x040) m d)

/-- The module right after a power-on reset (R101, R109, R110): only the part, the fuses, the flash contents and the
levels of the pins outlive it. -/
def powerOn (d : Dev) : Dev :=
  let e : Dev := { part := d.part, fus := { d.fus with prog := none }, xsp := { flash := d.xsp.flash }, rsp := d.rsp,
                   fresh := d.fresh, hmi := hmiPins d,
                   pwr := { resetLow := d.pwr.resetLow, testEn := d.pwr.testEn, perstLow := d.pwr.perstLow } }
  writeCause 0x01 0 0 (showPins (readFuses e))

/-! ### Warm reset (R109, R111, R114) -/

/-- RESET_N or TEST_EN holds the module in warm reset (R109, R608). -/
def heldInReset (d : Dev) : Bool := d.pwr.resetLow || d.pwr.testEn

/-- A warm reset: its record, and steps 1 to 3 of R111. One that is asked for during another is absorbed into it (R114). -/
def warmStart (cause detail : Nat) (d : Dev) : Dev :=
  if d.pwr.state ≠ .run then d
  else if d.pwr.warm ≠ .idle then absorbed d
  else
    let count := if d.pwr.bootDone then d.pwr.bootCount else d.pwr.bootCount + 1
    let d1 := logicReset true (writeCause cause (causeSource cause) detail d)
    let d2 := ledCount 0x08 (bump (kAon 1 0x040) d1)
    updPwr (fun p => { p with warm := .sweep, bootCount := count, warmed := true, cause := cause, detail := detail }) d2

/-- A forced warm reset of the integrity block: first a Fatal record on the retained ring (R466). A frame fault of CTL0 makes
the watchdog expire instead (R122). -/
def forcedReset (cause detail : Nat) (d : Dev) : Dev :=
  if cause = 0x05 then warmStart cause detail (flag0 T.SYS 0 4 0 d)
  else
    let d1 := flag0 T.SYS 0 5 cause d
    if d.pwr.state ≠ .run || d.pwr.warm ≠ .idle then warmStart cause detail d1
    else warmStart cause detail
      (cper { cls := 0x30, block := causeSource cause / 256, detail := detail } d1)

/-- WARM_RESET_SWEEP_DONE: every cell holds zero, and VOUT_COMMAND for 0.75 V goes out; a PMBus failure sets PMBUS_FAIL
(R111 steps 4 and 5). -/
def sweepEnded (status : Nat) (d : Dev) : Dev :=
  if d.pwr.warm ≠ .sweep then d
  else
    let d1 := updPwr (fun p => { p with warm := .vout }) { d with yard := { d.yard with cells := [] } }
    if status = 0 then updGov (fun g => { g with vcmd := 750 }) d1
    else flag0 T.GOV 0 0 status (updGov (fun g => { g with stopped := true, vcmd := 0 }) d1)

/-- The stacks leave self-refresh (R111 step 6). -/
def leaveSelfRefresh (d : Dev) : Dev :=
  if d.clk.lost then d
  else each (List.range d.part.stacks) (fun p d =>
    if (stackOf d p).mode = .selfRefresh then updStack p (fun c => { c with mode := .ready }) d else d) d

/-- WARM_RESET_VOUT_WAIT_EXPIRE: the stacks leave self-refresh, and CTL0 may start unless a pin holds the reset (R111
steps 6 and 7). -/
def voutWaited (d : Dev) : Dev :=
  if d.pwr.warm ≠ .vout then d
  else updPwr (fun p => { p with warm := if heldInReset d then .heldLow else .idle }) (leaveSelfRefresh d)

/-- SYS_CTRL acts only with its key (R111). -/
def sysKey (key : Nat) (f : Dev → Dev) (d : Dev) : Dev := if key = 0xA5 then f d else flag0 T.SYS 0 7 0 d

/-! ### The sequencer (R101 to R106) -/

/-- SEQ_UP begins: the first rail is enabled. -/
def seqUp (d : Dev) : Dev :=
  updPwr (fun p => { p with state := .seqUp, vrEn := 1, pg := 0, rail := 0, railWait := false, pinLatched := false,
                            wakeLatched := false, warm := .idle, warmed := false }) d

/-- A cold restart begins, with its cause record (R109, R128). -/
def coldStart (cause detail : Nat) (d : Dev) : Dev :=
  let d1 := updPwr (fun p => { p with cause := cause, detail := detail }) d
  seqUp (ledCount 0x0C (bump (kAon 1 0x044) (writeCause cause (causeSource cause) detail d1)))

/-- The rails go down in reverse order, and everything outside the always-on island is lost. -/
def seqDown (goal : PowerState) (long : Bool) (d : Dev) : Dev :=
  updPwr (fun p => { p with state := .seqDown, goal := goal, longRetry := long, vrEn := 0, warm := .idle }) (logicReset false d)

/-- PG_RISE: the rail that is being enabled is good. -/
def pgRise (k : Nat) (d : Dev) : Dev :=
  if !d.pwr.vrEn.testBit k then d
  else
    let up := tick d + 1000
    let d0 := if k = 7 then { d with mgmt := { d.mgmt with upAt := up } } else d
    let d1 := updPwr (fun p => { p with pg := setBit p.pg k }) d0
    if d.pwr.state = .seqUp && k = d.pwr.rail && !d.pwr.railWait then updPwr (fun p => { p with railWait := true }) d1 else d1

/-- RAIL_WAIT_EXPIRE: the next rail is enabled, or RUN is entered. -/
def railWaited (d : Dev) : Dev :=
  if d.pwr.state ≠ .seqUp || !d.pwr.railWait then d
  else if 7 ≤ d.pwr.rail then
    updPwr (fun p => { p with state := .run, railWait := false, retries := 0,
                              warm := if heldInReset d then .heldLow else .idle }) d
  else updPwr (fun p => { p with rail := p.rail + 1, railWait := false, vrEn := setBit p.vrEn (p.rail + 1) }) d

/-- A rail has failed to rise: PG_TIMEOUT with DETAIL the rail; three retries, then HOLD (R104). -/
def pgTimeoutOf (k : Nat) (d : Dev) : Dev :=
  let last := 3 ≤ d.pwr.retries
  seqDown (if last then .hold else .retry) true
    (updPwr (fun p => { p with retries := if last then 0 else p.retries + 1 }) (flag0 T.SYS 0 1 k d))

/-- PG_TIMEOUT. -/
def pgTimeout (d : Dev) : Dev :=
  if d.pwr.state = .seqUp && !d.pwr.railWait then pgTimeoutOf d.pwr.rail d else d

/-- POWER_FAULT: PG[k] has fallen for 10 µs: a cold restart in RUN; during SEQ_UP it counts as a PG_TIMEOUT (R105). -/
def powerFault (k : Nat) (d : Dev) : Dev :=
  if !d.pwr.pg.testBit k then d
  else
    let d1 := updPwr (fun p => { p with pg := clrBit p.pg k }) d
    match d.pwr.state with
    | .run =>
      let d2 := flag0 T.SYS 0 0 k d1
      let d3 := writeCause 0x09 0 k d2
      updPwr (fun p => { p with cause := 0x09, detail := k }) (seqDown .retry false d3)
    | .seqUp => pgTimeoutOf k d1
    | _ => d1

/-- A wake from DORMANT: its causes are recorded, and the cold restart begins (R125, R126). -/
def wake (d : Dev) : Dev := coldStart 0x0B (rd d (kAon 0 0x054)) d

/-- Wake sources set their bits together; WAKE_FIRST holds the lowest of those in the first event's AON cycle, and WAKE_TIME
counts from it (R125, R126). -/
def wakeBits (mask : Nat) (d : Dev) : Dev :=
  let now := rd64 d (kAon 0 0x040)
  let old := rd d (kAon 0 0x054)
  let same := bit old 31 && d.pwr.wakeRtc = some now
  let d1 := wr (kAon 0 0x054) (old ||| mask ||| 2 ^ 31) d
  if bit old 31 && !same then d1
  else wr (kAon 0 0x058) ((findBelow 19 (fun i => (if same then old ||| mask else mask).testBit i)).getD 0)
    (updPwr (fun p => { p with wakeRtc := some now }) d1)

/-- The wake that has just begun is of this AON cycle. -/
def wakesNow (d : Dev) : Bool := d.pwr.state = .seqUp && d.pwr.cause = 0x0B && d.pwr.wakeRtc = some (rd64 d (kAon 0 0x040))

/-- A further source in the AON cycle of the wake: its bit stands in WAKE_CAUSE and in the DETAIL of the cause record too
(R125, R128). -/
def wakeJoin (mask : Nat) (d : Dev) : Dev :=
  let d1 := wakeBits mask d
  let detail := rd d1 (kAon 0 0x054)
  let o := 0x100 + 64 * rdF d1 (kAon 1 0x04C) 4 0 + 12
  wr (kSys 0 0x050) (0x0B + detail % 2 ^ 24 * 256) (ledPut o detail (updPwr (fun p => { p with detail := detail }) d1))

/-- SEQ_DOWN_END: all PG are low or 20 ms have passed; what was latched acts now (R101, R114, R125). -/
def seqDownEnd (d : Dev) : Dev :=
  if d.pwr.state ≠ .seqDown then d
  else
    let d1 := updPwr (fun p => { p with state := p.goal, pg := 0 }) d
    let d2 := if d.pwr.goal = .dormant then ledCount 0x10 (bump (kAon 1 0x048) d1) else d1
    if d.pwr.pinLatched then coldStart 0x02 0 d2
    else if d.pwr.goal = .dormant && d.pwr.wakeLatched then wake d2
    else d2

/-- RETRY_EXPIRE. A retry after a power fault is the cold restart that its record announced. -/
def retryExpire (d : Dev) : Dev :=
  if d.pwr.state ≠ .retry then d
  else if d.pwr.longRetry then seqUp d
  else seqUp (ledCount 0x0C (bump (kAon 1 0x044) d))

/-- THERMAL_TRIP on a sensor that reads 110 °C or more (R97, R106). -/
def thermalTrip (k : Nat) (d : Dev) : Dev :=
  if d.pwr.state ≠ .run || !(tjSensors d.part).contains k || tjOf d k < 110 * 16 then d
  else seqDown .hold false (writeCause 0x0A (causeSource 0x0A) k (flag0 T.GOV 0 4 k d))

/-- VAON_LOSS: nothing is powered any more; a fuse row that was being blown stays partly blown (R596). -/
def vaonLoss (d0 : Dev) : Dev :=
  let d := progCut d0
  updPwr (fun p => { p with state := .off, vrEn := 0, pg := 0 })
    { part := d.part, fus := d.fus, xsp := { flash := d.xsp.flash }, rsp := d.rsp, fresh := d.fresh, hmi := hmiPins d,
      pwr := { resetLow := d.pwr.resetLow, testEn := d.pwr.testEn, perstLow := d.pwr.perstLow } }

/-- POWER_ON_RESET: VAON has been above 0.72 V for 10 ms, with AON present (R101). -/
def powerOnReset (d : Dev) : Dev := if d.pwr.state = .off then powerOn d else d

/-- STRAP_SAMPLE: 100 µs after PG[0] first rises, once for each power-on reset (R108). -/
def strapSample (straps : Nat) (d : Dev) : Dev :=
  if d.pwr.strapped || !d.pwr.pg.testBit 0 then d
  else wr (kSys 0 0x044) (straps % 128) (updPwr (fun p => { p with strapped := true, strapAt := rd64 d (kAon 0 0x040) }) d)

/-- REF_BOOT_TIMEOUT: REF still absent 20 ms after PG[3] is lost, and boot goes on from holdover (R107). -/
def refBootTimeout (d : Dev) : Dev :=
  if d.pwr.pg.testBit 3 then holdoverSwitch (refLost false false d) else d

/-! ### Reset pins (R109, R114) -/

/-- A pin starts to hold the module in warm reset. RESET_N is a wake event too, in DORMANT and during the entry (R125). In RETRY
it starts a cold restart of its own, with its record: DESIGN CHOICE, log entry 143. -/
def pinAssert (d : Dev) : Dev :=
  match d.pwr.state with
  | .run =>
    if d.pwr.warm = .idle then warmStart 0x02 0 d
    else if d.pwr.warm = .heldLow then d else absorbed d
  | .seqDown =>
    let d1 := updPwr (fun p => { p with pinLatched := true }) d
    if d.pwr.goal = .dormant then
      flag0 T.AON 0 1 0 (wakeBits 4 (updPwr (fun p => { p with wakeLatched := true }) d1)) else d1
  | .retry => coldStart 0x02 0 d
  | .dormant => wake (wakeBits 4 d)
  | .seqUp => if wakesNow d then wakeJoin 4 d else d
  | _ => d

/-- RESET_N_ASSERT. -/
def resetAssert (d : Dev) : Dev := pinAssert (updPwr (fun p => { p with resetLow := true }) d)

/-- Both pins are released: CTL0 may start (R109). -/
def pinRelease (d : Dev) : Dev :=
  if heldInReset d then d
  else if d.pwr.state = .run && d.pwr.warm = .heldLow then updPwr (fun p => { p with warm := .idle }) d else d

/-- RESET_N_RELEASE: in HOLD a cold restart begins. -/
def resetRelease (d : Dev) : Dev :=
  let d1 := updPwr (fun p => { p with resetLow := false }) d
  if d.pwr.state = .hold && d.pwr.resetLow then coldStart 0x02 0 d1 else pinRelease d1

/-- The level of TEST_EN (R608). -/
def testEnLevel (high : Bool) (d : Dev) : Dev :=
  let d1 := updPwr (fun p => { p with testEn := high }) d
  if high then (if d.pwr.state = .run then pinAssert d1 else d1) else pinRelease d1

/-! ### Boot (R116 to R121) -/

/-- BOOT_SRC. -/
def bootSrc (d : Dev) : Nat := rdF d (kSys 0 0x044) 6 5

/-- The code of BOOT_STATUS, and its count of warm resets, which stays at 3 where the counter goes on: DESIGN CHOICE, log
entry 145. -/
def bootCode (c : Nat) (d : Dev) : Dev := wrF (kSys 0 0x04C) 7 0 c (wrF (kSys 0 0x04C) 17 16 (min 3 d.pwr.bootCount) d)

/-- CTL0 local RAM as bytes from an offset: the cells it fills. -/
def putLram (core off : Nat) (bs : List Byte) (d : Dev) : Dev :=
  foldBelow (bs.length / 4) (fun i d => { d with cores := { d.cores with
    lram := Map.set (fun _ => goodCell 0) d.cores.lram (core * 65536 + off / 4 + i)
      (goodCell (BitVec.ofNat 32 (leNat ((bs.drop (4 * i)).take 4)))) } }) d

/-- Clearing CTL0 local RAM (R119). -/
def clearLram0 (d : Dev) : Dev :=
  { d with cores := { d.cores with lram := d.cores.lram.filter (fun (e : Nat × Cell39) => 65536 ≤ e.1) } }

/-- The region that the ROM commits for host boot (R117): linear, class W, 64 pages from page 0, OWNER 0, RD, WR and
HOST set, PRIVATE_ALWAYS. -/
def hostBootRegion : Desc := { w0 := 2 ^ 63 + 2 ^ 61 + 2 ^ 57 + 2 ^ 55 + 2 ^ 54 + 64 * 65536 }

/-- The ROM halts CTL0 with every source failed: BOOT_FAIL and ALERT_N (R120). -/
def bootHalt (c : Nat) (d : Dev) : Dev :=
  let d1 := bootCode c (updPwr (fun p => { p with boot := .halted, bootFail := true }) d)
  push .alert (flag0 T.SYS 0 2 c d1)

/-- Flash bytes from an offset. -/
def flashBytes (d : Dev) (off n : Nat) : List Byte :=
  (List.range n).map (fun i => BitVec.ofNat 8 (Map.get (fun _ => 0xFF) d.xsp.flash (off + i)))

/-- The checks of an image in order (R119): 0 when they all pass. `signed` is BOOT_SIGNED and `hash` KEY_HASH. -/
def imageCheck (hdr payload : List Byte) (signed : Bool) (hash : Nat) : Nat :=
  let u := fun off n => fieldAt hdr off n
  let len := u 0x08 4
  let load := u 0x0C 4
  let entry := u 0x10 4
  if u 0 4 ≠ 0x42344D56 || u 4 2 ≠ 1 then 0x10
  else if len % 64 ≠ 0 || 0x3E000 < len || load % 64 ≠ 0 || 0x3E000 < load + len || entry < load || load + len ≤ entry
    then 0x11
  else if sha256 payload ≠ beNat ((hdr.drop 0x20).take 32) then 0x12
  else if !signed then 0
  else if sha256 ((hdr.drop 0x40).take 64) ≠ hash then 0x13
  else
    let b := fun off => beNat ((hdr.drop off).take 32)
    if ecdsaVerify (sha256 (hdr.take 0x80)) (b 0x40, b 0x60) (b 0x80) (b 0xA0) then 0 else 0x14

/-- KEY_HASH: rows 1 to 8, row 1 bytes 0 to 3 first (R594). -/
def keyHash (d : Dev) : Nat := beNat ((List.range 8).flatMap (fun i => leBytes 4 (rd d (kFuse (1 + i)))))

/-- The ROM sets ENABLE of YRD station 0 and commits the region of host boot (R117). -/
def hostBootCommit (d : Dev) : Dev :=
  let d1 := wrB (kCTRL T.YRD 0) 0 true (setUnitState T.YRD 0 .running d)
  let d2 := each (List.range 64) (fun p d => updPage p (fun e => { e with valid := true, lastOwner := 0, desc := 0 }) d) d1
  updDesc 0 (fun _ => hostBootRegion) d2

/-- The region of host boot is released, which sweeps it (R117, R141). -/
def hostBootRelease (d : Dev) : Dev :=
  if (getDesc d 0).valid then startSweep 0 .release (updDesc 0 (fun x => { x with w0 := clrBit x.w0 63 }) d) else d

/-- The ROM commits the region, brings up the PCIe endpoint and waits for a host image (R116). -/
def hostWait (d : Dev) : Dev :=
  updPwr (fun p => { p with boot := .host, loaded := false, endpoint := true, hostSince := tick d }) (hostBootCommit d)

/-- Changing telemetry and the background services. -/
def updTlm (f : TlmState → TlmState) (d : Dev) : Dev := { d with tlm := f d.tlm }

/-- The probes at the start of the boot ROM begin (R491). -/
def probeNow (d : Dev) : Dev := updTlm (fun t => { t with probeAt := tick d, probing := true }) d

/-- The ROM sets XSP_CFG to a mode and a clock divider; the dummy cycles are not stated (R598, log entry 167). -/
def xspMode (mode divider : Nat) (d : Dev) : Dev :=
  let v := draw d
  wr (rk T.XSP 0 0 0x040) (v.1.toNat % 256 * 2 ^ 16 + mode * 256 + divider) v.2

/-- The debugger holds CTL0, and the ROM with it (R591). -/
def romHeld (d : Dev) : Bool := (getCore d 64).mode = .debugHalt

/-- BOOT_ROM_START (R116, R120): the first source, or a halt; the stacks start to train (R205), and the margin is probed
(R491). -/
def bootStart (d : Dev) : Dev :=
  if d.pwr.state ≠ .run || d.pwr.warm ≠ .idle || d.pwr.boot ≠ .idle || !(d.clk.locked || d.clk.holdover) || romHeld d then d
  else
    let d1 := xspMode 0 8 (probeNow (trainStacks d))
    if d.pwr.warmed && 3 ≤ d.pwr.bootCount then
      flag0 T.SYS 0 6 0 (bootCode 0x1E (updPwr (fun p => { p with boot := .halted }) d1))
    else match bootSrc d with
      | 1 => bootCode 0 (hostWait d1)
      | 3 => bootCode 0x1F (updPwr (fun p => { p with boot := .halted }) d1)
      | _ => bootCode 0 (updPwr (fun p => { p with boot := .primary }) d1)

/-- The attempt at a source has failed: the next one, or a halt (R116, R119, R120). -/
def bootFailed (c : Nat) (d : Dev) : Dev :=
  let d1 := bootCode c (clearLram0 d)
  match d.pwr.boot with
  | .primary => updPwr (fun p => { p with boot := .secondary }) d1
  | .secondary => if bootSrc d = 2 then hostWait d1 else bootHalt c d1
  | .host => bootHalt c (hostBootRelease d1)
  | _ => d1

/-- The ROM leaves for the image: BOOT_DONE, the blocks that it enables, the watchdog at 2,000 ms, and the jump (R119, R121,
R122, R644). From now on the endpoint may come up in every boot (log entry 137). DESIGN CHOICE (log entry 165): the image
starts at S level. A CTL0 that the debugger holds stays halted at the jump (R591). -/
def bootGo (code entry : Nat) (d : Dev) : Dev :=
  let on := fun (ty inst : Nat) (d : Dev) =>
    let e := wrB (kCTRL ty inst) 0 true d
    if unitState e ty inst = .off then setUnitState ty inst .running e else e
  let d3 := each ([(T.YRD, 0), (T.TPK, 0), (T.INT, 0), (T.FGS, 0), (T.CTL, 0)] ++ (List.range d.part.stacks).map (fun p => (T.STK, p)))
    (fun q d => on q.1 q.2 d) d
  let d4 := wr (kSys 0 0x05C) (2000 * 65536) (wr (kSys 0 0x054) 2000 d3)
  let d5 := updPwr (fun p => { p with
    boot := .done, bootDone := true, bootCount := 0, loaded := false, jump := none, endpoint := true }) d4
  let d6 := updCore 64 (fun c => { c.blank with
    mode := if c.mode = .debugHalt then .debugHalt else .running
    resident := true, super := true, pc := 0x10000000 + entry }) d5
  wakeCheck (bootCode code d6)

/-- What BOOT_DONE waits for: the sweep of the region of host boot (R117), and the probes of the margin (R491). -/
def bootWaits (d : Dev) : Bool := (getDesc d 0).sweeping || d.tlm.probing

/-- Every check has passed: the image stands in CTL0 local RAM, and the ROM jumps once nothing is waited for. DESIGN CHOICE
(log entry 166): the ROM's stack and scratch above 0x3_E000 leave those cells as they were before the boot (R118). -/
def bootJump (hdr payload : List Byte) (code : Nat) (d : Dev) : Dev :=
  let entry := fieldAt hdr 0x10 4
  let d1 := putLram 0 (fieldAt hdr 0x0C 4) payload d
  let d2 := if d.pwr.boot = .host then hostBootRelease d1 else d1
  if bootWaits d2 then
    updPwr (fun p => { p with boot := .leaving, jump := some (code, entry) }) d2
  else bootGo code entry d2

/-- What the ROM waited for is over, and it jumps to the image (R117, R491). -/
def bootReleased (d : Dev) : Dev := match d.pwr.jump with
  | some (code, entry) => if bootWaits d || romHeld d then d else bootGo code entry d
  | none => d

/-- BOOT_IMAGE_CHECK: the image of the present source is loaded and checked; `flash` is false when the flash did not
answer, which sets FLASH_TIMEOUT, and `octal` is the clock divider at which its JESD216 table allows 8D-8D-8D, if it does
(R116, R119, R598). DESIGN CHOICE (log entry 146): of a host image shorter than its header says, the bytes that are there
are checked. -/
def bootCheck (flash : Bool) (octal : Option Nat) (d0 : Dev) : Dev :=
  let d := match d0.pwr.boot, octal with
    | .primary, some n => if flash && !romHeld d0 then xspMode 2 (max n (if d0.clk.holdover then 4 else 1)) d0 else d0
    | _, _ => d0
  let signed := rdB d (kFuse 0) 1
  let judge := fun (hdr payload : List Byte) (code : Nat) =>
    let c := imageCheck hdr payload signed (keyHash d)
    if c = 0 then bootJump hdr payload code d else bootFailed c d
  let ofFlash := fun (base code : Nat) =>
    if !flash then bootFailed 0x15 (flag0 T.XSP 0 0 0 d)
    else
      let hdr := flashBytes d base 256
      judge hdr (flashBytes d (base + 256) (min 0x3E000 (fieldAt hdr 0x08 4))) code
  if romHeld d then d else match d.pwr.boot with
  | .primary => ofFlash 0 0x01
  | .secondary => ofFlash 0x800000 0x02
  | .host =>
    if !d.pwr.loaded then d
    else
      let len := rd d (kSys 0 0x060)
      let r := readLines 0 ((len + 63) / 64) d
      let img := (r.1.map (·.1)).getD [] |>.take len
      judge (img.take 256) ((img.drop 256).take (min 0x3E000 (fieldAt img 0x08 4))) 0x03
  | _ => d

/-- BOOT_HOST_DOORBELL is written: a length of 0 or above 0x3_E100 fails the attempt (R116, R117). -/
def hostDoorbell (v : Nat) (d : Dev) : Dev :=
  let d1 := wr (kSys 0 0x060) v d
  if d.pwr.boot ≠ .host then d1
  else if v = 0 || 0x3E100 < v then bootFailed 0x11 d1
  else updPwr (fun p => { p with loaded := true }) d1

/-- HOST_BOOT_TIMEOUT: no doorbell within 10 s, with BOOT_SRC 0b10 (R116). -/
def hostTimeout (d : Dev) : Dev :=
  if d.pwr.boot = .host && !d.pwr.loaded && !d.pwr.perstLow && bootSrc d = 2 && decide (d.pwr.hostSince + 10000000 ≤ tick d) then bootFailed 0x16 d
  else d

/-! ### Watchdog (R122) -/

/-- WDT_PERIOD. -/
def wdtPeriod (d : Dev) : Nat := rdF d (kSys 0 0x054) 15 0

/-- The countdown starts again. -/
def wdtReload (d : Dev) : Dev := wrF (kSys 0 0x05C) 31 16 (wdtPeriod d) d

/-- WDT_KICK. -/
def wdtKick (v : Nat) (d : Dev) : Dev := if v = 0x4B then wrB (kSys 0 0x05C) 0 false (wdtReload d) else d

/-- WDT_PERIOD is written: the countdown starts from it, and a warning given before is forgotten (log entry 49). -/
def wdtPeriodWrite (v : Nat) (d : Dev) : Dev :=
  wrB (kSys 0 0x05C) 0 false (wdtReload (wr (kSys 0 0x054) (v % 65536) d))

/-- WDT_EXPIRE: a warning that interrupts CTL0, then a warm reset. -/
def wdtExpire (d : Dev) : Dev :=
  if wdtPeriod d = 0 || rdF d (kSys 0 0x05C) 31 16 ≠ 0 || (getCore d 64).mode = .debugHalt then d
  else if !rdB d (kSys 0 0x05C) 0 then
    let d1 := wrB (kSys 0 0x05C) 0 true (flag0 T.SYS 0 3 0 d)
    wdtReload (updCore 64 (fun c => { c with ipie := setBit c.ipie 4 }) d1)
  else warmStart 0x04 0 (flag0 T.SYS 0 4 0 d)

/-! ### Dormant and wake (R123 to R126) -/

/-- DORMANT_REQ (R123): refused with no wake source enabled. -/
def dormantReq (d : Dev) : Dev :=
  if rd d (kAon 0 0x050) = 0 then flag0 T.AON 0 0 0 d
  else if d.pwr.state ≠ .run then d
  else seqDown .dormant false (updPwr (fun p => { p with wakeRtc := none }) (wr (kAon 0 0x058) 0 (wr (kAon 0 0x054) 0 d)))

/-- Enabled sources become active in one AON cycle (R125): in DORMANT they wake the module, during the entry they are
latched. -/
def wakeSources (mask : Nat) (d : Dev) : Dev :=
  let m := mask &&& rd d (kAon 0 0x050)
  if m = 0 then d
  else match d.pwr.state with
    | .dormant => wake (wakeBits m d)
    | .seqDown =>
      if d.pwr.goal = .dormant then
        flag0 T.AON 0 1 0 (wakeBits m (updPwr (fun p => { p with wakeLatched := true }) d))
      else d
    | .seqUp => if wakesNow d then wakeJoin m d else d
    | _ => d

/-- RTC_ALARM: RTC_NOW has reached RTC_ALARM, which is not 0 (R124, AON page 0). -/
def rtcAlarm (d : Dev) : Dev :=
  let a := rd64 d (kAon 0 0x048)
  if a ≠ 0 ∧ rd64 d (kAon 0 0x040) = a then wakeSources 1 d else d

end Sys2Proof.Machine
end

