-- ==== Sys2Proof/Machine/Intake.lean ====
section
/-! DEFINITION. The intakes (R340 to R363): camera ports, stream bindings, frames and their records, detach and re-plug,
and the frame-sync outputs. -/

namespace Sys2Proof.Machine

/-! ### Ports, streams and bindings -/

/-- A register of a port page, and of an intake's page 0. -/
def kPort (p off : Nat) : Nat := rk T.INK (p / 3) (1 + p % 3) off
def kInk (n off : Nat) : Nat := rk T.INK n 0 off

/-- A port. -/
def getPort (d : Dev) (p : Nat) : CamPort := Map.get (fun _ => ({} : CamPort)) d.ink.ports p

/-- Changing a port. -/
def updPort (p : Nat) (f : CamPort → CamPort) (d : Dev) : Dev :=
  { d with ink := { d.ink with ports := Map.upd (fun _ => ({} : CamPort)) d.ink.ports p f } }

/-- The stream of a binding. -/
def getStream (d : Dev) (p b : Nat) : CamStream := Map.get (fun _ => ({} : CamStream)) d.ink.streams (4 * p + b)

/-- Changing a stream. -/
def updStream (p b : Nat) (f : CamStream → CamStream) (d : Dev) : Dev :=
  { d with ink := { d.ink with streams := Map.upd (fun _ => ({} : CamStream)) d.ink.streams (4 * p + b) f } }

/-- Whether a port exists on the part (R4). -/
def portExists (d : Dev) (p : Nat) : Bool := decide (p < 3 * d.part.ioDies)

/-- Counting in PORT_CNT. -/
def portCount (p j : Nat) (d : Dev) : Dev := bump (kPort p (0x0C0 + 4 * j)) d

/-- A flag of a port page. -/
def portFlag (p n detail : Nat) (d : Dev) : Dev := flag T.INK (p / 3) (1 + p % 3) n detail d

/-- A field of BIND_CTRL. -/
def bindF (d : Dev) (p b hi lo : Nat) : Nat := rdF d (kBind p b 0) hi lo
def bindEn (d : Dev) (p b : Nat) : Bool := rdB d (kBind p b 0) 31
def bindCmp (d : Dev) (p b : Nat) : Nat := bindF d p b 30 27
def bindVc (d : Dev) (p b : Nat) : Nat := bindF d p b 26 23
def bindDt (d : Dev) (p b : Nat) : Nat := bindF d p b 22 17
def bindFmt (d : Dev) (p b : Nat) : Nat := bindF d p b 15 8
def bindLinear (d : Dev) (p b : Nat) : Bool := rdB d (kBind p b 0) 7
def bindFill (d : Dev) (p b : Nat) : Bool := rdB d (kBind p b 0) 6
def bufCount (d : Dev) (p b : Nat) : Nat := bindF d p b 5 4 + 1
def xStart (d : Dev) (p b : Nat) : Nat := rdF d (kBind p b 4) 31 16
/-- WIDTH and HEIGHT hold 1 to 4,096 (R645). -/
def camWidth (d : Dev) (p b : Nat) : Nat := clamp 1 4096 (rdF d (kBind p b 4) 15 0)
def yStart (d : Dev) (p b : Nat) : Nat := rdF d (kBind p b 8) 31 16
def camHeight (d : Dev) (p b : Nat) : Nat := clamp 1 4096 (rdF d (kBind p b 8) 15 0)
/-- PITCH and BUF_STRIDE are multiples of 4 and of 0x1000: the bits below count as zeros (log entry 155). -/
def camPitch (d : Dev) (p b : Nat) : Nat := rdF d (kBind p b 0x0C) 31 18 * 4
def camWb (d : Dev) (p b : Nat) : Nat := rdF d (kBind p b 0x0C) 7 0 + 1
def bufBase (d : Dev) (p b : Nat) : Nat := rd64 d (kBind p b 0x10) % 2 ^ 48
def bufStride (d : Dev) (p b : Nat) : Nat := rd d (kBind p b 0x18) / 0x1000 * 0x1000
def maskBase (d : Dev) (p b : Nat) : Nat := rd64 d (kBind p b 0x20) % 2 ^ 48
def hpEn (d : Dev) (p b : Nat) : Bool := rdB d (kBind p b 0x1C) 31
def hpSel (d : Dev) (p b : Nat) : Nat := rdF d (kBind p b 0x1C) 26 24
def clEn (d : Dev) (p b : Nat) : Bool := rdB d (kBind p b 0x1C) 23

/-- The debounced level of the hot-plug input of a binding (LEVELS of chapter 18). -/
def hpHigh (d : Dev) (p b : Nat) : Bool := rdB d (rk T.HMI 0 0 0x040) (16 + hpSel d p b)

/-- The address of a buffer. -/
def bufAddr (d : Dev) (p b f : Nat) : Nat := bufBase d p b + f * bufStride d p b

/-- The enabled bindings of a port on a virtual channel (R342). -/
def onChannel (d : Dev) (p vc : Nat) : List Nat := (List.range 4).filter (fun b => bindEn d p b && bindVc d p b = vc)

/-! ### Formats (R326, R343) -/

/-- Whether a binding may write an output format of a data type at a destination (R343). -/
def pairing (dt fmt : Nat) (linear : Bool) : Bool :=
  match dt with
  | 0x12 => linear && fmt = 0x0E
  | 0x1E => fmt = 0x05
  | 0x24 => fmt = 0x07
  | 0x2A => fmt = 0x00
  | 0x2B => fmt = 0x01 || (linear && fmt = 0x02)
  | 0x2C => fmt = 0x01 || (linear && fmt = 0x03)
  | 0x2D => fmt = 0x01 || (linear && fmt = 0x04)
  | 0x2E => fmt = 0x01
  | _ => false

/-- The supported long-packet data types (R340). -/
def supportedDt (dt : Nat) : Bool := [0x12, 0x1E, 0x24, 0x2A, 0x2B, 0x2C, 0x2D, 0x2E].contains dt

/-- Cutting a list into pieces of `n`. -/
def pieces {α : Type} (n : Nat) : Nat → List α → List (List α)
  | 0, _ => []
  | _, [] => []
  | k + 1, x :: xs => (x :: xs).take n :: pieces n k ((x :: xs).drop n)

/-- All the pieces of `n`. -/
def chunks {α : Type} (n : Nat) (xs : List α) : List (List α) := pieces n xs.length xs

/-- A byte of a group. -/
def byteAt (bs : List Byte) (i : Nat) : Nat := ((bs[i]?).getD 0).toNat

/-- The pixels of a CSI-2 payload (R326; the order of bytes of RAW16, RGB888 and YUV422 is PRESUMED from CSI-2, log entry
50): one number each; a YUV pixel is its Y sample and its half of the chroma pair. -/
def unpack (dt : Nat) (bs : List Byte) : List Nat :=
  match dt with
  | 0x2B => (chunks 5 bs).flatMap (fun g => if g.length < 5 then [] else
      (List.range 4).map (fun p => byteAt g p * 4 + fld (byteAt g 4) (2 * p + 1) (2 * p)))
  | 0x2C => (chunks 3 bs).flatMap (fun g => if g.length < 3 then [] else
      (List.range 2).map (fun p => byteAt g p * 16 + fld (byteAt g 2) (4 * p + 3) (4 * p)))
  | 0x2D => (chunks 7 bs).flatMap (fun g => if g.length < 7 then [] else
      (List.range 4).map (fun p => byteAt g p * 64 + fld (leNat (g.drop 4)) (6 * p + 5) (6 * p)))
  | 0x2E => (chunks 2 bs).flatMap (fun g => if g.length < 2 then [] else [byteAt g 0 * 256 + byteAt g 1])
  | 0x24 => (chunks 3 bs).flatMap (fun g => if g.length < 3 then [] else
      [byteAt g 2 + byteAt g 1 * 256 + byteAt g 0 * 65536])
  | 0x1E => (chunks 4 bs).flatMap (fun g => if g.length < 4 then [] else
      [byteAt g 1 + byteAt g 0 * 256, byteAt g 3 + byteAt g 2 * 256])
  | _ => bs.map BitVec.toNat

/-- The U and V samples of two pixels stored in one cell, U first (R326): where the stored row begins at an odd column, the
first pixel of a cell came with V and the second with U; a pixel without its second one has no U (log entry 155). -/
def pairChroma : List Nat → List Nat
  | a :: b :: rest => (a % 256 + b / 256 * 256) :: (b % 256 + a / 256 * 256) :: pairChroma rest
  | [a] => [a % 256]
  | [] => []

/-- The pixels of a stored row: those of the payload from `x0` on (R326, R345). -/
def cropped (dt x0 w : Nat) (payload : List Byte) : List Nat :=
  let px := ((unpack dt payload).drop x0).take w
  if dt = 0x1E && x0 % 2 = 1 then pairChroma px else px

/-- Pixels packed as CSI-2 packs them, in groups of four or two; the last group is filled with zeros (R326). -/
def packRaw (fmt : Nat) (xs : List Nat) : List Byte :=
  let at_ := fun (g : List Nat) p => (g[p]?).getD 0
  match fmt with
  | 0x02 => (chunks 4 xs).flatMap (fun g =>
      leBytes 4 (sumBelow 4 (fun p => at_ g p / 4 * 256 ^ p)) ++ leBytes 1 (sumBelow 4 (fun p => at_ g p % 4 * 4 ^ p)))
  | 0x03 => (chunks 2 xs).flatMap (fun g =>
      leBytes 2 (sumBelow 2 (fun p => at_ g p / 16 * 256 ^ p)) ++ leBytes 1 (sumBelow 2 (fun p => at_ g p % 16 * 16 ^ p)))
  | _ => (chunks 4 xs).flatMap (fun g =>
      leBytes 4 (sumBelow 4 (fun p => at_ g p / 64 * 256 ^ p)) ++ leBytes 3 (sumBelow 4 (fun p => at_ g p % 64 * 64 ^ p)))

/-- Bytes of one pixel of an unpacked output format. -/
def pixelBytes (fmt : Nat) : Nat := if fmt = 0x01 || fmt = 0x05 then 2 else if fmt = 0x07 then 4 else 1

/-- The bytes of a row of pixels, `none` where a pixel is invalid (R326, R327, R350). -/
def rowBytes (fmt : Nat) (xs : List (Option Nat)) : List Byte :=
  if fmt = 0x02 || fmt = 0x03 || fmt = 0x04 then packRaw fmt (xs.map (fun x => x.getD 0))
  else if fmt = 0x01 then xs.flatMap (fun x => leBytes 2 (match x with
    | some v => if v = 0xFFFF then 0xFFFE else v
    | none => 0xFFFF))
  else xs.flatMap (fun x => leBytes (pixelBytes fmt) (x.getD 0))

/-- Whether a format marks invalidity in a side mask (R325, R350). -/
def maskedFmt (fmt : Nat) : Bool := fmt = 0x00 || fmt = 0x05 || fmt = 0x07

/-- Elements of a pixel of a masked format: a YUYV8 pixel has two elements of 8 bits. -/
def elemsPer (fmt : Nat) : Nat := if fmt = 0x05 then 2 else 1

/-- The mask cells of a row (R335). -/
def maskRow (fmt : Nat) (xs : List (Option Nat)) : List Byte :=
  let bits := xs.flatMap (fun x => List.replicate (elemsPer fmt) x.isNone)
  (chunks 32 bits).flatMap (fun g => leBytes 4 (sumBelow 32 (fun i => b2n ((g[i]?).getD false) * 2 ^ i)))

/-! ### Writing rows (R344, R350) -/

/-- Pieces of a 2-D row: cells in blocks of 32, by address (R323, R131). -/
def rowPieces (base wb r : Nat) (bs : List Byte) : List (Nat × List Byte) :=
  let cs := chunks 128 bs
  (List.range cs.length).map (fun i => (base + (r / 32 * wb + i) * 0x1000 + r % 32 * 128, (cs[i]?).getD []))

/-- Pieces of a linear row. -/
def linePieces (base : Nat) (bs : List Byte) : List (Nat × List Byte) :=
  let head := 128 - base % 128
  let cs := bs.take head :: chunks 128 (bs.drop head)
  (List.range cs.length).map (fun i => (if i = 0 then base else base + head + 128 * (i - 1), (cs[i]?).getD []))

/-- Sending the pieces of a row as posted writes; the tag names frame and row. -/
def sendPieces (p cmp tag : Nat) (ps : List (Nat × List Byte)) (d : Dev) : Dev :=
  each (ps.filter (fun x => x.2 ≠ [])) (fun x d =>
    sendWrite { who := .intake (Fin.ofNat 2 (p / 3)), cmp := cmp, write := true, second := p % 3 = 1 } tag x.1 x.2 d) d

/-- The tag of a frame's row: row plus 1; 0 for its record and 65,535 for its row map. -/
def rowTag (serial row : Nat) : Nat := serial * 65536 + row

/-- The size of one side mask: the pages of WIDTH × HEIGHT in ROW layout (R350). -/
def maskBlocks (d : Dev) (p b : Nat) : Nat := (camWidth d p b * elemsPer (bindFmt d p b) + 1023) / 1024
def maskSize (d : Dev) (p b : Nat) : Nat := maskBlocks d p b * ((camHeight d p b + 31) / 32) * 0x1000

/-- Writing stored row `r` of a frame and its mask (R344, R350); packed lines start on a 4-byte boundary (R326). -/
def writeRow (p b r : Nat) (f : CamFrame) (xs : List (Option Nat)) (d : Dev) : Dev :=
  let fmt := bindFmt d p b
  let bs := rowBytes fmt xs
  let base := bufAddr d p b f.buf
  let line := if fmt = 0x02 || fmt = 0x03 || fmt = 0x04 then base / 4 * 4 else base
  let ps := if bindLinear d p b then linePieces (line + r * camPitch d p b) bs else rowPieces base (camWb d p b) r bs
  let ms := if maskedFmt fmt && maskBase d p b ≠ 0 then
      rowPieces (maskBase d p b + f.buf * maskSize d p b) (maskBlocks d p b) r (maskRow fmt xs) else []
  sendPieces p f.cmp (rowTag f.serial (r + 1)) (ps ++ ms) d

/-! ### Frames -/

/-- The intake of a port is out of service: its streams leave STABLED only through probation (R346). -/
def inkStabled (d : Dev) (p : Nat) : Bool :=
  unitState d T.INK (p / 3) = .stabled || unitState d T.INK (p / 3) = .probation

/-- The state of an enabled stream that waits for frames. -/
def readyState (d : Dev) (p : Nat) : CamState := if inkStabled d p then .stabled else .waitFs

/-- Changing the open frame of a stream. -/
def updOpen (p b : Nat) (g : CamFrame → CamFrame) (d : Dev) : Dev :=
  updStream p b (fun s => { s with frame := s.frame.map g }) d

/-- STATUS of a frame (R352). -/
def camStatus (f : CamFrame) : Nat :=
  if f.absent then 3
  else if f.early || bit f.reason 2 then 2
  else if f.good = 2 ^ f.height - 1 && f.reason = 0 && !f.hdrLoss then 0 else 1

/-- The open frame closes for a reason (R351 step 1): missing rows are filled, and the frame waits for its writes. -/
def closeCam (p b reason : Nat) (early : Bool) (d : Dev) : Dev :=
  match (getStream d p b).frame with
  | none => d
  | some f =>
    let short := !early && decide (popCount f.height f.came < f.height)
    let r := f.reason ||| reason ||| (if short then 4 else 0)
    let rows := (List.range f.height).filter (fun i => !f.written.testBit i)
    let fill := bindFill d p b && !rows.isEmpty
    let f2 := { f with reason := r, early := early, filled := fill }
    let d1 := updStream p b (fun s => { s with frame := none, closing := s.closing ++ [f2] }) d
    let d2 := if fill then
        each rows (fun i d => writeRow p b i f2 (List.replicate (camWidth d p b) none) d) d1 else d1
    if early || short then portFlag p 4 (b * 256 + r % 256) d2 else d2

/-- The 64 bytes of a frame record (R351). -/
def recordOf (p b : Nat) (s : CamStream) (f : CamFrame) (now : Nat) : List Byte :=
  let flags := b2n f.degr * 128 + b2n f.hdrLoss * 64 + b2n (decide (0 < f.lost)) * 32 + b2n f.filled * 16 + f.buf % 4 * 4
  leBytes 8 f.time ++ leBytes 8 now ++ leBytes 2 f.num ++ leBytes 1 (camStatus f) ++ leBytes 1 flags
    ++ leBytes 2 (popCount f.height f.came) ++ leBytes 2 (popCount f.height f.good) ++ leBytes 2 f.reason
    ++ leBytes 2 (min f.crc 65535) ++ leBytes 2 s.storms ++ leBytes 2 s.busies ++ leBytes 8 f.buffer ++ leBytes 4 f.lost
    ++ leBytes 1 (p * 16 + b) ++ [0, 0, 0] ++ leBytes 8 f.seq ++ leBytes 8 0

/-- Whether writes with some of the tags of a frame are still on their way. -/
def writing (d : Dev) (p serial : Nat) : Bool :=
  let mine := fun (w : Who) t => w = .intake (Fin.ofNat 2 (p / 3)) && t / 65536 = serial
  d.net.flights.any (fun f => mine f.who f.tag) || d.yard.held.any (fun h => mine h.acc.who h.tag)

/-- Writing the row map and the record of the first closing frame (R351 steps 3 and 4). -/
def writeRecordOf (p b : Nat) (f : CamFrame) (d : Dev) : Dev :=
  let s := getStream d p b
  let f2 := { f with status := camStatus f, recorded := true }
  let rows := if f.absent then [] else linePieces f.rowmap (leBytes 512 f.good)
  let rec_ := linePieces f.record (recordOf p b s f (tick d))
  let d1 := updStream p b (fun s => { s with closing := f2 :: s.closing.drop 1, storms := 0, busies := 0 }) d
  sendPieces p f.cmp (rowTag f.serial 0) rec_ (sendPieces p f.cmp (rowTag f.serial 0xFFFF) rows d1)

/-- FRAME_CLOSE_DRAINED (R351 steps 2 to 4). -/
def closeDrained (p b : Nat) (d : Dev) : Dev :=
  match (getStream d p b).closing with
  | f :: _ => if f.recorded || writing d p f.serial then d else writeRecordOf p b f d
  | [] => d

/-- CLOSE_TICK of a record that has been written takes the tick of step 5 (R351, log entry 107): the eight bytes alone, in
no further write of the frame. -/
def stampClose (p : Nat) (f : CamFrame) (d : Dev) : Dev :=
  let acc : Access := { who := .intake (Fin.ofNat 2 (p / 3)), cmp := f.cmp, write := true, second := p % 3 = 1 }
  let a := f.record + 8
  let bs := leBytes 8 (tick d)
  if f.torn then d
  else if a < yardEnd then
    (match yardCheck d acc a 8 with
     | .ok => (writeCells a bs d).2
     | _ => d)
  else match stackCheck d acc a 8 with
    | .ok => if stackHeld d acc a || stackCutOff d acc a 8 then d else (landStack a bs d).2
    | _ => d

/-- The intake of a port takes packets: it is in service, and its port is enabled. -/
def inkOn (d : Dev) (p : Nat) : Bool := enabled d T.INK (p / 3)

/-- FRAME_RECORD_DONE (R351 step 5): the event goes to the sequencer; an intake with ENABLE 0 sends none (R644). -/
def recordDone (p b : Nat) (d : Dev) : Dev :=
  match (getStream d p b).closing with
  | f :: fs =>
    if !f.recorded || writing d p f.serial then d
    else
      let e := if f.absent then FgsEvent.absent p b f.time f.record f.degr else FgsEvent.fin p b ⟨f.buf, f.serial⟩ f.status f.record
      let d1 := updStream p b (fun s => { s with closing := fs }) (stampClose p f d)
      if inkOn d p then { d1 with fgs := { d1.fgs with events := d1.fgs.events ++ [e] } } else d1
  | [] => d

/-- A failure notice of a row's write (R350): the row is invalid. -/
def rowLost (tag : Nat) (d : Dev) : Dev :=
  let serial := tag / 65536
  let row := tag % 65536
  let mark := fun (f : CamFrame) =>
    if f.serial ≠ serial ∨ row = 0xFFFF then f
    else if row = 0 then { f with torn := true }
    else { f with good := clrBit f.good (row - 1), lost := f.lost + 1, reason := f.reason ||| 0x200 }
  { d with ink := { d.ink with streams := d.ink.streams.map (fun (e : Nat × CamStream) =>
    (e.1, { e.2 with frame := e.2.frame.map mark, closing := e.2.closing.map mark })) } }

/-! ### Packets -/

/-- What a port does with a packet that it must drop whole or note, before the packet acts (R341, R344): `none` when the
packet is gone. Header 0 is good, 1 has one corrected bit, 2 is uncorrectable. -/
def header (p hdr : Nat) (d : Dev) : Option Dev :=
  if !portExists d p || !rdB d (kPort p 0x040) 31 then none
  else if !inkOn d p then some d
  else if hdr = 1 then some (portFlag p 0 0 (portCount p 1 d))
  else some d

/-- An uncorrectable header (R341). -/
def headerLost (p : Nat) (d : Dev) : Dev :=
  let d1 := portFlag p 1 0 (portCount p 2 d)
  each (List.range 4) (fun b d => updOpen p b (fun f => { f with hdrLoss := true }) d) d1

/-- A packet reaches a port with its header; `f` is what it does (R341, R644). -/
def packet (p hdr : Nat) (f : Dev → Dev) (d : Dev) : Dev :=
  match header p hdr d with
  | none => d
  | some d1 =>
    if !inkOn d1 p then portCount p 12 d1
    else
      let inj := (armed d1 T.INK (p / 3) (1 + p % 3) 1).isSome
      let d2 := if inj then fired T.INK (p / 3) (1 + p % 3) d1 else d1
      if hdr = 2 || inj then headerLost p d2 else f d2

/-- Data above 1.5 Gb/s per lane without a deskew sequence (R341); the lane rate is eight times the byte clock. -/
def deskewCheck (p mhz : Nat) (d : Dev) : Dev :=
  if decide (1500 < 8 * mhz) && !(getPort d p).deskewed then portFlag p 13 0 d else d

/-- Whether a byte clock lies in the rate window (R355). -/
def inWindow (d : Dev) (p mhz : Nat) : Bool :=
  decide (rdF d (kPort p 0x044) 15 0 ≤ mhz) && decide (mhz ≤ rdF d (kPort p 0x044) 31 16)

/-- The port enters RATE_FAULT: open frames close with RATE_CHANGE (R355). -/
def rateFault (p mhz : Nat) (d : Dev) : Dev :=
  if (getPort d p).fault then d
  else
    each (List.range 4) (fun b d =>
      if (getStream d p b).state = .inFrame then
        updStream p b (fun s => { s with state := .waitFs }) (closeCam p b 0x10 true d) else d)
      (portFlag p 11 mhz (updPort p (fun x => { x with fault := true }) d))

/-- The measured byte clock (R355). -/
def measured (p mhz : Nat) (d : Dev) : Dev := updPort p (fun x => { x with mhz := mhz }) d

/-- A frame start on one stream (R347, R348, R354, R356). -/
def frameStartOn (p num mhz b : Nat) (d : Dev) : Dev :=
  let d0 := if (getStream d p b).state = .inFrame then closeCam p b 2 true d else d
  let s := getStream d0 p b
  match s.state with
  | .off => d0
  | .waitFs | .inFrame | .dropping =>
    let minP := rd d0 (kBind p b 0x38)
    let storm := minP ≠ 0 && (match s.started with
      | some t => decide (tick d0 < t + minP)
      | none => false)
    let f := s.nextBuf % bufCount d0 p b
    if storm then
      portFlag p 5 b (portCount p 8 (updStream p b (fun s => { s with state := .dropping, storms := satAdd 16 s.storms 1 }) d0))
    else if s.busy.testBit f then
      portFlag p 6 b (portCount p 9 (updStream p b (fun s => { s with state := .dropping, busies := satAdd 16 s.busies 1 }) d0))
    else
      let fr : CamFrame := { serial := d0.ink.serials + 1, buf := f, time := tick d0, degr := degraded d0, num := num % 65536,
                             seq := s.accepted + 1, mhz := mhz, last := tick d0, cmp := bindCmp d0 p b,
                             height := camHeight d0 p b, buffer := bufAddr d0 p b f,
                             rowmap := rd64 d0 (kBind p b 0x28) % 2 ^ 48 + f * 512,
                             record := rd64 d0 (kBind p b 0x30) % 2 ^ 48 + f * 64 }
      let d1 := updStream p b (fun s => { s with
        state := .inFrame, busy := setBit s.busy f, nextBuf := (f + 1) % bufCount d0 p b, accepted := s.accepted + 1,
        started := some (tick d0), frame := some fr }) { d0 with ink := { d0.ink with serials := d0.ink.serials + 1 } }
      let d2 := portCount p 0 d1
      { d2 with fgs := { d2.fgs with events := d2.fgs.events ++ [.start p b ⟨f, fr.serial⟩ fr.time fr.num fr.degr] } }
  | _ => portCount p 12 d0

/-- A measurement of the byte clock while a stream's frame is open: more than 1 % away from that of its frame start, it
closes the frame with RATE_CHANGE (R355). -/
def rateMoved (p mhz b : Nat) (d : Dev) : Dev :=
  match (getStream d p b).state, (getStream d p b).frame with
  | .inFrame, some f =>
    if f.mhz < 100 * (max f.mhz mhz - min f.mhz mhz) then
      updStream p b (fun s => { s with state := .waitFs }) (closeCam p b 0x10 true d)
    else d
  | _, _ => d

/-- CSI_FRAME_START. -/
def csiFrameStart (p vc num hdr mhz : Nat) (d : Dev) : Dev :=
  packet p hdr (fun d =>
    let d1 := deskewCheck p mhz (measured p mhz d)
    if !inWindow d1 p mhz then rateFault p mhz d1
    else
      let others := (List.range 4).filter (fun b => !(onChannel d1 p vc).contains b)
      each (onChannel d1 p vc) (frameStartOn p num mhz) (each others (rateMoved p mhz)
        (updPort p (fun x => { x with fault := false }) d1))) d

/-- Packets of a stream in states 4 to 8 are discarded (R346). -/
def discards (s : CamStream) : Bool := decide (4 ≤ s.state.code)

/-- CSI_FRAME_END (R346, R351). -/
def csiFrameEnd (p vc hdr : Nat) (d : Dev) : Dev :=
  packet p hdr (fun d =>
    if (getPort d p).fault then d
    else each (onChannel d p vc) (fun b d =>
      let s := getStream d p b
      if discards s then portCount p 12 d
      else if s.state = .inFrame then updStream p b (fun s => { s with state := .waitFs }) (closeCam p b 0 false d)
      else if s.state = .dropping then updStream p b (fun s => { s with state := .waitFs }) d
      else d) d) d

/-- A line start on one stream (R345). -/
def lineStartOn (p line b : Nat) (d : Dev) : Dev :=
  let s := getStream d p b
  if discards s then portCount p 12 d
  else
    match s.frame with
    | none => d
    | some _ =>
      updOpen p b (fun f => { f with first := some (f.first.getD line), line := some line }) d

/-- CSI_LINE_START: the port measures its byte clock (R355). -/
def csiLineStart (p vc line hdr mhz : Nat) (d : Dev) : Dev :=
  packet p hdr (fun d =>
    let d1 := deskewCheck p mhz (measured p mhz d)
    if !inWindow d1 p mhz then rateFault p mhz d1
    else if (getPort d1 p).fault then d1
    else each (onChannel d1 p vc) (lineStartOn p line) (each (List.range 4) (rateMoved p mhz) d1)) d

/-- CSI_LINE_END: the line timeout starts again (R353). -/
def csiLineEnd (p vc hdr : Nat) (d : Dev) : Dev :=
  packet p hdr (fun d =>
    if (getPort d p).fault then d
    else each (onChannel d p vc) (fun b d =>
      if discards (getStream d p b) then portCount p 12 d else updOpen p b (fun f => { f with last := tick d }) d) d) d

/-- CSI_DESKEW (R341). -/
def csiDeskew (p : Nat) (d : Dev) : Dev :=
  if portExists d p && rdB d (kPort p 0x040) 31 then
    (if inkOn d p then updPort p (fun x => { x with deskewed := true }) d else portCount p 12 d)
  else d

/-- The line index of the packet that comes next in a frame (R345). -/
def lineIndex (d : Dev) (p : Nat) (f : CamFrame) : Nat :=
  if rdB d (kPort p 0x040) 27 then
    (match f.line, f.first with
     | some l, some z => (l + 65536 - z) % 65536
     | _, _ => f.packets)
  else f.packets

/-- A long packet of a stream in IN_FRAME (R344, R345, R350). -/
def lineOn (p b : Nat) (payload : List Byte) (crcOk parity full : Bool) (d : Dev) : Dev :=
  match (getStream d p b).frame with
  | none => d
  | some f =>
    let i := lineIndex d p f
    let bad := fun (g : CamFrame) => { g with packets := g.packets + 1, crc := g.crc + b2n (!crcOk) }
    let d1 := updOpen p b bad (doIf (!crcOk) (fun d => portFlag p 2 b (portCount p 3 d)) d)
    if i < yStart d p b || yStart d p b + f.height ≤ i then d1
    else
      let r := i - yStart d p b
      let w := camWidth d p b
      let px := cropped (bindDt d p b) (xStart d p b) w payload
      let reasons := (if !crcOk then 0x20 else 0) ||| (if px.length < w then 0x80 else 0) ||| (if full then 0x40 else 0) |||
        (if parity then 0x100 else 0)
      let row := if !crcOk || parity then List.replicate w none
                 else px.map some ++ List.replicate (w - px.length) none
      let d2 := updOpen p b (fun g => { g with
        came := setBit g.came r, reason := g.reason ||| reasons,
        written := if full then g.written else setBit g.written r,
        good := if reasons = 0 then setBit g.good r else clrBit g.good r }) d1
      let d3 := doIf parity (flag0 T.INK (p / 3) 1 p) d2
      if full then portFlag p 7 b (portCount p 6 d3) else writeRow p b r f row d3

/-- CSI_LONG_PACKET (R341, R346). -/
def csiLongPacket (p vc dt : Nat) (payload : List Byte) (crcOk : Bool) (hdr : Nat) (parity full : Bool) (d : Dev) : Dev :=
  packet p hdr (fun d =>
    let d0 := deskewCheck p (getPort d p).mhz (tcount 9 payload.length d)
    if (getPort d0 p).fault then d0
    else if !supportedDt dt then portFlag p 12 dt (portCount p 4 d0)
    else
      let inj := (armed d0 T.INK (p / 3) (1 + p % 3) 2).isSome
      let d1 := if inj then fired T.INK (p / 3) (1 + p % 3) d0 else d0
      match (onChannel d1 p vc).find? (fun b => bindDt d1 p b = dt) with
      | none => portCount p 5 d1
      | some b =>
        let s := getStream d1 p b
        if discards s then portCount p 12 d1
        else if s.state = .inFrame then lineOn p b payload (crcOk && !inj) parity full d1
        else d1) d

/-- LINE_TIMEOUT: no line end or frame end for LINE_TIMEOUT ticks (R353). -/
def lineTimeout (p b : Nat) (clockAbsent : Bool) (d : Dev) : Dev :=
  let s := getStream d p b
  match s.frame with
  | none => d
  | some f =>
    if s.state = .inFrame && decide (f.last + rdF d (kPort p 0x048) 15 0 ≤ tick d) then
      let d1 := updStream p b (fun s => { s with state := .waitFs }) (closeCam p b 1 true d)
      doIf clockAbsent (portFlag p 14 0) (portFlag p 3 b (portCount p 7 d1))
    else d

/-! ### Commands on streams -/

/-- Releasing a buffer (R348, R431). -/
def releaseBuf (p b f : Nat) (d : Dev) : Dev := updStream p b (fun s => { s with busy := clrBit s.busy f }) d

/-- STREAM_RELEASE: the RELEASE bits of STREAM_CMD (R348). -/
def streamRelease (p b mask : Nat) (d : Dev) : Dev :=
  each ((List.range 4).filter (fun f => mask.testBit f)) (releaseBuf p b) d

/-- The command list of a re-plug is asked for (R358). -/
def startReplug (p b : Nat) (d : Dev) : Dev :=
  push (.listAsk (rdF d (kBind p b 0x1C) 21 20) (rdF d (kBind p b 0x1C) 19 12) (.replug p b))
    (updStream p b (fun s => { s with state := .configuring }) d)

/-- STREAM_REPLUG: from CONFIG_FAIL the list starts again (R358). -/
def streamReplug (p b : Nat) (d : Dev) : Dev :=
  if (getStream d p b).state = .configFail then startReplug p b d else d

/-- The command list of a re-plug has ended (R358); a failure is flagged also where the binding has gone elsewhere in
between (R558). -/
def replugEnded (p b : Nat) (ok : Bool) (d : Dev) : Dev :=
  let d1 := if ok then d else portFlag p 10 b d
  if (getStream d1 p b).state ≠ .configuring then d1
  else if ok then portFlag p 9 b (updStream p b (fun s => { s with state := readyState d p }) d1)
  else updStream p b (fun s => { s with state := .configFail }) d1

/-- HOTPLUG_FALL: the input of a binding has fallen (R346, R357, R559): every stream that is not OFF enters DETACHED. -/
def hotplugFall (p b : Nat) (d : Dev) : Dev :=
  let s := getStream d p b
  if !hpEn d p b || hpHigh d p b then d
  else match s.state with
    | .off => d
    | .detached => d
    | _ =>
      let d1 := closeCam p b 8 true d
      let d2 := doIf (s.state = .configuring) (push (.listStop (.replug p b))) d1
      portFlag p 8 b (portCount p 11 (updStream p b (fun s => { s with state := .detached }) d2))

/-- HOTPLUG_RISE (R358). -/
def hotplugRise (p b : Nat) (d : Dev) : Dev :=
  if hpEn d p b && hpHigh d p b && (getStream d p b).state = .detached then
    updStream p b (fun s => { s with state := .replugWait, rose := tick d }) d
  else d

/-- REPLUG_HOLD_EXPIRE (R358); REPLUG_MS holds 1 to 4,000. A stream of an intake that is out of service is STABLED again
(log entry 56). -/
def replugExpire (p b : Nat) (d : Dev) : Dev :=
  let s := getStream d p b
  let ms := clamp 1 4000 (rdF d (kBind p b 0x1C) 11 0)
  if s.state = .replugWait && hpHigh d p b && decide (s.rose + 1000 * ms ≤ tick d) then
    (if clEn d p b && !inkStabled d p then startReplug p b d
     else updStream p b (fun s => { s with state := readyState d p }) d)
  else d

/-- The tick from which ABSENT_TICKS counts (R359): the later of the last accepted frame start and the last ABSENT event;
that of the setting of EN where there has been neither (log entry 56). -/
def absentSince (s : CamStream) : Nat := match s.started, s.absent with
  | none, none => s.since
  | a, b => max (a.getD 0) (b.getD 0)

/-- ABSENT_TICKS_EXPIRE (R359). -/
def absentExpire (p b : Nat) (d : Dev) : Dev :=
  let s := getStream d p b
  let n := rd d (kBind p b 0x3C)
  if n = 0 || s.state = .off || s.state = .inFrame || !inkOn d p || tick d < absentSince s + n then d
  else
    let f := s.nextBuf % bufCount d p b
    let fr : CamFrame := { serial := d.ink.serials + 1, buf := f, time := tick d, degr := degraded d, seq := s.accepted,
                           absent := true, cmp := bindCmp d p b,
                           record := rd64 d (kBind p b 0x30) % 2 ^ 48 + f * 64 }
    let d1 := updStream p b (fun s => { s with absent := some (tick d), closing := s.closing ++ [fr] })
      { d with ink := { d.ink with serials := d.ink.serials + 1 } }
    let d2 := portCount p 10 d1
    match s.closing with
    | [] => writeRecordOf p b fr d2
    | _ => d2

/-! ### Bindings and ports as registers (R342, R343) -/

/-- Whether EN may be set with the fields now in the registers (R342, R343). -/
def mayEnable (d : Dev) (p b : Nat) : Bool :=
  let base := bufBase d p b
  let lin := bindLinear d p b
  let twin := (List.range 4).any (fun c => c ≠ b && bindEn d p c && bindVc d p c = bindVc d p b && bindDt d p c = bindDt d p b)
  !twin && pairing (bindDt d p b) (bindFmt d p b) lin &&
    (decide (base < yardEnd) || (lin && decide (stackBase ≤ base) && decide (base < stackBase + 2 ^ 36)))

/-- A write of BIND_CTRL (R342, R343, R346). -/
def bindWrite (p b v : Nat) (d : Dev) : Dev :=
  let k := kBind p b 0
  if bindEn d p b then
    let d1 := if v % 2 ^ 31 = rd d k % 2 ^ 31 then d else portFlag p 15 b d
    if bit v 31 then (if v % 2 ^ 31 = rd d k % 2 ^ 31 then portFlag p 15 b d1 else d1)
    else
      let stop := doIf ((getStream d p b).state = .configuring) (push (.listStop (.replug p b))) (wrB k 31 false d1)
      updStream p b (fun s => { s with state := .off, frame := none }) stop
  else
    let d1 := wrB k 31 false (wr k v d)
    if !bit v 31 then d1
    else if !mayEnable d1 p b then portFlag p 15 b d1
    else
      updStream p b (fun s => { s with
        state := readyState d p, accepted := 0, since := tick d })
        (wrB k 31 true d1)

/-- A write of another field of a binding: only while EN is 0 (R342). -/
def bindField (p b k v : Nat) (d : Dev) : Dev := if bindEn d p b then portFlag p 15 b d else wr k v d

/-- A write of PORT_CTRL: enabling the port starts the search for a deskew sequence again (R341). -/
def portCtrl (p v : Nat) (d : Dev) : Dev :=
  let on := bit v 31 && !rdB d (kPort p 0x040) 31
  doIf on (updPort p (fun x => { x with deskewed := false })) (wr (kPort p 0x040) v d)

/-- PORT_STATUS. -/
def portStatus (d : Dev) (p : Nat) : Nat :=
  let x := getPort d p
  let st := if unitState d T.INK (p / 3) = .stabled then 3 else if !rdB d (kPort p 0x040) 31 then 0 else if x.fault then 2 else 1
  x.mhz % 65536 * 65536 + b2n x.deskewed * 16 + st

/-- STREAM_STATUS. -/
def streamStatus (d : Dev) (p b : Nat) : Nat :=
  let s := getStream d p b
  let rows := (s.frame.map (fun f => popCount f.height f.came)).getD 0
  s.state.code * 2 ^ 28 + s.busy % 16 * 2 ^ 24 + s.nextBuf % 4 * 2 ^ 20 + rows

/-! ### Unit reset and stabling (R360) -/

/-- The streams of an intake start again: open frames end without records. `st` is the state that each enabled stream
takes. -/
def restartStreams (n : Nat) (clearBusy : Bool) (st : Dev → Nat → Nat → CamState) (d : Dev) : Dev :=
  each ((List.range 3).flatMap (fun i => (List.range 4).map (fun b => (3 * n + i, b)))) (fun x d =>
    let s := getStream d x.1 x.2
    if s.state = .off then updStream x.1 x.2 (fun s => if clearBusy then { s with busy := 0, closing := [] } else s) d
    else
      let d1 := doIf (s.state = .configuring) (push (.listStop (.replug x.1 x.2))) d
      updStream x.1 x.2 (fun s => { s with
        state := st d x.1 x.2, frame := none, closing := [], busy := if clearBusy then 0 else s.busy }) d1) d

/-- WAIT_FS, or DETACHED when the input of the binding is low (R360). -/
def waitOrDetached (d : Dev) (p b : Nat) : CamState := if hpEn d p b && !hpHigh d p b then .detached else .waitFs

/-- A unit reset of an intake (R360). -/
def resetIntake (n : Nat) (d : Dev) : Dev :=
  let stabled := inkStabled d (3 * n)
  let d1 := restartStreams n true (fun d p b => if stabled then .stabled else waitOrDetached d p b) d
  each [0, 1, 2] (fun i d => updPort (3 * n + i) (fun x => { x with fault := false }) d) d1

/-- An intake is stabled (R346, R360), and returns to service. -/
def stableIntake (n : Nat) (d : Dev) : Dev := restartStreams n false (fun _ _ _ => .stabled) d
def admitIntake (n : Nat) (d : Dev) : Dev := restartStreams n false waitOrDetached d

/-! ### Frame-sync outputs (R361) -/

/-- The first due tick of an output: START, or the first START + k × PERIOD in the future when START has passed. -/
def fsyncFirst (start period now : Nat) : Nat :=
  if now ≤ start then start else start + ((now - start) / period + 1) * period

/-- A write of FSYNC_CTRL[k]: setting EN inserts the periodic entry, clearing it takes the entry out (R361). -/
def fsyncCtrl (k v : Nat) (d : Dev) : Dev :=
  let a := kInk 0 (0x100 + 0x20 * k)
  let was := rdB d a 31
  let d1 := wr a v { d with ink := { d.ink with fsyncSet := setBit d.ink.fsyncSet k } }
  if bit v 31 && !was then
    (if 256 ≤ ttPeriodic d1 then flag0 T.INK 0 2 k (wrB a 31 false d1)
     else
       let p := fsyncPeriod d1 0 k
       ttAdd (fsyncFirst (rd64 d1 (kInk 0 (0x108 + 0x20 * k))) p (tick d1)) p (.fsync 0 k) d1)
  else if !bit v 31 && was then ttDrop (fun e => e = .fsync 0 k) d1
  else d1

/-- An output's entry fires (R361): the output is active for WIDTH ticks, at most PERIOD − 1. -/
def fsyncPulse (k : Nat) (late : Bool) (d : Dev) : Dev :=
  let w := min (rdF d (kInk 0 (0x100 + 0x20 * k)) 15 0) (fsyncPeriod d 0 k - 1)
  let d1 := wr64 (kInk 0 (0x110 + 0x20 * k)) (tick d) d
  let d2 := { d1 with ink := { d1.ink with pulses := Map.set (fun _ => 0) d1.ink.pulses k (1 + tick d + w) } }
  doIf late (flag0 T.INK 0 3 k) d2

/-- FSYNC_WIDTH_EXPIRE (R361). -/
def fsyncEnd (k : Nat) (d : Dev) : Dev :=
  let e := Map.get (fun _ => 0) d.ink.pulses k
  if e ≠ 0 ∧ e - 1 ≤ tick d then { d with ink := { d.ink with pulses := Map.set (fun _ => 0) d.ink.pulses k 0 } } else d

/-- Whether an FSYNC output is at its high level: its pull-down holds it low until its FSYNC_CTRL is first written after a
reset; then it is driven, to its inactive level between pulses (R361, R604). -/
def fsyncLevel (d : Dev) (k : Nat) : Bool :=
  let active := decide (Map.get (fun _ => 0) d.ink.pulses k ≠ 0)
  d.pwr.state = .run && d.ink.fsyncSet.testBit k && active == rdB d (kInk 0 (0x100 + 0x20 * k)) 30

end Sys2Proof.Machine
end

