-- ==== Sys2Proof/Machine/Stabling.lean ====
section
/-! DEFINITION. Stabling and probation of units (R469 to R473), and the requests that CTRL makes (R54, R470, R471). -/

namespace Sys2Proof.Machine

/-- The unit code of a page with CAP[0] = 1 (R469): none for the other pages. -/
def unitCode (ty inst : Nat) : Option Nat :=
  if !(capBits ty inst).testBit 0 then none
  else if ty = T.CCH then some inst else if ty = T.CTL then some (0x40 + inst)
  else if ty = T.YRD then some (0x1000 + inst) else if ty = T.INK then some (0x3000 + inst)
  else if ty = T.STK then some (0x5000 + inst) else some (0x48 + 2 * (ty - 0x0D) + inst)

/-- A depot tally wait on a cluster that is stabled or unreachable completes its waybill ABORT_UNIT_LOST without running
it (R176, R191). -/
def loseTallies (s : Nat) (d : Dev) : Dev :=
  let named := fun (w : Watch) => w.tally / 1024 = s && (match w.waiter with
    | .waybill _ _ => true
    | _ => false)
  let d1 := { d with yard := { d.yard with watches := d.yard.watches.filter (fun w => !named w) }
                     dpt := { d.dpt with retries := d.dpt.retries.filter (fun w => !named w) } }
  each (slotsWhere d1 (fun _ x => x.state = .waiting && x.stage = .tally && x.image.tallyId / 1024 = s))
    (fun x d => endUnrun x.1 x.2.1 0x25 d) d1

/-- A core that waits in `twait` on a tally of a cluster that is stabled issues the instruction again (R176). -/
def reissueTwaits (s : Nat) (d : Dev) : Dev :=
  let mine := d.yard.watches.filterMap (fun w => match w.waiter with
    | .core h => if w.tally / 1024 = s then some h else none
    | _ => none)
  let d1 := { d with yard := { d.yard with watches := d.yard.watches.filter (fun w =>
    match w.waiter with
    | .core _ => w.tally / 1024 ≠ s
    | _ => true) } }
  each mine (fun h d => updCore h (fun c => match c.wait with
    | .tally _ => { c with mode := .running, wait := .none }
    | _ => c) d) d1

/-- A cluster is stabled (R176). -/
def stableCluster (s : Nat) (d : Dev) : Dev :=
  let d1 := mapBit (0x1000 + s) true (setUnitState T.YRD s .stabled d)
  let ks := (d1.yard.waiters.map (·.sem)).filter (fun k => k / 256 = s)
  let d2 := each ks resetWaiters (reissueTwaits s (loseTallies s d1))
  cper { cls := 0x20, block := T.YRD, inst := s, detail := 0x1000 + s } (releaseHeld d2)

/-- UNIT_STABLED goes to every compartment that has the unit assigned, and to compartment 0 (R469). -/
def announceStabled (u : Nat) (d : Dev) : Dev :=
  let ev := fun n => ({ kind := 0x09, unit := u, subject := n } : Event)
  each ((List.range 16).filter (fun n => n = 0 || assigned d n u)) (fun n d => post n (ev n) d) d

/-- A dispatch target is stabled (R161, R162, R280, R283, R288, R458, R473). -/
def stableTarget (u : Nat) (d : Dev) : Dev :=
  let p := unitPage u
  let d1 := if u < 0x44 then epochAdvance u d else d
  let d2 := loseRun u d1
  let d3 := each ((samplesWhere d2 (fun x => x.unit = u)).map (·.1)) cancelSample d2
  let d4 := if u < 0x44 then blankCore u d3 else d3
  let d5 := retire u (mapBit u true (setUnitState p.1 p.2 .stabled d4))
  announceStabled u (cper { cls := 0x20, block := p.1, inst := p.2, unit := u, detail := u } (epochBoundary d5))

/-- Stabling a unit that is in service (R469, R470). -/
def stableUnit (code : Nat) (d : Dev) : Dev :=
  let i := code % 0x1000
  let d1 := { d with integ := { d.integ with passed := d.integ.passed.filter (· ≠ code) } }
  match code / 0x1000 with
  | 0 => stableTarget i d1
  | 1 => stableCluster i d1
  | 2 => stableLink i d1
  | 3 =>
    cper { cls := 0x20, block := T.INK, inst := i, detail := code }
      (stableIntake i (mapBit code true (setUnitState T.INK i .stabled d1)))
  | 4 => stablePc (i / 32) (i % 32) d1
  | _ => stableStack i d1

/-- The STATE of a unit by its code (R51, R469). -/
def codeState (d : Dev) (code : Nat) : UnitState :=
  let i := code % 0x1000
  match code / 0x1000 with
  | 2 => (getLink d i).state
  | 4 => if (stackOf d (i / 32)).pcs.testBit (i % 32) then .stabled else .running
  | 5 => if (stackOf d i).mode = .stabled then .stabled else .running
  | _ => unitState d (codePage code).1 (codePage code).2

/-- STABLE_REQ (R470, R471). -/
def stableReq (code : Nat) (d : Dev) : Dev :=
  if code = 0x40 then decline code 0x04 d
  else if codeState d code = .stabled then decline code 0x05 d
  else stableUnit code d

/-- Automatic stabling takes the path of a STABLE_REQ (R468, R470, R471); a unit that is STABLED already stays so. -/
def stableAuto (code : Nat) (d : Dev) : Dev := if codeState d code = .stabled then d else stableReq code d

/-- A valid region covers a page of the cluster (R176). -/
def regionIn (d : Dev) (s : Nat) : Bool :=
  d.yard.descs.any (fun e => e.2.valid && e.2.pages.any (fun p => p / 768 = s))

/-- PROBATION_REQ (R470, R471): the test begins. -/
def probeReq (code : Nat) (d : Dev) : Dev :=
  if 4 ≤ code / 0x1000 then decline code 0x03 d
  else if codeState d code ≠ .stabled then decline code 0x01 d
  else if code / 0x1000 = 1 && regionIn d (code % 0x1000) then decline code 0x02 d
  else if code / 0x1000 = 2 then probeLink (code % 0x1000) d
  else
    let p := codePage code
    setUnitState p.1 p.2 .probation
      { d with integ := { d.integ with passed := d.integ.passed.filter (· ≠ code) } }

/-- PROBATION_DONE goes to compartment 0, with its CPER record (R470). -/
def probeReport (code : Nat) (pass : Bool) (d : Dev) : Dev :=
  let u := if code < 0x1000 then code else 0xFF
  let blk := if code / 0x1000 = 2 then (T.TPK, 0) else codePage code
  post 0 { kind := 0x34, subkind := b2n (!pass), unit := u, subject := 0, detail := code }
    (cper { cls := if pass then 0x21 else 0x22, block := blk.1, inst := blk.2, unit := u, detail := code } d)

/-- PROBATION_TEST_DONE (R470): a cluster comes back swept, with its semaphores reset (R176, R191); a failed unit is STABLED
again; a unit that passes comes back at the next dispatch epoch boundary, the next route-table epoch, or at once. The test of
a link that is about to be stabled is abandoned (R473). -/
def probeDone (code : Nat) (pass : Bool) (d : Dev) : Dev :=
  if codeState d code ≠ .probation || 4 ≤ code / 0x1000 || (code / 0x1000 = 2 && d.net.toStable.contains (code % 0x1000)) then d
  else if !pass then
    let p := codePage code
    let d1 := if code / 0x1000 = 2 then
                reroute (updLink (code % 0x1000) (fun k => { k with state := .stabled, passed := false }) d)
              else setUnitState p.1 p.2 .stabled d
    probeReport code false (flag0 T.INT 0 10 code
      { d1 with integ := { d1.integ with passed := d1.integ.passed.filter (· ≠ code) } })
  else
    match code / 0x1000 with
    | 0 => probeReport code true { d with integ := { d.integ with
        passed := if d.integ.passed.contains code then d.integ.passed else d.integ.passed ++ [code] } }
    | 2 => probeReport code true (reroute (updLink (code % 0x1000) (fun k => { k with passed := true }) d))
    | 1 => probeReport code true (releaseHeld (sweepCluster (code % 0x1000)
        (semClusterReset (code % 0x1000) (admitUnit code d))))
    | _ => probeReport code true (admitIntake (code % 0x1000) (admitUnit code d))

/-- EPOCH_SWITCH_DONE: the tables take over, and tally waits on clusters that the depot no longer reaches end (R189,
R191). -/
def epochSwitchDone (d : Dev) : Dev :=
  let d1 := switchDone d
  each ((List.range 64).filter (fun t => cutOff d1 (some 0) t && !cutOff d (some 0) t)) loseTallies d1

/-- CTRL requests by compartment 0 (R54, R470): STABLE_REQ and PROBATION_REQ of a page without a unit are declined, and
both in one write make the module ignore the whole write. -/
def unitRequest (ty inst : Nat) (stable : Bool) (d : Dev) : Dev :=
  match unitCode ty inst with
  | some c => if stable then stableReq c d else probeReq c d
  | none => decline (ty * 256 + inst) 0x06 d

end Sys2Proof.Machine
end

