-- ==== Sys2Proof/Machine/Drawbar.lean ====
section
/-! DEFINITION. The drawbar (R520 to R534): ports and their flits, team formation, accesses to other modules, tick
alignment, and members that leave. -/

namespace Sys2Proof.Machine

/-- Keys of the DBR pages: page 0 the team, pages 1 and 2 the ports. -/
def kB (page off : Nat) : Nat := rk T.DBR 0 page off

/-- Drawbar commands act only on two-I/O-die parts. -/
def teamPart (f : Dev → Dev) (d : Dev) : Dev := if d.part.ioDies = 2 then f d else d

/-- A port. -/
def dbPort (d : Dev) (p : Nat) : DbPort := Map.get (fun _ => ({} : DbPort)) d.dbr.ports p

/-- Changing a port. -/
def updDb (p : Nat) (f : DbPort → DbPort) (d : Dev) : Dev :=
  { d with dbr := { d.dbr with ports := Map.upd (fun _ => ({} : DbPort)) d.dbr.ports p f } }

/-- A port enters a state; PORT_STATUS shows it. -/
def setPort (p : Nat) (st : PortState) (d : Dev) : Dev :=
  wrF (kB (1 + p) 0x044) 3 0 st.code (updDb p (fun x => { x with state := st, since := tick d, retry := false }) d)

/-! ### The team -/

/-- SIZE, TOPOLOGY, and the TEAM_ID strap. -/
def teamSize (d : Dev) : Nat := rdF d (kB 0 0x040) 19 16
def topology (d : Dev) : Nat := rdF d (kB 0 0x040) 9 8
def teamId (d : Dev) : Nat := rdF d (kSys 0 0x044) 4 3

/-- FORMED and PRESENT. -/
def formed (d : Dev) : Bool := rdB d (kB 0 0x048) 31
def presentBits (d : Dev) : Nat := rdF d (kB 0 0x048) 19 16

/-- Whether a module is a present member of this module's team. -/
def isPresent (d : Dev) (m : Nat) : Bool := d.part.ioDies = 2 && formed d && (presentBits d).testBit m

/-- The result of the latest FORM or HELLO (R526). -/
def formResult (code : Nat) (d : Dev) : Dev :=
  let d1 := wrF (kB 0 0x048) 7 0 code d
  if code = 0 then d1 else flag0 T.DBR 0 3 code d1

/-- The neighbour that the topology names for a port: module and port (R520). -/
def wiredTo (d : Dev) (p : Nat) : Option (Nat × Nat) :=
  let me := teamId d
  let n := teamSize d
  if topology d = 0 then some (1 - me, 1 - p)
  else if topology d = 1 then
    (if p = 1 then (if me + 1 < n then some (me + 1, 0) else none) else if 0 < me then some (me - 1, 1) else none)
  else if p = 1 then some ((me + 1) % max 1 n, 0) else some ((me + n - 1) % max 1 n, 1)

/-- A port that packets can use. -/
def portUsable (d : Dev) (p : Nat) : Bool := (dbPort d p).state = .up || (dbPort d p).state = .retrain

/-- The modules from this one's neighbour at a port to a member, in the order in which the topology passes them; none where
no such way exists (R520). -/
def wayTo (d : Dev) (p m : Nat) : List Nat :=
  let me := teamId d
  let n := max 1 (teamSize d)
  if m = me then []
  else if topology d = 0 then [m]
  else if topology d = 1 then
    (if p = 1 then (if me < m then (List.range (m - me)).map (fun i => me + 1 + i) else [])
     else if m < me then (List.range (me - m)).map (fun i => m + i) else [])
  else if p = 1 then (List.range ((m + n - me) % n)).map (fun i => (me + 1 + i) % n)
  else (List.range ((me + n - m) % n)).map (fun i => (m + i) % n)

/-- Whether a member is reached through a port: the neighbour reports it and every module on the way (R521, R525). -/
def reaches (d : Dev) (p m : Nat) : Bool :=
  portUsable d p && !(wayTo d p m).isEmpty && (wayTo d p m).all (dbPort d p).present.testBit

/-- The port by which traffic of a source station leaves for a module (R521). -/
def exitPort (d : Dev) (m stn : Nat) : Option Nat :=
  let me := moduleNo d
  let n := teamSize d
  let first := if topology d = 0 then stn % 2
    else if topology d = 1 then (if me < m then 1 else 0)
    else if (m + n - me) % max 1 n ≤ (me + n - m) % max 1 n then 1 else 0
  if reaches d first m then some first
  else if topology d ≠ 1 && reaches d (1 - first) m then some (1 - first) else none

/-- The port by which a packet that came in at a port goes on: the other one where a way exists there (R521). -/
def forwardPort (d : Dev) (p m : Nat) : Option Nat :=
  if reaches d (1 - p) m then some (1 - p) else if reaches d p m then some p else none

/-! ### Sending (R522, R523) -/

/-- The class whose freed buffers a flit tells, and how many: the lowest class that has freed any. -/
def tellCredit (x : DbPort) : Nat × Nat :=
  match [0, 1, 2].find? (fun c => x.freed.getD c 0 ≠ 0) with
  | some c => (c, min 16383 (x.freed.getD c 0))
  | none => (0, 0)

/-- Buffers freed are told. -/
def creditTold (p : Nat) (c : Nat × Nat) (d : Dev) : Dev :=
  updDb p (fun x => { x with freed := x.freed.modify c.1 (· - c.2) }) d

/-- A flit leaves a port, with ACK_SEQ and CREDIT; INJECT flag 0 corrupts its CRC. -/
def flitOut (p type seq : Nat) (c : Nat × Nat) (body : List Byte) (d : Dev) : Dev :=
  let bad := (armed d T.DBR 0 0 0).any (fun v => v % 2 = p)
  let x := dbPort d p
  let d1 := bump64 (kB (1 + p) 0x058) (if bad then fired T.DBR 0 0 d else d)
  let bs := flitBytes type seq (if x.heard then some ((x.rxSeq + 4095) % 4096) else none) (c.1 * 2 ^ 14 + c.2) body
  answer (.drawbar (Fin.ofNat 2 p) 0) (.flit p (if bad then bs.modify 127 (· ^^^ 1) else bs)) d1

/-- Sending a sequenced flit; it stays in the replay buffer, with its CREDIT, until it is acknowledged. -/
def sendFlit (p : Nat) (b : FlitBody) (d : Dev) : Dev :=
  let x := dbPort d p
  let c := tellCredit x
  flitOut p b.type x.nextSeq c b.bytes (updDb p (fun x => { x with
    nextSeq := (x.nextSeq + 1) % 4096
    replay := x.replay ++ [⟨x.nextSeq, b, c⟩]
    ackAt := if x.replay.isEmpty then tick d else x.ackAt }) (creditTold p c d))

/-- Every unacknowledged flit is sent again, in order (R523). -/
def sendAgain (p : Nat) (d : Dev) : Dev :=
  each (dbPort d p).replay (fun f => flitOut p f.body.type f.seq f.credit f.body.bytes) d

/-- Sending a flit without SEQ: IDLE or NAK. -/
def sendPlain (p type : Nat) (d : Dev) : Dev :=
  let c := tellCredit (dbPort d p)
  flitOut p type 0 c [] (creditTold p c d)

/-- Whether a port can send one more sequenced flit now. -/
def canSend (x : DbPort) : Bool := x.state = .up && decide (x.replay.length < 256)

/-- A packet leaves in as many flits as its bytes take; it ends in the last of them. -/
def packetOut (p : Nat) (k : Packet) (d : Dev) : Dev :=
  let ps := piecesOf 112 k.bytes
  sendFlit p (.data [k] (ps.getLast?.getD [])) (each ps.dropLast (fun b => sendFlit p (.data [] b)) d)

/-- Packets that wait leave in order within their class while there is credit and room to replay them (R523). -/
def pumpPort (p : Nat) (d : Dev) : Dev :=
  let r := (dbPort d p).queue.foldl (fun (r : List Packet × List Nat × Dev) k =>
    let x := dbPort r.2.2 p
    if r.2.1.contains k.cls then (r.1 ++ [k], r.2.1, r.2.2)
    else if canSend x && decide (x.replay.length + (piecesOf 112 k.bytes).length ≤ 256)
        && decide (k.units ≤ x.credit.getD k.cls 0) then
      (r.1, r.2.1, packetOut p k
        (updDb p (fun x => { x with credit := x.credit.modify k.cls (fun c => c - k.units) }) r.2.2))
    else (r.1 ++ [k], r.2.1 ++ [k.cls], r.2.2)) ([], [], d)
  updDb p (fun x => { x with queue := r.1 }) r.2.2

/-- This module's requests among packets that the drawbar loses here: their initiators hear no answer (R524, R528). -/
def asksLost (ks : List Packet) (d : Dev) : Dev :=
  let own := fun (f : Far) => ks.any (fun k => k.xid = f.xid && k.src = moduleNo d && k.dst = f.dst && decide (k.cls ≠ 1))
  { d with dbr := { d.dbr with far := d.dbr.far.map (fun f => if own f then { f with lost := true } else f) } }

/-- A packet leaves by a port, or is dropped where no path exists. -/
def sendBy (port : Option Nat) (k : Packet) (d : Dev) : Dev :=
  match port with
  | some p => pumpPort p (updDb p (fun x => { x with queue := x.queue ++ [k] }) d)
  | none => asksLost [k] d

/-- A packet of this module leaves for another one. -/
def sendPacket (k : Packet) (d : Dev) : Dev := sendBy (exitPort d k.dst k.stn) k d

/-! ### Accesses to other modules (R45, R527, R528) -/

/-- The module that an address names. -/
def addrModule (a : Nat) : Nat := fld a 47 46

/-- Whether an address is local: its bits [47:46] equal the module's own number. -/
def isLocal (d : Dev) (a : Nat) : Bool := addrModule a = moduleNo d

/-- The QoS level of a requester's traffic: BACKGROUND for duplicates and background services, URGENT for a waybill of the
highest priority (R184, R282). -/
def qosOf (d : Dev) (who : Who) : Nat :=
  match runOf d who.unitId with
  | some r => if r.kind ≠ .original then 0 else if (getQueue d r.queue).prio = 3 then 2 else 1
  | none => if who = .integ || who = .bgs || who = .tlm then 0 else 1

/-- A request goes to another module; its answer comes back by its tag. -/
def farAsk (who : Who) (cmp wtag dst addr : Nat) (op : FarOp) (what : FarFor) (posted : Bool) (d : Dev) : Dev :=
  let x := d.dbr.nextXid
  let d1 := { d with dbr := { d.dbr with
    nextXid := x + 1
    far := d.dbr.far ++ [{ xid := x, who := who, posted := posted, cmp := cmp, dst := dst, addr := addr, what := what,
                           since := tick d }] } }
  sendPacket { src := moduleNo d, dst := dst, cmp := cmp, stn := (homeStation who).getD 0, qos := qosOf d who, xid := x, wtag := wtag,
               body := .ask op } d1

/-- A posted write to another module: it is outstanding until the target answers. -/
def farWrite (acc : Access) (tag serial a : Nat) (bs : List Byte) (d : Dev) : Dev :=
  let d1 := launch ⟨acc.who, acc.cmp, tag, serial, a, true, .pending, tick d, acc.stream⟩ d
  farAsk acc.who acc.cmp tag (addrModule a) a (.write a bs) .plain true d1

/-- A posted operation whose answer nobody waits for (R293). -/
def farPost (dst cmp : Nat) (op : FarOp) (d : Dev) : Dev :=
  sendPacket { src := moduleNo d, dst := dst, cmp := cmp, stn := 0, xid := 0, wtag := 0, body := .ask op } d

/-- Answering a request of another module. -/
def farReply (k : Packet) (r : FarReply) (d : Dev) : Dev :=
  if k.xid = 0 then d
  else sendPacket { src := moduleNo d, dst := k.src, cmp := k.cmp, stn := k.stn, qos := k.qos, xid := k.xid, wtag := k.wtag, body := .tell r } d

/-- The first pending posted write of a requester at an address takes a new state. -/
def markFlight (who : Who) (a : Nat) (st : FlightState) : List Flight → List Flight
  | [] => []
  | f :: fs =>
    if f.who = who && f.posted && f.addr = a && f.st = .pending then { f with st := st } :: fs
    else f :: markFlight who a st fs

/-- An answer of another module arrives (R527, R528). -/
def farTold (k : Packet) (r : FarReply) (d : Dev) : Dev :=
  match d.dbr.far.find? (fun f => f.xid = k.xid && f.dst = k.src) with
  | none => d
  | some f =>
    let d1 := { d with dbr := { d.dbr with far := d.dbr.far.filter (fun g => g.xid ≠ k.xid) } }
    if f.posted then
      let st := match r with
        | .fail e => FlightState.failed e
        | _ => .acked
      { d1 with net := { d1.net with flights := markFlight f.who f.addr st d1.net.flights } }
    else push (.back f.who f.addr f.what r) d1

/-- A packet arrives at a port: it is forwarded, or it is for this module (R521). -/
def takePacket (p : Nat) (k : Packet) (d : Dev) : Dev :=
  let d1 := updDb p (fun x => { x with freed := x.freed.modify k.cls (· + k.units) }) d
  if k.dst ≠ moduleNo d then sendBy (forwardPort d1 p k.dst) k d1
  else match k.body with
    | .tell r => farTold k r d1
    | .ask (.pressure q) => { d1 with gov := { d1.gov with team := Map.set (fun _ => none) d1.gov.team k.src q } }
    | .ask _ => push (.serve p k) d1

/-! ### Members (R525, R530) -/

/-- What a follower knows of module 0's tick changes; a quality that becomes UNALIGNED is flagged (R76, R77). -/
def setLead (f : Clk → Clk) (d : Dev) : Dev :=
  let d1 := { d with clk := f d.clk }
  if quality d1 = 3 && quality d ≠ 3 then flag0 T.CLK 0 5 0 d1 else d1

/-- This follower has no lead: module 0 is not LOCKED, gone, or not heard of yet. -/
def setUnled (b : Bool) (d : Dev) : Dev := setLead (fun c => { c with unled := b }) d

/-- An event of the drawbar. -/
def dbrEvent (kind sub detail n : Nat) (d : Dev) : Dev :=
  post n { kind := kind, subkind := sub, subject := n, detail := detail } d

/-- The members that an UP port reaches. -/
def seenBy (d : Dev) (p : Nat) : Nat :=
  if (dbPort d p).state = .up then ((List.range 4).filter (reaches d p)).foldl setBit 0 else 0

/-- Members that are reached and may be present: not those that have left (R525, R531). -/
def seenMembers (d : Dev) : Nat :=
  ((List.range 4).filter (fun m => !d.dbr.removed.testBit m && (seenBy d 0 ||| seenBy d 1).testBit m)).foldl setBit (2 ^ teamId d)

/-- PRESENT follows the ports: new members at once; a lost one is timed from now (R525, R530). -/
def refreshPresent (d : Dev) : Dev :=
  let seen := seenMembers d
  let old := presentBits d
  let d1 := wrF (kB 0 0x048) 19 16 ((old ||| seen) % 16) d
  let d2 := each [0, 1, 2, 3] (fun m d =>
    let g := Map.get (fun _ => 0) d.dbr.gone m
    let v := if seen.testBit m || !old.testBit m then 0 else if g = 0 then tick d + 1 else g
    { d with dbr := { d.dbr with gone := Map.set (fun _ => 0) d.dbr.gone m v } }) d1
  each ([0, 1, 2, 3].filter (fun m => seen.testBit m && !old.testBit m && m ≠ teamId d))
    (fun m d => if formed d then dbrEvent 0x43 0 m 0 (flag0 T.DBR 0 5 m d) else d) d2

/-- FORMED sets once this module and module 0 are both present (R525). -/
def tryForm (d : Dev) : Dev :=
  match d.dbr.forming with
  | none => d
  | some _ =>
    if presentBits d &&& 1 = 1 then
      let d1 := formResult 0 (wrF (kB 0 0x048) 25 24 (teamId d) (wrB (kB 0 0x048) 31 true d))
      let d2 := { d1 with dbr := { d1.dbr with forming := none, joining := teamId d ≠ 0 } }
      dbrEvent 0x43 0 (teamId d) 0 (if teamId d = 0 then d2 else setUnled true d2)
    else d

/-- Locks held by the units of a module that has left are reaped: the broadcast comes from INT at station 6, and a cluster
that it does not reach counts as finished (R162, R191). -/
def reapModule (m : Nat) (d : Dev) : Dev :=
  let held := d.yard.sems.filterMap (fun e =>
    if e.2.kind = .lock && e.2.state = .held && e.2.holderMod = m then some (e.1 / 256, e.2.holderId, e.2.holderEpoch) else none)
  each (held.filter (fun x => !cutOff d (homeStation .integ) x.1)) (fun x d => reapAt ⟨m, x.2.1, x.2.2, 0⟩ x.1 d) d

/-- A member is removed: what is outstanding towards it is lost, its waits and locks end, and compartments are told (R530);
it has left the team (R531). -/
def memberLost (m : Nat) (d : Dev) : Dev :=
  let lost := d.dbr.far.filter (fun f => f.dst = m && !f.posted)
  let there := fun (f : Flight) => d.dbr.far.any (fun x => x.posted && x.dst = m && x.who = f.who && x.addr = f.addr)
  let writes := fun (f : Flight) => if f.posted && f.st = .pending && there f then { f with st := .failed .remote } else f
  let d1 := wrF (kB 0 0x048) 19 16 (clrBit (presentBits d) m) { d with
    dbr := { d.dbr with far := d.dbr.far.filter (fun f => f.dst ≠ m), gone := Map.set (fun _ => 0) d.dbr.gone m 0
                        semAsks := d.dbr.semAsks.filter (fun x => x.2.src ≠ m)
                        removed := if formed d then setBit d.dbr.removed m else d.dbr.removed }
    yard := { d.yard with waiters := d.yard.waiters.filter (fun w => w.holder / 128 ≠ m + 1) }
    net := { d.net with flights := if formed d then d.net.flights.map writes else d.net.flights }
    gov := { d.gov with team := Map.set (fun _ => none) d.gov.team m none } }
  let d2 := each lost (fun f => push (.back f.who f.addr f.what (.data []))) d1
  let d3 := flag0 T.DBR 0 4 m (reapModule m d2)
  let d4 := each ((List.range 16).filter (fun n => n = 0 || cmpActive d3 n)) (dbrEvent 0x42 0 m) d3
  if m = 0 && teamId d ≠ 0 then setUnled true d4 else d4

/-- MEMBER_TIMEOUT: a member with no UP path for MEMBER_TIMEOUT ticks is removed (R530). -/
def memberTimeout (m : Nat) (d : Dev) : Dev :=
  let g := Map.get (fun _ => 0) d.dbr.gone m
  if g = 0 || tick d < g - 1 + rd d (kB 0 0x050) then d else memberLost m d

/-! ### Port states (R523, R524) -/

/-- The PRESENT that a port's HELLO tells. DESIGN CHOICE (log entry 160): the members that the module reaches without the
port's neighbour, so that no two neighbours keep alive what only the other one reports. -/
def toTell (p : Nat) (d : Dev) : Nat := 2 ^ teamId d ||| seenBy d (1 - p)

/-- This module's HELLO leaves a port (R522). -/
def sendHello (p : Nat) (d : Dev) : Dev :=
  let n := toTell p d
  sendFlit p (.hello d.part.stacks (teamId d) (teamSize d) (topology d) p n (tick d)) (updDb p (fun x => { x with told := n }) d)

/-- Neighbours are told what this module reaches, where it is no longer what they were told last (R522, R525). -/
def tellNeighbours (d : Dev) : Dev :=
  each [0, 1] (fun p d => if canSend (dbPort d p) && (dbPort d p).told ≠ toTell p d then sendHello p d else d) d

/-- A port goes DOWN: what it had not delivered is lost, and writes among it set REMOTE_LOST (R524). -/
def portDown (p : Nat) (d : Dev) : Dev :=
  let ks := (dbPort d p).undelivered
  let d1 := setPort p .down (updDb p (fun _ => {}) (asksLost ks d))
  tellNeighbours (refreshPresent (dbrEvent 0x41 0 p 0 (doIf (ks.any Packet.isWrite) (flag0 T.DBR 0 6 0) d1)))

/-- A port starts to train, with new sequence numbers. -/
def startTraining (p : Nat) (d : Dev) : Dev := setPort p .training (updDb p (fun _ => {}) d)

/-- PORT_EN is written (R524). -/
def portEnable (p : Nat) (on : Bool) (d : Dev) : Dev :=
  let d1 := wrB (kB (1 + p) 0x040) 0 on d
  if on then (if (dbPort d p).state = .disabled then startTraining p d1 else d1)
  else if (dbPort d p).state = .disabled then d1
  else setPort p .disabled (portDown p d1)

/-- PORT_LOCKED: the lanes are locked and aligned within 5 ms, and HELLO is sent. Without REF the drawbar is offline
(R78). -/
def portLocked (p : Nat) (d : Dev) : Dev :=
  let x := dbPort d p
  if x.state = .training && d.clk.locked && !x.retry && decide (tick d ≤ x.since + 5000) then
    sendHello p (updDb p (fun x => { x with freed := [0, 1, 2].map Config.drawbarBuffers }) (setPort p .hello d))
  else d

/-- PORT_TRAINING_TIMEOUT: 5 ms without lock; training is tried again 100 ms later. -/
def trainingTimeout (p : Nat) (d : Dev) : Dev :=
  let x := dbPort d p
  let wait := if x.retry then 100000 else 5000
  if x.state = .training && decide (x.since + wait ≤ tick d) then
    updDb p (fun x => { x with since := tick d, retry := !x.retry }) d
  else d

/-- PORT_DOWN_EXPIRE: 100 ms in DOWN. -/
def downExpire (p : Nat) (d : Dev) : Dev :=
  if (dbPort d p).state = .down && decide ((dbPort d p).since + 100000 ≤ tick d) then startTraining p d else d

/-- REF is lost: every port goes DOWN, from any state (R78, R524). -/
def drawbarRefLost (d : Dev) : Dev :=
  teamPart (each [0, 1] (fun p d => if (dbPort d p).state = .down then d else portDown p d)) d

/-- A port retrains, keeping its replay buffer and sequence numbers; after four in a row without an acknowledgement it
goes DOWN. -/
def startRetrain (p : Nat) (d : Dev) : Dev :=
  if 4 ≤ (dbPort d p).retrains then portDown p (flag0 T.DBR 0 2 p d)
  else
    let d1 := flag0 T.DBR 0 1 p (bump (kB (1 + p) 0x050)
      (setPort p .retrain (updDb p (fun x => { x with retrains := x.retrains + 1, replays := 0 }) d)))
    dbrEvent 0x41 2 p 0 d1

/-- Every unacknowledged flit is sent again, in order; after 8 times without progress an UP port retrains. -/
def replayFlits (p : Nat) (d : Dev) : Dev :=
  let x := dbPort d p
  if (x.state ≠ .up && x.state ≠ .hello) || x.replay.isEmpty then d
  else if 8 ≤ x.replays && x.state = .up then startRetrain p d
  else
    bump (kB (1 + p) 0x04C) (updDb p (fun x => { x with replays := x.replays + 1, ackAt := tick d }) (sendAgain p d))

/-- ACK_SEQ: flits up to it are delivered. -/
def acked (p : Nat) (ack : Option (Fin 4096)) (d : Dev) : Dev :=
  match ack with
  | none => d
  | some s =>
    let x := dbPort d p
    if x.replay.any (fun f => f.seq = s.val) then
      updDb p (fun x => { x with
        replay := (x.replay.dropWhile (fun f => f.seq ≠ s.val)).drop 1, replays := 0, retrains := 0, ackAt := tick d }) d
    else d

/-- CREDIT of a received flit. -/
def credited (p : Nat) (h : FlitHdr) (d : Dev) : Dev :=
  updDb p (fun x => { x with credit := x.credit.modify h.cls.val (· + h.credit.val) }) d

/-- A NAK leaves, with the last SEQ received in order. -/
def sendNak (p : Nat) (d : Dev) : Dev := sendPlain p 7 d

/-- An IDLE flit acknowledges what has arrived and tells the buffers freed, where no flit with SEQ has left since. -/
def idleOut (p before : Nat) (d : Dev) : Dev :=
  let x := dbPort d p
  if (x.state = .up || x.state = .hello) && x.nextSeq = before then sendPlain p 2 d else d

/-- A sequenced flit arrives: in order and whole it is accepted, else it is discarded and a NAK is sent (R523). -/
def flitIn (p : Nat) (h : FlitHdr) (f : Dev → Dev) (d : Dev) : Dev :=
  let x := dbPort d p
  if x.state ≠ .hello && x.state ≠ .up then d
  else
    let d1 := bump64 (kB (1 + p) 0x060) d
    if !h.crcOk || h.seq.val ≠ x.rxSeq then sendNak p (flag0 T.DBR 0 0 p (bump (kB (1 + p) 0x048) d1))
    else
      let d2 := credited p h (acked p h.ack (updDb p (fun x => { x with rxSeq := (x.rxSeq + 1) % 4096, heard := true }) d1))
      idleOut p x.nextSeq (pumpPort p (f d2))

/-- A flit without SEQ arrives. -/
def plainFlit (p : Nat) (h : FlitHdr) (f : Dev → Dev) (d : Dev) : Dev :=
  let x := dbPort d p
  if x.state ≠ .hello && x.state ≠ .up then d
  else
    let d1 := bump64 (kB (1 + p) 0x060) d
    if !h.crcOk then sendNak p (flag0 T.DBR 0 0 p (bump (kB (1 + p) 0x048) d1))
    else pumpPort p (f (credited p h (acked p h.ack d1)))

/-- DATA_FLIT: the packets that end in the flit. -/
def dataFlit (p : Nat) (h : FlitHdr) (ks : List Packet) (d : Dev) : Dev :=
  flitIn p h (fun d => if (dbPort d p).state = .up then each ks (takePacket p) d else d) d

/-- NAK. -/
def nakFlit (p : Nat) (h : FlitHdr) (d : Dev) : Dev := plainFlit p h (replayFlits p) d

/-- IDLE_FLIT. -/
def idleFlit (p : Nat) (h : FlitHdr) (d : Dev) : Dev := plainFlit p h id d

/-- REPLAY_TIMEOUT: 2 µs with no acknowledgement. -/
def replayTimeout (p : Nat) (d : Dev) : Dev :=
  if (dbPort d p).ackAt + 2 ≤ tick d then replayFlits p d else d

/-- RETRAIN_DONE: the link is acknowledged again, or the retraining has failed (R523, R524). -/
def retrainDone (p : Nat) (ok : Bool) (d : Dev) : Dev :=
  if (dbPort d p).state ≠ .retrain then d
  else if !ok then startRetrain p d
  else
    let d1 := dbrEvent 0x41 1 p 0 (setPort p .up d)
    tellNeighbours (refreshPresent (pumpPort p (sendAgain p (updDb p (fun x => { x with ackAt := tick d }) d1))))

/-- The code of a HELLO that fails its checks, in ascending code order (R526). -/
def helloCheck (d : Dev) (p id size topo port : Nat) : Nat :=
  if size ≠ teamSize d || topo ≠ topology d then 2
  else if id = teamId d then 3
  else if size ≤ id || teamSize d ≤ teamId d then 4
  else if wiredTo d p ≠ some (id, port) then 5
  else 0

/-- HELLO (R526): accepted, the port is UP; else it is DOWN. In UP it brings the neighbour's PRESENT. Members of `anew` have
written FORM since they left (R531, log entry 177). -/
def helloFlit (p : Nat) (h : FlitHdr) (id size topo port present anew : Nat) (d : Dev) : Dev :=
  flitIn p h (fun d =>
    let c := helloCheck d p id size topo port
    if c ≠ 0 then portDown p (formResult c d)
    else
      let fresh := (dbPort d p).state = .hello
      let d1 := wrF (kB (1 + p) 0x044) 12 12 port (wrF (kB (1 + p) 0x044) 9 8 id
        (updDb p (fun x => { x with present := present % 16 ||| 2 ^ id }) d))
      let d2 := if fresh then dbrEvent 0x41 1 p 0 (setPort p .up d1) else d1
      let d3 := { d2 with dbr := { d2.dbr with removed := d2.dbr.removed ^^^ (d2.dbr.removed &&& anew) } }
      tryForm (tellNeighbours (refreshPresent d3))) d

/-! ### FORM (R525, R526) -/

/-- TEAM_CMD FORM: both ports are enabled, and every member that is reached counts again (R525, R531). -/
def formCmd (d : Dev) : Dev :=
  if (List.range 16).any (fun n => n ≠ 0 && (getCmp d n).mode ≠ .free) then formResult 1 d
  else
    let d1 := { d with dbr := { d.dbr with forming := some (tick d), removed := 0 } }
    let d2 := each [0, 1] (fun p => portEnable p true) d1
    tryForm (refreshPresent d2)

/-- FORM_NO_PATH: module 0 has not become present within 1 s. -/
def formNoPath (d : Dev) : Dev :=
  match d.dbr.forming with
  | some t => if t + 1000000 ≤ tick d then formResult 7 { d with dbr := { d.dbr with forming := none } } else d
  | none => d

/-! ### Link delay and tick alignment (R77, R529) -/

/-- A count of REF cycles: the tick, and the cycle within it. -/
def refCount (d : Dev) (cycle : Nat) : Nat := tick d * 200 + cycle

/-- ECHO: every 1 s an UP port sends its cookie. -/
def echoSend (p cycle : Nat) (d : Dev) : Dev :=
  let x := dbPort d p
  if !canSend x || tick d < x.echoAt then d
  else
    let c := refCount d cycle
    sendFlit p (.echo c) (updDb p (fun x => { x with echo := some (c, c), echoAt := tick d + 1000000 }) d)

/-- ECHO_RECEIVE: the cookie returns unchanged. -/
def echoReceive (p : Nat) (h : FlitHdr) (cookie : Nat) (d : Dev) : Dev :=
  flitIn p h (fun d => if canSend (dbPort d p) then sendFlit p (.echoReply cookie) d else d) d

/-- ECHO_REPLY: the link delay is half the round trip, in REF cycles. -/
def echoReplied (p : Nat) (h : FlitHdr) (cookie cycle : Nat) (d : Dev) : Dev :=
  flitIn p h (fun d => match (dbPort d p).echo with
    | some (k, at_) =>
      if k = cookie then
        wrF (kB (1 + p) 0x044) 31 16 ((refCount d cycle - at_) / 2) (updDb p (fun x => { x with echo := none }) d)
      else d
    | none => d) d

/-- The link delay of a port. -/
def linkDelay (d : Dev) (p : Nat) : Nat := rdF d (kB (1 + p) 0x044) 31 16

/-- TICK_SYNC_SEND: module 0, every SYNC_TICKS ticks, on every UP port. -/
def syncSend (cycle : Nat) (d : Dev) : Dev :=
  if !formed d || teamId d ≠ 0 || tick d < d.dbr.syncAt then d
  else each ([0, 1].filter (fun p => canSend (dbPort d p))) (fun p d => sendFlit p (.tickSync (tick d) cycle 0) d)
    { d with dbr := { d.dbr with syncAt := tick d + rd d (kB 0 0x04C) } }

/-- The offset of a follower in REF cycles: TICK_OFFSET, and the correction that R77 still owes. It is UNALIGNED while module
0 is not LOCKED, when it has been more than a tick off for more than 1 ms, and while it slews back since its admission. -/
def setOffset (off : Int) (locked : Bool) (d : Dev) : Dev :=
  let far := decide (off < -200) || decide (200 < off)
  let since := if far then some (d.clk.apart.getD (tick d)) else none
  let late := match since with
    | some t => decide (t + 1000 < tick d)
    | none => false
  setLead (fun c => { c with unled := !locked, apart := since, ahead := far && c.ahead, unaligned := late || (far && c.ahead) })
    (wr (rk T.CLK 0 0 0x060) (ofSigned 16 (clampInt (-32768) 32767 off)) { d with dbr := { d.dbr with slew := off } })

/-- The first TICK_SYNC after admission (R529 step 4): `at_` is module 0's time in REF cycles, `here` the cycle of this
module's tick. -/
def firstSync (p : Nat) (at_ here : Nat) (locked : Bool) (d : Dev) : Dev :=
  let d1 := { d with dbr := { d.dbr with joining := false } }
  let off : Int := (refCount d here : Int) - at_
  if off < 0 then
    let d2 := wr64 kTick (at_ / 200) d1
    setOffset ((refCount d2 here : Int) - at_) locked d2
  else if (rd d (kB 0 0x054) : Int) * 200 < off then
    portDown p (formResult 6 (wrF (kB 0 0x048) 25 24 0 (wrB (kB 0 0x048) 31 false (setUnled false d1))))
  else setOffset off locked { d1 with clk := { d1.clk with ahead := true } }

/-- TICK_SYNC: a follower takes its offset; a module on the way sends it on with its delays added. `locked` says that
module 0's tick is LOCKED, `transit` is the internal transit of a forwarding module in REF cycles. -/
def tickSync (p : Nat) (h : FlitHdr) (t cycle delay here transit : Nat) (locked : Bool) (d : Dev) : Dev :=
  flitIn p h (fun d =>
    if !formed d || teamId d = 0 then d
    else
      let at_ := t * 200 + cycle + delay + linkDelay d p
      let d1 := if d.dbr.joining then firstSync p at_ here locked d
        else setOffset ((refCount d here : Int) - at_) locked d
      let q := 1 - p
      if canSend (dbPort d1 q) && (topology d ≠ 0) then
        sendFlit q (.tickSync t cycle (delay + linkDelay d p + transit)) d1
      else d1) d

/-- A follower's tick is lengthened or shortened by one REF cycle (R77); once it has been apart for more than 1 ms it is
UNALIGNED (R76). -/
def slewTick (d : Dev) : Dev :=
  let late := match d.clk.apart with
    | some t => decide (t + 1000 < tick d)
    | none => false
  let d1 := if late && !d.clk.unaligned then setLead (fun c => { c with unaligned := true }) d else d
  if d1.dbr.slew = 0 then d1
  else { d1 with dbr := { d1.dbr with slew := if 0 < d1.dbr.slew then d1.dbr.slew - 1 else d1.dbr.slew + 1 } }

/-- The governor exchanges PRESSURE with the other members once in every evaluation (R89). A member with TEAM_PRESSURE 0
sends none: DESIGN CHOICE, log entry 131. -/
def sendPressure (d : Dev) : Dev :=
  if !formed d || !rdB d (kV 0 0x040) 9 then d
  else each ((List.range 4).filter (fun m => m ≠ moduleNo d && isPresent d m))
    (fun m d => farPost m 0 (.pressure ((ownPressure d).map (·.2))) d) d

end Sys2Proof.Machine
end

