-- ==== Sys2Proof/Machine/Holdover.lean ====
section
/-! DEFINITION. The end of the PLL outputs after a loss of REF, and its restoration (R78, R80). -/

namespace Sys2Proof.Machine

/-- PLL_OUTPUTS_STOP: the stacks are in self-refresh with their PHYs offline, and the drawbar is offline (R78 steps 4
and 5). -/
def pllOutputsStop (d : Dev) : Dev :=
  if !d.clk.lost || d.clk.stopped then d
  else drawbarRefLost (selfRefresh (updClk (fun c => { c with stopped := true }) d))

/-- The drawbar ports that REF's loss took DOWN train again (R80 step 3). -/
def drawbarRefBack (d : Dev) : Dev :=
  teamPart (each [0, 1] (fun p d => if (dbPort d p).state = .down then startTraining p d else d)) d

/-- REF_RELOCKED: the PLL has relocked; the tick is REF's again with its count carried on, the stacks recalibrate, and the
drawbar retrains (R80). -/
def refRelocked (d : Dev) : Dev :=
  if !d.clk.relocking then d
  else
    let d1 := updClk (fun c => { c with lost := false, locked := true, relocking := false, holdover := false, stopped := false
                                        refPresent := true, injectEnd := none }) d
    let d2 := each (List.range d.part.stacks) (fun p d =>
      if (stackOf d p).mode = .selfRefresh then updStack p (fun c => { c with mode := .recalibrating }) d else d) d1
    drawbarRefBack d2

end Sys2Proof.Machine
end

