-- ==== Sys2Proof/Machine/Host.lean ====
section
/-! DEFINITION. The PCIe endpoint (R501 to R518): its link, functions, resets, outbound window, MSI-X vectors and failed
host writes. Accesses through the BARs are in HostBus. -/

namespace Sys2Proof.Machine

/-- Keys of the HST pages: page 0 the endpoint, page 1 + f function f. -/
def kH (page off : Nat) : Nat := rk T.HST 0 page off

/-- Changing the endpoint. -/
def updHst (f : HostState → HostState) (d : Dev) : Dev := { d with hst := f d.hst }

/-- LINK_UP. -/
def linkIsUp (d : Dev) : Bool := rdB d (kH 0 0x044) 16

/-- A function exists: the PF always, VF n while VF Enable is 1 and NumVFs ≥ n (R503); before BOOT_DONE there is the PF only
(R116). -/
def fnExists (d : Dev) (f : Nat) : Bool := f = 0 || (d.pwr.bootDone && d.hst.vfEnable && decide (f ≤ d.hst.numVfs))

/-- Bus Master Enable, Memory Space Enable and D3hot of a function. -/
def fnMaster (d : Dev) (f : Nat) : Bool := d.hst.bme.testBit f
def fnMemory (d : Dev) (f : Nat) : Bool := d.hst.mse.testBit f
def fnD3 (d : Dev) (f : Nat) : Bool := d.hst.d3.testBit f

/-- FUNC_STATUS. -/
def funcStatus (d : Dev) (f : Nat) : Nat :=
  b2n (fnExists d f) * 2 ^ 31 + b2n (fnMaster d f) * 2 ^ 30 + b2n (fnD3 d f) * 2 ^ 29 + f

/-- HOST_LINK with the width and rate of a LINK_STATUS word (R533). -/
def hostLinkOf (sub status : Nat) (d : Dev) : Dev :=
  post 0 { kind := 0x40, subkind := sub, subject := 0, detail := status % 0x10000 } d

/-- HOST_LINK, with width and rate (R533). -/
def hostLinkEvent (sub : Nat) (d : Dev) : Dev := hostLinkOf sub (rd d (kH 0 0x044)) d

/-! ### The outbound window (R509 to R511) -/

def outBase : Nat := 0x2000000000
def outEntryBytes : Nat := 0x4000000

/-- Whether an address lies in the outbound window. -/
def inOutbound (a : Nat) : Bool := decide (outBase ≤ a) && decide (a < outBase + 64 * outEntryBytes)

/-- The map entry of an address. -/
def outEntry (a : Nat) : Nat := (a - outBase) / outEntryBytes % 64

/-- Word 0 of OUT_MAP[e], HBASE, and OWNER. -/
def outW0 (d : Dev) (e : Nat) : Nat := rd64 d (kH 0 (0x200 + 16 * e))
def outHbase (d : Dev) (e : Nat) : Nat := rd64 d (kH 0 (0x208 + 16 * e)) / outEntryBytes * outEntryBytes
def outOwner (d : Dev) (e : Nat) : Nat := fld (outW0 d e) 59 56

/-- Whether a request through an entry is issued (R509). -/
def outAllowed (d : Dev) (cmp e : Nat) (write : Bool) : Bool :=
  rdB d (kH 0 0x048) 0 && linkIsUp d && !d.pwr.perstLow && bit (outW0 d e) 63 &&
    bit (outW0 d e) (if write then 61 else 62) && (cmp = outOwner d e || cmp = 0) &&
    fnExists d (outOwner d e) && fnMaster d (outOwner d e)

/-- The owner that a refused request names: a VALID entry's OWNER (R311). -/
def outTarget (d : Dev) (e : Nat) : Option Nat := if bit (outW0 d e) 63 then some (outOwner d e) else none

/-- The host address of an outbound address. -/
def hostAddr (d : Dev) (a : Nat) : Nat := outHbase d (outEntry a) + (a - outBase) % outEntryBytes

/-- The largest read request: the smaller of MRRS and 512 bytes (R501). -/
def readLimit (d : Dev) : Nat := min 512 (128 * 2 ^ d.hst.mrrs)

/-- The requests of a read: one for each entry it reaches and each read limit, as address and length. -/
def outParts (lim : Nat) : Nat → Nat → Nat → List (Nat × Nat)
  | 0, _, _ => []
  | fuel + 1, a, len =>
    if len = 0 then []
    else
      let n := min (min len (max 1 lim)) (outEntryBytes - (a - outBase) % outEntryBytes)
      (a, n) :: outParts lim fuel (a + n) (len - n)

/-- OUT_RD_FAIL. -/
def outReadFail (e : Nat) (d : Dev) : Dev := flag0 T.HST 0 3 e (bump (kH 0 0x058) d)

/-- Changing the first element that satisfies a condition; `none` takes it out. -/
def changeFirst {α : Type} (p : α → Bool) (f : α → Option α) : List α → List α
  | [] => []
  | x :: xs => if p x then (match f x with
      | some y => y :: xs
      | none => xs) else x :: changeFirst p f xs

/-- Bytes with one poison marker for all. -/
def marked (bs : List Byte) (poison : Bool) : List PByte := bs.map (fun b => (b, poison))

/-- Reads that the host has not completed; their tags have 8 bits (R501). -/
def outstandingReads (d : Dev) : Nat := d.hst.reads.foldl (fun n r => n + r.parts.length) 0

/-- Whether a part of a read waits to be issued. -/
def readWaits (r : OutRead) : Bool := !r.wait.isEmpty

/-- The next part of a read is checked, and issued or a decode error (R509, R511). -/
def issuePart (r : OutRead) (p : Nat × Nat) (rest : List (Nat × Nat)) (d : Dev) : Dev :=
  let take := fun (y : OutRead) => updHst (fun h => { h with reads := changeFirst readWaits (fun _ => some y) h.reads })
  if outAllowed d r.cmp (outEntry p.1) false then
    answer r.who (.outbound (outOwner d (outEntry p.1)) false (hostAddr d p.1) p.2)
      (tcount 8 p.2 (bump (kH 0 0x054) (take { r with parts := r.parts ++ [p], wait := rest } d)))
  else refused { who := r.who, cmp := r.cmp } .noRegion (outTarget d (outEntry p.1)) false p.1 (take { r with fault := true, wait := rest } d)

/-- Parts that wait are issued in order while fewer than 256 reads are outstanding (R501). -/
def pumpReads : Nat → Dev → Dev
  | 0, d => d
  | n + 1, d =>
    match d.hst.reads.find? readWaits with
    | none => d
    | some r => match r.wait with
      | [] => d
      | p :: rest => if 256 ≤ outstandingReads d then d else pumpReads n (issuePart r p rest d)

/-- What a read that is over brings: its bytes, or a decode error where a part failed its check. -/
def readResult (r : OutRead) : FarReply := if r.fault then .fail .noRegion else .data (marked r.got r.bad)

/-- Nothing of a read is outstanding or waits. -/
def readOver (r : OutRead) : Bool := r.parts.isEmpty && r.wait.isEmpty

/-- Reads that are over reach who asked. -/
def endReads (d : Dev) : Dev :=
  each (d.hst.reads.filter readOver) (fun r d => push (.back r.who r.addr r.what (readResult r)) d)
    (updHst (fun h => { h with reads := h.reads.filter (fun r => !readOver r) }) d)

/-- OUTBOUND_READ: a memory read goes to the host for each part that passes its check (R509, R511). The answer is false where
no part did: the access is a decode error. -/
def outRead (who : Who) (cmp a len : Nat) (what : FarFor) (d : Dev) : Bool × Dev :=
  let parts := outParts (readLimit d) (len + 2) a len
  let r : OutRead := { who := who, cmp := cmp, addr := a, what := what, wait := parts }
  let d1 := pumpReads parts.length (updHst (fun h => { h with reads := h.reads ++ [r] }) d)
  if d1.hst.reads.any readOver then (false, updHst (fun h => { h with reads := h.reads.filter (fun r => !readOver r) }) d1)
  else (true, d1)

/-- A part of the oldest outbound read of a requester has come back: its bytes, or a failure (R511). A part that waited may
then be issued. -/
def outReadDone (who : Who) (ok : Bool) (bs : List Byte) (d : Dev) : Dev :=
  let mine := fun (r : OutRead) => decide (r.who = who) && !r.parts.isEmpty
  match d.hst.reads.find? mine with
  | none => d
  | some r =>
    match r.parts with
    | [] => d
    | p :: rest =>
      let d1 := if ok then d else outReadFail (outEntry p.1) d
      let y := { r with parts := rest, got := r.got ++ ((bs ++ List.replicate p.2 0).take p.2), bad := r.bad || !ok }
      let d2 := updHst (fun h => { h with reads := changeFirst mine (fun _ => some y) h.reads }) d1
      endReads (pumpReads (d2.hst.reads.foldl (fun n r => n + r.wait.length) 0) d2)

/-- OUTBOUND_WRITE: a posted write goes to the host and is outstanding until the link partner acknowledges it, or it is a
decode error and fails with NO_REGION (R509, R510). -/
def outWrite (acc : Access) (tag serial a : Nat) (bs : List Byte) (d : Dev) : Dev :=
  let parts := outParts (128 * 2 ^ d.hst.mps) (bs.length + 2) a bs.length
  match parts.find? (fun p => !outAllowed d acc.cmp (outEntry p.1) true) with
  | some p =>
    launch ⟨acc.who, acc.cmp, tag, serial, a, true, .failed .noRegion, tick d, acc.stream⟩
      (refused { acc with write := true } .noRegion (outTarget d (outEntry p.1)) false p.1 d)
  | none =>
    launch ⟨acc.who, acc.cmp, tag, serial, a, true, .pending, tick d, acc.stream⟩ (each parts (fun p d =>
      answer acc.who (.outbound (outOwner d (outEntry p.1)) true (hostAddr d p.1) p.2) (tcount 8 p.2 (bump (kH 0 0x054) d))) d)

/-- A posted write that waits for the host. -/
def toHost (f : Flight) : Bool := f.posted && f.st = .pending && inOutbound f.addr

/-- OUTBOUND_WRITE_ACK: the link partner's data link layer acknowledges the oldest outbound write of a requester (R510). -/
def outWriteAck (who : Who) (d : Dev) : Dev :=
  let fs := changeFirst (fun f => f.who = who && toHost f) (fun f => some { f with st := .acked }) d.net.flights
  { d with net := { d.net with flights := fs } }

/-- What is outstanding towards the host is lost: writes fail with NO_REGION and reads are poisoned (R510, R511). A part of
a read that was still to be issued is a decode error. -/
def outLost (d : Dev) : Dev :=
  let fs := d.net.flights.map (fun f => if toHost f then { f with st := .failed .noRegion } else f)
  let d1 := { d with net := { d.net with flights := fs } }
  each d1.hst.reads (fun r d =>
    let rest := (r.parts.map (·.2)).foldl (· + ·) 0
    push (.back r.who r.addr r.what (readResult { r with
        fault := r.fault || readWaits r, got := r.got ++ List.replicate rest 0, bad := true }))
      (each r.wait (fun p d => refused { who := r.who, cmp := r.cmp } .noRegion (outTarget d (outEntry p.1)) false p.1 d)
        (each r.parts (fun p d => outReadFail (outEntry p.1) d) d))) (updHst (fun h => { h with reads := [] }) d1)

/-! ### The link and the reference clock (R516 to R518) -/

/-- A host function of which `p` holds. -/
def hostFn (p : Nat → Bool) (w : Who) : Bool := match w with
  | .host f => p f.val
  | _ => false

/-- Inbound requests not yet accepted by their targets are dropped, at the endpoint, at a full queue, and at a cluster that
holds them; how many there were. -/
def dropInbound (p : Nat → Bool) (d : Dev) : Nat × Dev :=
  let n := (d.hst.inbox.filter (fun h => p h.fn.val)).length + (d.dpt.brakes.filter (fun b => hostFn p b.who)).length
    + (d.yard.held.filter (fun h => hostFn p h.acc.who)).length
  (n, { d with hst := { d.hst with inbox := d.hst.inbox.filter (fun h => !p h.fn.val) }
               dpt := { d.dpt with brakes := d.dpt.brakes.filter (fun b => !hostFn p b.who) }
               yard := { d.yard with held := d.yard.held.filter (fun h => !hostFn p h.acc.who) } })

/-- The link is down, whatever took it down (R516). -/
def linkFalls (d : Dev) : Dev :=
  if !linkIsUp d then d
  else
    let d1 := outLost (dropInbound (fun _ => true) d).2
    let d2 := flag0 T.HST 0 0 0 (bump (kH 0 0x05C) (wrB (kH 0 0x044) 16 false d1))
    wr (kH 0 0x044) 0 (hostLinkEvent 0 d2)

/-- HOST_LINK_DOWN. -/
def hostLinkDown (d : Dev) : Dev := linkFalls d

/-- HOST_LINK_UP: L0 at a width and rate, once the endpoint has been brought up (R116). -/
def hostLinkUp (width rate : Nat) (d : Dev) : Dev :=
  if linkIsUp d || !d.pwr.endpoint || d.pwr.perstLow || !d.hst.refclk || !linkFits width rate then d
  else hostLinkEvent 1 (wr (kH 0 0x044) (0x10000 + width * 256 + rate) d)

/-- REFCLK_LOST (R518): with PERST_N low the endpoint does not watch, and no edge is missed (R613). The event carries the
width and rate that the link had (R533). -/
def refclkLost (d : Dev) : Dev :=
  if d.pwr.perstLow || !d.hst.refclk then d
  else hostLinkOf 2 (rd d (kH 0 0x044)) (linkFalls (flag0 T.HST 0 1 0 (updHst (fun h => { h with refclk := false }) d)))

/-- REFCLK_RESTORED: link training starts again. -/
def refclkRestored (d : Dev) : Dev := updHst (fun h => { h with refclk := true }) d

/-! ### Resets of the endpoint and of functions (R109, R110, R113, R504) -/

/-- Words of the HST pages that a reset of the endpoint keeps: STICKY and STICKY_FIRST, and the fused Vendor ID. -/
def keptHst (k : Nat) : Bool := keyTy k ≠ T.HST || keptWord k || k = kH 0 0x040

/-- An endpoint reset: the link and configuration space are down and reset, host requests in flight are dropped without
completion, and HOST_RESET tells how many (R113). Work that the host has enqueued is kept. -/
def endpointReset (d : Dev) : Dev :=
  let r := dropInbound (fun _ => true) (outLost d)
  let d1 := { r.2 with
    regs := r.2.regs.filter (fun (e : Nat × W32) => keptHst e.1)
    hst := { refclk := r.2.hst.refclk, nextHdr := r.2.hst.nextHdr }
    net := { r.2.net with flights := r.2.net.flights.filter (fun f => !(f.who.isHost && !f.posted)) } }
  post 0 { kind := 0x05, subject := 0, detail := r.1 } d1

/-- PERST_N_ASSERT (R113, R517). -/
def perstAssert (d : Dev) : Dev :=
  if d.pwr.perstLow then d
  else
    let d1 := updPwr (fun p => { p with perstLow := true }) d
    if d.pwr.state = .run then endpointReset (flag0 T.HST 0 2 0 d1) else d1

/-- PERST_N_RELEASE: a boot that waits for the host starts its wait again. -/
def perstRelease (d : Dev) : Dev :=
  updPwr (fun p => { p with perstLow := false, hostSince := if p.boot = .host then tick d else p.hostSince }) d

/-- IN_BAND_LINK_RESET. -/
def inBandReset (d : Dev) : Dev := endpointReset d

/-- What a function-level reset clears of a function's configuration space (R516), and its reads under way. -/
def fnConfigReset (f : Nat) (d : Dev) : Dev :=
  { d with
    hst := { d.hst with mse := clrBit d.hst.mse f, bme := clrBit d.hst.bme f, d3 := clrBit d.hst.d3 f
                        msix := clrBit d.hst.msix f, masked := clrBit d.hst.masked f, errs := clrBit d.hst.errs f
                        aer := Map.set (fun _ => ({} : Aer)) d.hst.aer f {} }
    net := { d.net with flights := d.net.flights.filter (fun g => !(hostFn (fun g => g = f) g.who && !g.posted)) } }

/-- A function-level reset of a VF (R504): its requests end without completion; its MSI-X table, VEC_BIND entries and
counters clear, and its configuration space is reset. -/
def vfReset (f : Nat) (d : Dev) : Dev :=
  let mine := fun (k : Nat) => keyTy k = T.HST && keyPage k = 1 + f && decide (0x040 ≤ keyOff k)
  let d1 := (dropInbound (fun g => g = f) d).2
  fnConfigReset f { d1 with regs := d1.regs.filter (fun (e : Nat × W32) => !mine e.1) }

/-- VF Enable is cleared, and every VF disappears: what is under way for them is dropped. -/
def vfsGone (d : Dev) : Dev :=
  let d1 := (dropInbound (fun g => g ≠ 0) d).2
  { d1 with
    hst := { d1.hst with vfEnable := false }
    net := { d1.net with flights := d1.net.flights.filter (fun g => !(hostFn (fun g => g ≠ 0) g.who && !g.posted)) } }

/-- A function-level reset of the PF (R504): host requests in flight are dropped without completion, HOST_RESET tells how
many (R113), and VF Enable clears. Its own configuration space and MSI-X table are reset (R516), DEDUCED in log entry 169;
the link, the windows and what the VFs' pages hold stay. -/
def pfReset (d : Dev) : Dev :=
  let r := dropInbound (fun _ => true) d
  let table := fun (k : Nat) => keyTy k = T.HST && keyPage k = 1 && decide (0x800 ≤ keyOff k)
  let d1 := fnConfigReset 0 { r.2 with regs := r.2.regs.filter (fun (e : Nat × W32) => !table e.1) }
  post 0 { kind := 0x05, subject := 0, detail := r.1 } (vfsGone d1)

/-! ### MSI-X (R512, R513) -/

/-- VEC_BIND[v] of a function. -/
def kVec (f v : Nat) : Nat := kH (1 + f) (0x400 + 4 * v)

/-- Whether the table or the function masks a vector. -/
def vecMasked (d : Dev) (f v : Nat) : Bool := d.hst.masked.testBit f || rdB d (kH (1 + f) (0x80C + 16 * v)) 0

/-- The pending bit of a vector. -/
def setPending (f v : Nat) (on : Bool) (d : Dev) : Dev := wrB (kH (1 + f) (0xC00 + 4 * (v / 32))) (v % 32) on d

/-- A vector's message is sent; a masked vector becomes pending; a function that cannot send loses it (R512, log entry
62). -/
def sendVector (f v : Nat) (d : Dev) : Dev :=
  if !fnExists d f || !d.hst.msix.testBit f then d
  else if vecMasked d f v then setPending f v true d
  else if linkIsUp d && fnMaster d f then answer (.host (Fin.ofNat 16 f)) (.message v) (setPending f v false d)
  else d

/-- Pending vectors of a function that are no longer masked are sent. -/
def sendPending (f : Nat) (d : Dev) : Dev :=
  each ((List.range 64).filter (fun v => rdB d (kH (1 + f) (0xC00 + 4 * (v / 32))) (v % 32) && !vecMasked d f v))
    (sendVector f) d

/-- ALERT_ROUTE[2]: PF vector 0 carries the module alert. -/
def alertToPf (d : Dev) : Bool := rdB d (kSys 1 0x048) 2

/-- The vector that a queue is bound to: function and vector. While PF vector 0 carries the module alert it serves no queue,
whatever its binding says (R512). -/
def boundVector (d : Dev) (q : Nat) : Option (Nat × Nat) :=
  (d.regs.find? (fun e => keyTy e.1 = T.HST && decide (1 ≤ keyPage e.1) && inR (keyOff e.1) 0x400 0x100 &&
    bit e.2.toNat 31 && fld e.2.toNat 15 0 = q && !(alertToPf d && e.1 = kVec 0 0))).map
      (fun e => (keyPage e.1 - 1, (keyOff e.1 - 0x400) / 4))

/-- A record or event has been written to a queue: its armed vector sends its message, and ARMED clears (R513). -/
def queueWritten (q : Nat) (d : Dev) : Dev :=
  match boundVector d q with
  | some (f, v) => if rdB d (kVec f v) 30 then sendVector f v (wrB (kVec f v) 30 false d) else d
  | none => d

/-- VECTOR_ARM: a write of 1 to ARMED; unread entries send the message at once (R513). -/
def vectorArm (f v : Nat) (d : Dev) : Dev :=
  let k := kVec f v
  let q := getQueue d (rdF d k 15 0)
  if rdB d k 31 && q.tail ≠ q.head then sendVector f v (wrB k 30 false d) else wrB k 30 true d

/-- VEC_BIND_WRITE: a queue of another owner, one bound already, one that is no completion or event queue, and PF vector 0
while it carries the alert are refused (R512, R513). -/
def vecBind (f v val : Nat) (d : Dev) : Dev :=
  let k := kVec f v
  let q := fld val 15 0
  let armed0 := rdB d k 30
  let other := match boundVector (wr k 0 d) q with
    | some _ => true
    | none => false
  let qd := getQueue d q
  let bad := bit val 31 && ((qd.owner ≠ f && f ≠ 0) || !qd.valid || qd.kind ≠ 1 || other || (f = 0 && v = 0 && alertToPf d))
  let d1 := wr k (b2n (bit val 31 && !bad) * 2 ^ 31 + b2n armed0 * 2 ^ 30 + q) d
  let d2 := if bad then flag0 T.HST 0 7 f d1 else d1
  if bit val 30 then vectorArm f v d2 else d2

/-- A word of a function's MSI-X table is written; clearing a vector's mask sends what is pending. -/
def msixWrite (f off val : Nat) (d : Dev) : Dev := sendPending f (wr (kH (1 + f) off) val d)

/-! ### Configuration space (R503) -/

/-- Changing the AER state of a function. -/
def updAer (f : Nat) (g : Aer → Aer) (d : Dev) : Dev :=
  { d with hst := { d.hst with aer := Map.upd (fun _ => ({} : Aer)) d.hst.aer f g } }

/-- A bit of a function mask. -/
def fnBit (m f : Nat) (on : Bool) : Nat := putBit m f on

/-- VFs that exist no longer lose their requests. -/
def dropVfs (d : Dev) : Dev := (dropInbound (fun f => !fnExists d f) d).2

/-- CONFIG_WRITE: the host changes one field of configuration space; a function that does not exist answers none. -/
def configWrite (x : ConfigField) (d : Dev) : Dev :=
  if !linkIsUp d then d
  else
    let on := fun (f : Fin 16) (g : Dev → Dev) => if fnExists d f.val then g d else d
    match x with
    | .memorySpace f b => on f (updHst (fun h => { h with mse := fnBit h.mse f.val b }))
    | .busMaster f b => on f (updHst (fun h => { h with bme := fnBit h.bme f.val b }))
    | .powerD3 f b => on f (updHst (fun h => { h with d3 := fnBit h.d3 f.val b }))
    | .vfEnable b => dropVfs (updHst (fun h => { h with vfEnable := b }) d)
    | .numVfs n => dropVfs (updHst (fun h => { h with numVfs := n.val }) d)
    | .msixEnable f b => on f (fun d => sendPending f.val (updHst (fun h => { h with msix := fnBit h.msix f.val b }) d))
    | .errorReporting f b => on f (updHst (fun h => { h with errs := fnBit h.errs f.val b }))
    | .msixMask f b => on f (fun d => sendPending f.val (updHst (fun h => { h with masked := fnBit h.masked f.val b }) d))
    | .maxPayload n => updHst (fun h => { h with mps := n.val }) d
    | .maxRead n => updHst (fun h => { h with mrrs := n.val }) d
    | .aerClear f bits => on f (updAer f.val (fun a =>
        let s := a.status &&& (0xFFFFFFFF ^^^ bits.toNat)
        { status := s, hdr := if s = 0 then none else a.hdr }))

/-- What a function's configuration space reports: its identity, Command and D3hot bits, and the MSI-X capability's Enable
and Function Mask. -/
structure FnConfig where
  vendor    : Nat
  device    : Nat
  classCode : Nat
  memory    : Bool
  master    : Bool
  d3        : Bool
  msix      : Bool
  masked    : Bool
deriving DecidableEq, Repr

/-- The configuration space of a function that exists (R502, R503, R512); in D3hot too. -/
def fnConfig (d : Dev) (f : Nat) : Option FnConfig :=
  if fnExists d f then
    some { vendor := rdF d (kH 0 0x040) 15 0, device := if f = 0 then 0x0402 else 0x0403, classCode := 0x120000
           memory := fnMemory d f, master := fnMaster d f, d3 := fnD3 d f, msix := d.hst.msix.testBit f
           masked := d.hst.masked.testBit f }
  else none

/-- BIR and table offset of a function's MSI-X capability, and the offset of its PBA: offsets in BAR0 (R512). -/
def msixBir : Nat := 0
def msixTable (f : Nat) : Nat := 0x1601800 + f * 0x1000
def msixPba (f : Nat) : Nat := msixTable f + 0x400

/-! ### AER and failed host writes (R508, R514, R515) -/

/-- A bit of Uncorrectable Error Status is logged, with the header of the first error. -/
def aerLog (f b : Nat) (hdr : Option (HostHdr × Bool)) (d : Dev) : Dev :=
  updAer f (fun a => { status := setBit a.status b, hdr := if a.status = 0 then hdr else a.hdr }) d

/-- Unsupported Request Error Status and Poisoned TLP Received (PCI Express Base Specification, AER). -/
def aerUr : Nat := 20
def aerPoison : Nat := 12

/-- Unsupported Request is logged. -/
def urLogged (f : Nat) (hdr : Option (HostHdr × Bool)) (d : Dev) : Dev := bump (kH (1 + f) 0x058) (aerLog f aerUr hdr d)

/-- An inbound write's header is kept among the most recent 64; its number is the answer. -/
def keepHeader (f addr len : Nat) (d : Dev) : Nat × Dev :=
  let n := d.hst.nextHdr
  let x : HostHdr := ⟨f, addr, len, n⟩
  let hs := ((d.hst.headers ++ [x]).reverse.take 64).reverse
  (n, { d with hst := { d.hst with nextHdr := n + 1, headers := hs } })

/-- An Unsupported Request on a posted request is signalled by an error message, where the function's error reporting is on
(R514; PRESUMED from the Base Specification, log entry 159). -/
def signalUr (f : Nat) (d : Dev) : Dev :=
  if linkIsUp d && d.hst.errs.testBit f then answer (.host (Fin.ofNat 16 f)) .errorMessage d else d

/-- A failed host write (R514): `id` is the header's number. From a kill's wait on it posts no event (R315 step 3). -/
def hostFailed (f addr id : Nat) (k : Kind) (d : Dev) : Dev :=
  let d1 := countLost (.host (Fin.ofNat 16 f)) f addr k d
  let hdr := d1.hst.headers.find? (fun h => h.id = id)
  let d2 := match hdr with
    | some h => urLogged f (some (h, false)) d1
    | none => flag0 T.HST 0 6 0 (urLogged f (some (⟨f, addr, 4, id⟩, true)) d1)
  let d3 := cper { cls := 0x05, block := T.HST, inst := 0, cmp := some f, addr := addr, detail := k.code } (signalUr f d2)
  if (getCmp d f).quiet then d3
  else postBoth { kind := 0x04, subkind := k.code, subject := f, addr := addr, detail := f } d3

/-- A posted write of a function that has failed. -/
def hostFailure (f : Fin 16) (g : Flight) : Bool := match g.st with
  | .failed _ => g.who = .host f && g.posted
  | _ => false

/-- HOST_WRITE_FAILED: the oldest failure notice of a function's write arrives (R514). -/
def hostWriteFailed (f : Fin 16) (d : Dev) : Dev :=
  let t := takeFlight (hostFailure f) d.net.flights
  match t.1 with
  | some g => (match g.st with
    | .failed k => hostFailed f.val g.addr g.tag k { d with net := { d.net with flights := t.2 } }
    | _ => d)
  | none => d

/-- A host request that fails at once at the endpoint: it becomes a failed write. -/
def hostFails (f addr : Nat) (k : Kind) (id : Nat) (d : Dev) : Dev :=
  launch ⟨.host (Fin.ofNat 16 f), f, id, 0, addr, true, .failed k, tick d, false⟩ d

end Sys2Proof.Machine
end

