-- ==== Sys2Proof/Machine/TwoWire.lean ====
section
/-! DEFINITION. The controller ports BUS0 to BUS3 (R550 to R560): their line checks and recovery, transactions and retries,
command lists, and the governor's transactions on BUS1. -/

namespace Sys2Proof.Machine

/-- Keys of the page of a port. -/
def kW (p off : Nat) : Nat := rk T.TWC p 0 off

/-- A port. -/
def twPort (d : Dev) (p : Nat) : TwPort := Map.get (fun _ => ({} : TwPort)) d.twc p

/-- Changing a port. -/
def updTw (p : Nat) (f : TwPort → TwPort) (d : Dev) : Dev := { d with twc := Map.upd (fun _ => ({} : TwPort)) d.twc p f }

/-! ### PEC (R542, R550) -/

/-- One byte of the SMBus CRC-8. -/
def crc8Byte (c : Nat) (b : Byte) : Nat :=
  foldBelow 8 (fun _ x => if x.testBit 7 then (2 * x % 256) ^^^ 0x07 else 2 * x) (c ^^^ b.toNat)

/-- The SMBus CRC-8: polynomial x^8 + x^2 + x + 1, initial value 0. -/
def crc8 (bs : List Byte) : Byte := BitVec.ofNat 8 (bs.foldl crc8Byte 0)

/-- PORT_CNT[j] counts. -/
def twCount (p j : Nat) (d : Dev) : Dev := bump (kW p (0x060 + 4 * j)) d

/-- PORT_STATUS. -/
def twStatus (d : Dev) (p : Nat) : Nat :=
  let x := twPort d p
  let st := if !enabled d T.TWC p then 0 else match x.mode with
    | .stuck => 4
    | .recovering => 3
    | .busy => 2
    | .idle => if x.run.isSome || (p = 1 && d.gov.txn.isSome) then 2 else 1
  b2n x.sda * 2 ^ 17 + b2n x.scl * 2 ^ 16 + x.queue.length * 256 + st

/-! ### Ends of lists and requests (R555 to R559) -/

/-- The sticky flag of a status code, where it has one (TWC STICKY). -/
def twFlag : Nat → Option Nat
  | 0x01 => some 0 | 0x02 => some 1 | 0x03 => some 2 | 0x04 => some 3 | 0x05 => some 4 | 0x06 => some 5 | 0x07 => some 6
  | 0x09 => some 7 | 0x0A => some 8 | _ => none

/-- The requester code of LIST_RESULT. -/
def ListFor.code : ListFor → Nat
  | .command => 0 | .node _ _ _ _ => 1 | .replug _ _ => 2

/-- A list or a request ends: LIST_RESULT, the flag of its status, and the requester is told (R558). -/
def listEnds (p : Nat) (q : ListReq) (status word detail : Nat) (d : Dev) : Dev :=
  let d1 := wr (kW p 0x050) (2 ^ 31 + q.index % 64 * 2 ^ 25 + q.asker.code * 2 ^ 23 + word % 1024 * 1024 + status) d
  let d2 := match twFlag status with
    | some n => flag0 T.TWC p n detail d1
    | none => d1
  push (.listDone q.asker (status = 0)) d2

/-- LIST_DIR[k]: VALID, OWNER, START and LENGTH. -/
def listDir (d : Dev) (p k : Nat) : Nat := rd d (kW p (0x100 + 4 * k))
def dirStart (w : Nat) : Nat := fld w 21 12
def dirLen (w : Nat) : Nat := fld w 9 0

/-- The next queued request starts when no list runs (R558). -/
def startNext (p : Nat) (d : Dev) : Dev :=
  let x := twPort d p
  match x.run, x.queue with
  | none, q :: rest =>
    if x.mode = .stuck then d
    else
      let w := listDir d p (q.index % 64)
      let r : ListRun := { req := q, start := dirStart w, len := dirLen w, pc := dirStart w }
      twCount p 3 (wr (kW p 0x0B0) 0 (updTw p (fun x => { x with run := some r, queue := rest }) d))
  | _, _ => d

/-- The running list ends; a failure is counted. -/
def endRun (p status word detail : Nat) (d : Dev) : Dev :=
  match (twPort d p).run with
  | none => d
  | some r =>
    let d1 := listEnds p r.req status word detail (updTw p (fun x => { x with run := none }) d)
    startNext p (if status = 0 then d1 else twCount p 4 d1)

/-- The compartment for which a requester acts, and whether the list's OWNER admits it (R557). -/
def askerCmp (d : Dev) : ListFor → Nat
  | .command => 0
  | .node g _ _ _ => (tableOf d g).cmp
  | .replug q b => bindCmp d q b

/-- A request for a list (R557, R558). -/
def listAsked (p k : Nat) (a : ListFor) (d : Dev) : Dev :=
  let q : ListReq := ⟨k, a⟩
  let w := listDir d p (k % 64)
  let owner := fld w 27 24
  let x := twPort d p
  if !enabled d T.TWC p then listEnds p q 0x0B 0 0 d
  else if x.mode = .stuck then listEnds p q 0x04 0 0 d
  else if 64 ≤ k || !bit w 31 || (a ≠ .command && owner ≠ 0 && owner ≠ askerCmp d a) then listEnds p q 0x0A 0 k d
  else if x.run.isSome && decide (8 ≤ x.queue.length) then listEnds p q 0x09 0 0 d
  else startNext p (updTw p (fun x => { x with queue := x.queue ++ [q] }) d)

/-- A requester's list is to stop: at its next transaction boundary, at once in a DELAY or before it starts (R559,
R562). -/
def listStopped (p : Nat) (who : ListFor → Bool) (d : Dev) : Dev :=
  let x := twPort d p
  let d1 := each (x.queue.filter (fun q => who q.asker)) (fun q d => listEnds p q 0x08 0 0 d)
    (updTw p (fun x => { x with queue := x.queue.filter (fun q => !who q.asker) }) d)
  match x.run with
  | some r =>
    if !who r.req.asker then d1
    else if r.till.isSome then endRun p 0x08 0 0 d1
    else updTw p (fun x => { x with run := some { r with stop := true } }) d1
  | none => d1

/-- The port's ENABLE is cleared (R559). -/
def portDisabled (p : Nat) (d : Dev) : Dev :=
  let q := (twPort d p).queue
  let d1 := each q (fun q d => listEnds p q 0x0B 0 0 d) (updTw p (fun x => { x with queue := [] }) d)
  listStopped p (fun _ => true) d1

/-! ### Lines (R552) -/

/-- BUS_STUCK: the running list and every queued request fail. -/
def portStuck (p detail : Nat) (d : Dev) : Dev :=
  let x := twPort d p
  let w := match x.run with
    | some r => r.pc
    | none => 0
  let d1 := flag0 T.TWC p 3 detail (updTw p (fun x => { x with
    mode := .stuck, queue := [], scl := x.scl && !bit detail 1, sda := x.sda && !bit detail 0 }) d)
  let d2 := endRun p 0x04 w detail d1
  each x.queue (fun q d => listEnds p q 0x04 0 detail d) d2

/-- The check before a START and the recovery it may need: whether the START can go out (R552). -/
def lineCheck (p : Nat) (l : Lines) (d : Dev) : Bool × Dev :=
  match l with
  | .free => (true, updTw p (fun x => { x with scl := true, sda := true }) d)
  | .sdaLow ok =>
    let d1 := twCount p 2 d
    if ok then (true, flag0 T.TWC p 9 0 (updTw p (fun x => { x with scl := true, sda := true }) d1)) else (false, portStuck p 1 d1)
  | .sclLow => (false, portStuck p 2 d)
  | .noRise => (false, portStuck p 0x100 d)

/-- The lines as an armed injection makes the next check find them. -/
def injectedLines (p : Nat) (l : Lines) (d : Dev) : Lines × Dev :=
  if (armed d T.TWC p 0 3).isSome then (.sdaLow false, fired T.TWC p 0 d) else (l, d)

/-- RECOVER: the check and recovery run now, and the port returns to IDLE when they succeed (R552). -/
def recoverBus (p : Nat) (l : Lines) (d : Dev) : Dev :=
  let r := lineCheck p l d
  if r.1 then startNext p (updTw p (fun x => { x with mode := .idle }) r.2) else r.2

/-! ### List commands (R553 to R556) -/

/-- A list RAM word. -/
def listWord (d : Dev) (p i : Nat) : Nat := Map.get (fun _ => 0) (twPort d p).ram i

/-- The command word at a run's place, or none past LENGTH or the RAM. -/
def listOp (d : Dev) (p : Nat) (r : ListRun) : Option Nat :=
  if r.start + r.len ≤ r.pc || 1024 ≤ r.pc then none else some (listWord d p r.pc)

/-- Words that a command takes, itself included; none for a reserved opcode or a field outside its range. -/
def opWords (w : Nat) : Option Nat :=
  let n := fld w 15 8
  let ptr := (n + 3) / 4
  match fld w 31 28 with
  | 0 => some 1
  | 1 => if 1 ≤ n ∧ n ≤ 64 then some (1 + ptr) else none
  | 2 => if 1 ≤ n ∧ n ≤ 4 then some (2 + ptr) else none
  | 3 => some 1
  | 4 => if n ≤ 4 ∧ 1 ≤ fld w 7 0 ∧ fld w 7 0 ≤ 16 then some (1 + ptr) else none
  | _ => none

/-- Whether the whole of a command lies in its list. -/
def opFits (r : ListRun) (n : Nat) : Bool := decide (r.pc + n ≤ r.start + r.len) && decide (r.pc + n ≤ 1024)

/-- Bytes of list RAM words, the low byte of each word first. -/
def listBytes (d : Dev) (p i n : Nat) : List Byte := ((List.range ((n + 3) / 4)).flatMap (fun j => leBytes 4 (listWord d p (i + j)))).take n

/-- The address byte of a target. -/
def busAddr (target : Nat) (read : Bool) : Byte := BitVec.ofNat 8 (2 * target + b2n read)

/-- What a port puts on the bus: a write phase, and with `pec` its PEC where nothing is read after it; then, where something
is, the address byte of the read phase, whose PEC the port checks (R556). -/
def wireBytes (target : Nat) (write : Option (List Byte)) (read pec : Bool) : List Byte :=
  let w := match write with
    | some bs => busAddr target false :: bs
    | none => []
  if read then w ++ [busAddr target true] else if pec then w ++ [crc8 w] else w

/-- The bytes of the transaction of a list command (R556). -/
def listWire (d : Dev) (p : Nat) (r : ListRun) (w : Nat) : List Byte :=
  let bs := listBytes d p (r.pc + 1) (fld w 15 8)
  let op := fld w 31 28
  wireBytes (fld w 26 20) (if op = 4 && fld w 15 8 = 0 then none else some bs) (op ≠ 1) (bit w 27)

/-- The governor's transaction on BUS1 is under way or due: it goes before a list's (R560, R562). -/
def govAhead (d : Dev) (p : Nat) : Bool :=
  p = 1 && (d.gov.txn.isSome || (govFree d && (voutDue d || d.gov.reading)))

/-- The list goes on with its next command. -/
def nextOp (p n : Nat) (d : Dev) : Dev :=
  updTw p (fun x => { x with run := x.run.map (fun r => { r with pc := r.pc + n, till := none, nacks := 0, losts := 0 }) }) d

/-- A transaction of the running list whose attempt went out: `n` words, and what it does when it is done (R553,
R554). -/
def attempt (p n : Nat) (r : ListRun) (w : Nat) (out : WireOut) (done : Dev → Dev) (d : Dev) : Dev :=
  let target := fld w 26 20
  let first := r.nacks = 0 && r.losts = 0
  let inj := (armed d T.TWC p 0 0).isSome && out ≠ .arbLost
  let d0 := updTw p (fun x => { x with wire := listWire d p r w }) d
  let d1 := (if first then twCount p 0 else id) (if inj then fired T.TWC p 0 d0 else d0)
  let put := fun (r2 : ListRun) (d : Dev) => updTw p (fun x => { x with run := some r2 }) d
  let ends := fun (status detail : Nat) (d : Dev) => endRun p status r.pc detail d
  match (if inj then WireOut.addrNack else out) with
  | .addrNack =>
    let d2 := twCount p 1 d1
    if rdF d (kW p 0x040) 2 0 ≤ r.nacks then ends 0x01 target d2 else put { r with nacks := r.nacks + 1 } d2
  | .arbLost => if 3 ≤ r.losts then ends 0x03 0 d1 else put { r with losts := r.losts + 1 } d1
  | .dataNack => ends 0x02 target d1
  | .pecBad => if bit w 27 && fld w 31 28 ≠ 1 then ends 0x06 target d1 else done (nextOp p n d1)
  | .done => done (nextOp p n d1)

/-- A list transaction: the command at the list's place is one of an opcode, the port is not held by the governor, and
the lines are free (R552). -/
def transaction (p op : Nat) (retry : ListRun → Bool) (l : Lines) (out : WireOut) (done : ListRun → Nat → Dev → Dev)
    (d : Dev) : Dev :=
  match (twPort d p).run with
  | none => d
  | some r =>
    match listOp d p r with
    | none => d
    | some w =>
      match opWords w with
      | none => d
      | some n =>
        if fld w 31 28 ≠ op || !opFits r n || r.stop || govAhead d p || (twPort d p).mode = .stuck || !retry r then d
        else
          let i := injectedLines p l d
          let c := lineCheck p i.1 i.2
          if c.1 then attempt p n r w out (done r w) c.2 else c.2

/-- Bytes read go to READ_BUF; those beyond 16 are discarded. -/
def readBuf (p : Nat) (bs : List Byte) (d : Dev) : Dev :=
  let n := rd d (kW p 0x0B0)
  let d1 := foldBelow (min bs.length (16 - n)) (fun i d =>
    let k := kW p (0x0A0 + (n + i) / 4 * 4)
    wrF k (8 * ((n + i) % 4) + 7) (8 * ((n + i) % 4)) (bs.getD i 0).toNat d) d
  wr (kW p 0x0B0) (min 16 (n + bs.length)) d1

/-- What each kind of transaction does when it is done: WRITE nothing more, CHECK compares, READ keeps its bytes. -/
def opDone (p op : Nat) (bs : List Byte) (r : ListRun) (w : Nat) (d : Dev) : Dev :=
  match op with
  | 2 =>
    let c := listWord d p (r.pc + 1 + (fld w 15 8 + 3) / 4)
    if (bs.getD 0 0).toNat &&& fld c 15 8 = fld c 7 0 then d else endRun p 0x07 r.pc (fld w 26 20) d
  | 4 => readBuf p ((bs ++ List.replicate 16 0).take (fld w 7 0)) d
  | _ => d

/-- No attempt of the present transaction has failed. -/
def firstTry (r : ListRun) : Bool := r.nacks = 0 && r.losts = 0

/-- LIST_WRITE, LIST_CHECK and LIST_READ: the first attempt of a transaction. -/
def listTxn (p op : Nat) (l : Lines) (out : WireOut) (bs : List Byte) (d : Dev) : Dev :=
  transaction p op firstTry l out (opDone p op bs) d

/-- The opcode at the running list's place. -/
def runOp (d : Dev) (p : Nat) : Nat := match (twPort d p).run with
  | some r => fld ((listOp d p r).getD 0) 31 28
  | none => 0

/-- ADDR_RETRY (R553). -/
def addrRetry (p : Nat) (l : Lines) (out : WireOut) (bs : List Byte) (d : Dev) : Dev :=
  transaction p (runOp d p) (fun r => r.nacks ≠ 0) l out (opDone p (runOp d p) bs) d

/-- ARB_LOST_RETRY (R554). -/
def arbRetry (p : Nat) (l : Lines) (out : WireOut) (bs : List Byte) (d : Dev) : Dev :=
  transaction p (runOp d p) (fun r => r.losts ≠ 0) l out (opDone p (runOp d p) bs) d

/-- STRETCH_TIMEOUT: a target stretches SCL beyond STRETCH_LIMIT in a list's transaction; the bus is recovered and the
transaction fails with TIMEOUT (R554). -/
def stretchTimeout (p : Nat) (l : Lines) (d : Dev) : Dev :=
  match (twPort d p).run with
  | none => d
  | some r =>
    match listOp d p r with
    | none => d
    | some w =>
      let op := fld w 31 28
      if !(op = 1 || op = 2 || op = 4) || r.stop || (twPort d p).mode = .stuck then d
      else
        let d0 := if firstTry r then twCount p 0 d else d
        let c := lineCheck p l d0
        if c.1 then endRun p 0x05 r.pc (fld w 26 20) c.2 else c.2

/-- LIST_DELAY: a DELAY begins, or ends when its time is over (R556). -/
def listDelay (p : Nat) (d : Dev) : Dev :=
  match (twPort d p).run with
  | none => d
  | some r =>
    match listOp d p r with
    | none => d
    | some w =>
      if fld w 31 28 ≠ 3 || r.stop then d
      else match r.till with
        | none => updTw p (fun x => { x with run := some { r with till := some (tick d + fld w 15 0) } }) d
        | some t => if t ≤ tick d then nextOp p 1 d else d

/-- LIST_END: the list completes at END, fails at a reserved opcode or past LENGTH, or is ABORTED at a transaction
boundary (R555, R558, R559). -/
def listEnd (p : Nat) (d : Dev) : Dev :=
  match (twPort d p).run with
  | none => d
  | some r =>
    if r.stop then endRun p 0x08 0 0 d
    else match listOp d p r with
      | none => endRun p 0x0A r.pc r.req.index d
      | some w =>
        match opWords w with
        | none => endRun p 0x0A r.pc r.req.index d
        | some n =>
          if !opFits r n then endRun p 0x0A r.pc r.req.index d
          else if fld w 31 28 = 0 then endRun p 0 0 0 d else d

/-! ### List RAM and directory (R555) -/

/-- Lists that run or are queued on a port. -/
def activeLists (d : Dev) (p : Nat) : List Nat :=
  let x := twPort d p
  (match x.run with
   | some r => [r.req.index]
   | none => []) ++ x.queue.map (·.index)

/-- LIST_DIR_WRITE. -/
def listDirWrite (p k v : Nat) (d : Dev) : Dev :=
  if (activeLists d p).contains k then flag0 T.TWC p 10 k d else wr (kW p (0x100 + 4 * k)) (v &&& 0x8F3FF3FF) d

/-- The list, running or queued, that a RAM word lies in. -/
def wordBusy (d : Dev) (p i : Nat) : Option Nat :=
  (activeLists d p).find? (fun k => let w := listDir d p k; inR i (dirStart w) (dirLen w))

/-- LRAM_SEL, and its advance after each access to LRAM_DATA. -/
def lramSel (d : Dev) (p : Nat) : Nat := rdF d (kW p 0x080) 9 0
def lramNext (p : Nat) (d : Dev) : Dev := wr (kW p 0x080) ((lramSel d p + 1) % 1024) d

/-- A write of LRAM_DATA. -/
def lramWrite (p v : Nat) (d : Dev) : Dev :=
  let i := lramSel d p
  lramNext p (match wordBusy d p i with
    | some k => flag0 T.TWC p 10 k d
    | none => updTw p (fun x => { x with ram := Map.set (fun _ => 0) x.ram i (v % 2 ^ 32) }) d)

/-! ### The governor on BUS1 (R560) -/

/-- The ULINEAR16 word of a VCORE in mV (R85); whether one that falls between two words is rounded down or up is not stated
(log entry 171). -/
def voutWord (mv : Nat) (d : Dev) : Nat × Dev :=
  let e := toSigned 5 (rdF d (kV 1 0x040) 15 11)
  let n := if e < 0 then mv * 2 ^ e.natAbs else mv
  let m := if e < 0 then 1000 else 1000 * 2 ^ e.natAbs
  if n % m = 0 then (n / m % 65536, d) else let v := draw d; ((n / m + v.1.toNat % 2) % 65536, v.2)

/-- The bytes of a governor transaction (R560): PAGE, VOUT_COMMAND or READ_VOUT at PMBUS_ADDR, with PEC when PEC_EN is 1. -/
def govWire (t : GovTxn) (d : Dev) : List Byte × Dev :=
  let addr := rdF d (kV 1 0x040) 6 0
  let pec := rdB d (kV 1 0x040) 8
  match t with
  | .page => (wireBytes addr (some [0x00, BitVec.ofNat 8 (rdF d (kV 1 0x040) 19 16)]) false pec, d)
  | .vout mv _ =>
    let w := voutWord mv d
    (wireBytes addr (some (0x21 :: leBytes 2 w.1)) false pec, w.2)
  | .read => (wireBytes addr (some [0x8B]) true pec, d)

/-- A governor transaction starts on BUS1, with the check of the lines that goes before a START (R552); in STUCK it fails at
once. -/
def govOnBus (l : Lines) (f : Dev → Dev) (d : Dev) : Dev :=
  let d1 := f d
  match d1.gov.txn with
  | none => d
  | some t =>
    if d.gov.txn.isSome then d
    else if (twPort d1 1).mode = .stuck then govFailed 0x04 d1
    else
      let i := injectedLines 1 l (twCount 1 5 (twCount 1 0 d1))
      let c := lineCheck 1 i.1 i.2
      if c.1 then (let w := govWire t c.2; updTw 1 (fun x => { x with wire := w.1 }) w.2) else govFailed 0x04 c.2

/-- The flag of BUS1 for the status with which a governor transaction ends, and the count of a NACKed address. -/
def govFlags (status : Nat) (d : Dev) : Dev :=
  let addr := rdF d (kV 1 0x040) 6 0
  match status with
  | 1 => twCount 1 1 (flag0 T.TWC 1 0 addr d)
  | 2 => flag0 T.TWC 1 1 addr d
  | 3 => flag0 T.TWC 1 2 0 d
  | 5 => flag0 T.TWC 1 4 addr d
  | 6 => flag0 T.TWC 1 5 addr d
  | _ => d

/-- PMBUS_TRANSACTION_DONE with what it does to BUS1: a NACKed address is counted, and a failure sets the port's flag. After
SCL stretched beyond its limit the port runs recovery, and the repeated START of READ_VOUT is checked as any START is; a bus
that stays low is STUCK (R552, R554). -/
def govOffBus (status word : Nat) (l : Lines) (d : Dev) : Dev :=
  if d.gov.txn.isNone then d
  else
    let inj := (armed d T.TWC 1 0 0).isSome
    let d0 := if inj then fired T.TWC 1 0 d else d
    let st := if inj then 0x01 else status
    if st = 4 || st = 5 then
      let c := lineCheck 1 l d0
      if !c.1 then startNext 1 (pmbusDone 0x04 word c.2)
      else if st = 4 then c.2
      else startNext 1 (pmbusDone 0x05 word (govFlags 0x05 c.2))
    else startNext 1 (pmbusDone st word (govFlags st d0))

end Sys2Proof.Machine
end

