-- ==== Sys2Proof/Machine/Hmi.lean ====
section
/-! DEFINITION. Touch, buttons, lights and hot-plug inputs (chapter 18). -/

namespace Sys2Proof.Machine

/-- Keys of the HMI pages. -/
def kM (page off : Nat) : Nat := rk T.HMI 0 page off

/-- Changing the block. -/
def updHmi (f : HmiState → HmiState) (d : Dev) : Dev := { d with hmi := f d.hmi }

/-- An input, by its id (R563). -/
def hmiIn (d : Dev) (i : Nat) : HmiIn := Map.get (fun _ => ({} : HmiIn)) d.hmi.ins i

/-- Changing an input. -/
def updIn (i : Nat) (f : HmiIn → HmiIn) (d : Dev) : Dev :=
  { d with hmi := { d.hmi with ins := Map.upd (fun _ => ({} : HmiIn)) d.hmi.ins i f } }

/-- The count of AON cycles: RTC_NOW (R124, R564). -/
def aonNow (d : Dev) : Nat := rd64 d (kAon 0 0x040)

/-- Fields of INPUT_CFG and INPUT_TIME. -/
def evtEn (d : Dev) (i : Nat) : Bool := rdB d (kM 0 (0x080 + 8 * i)) 31
def inPol (d : Dev) (i : Nat) : Bool := rdB d (kM 0 (0x080 + 8 * i)) 30
def inRoute (d : Dev) (i : Nat) : Nat := rdF d (kM 0 (0x080 + 8 * i)) 29 26
def debounceMs (d : Dev) (i : Nat) : Nat := min 64 (rdF d (kM 0 (0x080 + 8 * i)) 22 16)
def gapMs (d : Dev) (i : Nat) : Nat := rdF d (kM 0 (0x080 + 8 * i)) 15 8
def rearmQs (d : Dev) (i : Nat) : Nat := max 1 (rdF d (kM 0 (0x084 + 8 * i)) 15 8)
def stuckQs (d : Dev) (i : Nat) : Nat := rdF d (kM 0 (0x084 + 8 * i)) 7 0

/-- Milliseconds and quarter-seconds of input time in AON cycles (R564). -/
def inputMs (n : Nat) : Nat := 33 * n
def quarterSec (n : Nat) : Nat := 8192 * n

/-- Whether an input is active, by its debounced level and POL (R563, R566). -/
def inActive (d : Dev) (i : Nat) : Bool :=
  if i < 8 then (hmiIn d i).level else (hmiIn d i).level != inPol d i

/-- The reported level: inactive while masked (R568). -/
def reported (d : Dev) (i : Nat) : Bool := inActive d i && !(hmiIn d i).masked

/-- LEVELS, MASKED and RAW_LEVELS follow an input. -/
def showInput (i : Nat) (d : Dev) : Dev :=
  wrB (kM 0 0x048) i (hmiIn d i).pin (wrB (kM 0 0x044) i (hmiIn d i).masked (wrB (kM 0 0x040) i (reported d i) d))

/-- A counter of the HMI pages, which saturates at 0xFFFF. -/
def bump16 (k : Nat) (d : Dev) : Dev := wr k (satAdd 16 (rd d k) 1) d

/-! ### Events (R567, R578) -/

/-- Whether events of an input are posted now. -/
def eventsOn (d : Dev) (i : Nat) : Bool := enabled d T.HMI 0 && evtEn d i && d.pwr.state = .run

/-- An HMI_INPUT event of an input, stamped with the tick of its change and the quality it had then (R76, R578). -/
def hmiEvent (i sub changes stamp : Nat) (degr : Bool) (d : Dev) : Event :=
  { kind := 0x50, subkind := sub, subject := inRoute d i, detail := changes % 65536 * 65536 + i, stamp := some (stamp, degr) }

/-- Posting the present level; MIN_GAP begins. -/
def postLevel (i : Nat) (d : Dev) : Dev :=
  let x := hmiIn d i
  let r := reported d i
  let g := gapMs d i
  updIn i (fun x => { x with posted := r, changes := 0, blocked := false
                             gapEnd := if g = 0 then 0 else aonNow d + inputMs g + 1 })
    (post (inRoute d i) (hmiEvent i (b2n r) x.changes x.changed x.degr d) d)

/-- An event waits for room in the FIFO, behind those that wait already (R578). -/
def hmiWaits (e : HmiEvent) (d : Dev) : Dev :=
  flag0 T.HMI 0 6 0 (updHmi (fun h => { h with waiting := h.waiting ++ [e] }) d)

/-- One event that has waited goes: STUCK and REARMED to compartment 0 too, a level only where it differs from the one
posted last. One whose input has its events off goes on waiting (log entry 161). -/
def hmiGoes (e : HmiEvent) (d : Dev) : Dev :=
  if !eventsOn d e.input then updHmi (fun h => { h with waiting := h.waiting ++ [e] }) d
  else if e.subkind ≠ 0 then postBoth (hmiEvent e.input e.subkind 0 e.tick e.degr d) d
  else if reported d e.input = (hmiIn d e.input).posted then updIn e.input (fun x => { x with blocked := false }) d
  else postLevel e.input d

/-- Events that wait go, in order, once there is room. -/
def flushWaiting (d : Dev) : Dev := each d.hmi.waiting hmiGoes (updHmi (fun h => { h with waiting := [] }) d)

/-- Room in the FIFO is used first by what waits (R578). -/
def hmiRoom (full : Bool) (d : Dev) : Dev := if full then d else flushWaiting d

/-- A STUCK or REARMED event; it waits for room when the event FIFO is full. -/
def maskEvent (i sub : Nat) (full : Bool) (d : Dev) : Dev :=
  if !eventsOn d i then d
  else if full then hmiWaits ⟨i, sub, tick d, degraded d⟩ d
  else
    let d1 := hmiRoom full d
    postBoth (hmiEvent i sub 0 (tick d) (degraded d) d1) d1

/-- A level that finds the FIFO full waits, and what happens to the input until there is room is coalesced (R567). -/
def levelWaits (i : Nat) (d : Dev) : Dev :=
  if (hmiIn d i).blocked then d
  else hmiWaits ⟨i, 0, tick d, degraded d⟩ (updIn i (fun x => { x with blocked := true }) d)

/-- The gap of an input ends: a level different from the one last posted is posted (R567). -/
def gapOver (i : Nat) (full : Bool) (d : Dev) : Dev :=
  let d1 := updIn i (fun x => { x with gapEnd := 0 }) d
  if (hmiIn d1 i).blocked || reported d1 i = (hmiIn d1 i).posted || !eventsOn d1 i then d1
  else if full then levelWaits i d1
  else postLevel i d1

/-- A change of the reported level: it is posted, or coalesced inside a gap (R567). One at the end of its gap is included
in the event posted then (R581). -/
def levelEvent (i : Nat) (full : Bool) (d : Dev) : Dev :=
  let d1 := updIn i (fun x => { x with changed := tick d, degr := degraded d }) d
  if !eventsOn d1 i then d1
  else
    let d2 := hmiRoom full d1
    let x := hmiIn d2 i
    let inGap := x.blocked || decide (aonNow d2 + 1 ≤ x.gapEnd)
    if !inGap && !full then postLevel i d2
    else
      let d3 := flag0 T.HMI 0 0 i (bump16 (kM 0 (0x1A0 + 4 * i)) (updIn i (fun x => { x with changes := x.changes + 1 }) d2))
      if !inGap then levelWaits i d3
      else if x.gapEnd = aonNow d3 + 1 then gapOver i full d3 else d3

/-! ### Levels, masking and re-arm (R566 to R569) -/

/-- BASE is set to RAW (R571, R574). -/
def baseIs (c : Nat) (d : Dev) : Dev :=
  wr (kM 0 (0x164 + 8 * c)) (16 * (hmiIn d c).raw) (updIn c (fun x => { x with base := 16 * x.raw, based := true }) d)

/-- An input is masked as stuck (R568, R574). -/
def maskInput (i : Nat) (full : Bool) (d : Dev) : Dev :=
  if (hmiIn d i).masked then d
  else
    let d1 := showInput i (updIn i (fun x => { x with masked := true, posted := false, rose := false, changed := tick d, degr := degraded d }) d)
    let d2 := maskEvent i 2 full (flag0 T.HMI 0 1 i d1)
    if i < 8 then baseIs i d2 else d2

/-- An injected stuck input is masked while it is active (HMI INJECT). -/
def injectStuck (i : Nat) (full : Bool) (d : Dev) : Dev :=
  match armed d T.HMI 0 0 1 with
  | some p => if p % 32 = i && inActive d i then maskInput i full (fired T.HMI 0 0 d) else d
  | none => d

/-- The input's level may have changed: `before` is what it was. -/
def levelChanged (i : Nat) (before : Bool) (full : Bool) (d : Dev) : Dev :=
  if inActive d i = before then showInput i d
  else
    let up := inActive d i
    let asleep := d.pwr.state = .dormant || (d.pwr.state = .seqDown && d.pwr.goal = .dormant)
    let d1 := showInput i (updIn i (fun x => { x with since := aonNow d, rose := x.rose || (asleep && up && !x.masked) }) d)
    if (hmiIn d1 i).masked then d1
    else if up && (armed d1 T.HMI 0 0 1).any (fun p => p % 32 = i) then injectStuck i full d1
    else levelEvent i full d1

/-- The debounced level takes a value. -/
def setLevel (i : Nat) (v : Bool) (full : Bool) (d : Dev) : Dev :=
  levelChanged i (inActive d i) full (updIn i (fun x => { x with level := v }) d)

/-- DEBOUNCE_EXPIRE: the pin has held its level for DEBOUNCE (R566). -/
def debounceEnds (i : Nat) (full : Bool) (d : Dev) : Dev :=
  let x := hmiIn d i
  if i < 8 || 22 < i || x.pin = x.level || aonNow d < x.pinAt + inputMs (debounceMs d i) then d else setLevel i x.pin full d

/-- PIN_LEVEL_CHANGE: the debounce time starts again; with a DEBOUNCE of 0 the level follows the pin (R566). Without VAON
nothing runs: the pin has its level, which the next power-on reset takes (log entry 162). -/
def pinChanges (i : Nat) (v : Bool) (full : Bool) (d : Dev) : Dev :=
  if i < 8 || 22 < i || (hmiIn d i).pin = v then d
  else if d.pwr.state = .off then updIn i (fun x => { x with pin := v, level := v }) d
  else debounceEnds i full (showInput i (updIn i (fun x => { x with pin := v, pinAt := aonNow d }) d))

/-- Whether the stuck time of an active input has passed (R568). -/
def stuckDue (d : Dev) (i : Nat) : Bool :=
  stuckQs d i ≠ 0 && inActive d i && !(hmiIn d i).masked && decide ((hmiIn d i).since + quarterSec (stuckQs d i) ≤ aonNow d)

/-- STUCK_EXPIRE: a touch channel's stuck time is compared at its scans (R573); a level that goes inactive in the same AON
cycle acts first, and nothing is masked (R581). -/
def stuckEnds (i : Nat) (full : Bool) (d : Dev) : Dev :=
  let d1 := debounceEnds i full d
  if 22 < i || !stuckDue d1 i || (i < 8 && d1.hmi.scanned ≠ aonNow d1 + 1) then d1 else maskInput i full d1

/-- Whether a masked input has been inactive for its re-arm time (R569). -/
def rearmDue (d : Dev) (i : Nat) : Bool :=
  let x := hmiIn d i
  let idle := if i < 8 then !x.pin else !inActive d i
  x.masked && idle && decide ((if i < 8 then x.pinAt else x.since) + quarterSec (rearmQs d i) ≤ aonNow d)

/-- The channels of DORMANT_CFG. -/
def dormantChannels (d : Dev) : List Nat :=
  let w := rd d (kAon 0 0x05C)
  (if bit w 8 then [fld w 2 0] else []) ++ (if bit w 9 && !(bit w 8 && fld w 6 4 = fld w 2 0) then [fld w 6 4] else [])

/-- Whether the re-arm of an input goes on: in every power state for buttons, hot-plug inputs and the Dormant touch
channels, for other touch channels only while RUN scanning runs (R569). -/
def rearmRuns (d : Dev) (i : Nat) : Bool :=
  8 ≤ i || (dormantChannels d).contains i
    || (enabled d T.HMI 0 && rdB d (kM 0 0x04C) (16 + i) && decide (d.pwr.state = .run))

/-- REARM_EXPIRE (R569); a level that goes active in the same AON cycle acts first, and the time starts again (R581). -/
def rearmEnds (i : Nat) (full : Bool) (d : Dev) : Dev :=
  let d1 := debounceEnds i full d
  if 22 < i || !rearmDue d1 i || !rearmRuns d1 i then d1
  else maskEvent i 3 full (flag0 T.HMI 0 2 i (showInput i (updIn i (fun x =>
    { x with masked := false, posted := false, unscanned := false }) d1)))

/-- EVENT_GAP_END: a gap ends, or the FIFO has room again; a level different from the one last posted is posted (R567). A
change of level in the same AON cycle acts first (R581). -/
def gapEnds (i : Nat) (full : Bool) (d : Dev) : Dev :=
  let d1 := debounceEnds i full (hmiRoom full d)
  if (hmiIn d1 i).gapEnd = 0 || aonNow d1 + 1 < (hmiIn d1 i).gapEnd then d1 else gapOver i full d1

/-- INPUT_CFG_WRITE: a change of POL changes the input's level at once (R566). -/
def inputCfg (i v : Nat) (full : Bool) (d : Dev) : Dev :=
  let before := inActive d i
  let w := v &&& 0xFC7FFF00
  levelChanged i before full (wr (kM 0 (0x080 + 8 * i)) (setFld w 22 16 (min 64 (fld w 22 16))) d)

/-! ### Touch (R570 to R574, R576) -/

/-- TOUCH_TH, NEG_TH and BASE_SHIFT of a channel. -/
def touchTh (d : Dev) (c : Nat) : Nat := rdF d (kM 0 (0x140 + 4 * c)) 31 20
def negTh (d : Dev) (c : Nat) : Nat := rdF d (kM 0 (0x140 + 4 * c)) 19 8
def baseShift (d : Dev) (c : Nat) : Nat := rdF d (kM 0 (0x140 + 4 * c)) 3 0

/-- delta of a measurement (R571). -/
def touchDelta (raw base : Nat) : Int := (raw : Int) - ((base + 8) / 16 : Nat)

/-- TOUCH_DATA follows a channel. -/
def showTouch (c : Nat) (delta : Int) (d : Dev) : Dev :=
  let x := hmiIn d c
  wr (kM 0 (0x164 + 8 * c)) x.base (wr (kM 0 (0x160 + 8 * c)) (ofSigned 16 delta * 65536 + x.raw % 65536) d)

/-- The candidate level takes a value (R572). -/
def setCandidate (c : Nat) (v : Bool) (d : Dev) : Dev :=
  if (hmiIn d c).pin = v then d else showInput c (updIn c (fun x => { x with pin := v, pinAt := aonNow d }) d)

/-- The baseline follows a measurement (R571): `snap` when the pad has dropped by NEG_TH. -/
def moveBase (c : Nat) (delta : Int) (d : Dev) : Dev :=
  let x := hmiIn d c
  if delta ≤ -(negTh d c : Int) then flag0 T.HMI 0 4 c (bump16 (kM 0 0x204) (baseIs c d))
  else if !x.pin && decide (delta < (touchTh d c : Int)) then
    let step := ((16 * x.raw : Nat) - (x.base : Int)).fdiv (2 ^ baseShift d c : Nat)
    updIn c (fun x => { x with base := ((x.base : Int) + step).toNat % 2 ^ 20 }) d
  else d

/-- One channel at a scan (R571 to R574). A RAW at its limit makes no channel active (R627). -/
def scanChannel (c raw : Nat) (full : Bool) (d : Dev) : Dev :=
  let d1 := updIn c (fun x => { x with raw := raw, keep := false, based := x.based || x.keep }) d
  let first := !(hmiIn d1 c).based
  let d2 := if first then baseIs c d1 else d1
  let delta := touchDelta raw (hmiIn d2 c).base
  let d3 := if first then d2 else moveBase c delta d2
  let th : Int := touchTh d c
  let d4 := if th ≤ delta then (if raw = 0xFFFF then d3 else setCandidate c true d3)
            else if delta < th - (touchTh d c / 4 : Nat) then setCandidate c false d3 else d3
  let x := hmiIn d4 c
  let d5 := if x.pin ≠ x.level && !(x.pin && raw = 0xFFFF) && decide (x.pinAt + inputMs (debounceMs d4 c) ≤ aonNow d4) then
      setLevel c x.pin full d4 else d4
  let d6 := if stuckDue d5 c then maskInput c full d5 else d5
  showTouch c delta (rearmEnds c full d6)

/-- TOUCH_SCAN: the enabled channels in ascending order; `slow` says that the scan took longer than SCAN_MS (R570). -/
def touchScan (raws : List Nat) (slow full : Bool) (d : Dev) : Dev :=
  let next := if d.hmi.scanned = 0 then 0 else d.hmi.scanned - 1 + inputMs (max 1 (rdF d (kM 0 0x04C) 31 24))
  if !enabled d T.HMI 0 || d.pwr.state ≠ .run || aonNow d < next then d
  else
    let chans := (List.range 8).filter (fun c => rdB d (kM 0 0x04C) (16 + c))
    let d1 := updHmi (fun h => { h with scanned := aonNow d + 1 }) d
    let d2 := each chans (fun c d => scanChannel c (raws.getD c 0 % 65536) full d) d1
    if slow then flag0 T.HMI 0 3 0 d2 else d2

/-- A channel that is enabled, and every channel when ENABLE is set, starts its baseline anew at its first scan; that scan
still finds the BASE which a wake has kept (R571, R576). -/
def rebase (cs : List Nat) (d : Dev) : Dev :=
  each cs (fun c d => updIn c (fun x => { x with based := false }) d) d

/-- SCAN_CFG is written. -/
def scanCfg (v : Nat) (d : Dev) : Dev :=
  let old := rdF d (kM 0 0x04C) 23 16
  let w := v &&& 0xFFFF07FF
  let w2 := setFld (setFld w 10 0 (clamp 64 1024 (fld w 10 0))) 31 24 (max 1 (fld w 31 24))
  rebase ((List.range 8).filter (fun c => bit v (16 + c) && !bit old c)) (wr (kM 0 0x04C) w2 d)

/-- Dormant entry: the two channels keep their thresholds and BASE, and are not scanned while masked now (R576); no rise
from before is a wake (R125, R577). -/
def hmiSleep (d : Dev) : Dev :=
  let d1 := each (List.range 23) (fun i d => if (hmiIn d i).rose then updIn i (fun x => { x with rose := false }) d else d) d
  updHmi (fun h => { h with dormant := (dormantChannels d).map (fun c => (c, touchTh d c, negTh d c)) })
    (each (dormantChannels d) (fun c d => updIn c (fun x =>
      { x with keep := x.keep || x.based, hits := 0, unscanned := x.masked }) d) d1)

/-- One Dormant channel at a quarter-second scan (R576); its re-arm goes on there (R569, R574). -/
def dormantChannel (c th neg raw : Nat) (d : Dev) : Dev :=
  if (hmiIn d c).unscanned then rearmEnds c false d
  else
    let d1 := updIn c (fun x => { x with raw := raw, keep := true }) d
    let first := !(hmiIn d c).keep
    let d2 := if first then baseIs c d1 else d1
    let x := hmiIn d2 c
    let delta := touchDelta raw x.base
    let d3 := if first then d2
      else if delta ≤ -(neg : Int) then flag0 T.HMI 0 4 c (bump16 (kM 0 0x204) (baseIs c d2))
      else if delta < (th / 2 : Nat) then
        updIn c (fun x => { x with base := if x.base + 16 ≤ 16 * raw then x.base + 16
          else if 16 * raw + 16 ≤ x.base then x.base - 16 else 16 * raw }) d2
      else d2
    let d6 :=
      if (th : Int) ≤ delta && raw ≠ 0xFFFF then
        let d4 := setCandidate c true (updIn c (fun x => { x with hits := x.hits + 1 }) d3)
        let d5 := if 2 ≤ (hmiIn d4 c).hits && !(hmiIn d4 c).level then setLevel c true false d4 else d4
        if stuckDue d5 c then maskInput c false d5 else d5
      else
        let d4 := updIn c (fun x => { x with hits := 0 }) d3
        if delta < (th : Int) - (th / 4 : Nat) then
          (let d5 := setCandidate c false d4; if (hmiIn d5 c).level then setLevel c false false d5 else d5)
        else d4
    rearmEnds c false d6

/-- DORMANT_TOUCH_SCAN: the measurements of channels A and B. -/
def dormantScan (rawA rawB : Nat) (d : Dev) : Dev :=
  if d.pwr.state ≠ .dormant || (d.hmi.scanned ≠ 0 && decide (aonNow d + 1 < d.hmi.scanned + quarterSec 1)) then d
  else
    let d1 := updHmi (fun h => { h with scanned := aonNow d + 1 }) d
    let a := fld (rd d (kAon 0 0x05C)) 2 0
    each d.hmi.dormant (fun x d =>
      dormantChannel x.1 x.2.1 x.2.2 ((if x.1 = a && rdB d (kAon 0 0x05C) 8 then rawA else rawB) % 65536) d) d1

/-! ### Wake (R125, R577) -/

/-- The wake bit of an input, where it is a wake source: a Dormant touch channel, a button or a hot-plug input (R563). -/
def wakeBit (d : Dev) (i : Nat) : Option Nat :=
  if i < 8 then (if (dormantChannels d).contains i then some 3 else none) else some (i - 4)

/-- Inputs whose change to active is a wake still to come. -/
def risen (d : Dev) : List Nat :=
  (List.range 23).filter (fun i => (hmiIn d i).rose && (match wakeBit d i with
    | some b => rdB d (kAon 0 0x050) b
    | none => false))

/-- A wake of an input is suppressed within WAKE_HOLDOFF of its previous one (R577). -/
def heldOff (d : Dev) (i : Nat) : Bool :=
  let h := rdF d (kM 0 0x050) 11 0
  h ≠ 0 && (hmiIn d i).lastWake ≠ 0 && decide (aonNow d < (hmiIn d i).lastWake - 1 + 32768 * h)

/-- WAKE_EVENT: the sources that became active in this AON cycle: inputs that have risen, and the management address when
`mgmt` (R125, R537, R577). -/
def wakeEvent (mgmt : Bool) (d : Dev) : Dev :=
  let ups := risen d
  let d1 := each (List.range 23) (fun i d => if (hmiIn d i).rose then updIn i (fun x => { x with rose := false }) d else d) d
  let d2 := each ups (fun i d =>
    if heldOff d i then flag0 T.HMI 0 5 i (bump16 (kM 0 0x200) d) else d) d1
  let go := ups.filter (fun i => !heldOff d i)
  let d3 := each go (fun i d => updIn i (fun x => { x with lastWake := aonNow d + 1 }) d) d2
  let mask := go.foldl (fun m i => match wakeBit d i with
    | some b => setBit m b
    | none => m) (b2n mgmt * 2)
  wakeSources mask d3

/-- AON_CYCLE: RTC_NOW advances, and with it every time that the always-on island counts (R124, R564). -/
def aonCycle (d : Dev) : Dev := wrap64By (kAon 0 0x040) 1 d

/-! ### Resets (R565) -/

/-- What a warm reset or a cold restart leaves of the block: the input half and the BASE of the Dormant channels, which
stands until their first scan after the wake (R565, R576). -/
def hmiKept (d : Dev) : HmiState :=
  { ins := d.hmi.ins.map (fun (e : Nat × HmiIn) =>
      (e.1, { e.2 with based := false })),
    dormant := d.hmi.dormant }

/-- LEVELS, MASKED and RAW_LEVELS after a reset of the registers. -/
def showInputs (d : Dev) : Dev := each (List.range 23) showInput d

/-! ### Lights (R579, R580) -/

/-- An LED. -/
def getLed (d : Dev) (k : Nat) : Led := Map.get (fun _ => ({} : Led)) d.hmi.leds k

/-- Changing an LED; LED_POS shows its slot. -/
def updLed (k : Nat) (f : Led → Led) (d : Dev) : Dev :=
  let x := f (getLed d k)
  wr (kM 1 (0x04C + 16 * k)) x.slot
    { d with hmi := { d.hmi with leds := Map.set (fun _ => ({} : Led)) d.hmi.leds k x } }

/-- SLOT_MS and LEN of an LED. -/
def ledSlotMs (d : Dev) (k : Nat) : Nat := max 1 (rdF d (kM 1 (0x040 + 16 * k)) 15 0)
def ledLen (d : Dev) (k : Nat) : Nat := rdF d (kM 1 (0x040 + 16 * k)) 24 20 + 1

/-- An LED's pattern restarts at slot 0. -/
def ledRestart (k : Nat) (d : Dev) : Dev := updLed k (fun x => { x with slot := 0, ends := tick d + 1000 * ledSlotMs d k }) d

/-- LED_CTRL_WRITE: SLOT_MS is at least 1 (R645). -/
def ledCtrl (k v : Nat) (d : Dev) : Dev :=
  let w := v &&& 0xC1F0FFFF
  ledRestart k (wr (kM 1 (0x040 + 16 * k)) (setFld w 15 0 (max 1 (fld w 15 0))) d)

/-- LED_RESTART. -/
def ledRestarts (mask : Nat) (d : Dev) : Dev := each ((List.range 4).filter (fun k => mask.testBit k)) ledRestart d

/-- LED_SLOT_ADVANCE. -/
def ledAdvance (k : Nat) (d : Dev) : Dev :=
  let x := getLed d k
  if x.ends = 0 || tick d < x.ends then d
  else updLed k (fun x => { x with slot := if x.slot + 1 < ledLen d k then x.slot + 1 else 0
                                   ends := x.ends + 1000 * ledSlotMs d k }) d

/-- Whether an output is driven. -/
def ledDriven (d : Dev) (k : Nat) : Bool := enabled d T.HMI 0 && rdB d (kM 1 (0x040 + 16 * k)) 31 && d.pwr.state = .run

/-- The level of an output in an HMI cycle of its period of 4,096: active for D cycles from the start of the period, low
when INVERT is 1, and none while it is high-impedance (R579). -/
def ledLevel (d : Dev) (k cycle : Nat) : Option Bool :=
  if ledDriven d k then some (decide (cycle % 4096 < (getLed d k).duty) != rdB d (kM 1 (0x040 + 16 * k)) 30) else none

/-- PWM_PERIOD_BOUNDARY: a new D takes effect (R579). -/
def pwmBoundary (k : Nat) (d : Dev) : Dev :=
  let on := rdB d (kM 1 (0x048 + 16 * k)) (getLed d k).slot
  let w := rd d (kM 1 (0x044 + 16 * k))
  updLed k (fun x => { x with duty := if ledDriven d k then (if on then fld w 27 16 else fld w 11 0) else 0 }) d

end Sys2Proof.Machine
end

