-- ==== Sys2Proof/Machine/Service.lean ====
section
/-! DEFINITION. Background services and telemetry (chapter 15): yard scrub, patrol debt, recalibration windows, the margin
probe, aging, samples, records and snapshots. -/

namespace Sys2Proof.Machine

/-- Keys of the BGS and TLM pages. -/
def kBg (page off : Nat) : Nat := rk T.BGS 0 page off
def kTl (page off : Nat) : Nat := rk T.TLM 0 page off

/-! ### Yard scrub (R481, R482) -/

/-- Bank rows of a cluster. -/
def scrubRows : Nat := 24576

/-- Whether a row is skipped: its page sweeps, as every page of a cluster in a unit reset does, or its cluster is stabled
(R482, R176). -/
def rowSkipped (d : Dev) (s row : Nat) : Bool :=
  unitState d T.YRD s = .stabled || rdB d (kCTRL T.YRD s) 1 || (getPage d (s * 768 + row / 32)).sweeping

/-- Rows a cluster has issued in the current 1,000 ticks. -/
def rowsIssued (d : Dev) (s : Nat) : Nat :=
  let p := Map.get (fun _ => (0, 0)) d.tlm.paced s
  if p.1 = tick d / 1000 then p.2 else 0

/-- Whether a cluster's next row is due: YS_ROWS rows are spread evenly over each 1,000 ticks (R481). -/
def rowDue (d : Dev) (s : Nat) : Bool :=
  let rows := rd d (kBg 0 0x044)
  decide (rowsIssued d s < rows) && decide (rowsIssued d s * 1000 < (tick d % 1000 + 1) * rows)

/-- A cell with one corrected bit, by its number. -/
def fixable (d : Dev) (n : Nat) : Option (Nat × Cell39) := match (getCell d n).decode with
  | .corrected _ => some (n, getCell d n)
  | _ => none

/-- YARD_SCRUB_ROW: a cluster reads its next row; the cells with a corrected bit are to be written back. -/
def scrubRow (s : Nat) (d : Dev) : Dev :=
  if !rdB d (kBg 0 0x040) 0 || !enabled d T.BGS 0 || 64 ≤ s || !rowDue d s then d
  else
    let row := Map.get (fun _ => 0) d.tlm.rows s
    let next := (row + 1) % scrubRows
    let d1 := updTlm (fun t => { t with
      rows := Map.set (fun _ => 0) t.rows s next
      paced := Map.set (fun _ => (0, 0)) t.paced s (tick d / 1000, rowsIssued d s + 1) }) d
    let d2 := if next = 0 then bumpWrap (kBg 0 0x048) d1 else d1
    if rowSkipped d s row then d2
    else
      let first := s * 786432 + row * 32
      let bad := (List.range 32).filterMap (fun i => fixable d (first + i))
      let d3 := (readCells first 32 d2).2
      { d3 with yard := { d3.yard with scrubbed := d3.yard.scrubbed ++ bad } }

/-- SCRUB_WRITEBACK: each cell of a cluster is rewritten corrected, unless a foreground write has landed on it since it was
read. -/
def scrubWrite (s : Nat) (d : Dev) : Dev :=
  let mine := d.yard.scrubbed.filter (fun x => stationAt (4 * x.1) = s)
  let d1 := { d with yard := { d.yard with scrubbed := d.yard.scrubbed.filter (fun x => stationAt (4 * x.1) ≠ s) } }
  each mine (fun x d =>
    if getCell d x.1 ≠ x.2 then d
    else match x.2.decode with
      | .corrected w => putCell x.1 (goodCell w) d
      | _ => d) d1

/-! ### Patrol scrub (R483, R484) -/

/-- PATROL_DEBT_TICK: every 1,000 ticks the debt of each stack rises by its rate. -/
def patrolDebt (d : Dev) : Dev :=
  if tick d < d.tlm.debtAt then d
  else
    let d1 := updTlm (fun t => { t with debtAt := (tick d / 1000 + 1) * 1000 }) d
    each (List.range d.part.stacks) (fun p d =>
      let c := rd d (kS p 1 0x068)
      if !bit c 31 then d
      else
        let n := min 65535 ((stackOf d p).debt + fld c 15 0)
        let d2 := updStack p (fun x => { x with debt := n }) d
        if 16 * fld c 15 0 < n then flag0 T.BGS 0 0 p d2 else d2) d1

/-! ### Recalibration windows (R206, R488) -/

/-- The windows of a stack. -/
def recalOf (d : Dev) (p : Nat) : Recal := Map.get (fun _ => ({} : Recal)) d.tlm.recals p

/-- The period in force at a tick, and its first tick. -/
def recalNow (r : Recal) (t : Nat) : Nat × Nat := if r.from_ ≤ t then (r.next, r.from_) else (r.period, r.start)

/-- RECAL_PERIOD is written: it takes effect at the next start of a period (R488). -/
def recalPeriod (p v : Nat) (d : Dev) : Dev :=
  let ms := clamp 10 1000 (v % 65536)
  let c := recalNow (recalOf d p) (tick d)
  let b := c.2 + ((tick d - c.2) / max 1 c.1 + 1) * c.1
  let r : Recal := { period := c.1, start := c.2, next := 1000 * ms, from_ := b }
  updTlm (fun t => { t with recals := Map.set (fun _ => ({} : Recal)) t.recals p r }) (wr (kS p 0 0x058) ms d)

/-- RECAL_WINDOW: channel c of stack p starts its window at its tick; offline, it is skipped. -/
def recalWindow (p c : Nat) (d : Dev) : Dev :=
  let r := recalNow (recalOf d p) (tick d)
  let off := c * r.1 / 16 + p * r.1 / 64
  if d.part.stacks ≤ p || 16 ≤ c || tick d < r.2 + off || (tick d - r.2 - off) % max 1 r.1 ≠ 0 then d
  else if !stackOnline d p then flag0 T.BGS 0 2 p d
  else updStack p (fun x => { x with recal := some c }) d

/-! ### Margin and aging (R490 to R493) -/

/-- Whether BGS probes the margin: the module runs and its boot ROM has started, which began the probes (R491). -/
def marginProbes (d : Dev) : Bool := d.pwr.state = .run && d.pwr.warm = .idle && d.pwr.boot ≠ .idle

/-- MARGIN_PROBE: the margins of the 16 station groups; a short margin raises MARGIN_FLOOR by 5 mV and probes again 100 µs
later (R490 to R492). Once the probes of the boot are over, BOOT_DONE may set. -/
def marginProbe (ms : List Nat) (d : Dev) : Dev :=
  if !marginProbes d || tick d < d.tlm.probeAt then d
  else
    let at_ := fun g => min 15 (ms.getD g 0)
    let g := (List.range 16).foldl (fun b i => if at_ i < at_ b then i else b) 0
    let floor := rdF d (kV 1 0x054) 15 0
    let cfg := rd d (kBg 1 0x040)
    let d1 := wr (kBg 1 0x044) (g * 65536 + at_ g) d
    let wait := fun n d => updTlm (fun t => { t with probeAt := tick d + n }) d
    let probed := fun d => bootReleased (updTlm (fun t => { t with probeAt := tick d + 1000 * fld cfg 31 16, probing := false }) d)
    if fld cfg 3 0 ≤ at_ g then probed d1
    else if floor < 850 then
      wait 100 (bump (kBg 1 0x048) (flag0 T.GOV 0 7 0 (limited false (wr (kV 1 0x054) (min 850 (floor + 5))) d1)))
    else probed (flag0 T.BGS 0 3 g d1)

/-- AGING_MEASURE: the slowdown of each station in ppm (R493). -/
def agingMeasure (ppm : List Nat) (d : Dev) : Dev :=
  if !rdB d (kBg 0 0x040) 2 || tick d < d.tlm.ageAt then d
  else
    let cfg := rd d (kBg 1 0x04C)
    let d1 := updTlm (fun t => { t with ageAt := tick d + 1000000 * fld cfg 31 16 }) d
    each (List.range 64) (fun s d =>
      let v := min 65535 (ppm.getD s 0)
      let d2 := wr (kBg 1 (0x050 + 4 * s)) v d
      if fld cfg 15 0 < v then flag0 T.BGS 0 4 s d2 else d2) d1

/-! ### Samples (R495) -/

/-- TLM_SAMPLE. -/
def tlmSample (d : Dev) : Dev :=
  if tick d < d.tlm.sampled + rd d (kTl 0 0x040) || !tlmUp d then d
  else
    let d1 := wr64 (kTl 0 0x050) (tick d) (updTlm (fun t => { t with sampled := tick d }) d)
    let n := (rdF d (kTl 0 0x048) 15 0 + 1) % 65536
    let d2 := wr (kTl 0 0x048) (b2n (degraded d) * 2 ^ 31 + n) d1
    let words := [rd d (kV 1 0x048), d.gov.vcmd, rd d (kV 1 0x044), rd d (kV 1 0x058), pressureWord d, rd d (kV 1 0x054)]
    let d3 := foldBelow 6 (fun i d => wr (kTl 0 (0x058 + 4 * i)) (words.getD i 0) d) d2
    let d4 := foldBelow 18 (fun k d =>
      wr (kTl 0 (0x080 + 4 * k)) (if (tjSensors d.part).contains k then rd d (kV 1 (0x060 + 4 * k)) else 0) d) d3
    foldBelow 4 (fun p d => wr (kTl 0 (0x0D0 + 4 * p)) (if p < d.part.stacks then rdF d (kS p 0 0x044) 15 0 else 0) d) d4

/-! ### Counters (R496) -/

/-- COUNT[i] and CCOUNT[i] of a compartment. -/
def countOf (d : Dev) (i : Nat) : Nat := rd64 d (kTl 1 (0x040 + 8 * i))
def ccountOf (d : Dev) (n i : Nat) : Nat := rd64 d (kTl (4 + n) (0x040 + 8 * i))

/-- Words of the counts that run with the timing which this model leaves out: COACH_BUSY_STEPS and TPK_FLITS of the module,
COACH_STEPS of a compartment (log entry 63). -/
def runsOn (k : Nat) : Bool :=
  keyTy k = T.TLM && ((keyPage k = 1 && (inR (keyOff k) 0x058 8 || inR (keyOff k) 0x078 8))
    || (decide (4 ≤ keyPage k) && inR (keyOff k) 0x058 8))

/-- Such a count has run on by a free amount since it was last looked at, modulo 2^64 (R496). -/
def runOn (k : Nat) (d : Dev) : Dev :=
  if runsOn k && tlmUp d then (let v := draw d; wrap64By (k - k % 8) v.1.toNat v.2) else d

/-! ### Records (R497, R498) -/

/-- Writing a record acting for a compartment, without an event: whether it has landed or may yet (R171, R183). -/
def tlmWrite (cmp a : Nat) (bs : List Byte) (d : Dev) : Bool × Dev := ownWrite { who := .tlm, cmp := cmp, write := true } a bs d

/-- Change of a module count since the previous record. -/
def countSince (d : Dev) (i : Nat) : Nat := (countOf d i + 2 ^ 64 - d.tlm.last.getD i 0) % 2 ^ 64

/-- The highest stack temperature. -/
def stackTempMax (d : Dev) : Int :=
  (List.range d.part.stacks).foldl (fun m p => max m (toSigned 16 (rdF d (kS p 0 0x044) 15 0)))
    (toSigned 16 (rdF d (kS 0 0 0x044) 15 0))

/-- The module record; the coach busy fraction is a free value. -/
def moduleRecord (busy : Nat) (d : Dev) : List Byte :=
  let q := match ownPressure d with
    | some x => ofSigned 16 x.2
    | none => 0
  leBytes 8 (tick d) ++ leBytes 4 (rd64 d (kTl 1 0x110))
    ++ leBytes 2 (b2n (degraded d) * 32768 + b2n d.tlm.skipped * 16384) ++ leBytes 2 (ofSigned 16 (tjMax d).2)
    ++ leBytes 2 (ofSigned 16 (stackTempMax d)) ++ leBytes 2 d.gov.vcmd ++ leBytes 2 (rd d (kV 1 0x044))
    ++ leBytes 2 (rd d (kV 1 0x058)) ++ leBytes 2 q ++ leBytes 2 (rd d (kV 1 0x054)) ++ leBytes 2 (min 65535 (boostUsed d))
    ++ leBytes 2 (busy % 1001) ++ leBytes 4 (countSince d 0) ++ leBytes 4 (countSince d 1)
    ++ leBytes 4 (countSince d 6 / 2 ^ 20) ++ leBytes 4 (countSince d 5 / 2 ^ 20) ++ leBytes 4 (countSince d 10)
    ++ leBytes 4 (countSince d 11) ++ leBytes 2 (countSince d 13) ++ leBytes 2 (countSince d 14) ++ leBytes 4 0

/-- A compartment's record. -/
def cmpRecord (n : Nat) (d : Dev) : List Byte :=
  let last := Map.get (fun _ => []) d.tlm.cmps n
  let since := fun i => (ccountOf d n i + 2 ^ 64 - last.getD i 0) % 2 ^ 64
  leBytes 8 (tick d) ++ leBytes 4 (rd64 d (kTl (4 + n) 0x110)) ++ leBytes 1 n ++ leBytes 1 (b2n (degraded d) * 128) ++ [0, 0]
    ++ leBytes 4 (since 0) ++ leBytes 4 (since 1) ++ leBytes 4 (since 2) ++ leBytes 4 (since 3 / 1024) ++ leBytes 4 (since 4)
    ++ leBytes 4 (since 5 / 2 ^ 20) ++ leBytes 2 (ccountOf d n 6) ++ leBytes 2 (ccountOf d n 7) ++ leBytes 2 (ccountOf d n 8)
    ++ leBytes 2 (ccountOf d n 9) ++ leBytes 4 (ccountOf d n 10) ++ leBytes 4 (rd d (kL n 0x10)) ++ List.replicate 8 0

/-- Whether a ring lies in a stack that does not answer, or beyond an edge station that TLM cannot reach (R191, R497). -/
def ringCut (d : Dev) (a : Nat) : Bool := decide (stackBase ≤ a) && edgeCut d (homeStation .tlm) (a - stackBase) 64
def ringOffline (d : Dev) (a : Nat) : Bool := decide (stackBase ≤ a) && (!lineOnline d (a - stackBase) || ringCut d a)

/-- The module ring. -/
def tlmModule (d : Dev) : Dev :=
  let base := rd64 d (kTl 1 0x100)
  let seq := rd64 d (kTl 1 0x110)
  let a := base % 2 ^ 48 / 64 * 64 + 64 * (seq % 2 ^ clamp 4 16 (rdF d (kTl 1 0x108) 4 0))
  let v := draw d
  let off := ringOffline d a
  let d1 := if off then bumpWrap (kTl 1 0x118) (doIf (ringCut d a) (offlineAccess (stackMap d.part (a - stackBase)).1) v.2) else (tlmWrite 0 a (moduleRecord v.1.toNat d) v.2).2
  updTlm (fun t => { t with last := (List.range 16).map (countOf d), skipped := off }) (wr64 (kTl 1 0x110) (seq + 1) d1)

/-- A compartment's ring. -/
def tlmCmp (n : Nat) (d : Dev) : Dev :=
  let base := rd64 d (kTl (4 + n) 0x100)
  if !bit base 63 then d
  else
    let seq := rd64 d (kTl (4 + n) 0x110)
    let a := base % 2 ^ 48 / 64 * 64 + 64 * (seq % 2 ^ clamp 4 12 (rdF d (kTl (4 + n) 0x108) 4 0))
    let e := runOn (kTl (4 + n) 0x058) d
    let r := tlmWrite n a (cmpRecord n e) e
    let d1 := if r.1 then r.2 else bumpWrap (kTl (4 + n) 0x118) r.2
    updTlm (fun t => { t with cmps := Map.set (fun _ => []) t.cmps n ((List.range 12).map (ccountOf e n)) })
      (wr64 (kTl (4 + n) 0x110) (seq + 1) d1)

/-- TLM_RECORD: every RECORD_TICKS ticks (R497, R498). -/
def tlmRecord (d : Dev) : Dev :=
  if tick d < d.tlm.lastAt + rd d (kTl 1 0x10C) || !enabled d T.TLM 0 || !tlmUp d then d
  else
    let d1 := updTlm (fun t => { t with lastAt := tick d }) d
    let d2 := if bit (rd64 d1 (kTl 1 0x100)) 63 then tlmModule d1 else d1
    each (List.range 16) tlmCmp d2

/-! ### Snapshots (R499) -/

/-- SNAP_TAKE: a request that arrives while another waits is merged into it. -/
def snapTake (d : Dev) : Dev := wrB (kTl 0 0x044) 31 true (updTlm (fun t => { t with asked := true }) d)

/-- TLM_SNAPSHOT: asked for, or due every SNAP_PERIOD ms. -/
def tlmSnapshot (d : Dev) : Dev :=
  let p := rdF d (kTl 0 0x044) 15 0
  let due_ := enabled d T.TLM 0 && p ≠ 0 && decide (d.tlm.snapAt + 1000 * p ≤ tick d)
  if (!d.tlm.asked && !due_) || !tlmUp d then d
  else
    let k := d.tlm.snap + 1
    let page := 2 + k % 2
    let d1 := each [3, 7] (fun i => runOn (kTl 1 (0x040 + 8 * i))) (wrB (kTl 0 0x044) 31 false (updTlm (fun t => { t with
      snap := k, asked := false, snapAt := tick d }) d))
    let d2 := foldBelow 64 (fun i d => wr (kTl page (0x100 + 4 * i)) (rd d (kTl 0 (0x040 + 4 * i))) d) d1
    let d3 := foldBelow 64 (fun i d => wr (kTl page (0x200 + 4 * i)) (rd d (kTl 1 (0x040 + 4 * i))) d) d2
    wr64 (kTl page 0x040) k (wr64 (kTl page 0x048) (tick d) d3)

end Sys2Proof.Machine
end

