-- ==== Sys2Proof/Machine/Flash.lean ====
section
/-! DEFINITION. Fuse programming (R594 to R597) and the boot-flash port (R598). -/

namespace Sys2Proof.Machine

/-! ### Fuses (R596) -/

/-- Keys of FUS page 1. -/
def kF1 (off : Nat) : Nat := rk T.FUS 0 1 off

/-- The lowest and the highest junction reading are within 0 °C to 85 °C. -/
def fuseWarm (d : Dev) : Bool := (tjSensors d.part).all (fun k => decide (0 ≤ tjOf d k) && decide (tjOf d k ≤ 85 * 16))

/-- The refusal code of a PROG_CMD, the lowest that applies (R596). -/
def progRefusal (d : Dev) (key : Nat) : Nat :=
  let r := rdF d (kF1 0x040) 6 0
  let v := rd d (kF1 0x044)
  let row0 := fuseRow d 0
  if fuseReserved r || (decide (9 ≤ r) && decide (r ≤ 111) && bit row0 3) then 1
  else if 1 ≤ r && r ≤ 8 && bit row0 2 then 2
  else if r = 0 && bit v 1 && !bit row0 2 then 3
  else if !fuseWarm d || !d.pwr.vio18 then 4
  else if key ≠ 0x5F then 5
  else 0

/-- PROG_CMD: blowing starts, or is refused; ignored while BUSY. -/
def progCmd (v : Nat) (d : Dev) : Dev :=
  if d.fus.prog.isSome || !bit v 0 then d
  else
    let c := progRefusal d (fld v 15 8)
    if c ≠ 0 then wr (kF1 0x04C) c (flag0 T.FUS 0 1 c d)
    else
      let r := rdF d (kF1 0x040) 6 0
      let bits := rd d (kF1 0x044)
      wr (kF1 0x04C) (2 ^ 31) { d with fus := { d.fus with prog := some (r, bits) } }

/-- Reading a row's shadow again; GOV mirrors row 9. -/
def rereadFuse (r : Nat) (d : Dev) : Dev :=
  let d1 := readFuse r d
  if r = 9 then wr (rk T.GOV 0 1 0x05C) (rd d1 (kFuse 9)) d1 else if r = 10 then wr (kH 0 0x040) (rdF d1 (kFuse 10) 15 0) d1 else d1

/-- FUSE_PROG_DONE: every bit has been blown but those that failed, in each copy, and the row is read back (R596, R597). -/
def progDone (missA missB : Nat) (d : Dev) : Dev :=
  match d.fus.prog with
  | none => d
  | some (r, bits) =>
    let keep := fun (m : Nat) => bits &&& (0xFFFFFFFF ^^^ (m % 2 ^ 32))
    let d1 := rereadFuse r (blow r (keep missA) (keep missB) { d with fus := { d.fus with prog := none } })
    let d2 := if bits &&& rd d1 (kFuse r) = bits then d1 else flag0 T.FUS 0 2 r d1
    wr (kF1 0x04C) 0 d2

/-! ### The xSPI port (R598) -/

/-- Keys of the XSP page. -/
def kX (off : Nat) : Nat := rk T.XSP 0 0 off

/-- The level of XSPI_RESET_N: low from the start of a reset until the boot ROM starts (R616). -/
def xspiResetN (d : Dev) : Bool := d.pwr.state = .run && d.pwr.warm = .idle && d.pwr.boot != .idle

/-- A flash byte. -/
def flashByte (d : Dev) (o : Nat) : Nat := Map.get (fun _ => 0xFF) d.xsp.flash o

/-- Storing a flash byte. -/
def setFlash (o v : Nat) (d : Dev) : Dev := { d with xsp := { d.xsp with flash := Map.set (fun _ => 0xFF) d.xsp.flash o v } }

/-- A byte of XSP_BUF. -/
def bufByte (d : Dev) (i : Nat) : Nat := rdF d (kX (0x100 + i / 4 * 4)) (8 * (i % 4) + 7) (8 * (i % 4))

/-- XSP_CMD: an operation starts at XSP_ADDR; one that comes while another runs is ignored (log entry 64). -/
def flashStart (op : FlashOp) (d : Dev) : Dev :=
  if d.xsp.op.isSome then d
  else wrB (kX 0x04C) 31 true { d with xsp := { d.xsp with op := some (op, rdF d (kX 0x048) 27 0, tick d) } }

/-- Programming takes bits of a page from 1 to 0 (log entry 64). -/
def programPage (o : Nat) (d : Dev) : Dev :=
  foldBelow 256 (fun i d => let a := o / 256 * 256 + (o + i) % 256; setFlash a (flashByte d a &&& bufByte d i) d) d

/-- Erasing bytes. -/
def eraseFlash (first count : Nat) (d : Dev) : Dev :=
  { d with xsp := { d.xsp with flash := d.xsp.flash.filter (fun (e : Nat × Nat) => !inR e.1 first count) } }

/-- Bytes of a flash register go to XSP_BUF. -/
def fillBuf (bs : List Byte) (d : Dev) : Dev :=
  foldBelow (min 256 bs.length) (fun i d =>
    wrF (kX (0x100 + i / 4 * 4)) (8 * (i % 4) + 7) (8 * (i % 4)) (bs.getD i 0).toNat d) d

/-- XSP_CMD_DONE: the operation finishes with the flash's status register and, for a register read, its bytes. -/
def flashDone (status : Nat) (bs : List Byte) (d : Dev) : Dev :=
  match d.xsp.op with
  | none => d
  | some (op, o, _) =>
    let d1 := wr (kX 0x04C) (status % 256) { d with xsp := { d.xsp with op := none } }
    match op with
    | .program => programPage o d1
    | .erase4 => eraseFlash (o / 4096 * 4096) 4096 d1
    | .erase64 => eraseFlash (o / 65536 * 65536) 65536 d1
    | .register _ => fillBuf bs d1

/-- A flash access has not been done within 10 ms: FLASH_TIMEOUT (R598). -/
def flashSilent (d : Dev) : Dev := flag0 T.XSP 0 0 0 d

/-- FLASH_TIMEOUT: a read of the flash window at an address, which compartment 0 alone may make (R40), returns poison; or the
running operation ends. -/
def flashTimeout (reader : Option (Who × Nat)) (d : Dev) : Dev :=
  match reader with
  | some (w, a) =>
    let acc : Access := { who := w, cmp := cmpOf d w }
    if !inR a 0x3000000000 0x10000000 then d
    else if acc.cmp ≠ 0 then answer w (.refused .refusedRights) (refused acc .refusedRights (some 0) false a d)
    else answer w (.data [] true) (flashSilent d)
  | none =>
    match d.xsp.op with
    | some (_, _, t) =>
      if t + 10000 ≤ tick d then flashSilent (wrB (kX 0x04C) 31 false { d with xsp := { d.xsp with op := none } }) else d
    | none => d

end Sys2Proof.Machine
end

