-- ==== Sys2Proof/Machine/IntCmds.lean ====
section
/-! DEFINITION. What the commands of the integrity block do, but for duplicates (chapter 14): the ledger's windows,
weight-copy digests, cross-checks, score decay and the retained ring. -/

namespace Sys2Proof.Machine

/-! ### The ledger (R457 to R460) -/

/-- Rounded binary32 operations of the ledger. -/
def fadd (x y : Nat) : Nat := (fmtFp32.add 0 x y).1
def fmul (x y : Nat) : Nat := (fmtFp32.mul 0 x y).1
def fdiv (x y : Nat) : Nat := (fmtFp32.div 0 x y).1
def fnat (n : Nat) : Nat := (fmtFp32.ofNat 0 n).1
def fint (n : Int) : Nat := (fmtFp32.roundInt 0 n 0 false).1
/-- Whether x < y. -/
def flt (x y : Nat) : Bool := ltVal (fmtFp32.decode x) (fmtFp32.decode y) = some true

/-- p_up of a compartment (R457). -/
def ledgerPUp (d : Dev) (n : Nat) : Nat :=
  fdiv (fadd (fnat (ledRd64 d (ledgerAt n 0x030))) (rd d (kI 1 0x048)))
    (fadd (fnat (ledRd64 d (ledgerAt n 0x020))) (rd d (kI 1 0x04C)))

/-- U of a compartment over the window that ends (R457). -/
def ledgerU (d : Dev) (n : Nat) : Nat :=
  let t : Nat := Map.get (fun _ => 0) d.integ.wTiles n
  let c : Nat := Map.get (fun _ => 0) d.integ.wCompared n
  let w : Int := (t : Int) - c
  fdiv (fmul (fmul (ledgerPUp d n) (fint w)) (fnat 3600000000)) (fnat (rd d (kI 1 0x040)))

/-- A new RATE, with RATE_CHANGE when it differs (R459, R478). -/
def setRate (n rate why : Nat) (d : Dev) : Dev :=
  let old := ledgerRate d n
  let d1 := wrF (kL n 0x0C) 10 0 rate d
  if old = rate then d1
  else
    post n { kind := 0x31, subkind := why, subject := n, detail := old * 65536 + rate }
      (cper { cls := 0x15, block := T.INT, cmp := some n, detail := old * 65536 + rate } d1)

/-- Escalation at a window's end (R459). -/
def escalate (n u : Nat) (d : Dev) : Dev :=
  let cfg := ledgerCfg d n
  let rmax := fld cfg 26 16
  let rmin := fld cfg 10 0
  let rate := ledgerRate d n
  let target := rd d (kL n 4)
  if !bit cfg 29 then d
  else if Map.get (fun _ => false) d.integ.wFault n then setRate n rmax 3 d
  else if flt target u && decide (rate < rmax) then setRate n (min (max (2 * rate) (rate + 1)) rmax) 1 d
  else if flt target u && rate = rmax then
    postBoth { kind := 0x30, subject := n, detail := u }
      (cper { cls := 0x14, block := T.INT, cmp := some n, detail := u } (flag0 T.INT 0 6 n d))
  else if 8 ≤ Map.get (fun _ => 0) d.integ.lowRun n then setRate n (max (rate / 2) rmin) 2 d
  else d

/-- Whether the window that ends is a breach (R459 rule 3, R460). -/
def breach (d : Dev) (n u : Nat) : Bool :=
  let cfg := ledgerCfg d n
  bit cfg 29 && !(Map.get (fun _ => false) d.integ.wFault n) && flt (rd d (kL n 4)) u && ledgerRate d n = fld cfg 26 16

/-- The counts of the window go into a compartment's ledger (R460). -/
def ledgerTake (n : Nat) (d : Dev) : Dev :=
  each [0x018, 0x058, 0x060, 0x068] (fun o d =>
    ledWr64 (ledgerAt n o) (ledRd64 d (ledgerAt n o) + Map.get (fun _ => 0) d.integ.noted (n * 0x400 + o)) d) d

/-- The window end of one compartment. -/
def ledgerClose (n : Nat) (d0 : Dev) : Dev :=
  let d := ledgerTake n d0
  let p := ledgerPUp d n
  let u := ledgerU d n
  let low := flt (fmul u 0x40800000) (rd d (kL n 4))
  let run := if low then Map.get (fun _ => 0) d.integ.lowRun n + 1 else 0
  let d1 := { d with integ := { d.integ with lowRun := Map.set (fun _ => 0) d.integ.lowRun n run } }
  let bad := breach d1 n u
  let d2 := escalate n u (wr (kL n 0x10) u d1)
  let a := ledgerAt n
  let flags := (ledRd d2 (a 4) / 65536 % 256 &&& 1) + b2n bad * 2
  let peak := ledRd d2 (a 0x078)
  let d3 := ledWr (a 0) 1 (ledWr (a 4) (n + ledgerMode d2 n * 256 + flags * 65536) d2)
  let d4 := ledWr (a 0x078) (if flt peak u then u else peak) (ledWr (a 0x074) p (ledWr (a 0x070) u
    (ledWr64 (a 0x010) (tick d) d3)))
  ledWr (a 0x088) (rd d4 (kL n 0x14)) (ledWr (a 0x084) (Map.get (fun _ => 0) d.integ.wCompared n)
    (ledWr (a 0x080) (Map.get (fun _ => 0) d.integ.wTiles n) (ledWr (a 0x07C) (ledgerRate d4 n) d4)))

/-- A word of the ledger RAM has flipped bits. INT reads the compartment ledgers: there an upset is corrected, or,
uncorrectable, the ledger it lies in is zeroed with REINIT (R127, R460). Elsewhere it waits for a read. -/
def ledgerUpset (word : Nat) (double : Bool) (d : Dev) : Dev :=
  let n := (8 * word - 0x1000) / 0x400
  if 8 * word < 0x1000 ∨ 0x5000 ≤ 8 * word then
    { d with integ := { d.integ with upsets := d.integ.upsets.filter (fun u => u.1 ≠ word) ++ [(word, double)] } }
  else if !double then cper { cls := 0x01, block := T.AON, inst := 0, detail := word } (flag0 T.AON 0 2 0 d)
  else
    let d1 := cper { cls := 0x02, block := T.AON, inst := 0, detail := word } (flag0 T.AON 0 3 word d)
    ledWr (ledgerAt n 0x004) 0x10000
      { d1 with ledger := d1.ledger.filter (fun (e : Nat × W32) => decide (4 * e.1 < ledgerAt n 0 ∨ ledgerAt (n + 1) 0 ≤ 4 * e.1)) }

/-- A ledger window closes: each of the 16 ledgers is updated, and the window's counts start again (R457, R460). -/
def windowClosed (d : Dev) : Dev :=
  let d1 := each (List.range 16) ledgerClose d
  { d1 with integ := { d1.integ with lastWindow := tick d, noted := [], wTiles := [], wCompared := [], wFault := [] } }

/-- LEDGER_WINDOW_END: every LEDGER_WINDOW ticks (R457, R459). -/
def ledgerWindowEnd (upset : Option (Fin 8192 × Bool)) (d : Dev) : Dev :=
  if tick d < d.integ.lastWindow + rd d (kI 1 0x040) then d
  else
    windowClosed (match upset with
      | some u => ledgerUpset u.1.val u.2 d
      | none => d)

/-- An LCFG write sets RATE to RATE_MIN (R459). -/
def lcfgWritten (n : Nat) (d : Dev) : Dev :=
  let r := rdF d (kL n 0) 10 0
  if n = 0 then d else setRate n r (if ledgerRate d n < r then 1 else 2) d

/-! ### Weight-copy digests (R461 to R463, R485 to R487) -/

/-- DIG_SEL. -/
def digSel (d : Dev) : Nat := rdF d (kI 0 0x200) 5 0

/-- Whether a copy can be read now: no line of it is in an offline stack (R486). -/
def copyOnline (d : Dev) (a len : Nat) : Bool :=
  decide (a < stackBase) || (List.range (len / 64)).all (fun i => lineOnline d (a + 64 * i - stackBase))

/-- An access of INT at a copy, acting for compartment 0 at QoS BACKGROUND (R461). -/
def digAcc : Access := { who := .integ, cmp := 0 }

/-- Reading a copy in 64-byte pieces: its bytes, and whether any was poisoned or refused. -/
def readCopy : Nat → Nat → Dev → (List Byte × Bool) × Dev
  | 0, _, d => (([], false), d)
  | n + 1, a, d =>
    let r := readPiece digAcc a 64 d
    let rest := readCopy n (a + 64) r.2
    match r.1 with
    | .data bs => ((bs.map (·.1) ++ rest.1.1, bs.any (·.2) || rest.1.2), rest.2)
    | _ => ((rest.1.1, true), rest.2)

/-- Whether a read of a copy waits now: at a sweep or for an epoch switch (R152, R189). -/
def copyHeld (d : Dev) (a len : Nat) : Bool := (List.range (len / 64)).any (fun i => ownHeld d digAcc (a + 64 * i) 64)

/-- The digest of a copy; none when it matches nothing (R461, R462). -/
def copyDigest (a len : Nat) (d : Dev) : Option Nat × Dev :=
  let r := readCopy (len / 64) a d
  (if r.1.2 then none else some (crc64 r.1.1), r.2)

/-- Copying whole lines from one copy over another (R462). -/
def copyOver : Nat → Nat → Nat → Dev → Dev
  | 0, _, _, d => d
  | n + 1, src, dst, d =>
    let r := readPiece digAcc src 64 d
    match r.1 with
    | .data bs => copyOver n (src + 64) (dst + 64) (ownWrite { digAcc with write := true } dst (bs.map (·.1)) r.2).2
    | _ => copyOver n (src + 64) (dst + 64) r.2

/-- The digests of an entry's copies; an armed injection of flag 7 corrupts the read of COPY_A. -/
def entryDigests (x : DigEntry) (d : Dev) : List (Option Nat) × Dev :=
  let a := copyDigest (fld x.w0 47 0) (fld x.w2 31 0) d
  let hit := (armed a.2 T.INT 0 0 7).isSome
  let da := if hit then a.1.map (· ^^^ 1) else a.1
  let d1 := if hit then fired T.INT 0 0 a.2 else a.2
  if bit x.w1 63 then
    let b := copyDigest (fld x.w1 47 0) (fld x.w2 31 0) d1
    ([da, b.1], b.2)
  else ([da], d1)

/-- Whether the digests of an entry show no fault (R462 row 1). -/
def digestsAgree (x : DigEntry) (ds : List (Option Nat)) : Bool :=
  if bit x.w0 61 then ds.all (· = some x.ref)
  else ds.all Option.isSome && ds.all (· = ds.headD none)

/-- The end of a check with a result: 0 match, 1 repaired, 2 mismatch. -/
def digestResult (r : Nat) (d : Dev) : Dev :=
  wrB (kI 0 0x208) 31 false (wrF (kI 0 0x208) 9 8 r { d with integ := { d.integ with digBusy := none } })

/-- A mismatch is reported (R462, R478). -/
def digestReport (e sub : Nat) (x : DigEntry) (d : Dev) : Dev :=
  let n := fld x.w0 51 48
  postBoth { kind := 0x32, subkind := sub, subject := n, detail := e }
    (cper { cls := 0x12, block := T.INT, cmp := some n, addr := fld x.w0 47 0, detail := e } (flag0 T.INT 0 7 e d))

/-- The bytes a check reads: LENGTH of each copy. -/
def digBytes (x : DigEntry) : Nat := fld x.w2 31 0 * (1 + b2n (bit x.w1 63))

/-- Reads of so many bytes are placed behind those before them, at most DIG_BUDGET in each 1,000 ticks; a check that they
belong to does not end before the last of them (R485). -/
def digPlan (bytes : Nat) (d : Dev) : Dev :=
  let budget := max 1 (rd d (rk T.BGS 0 0 0x050))
  let from_ := if d.integ.digUsed.1 < tick d / 1000 then (tick d / 1000, 0) else d.integ.digUsed
  let more := (from_.2 + bytes - 1) / budget
  { d with integ := { d.integ with
    digUsed := (from_.1 + more, from_.2 + bytes - more * budget), digAt := 1000 * (from_.1 + more) } }

/-- A good copy has been written over the bad one: INT checks again, and the reads of the copying and of the second check
are paced as the first check's were (R462, R485). -/
def digestRepair (x : DigEntry) (goodA : Bool) (d : Dev) : Dev :=
  let len := fld x.w2 31 0
  let a := fld x.w0 47 0
  let b := fld x.w1 47 0
  let d1 := digPlan (len + digBytes x) (if goodA then copyOver (len / 64) a b d else copyOver (len / 64) b a d)
  { d1 with integ := { d1.integ with digRepaired := true } }

/-- DIGEST_CHECK_DONE: the running check ends (R462), not before its reads can be over (R485); one whose copy is offline
waits, retrying every 1 ms (R486). -/
def digestDone (d : Dev) : Dev :=
  match d.integ.digBusy with
  | none => d
  | some (e, x) =>
    let len := fld x.w2 31 0
    let a := fld x.w0 47 0
    let b := fld x.w1 47 0
    if tick d < d.integ.digAt then d
    else if !copyOnline d a len || (bit x.w1 63 && !copyOnline d b len) then
      { d with integ := { d.integ with digAt := tick d + 1000 } }
    else if copyHeld d a len || (bit x.w1 63 && copyHeld d b len) then d
    else
      let r := entryDigests x d
      if d.integ.digRepaired then
        let d1 := { r.2 with integ := { r.2.integ with digRepaired := false } }
        if digestsAgree x r.1 then digestResult 1 (digestReport e 1 x d1) else digestResult 2 (digestReport e 2 x d1)
      else if digestsAgree x r.1 then digestResult 0 r.2
      else
        let goodA := r.1.getD 0 none = some x.ref
        let goodB := r.1.getD 1 none = some x.ref
        if bit x.w0 61 && bit x.w0 62 && (goodA || goodB) && bit x.w1 63 then
          digestRepair x goodA r.2
        else digestResult 2 (digestReport e 0 x r.2)

/-- DIG_CMD REGISTER (R463): REF and REF_VALID that INT computes stand in DIG_REF and DIG_W0 too. A REF computed from a
poisoned copy is not stated. -/
def digRegister (d : Dev) : Dev :=
  let e := digSel d
  let x : DigEntry := { w0 := setBit (rd64 d (kI 0 0x210)) 63, w1 := rd64 d (kI 0 0x218), w2 := rd64 d (kI 0 0x220),
                        ref := rd64 d (kI 0 0x228) }
  if bit x.w0 61 || bit x.w1 63 then digCount (newDig e x d)
  else
    let r := copyDigest (fld x.w0 47 0) (fld x.w2 31 0) d
    let v := match r.1 with
      | some v => (v, r.2)
      | none => let f := draw r.2; (f.1.toNat, f.2)
    digCount (newDig e { x with w0 := setBit x.w0 61, ref := v.1 }
      (wr64 (kI 0 0x228) v.1 (wr64 (kI 0 0x210) (setBit (rd64 d (kI 0 0x210)) 61) v.2)))

/-- The check of an entry begins; one of the schedule moves its pointer past the entry. -/
def digestBegin (scheduled : Bool) (e : Nat) (d : Dev) : Dev :=
  let x := getDig d e
  let d1 := digPlan (digBytes x) d
  digCount (wrB (kI 0 0x208) 31 true { d1 with integ := { d1.integ with
    digBusy := some (e, x), digRepaired := false, digAsked := d1.integ.digAsked.filter (· ≠ e), digLated := d1.integ.digLated.filter (· ≠ e)
    digStart := Map.set (fun _ => 0) d1.integ.digStart e (1 + tick d)
    digPtr := if scheduled then (e + 1) % 64 else d1.integ.digPtr } })

/-- DIG_CMD CHECK_NOW: the entry's check runs ahead of the schedule (R463, R485). -/
def digCheckNow (d : Dev) : Dev :=
  let e := digSel d
  if !bit (getDig d e).w0 63 then d
  else match d.integ.digBusy with
    | none => digestBegin false e d
    | some _ => { d with integ := { d.integ with digAsked := d.integ.digAsked ++ [e] } }

/-- DIG_CMD REMOVE: the entry is not VALID, and its running check ends (R487). -/
def digRemove (d : Dev) : Dev := digCount (newDig (digSel d) {} (endChecks (fun e _ => e = digSel d) d))

/-- The tick at which an entry is next due (R485). -/
def digDue (d : Dev) (e : Nat) : Nat :=
  let t := Map.get (fun _ => 0) d.integ.digStart e
  if t = 0 then 0 else t - 1 + 1000 * rd d (rk T.BGS 0 0 0x04C)

/-- Whether the schedule of the digest checks runs. -/
def digRuns (d : Dev) : Bool := rdB d (rk T.BGS 0 0 0x040) 1 && enabled d T.BGS 0

/-- DIGEST_CHECK_START: the next check begins, one at a time: the first that CHECK_NOW asked for, or the next due one of the
schedule (R485). -/
def digestStart (d : Dev) : Dev :=
  match d.integ.digBusy, d.integ.digAsked.find? (fun e => bit (getDig d e).w0 63) with
  | some _, _ => d
  | none, some e => digestBegin false e d
  | none, none =>
    match digFrom (fun e => decide (digDue d e ≤ tick d)) d with
    | some e => if digRuns d then digestBegin true e d else d
    | none => d

/-- Entries whose check has not started within DIG_INTERVAL of its previous start while an earlier check holds the budget:
they fell due while the schedule ran (R486, log entry 176). -/
def digLate (d : Dev) : List Nat :=
  match d.integ.digBusy with
  | none => []
  | some (k, _) => (d.integ.digests.filter (fun e => d.integ.digOn ≠ 0 && bit e.2.w0 63 && decide (e.1 ≠ k)
      && decide (Map.get (fun _ => 0) d.integ.digStart e.1 ≠ 0) && decide (d.integ.digOn ≤ 1 + digDue d e.1)
      && decide (digDue d e.1 < tick d) && !d.integ.digLated.contains e.1)).map (·.1)

/-- Since when the schedule of the checks runs. -/
def digWatch (d : Dev) : Dev :=
  let since := if d.integ.digOn = 0 then 1 + tick d else d.integ.digOn
  { d with integ := { d.integ with digOn := if digRuns d then since else 0 } }

/-- DIG_LATE is set for an entry as soon as it is late (R486). -/
def digLates (d : Dev) : Dev :=
  let d1 := digWatch d
  each (digLate d1) (fun e d => flag0 T.BGS 0 1 e { d with integ := { d.integ with digLated := d.integ.digLated ++ [e] } }) d1

/-! ### Cross-checks (R464, R465) -/

/-- Coaches of a mask. -/
def coachesIn (m : Nat) : List Nat := (List.range 64).filter (fun c => m.testBit c)

/-- Every round of a cross-check is done. -/
def xcFinish (x : XCheck) (d : Dev) : Dev :=
  post 0 { kind := 0x33, subkind := b2n (x.failed != 0), subject := 0, detail := x.done }
    (wrB (kI 0 0x114) 31 false { d with integ := { d.integ with xcheck := none } })

/-- XC_CMD START; ignored while BUSY. -/
def xcStart (v : Nat) (d : Dev) : Dev :=
  if !bit v 31 || d.integ.xcheck.isSome then d
  else
    let x : XCheck := { rounds := fld v 15 0, done := 0, mask := rd64 d (kI 0 0x108), failed := 0, fmts := fld v 19 16 }
    let d1 := wr (kI 0 0x114) 0x80000000 (wr64 (kI 0 0x118) 0 { d with integ := { d.integ with xcheck := some x } })
    if x.rounds = 0 then xcFinish x d1 else d1

/-- A coach's result: how it differs from a fault-free coach's, 0 for not at all. DESIGN CHOICE (log entry 158): the row
gives this in place of the tile's words. -/
def xcResult (odd : List (Fin 64 × W32)) (c : Nat) : Nat :=
  match odd.find? (fun e => e.1.val = c) with
  | some e => e.2.toNat
  | none => 0

/-- The result that more than half of the coaches share. -/
def xcMajority (odd : List (Fin 64 × W32)) (cs : List Nat) : Option Nat :=
  (cs.map (xcResult odd)).find? (fun r => decide (cs.length < 2 * (cs.filter (fun c => xcResult odd c = r)).length))

/-- XCHECK_ROUND_DONE (R465): `odd` gives the coaches whose result a datapath fault has changed. -/
def xcRound (odd : List (Fin 64 × W32)) (d : Dev) : Dev :=
  match d.integ.xcheck with
  | none => d
  | some x =>
    let cs := coachesIn x.mask
    let maj := xcMajority odd cs
    let bad := cs.filter (fun c => some (xcResult odd c) ≠ maj)
    let points := if cs.length = 2 then 2 else 4
    let y := { x with done := x.done + 1, failed := bad.foldl setBit x.failed }
    let d1 := each bad (fun c d =>
      score c points (cper { cls := 0x13, block := T.CCH, inst := c, unit := c, detail := c } (flag0 T.INT 0 8 c d))) d
    let d2 := wr (kI 0 0x114) (0x80000000 + y.done) (wr64 (kI 0 0x118) y.failed
      { d1 with integ := { d1.integ with xcheck := some y } })
    if y.done = x.rounds then xcFinish y d2 else d2

/-! ### Scores and the retained ring -/

/-- SCORE_DECAY: a score without a change for DECAY_TICKS falls by one (R467). -/
def scoreDecay (code : Nat) (d : Dev) : Dev :=
  let v := scoreOf d code
  if v ≠ 0 && decide (Map.get (fun _ => 0) d.integ.scoreTick code + rd d (kI 2 0x044) ≤ tick d) then setScore code (v - 1) d
  else d

/-- Records in the retained ring. -/
def retainedNow (d : Dev) : Nat := min 64 d.integ.retained

/-- A requester's cursor, a word of the retained ring. -/
def retCursor (d : Dev) (w : Who) : Nat := ((d.integ.cursors.find? (fun e => e.1 = w)).map (·.2)).getD 0

/-- The first word of the oldest record of the ring. -/
def oldestWord (d : Dev) : Nat := 64 * ((d.integ.retained - retainedNow d) % 64)

/-- Setting a requester's cursor. -/
def setRetCursor (w : Who) (v : Nat) (d : Dev) : Dev :=
  { d with integ := { d.integ with cursors := d.integ.cursors.filter (fun (e : Who × Nat) => e.1 ≠ w) ++ [(w, v)] } }

/-- RET_STATUS as a requester reads it: its cursor goes to the oldest record (R477). -/
def retStatus (w : Who) (d : Dev) : Nat × Dev := (retainedNow d, setRetCursor w (oldestWord d) d)

/-- RET_DATA as a requester reads it: the word at its cursor, which advances and wraps after the newest record (R477).
With no record the word reads as the ring's first word. -/
def retData (w : Who) (d : Dev) : Nat × Dev :=
  let c := retCursor d w
  let o := 0x5000 + 4 * c
  let newest := 64 * ((d.integ.retained - 1) % 64) + 63
  (ledRd d o, setRetCursor w (if c = newest || d.integ.retained = 0 then oldestWord d else (c + 1) % 4096)
    (ledgerRead o 4 d).2)

end Sys2Proof.Machine
end

