-- ==== Sys2Proof/Machine/RegView.lean ====
section
/-! DEFINITION. What register words read as where the chapters compute them from the block's state: status views, the
common header on pages other than page 0 (R643), and the words whose values the manual leaves to timing. -/

namespace Sys2Proof.Machine

/-- The low and the high word of a 64-bit value. -/
def lo32 (x : Nat) : Nat := x % 2 ^ 32
def hi32 (x : Nat) : Nat := x / 2 ^ 32 % 2 ^ 32

/-- The word of a 64-bit value at a register's base offset that an offset names. -/
def half (x base off : Nat) : Nat := if off = base then lo32 x else hi32 x

/-! ### The management target's alert (R546, R548) -/

/-- An alert is pending. -/
def alertOn (d : Dev) : Bool := alertPending d != 0 || d.pwr.bootFail

/-- In-band interrupts are in force: I3C mode, ENEC and IBI_EN. -/
def ibiMode (d : Dev) : Bool := d.mgmt.dyn.isSome && d.mgmt.ibiOn && rdB d (rk T.MTB 0 0 0x044) 4

/-- The alerts that are being delivered by IBI: those raised so, where interrupts are off without those that still wait
(R548). -/
def inBand (d : Dev) : Nat :=
  let waiting := d.mgmt.ibis.foldl setBit 0
  d.mgmt.byIbi &&& (0xFFFFFFFF ^^^ (if ibiMode d then 0 else waiting))

/-- ALERT_N is driven low (R546); nothing drives it where VIO18 is off (R603). -/
def alertDriven (d : Dev) : Bool :=
  d.pwr.state = .run && alertOn d && rdB d (rk T.SYS 0 1 0x048) 0 && !d.mgmt.released &&
    (d.mgmt.dyn.isNone || d.pwr.bootFail || (alertPending d &&& (0xFFFFFFFF ^^^ inBand d)) != 0)

/-- MTB_STATUS. -/
def mtbStatus (d : Dev) : Nat :=
  let m := d.mgmt
  m.dyn.getD 0 * 2 ^ 17 + b2n m.dyn.isSome * 2 ^ 16 + b2n m.seen * 2 ^ 9 + b2n m.dyn.isSome * 2 ^ 8 + b2n m.ibiOn * 2 ^ 7
    + b2n (serviceClosed d) * 8 + b2n (alertDriven d) * 4 + b2n (m.fallback != 0) * 2 + b2n (m.reply.isSome || d.dpt.brakes.any (fun b => b.who = .mgmt))

/-! ### Status words by block -/

/-- CLK_STATUS. -/
def clkStatus (d : Dev) : Nat :=
  let c := d.clk
  quality d * 64 + b2n c.holdover * 32 + b2n c.aon * 16 + b2n c.locked * 8 + b2n c.inRange * 4 + b2n c.refPresent * 2
    + b2n (degraded d)

/-- SYS_STATUS: a page can be read in RUN only. -/
def sysStatus (d : Dev) : Nat :=
  b2n (d.pwr.state = .run) * 16 + b2n d.pwr.wakeReady * 4 + b2n d.pwr.bootDone * 2 + b2n (d.pwr.warm ≠ .idle)

/-- CLUSTER_STATUS: descriptor slots in use and pages mapped. -/
def clusterStatus (d : Dev) (s : Nat) : Nat :=
  (d.yard.descs.filter (fun e => e.1 / 256 = s && (e.2.valid || e.2.sweeping))).length * 65536
    + (d.yard.pages.filter (fun e => e.1 / 768 = s && (e.2 : PageEntry).valid)).length

/-- DESC_STATUS: BUSY, the state of the selected slot, and the stored result. -/
def descStatus (d : Dev) (s : Nat) : Nat :=
  b2n (descBusy d s) * 2 ^ 31 + descState (getDesc d (descSel d s)) * 65536 + rdF d (kY s 0 0x04C) 7 0

/-- PAGE_MAP of the selected page; no page above 767 exists. -/
def pageMapWord (d : Dev) (s : Nat) : Nat :=
  let i := rdF d (kY s 0 0x070) 9 0
  if 768 ≤ i then 0
  else
    let e := getPage d (s * 768 + i)
    b2n e.valid * 2 ^ 31 + b2n e.sweeping * 2 ^ 30 + b2n e.clean * 2 ^ 28 + e.lastOwner % 16 * 2 ^ 24
      + (if e.valid then e.desc % 16384 else 0)

/-- SWEEP_STATUS: pages of the cluster that still sweep. -/
def sweepStatus (d : Dev) (s : Nat) : Nat :=
  let n := (d.yard.pages.filter (fun e => e.1 / 768 = s && (e.2 : PageEntry).sweeping)).length
  b2n (n ≠ 0) * 2 ^ 31 + n % 1024

/-- EPOCH_STATUS but for the count of packets in flight. -/
def epochStatus (d : Dev) : Nat := b2n d.net.busy * (2 ^ 31 + 2 ^ 30) + b2n d.net.epoch * 65536

/-- LINK_INFO of a station. -/
def linkInfo (d : Dev) (s : Nat) : Nat :=
  let st := fun l => if linkExists l then (getLink d l).state.code else 0
  let er := fun l => if linkExists l then min 65535 (getLink d l).errors else 0
  er (2 * s) * 2 ^ 48 + er (2 * s + 1) * 2 ^ 32 + st (2 * s + 1) * 16 + st (2 * s)

/-- ROUTE_DATA of the selected table and entry. -/
def routeWord (d : Dev) : Nat :=
  Map.get (fun _ => 0) (if rdB d (kT 1 0x040) 12 then d.net.shadow else d.net.active) (routeSel d) % 256

/-- The holder id of a core page: coaches, then control cores. -/
def coreOf (ty inst : Nat) : Nat := if ty = T.CCH then inst else 64 + inst

/-- The unit id of a holder id that is a core. -/
def coreUnit (h : Nat) : Nat := h

/-- CORE_STATUS; control cores also show LEVEL. -/
def coreStatus (d : Dev) (h : Nat) : Nat :=
  let c := getCore d h
  let cmp := if h < 64 then cmpOf d (.coach (Fin.ofNat 64 h)) else cmpOf d (.ctl (Fin.ofNat 4 (h - 64)))
  cmp * 65536 + b2n (stepSlot d (coreUnit h)).isSome * 256 + (if 64 ≤ h then b2n c.super * 16 else 0) + c.mode.code

/-- STRONGBOX_STATUS. -/
def boxStatus (d : Dev) (h : Nat) : Nat := b2n (getCore d h).box.full * 2 ^ 31 + min 255 (getCore d h).box.count

/-- DBG_REG_DATA of a register number (CCH page 1); lanes of registers that the number cannot name are not there. -/
def dbgReg (c : Core) (n : Nat) : Nat :=
  if n < 32 then (if n = 0 then 0 else Map.get (fun _ => 0) c.s n % 2 ^ 64)
  else if n = 32 then c.csp else if n = 33 then c.ssp
  else if 64 ≤ n then Map.get (fun _ => 0) c.v (n - 64) % 2 ^ 32 else 0

/-- DPT_STATUS. -/
def dptStatus (d : Dev) : Nat := b2n d.dpt.holding * 2 ^ 30 + poolUsed d

/-- The due tick of the first timetable entry. -/
def nextDueWord (d : Dev) : Nat := match d.dpt.table with
  | [] => 0
  | e :: _ => e.due

/-- SLOT[u] of DPT page 7. -/
def slotWord (d : Dev) (u : Nat) : Nat :=
  let dup := match runOf d u with
    | some r => r.kind ≠ .original
    | none => false
  match stepSlot d u with
  | some x => 2 ^ 31 + b2n dup * 2 ^ 30 + x.1
  | none => b2n dup * 2 ^ 30

/-- ENG_STATUS of an engine by unit id. -/
def engStatus (d : Dev) (u : Nat) : Nat := match runOf d u with
  | some r => r.cmp * 65536 + 1
  | none => 0

/-- The tag of the waybill that a unit runs. -/
def tagWord (d : Dev) (u : Nat) : Nat := match runOf d u with
  | some r => r.image.tag
  | none => 0

/-- LINK_STATUS, TEAM_STATUS and the like are kept in their registers. The computed words of each block: `none` where
the stored word is the value. -/
def computed (d : Dev) (k : Nat) : Option Nat :=
  let i := keyInst k
  let page := keyPage k
  let off := keyOff k
  match keyTy k with
  | 0x01 =>
    if page = 0 then (if off = 0x064 then some (sysStatus d) else none)
    else if off = 0x040 then some (alertPending d) else none
  | 0x02 => if page = 0 && off = 0x044 then some (clkStatus d) else none
  | 0x03 =>
    if page = 0 then
      (if off = 0x044 then some (govStatus d) else if off = 0x068 then some (pressureWord d) else none)
    else none
  | 0x05 =>
    (match page with
     | 0 =>
       if off = 0x040 then some (clusterStatus d i) else if off = 0x04C then some (descStatus d i)
       else if off = 0x074 then some (pageMapWord d i) else if off = 0x078 then some (sweepStatus d i) else none
     | 1 =>
       let t := getTally d (tallySel d i)
       if off = 0x044 then some t.owner else if off = 0x048 then some (lo32 t.value)
       else if off = 0x04C then some (t.accum % 2 ^ 20) else if off = 0x054 then some (watchesUsed d i) else none
     | 2 =>
       if off = 0x040 then some (waitersUsed d i)
       else if inR off 0x800 0x800 then some (half (semWord d (i * 256 + (off - 0x800) / 8)) (off / 8 * 8) off)
       else none
     | _ => none)
  | 0x06 =>
    if page = 1 then
      (if off = 0x044 then some (routeWord d) else if off = 0x04C then some (epochStatus d) else none)
    else if 2 ≤ page && page ≤ 5 && inR off 0x040 0x80 then
      some (half (linkInfo d (16 * (page - 2) + (off - 0x040) / 8)) (off / 8 * 8) off)
    else none
  | 0x07 =>
    if page = 0 then
      (if off = 0x040 then some (let c := stackOf d i; if c.hot && c.mode = .ready then 4 else c.mode.code) else if off = 0x048 then some (stackOf d i).pcs
       else if off = 0x05C then some (usable d / 2 ^ 20) else none)
    else none
  | 0x08 =>
    let c := getCore d i
    if page = 0 then
      (if off = 0x040 then some (coreStatus d i) else if inR off 0x048 8 then some (half (tagWord d i) 0x048 off)
       else if inR off 0x050 8 then some (half c.pc 0x050 off) else if off = 0x058 then some (boxStatus d i)
       else if off = 0x05C then some (epochOf d i)
       else if off = 0x060 then some (if c.wbCmp = 0 then 0 else 16 + (c.wbCmp - 1) % 16) else none)
    else if inR off 0x060 8 then some (half (dbgReg c (rdF d (rk T.CCH i 1 0x058) 9 0)) 0x060 off) else none
  | 0x09 =>
    let h := 64 + i
    if page = 0 then
      (if off = 0x058 then some (coreStatus d h) else if off = 0x05C then some (boxStatus d h)
       else if inR off 0x060 8 then some (half (getCore d h).pc 0x060 off) else none)
    else none
  | 0x0A =>
    (match page with
     | 0 => if off = 0x040 then some (dptStatus d)
            else if off = 0x064 then some ((slotsWhere d (fun _ s => s.state = .ready && s.deferred)).length % 65536)
            else none
     | 2 => if inR off 0x048 8 then some (half (ctrEntry d (rdF d (kD 2 0x040) 19 0)) 0x048 off) else none
     | 3 => if off = 0x040 then some (matchUsed d) else if off = 0x044 then some (spillUsed d) else none
     | 4 => if off = 0x040 then some (ttPeriodic d * 65536 + d.dpt.table.length)
            else if inR off 0x048 8 then some (half (nextDueWord d) 0x048 off) else none
     | 7 => if inR off 0x040 0x148 && targets.contains ((off - 0x040) / 4) then some (slotWord d ((off - 0x040) / 4))
            else none
     | _ => none)
  | 0x0B => if off = 0x040 then some (cmpStateWord d i)
            else if off = 0x0C4 && i ≠ 0 then some 0 else none
  | 0x0C =>
    if page = 0 then none
    else
      let p := 3 * i + (page - 1)
      if off = 0x04C then some (portStatus d p)
      else if inR off 0x080 16 then some (streamStatus d p ((off - 0x080) / 4)) else none
  | 0x13 =>
    (match page with
     | 0 => if off = 0x048 then some (d.integ.samples.filter (fun e => (e.2 : Option Sample).isSome)).length else none
     | 2 => if off = 0x084 then
              (let u := rdF d (rk T.INT 0 2 0x080) 15 0
               some (b2n (passed d u) * 32768 + min 255 (scoreOf d u)))
            else none
     | 3 => if off = 0x064 then some (retainedNow d) else none
     | _ => none)
  | 0x14 => if page = 0 && inR off 0x060 16 then some (min 65535 (stackOf d ((off - 0x060) / 4)).debt) else none
  | 0x16 => if page ≠ 0 && off = 0x040 then some (funcStatus d (page - 1)) else none
  | 0x18 => if off = 0x040 then some (mtbStatus d)
            else if off = 0x048 then some (d.mgmt.last.2.2 % 256 * 65536 + d.mgmt.last.2.1 % 256 * 256 + d.mgmt.last.1 % 256)
            else if off = 0x04C then some (0x38 + rdF d (kSys 0 0x044) 2 0) else none
  | 0x19 => if off = 0x040 then
              (let w := rd d k; some (if fld w 15 8 = 0 then setFld w 15 8 25 else w))
            else if off = 0x048 then some (twStatus d i) else if off = 0x084 then some (listWord d i (lramSel d i)) else none
  | ty =>
    if 0x0D ≤ ty && ty ≤ 0x11 then
      (let u := 0x48 + 2 * (ty - 0x0D) + i
       if off = 0x040 then some (engStatus d u) else if inR off 0x048 8 then some (half (tagWord d u) 0x048 off) else none)
    else none

/-- Bits of a word whose value the manual leaves to timing: step counts and counts of packets in flight, which are free
values at each read (log entry 63), and DBG_REG_DATA of a core that is not halted. -/
def looseMask (d : Dev) (k : Nat) : Nat :=
  let page := keyPage k
  let off := keyOff k
  let all := 0xFFFFFFFF
  match keyTy k with
  | 0x05 => if page = 3 && inR off 0x100 0x80 then all else 0
  | 0x06 =>
    if page = 0 then (if off = 0x054 then all else 0)
    else if page = 1 then (if off = 0x04C && d.net.busy then 0xFFFF else 0)
    else if page = 6 && off = 0x048 then all else 0
  | 0x08 =>
    if page = 1 then
      (if inR off 0x088 8 || inR off 0x098 8 then all
       else if inR off 0x060 8 && (getCore d (keyInst k)).mode ≠ .debugHalt then all else 0)
    else 0
  | 0x0C => if page = 0 && off = 0x050 then all else 0
  | _ => 0

/-- The key whose stored word a header word shows (R643): CTRL, STATUS and OWNER of the instance's page 0. -/
def headerKey (k : Nat) : Nat :=
  let off := keyOff k
  if off = 0x008 || off = 0x00C || off = 0x024 then rk (keyTy k) (keyInst k) 0 off else k

/-- INJ_PENDING: an injection is armed on a page of the instance. -/
def injPending (d : Dev) (ty inst : Nat) : Bool :=
  d.inj.any (fun e => keyTy e.1 = ty && keyInst e.1 = inst && e.2 ≠ 0)

/-- What a word of a populated page holds: its value, before free bits. -/
def wordNow (d : Dev) (k : Nat) : Nat :=
  let off := keyOff k
  if off < 0x040 then
    (if off = 0x00C then putBit (rd d (headerKey k)) 4 (injPending d (keyTy k) (keyInst k)) else rd d (headerKey k))
  else if (accOf k).wo || (accOf k).woc then 0
  else (computed d k).getD (rd d k)

/-- Reading a word's value, with its free bits drawn. -/
def wordValue (k : Nat) (d : Dev) : Nat × Dev :=
  let m := looseMask d k
  let v := wordNow d k
  if m = 0 then (v, d) else (let r := draw d; ((v &&& (0xFFFFFFFF ^^^ m)) ||| (r.1.toNat &&& m), r.2))

/-! ### 64-bit registers -/

/-- Whether a word is the low word of a 64-bit register. -/
def wideLow (k : Nat) : Bool :=
  let page := keyPage k
  let off := keyOff k
  match keyTy k with
  | 0x01 => page = 1 && off = 0x040
  | 0x02 => page = 0 && (off = 0x050 || off = 0x058)
  | 0x03 => page = 0 && off = 0x060
  | 0x04 => page = 0 && (off = 0x040 || off = 0x048)
  | 0x05 =>
    (page = 0 && inR off 0x050 0x20 && off % 8 = 0) || (page = 2 && 0x800 ≤ off && off % 8 = 0)
      || (page = 3 && inR off 0x280 0x80 && off % 8 = 0)
  | 0x06 => 2 ≤ page && page ≤ 5 && inR off 0x040 0x80 && off % 8 = 0
  | 0x07 => page = 1 && (off = 0x058 || off = 0x060)
  | 0x08 => if page = 0 then off = 0x048 || off = 0x050
            else off = 0x048 || off = 0x050 || off = 0x060 || (inR off 0x080 0x20 && off % 8 = 0)
  | 0x09 => if page = 0 then off = 0x048 || off = 0x060 else off = 0x040 || off = 0x050
  | 0x0A =>
    (match page with
     | 0 => off = 0x048
     | 1 => inR off 0x050 0x20 && off % 8 = 0
     | 2 => off = 0x048
     | 4 => off = 0x048
     | 5 => off = 0x040
     | _ => false)
  | 0x0B => off = 0x050 || off = 0x060 || (inR off 0x080 0x40 && off % 8 = 0)
  | 0x0C =>
    if page = 0 then off = 0x048 || (inR off 0x100 0xC0 && (off % 0x20 = 8 || off % 0x20 = 0x10))
    else inR off 0x100 0x100 && (off % 0x40 = 0x10 || off % 0x40 = 0x20)
  | 0x12 =>
    (match page with
     | 0 => off = 0x040 || off = 0x058
     | 1 => off = 0x048 || off = 0x050 || off = 0x060
     | _ => off = 0x048)
  | 0x13 =>
    (match page with
     | 0 => off = 0x108 || off = 0x118 || off = 0x210 || off = 0x218 || off = 0x228
     | 2 => off = 0x050 || off = 0x060 || off = 0x068 || off = 0x070
     | 3 => off = 0x040 || off = 0x050 || off = 0x058
     | _ => false)
  | 0x15 =>
    (match page with
     | 0 => off = 0x050
     | 1 => (inR off 0x040 0x80 && off % 8 = 0) || off = 0x100 || off = 0x110
     | 2 => off = 0x040 || off = 0x048
     | 3 => off = 0x040 || off = 0x048
     | _ => (inR off 0x040 0x60 && off % 8 = 0) || off = 0x100 || off = 0x110)
  | 0x16 => if page = 0 then inR off 0x200 0x400 && off % 8 = 0 else off = 0x050 || off = 0xC00
  | 0x17 => page ≠ 0 && (off = 0x058 || off = 0x060)
  | ty => 0x0D ≤ ty && ty ≤ 0x11 && (off = 0x048 || off = 0x058 || off = 0x060 || off = 0x068 || off = 0x078
      || (ty = 0x11 && (off = 0x080 || off = 0x090)))

/-- The low word of the 64-bit register that a word belongs to. -/
def wideBase (k : Nat) : Option Nat := if wideLow k then some k else if wideLow (k - 4) then some (k - 4) else none

end Sys2Proof.Machine
end

