-- ==== Sys2Proof/Machine/RegBus.lean ====
section
/-! DEFINITION. Accesses to register words: what a read does besides returning the value (R9, R62), and what a write of
each register does (R9, R52 to R56, R643 to R646, and the chapters). -/

namespace Sys2Proof.Machine

/-! ### Latches (R62) -/

/-- The port of a requester: one for each drawbar port, whatever compartment it carries. -/
def portOf : Who → Who
  | .drawbar p _ => .drawbar p 0
  | w => w

/-- The requester's latch: the key of a high word and its value. -/
def latchOf (d : Dev) (w : Who) : Option (Nat × W32) := (d.latches.find? (fun e => e.1 = portOf w)).map (·.2)

/-- Any access ends the latch. -/
def dropLatch (w : Who) (d : Dev) : Dev := { d with latches := d.latches.filter (fun e => e.1 ≠ portOf w) }

/-- Latching a high word. -/
def setLatch (w : Who) (k v : Nat) (d : Dev) : Dev :=
  { d with latches := d.latches.filter (fun e => e.1 ≠ portOf w) ++ [(portOf w, k, BitVec.ofNat 32 v)] }

/-! ### Reads -/

/-- The FIRST_LOST or FIRST_UE register that reading a counter clears. -/
def firstOf (k : Nat) : Option Nat :=
  let page := keyPage k
  let off := keyOff k
  match keyTy k with
  | 0x05 => if page = 3 && inR off 0x200 0x40 then some (k - off + 0x280 + 2 * (off - 0x200)) else none
  | 0x07 => if page = 1 && off = 0x044 then some (k - off + 0x058) else none
  | 0x09 => if page = 1 && off = 0x04C then some (k - off + 0x050) else none
  | 0x0C => if page = 0 && off = 0x040 then some (k - off + 0x048) else none
  | 0x12 => if page = 1 && off = 0x058 then some (k - off + 0x060) else none
  | 0x16 => if page ≠ 0 && off = 0x048 then some (k - off + 0x050) else none
  | ty => if 0x0D ≤ ty && ty ≤ 0x11 && off = 0x074 then some (k - off + 0x078) else none

/-- What an RC register holds after a read: MIN_Q starts again from its reset value (log entry 70). -/
def cleared (d : Dev) (k : Nat) : Nat := if keyTy k = T.FGS && keyOff k = 0x054 then (regDefault d.part k).toNat else 0

/-- A read of a word of an RC register clears all of the register, and the capture that goes with it. -/
def readClears (k : Nat) (d : Dev) : Dev :=
  if !(accOf k).rc then d
  else
    let d1 := match wideBase k with
      | some b => wr64 b 0 d
      | none => wr k (cleared d k) d
    match firstOf k with
    | some f => wr64 f 0 d1
    | none => d1

/-- What a read of a word does besides returning its value: RC clears, RET_STATUS starts the requester's cursor again
and RET_DATA advances it (R477), LRAM_DATA advances LRAM_SEL (R555). -/
def readActs (w : Who) (k : Nat) (d : Dev) : Dev :=
  if keyTy k = T.INT && keyPage k = 3 && keyOff k = 0x064 then (retStatus (portOf w) d).2
  else if keyTy k = T.INT && keyPage k = 3 && keyOff k = 0x068 then (retData (portOf w) d).2
  else if keyTy k = T.TWC && keyOff k = 0x084 then lramNext (keyInst k) d
  else readClears k d

/-- A word of CTR_ENTRY. -/
def isCtrEntry (k : Nat) : Bool := keyTy k = T.DPT && keyPage k = 2 && inR (keyOff k) 0x048 8

/-- The value a requester reads from a word; a read of CTR_ENTRY brings the counter on chip first, and a count that runs on
has done so. -/
def valueFor (w : Who) (k : Nat) (d : Dev) : Nat × Dev :=
  if runsOn k then wordValue k (runOn k d)
  else if isCtrEntry k then wordValue k (ctrLook d)
  else if keyTy k = T.INT && keyPage k = 3 && keyOff k = 0x068 then ((retData (portOf w) d).1, d) else wordValue k d

/-- A 32-bit read of a register word: none when refused (R57). Unpopulated slots read as zero (R49). -/
def regRead (w : Who) (k : Nat) (d : Dev) : Option Nat × Dev :=
  let d0 := dropLatch w d
  if !mayRead d w k then (none, d0)
  else if !populated d.part k then (some 0, d0)
  else match latchOf d w with
    | some (h, v) => if h = k then (some v.toNat, d0) else now d0
    | none => now d0
where
  now (d0 : Dev) : Option Nat × Dev :=
    let v := valueFor w k d0
    let d1 := if wideLow k then (let h := wordValue (k + 4) v.2; setLatch w (k + 4) h.1 h.2) else v.2
    (some v.1, readActs w k d1)

/-- A 64-bit read: one register, or two words that are each checked and act on their own (R61). -/
def regReadWide (w : Who) (k : Nat) (d : Dev) : Option Nat × Dev :=
  if wideLow k && mayRead d w k && populated d.part k then
    let d0 := dropLatch w d
    let v := valueFor w k d0
    let h := wordValue (k + 4) v.2
    (some (v.1 + h.1 * 2 ^ 32), readActs w k h.2)
  else
    let a := regRead w k d
    let b := regRead w (k + 4) a.2
    (match a.1, b.1 with
     | some x, some y => some (x + y * 2 ^ 32)
     | _, _ => none, dropLatch w b.2)

/-! ### Header writes -/

/-- UNIT_RESET of a unit (R112 and the chapters); a reset that runs goes on. -/
def unitResetReq (ty inst : Nat) (d : Dev) : Dev :=
  if !(capBits ty inst).testBit 0 || rdB d (kCTRL ty inst) 1 then d
  else if ty = T.CCH then resetUnit inst d
  else if ty = T.CTL then resetUnit (0x40 + inst) d
  else if ty = T.YRD then resetCluster inst d
  else if ty = T.INK then resetIntake inst (enterReset ty inst d)
  else if ty = T.STK then stackReset inst (enterReset ty inst d)
  else resetUnit (0x48 + 2 * (ty - 0x0D) + inst) d

/-- CTRL ENABLE (R644, R562): STATE follows it between OFF and RUNNING. MTB's ENABLE is read-only, and the depot's stays 0
until DEPOT_BASE is VALID (R294). -/
def enableUnit (ty inst : Nat) (on : Bool) (d : Dev) : Dev :=
  if ty = T.MTB then d
  else if ty = T.DPT && on && !bit (rd64 d (rk T.DPT 0 0 0x048)) 63 then flag0 T.DPT 0 15 0 d
  else
    let was := enabled d ty inst
    let st := unitState d ty inst
    let d1 := wrB (kCTRL ty inst) 0 on d
    let d2 := if st = .off || st = .running then setUnitState ty inst (if on then .running else .off) d1 else d1
    if ty = T.TWC && was && !on then portDisabled inst d2
    else if ty = T.HMI && !was && on then rebase (List.range 8) d2
    else d2

/-- A write of CTRL. STABLE_REQ and PROBATION_REQ together make the module ignore the whole write (R54). -/
def ctrlWrite (ty inst v : Nat) (d : Dev) : Dev :=
  if bit v 2 && bit v 3 then d
  else
    let d1 := if bit v 0 = enabled d ty inst && !(ty = T.DPT && bit v 0) then d else enableUnit ty inst (bit v 0) d
    let d2 := if bit v 1 then unitResetReq ty inst d1 else d1
    if bit v 2 then unitRequest ty inst true d2 else if bit v 3 then unitRequest ty inst false d2 else d2

/-- The flags that a page's block can inject (R55 and the chapters). The chapter of TPK names none, so none of its flags can be
injected although its CAN_INJECT is 1: DESIGN CHOICE, log entry 139. -/
def canInject (ty page n : Nat) : Bool :=
  match ty with
  | 0x02 => n = 0 | 0x03 => n = 0 | 0x05 => n = 0 || n = 1 || n = 3 | 0x07 => n = 0 || n = 1 || n = 5
  | 0x08 => n = 0 || n = 3 || n = 4 || n = 5 | 0x09 => n = 0 || n = 3
  | 0x0A => n = 0 || n = 1 | 0x0C => page ≠ 0 && (n = 1 || n = 2)
  | 0x0D => n = 1 | 0x0E => n = 1 | 0x0F => n = 1 | 0x10 => n = 1 | 0x11 => n = 1
  | 0x12 => n = 0 || n = 1 | 0x13 => n = 1 || n = 2 || n = 7 | 0x16 => n = 4 | 0x17 => n = 0 | 0x18 => n = 1
  | 0x19 => n = 0 || n = 3 | 0x1A => n = 1 | _ => false

/-- A write of INJECT. A stuck input that is active is masked at once (chapter 18). -/
def injectWrite (ty inst page v : Nat) (d : Dev) : Dev :=
  let n := fld v 20 16
  if !bit v 31 || !canInject ty page n then d
  else
    let d1 := arm ty inst page n (fld v 15 0) d
    if ty = T.HMI then injectStuck (fld v 4 0) false d1 else d1

/-- An alert bit of a type that a write has made rise is noted. -/
def alertEdge (ty : Nat) (before : Bool) (d : Dev) : Dev := if !before && typeAlert d ty then push .alert d else d

/-- A write of STICKY_MASK. -/
def maskWord (ty inst page v : Nat) (d : Dev) : Dev := alertEdge ty (typeAlert d ty) (wr (kMASK ty inst page) v d)

/-! ### Debug (CCH page 1, CTL page 0) -/

/-- DBG_CTRL of a core. -/
def kDbg (h : Nat) : Nat := if h < 64 then rk T.CCH h 1 0x040 else rk T.CTL (h - 64) 0 0x068

/-- CORE_STATE of a core that is not halted and not in FRAME_FAULT. -/
def liveMode (d : Dev) (h : Nat) : CoreMode :=
  let c := getCore d h
  if c.wait ≠ .none then .waiting else if c.resident || (runOf d (coreUnit h)).isSome then .running else .idle

/-- A write of DBG_CTRL: HALT_REQ puts the core in DEBUG_HALT until it is cleared, and STEP lets a halted core run one
instruction (R591). A core in FRAME_FAULT stays there. -/
def dbgWrite (h v : Nat) (d : Dev) : Dev :=
  let d1 := wr (kDbg h) (v % 8) d
  if (getCore d1 h).mode = .frameFault then d1
  else if bit v 0 then
    updCore h (fun c => { c with mode := .debugHalt, stepping := bit v 1 && c.mode = .debugHalt }) d1
  else if (getCore d1 h).mode = .debugHalt then
    (if bit v 1 then updCore h (fun c => { c with stepping := true }) d1
     else updCore h (fun c => { c with mode := liveMode d1 h, stepping := false }) d1)
  else d1

/-- A write of DBG_REG_DATA: the selected register takes the value, without poison, while the core is halted. -/
def dbgRegWrite (n v : Nat) (c : Core) : Core :=
  if c.mode ≠ .debugHalt then c
  else if n < 32 then (if n = 0 then c else { c with s := Map.set (fun _ => 0) c.s n (v % 2 ^ 64) })
  else if n = 32 then { c with csp := v % 2 ^ 48 } else if n = 33 then { c with ssp := v % 2 ^ 48 }
  else if 64 ≤ n then { c with v := Map.set (fun _ => 0) c.v (n - 64) (v % 2 ^ 32) } else c

/-- Whether a control core is halted, as LRAM_CLEAR asks (log entry 71). -/
def coreHalted (d : Dev) (h : Nat) : Bool :=
  let c := getCore d h
  c.mode = .frameFault || c.mode = .debugHalt || c.halted

/-! ### Block register writes -/

/-- The lines as a port last saw them, for a RECOVER that is written as a plain register write: whether nine clocks free
SDA is then a free value (log entry 72). -/
def seenLines (p : Nat) (d : Dev) : Lines × Dev :=
  let x := twPort d p
  if x.scl && x.sda then (.free, d)
  else if x.scl then (let r := draw d; (.sdaLow (r.1.toNat % 2 = 1), r.2)) else (.sclLow, d)

/-- The value that a plain word takes: the writable fields of the mask, W1C and W1S fields, brought into range (R9,
R645, R646). -/
def plainValue (m old k v : Nat) : Nat :=
  let a := accOf k
  let f := (a.rw ||| a.sup) &&& m
  let x := (old &&& (0xFFFFFFFF ^^^ f)) ||| (v &&& f)
  clampRanges k ((x &&& (0xFFFFFFFF ^^^ (v &&& a.w1c &&& m))) ||| (v &&& a.w1s &&& m))

/-- A plain write. -/
def plainWrite (m k v : Nat) (d : Dev) : Dev := wr k (plainValue m (rd d k) k v) d

/-- A 64-bit register takes one of its words. -/
def merged (d : Dev) (base k v : Nat) : Nat :=
  if k = base then v % 2 ^ 32 + rd d (base + 4) * 2 ^ 32 else rd d base + v % 2 ^ 32 * 2 ^ 32

/-- A write of OWNER and KIND of a semaphore, and of VALUE with them or not: one that names a compartment in reset or kill
waits (R318). -/
def semOwnerWrite (s owner kind : Nat) (value : Option Nat) (d : Dev) : Dev :=
  owe owner (.sem s owner kind value) (semOwned s owner kind value) d

/-- SEM[k] takes a word: KIND and OWNER in the high one, VALUE in the low one (R164, R318). -/
def semWrite (s : Nat) (hi : Bool) (v : Nat) (d : Dev) : Dev :=
  if hi then semOwnerWrite s (fld v 31 28) (fld v 27 26) none d else semValue s (fld v 23 0) d

/-- A command code of DESC_CMD. -/
def descCmd (s v : Nat) (d : Dev) : Dev :=
  match fld v 1 0 with
  | 0 => descRead s d | 1 => descCommit s d | 2 => descRelease s d | _ => descModify s d

/-- Step 1 of a reset or kill: command lists and graphs of the compartment end with its work (R435, R559). -/
def cutCompartment (n : Nat) (kill : Bool) (d : Dev) : Dev :=
  stopGraphs n kill (each [0, 1, 2, 3] (fun p d => listStopped p (fun a => a ≠ .command && askerCmp d a = n) d) d)

/-- CMP_CMD. -/
def cmpCommand (n v : Nat) (d : Dev) : Dev :=
  cmpCmd n (fld v 15 8) (fun d =>
    match fld v 1 0 with
    | 1 => cmpActivate n d
    | 2 => cmpReset n (if (getCmp d n).mode = .active then cutCompartment n false d else d)
    | 3 => cmpKill n (if (getCmp d n).mode = .free || (getCmp d n).mode = .killing then d else cutCompartment n true d)
    | _ => d) d

/-- DIG_CMD. -/
def digCmd (v : Nat) (d : Dev) : Dev :=
  match fld v 1 0 with
  | 1 => digRegister d | 2 => digCheckNow d | 3 => digRemove d | _ => d

/-- LINK_CMD. -/
def linkCmd (v : Nat) (d : Dev) : Dev :=
  match fld v 1 0 with
  | 1 => stableLink (linkSel d) d | 2 => probeLink (linkSel d) d | _ => d

/-- XSP_CMD. -/
def xspCmd (v : Nat) (d : Dev) : Dev :=
  flashStart (match fld v 9 8 with
    | 0 => .program | 1 => .erase4 | 2 => .erase64 | _ => .register (fld v 31 24)) d

/-- DORMANT_REQ (R123, R576): on entry the Dormant touch channels keep their thresholds and the PCIe link goes down. -/
def sleepReq (d : Dev) : Dev :=
  if rd d (kAon 0 0x050) ≠ 0 && d.pwr.state = .run then dormantReq (linkFalls (hmiSleep d)) else dormantReq d

/-- SYS_CTRL (R111, R123): DORMANT_REQ and WARM_RESET act with the key. With both bits 1 the warm reset acts: DESIGN CHOICE,
log entry 135. -/
def sysCtrl (v : Nat) (d : Dev) : Dev :=
  sysKey (fld v 15 8) (fun d =>
    if bit v 0 then warmStart 0x03 0 d
    else if bit v 1 then sleepReq d else d) d

/-- Writes of block registers that act, or that keep their value elsewhere: none for a plain word. `m` is the mask of
writable fields and `v` the value; no block looks at the requester here. -/
def blockWrite (_w : Who) (m k v : Nat) (d : Dev) : Option Dev :=
  let i := keyInst k
  let page := keyPage k
  let off := keyOff k
  let x := plainValue m (rd d k) k v
  match keyTy k with
  | 0x01 =>
    if page = 0 then
      (if off = 0x048 then some (sysCtrl v d) else if off = 0x054 then some (wdtPeriodWrite v d)
       else if off = 0x058 then some (wdtKick v d) else if off = 0x060 then some (hostDoorbell v d) else none)
    else if off = 0x048 then some (if alertPending d = 0 then wr k x d else push .alert (wr k x d)) else none
  | 0x02 =>
    if page = 0 && off = 0x040 then some (doIf (bit v 9) refRestore (wr k (v &&& 0x110) d)) else none
  | 0x03 =>
    if page = 0 then
      (if off = 0x040 then some (govCtrl v d) else if off = 0x05C then some (manualTarget v d)
       else if off = 0x048 then
         some (limited false (wr k x) d)
       else if off = 0x058 then some (windowWrite x d)
       else if inR off 0x060 8 then some (enrollKept (wr k x d))
       else none)
    else if off = 0x04C then some (threshWrite x d) else none
  | 0x05 =>
    (match page with
     | 0 => if off = 0x048 then some (descCmd i v d) else none
     | 1 => if off = 0x044 then some (owe (v % 16) (.tally (tallySel d i) (v % 16))
                (updTally (tallySel d i) (fun t => { t with owner := v % 16 })) d) else none
     | 2 => if inR off 0x800 0x800 then some (semWrite (i * 256 + (off - 0x800) / 8) (off % 8 = 4) v d) else none
     | _ => none)
  | 0x06 =>
    if page = 1 then
      (if off = 0x044 then some (routeData v d) else if off = 0x048 then some (if bit v 0 then startSwitch d else d)
       else if off = 0x054 then some (linkCmd v d) else none)
    else none
  | 0x07 =>
    if page = 0 then
      (if off = 0x04C then some (if bit v 8 then stablePc i (fld v 4 0) d else d)
       else if off = 0x050 then some (if i = 0 then spareWrite (bit v 31) d else d)
       else if off = 0x058 then some (recalPeriod i v d) else none)
    else none
  | 0x08 =>
    if page = 1 then
      (if off = 0x040 then some (dbgWrite i v d)
       else if off = 0x060 || off = 0x064 then
         some (let n := rdF d (rk T.CCH i 1 0x058) 9 0
               let old := dbgReg (getCore d i) n
               let val := if off = 0x060 then v % 2 ^ 32 + hi32 old * 2 ^ 32 else lo32 old + v % 2 ^ 32 * 2 ^ 32
               updCore i (dbgRegWrite n val) d)
       else none)
    else none
  | 0x09 =>
    if page = 0 then
      (if off = 0x040 then
         some (if i = 0 then d else updCore (64 + i) (fun c => { c with redo := true, halted := false }) (wr k x d))
       else if off = 0x068 then some (dbgWrite (64 + i) v d) else none)
    else if off = 0x058 then some (wr k (rd d k ||| (v &&& 1)) d) else none
  | 0x0A =>
    (match page with
     | 0 => if off = 0x054 then some (doIf (bit v 0) (depotCheck epochBoundary) d) else none
     | 1 => if off = 0x044 then some (queueCmd v d) else if inR off 0x068 8 then some d else none
     | 2 => if off = 0x050 then some (doIf (bit v 0) (depotCheck ctrClear) d) else none
     | _ => none)
  | 0x0B =>
    if off = 0x044 then some (cmpCommand i v d)
    else if inR off 0x050 8 then some (coachMask i (merged d (kC i 0x050) k v) d)
    else if off = 0x058 then some (otherMask i v d)
    else if inR off 0x060 8 then some (configure i (wr k v) d)
    else if off = 0x070 then some (evqWrite i v d)
    else if inR off 0x080 0x40 then
      some (stkWinWrite i ((off - 0x080) / 8) (merged d (kC i (off / 8 * 8)) k v) d)
    else if off = 0x0C4 && i ≠ 0 then some d else none
  | 0x0C =>
    if page = 0 then
      (if inR off 0x100 0xC0 && off % 0x20 = 0 then
         some (if i = 0 then fsyncCtrl ((off - 0x100) / 0x20) x d else d)
       else if i ≠ 0 && inR off 0x100 0xC0 then some d else none)
    else
      let p := 3 * i + (page - 1)
      if off = 0x040 then some (portCtrl p x d)
      else if inR off 0x090 16 then
        some (let b := (off - 0x090) / 4
              let d1 := streamRelease p b (fld v 3 0) d
              if bit v 8 then streamReplug p b d1 else d1)
      else if inR off 0x100 0x100 then
        some (let b := (off - 0x100) / 0x40
              if off % 0x40 = 0 then bindWrite p b v d else bindField p b k x d)
      else none
  | 0x12 => if page = 0 && off = 0x04C then some (graphCmd v d) else none
  | 0x13 =>
    (match page with
     | 0 => if off = 0x100 then some (xcStart v d) else if off = 0x204 then some (digCmd v d) else none
     | 1 => if inR off 0x100 0x200 && off % 0x20 = 0 then some (lcfgWritten ((off - 0x100) / 0x20) (wr k x d)) else none
     | _ => none)
  | 0x15 => if page = 0 && off = 0x044 then some (doIf (bit v 31) snapTake (wrF k 15 0 v d)) else none
  | 0x16 =>
    if page ≠ 0 then
      (let f := page - 1
       if inR off 0x400 0x100 then some (vecBind f ((off - 0x400) / 4) v d)
       else if inR off 0x800 0x400 then some (msixWrite f off v d) else none)
    else none
  | 0x17 =>
    if page = 0 then (if off = 0x044 then some (if bit v 0 then formCmd d else d) else none)
    else if off = 0x040 then some (portEnable (page - 1) (bit v 0) d) else none
  | 0x19 =>
    if off = 0x04C then some (if bit v 8 then listAsked i (fld v 5 0) .command d else d)
    else if off = 0x054 then some (if bit v 0 then (let l := seenLines i d; recoverBus i l.1 l.2) else d)
    else if off = 0x084 then some (lramWrite i v d)
    else if inR off 0x100 0x100 then some (listDirWrite i ((off - 0x100) / 4) v d)
    else if off = 0x040 then
      some (wr k (if fld v 15 8 = 0 then v &&& 0x7 else x) d)
    else none
  | 0x1A =>
    if page = 0 then
      (if off = 0x04C then some (scanCfg x d)
       else if inR off 0x080 0xB8 && off % 8 = 0 then some (inputCfg ((off - 0x080) / 8) x false d) else none)
    else if inR off 0x040 0x40 && off % 0x10 = 0 then some (ledCtrl ((off - 0x040) / 0x10) x d)
    else if off = 0x080 then some (ledRestarts (fld v 3 0) d) else none
  | 0x1B => if page = 1 && off = 0x048 then some (progCmd v d) else none
  | 0x1C => if off = 0x044 then some (xspCmd v d) else none
  | _ => none

/-- Whether a block refuses the write although the rights allow it: TALLY_REARM of another compartment's tally (R156) and
LRAM_CLEAR while the core is not halted. -/
def blockRefuses (d : Dev) (w : Who) (k v : Nat) : Bool :=
  let i := keyInst k
  if keyTy k = T.YRD && keyPage k = 1 && keyOff k = 0x050 then
    (cmpOf d w ≠ 0 && cmpOf d w ≠ (getTally d (tallySel d i)).owner) || (bit v 0 && (clusterOut d i || clusterCut d w i || !enabled d T.YRD i))
  else keyTy k = T.CTL && keyPage k = 1 && keyOff k = 0x058 && bit v 0 && !coreHalted d (64 + i)

/-- A write of a register word with a mask of writable fields. -/
def storeWord (w : Who) (m k v : Nat) (d : Dev) : Dev :=
  let ty := keyTy k
  let i := keyInst k
  let page := keyPage k
  match keyOff k with
  | 0x008 => ctrlWrite ty i v d
  | 0x010 => if ownSticky ty page then clearSticky ty i page v d else d
  | 0x014 => if ownSticky ty page then maskWord ty i page v d else d
  | 0x01C => if ownSticky ty page then injectWrite ty i page v d else d
  | 0x024 => if page = 0 && assignable k then wr k (v % 16) d else d
  | off =>
    if off < 0x040 then d
    else if ty = T.YRD && page = 1 && off = 0x050 then
      (if bit v 0 then rearm (tallySel d i) d else d)
    else match blockWrite w m k v d with
      | some e => e
      | none => plainWrite m k v d

/-- A 32-bit write of a register word: false when refused. -/
def regWrite (w : Who) (k v : Nat) (d : Dev) : Bool × Dev :=
  let d0 := dropLatch w d
  match writeMask d w k with
  | none => (false, d0)
  | some m =>
    if !populated d.part k || m = 0 then (true, d0)
    else if blockRefuses d w k v then (false, d0)
    else (true, storeWord w m k (v % 2 ^ 32) d0)

/-- Registers of 64 bits whose two words act as one when they are written together. -/
def actsWide (k : Nat) : Option (Nat → Dev → Dev) :=
  let i := keyInst k
  let off := keyOff k
  if keyTy k = T.CMP && off = 0x050 then some (coachMask i)
  else if keyTy k = T.CMP && inR off 0x080 0x40 && off % 8 = 0 then some (stkWinWrite i ((off - 0x080) / 8))
  else if keyTy k = T.YRD && keyPage k = 2 && inR off 0x800 0x800 && off % 8 = 0 then
    some (fun v d => semOwnerWrite (i * 256 + (off - 0x800) / 8) (fld v 63 60) (fld v 59 58) (some (fld v 23 0)) d)
  else if keyTy k = T.CCH && keyPage k = 1 && off = 0x060 then
    some (fun v d => updCore i (dbgRegWrite (rdF d (rk T.CCH i 1 0x058) 9 0) v) d)
  else none

/-- A 64-bit write: one register, or two words that are each checked and act on their own, the lower first (R61). -/
def regWriteWide (w : Who) (k v : Nat) (d : Dev) : Bool × Dev :=
  match (if wideLow k && populated d.part k then actsWide k else none), writeMask d w k with
  | some f, some _ => (true, f v (dropLatch w d))
  | _, _ =>
    let a := regWrite w k (v % 2 ^ 32) d
    let b := regWrite w (k + 4) (v / 2 ^ 32) a.2
    (a.1 && b.1, b.2)

end Sys2Proof.Machine
end

