-- ==== Sys2Proof/Machine/Bus.lean ====
section
/-! DEFINITION. Accesses over the module's address map (R40 to R43): the yard and stack memory, local RAM (R252), the boot
ROM, the ledger RAM, register pages (R60, R61), enqueue windows (R263, R286) and the boot-flash window. -/

namespace Sys2Proof.Machine

/-! ### Local RAM (R43, R252) -/

def lramBase : Nat := 0x10000000

/-- A cell of local RAM by core × 65536 + offset / 4. -/
def lramCell (d : Dev) (n : Nat) : Cell39 := Map.get (fun _ => goodCell 0) d.cores.lram n

/-- Storing a cell. -/
def putLramCell (n : Nat) (c : Cell39) (d : Dev) : Dev :=
  { d with cores := { d.cores with lram := Map.set (fun _ => goodCell 0) d.cores.lram n c } }

/-- Reading a cell: a corrected error is counted; an uncorrectable one is counted, captured, and the cell rewritten as
poisoned (R252, R133, R467). -/
def readLramCell (n : Nat) (d : Dev) : (W32 × Bool) × Dev :=
  let core := n / 65536
  let off := n % 65536
  let k := fun o => rk T.CTL core 1 o
  let at_ := lramBase + 4 * n
  match (lramCell d n).decode with
  | .good w => ((w, false), d)
  | .poisoned w => ((w, true), d)
  | .corrected w =>
    ((w, false), cper { cls := 0x01, block := T.CTL, inst := core, addr := at_, detail := off }
      (flag0 T.CTL core 6 off (bump (k 0x048) d)))
  | .uncorrectable w =>
    let d1 := bump (k 0x04C) (putLramCell n (poisonCell w) d)
    let d2 := if bit (rd64 d1 (k 0x050)) 63 then d1 else wr64 (k 0x050) (2 ^ 63 + 4 * off) d1
    ((w, true), score (0x40 + core) 1
      (cper { cls := 0x02, block := T.CTL, inst := core, addr := at_, detail := off } (flag0 T.CTL core 7 off d2)))

/-- Reading cells one after another. -/
def readLramCells : Nat → Nat → Dev → List (W32 × Bool) × Dev
  | _, 0, d => ([], d)
  | n, k + 1, d =>
    let r := readLramCell n d
    let rest := readLramCells (n + 1) k r.2
    (r.1 :: rest.1, rest.2)

/-- Reading bytes at an offset of the local RAM window. -/
def readLram (o len : Nat) (d : Dev) : List PByte × Dev :=
  let r := readLramCells (o / 4) (cellsTouched o len) d
  (((cellBytes r.1).drop (o % 4)).take len, r.2)

/-- Writing one cell: a whole cell takes its data; a part of one is merged with the word read, whose poison stays. -/
def mergeLram (n : Nat) (bs : List (Option Byte)) (d : Dev) : Dev :=
  let full := bs.all Option.isSome
  let r := if full then (((0 : W32), false), d) else readLramCell n d
  let old := leBytes 4 r.1.1.toNat
  let w := BitVec.ofNat 32 (leNat ((List.range 4).map (fun i => ((bs[i]?).getD none).getD (old.getD i 0))))
  putLramCell n (if r.1.2 then poisonCell w else goodCell w) r.2

/-- Writing bytes at an offset of the local RAM window. -/
def writeLram (o : Nat) (bs : List Byte) (d : Dev) : Dev :=
  foldBelow (cellsTouched o bs.length) (fun i d => mergeLram (o / 4 + i) (cellPart o bs (o / 4 + i)) d) d

/-- Storage upset of a local RAM cell: bits of the stored code word flip (R440). -/
def upsetLram (o : Nat) (bits : BitVec 39) (d : Dev) : Dev := putLramCell (o / 4) (lramCell d (o / 4) ^^^ bits) d

/-- Whether a requester reaches a core's local RAM (R43). -/
def lramOpen (acc : Access) (o : Nat) : Bool :=
  acc.cmp = 0 || (match acc.who with
    | .ctl n => n.val = o / 0x40000
    | _ => false)

/-! ### Ledger RAM (R127) -/

/-- Reading bytes. -/
def readLedger (d : Dev) (o len : Nat) : List Byte :=
  (List.range len).map (fun i => BitVec.ofNat 8 (fld (ledRd d (o + i)) (8 * ((o + i) % 4) + 7) (8 * ((o + i) % 4))))

/-- Writing one byte. -/
def writeLedgerByte (o : Nat) (b : Byte) (d : Dev) : Dev :=
  ledWr o (setFld (ledRd d o) (8 * (o % 4) + 7) (8 * (o % 4)) b.toNat) d

/-- Writing bytes; the RAM ends the access at its last byte. -/
def writeLedger (o : Nat) (bs : List Byte) (d : Dev) : Dev :=
  foldBelow bs.length (fun i d => writeLedgerByte (o + i) (bs.getD i 0) d) d

/-! ### The address map -/

/-- The windows of the map (R40). -/
inductive Region where
  | memory | lram (o : Nat) | rom (o : Nat) | ledger (o : Nat) | page (k : Nat) | window (q off : Nat) | outbound
  | flash (o : Nat) | nothing
deriving DecidableEq, Repr

/-- The window of a 46-bit address. -/
def regionOf (a : Nat) : Region :=
  if a < yardEnd then .memory
  else if inR a lramBase 0x100000 then .lram (a - lramBase)
  else if inR a 0x20000000 0x10000 then .rom (a - 0x20000000)
  else if inR a 0x30000000 0x10000 then .ledger (a - 0x30000000)
  else if inR a 0x40000000 0x10000000 then .page (a - 0x40000000)
  else if inR a 0x60000000 0x400000 then .window ((a - 0x60000000) / 0x40) (a % 0x40)
  else if inR a stackBase 0x1000000000 then .memory
  else if inR a 0x2000000000 0x100000000 then .outbound
  else if inR a 0x3000000000 0x10000000 then .flash (a - 0x3000000000)
  else .nothing

/-! ### The way to a block (R178, R191) -/

/-- The station to which accesses of a register page travel (R178): blocks behind a bundle are reached by the first bundle
of their die (R195; for I/O die 1 log entry 120), and those without an attachment, the CMP pages among them, are met where
the access starts. DESIGN CHOICE (log entry 149): an STK page is reached at the first of its stack's four edge stations, and
a CMP page at station 0, where the depot is. -/
def pageStation (k : Nat) : Option Nat :=
  let i := keyInst k
  match keyTy k with
  | 0x05 => some i
  | 0x08 => some i
  | 0x07 => some (edgeStation i 0)
  | 0x09 => homeStation (.ctl (Fin.ofNat 4 i))
  | 0x0A => some 0
  | 0x0B => some 0
  | 0x0C => some (if i = 0 then 3 else 59)
  | 0x0D => some (if i = 0 then 7 else 56)
  | 0x0E => some (if i = 0 then 7 else 56)
  | 0x0F => some (if i = 0 then 7 else 56)
  | 0x10 => some (if i = 0 then 7 else 56)
  | 0x11 => some (if i = 0 then 7 else 56)
  | 0x12 => some 5
  | 0x13 => some 6
  | 0x14 => some 6
  | 0x15 => some 61
  | 0x16 => some 3
  | 0x17 => some 59
  | 0x18 => some 3
  | 0x19 => some 3
  | 0x1A => some 3
  | 0x1C => some 3
  | _ => none

/-- The station to which an access outside the memories travels. -/
def busStation (a : Nat) : Option Nat := match regionOf a with
  | .page k => pageStation k
  | .lram o => homeStation (.ctl (Fin.ofNat 4 (o / 0x40000)))
  | .ledger _ => some 3
  | .window _ _ => some 0
  | .flash _ => some 3
  | _ => none

/-- Whether an access goes to an attachment that is not a station (R191): what is not a yard, coach or stack page. DEDUCED
(log entry 151): a register page of a station that is UNREACHABLE is reached as one of a stabled cluster is, whose pages R176
leaves readable and writable. -/
def toAttachment (a : Nat) : Bool := match regionOf a with
  | .page k => keyTy k ≠ T.YRD && keyTy k ≠ T.CCH && keyTy k ≠ T.STK
  | .memory => false
  | _ => true

/-- An attachment that is unreachable from its source: a decode error (R191). -/
def attachCut (d : Dev) (w : Who) (a : Nat) : Bool := toAttachment a && (match busStation a with
  | some t => cutOff d (homeStation w) t
  | none => false)

/-- Where an access goes: to this module, to another one, or nowhere (R45, R46, R589, R505). -/
inductive Toward where
  | here | far (m : Nat) | nowhere
deriving DecidableEq, Repr

/-- Where a requester's address leads: the management bus, the TAP and a host function reach their own module alone and
cannot name another; a drawbar port serves its own. -/
def toward (d : Dev) (w : Who) (a : Nat) : Toward :=
  let own := if isLocal d a then Toward.here else .nowhere
  let plain := if a < 2 ^ 46 then Toward.here else .nowhere
  match w with
  | .mgmt => plain
  | .tap => plain
  | .host _ => plain
  | .drawbar _ _ => own
  | _ => if 2 ^ 48 ≤ a then .nowhere else if isLocal d a then .here
         else if isPresent d (addrModule a) then .far (addrModule a) else .nowhere

/-- Whether every byte of an access lies in the window of its first byte. -/
def oneWindow (a len : Nat) : Bool :=
  match regionOf a, regionOf (a + len - 1) with
  | .memory, .memory => true
  | .lram o, .lram p => o / 0x40000 = p / 0x40000
  | .rom _, .rom _ => true
  | .ledger _, .ledger _ => true
  | .flash _, .flash _ => true
  | .outbound, .outbound => true
  | .page _, .page _ => true
  | .window q _, .window r _ => q = r
  | _, _ => false

/-- Register pages and window status return no poison. -/
def plainBytes (bs : List Byte) : ReadOut := .data (bs.map (fun b => (b, false)))

/-- A refused access outside the yard and the stacks: these windows belong to compartment 0. -/
def refusedAt (acc : Access) (a : Nat) (d : Dev) : Dev := refused acc .refusedRights (some 0) false a d

/-- Whether a read of CTR_ENTRY has to wait for its counter (R296). The management bus cannot be made to wait; a word that
has been latched needs no counter (R62). -/
def entryWaits (acc : Access) (k : Nat) (d : Dev) : Bool :=
  isCtrEntry k && acc.who ≠ .mgmt && mayRead d acc.who k && (latchOf d acc.who).all (fun x => x.1 ≠ k) &&
    !ctrReadable d (rdF d (kD 2 0x040) 19 0)

/-- A read of a page that its block holds is kept, to be made again (R296). -/
def keepRead (h : HeldAccess) (d : Dev) : Dev := { d with dpt := { d.dpt with heldReads := d.dpt.heldReads ++ [h] } }

/-- A held read of `n` bytes of a page. -/
def pageHold (acc : Access) (k n tag : Nat) (d : Dev) : Dev :=
  keepRead { station := 128, acc := acc, addr := 0x40000000 + k, data := [], tag := tag, len := n } d

/-- A read of a register page: 4 or 8 bytes, aligned (R60). -/
def readPage (acc : Access) (k len : Nat) (d : Dev) : ReadOut × Dev :=
  if entryWaits acc k d then (.held, ctrLook d)
  else
  let r := if len = 4 && k % 4 = 0 then regRead acc.who k d
           else if len = 8 && k % 8 = 0 then regReadWide acc.who k d else (none, dropLatch acc.who d)
  match r.1 with
  | some v => (plainBytes (leBytes len v), r.2)
  | none => (.fail .refusedRights, refusedReg acc.who k false r.2)

/-- A TALLY_REARM write that the rights allow, at a cluster with ENABLE 0, which refuses it NO_REGION (R644). -/
def rearmOff (d : Dev) (w : Who) (k v : Nat) : Bool :=
  let i := keyInst k
  keyTy k = T.YRD && keyPage k = 1 && keyOff k = 0x050 && bit v 0 && (writeMask d w k).isSome &&
    (cmpOf d w = 0 || cmpOf d w = (getTally d (tallySel d i)).owner) && !clusterOut d i && !clusterCut d w i &&
    !enabled d T.YRD i

/-- A write of a register page. -/
def writePage (acc : Access) (k : Nat) (bs : List Byte) (d : Dev) : WriteOut × Dev :=
  let r := if bs.length = 4 && k % 4 = 0 then regWrite acc.who k (leNat bs) d
           else if bs.length = 8 && k % 8 = 0 then regWriteWide acc.who k (leNat bs) d else (false, dropLatch acc.who d)
  if r.1 then (.ok, r.2)
  else if rearmOff d acc.who k (leNat bs) then (.fail .noRegion, refused acc .noRegion none false (regAddr k) r.2)
  else (.fail .refusedRights, refusedReg acc.who k true r.2)

/-- A refused access of an enqueue window. -/
def windowRefused (acc : Access) (q off : Nat) (d : Dev) : Dev :=
  refused acc .refusedRights (some (queueOwner d q)) false (0x60000000 + 0x40 * q + off) d

/-- A read of a window: 8 bytes at offset 0, by the queue's owner or compartment 0 (R40, R286). -/
def readWindow (acc : Access) (q off len : Nat) (d : Dev) : ReadOut × Dev :=
  if off = 0 && len = 8 && (acc.cmp = 0 || acc.cmp = queueOwner d q) then (plainBytes (leBytes 8 (windowWord d q)), d)
  else (.fail .refusedRights, windowRefused acc q off d)

/-- A write of a window: 64 bytes at offset 0 offer a waybill, and 8 bytes at offset 8 advance HEAD. -/
def writeWindow (acc : Access) (q off : Nat) (bs : List Byte) (d : Dev) : WriteOut × Dev :=
  if off = 0 && bs.length = 64 then (.ok, offerWindow acc.who q (Image.ofBytes bs) d)
  else if off = 8 && bs.length = 8 then
    let qd := getQueue d q
    if qd.valid && qd.kind = 1 && (acc.cmp = qd.owner || acc.cmp = 0) then (.ok, cqHead acc.who q (leNat bs) d)
    else (.fail .refusedRights, windowRefused acc q off d)
  else (.fail .refusedRights, windowRefused acc q off d)

/-- A read of a location of this module that is not behind the outbound window. -/
def busRead (acc : Access) (a len : Nat) (d : Dev) : ReadOut × Dev :=
  if !oneWindow a len || attachCut d acc.who a then (.fail .noRegion, decodeError acc a d)
  else match regionOf a with
    | .memory => memRead acc a len d
    | .lram o =>
      if lramOpen acc o then (let r := readLram o len d; (.data r.1, r.2)) else (.fail .refusedRights, refusedAt acc a d)
    | .rom o =>
      if acc.cmp = 0 then (plainBytes ((List.range len).map (fun i => Config.bootRom (o + i))), d)
      else (.fail .refusedRights, refusedAt acc a d)
    | .ledger o =>
      if acc.cmp = 0 then
        (let r := ledgerRead o len d
         (.data ((readLedger d o len).map (fun b => (b, r.1))), r.2))
      else (.fail .refusedRights, refusedAt acc a d)
    | .page k => readPage acc k len d
    | .window q off => readWindow acc q off len d
    | .flash o =>
      if acc.cmp = 0 then (plainBytes (flashBytes d o len), d) else (.fail .refusedRights, refusedAt acc a d)
    | .outbound => (.fail .noRegion, decodeError acc a d)
    | .nothing => (.fail .noRegion, decodeError acc a d)

/-- A write of a location of this module that is neither posted memory nor behind the outbound window. -/
def directWrite (acc : Access) (a : Nat) (bs : List Byte) (d : Dev) : WriteOut × Dev :=
  if !oneWindow a bs.length || attachCut d acc.who a then (.fail .noRegion, decodeError acc a d)
  else match regionOf a with
    | .lram o => if lramOpen acc o then (.ok, writeLram o bs d) else (.fail .refusedRights, refusedAt acc a d)
    | .ledger o => if acc.cmp = 0 then (.ok, ledgerMended o bs.length (writeLedger o bs d)) else (.fail .refusedRights, refusedAt acc a d)
    | .page k => writePage acc k bs d
    | .window q off => writeWindow acc q off bs d
    | _ => (.fail .noRegion, decodeError acc a d)

/-- Whether a location takes posted writes: the yard and stack memory. -/
def isMemory (a : Nat) : Bool := match regionOf a with
  | .memory => true
  | _ => false

/-- An access outside the memories is sent to its block: what the running command says befalls it (R182, R196). -/
def sendBus (acc : Access) (a : Nat) (d : Dev) : Fate × Dev :=
  if isMemory a then sendOff acc a d
  else match busStation a with
    | some t => sendTo acc.who acc.second (homeStation acc.who) t a d
    | none => (.arrives, d)

/-- Data that has lost its byte parity on the way to or from a block (R442). -/
def wayParity (acc : Access) (a : Nat) (d : Dev) : Dev :=
  match regionOf a with
  | .memory => pathParity acc a d
  | .page k => cper { cls := 0x04, block := keyTy k, inst := keyInst k, cmp := some acc.cmp, addr := a,
                      tag := tagOf d acc.who.unitId, unit := acc.who.unitId } d
  | _ => cper { cls := 0x04, block := T.TPK, cmp := some acc.cmp, addr := a, tag := tagOf d acc.who.unitId,
                unit := acc.who.unitId } d

/-- A read, an atomic or a register access whose packet is lost waits for its timer (R183). -/
def lostAsk (acc : Access) (a : Nat) (what : FarFor) (d : Dev) : Dev :=
  { d with dbr := { d.dbr with
    nextXid := d.dbr.nextXid + 1
    far := d.dbr.far ++ [{ xid := d.dbr.nextXid, who := acc.who, cmp := acc.cmp, dst := moduleNo d, addr := a, what := what,
                           since := tick d }] } }

/-- A write of a location of this module: posted to memory, direct elsewhere. -/
def busWrite (acc : Access) (tag serial a : Nat) (bs : List Byte) (d : Dev) : WriteOut × Dev :=
  if isMemory a && oneWindow a bs.length then postWrite false acc tag serial a bs d else directWrite acc a bs d

end Sys2Proof.Machine
end

