-- ==== Sys2Proof/Machine/EngOps.lean ====
section
/-! DEFINITION. What the vision engines share (R364 to R367, R379, R380): the job descriptor, reading of pixel arrays,
conversion and writing of results, and the registers of an engine's page. -/

namespace Sys2Proof.Machine

/-! ### Engines -/

/-- The key of a register of an engine's page, by unit id. -/
def kEng (u off : Nat) : Nat := rk (unitPage u).1 (unitPage u).2 0 off

/-- A flag of an engine. -/
def engFlag (u n detail : Nat) (d : Dev) : Dev := flag0 (unitPage u).1 (unitPage u).2 n detail d

/-- Changing an engine's job. -/
def setEng (u : Nat) (x : Eng) (d : Dev) : Dev := { d with engs := Map.set (fun _ => ({} : Eng)) d.engs u x }

/-- The unit whose claim a run's accesses use: a duplicate's accesses run under the original's claim (R447). -/
def claimUnit (d : Dev) (u : Nat) (r : Running) : Nat :=
  match r.kind with
  | .original => u
  | .shadow k => ((getSample d k).map (·.unit)).getD u
  | .tiebreak k => ((getSample d k).map (·.unit)).getD u

/-- How a run's access is treated. -/
def runAccess (d : Dev) (u : Nat) (r : Running) (write : Bool) : Access :=
  { who := unitWho u, cmp := r.cmp, write := write, unit := claimUnit d u r }

/-- The job ends with a status. -/
def jobEnds (u status : Nat) (d : Dev) : Dev := setEnding u status 0 0 d

/-- A job is rejected (R364): BAD_JOB with its code, and ABORT_FAULT. -/
def badJob (u code : Nat) (d : Dev) : Dev := jobEnds u 0x23 (engFlag u 0 code d)

/-! ### Reading -/

/-- What reading has brought so far: the module, whether an access was refused or is held, the poisoned elements, and the
elements read, of which those in `marks` are treated as poisoned (R365, INJECT). -/
structure Load where
  d     : Dev
  fail  : Bool := false
  held  : Bool := false
  bad   : Nat := 0
  count : Nat := 0
  marks : List Nat := []
  /-- The accesses that sweeps hold when this one is held. -/
  waiting : List (Who × Nat) := []
  /-- Pieces beyond the module for which this one waits (R45). -/
  asks : List (Nat × Nat) := []
  /-- Columns whose state words are spoilt: the column times 65536 plus the words (R389), and whether an injection has met
  them. -/
  restarts : List Nat := []
  spent : Bool := false

/-- A reading goes on. -/
def Load.ok (l : Load) : Bool := !l.fail && !l.held

/-- A piece beyond the module of a unit's run, once asked for. -/
def farPiece (d : Dev) (u a n : Nat) : Option FarPiece :=
  (runOf d u).bind (fun r => (getEng d u).far.find? (fun p => p.serial = r.serial && p.addr = a && p.len = n))

/-- Whether an address leads beyond the module: to another member, or to the host (R45, R509). -/
def beyond (d : Dev) (w : Who) (a : Nat) : Bool := match toward d w a with
  | .far _ => true
  | .here => inOutbound (a % 2 ^ 46)
  | .nowhere => false

/-- What has come back of a piece beyond the module: data that was lost is poisoned. -/
def farRead (d : Dev) (u a n : Nat) : ReadOut := match (farPiece d u a n).bind (·.answer) with
  | none => .held
  | some (.data bs) => .data (if bs.isEmpty then List.replicate n (0, true) else bs.take n)
  | some (.fail k) => .fail k
  | some _ => .data (List.replicate n (0, true))

/-- A piece of a job's input, wherever its address leads (R40, R45). -/
def engPiece (u : Nat) (acc : Access) (a n : Nat) (d : Dev) : ReadOut × Dev :=
  let b := a % 2 ^ 46
  if beyond d acc.who a then (farRead d u a n, d)
  else match toward d acc.who a with
    | .here =>
      if isMemory b then readPiece acc b n d
      else
        let on := sendBus acc b d
        if on.1 = .lost then (.data (List.replicate n (0, true)), timedOut acc.who on.2)
        else
          let r := busRead acc b n on.2
          (match r.1, on.1 with
           | .data bs, .unheard => ((ReadOut.data bs).spoil, timedOut acc.who r.2)
           | .data bs, .spoiled => ((ReadOut.data bs).spoil, wayParity acc b r.2)
           | o, _ => (o, r.2))
    | _ => (.fail .noRegion, decodeError acc (a % 2 ^ 48) d)

/-- Reading the pieces of a row, each an access of its own, which the digests fold in (R449). The pieces beyond the module
are asked for together. -/
def loadPieces (u : Nat) (acc : Access) : List (Nat × Nat) → Load → List PByte × Load
  | [], l => ([], l)
  | (a, n) :: ps, l =>
    if !l.ok then ([], l)
    else
      match engPiece u acc a n l.d with
      | (.data bs, d) =>
        let r := loadPieces u acc ps { l with d := foldAccess u 9 a false (bs.map (·.1)) d }
        (bs ++ r.1, r.2)
      | (.fail _, d) => ([], { l with d := d, fail := true })
      | (.held, d) =>
        ([], { l with held := true, waiting := d.yard.waits, asks := ((a, n) :: ps).filter (fun p => beyond d acc.who p.1) })

/-- A job asks for a piece beyond the module, once; the host's window may refuse it. -/
def askPiece (u : Nat) (acc : Access) (p : Nat × Nat) (d : Dev) : Dev :=
  match runOf d u with
  | none => d
  | some r =>
    if (farPiece d u p.1 p.2).isSome then d
    else
      let note := fun (x : Option FarReply) (d : Dev) =>
        setEng u { getEng d u with far := (getEng d u).far ++ [⟨r.serial, p.1, p.2, x⟩] } d
      match toward d acc.who p.1 with
      | .far m => note none (farAsk acc.who acc.cmp (tagOf d u) m p.1 (.read p.1 p.2 false) .engine false d)
      | _ =>
        let o := outRead acc.who acc.cmp (p.1 % 2 ^ 46) p.2 .engine d
        note (if o.1 then none else some (.fail .noRegion)) o.2

/-- A job waits: for what sweeps hold, and for pieces beyond the module. -/
def jobHolds (u : Nat) (acc : Access) (l : Load) (d : Dev) : Dev :=
  each l.asks (askPiece u acc) { d with yard := { d.yard with waits := l.waiting } }

/-- A piece beyond the module has come back. -/
def pieceBack (u a : Nat) (x : FarReply) (d : Dev) : Dev :=
  let e := getEng d u
  let mine := fun (p : FarPiece) => p.answer.isNone && p.addr % 2 ^ 46 = a % 2 ^ 46
  setEng u { e with far := changeFirst mine (fun p => some { p with answer := some x }) e.far } d

/-- The pieces of `n` cells of row `r` of a 2-D array (R131, R323). -/
def cellPieces (base wb r n : Nat) : List (Nat × Nat) :=
  (List.range ((n + 31) / 32)).map (fun i => (base + (r / 32 * wb + i) * 0x1000 + r % 32 * 128, 4 * min 32 (n - 32 * i)))

/-- The pieces of `n` bytes of a linear array. -/
def bytePieces (base n : Nat) : List (Nat × Nat) :=
  (List.range ((n + 127) / 128)).map (fun i => (base + 128 * i, min 128 (n - 128 * i)))

/-- Elements of `w` bytes of what was read: −2 for a poisoned element, else its bits. -/
def elemsOf (w : Nat) : Nat → List PByte → List Int
  | 0, _ => []
  | k + 1, bs => (if (bs.take w).any (·.2) then -2 else ((leNat ((bs.take w).map (·.1)) : Nat) : Int)) :: elemsOf w k (bs.drop w)

/-- Counting elements as they are read; marked ones are poisoned. -/
def countElems (xs : List Int) (l : Load) : List Int × Load :=
  let ys := if l.marks.isEmpty then xs
            else (List.range xs.length).map (fun i => if l.marks.contains (l.count + i) then (-2 : Int) else xs.getD i (-1))
  (ys, { l with count := l.count + xs.length, bad := l.bad + (ys.filter (· = -2)).length })

/-- A 2-D array of elements as a descriptor names it: base, blocks per block row, element bytes, element columns, and a
side mask. -/
structure Arr where
  base : Nat
  wb   : Nat
  w    : Nat
  cols : Nat
  mask : Option (Nat × Nat) := none
  /-- The bits that mark an invalid element. -/
  code : Option Nat := none

/-- A row of an array: −2 poisoned, −1 invalid, else the element's bits (R365). -/
def loadRow (u : Nat) (acc : Access) (x : Arr) (r : Nat) (l : Load) : List Int × Load :=
  let p := loadPieces u acc (cellPieces x.base x.wb r ((x.cols * x.w + 3) / 4)) l
  let q := match x.mask with
    | none => ([], p.2)
    | some m => loadPieces u acc (cellPieces m.1 m.2 r ((x.cols + 31) / 32)) p.2
  if !q.2.ok then ([], q.2)
  else
    let c := countElems (elemsOf x.w x.cols p.1) q.2
    let mbits := leNat (q.1.map (·.1))
    let marr := q.1.toArray
    let e := (List.range x.cols).zip c.1
    (e.map (fun y =>
      if y.2 = -2 then -2
      else if mbits.testBit y.1 || (marr.getD (y.1 / 8) (0, false)).2 || x.code = some y.2.toNat then -1
      else y.2), c.2)

/-- The loaded rows of an array; rows that were not asked for are empty. -/
abbrev Grid := Array (Array Int)

/-- Loading rows `[lo, hi)` of an array. -/
def loadGrid (u : Nat) (acc : Access) (x : Arr) (lo hi : Nat) (l : Load) : Grid × Load :=
  (List.range hi).foldl (fun g r =>
    if r < lo then (g.1.push #[], g.2)
    else
      let p := loadRow u acc x r g.2
      (g.1.push p.1.toArray, p.2)) (#[], l)

/-- A pixel of a grid: −1 outside what was loaded. -/
def Grid.px (g : Grid) (r x : Nat) : Int := (g.getD r #[]).getD x (-1)

/-- A reflected coordinate of a level of size `n` (R369). -/
def reflect (i : Int) (n : Nat) : Nat :=
  let j := if i < 0 then -i else if (n : Int) - 1 < i then 2 * ((n : Int) - 1) - i else i
  (clampInt 0 ((n : Int) - 1) j).toNat

/-! ### Results -/

/-- A number converted for writing (R367, R337): y = fma(v, SCALE, OFFSET), then the format. `v` is FP32 bits. -/
def convertOut (fmt scale offset v : Nat) : Nat :=
  let y := fmtFp32.decode (fmtFp32.fma 0 v scale offset false).1
  let flt := fun (f : Fmt) => match y with
    | .inf a => (if a then f.signBit else 0) + f.maxBits
    | .fin a m e => (f.round 0 a m e false true).1
    | _ => f.nan
  match fmt with
  | 0x11 => ofSigned 8 (convertInt (-128) 127 0 y).1
  | 0x14 => flt fmtBf16
  | 0x15 => flt fmtFp16
  | _ => flt fmtFp32

/-- Bytes of an element of an output format. -/
def fmtBytes (fmt : Nat) : Nat :=
  if fmt = 0x00 || fmt = 0x11 || fmt = 0x0A then 1 else if fmt = 0x16 || fmt = 0x09 then 4 else 2

/-- The invalid code of an output format; zero where a side mask marks invalidity (R325, R337). -/
def fmtInvalid (fmt : Nat) : Nat :=
  match fmt with
  | 0x01 => 0xFFFF | 0x08 => 0xFFFF | 0x09 => 0x80008000 | 0x14 => 0x7FC1 | 0x15 => 0x7E01 | 0x16 => 0x7FC00001 | _ => 0

/-- Whether a format marks invalidity in a side mask. -/
def fmtMasked (fmt : Nat) : Bool := fmt = 0x00 || fmt = 0x11

/-- An element for writing: `same`, of a U8 or U16 image, takes the value without R367 (R368), the nearest valid one where
it falls outside the format (R329). -/
def elemOut (fmt scale offset : Nat) (same : Bool) (v : Option Int) : Nat :=
  match v with
  | none => fmtInvalid fmt
  | some i =>
    if same then min i.toNat (if fmt = 0x01 then 0xFFFE else 0xFF)
    else convertOut fmt scale offset (fmtFp32.roundInt 0 i 0 false).1

/-- The cells that hold elements `[x0, x0 + n)` of a row, as bytes from the first cell on: the elements of those cells
that the job does not compute hold free values, before and after, since a cell is written whole (R366). -/
def cellBytesOf (w x0 : Nat) (es : List Nat) (free : List Nat → W64) : List Byte :=
  let p := 4 / w
  let pre := x0 % p
  let tail := (p - (pre + es.length) % p) % p
  leBytes (pre * w) (free (0 :: es)).toNat ++ es.flatMap (leBytes w) ++ leBytes (tail * w) (free (1 :: es)).toNat

/-- The bits of a row of mask cells from cell `x0 / 32` on; bits of elements that the job does not compute are free
(R336). -/
def maskBytesOf (x0 : Nat) (bad : List Bool) (free : List Nat → W64) : List Byte :=
  let pre := x0 % 32
  let tail := (32 - (pre + bad.length) % 32) % 32
  let es := bad.map b2n
  let some_ := fun (v : W64) n => (List.range n).map (fun i => v.toNat.testBit i)
  let bits := some_ (free (2 :: es)) pre ++ bad ++ some_ (free (3 :: es)) tail
  let num := ((List.range bits.length).zip bits).foldl (fun a (e : Nat × Bool) => if e.2 then a + 2 ^ e.1 else a) 0
  leBytes (bits.length / 8) num

/-- The free bits of a row of a unit's job (log entry 156). -/
def spareOf (u base r x0 : Nat) (d : Dev) (es : List Nat) : W64 :=
  Config.spareBits (getEng d u).words (base :: r :: x0 :: es)

/-- A posted write of an engine, wherever its address leads (R40, R45, R166): one that nothing takes fails with NO_REGION. -/
def engSend (acc : Access) (tag a : Nat) (bs : List Byte) (d : Dev) : Dev :=
  let b := a % 2 ^ 46
  let serial := serialOf d acc.who.unitId
  let ended := fun (o : WriteOut) => launch ⟨acc.who, acc.cmp, tag, serial, a, true, postedOutcome o, tick d, acc.stream⟩
  match toward d acc.who a with
  | .nowhere => ended (.fail .noRegion) (decodeError acc (a % 2 ^ 48) d)
  | .far _ => farWrite acc tag serial a bs d
  | .here =>
    if inOutbound b then outWrite acc tag serial b bs d
    else if isMemory b then sendWrite acc tag b bs d
    else
      let on := sendBus acc b d
      match on.1 with
      | .lost => ended .held on.2
      | .spoiled => ended (.fail .pathParity) (wayParity acc b on.2)
      | .arrives => let r := directWrite acc b bs on.2; ended r.1 r.2
      | .unheard => ended .held (directWrite acc b bs on.2).2

/-- Sending the pieces of an engine's output: a duplicate folds its writes into its digest and sends none (R447,
R449). -/
def engWrite (u : Nat) (r : Running) (ps : List (Nat × List Byte)) (d : Dev) : Dev :=
  each (ps.filter (fun x => x.2 ≠ [])) (fun x d =>
    let d1 := foldAccess u 9 x.1 true x.2 d
    if r.kind = .original then engSend (runAccess d1 u r true) r.image.tag x.1 x.2 d1 else d1) d

/-- Bytes of a row of cells cut where blocks end, from cell column `c0` on. -/
def blockPieces (base wb r c0 : Nat) (bs : List Byte) : List (Nat × List Byte) :=
  let at_ := fun c => base + (r / 32 * wb + c / 32) * 0x1000 + r % 32 * 128 + c % 32 * 4
  let head := 4 * (32 - c0 % 32)
  let rest := bs.drop head
  (at_ c0, bs.take head) ::
    (List.range ((rest.length + 127) / 128)).map (fun i => (at_ (c0 / 32 * 32 + 32 * (i + 1)), (rest.drop (128 * i)).take 128))

/-- Bytes of a linear array cut at multiples of 128. -/
def linearPieces (base : Nat) (bs : List Byte) : List (Nat × List Byte) :=
  let head := 128 - base % 128
  let rest := bs.drop head
  (base, bs.take head) ::
    (List.range ((rest.length + 127) / 128)).map (fun i => (base + head + 128 * i, (rest.drop (128 * i)).take 128))

/-- An output array: base, blocks per block row, format, mask, and its conversion. -/
structure Out where
  base   : Nat
  wb     : Nat
  fmt    : Nat
  mask   : Option (Nat × Nat) := none
  scale  : Nat := 0
  offset : Nat := 0
  same   : Bool := false

/-- Writing elements `[x0, …)` of row `r` (R335 to R337, R366), with the counts of the engine's page. -/
def emitRow (u : Nat) (run : Running) (o : Out) (r x0 : Nat) (vs : List (Option Int)) (d : Dev) : Dev :=
  let w := fmtBytes o.fmt
  let c := cellBytesOf w x0 (vs.map (elemOut o.fmt o.scale o.offset o.same)) (spareOf u o.base r x0 d)
  let d1 := engWrite u run (blockPieces o.base o.wb r (x0 * w / 4) c) d
  let d2 := match o.mask with
    | none => d1
    | some m =>
      engWrite u run (blockPieces m.1 m.2 r (x0 / 32) (maskBytesOf x0 (vs.map (·.isNone)) (spareOf u m.1 r x0 d))) d1
  bump64By (kEng u 0x068) (vs.filter (·.isNone)).length (bump64By (kEng u 0x060) vs.length d2)

/-! ### Jobs -/

/-- Where a job stands (R364). -/
def jobOf (d : Dev) (u : Nat) : Option Running :=
  match runOf d u with
  | some r => if r.ended.isNone then some r else none
  | none => none

/-- A job whose descriptor has been checked and whose outputs have not been written. -/
def openJob (d : Dev) (u : Nat) : Option (Running × List Nat) :=
  match jobOf d u with
  | some r => let e := getEng d u
              if e.serial = r.serial && !e.done && !e.words.isEmpty then some (r, e.words) else none
  | none => none

/-- The elements of a job that are treated as poisoned: those that fail their byte parity, and the first one when an
injection is armed (R365, INJECT). -/
def jobMarks (d : Dev) (u : Nat) (parity : List Nat) : List Nat :=
  match armed d (unitPage u).1 (unitPage u).2 0 1 with
  | some p => if (unitPage u).1 = T.STR && p % 2 = 1 then parity else 0 :: parity
  | none => parity

/-- An injection has fired. -/
def jobInjected (u : Nat) (l : Load) (d : Dev) : Dev :=
  match armed d (unitPage u).1 (unitPage u).2 0 1 with
  | some p => if ((unitPage u).1 = T.STR && p % 2 = 1) || l.count = 0 then d else fired (unitPage u).1 (unitPage u).2 0 d
  | none => d

/-- Spoilt state words count, and an injection that has met them is spent (R389). -/
def stateSpoilt (u : Nat) (l : Load) (d : Dev) : Dev :=
  each l.restarts (fun x d =>
      engFlag u 5 (x / 65536) (bumpBy (kEng u 0x088) (x % 65536) (bumpBy (kEng u 0x070) (x % 65536) d)))
    (if l.spent then fired T.STR (unitPage u).2 0 d else d)

/-- The counts of poisoned elements (R365), and of spoilt state words. -/
def poisonIn (u : Nat) (l : Load) (d : Dev) : Dev :=
  let d1 := jobInjected u l d
  stateSpoilt u l (if l.bad = 0 then d1
    else setEng u { getEng d1 u with poison := true } (engFlag u 1 0 (bumpBy (kEng u 0x070) l.bad d1)))

/-- The outputs have been written; the job took `steps` steps. -/
def jobDone (u steps : Nat) (d : Dev) : Dev :=
  setEng u { getEng d u with done := true, far := [] } (bump64By (kEng u 0x058) steps (tcount 4 steps d))

/-- What a job does once its inputs are loaded: nothing while an access is held, ABORT_FAULT when one was refused (R59),
else its outputs. -/
def afterLoad (u : Nat) (l : Load) (d : Dev) (f : Dev → Dev) : Dev :=
  if l.held then (match runOf d u with
    | some r => jobHolds u (runAccess d u r false) l d
    | none => d)
  else if l.fail then jobEnds u 0x23 (poisonIn u l l.d)
  else f (poisonIn u l l.d)

/-- ENGINE_JOB_START (R364, R379): the descriptor of `n` bytes is read and checked. -/
def jobStart (u n : Nat) (check : List Nat → Nat) (d : Dev) : Dev :=
  match jobOf d u with
  | none => d
  | some r =>
    if (getEng d u).serial = r.serial then d
    else if r.image.job % 64 ≠ 0 then badJob u 7 (setEng u { serial := r.serial } d)
    else
      let l := loadPieces u (runAccess d u r false) (bytePieces r.image.job n) { d := d }
      if l.2.held then jobHolds u (runAccess d u r false) l.2 d
      else
        let d1 := setEng u { serial := r.serial } l.2.d
        if l.2.fail then badJob u 9 d1
        else if l.1.any (·.2) then jobEnds u 0x20 (engFlag u 3 0 d1)
        else
          let ws := (List.range (n / 8)).map (fun i => leNat (((l.1.map (·.1)).drop (8 * i)).take 8))
          let c := check ws
          if c = 0 then setEng u { serial := r.serial, words := ws } d1 else badJob u c d1

/-- ENGINE_JOB_END: the engine reports the end of its job (R365, R366). -/
def jobEnd (u : Nat) (d : Dev) : Dev :=
  match jobOf d u with
  | none => d
  | some r =>
    let e := getEng d u
    if e.serial = r.serial && e.done then
      setRun u (some { r with ended := some { unit := u, poison := e.poison } }) (bump (kEng u 0x050) d)
    else d

/-- A word of a descriptor, and its common fields. -/
def wordAt (ws : List Nat) (i : Nat) : Nat := ws.getD i 0
def baseOf (w : Nat) : Nat := fld w 47 0
def wbOf (w : Nat) : Nat := fld w 55 48 + 1

/-- A mask that a word names: none for a base of 0. -/
def maskOf (w : Nat) : Option (Nat × Nat) := if baseOf w = 0 then none else some (baseOf w, wbOf w)

/-- The first code whose check fails. -/
def firstCode (xs : List (Nat × Bool)) : Nat := ((xs.find? (·.2)).map (·.1)).getD 0

/-- Whether a base is not aligned to 4 KiB. -/
def offPage (w : Nat) : Bool := baseOf w % 0x1000 ≠ 0

end Sys2Proof.Machine
end

