-- ==== Sys2Proof/Machine/Pyramid.lean ====
section
/-! DEFINITION. The pyramid engine (R368 to R373). -/

namespace Sys2Proof.Machine

/-- Fields of a PYR descriptor (R368). -/
structure PyrJob where
  inFmt  : Nat
  gFmt   : Nat
  lFmt   : Nat
  levels : Nat
  lap    : Bool
  copy0  : Bool
  width  : Nat
  height : Nat
  rb     : Nat
  re     : Nat
  scale  : Nat
  offset : Nat

/-- Reading the fields. -/
def pyrJob (ws : List Nat) : PyrJob :=
  let w0 := wordAt ws 0
  let w1 := wordAt ws 1
  let w2 := wordAt ws 2
  { inFmt := fld w0 63 56, gFmt := fld w2 63 56, lFmt := fld w2 55 48, levels := fld w2 42 40, lap := bit w2 39,
    copy0 := bit w2 38, width := fld w1 63 48, height := fld w1 47 32, rb := fld w1 31 16, re := fld w1 15 0,
    scale := fld (wordAt ws 3) 63 32, offset := fld (wordAt ws 3) 31 0 }

/-- The words of a PYR descriptor that the job uses, beside words 0 to 3. -/
def pyrUsed (j : PyrJob) : List Nat :=
  (if j.inFmt = 0 then [4] else []) ++ (List.range j.levels).map (5 + ·) ++
    (if j.lap then (List.range j.levels).map (11 + ·) else []) ++
    (if fmtMasked j.gFmt then (List.range j.levels).map (17 + ·) else []) ++ (if j.copy0 then [23] else [])

/-- Words whose reserved bits are checked: all but those for levels above LEVELS, which are ignored (R368). -/
def pyrChecked (j : PyrJob) : List Nat :=
  [4, 23] ++ (List.range j.levels).flatMap (fun k => [5 + k, 11 + k, 17 + k])

/-- The check of a PYR descriptor (R364). -/
def pyrCheck (ws : List Nat) : Nat :=
  let j := pyrJob ws
  firstCode
    [(1, !(decide (j.inFmt ≤ 1) && [j.inFmt, 0x11, 0x14, 0x15].contains j.gFmt && [0x14, 0x15, 0x16].contains j.lFmt)),
     (2, j.width < 8 || 4096 < j.width || j.height < 8 || 4096 < j.height),
     (3, j.re ≤ j.rb || j.height < j.re),
     (4, j.levels = 0 || 6 < j.levels),
     (7, offPage (wordAt ws 0) || (pyrUsed j).any (fun i => offPage (wordAt ws i))),
     (8, fld (wordAt ws 2) 47 43 ≠ 0 || fld (wordAt ws 2) 37 0 ≠ 0 || (pyrChecked j).any (fun i => fld (wordAt ws i) 63 56 ≠ 0))]

/-- The size of level `k` (R369). -/
def levelSize (n : Nat) : Nat → Nat
  | 0 => n
  | k + 1 => (levelSize n k + 1) / 2

/-- n_k(b): Gaussian rows of level k that the level-0 rows below b determine (R372). -/
def rowsOf (h b : Nat) : Nat → Nat
  | 0 => b
  | k + 1 => if rowsOf h b k = levelSize h k then levelSize h (k + 1) else (rowsOf h b k - 1) / 2

/-- m_k(b): Laplacian rows of level k that are determined (R372). -/
def lapRowsOf (h b k : Nat) : Nat :=
  if rowsOf h b (k + 1) = levelSize h (k + 1) then levelSize h k else min (rowsOf h b k) (2 * rowsOf h b (k + 1) - 2)

/-- The filter weights over offsets −2 to 2. -/
def tapWeight (a : Nat) : Nat := if a = 2 then 6 else if a = 1 || a = 3 then 4 else 1

/-- A Gaussian pixel (R370), −1 when invalid. -/
def gaussPixel (g : Grid) (h w r x : Nat) : Int :=
  let t := (List.range 5).foldl (fun (t : Int × Int) (a : Nat) => (List.range 5).foldl (fun (t : Int × Int) (b : Nat) =>
    let p := g.px (reflect (2 * (r : Int) + a - 2) h) (reflect (2 * (x : Int) + b - 2) w)
    let q : Int := tapWeight a * tapWeight b
    if p < 0 then t else (t.1 + q * p, t.2 + q)) t) (0, 0)
  if t.2 < 128 then -1 else (t.1 + t.2 / 2) / t.2

/-- A Laplacian pixel (R371); none when invalid. -/
def lapPixel (g n : Grid) (h1 w1 r x : Nat) : Option Int :=
  let t := (List.range 5).foldl (fun (t : Int × Int) (a : Nat) => (List.range 5).foldl (fun (t : Int × Int) (b : Nat) =>
    if (r + a) % 2 = 0 && (x + b) % 2 = 0 then
      let p := n.px (reflect (((r : Int) + a - 2) / 2) h1) (reflect (((x : Int) + b - 2) / 2) w1)
      let q : Int := tapWeight a * tapWeight b
      if p < 0 then t else (t.1 + q * p, t.2 + q)
    else t) t) (0, 0)
  let c := g.px r x
  if t.2 < 32 || c < 0 then none else some (c - (t.1 + t.2 / 2) / t.2)

/-- Level k + 1 of a pyramid, rows `[lo, hi)` computed and the rows of `old` kept elsewhere. -/
def nextLevel (g old : Grid) (h w w1 lo hi : Nat) : Grid :=
  ((List.range hi).map (fun r =>
    if r < lo then old.getD r #[] else ((List.range w1).map (fun x => gaussPixel g h w r x)).toArray)).toArray

/-- The rows of level k that level k + 1's rows from `lo` on draw on begin here. -/
def firstNeeded (lo : Nat) : Nat := 2 * lo - 2

/-- Where the rows that the job must have begin, at each level, highest level first. -/
def neededFrom (j : PyrJob) : Nat → List Nat
  | 0 =>
    let own := if j.lap then lapRowsOf j.height j.rb 0 else rowsOf j.height j.rb 0
    [min own (firstNeeded (rowsOf j.height j.rb 1))]
  | k + 1 =>
    let own := rowsOf j.height j.rb (k + 1)
    let l1 := if j.lap && decide (k + 1 < j.levels) then min own (lapRowsOf j.height j.rb (k + 1)) else own
    let l2 := if k + 1 < j.levels then min l1 (firstNeeded (rowsOf j.height j.rb (k + 2))) else l1
    let l3 := if j.lap then min l2 (lapRowsOf j.height j.rb k / 2 - 1) else l2
    l3 :: neededFrom j k

/-- The first row that the job needs of each level when the levels are stored exactly (R372). -/
def needs (j : PyrJob) : List Nat := (neededFrom j j.levels).reverse

/-- The first row of level `k` that the job needs when it computes every level from the input: what level k + 1 needs
draws on it. -/
def needsAll (ns : List Nat) : List Nat :=
  ns.foldr (fun n acc => match acc with
    | [] => [n]
    | m :: _ => min n (firstNeeded m) :: acc) []

/-- An array of level `k` as the job reads it: the input, or G[k] of an earlier band. -/
def pyrArr (ws : List Nat) (j : PyrJob) (k : Nat) : Arr :=
  let w := levelSize j.width k
  let code := if j.inFmt = 1 then some 0xFFFF else none
  let i := if k = 0 then 0 else 4 + k
  let m := if j.inFmt = 1 then none else maskOf (wordAt ws (if k = 0 then 4 else 16 + k))
  { base := baseOf (wordAt ws i), wb := wbOf (wordAt ws i), w := j.inFmt + 1, cols := w, mask := m, code := code }

/-- The levels of a job: level 0 from the input, and each further level computed from the one below. Rows of earlier bands
are read from G[k] when G_FMT is IN_FMT; under another G_FMT, which does not hold the exact integers of R370, they are
computed again from the input (log entry 51). -/
def pyrLevels (u : Nat) (acc : Access) (ws : List Nat) (j : PyrJob) (l : Load) : List Grid × Load :=
  let exact := j.gFmt = j.inFmt
  let ns := if exact then needs j else needsAll (needs j)
  let g0 := loadGrid u acc (pyrArr ws j 0) (ns.getD 0 0) j.re l
  (List.range j.levels).foldl (fun (s : List Grid × Load) k =>
    let hi := rowsOf j.height j.re (k + 1)
    let from_ := if exact then rowsOf j.height j.rb (k + 1) else ns.getD (k + 1) 0
    let old := if exact && decide (ns.getD (k + 1) 0 < from_) then
        loadGrid u acc (pyrArr ws j (k + 1)) (ns.getD (k + 1) 0) from_ s.2 else ((#[] : Grid), s.2)
    let g := nextLevel (s.1.getLastD #[]) old.1 (levelSize j.height k) (levelSize j.width k) (levelSize j.width (k + 1)) from_ hi
    (s.1 ++ [g], old.2)) ([g0.1], g0.2)

/-- Steps of a job (R373). -/
def pyrSteps (j : PyrJob) : Nat :=
  64 + (sumBelow j.levels (fun k =>
    let w := levelSize j.width k
    2 * w * (rowsOf j.height j.re (k + 1) - rowsOf j.height j.rb (k + 1)) +
      (if j.lap then w * (lapRowsOf j.height j.re k - lapRowsOf j.height j.rb k) else 0)) + 7) / 8

/-- A row of a grid as values. -/
def gridRow (g : Grid) (r w : Nat) : List (Option Int) :=
  (List.range w).map (fun x => let v := g.px r x; if v < 0 then none else some v)

/-- Rows `[lo, hi)` written by `f`. -/
def eachRow (lo hi : Nat) (f : Nat → Dev → Dev) (d : Dev) : Dev :=
  each ((List.range hi).filter (fun r => decide (lo ≤ r))) f d

/-- An output array of a job. -/
def pyrOut (ws : List Nat) (j : PyrJob) (i fmt : Nat) (mask : Option (Nat × Nat)) : Out :=
  { base := baseOf (wordAt ws i), wb := wbOf (wordAt ws i), fmt := fmt, mask := mask, scale := j.scale, offset := j.offset,
    same := fmt = j.inFmt }

/-- The levels of a job, as it reads and computes them. -/
def pyrLoad (u : Nat) (r : Running) (ws : List Nat) (parity : List Nat) (d : Dev) : List Grid × Load :=
  pyrLevels u (runAccess d u r false) ws (pyrJob ws) { d := d, marks := jobMarks d u parity }

/-- What a job writes of its levels: each G[k], each L[k] when LAPLACIAN is on, and the copy of level 0 (R370 to R372). -/
def pyrWrites (u : Nat) (r : Running) (ws : List Nat) (levels : List Grid) (d : Dev) : Dev :=
  let j := pyrJob ws
  let grid := fun k => levels.getD k #[]
  let out := pyrOut ws j
  let d1 := each (List.range j.levels) (fun k d =>
    let m := if fmtMasked j.gFmt then maskOf (wordAt ws (17 + k)) else none
    eachRow (rowsOf j.height j.rb (k + 1)) (rowsOf j.height j.re (k + 1)) (fun y d =>
      emitRow u r (out (5 + k) j.gFmt m) y 0 (gridRow (grid (k + 1)) y (levelSize j.width (k + 1))) d) d) d
  let d2 := doIf j.lap (each (List.range j.levels) (fun k d =>
    eachRow (lapRowsOf j.height j.rb k) (lapRowsOf j.height j.re k) (fun y d =>
      emitRow u r (out (11 + k) j.lFmt none) y 0 ((List.range (levelSize j.width k)).map (fun x =>
        lapPixel (grid k) (grid (k + 1)) (levelSize j.height (k + 1)) (levelSize j.width (k + 1)) y x)) d) d)) d1
  doIf j.copy0 (eachRow j.rb j.re (fun y d =>
    emitRow u r (out 23 j.gFmt none) y 0 (gridRow (grid 0) y j.width) d)) d2

/-- PYR_JOB (R370 to R373). -/
def pyrRun (u : Nat) (parity : List Nat) (d : Dev) : Dev :=
  match openJob d u with
  | none => d
  | some (r, ws) =>
    let lv := pyrLoad u r ws parity d
    afterLoad u lv.2 d (fun d => jobDone u (pyrSteps (pyrJob ws)) (pyrWrites u r ws lv.1 d))

end Sys2Proof.Machine
end

