-- ==== Sys2Proof/Machine/Stereo.lean ====
section
/-! DEFINITION. The census and matching cost (R383, R384) and the stereo engine (R385 to R395). -/

namespace Sys2Proof.Machine

/-! ### Census (R383, R384) -/

/-- Half width and half height of the census window. -/
def censusHalf (c : Nat) : Nat × Nat := if c = 0 then (2, 2) else if c = 1 then (3, 3) else (4, 3)

/-- CMAX: bits of the census. -/
def cmax (c : Nat) : Nat := if c = 0 then 24 else if c = 1 then 48 else 62

/-- The census of a pixel, −1 when invalid (R383). -/
def censusOf (c : Nat) (g : Grid) (h w r x : Nat) : Int :=
  let hw := (censusHalf c).1
  let hh := (censusHalf c).2
  let centre := g.px r x
  if centre < 0 then -1
  else
    (List.range (2 * hh + 1)).foldl (fun (a : Int) (i : Nat) => (List.range (2 * hw + 1)).foldl (fun (a : Int) (k : Nat) =>
      if a < 0 || (i = hh && k = hw) then a
      else
        let p := g.px (reflect ((r : Int) + i - hh) h) (reflect ((x : Int) + k - hw) w)
        if p < 0 then -1 else 2 * a + (if p < centre then 1 else 0)) a) 0

/-- The censuses of rows `[lo, hi)`. -/
def censusGrid (c : Nat) (g : Grid) (h w lo hi : Nat) : Grid :=
  ((List.range hi).map (fun r => if r < lo then #[] else ((List.range w).map (fun x => censusOf c g h w r x)).toArray)).toArray

/-- The distance between two censuses (R384). -/
def censusDist (c : Nat) (a b : Int) : Nat :=
  if a < 0 || b < 0 then cmax c else popCount 62 (a.toNat ^^^ b.toNat)

/-! ### The descriptor (R394) -/

structure StrJob where
  inFmt  : Nat
  width  : Nat
  height : Nat
  rb     : Nat
  re     : Nat
  refine : Bool
  census : Nat
  paths5 : Bool
  lrEn   : Bool
  lrTol  : Nat
  nd     : Nat
  dlim   : Nat
  p2     : Nat
  p1     : Nat
  confMin : Nat
  outFmt : Nat
  state  : Nat

/-- Reading the fields. -/
def strJob (ws : List Nat) : StrJob :=
  let w2 := wordAt ws 2
  let w3 := wordAt ws 3
  { inFmt := fld (wordAt ws 0) 63 56, width := fld w2 63 48, height := fld w2 47 32, rb := fld w2 31 16, re := fld w2 15 0,
    refine := bit w3 63, census := fld w3 62 61, paths5 := bit w3 60, lrEn := bit w3 59, lrTol := fld w3 58 56,
    nd := fld w3 55 48, dlim := fld w3 47 36, p2 := fld w3 35 26, p1 := fld w3 25 20, confMin := fld w3 15 8,
    outFmt := fld w3 7 0, state := baseOf (wordAt ws 7) }

/-- The check of an STR descriptor (R364, R379). -/
def strCheck (ws : List Nat) : Nat :=
  let j := strJob ws
  let high := fun i => fld (wordAt ws i) 63 56 ≠ 0
  firstCode
    [(1, !(decide (j.inFmt ≤ 1) && [0x08, 0x14, 0x15].contains j.outFmt)),
     (2, j.width < 16 || 4096 < j.width || j.height < 8 || 4096 < j.height),
     (3, j.re ≤ j.rb || j.height < j.re),
     (5, j.census = 3),
     (7, [0, 1, 5, 6, 7].any (fun i => offPage (wordAt ws i)) || (j.refine && offPage (wordAt ws 4)) ||
         (j.inFmt = 0 && (offPage (wordAt ws 9) || offPage (wordAt ws 10)))),
     (8, [1, 4, 5, 6, 9, 10].any high || fld (wordAt ws 7) 63 48 ≠ 0 || fld (wordAt ws 3) 19 16 ≠ 0 ||
         [11, 12, 13, 14, 15].any (fun i => wordAt ws i ≠ 0)),
     (0x0A, (if j.refine then decide (j.nd < 3) || decide (33 < j.nd) || j.nd % 2 = 0 else decide (j.nd < 2) || decide (128 < j.nd))
         || decide (j.dlim < j.nd - 1) || j.dlim = 0),
     (0x0B, j.p1 = 0 || decide (j.p2 < j.p1)),
     (0x0D, j.state = 0 && (decide (0 < j.rb) || decide (j.re < j.height)))]

/-! ### Costs and paths (R385 to R389) -/

/-- Values over a disparity range: its first disparity and the values. -/
structure Costs where
  lo : Nat
  v  : Array Nat
deriving Inhabited

/-- The value at a disparity, if it is in the range. -/
def Costs.get (c : Costs) (d : Int) : Option Nat :=
  if d < c.lo then none else c.v[(d - c.lo).toNat]?

/-- The lowest value. -/
def Costs.least (c : Costs) : Nat := c.v.foldl min (2 ^ 32)

/-- lo of each pixel of a row (R385): `prior` gives the D16 value at a column of the coarser row, −1 when invalid. -/
def rangeLos (j : StrJob) (prior : Nat → Int) : List Nat :=
  if !j.refine then List.replicate j.width 0
  else
    let r : Int := (j.nd / 2 : Nat)
    let step := fun (s : Option Int × List Nat) (x : Nat) =>
      let p := prior (x / 2)
      let dh : Option Int := if p < 0 then s.1 else some ((p + 4) / 8)
      let lo := min (max (dh.getD (j.dlim / 2 : Nat) - r) 0) ((j.dlim : Int) - ((j.nd : Int) - 1))
      (dh, lo.toNat :: s.2)
    ((List.range j.width).foldl step (none, [])).2.reverse

/-- C(p, d) over the range of a pixel (R386). -/
def pixelCosts (j : StrJob) (l r : Grid) (row x lo : Nat) : Costs :=
  let c := l.px row x
  { lo := lo, v := ((List.range j.nd).map (fun k =>
      if lo + k ≤ x then censusDist j.census c (r.px row (x - (lo + k))) else cmax j.census)).toArray }

/-- L at a pixel from its predecessor's (R388). -/
def pathStep (p1 p2 : Nat) (c : Costs) (pred : Option Costs) : Costs :=
  match pred with
  | none => c
  | some q =>
    let m := q.least
    let near := fun (t : Nat) (o : Option Nat) k => match o with
      | some y => min t (y + k)
      | none => t
    { lo := c.lo, v := ((List.range c.v.size).map (fun k =>
        let dd : Int := (c.lo + k : Nat)
        let t := near (near (near (m + p2) (q.get dd) 0) (q.get (dd - 1)) p1) (q.get (dd + 1)) p1
        c.v.getD k 0 + t - m)).toArray }

/-- A row path: each pixel from the one before it in the list. -/
def sweepPath (p1 p2 : Nat) : Option Costs → List Costs → List Costs
  | _, [] => []
  | pred, c :: cs => let l := pathStep p1 p2 c pred
                     l :: sweepPath p1 p2 (some l) cs

/-- What the downward paths leave of a row: for each column, lo and the L of each path; none for a column that restarts
(R389). -/
abbrev Below := Array (Option (List Costs))

/-- The column offsets of the downward paths (R387). -/
def downDirs (j : StrJob) : List Int := if j.paths5 then [0, -1, 1] else [0]

/-- Costs of a row summed over its paths, and the downward path costs of each column (R387, R388). -/
def rowPaths (j : StrJob) (cs : List Costs) (above : Option Below) : List Costs × Below :=
  let right := sweepPath j.p1 j.p2 none cs
  let left := (sweepPath j.p1 j.p2 none cs.reverse).reverse
  let arr := cs.toArray
  let down := (List.range j.width).map (fun (x : Nat) => (List.range (downDirs j).length).map (fun i =>
    let px := (x : Int) + (downDirs j).getD i 0
    let pred := match above with
      | none => none
      | some b => if px < 0 ∨ (j.width : Int) ≤ px then none else match b.getD px.toNat none with
        | some ls => ls[i]?
        | none => none
    pathStep j.p1 j.p2 (arr.getD x default) pred))
  let ra := right.toArray
  let la := left.toArray
  let da := down.toArray
  let sums := (List.range j.width).map (fun x =>
    let parts := ra.getD x default :: la.getD x default :: da.getD x []
    { lo := (arr.getD x default).lo,
      v := ((List.range j.nd).map (fun k => parts.foldl (fun s (c : Costs) => s + c.v.getD k 0) 0)).toArray : Costs })
  (sums, (down.map some).toArray)

/-! ### The state buffer (R389) -/

/-- Q, the column pitch of the state buffer. -/
def statePitch (j : StrJob) : Nat := (4 + 2 * (downDirs j).length * j.nd + 3) / 4 * 4

/-- The state of a column as bytes. -/
def stateBytes (j : StrJob) (ls : List Costs) : List Byte :=
  let body := leBytes 2 ((ls.head?.map (·.lo)).getD 0) ++ [0, 0] ++ ls.flatMap (fun c => c.v.toList.flatMap (leBytes 2))
  body ++ List.replicate (statePitch j - body.length) 0

/-- Reading the state of every column: the columns, of which one with a word that is poisoned or fails its parity restarts.
The words of a column that were read before an access of it was refused count too (R389). -/
def loadState (u : Nat) (acc : Access) (j : StrJob) (mark : Bool) (l : Load) : Below × Load :=
  let q := statePitch j
  (List.range j.width).foldl (fun (s : Below × Load) x =>
    if !s.2.ok then s
    else
      let p := loadPieces u acc (bytePieces (j.state + x * q) q) s.2
      let words := elemsOf 4 (p.1.length / 4) p.1
      let met := mark && x = 0 && !words.isEmpty
      let spoilt := fun i => words.getD i 0 = -2 || p.2.marks.contains (p.2.count + i) || (met && i = 0)
      let bad := ((List.range words.length).filter spoilt).length
      let l1 := { p.2 with count := p.2.count + words.length, spent := p.2.spent || met
                           restarts := p.2.restarts ++ (if bad = 0 then [] else [x * 65536 + bad]) }
      let bs := p.1.map (·.1)
      let lo := leNat (bs.take 2)
      let vals := ((List.range ((downDirs j).length * j.nd)).map (fun i => leNat ((bs.drop (4 + 2 * i)).take 2))).toArray
      let ls := (List.range (downDirs j).length).map (fun i => ({ lo := lo, v := vals.extract (i * j.nd) ((i + 1) * j.nd) } : Costs))
      (s.1.push (if bad = 0 then some ls else none), l1)) (#[], l)

/-! ### Results (R390 to R393) -/

/-- Rounding a quotient to the nearest integer, halves away from zero (R382). -/
def roundDiv (a : Int) (b : Int) : Int :=
  if a < 0 then -((2 * (-a) + b) / (2 * b)) else (2 * a + b) / (2 * b)

/-- The disparity with the lowest value, the lowest on a tie (R390). -/
def bestDisparity (s : Costs) : Nat :=
  s.lo + ((List.range s.v.size).foldl (fun (b : Nat) k => if s.v.getD k 0 < s.v.getD b 0 then k else b) 0)

/-- The subpixel offset over three values (R390, R398): `scale` is 8 or 16. -/
def subpixel (scale : Int) (lo mid hi : Option Nat) : Int :=
  match lo, mid, hi with
  | some a, some b, some c =>
    let den : Int := (a : Int) + c - 2 * b
    if 0 < den then clampInt (-scale) scale (roundDiv (scale * ((a : Int) - c)) den) else 0
  | _, _, _ => 0

/-- The confidence (R392). -/
def confidence (best : Nat) (second : Option Nat) : Nat :=
  match second with
  | none => 255
  | some s2 => if s2 = 0 then 1 else 1 + 254 * (s2 - best) / s2

/-- The lowest value at least two disparities from the best (R392). -/
def secondBest (s : Costs) (d : Nat) : Option Nat :=
  (List.range s.v.size).foldl (fun (m : Option Nat) k =>
    if decide (s.lo + k + 2 ≤ d) || decide (d + 2 ≤ s.lo + k) then
      some (match m with
        | some y => min y (s.v.getD k 0)
        | none => s.v.getD k 0)
    else m) none

/-- The right disparity of a column (R391). -/
def rightDisparity (j : StrJob) (row : Array Costs) (x : Nat) : Option Nat :=
  let top := min (j.width - 1 - x) j.dlim
  ((List.range (top + 1)).foldl (fun (m : Option (Nat × Nat)) dd =>
    match (row.getD (x + dd) default).get dd with
    | none => m
    | some s => match m with
      | some (_, b) => if s < b then some (dd, s) else m
      | none => some (dd, s)) none).map (·.1)

/-- A result: D16 value when valid, the confidence, and whether the left-right and confidence checks fail. -/
structure StrPixel where
  value : Option Int
  conf  : Nat
  lr    : Bool
  low   : Bool

/-- The result at a pixel (R390 to R393). -/
def strPixel (j : StrJob) (row : Array Costs) (census : Int) (x : Nat) : StrPixel :=
  let s := row.getD x default
  let d := bestDisparity s
  let at_ := fun (k : Int) => s.get ((d : Int) + k)
  let off := subpixel 8 (at_ (-1)) (at_ 0) (at_ 1)
  let conf := confidence ((at_ 0).getD 0) (secondBest s d)
  let beyond := decide (x < d)
  let lr := j.lrEn && !beyond && (match rightDisparity j row (x - d) with
    | some e => decide ((j.lrTol : Int) < (if d < e then (e : Int) - d else (d : Int) - e))
    | none => true)
  let low := decide (conf < j.confMin)
  let bad := census < 0 || beyond || lr || low
  { value := if bad then none else some (clampInt 0 0xFFFE (16 * (d : Int) + off)), conf := if bad then 0 else conf,
    lr := lr, low := low }

/-- An STR result for writing: D16, or D / 16 converted under R367 (R393). -/
def strOut (j : StrJob) (scale offset : Nat) (v : Option Int) : Nat :=
  match v with
  | none => fmtInvalid j.outFmt
  | some i => if j.outFmt = 0x08 then i.toNat else convertOut j.outFmt scale offset (fmtFp32.roundInt 0 i (-4) false).1

/-- A row of elements of given bits, written as whole cells. -/
def emitBits (u : Nat) (run : Running) (base wb w r : Nat) (es : List Nat) (d : Dev) : Dev :=
  engWrite u run (blockPieces base wb r 0 (cellBytesOf w 0 es (spareOf u base r 0 d))) d

/-- The rows of a result band, from the first on (R387 to R393). -/
def strRows (j : StrJob) (l r : Grid) (prior : Nat → Nat → Int) (above : Option Below) : Nat → Nat → List (Array Costs) × Option Below
  | _, 0 => ([], above)
  | row, n + 1 =>
    let los := rangeLos j (prior (row / 2))
    let cs := ((List.range j.width).zip los).map (fun x => pixelCosts j l r row x.1 x.2)
    let p := rowPaths j cs above
    let rest := strRows j l r prior (some p.2) (row + 1) n
    (p.1.toArray :: rest.1, rest.2)

/-- The D16 value of a prior element for use: −1 when invalid. -/
def priorPx (g : Grid) (r x : Nat) : Int := let v := g.px r x; if v < 0 then -1 else v

/-- An input level image of a descriptor word (R380). -/
def levelArr (inFmt width w maskWord : Nat) : Arr :=
  { base := baseOf w, wb := wbOf w, w := inFmt + 1, cols := width, mask := if inFmt = 1 then none else maskOf maskWord,
    code := if inFmt = 1 then some 0xFFFF else none }

/-- An injected error of STR falls on the state that is read back. -/
def stateMark (d : Dev) (u : Nat) : Bool := match armed d T.STR (unitPage u).2 0 1 with
  | some p => p % 2 = 1
  | none => false

/-- The images, the prior and the state of an STR job, as it reads them. -/
def strLoad (u : Nat) (r : Running) (ws : List Nat) (parity : List Nat) (d : Dev) :
    (Grid × Grid × Grid × Below) × Load :=
  let j := strJob ws
  let acc := runAccess d u r false
  let hh := (censusHalf j.census).2
  let lo := j.rb - hh
  let hi := min j.height (j.re + hh)
  let gl := loadGrid u acc (levelArr j.inFmt j.width (wordAt ws 0) (wordAt ws 9)) lo hi { d := d, marks := jobMarks d u parity }
  let gr := loadGrid u acc (levelArr j.inFmt j.width (wordAt ws 1) (wordAt ws 10)) lo hi gl.2
  let parr : Arr := { base := baseOf (wordAt ws 4), wb := wbOf (wordAt ws 4), w := 2, cols := (j.width + 1) / 2, code := some 0xFFFF }
  let gp := if j.refine then loadGrid u acc parr (j.rb / 2) ((j.re - 1) / 2 + 1) gr.2 else ((#[] : Grid), gr.2)
  let st := if 0 < j.rb then loadState u acc j (stateMark d u) gp.2 else ((#[] : Below), gp.2)
  ((gl.1, gr.1, gp.1, st.1), st.2)

/-- What a job writes of its images, prior and state: the disparities, their confidences and counts, and the state that the
next band starts from (R386 to R394). -/
def strWrites (u : Nat) (r : Running) (ws : List Nat) (left right prior : Grid) (below : Below) (d : Dev) : Dev :=
  let j := strJob ws
  let cl := censusGrid j.census left j.height j.width j.rb j.re
  let cr := censusGrid j.census right j.height j.width j.rb j.re
  let rows := strRows j cl cr (fun y x => priorPx prior y x) (if 0 < j.rb then some below else none) j.rb (j.re - j.rb)
  let scale := fld (wordAt ws 8) 63 32
  let offset := fld (wordAt ws 8) 31 0
  let arr := rows.1.toArray
  let d1 := each (List.range (j.re - j.rb)) (fun k d =>
    let row := arr.getD k #[]
    let ps := (List.range j.width).map (fun x => strPixel j row (cl.px (j.rb + k) x) x)
    let e1 := emitBits u r (baseOf (wordAt ws 5)) (wbOf (wordAt ws 5)) 2 (j.rb + k) (ps.map (fun p => strOut j scale offset p.value)) d
    let e2 := if baseOf (wordAt ws 6) = 0 then e1
              else emitBits u r (baseOf (wordAt ws 6)) (wbOf (wordAt ws 6)) 1 (j.rb + k) (ps.map (·.conf)) e1
    let e3 := bump64By (kEng u 0x068) (ps.filter (·.value.isNone)).length (bump64By (kEng u 0x060) ps.length e2)
    bumpBy (kEng u 0x084) (ps.filter (·.low)).length (bumpBy (kEng u 0x080) (ps.filter (·.lr)).length e3)) d
  match rows.2 with
  | some b =>
    if j.re < j.height then
      engWrite u r (linearPieces j.state (b.toList.flatMap (fun c => stateBytes j (c.getD [])))) d1
    else d1
  | none => d1

/-- The steps of a job (R395). -/
def strSteps (j : StrJob) : Nat := 64 + (j.width * (j.re - j.rb) * j.nd + 63) / 64

/-- STR_JOB (R385 to R395). -/
def strRun (u : Nat) (parity : List Nat) (d : Dev) : Dev :=
  match openJob d u with
  | none => d
  | some (r, ws) =>
    let ld := strLoad u r ws parity d
    afterLoad u ld.2 d (fun d => jobDone u (strSteps (strJob ws))
      (strWrites u r ws ld.1.1 ld.1.2.1 ld.1.2.2.1 ld.1.2.2.2 d))

end Sys2Proof.Machine
end

