-- ==== Sys2Proof/Machine/Flow.lean ====
section
/-! DEFINITION. The optical flow engine (R396 to R400). -/

namespace Sys2Proof.Machine

/-- Fields of an FLW descriptor. -/
structure FlwJob where
  inFmt  : Nat
  width  : Nat
  height : Nat
  rb     : Nat
  re     : Nat
  refine : Bool
  census : Nat
  block5 : Bool
  radius : Nat
  pen    : Nat
  uniq   : Nat
  maxCost : Nat
  outFmt : Nat

/-- Reading the fields. -/
def flwJob (ws : List Nat) : FlwJob :=
  let w2 := wordAt ws 2
  let w3 := wordAt ws 3
  { inFmt := fld (wordAt ws 0) 63 56, width := fld w2 63 48, height := fld w2 47 32, rb := fld w2 31 16, re := fld w2 15 0,
    refine := bit w3 63, census := fld w3 62 61, block5 := bit w3 60, radius := fld w3 59 55, pen := fld w3 47 40,
    uniq := fld w3 39 24, maxCost := fld w3 23 8, outFmt := fld w3 7 0 }

/-- The check of an FLW descriptor (R364, R379); RADIUS outside 1 to 16 is BAD_SIZE (log entry 52). -/
def flwCheck (ws : List Nat) : Nat :=
  let j := flwJob ws
  let high := fun i => fld (wordAt ws i) 63 56 ≠ 0
  firstCode
    [(1, !(decide (j.inFmt ≤ 1) && j.outFmt = 0x09)),
     (2, j.width < 16 || 4096 < j.width || j.height < 8 || 4096 < j.height || j.radius = 0 || 16 < j.radius),
     (3, j.re ≤ j.rb || j.height < j.re),
     (5, j.census = 3),
     (7, [0, 1, 5, 6].any (fun i => offPage (wordAt ws i)) || (j.refine && offPage (wordAt ws 4)) ||
         (j.inFmt = 0 && (offPage (wordAt ws 7) || offPage (wordAt ws 8)))),
     (8, [1, 4, 5, 6, 7, 8].any high || fld (wordAt ws 3) 54 48 ≠ 0 ||
         [9, 10, 11, 12, 13, 14, 15].any (fun i => wordAt ws i ≠ 0))]

/-- The prediction at a pixel (R397): the prior's components in 1/32 pixel, taken to the finer level. -/
def prediction (j : FlwJob) (prior : Grid) (r x : Nat) : Int × Int :=
  let v := prior.px (r / 2) (x / 2)
  if !j.refine || v < 0 || v.toNat % 65536 = 0x8000 || v.toNat / 65536 = 0x8000 then (0, 0)
  else ((toSigned 16 v.toNat + 8) / 16, (toSigned 16 (v.toNat / 65536) + 8) / 16)

/-- cost(u, v) of a pixel (R396). -/
def flowCost (j : FlwJob) (cur prev : Grid) (r x : Nat) (u v : Int) : Nat :=
  let k : Nat := if j.block5 then 2 else 1
  let n := 2 * k + 1
  let y := (r : Int) - v
  let z := (x : Int) - u
  if y < 0 || (j.height : Int) ≤ y || z < 0 || (j.width : Int) ≤ z then cmax j.census * n * n
  else
    (List.range n).foldl (fun (s : Nat) (a : Nat) => (List.range n).foldl (fun (s : Nat) (b : Nat) =>
      let dy : Int := (a : Int) - (k : Int)
      let dx : Int := (b : Int) - (k : Int)
      s + censusDist j.census (cur.px (reflect ((r : Int) + dy) j.height) (reflect ((x : Int) + dx) j.width))
        (prev.px (reflect (y + dy) j.height) (reflect (z + dx) j.width))) s) 0

/-- A scored candidate: u, v, |u − û| + |v − v̂|, cost′ (R397). -/
structure Cand where
  u    : Int
  v    : Int
  dist : Nat
  cost : Nat

/-- Whether one candidate is better (R397). -/
def Cand.better (a b : Cand) : Bool :=
  decide (a.cost < b.cost) || (a.cost = b.cost && (decide (a.dist < b.dist) || (a.dist = b.dist &&
    (decide (a.v < b.v) || (a.v = b.v && decide (a.u < b.u))))))

/-- The candidates of a pixel (R397). -/
def candidates (j : FlwJob) (cur prev : Grid) (p : Int × Int) (r x : Nat) : List Cand :=
  let n := 2 * j.radius + 1
  (List.range n).flatMap (fun (a : Nat) => (List.range n).map (fun (b : Nat) =>
    let dv : Int := (a : Int) - j.radius
    let du : Int := (b : Int) - j.radius
    let dist := du.natAbs + dv.natAbs
    { u := p.1 + du, v := p.2 + dv, dist := dist, cost := flowCost j cur prev r x (p.1 + du) (p.2 + dv) + j.pen * dist }))

/-- The cost′ of a candidate at a displacement. -/
def costAt (cs : List Cand) (u v : Int) : Option Nat := (cs.find? (fun c => c.u = u ∧ c.v = v)).map (·.cost)

/-- A flow result: components, confidence, and which checks fail. -/
structure FlwPixel where
  value : Option (Int × Int)
  conf  : Nat
  uniq  : Bool
  costly  : Bool

/-- The result at a pixel (R398, R399). -/
def flwPixel (j : FlwJob) (cur prev prior : Grid) (r x : Nat) : FlwPixel :=
  let cs := candidates j cur prev (prediction j prior r x) r x
  match cs with
  | [] => ⟨none, 0, false, false⟩
  | c :: rest =>
    let b := rest.foldl (fun (b : Cand) k => if k.better b then k else b) c
    let offx := subpixel 16 (costAt cs (b.u - 1) b.v) (some b.cost) (costAt cs (b.u + 1) b.v)
    let offy := subpixel 16 (costAt cs b.u (b.v - 1)) (some b.cost) (costAt cs b.u (b.v + 1))
    let second := (cs.filter (fun k => decide (2 ≤ max (k.u - b.u).natAbs (k.v - b.v).natAbs))).foldl
      (fun (m : Option Nat) k => some (match m with
        | some y => min y k.cost
        | none => k.cost)) none
    let uniq := match second with
      | some s => decide ((s : Int) - b.cost < j.uniq)
      | none => false
    let costly := j.maxCost ≠ 0 && decide (j.maxCost < b.cost)
    let y := (r : Int) - b.v
    let z := (x : Int) - b.u
    let out := y < 0 || (j.height : Int) ≤ y || z < 0 || (j.width : Int) ≤ z
    let bad := cur.px r x < 0 || out || costly || uniq
    { value := if bad then none else some (clampInt (-32767) 32767 (32 * b.u + offx), clampInt (-32767) 32767 (32 * b.v + offy)),
      conf := confidence b.cost second, uniq := uniq, costly := costly }

/-- A flow vector's bits (R328, R399). -/
def flwOut (v : Option (Int × Int)) : Nat :=
  match v with
  | none => 0x80008000
  | some (a, b) => ofSigned 16 a + ofSigned 16 b * 65536

/-- Rows of the previous frame that the job needs: from the greatest to the least vertical prediction (R396). -/
def prevRows (j : FlwJob) (prior : Grid) : Nat × Nat :=
  let reach : Int := (((censusHalf j.census).2 + (if j.block5 then 2 else 1) + j.radius : Nat) : Int)
  let vs := (List.range (j.re - j.rb)).flatMap (fun k => (List.range j.width).map (fun x => (prediction j prior (j.rb + k) x).2))
  let vmax := vs.foldl max 0
  let vmin := vs.foldl min 0
  let lo := max 0 ((j.rb : Int) - vmax - reach)
  let hi := min (j.height : Int) ((j.re : Int) - vmin + reach)
  (lo.toNat, hi.toNat)

/-- The prior, the current and the previous image of a job, as it reads them. -/
def flwLoad (u : Nat) (r : Running) (ws : List Nat) (parity : List Nat) (d : Dev) : (Grid × Grid × Grid) × Load :=
  let j := flwJob ws
  let acc := runAccess d u r false
  let parr : Arr := { base := baseOf (wordAt ws 4), wb := wbOf (wordAt ws 4), w := 4, cols := (j.width + 1) / 2 }
  let l0 : Load := { d := d, marks := jobMarks d u parity }
  let gp := if j.refine then loadGrid u acc parr (j.rb / 2) ((j.re - 1) / 2 + 1) l0 else ((#[] : Grid), l0)
  let reach := (censusHalf j.census).2 + (if j.block5 then 2 else 1)
  let gc := loadGrid u acc (levelArr j.inFmt j.width (wordAt ws 0) (wordAt ws 7)) (j.rb - reach) (min j.height (j.re + reach)) gp.2
  let pr := prevRows j gp.1
  let gq := loadGrid u acc (levelArr j.inFmt j.width (wordAt ws 1) (wordAt ws 8)) pr.1 (min j.height pr.2) gc.2
  ((gp.1, gc.1, gq.1), gq.2)

/-- What a job writes of the prior, the current and the previous image: the vectors, their confidences and counts (R397 to
R399). -/
def flwWrites (u : Nat) (r : Running) (ws : List Nat) (prior current previous : Grid) (d : Dev) : Dev :=
  let j := flwJob ws
  let pr := prevRows j prior
  let k := if j.block5 then 2 else 1
  let cc := censusGrid j.census current j.height j.width (j.rb - k) (min j.height (j.re + k))
  let cp := censusGrid j.census previous j.height j.width pr.1 (min j.height pr.2)
  eachRow j.rb j.re (fun y d =>
    let ps := (List.range j.width).map (flwPixel j cc cp prior y)
    let e1 := emitBits u r (baseOf (wordAt ws 5)) (wbOf (wordAt ws 5)) 4 y (ps.map (fun p => flwOut p.value)) d
    let e2 := if baseOf (wordAt ws 6) = 0 then e1
              else emitBits u r (baseOf (wordAt ws 6)) (wbOf (wordAt ws 6)) 1 y (ps.map (·.conf)) e1
    let e3 := bump64By (kEng u 0x068) (ps.filter (·.value.isNone)).length (bump64By (kEng u 0x060) ps.length e2)
    bumpBy (kEng u 0x084) (ps.filter (·.costly)).length (bumpBy (kEng u 0x080) (ps.filter (·.uniq)).length e3)) d

/-- The steps of a job (R400). -/
def flwSteps (j : FlwJob) : Nat :=
  let c := if j.block5 then 32 else 64
  64 + (j.width * (j.re - j.rb) * (2 * j.radius + 1) ^ 2 + c - 1) / c

/-- FLW_JOB (R396 to R400). -/
def flwRun (u : Nat) (parity : List Nat) (d : Dev) : Dev :=
  match openJob d u with
  | none => d
  | some (r, ws) =>
    let ld := flwLoad u r ws parity d
    afterLoad u ld.2 d (fun d => jobDone u (flwSteps (flwJob ws)) (flwWrites u r ws ld.1.1 ld.1.2.1 ld.1.2.2 d))

end Sys2Proof.Machine
end

