-- ==== Sys2Proof/Machine/Warp.lean ====
section
/-! DEFINITION. The warp engine (R374 to R378). -/

namespace Sys2Proof.Machine

/-- Fields of a WRP descriptor (R374). -/
structure WrpJob where
  inFmt  : Nat
  outFmt : Nat
  inW    : Nat
  inH    : Nat
  x0     : Nat
  y0     : Nat
  w      : Nat
  h      : Nat
  mesh   : Bool
  bilin  : Bool
  border : Nat
  s      : Nat
  const  : Nat
  cols   : Nat
  hs     : List Nat

/-- Reading the fields. -/
def wrpJob (ws : List Nat) : WrpJob :=
  let w2 := wordAt ws 2
  let w3 := wordAt ws 3
  { inFmt := fld (wordAt ws 0) 63 56, outFmt := fld (wordAt ws 1) 63 56, inW := fld w2 63 48, inH := fld w2 47 32,
    x0 := fld w2 31 16, y0 := fld w2 15 0, w := fld w3 63 48, h := fld w3 47 32, mesh := bit w3 31, bilin := bit w3 30,
    border := fld w3 29 28, s := fld w3 26 24, const := fld w3 15 0, cols := fld (wordAt ws 7) 63 48,
    hs := (List.range 9).map (fun i => fld (wordAt ws (8 + i / 2)) (32 * (i % 2) + 31) (32 * (i % 2))) }

/-- The check of a WRP descriptor (R364, R374); MESH_S outside 3 to 6 is BAD_SIZE (log entry 52). -/
def wrpCheck (ws : List Nat) : Nat :=
  let j := wrpJob ws
  let out := fun n => decide (n = 0) || decide (4096 < n)
  firstCode
    [(1, !(decide (j.inFmt ≤ 1) && [j.inFmt, 0x11, 0x14, 0x15].contains j.outFmt)),
     (2, out j.inW || out j.inH || out (j.x0 + j.w) || out (j.y0 + j.h) || (j.mesh && (decide (j.s < 3) || decide (6 < j.s)))),
     (5, j.border = 3),
     (6, j.mesh && decide (j.cols < (j.x0 + j.w - 1) / 2 ^ j.s + 2)),
     (7, offPage (wordAt ws 0) || offPage (wordAt ws 1) || (j.inFmt = 0 && offPage (wordAt ws 5)) ||
         (fmtMasked j.outFmt && offPage (wordAt ws 6)) || (j.mesh && baseOf (wordAt ws 7) % 8 ≠ 0)),
     (8, bit (wordAt ws 3) 27 || fld (wordAt ws 3) 23 16 ≠ 0 || fld (wordAt ws 5) 63 56 ≠ 0 || fld (wordAt ws 6) 63 56 ≠ 0 ||
         fld (wordAt ws 12) 63 32 ≠ 0 || wordAt ws 13 ≠ 0 || wordAt ws 14 ≠ 0 || wordAt ws 15 ≠ 0)]

/-- z × 65,536 rounded to nearest even and saturated to 32 bits; none when z is not finite (R375). -/
def fixed (z : Nat) : Option Int :=
  match fmtFp32.decode z with
  | .fin a m e => some (convertInt (-(2 : Int) ^ 31) (2 ^ 31 - 1) 0 (.fin a m (e + 16))).1
  | _ => none

/-- The source position by homography (R375). -/
def homography (hs : List Nat) (u v : Nat) : Option (Int × Int) :=
  let h := fun i => hs.getD i 0
  let fma := fun a b c => (fmtFp32.fma 0 a b c false).1
  let fu := (fmtFp32.ofNat 0 u).1
  let fv := (fmtFp32.ofNat 0 v).1
  let nx := fma (h 0) fu (fma (h 1) fv (h 2))
  let ny := fma (h 3) fu (fma (h 4) fv (h 5))
  let dd := fma (h 6) fu (fma (h 7) fv (h 8))
  if ltVal (.fin false 0 0) (fmtFp32.decode dd) = some true then
    match fixed (fmtFp32.div 0 nx dd).1, fixed (fmtFp32.div 0 ny dd).1 with
    | some x, some y => some (x, y)
    | _, _ => none
  else none

/-- The source position by mesh (R375): nodes by row and column from the first that the job reads, −2 when poisoned. -/
def meshAt (nodes : Grid) (m0 n0 s u v : Nat) : Option (Int × Int) :=
  let m := u / 2 ^ s
  let a : Int := (u % 2 ^ s : Nat)
  let n := v / 2 ^ s
  let c : Int := (v % 2 ^ s : Nat)
  let one : Int := 2 ^ s
  let q := fun i k => nodes.px (n - n0 + k) (m - m0 + i)
  if q 0 0 < 0 || q 1 0 < 0 || q 0 1 < 0 || q 1 1 < 0 then none
  else
    let x := fun i k => toSigned 32 (q i k).toNat
    let y := fun i k => toSigned 32 ((q i k).toNat / 2 ^ 32)
    let mix := fun (f : Nat → Nat → Int) =>
      (f 0 0 * (one - a) * (one - c) + f 1 0 * a * (one - c) + f 0 1 * (one - a) * c + f 1 1 * a * c + 2 ^ (2 * s - 1)) /
        (2 ^ (2 * s) : Int)
    some (mix x, mix y)

/-- The taps of a position and their weights (R376): column, row, weight. -/
def warpTaps (j : WrpJob) (xq yq : Int) : List (Int × Int × Int) :=
  if j.bilin then
    let ix := xq / 32
    let iy := yq / 32
    let fx := xq % 32
    let fy := yq % 32
    [(ix, iy, (32 - fx) * (32 - fy)), (ix + 1, iy, fx * (32 - fy)), (ix, iy + 1, (32 - fx) * fy), (ix + 1, iy + 1, fx * fy)]
  else [((xq + 16) / 32, (yq + 16) / 32, 1024)]

/-- Whether a tap lies in the input. -/
def inside (j : WrpJob) (x y : Int) : Bool :=
  decide (0 ≤ x) && decide (x < j.inW) && decide (0 ≤ y) && decide (y < j.inH)

/-- The taps that the engine takes of an output pixel, under BORDER (R377): none when the output is invalid. A tap is an
input element or the constant. -/
def tapsOf (j : WrpJob) (pos : Option (Int × Int)) : Option (List (Option (Nat × Nat) × Int)) :=
  match pos with
  | none => none
  | some (px, py) =>
    let xq := (px + 0x400) / 2048
    let yq := (py + 0x400) / 2048
    let off := xq < 0 || 32 * ((j.inW : Int) - 1) < xq || yq < 0 || 32 * ((j.inH : Int) - 1) < yq
    if j.border = 0 && off then none
    else some ((warpTaps j xq yq).filterMap (fun t =>
      if inside j t.1 t.2.1 then some (some (t.2.1.toNat, t.1.toNat), t.2.2)
      else if j.border = 1 then
        some (some ((clampInt 0 ((j.inH : Int) - 1) t.2.1).toNat, (clampInt 0 ((j.inW : Int) - 1) t.1).toNat), t.2.2)
      else if j.border = 2 then some (none, t.2.2)
      else none))

/-- An output pixel (R376). -/
def warpPixel (j : WrpJob) (g : Grid) (ts : Option (List (Option (Nat × Nat) × Int))) : Option Int :=
  match ts with
  | none => none
  | some ts =>
    let val := fun (t : Option (Nat × Nat)) => (match t with
      | some p => g.px p.1 p.2
      | none => (j.const : Int) : Int)
    let add := fun (s : Int × Int) (t : Option (Nat × Nat) × Int) =>
      if val t.1 < 0 then s else (s.1 + val t.1 * t.2, s.2 + t.2)
    let s := ts.foldl add (0, 0)
    if s.2 < 512 then none else some ((s.1 + s.2 / 2) / s.2)

/-- The input elements of a list of taps. -/
def inputTaps (ts : List (Option (List (Option (Nat × Nat) × Int)))) : List (Nat × Nat) :=
  ts.flatMap (fun t => match t with
    | some xs => xs.filterMap (·.1)
    | none => [])

/-- Least and greatest of numbers, with a bound for none. -/
def spanOf (xs : List Nat) : Nat × Nat := (xs.foldl min (2 ^ 32), xs.foldl max 0)

/-- Whether a tile runs on the fast path: its taps lie in a box of 128 × 128 (R378). -/
def fastTile (ts : List (Option (List (Option (Nat × Nat) × Int)))) : Bool :=
  let ps := inputTaps ts
  let r := spanOf (ps.map (·.1))
  let c := spanOf (ps.map (·.2))
  ps.isEmpty || (decide (r.2 - r.1 < 128) && decide (c.2 - c.1 < 128))

/-- The tiles of the output rectangle: output coordinates of each (R378). -/
def tilesOf (j : WrpJob) : List (List (Nat × Nat)) :=
  let us := (List.range (j.x0 + j.w)).filter (fun u => decide (j.x0 ≤ u))
  let vs := (List.range (j.y0 + j.h)).filter (fun v => decide (j.y0 ≤ v))
  (List.range (4096 / 32)).flatMap (fun tv => (List.range (4096 / 32)).filterMap (fun tu =>
    let a := us.filter (fun u => u / 32 = tu)
    let b := vs.filter (fun v => v / 32 = tv)
    if a.isEmpty || b.isEmpty then none else some (b.flatMap (fun v => a.map (fun u => (u, v))))))

/-- The mesh nodes that the job reads, row by row. -/
def loadMesh (u : Nat) (acc : Access) (j : WrpJob) (base m0 m1 n0 n1 : Nat) (l : Load) : Grid × Load :=
  (List.range (n1 + 1 - n0)).foldl (fun (g : Grid × Load) k =>
    let p := loadPieces u acc (bytePieces (base + 8 * ((n0 + k) * j.cols + m0)) (8 * (m1 + 1 - m0))) g.2
    if !p.2.ok then (g.1, p.2)
    else
      let c := countElems (elemsOf 8 (m1 + 1 - m0) p.1) p.2
      (g.1.push c.1.toArray, c.2)) (#[], l)

/-- How many poisoned elements of the loaded rows some output takes (R365). -/
def poisonTaken (g : Grid) (ps : List (Nat × Nat)) (lo : Nat) : Nat :=
  (List.range (g.size - lo)).foldl (fun n i =>
    let row := g.getD (lo + i) #[]
    if row.any (· = -2) then
      n + ((List.range row.size).filter (fun x => row.getD x (-1) = -2 && ps.contains (lo + i, x))).length
    else n) 0

/-- The taps of each output pixel of a WRP job and the part of the image that it reads. -/
def wrpLoad (u : Nat) (r : Running) (ws : List Nat) (parity : List Nat) (d : Dev) :
    (Array (Array (Option (List (Option (Nat × Nat) × Int)))) × Grid) × Load :=
  let j := wrpJob ws
  let acc := runAccess d u r false
  let m0 := j.x0 / 2 ^ j.s
  let n0 := j.y0 / 2 ^ j.s
  let m1 := (j.x0 + j.w - 1) / 2 ^ j.s + 1
  let n1 := (j.y0 + j.h - 1) / 2 ^ j.s + 1
  let l0 : Load := { d := d, marks := jobMarks d u parity }
  let nodes := if j.mesh && decide (0 < j.w) && decide (0 < j.h) then loadMesh u acc j (baseOf (wordAt ws 7)) m0 m1 n0 n1 l0
               else ((#[] : Grid), l0)
  let pos := fun x y => if j.mesh then meshAt nodes.1 m0 n0 j.s x y else homography j.hs x y
  let rows := ((List.range j.h).map (fun k => ((List.range j.w).map (fun i => tapsOf j (pos (j.x0 + i) (j.y0 + k)))).toArray)).toArray
  let taken := inputTaps (rows.toList.flatMap (·.toList))
  let span := spanOf (taken.map (·.1))
  let arr : Arr := { base := baseOf (wordAt ws 0), wb := wbOf (wordAt ws 0), w := j.inFmt + 1, cols := j.inW,
                     mask := if j.inFmt = 1 then none else maskOf (wordAt ws 5),
                     code := if j.inFmt = 1 then some 0xFFFF else none }
  let img := if taken.isEmpty then ((#[] : Grid), nodes.2) else loadGrid u acc arr span.1 (span.2 + 1) nodes.2
  let l1 := { img.2 with bad := nodes.2.bad + poisonTaken img.1 taken span.1 }
  ((rows, img.1), l1)

/-- What a job writes of the taps of its pixels: the rectangle of the output (R376, R377). -/
def wrpWrites (u : Nat) (r : Running) (ws : List Nat) (taps : Array (Array (Option (List (Option (Nat × Nat) × Int)))))
    (img : Grid) (d : Dev) : Dev :=
  let j := wrpJob ws
  let o : Out := { base := baseOf (wordAt ws 1), wb := wbOf (wordAt ws 1), fmt := j.outFmt,
                   mask := if fmtMasked j.outFmt then maskOf (wordAt ws 6) else none,
                   scale := fld (wordAt ws 4) 63 32, offset := fld (wordAt ws 4) 31 0, same := j.outFmt = j.inFmt }
  each (List.range (if j.w = 0 then 0 else j.h)) (fun k d =>
    emitRow u r o (j.y0 + k) j.x0 ((taps.getD k #[]).toList.map (warpPixel j img)) d) d

/-- The tiles of a job: how many pixels each has, and whether it is fast (R378). -/
def wrpTiles (j : WrpJob) (taps : Array (Array (Option (List (Option (Nat × Nat) × Int))))) : List (Nat × Bool) :=
  (tilesOf j).map (fun t => (t.length, fastTile (t.map (fun p => (taps.getD (p.2 - j.y0) #[]).getD (p.1 - j.x0) none))))

/-- The steps of a job (R378). -/
def wrpSteps (tiles : List (Nat × Bool)) : Nat :=
  64 + tiles.foldl (fun n t => n + (if t.2 then (t.1 + 3) / 4 else 2 * t.1)) 0

/-- WRP_JOB (R375 to R378). -/
def wrpRun (u : Nat) (parity : List Nat) (d : Dev) : Dev :=
  match openJob d u with
  | none => d
  | some (r, ws) =>
    let ld := wrpLoad u r ws parity d
    let tiles := wrpTiles (wrpJob ws) ld.1.1
    afterLoad u ld.2 d (fun d =>
      jobDone u (wrpSteps tiles) (bumpBy (kEng u 0x080) (tiles.filter (fun t => !t.2)).length (wrpWrites u r ws ld.1.1 ld.1.2 d)))

end Sys2Proof.Machine
end

