-- ==== Sys2Proof/Machine/Features.lean ====
section
/-! DEFINITION. The feature engine (R401 to R410): detection, orientation, descriptors and matching. -/

namespace Sys2Proof.Machine

/-! ### Tables -/

/-- round(32,767 × sin(2πk / 256)) over a quarter turn, k = 0 to 64 (R405). -/
def sineQuarter : List Nat :=
  [0, 804, 1608, 2410, 3212, 4011, 4808, 5602, 6393, 7179, 7962, 8739, 9512, 10278, 11039, 11793, 12539, 13279, 14010,
   14732, 15446, 16151, 16846, 17530, 18204, 18868, 19519, 20159, 20787, 21403, 22005, 22594, 23170, 23731, 24279, 24811,
   25329, 25832, 26319, 26790, 27245, 27683, 28105, 28510, 28898, 29268, 29621, 29956, 30273, 30571, 30852, 31113, 31356,
   31580, 31785, 31971, 32137, 32285, 32412, 32521, 32609, 32678, 32728, 32757, 32767]

/-- Sn[k] (R405). -/
def sn (k : Nat) : Int :=
  let i := k % 256
  let q : Nat → Int := fun n => (sineQuarter.getD n 0 : Nat)
  if i ≤ 64 then q i else if i ≤ 128 then q (128 - i) else if i ≤ 192 then -q (i - 128) else -q (256 - i)

/-- Cs[k] (R405). -/
def cs (k : Nat) : Int := sn (k + 64)

/-- The circle of the segment test (R401): dx, dy. -/
def circle : List (Int × Int) :=
  [(0, -3), (1, -3), (2, -2), (3, -1), (3, 0), (3, 1), (2, 2), (1, 3), (0, 3), (-1, 3), (-2, 2), (-3, 1), (-3, 0),
   (-3, -1), (-2, -2), (-1, -3)]

/-- The xorshift generator (R406). -/
def xorshift (s : Nat) : Nat :=
  let a := (s ^^^ (s <<< 13)) % 2 ^ 32
  let b := a ^^^ (a >>> 17)
  (b ^^^ (b <<< 5)) % 2 ^ 32

/-- The generator's values, as offsets −15 to 15 (R406). -/
def offsets : Nat → Nat → List Int
  | 0, _ => []
  | n + 1, s => let t := xorshift s
                (((t / 256 % 31 : Nat) : Int) - 15) :: offsets n t

/-- The sampling pattern: ax, ay, bx, by of bit b at 4b (R406). -/
def pattern : List Int := offsets 1024 0x2545F491

/-! ### The descriptors (R408, R409) -/

structure FtrJob where
  op       : Nat
  inFmt    : Nat
  levels   : Nat
  arc      : Nat
  thresh   : Nat
  width    : Nat
  height   : Nat
  cellLog2 : Nat
  keep     : Nat
  maxFeat  : Nat
  maxDist  : Nat
  ratio    : Nat
  reqRatio : Bool
  reqMutual : Bool
  lvlTol   : Nat
  dx       : Int
  dy       : Int
  win      : Nat

/-- Reading the fields of both operations. -/
def ftrJob (ws : List Nat) : FtrJob :=
  let w0 := wordAt ws 0
  let w1 := wordAt ws 1
  { op := fld w0 63 62, inFmt := fld w0 55 48, levels := fld w0 42 40, arc := fld w0 39 32, thresh := fld w0 15 0,
    width := fld w1 63 48, height := fld w1 47 32, cellLog2 := fld w1 31 28, keep := fld w1 26 24, maxFeat := fld w1 16 0,
    maxDist := fld w0 33 25, ratio := fld w0 24 17, reqRatio := bit w0 16, reqMutual := bit w0 15, lvlTol := fld w0 14 12,
    dx := toSigned 16 (fld w1 63 48), dy := toSigned 16 (fld w1 47 32), win := fld w1 31 16 }

/-- The check of a DETECT descriptor (R364, R379); limits for which no code is named are BAD_SIZE or BAD_MODE (log
entry 52). -/
def detectCheck (ws : List Nat) (j : FtrJob) : Nat :=
  let w := fun i => wordAt ws i
  let used := (List.range 4).filter (fun k => decide (k < j.levels))
  let masks := if j.inFmt = 0 then used else []
  firstCode
    [(1, decide (1 < j.inFmt)),
     (2, j.width < 32 || 4096 < j.width || j.height < 32 || 4096 < j.height || j.cellLog2 < 4 || 8 < j.cellLog2 ||
         j.keep = 0 || 4 < j.keep),
     (4, j.levels = 0 || 4 < j.levels),
     (5, (j.arc ≠ 9 && j.arc ≠ 12) || j.thresh = 0),
     (7, used.any (fun k => offPage (w (2 + k))) || masks.any (fun k => offPage (w (6 + k))) || baseOf (w 10) % 16 ≠ 0 ||
         baseOf (w 11) % 32 ≠ 0 || baseOf (w 12) % 16 ≠ 0),
     (8, fld (w 0) 61 56 ≠ 0 || fld (w 0) 47 43 ≠ 0 || fld (w 0) 31 16 ≠ 0 || bit (w 1) 27 || fld (w 1) 23 17 ≠ 0 ||
         (List.range 4).any (fun k => if used.contains k then fld (w (2 + k)) 63 56 ≠ 0 else w (2 + k) ≠ 0) ||
         (List.range 4).any (fun k => if masks.contains k then fld (w (6 + k)) 63 56 ≠ 0 else w (6 + k) ≠ 0) ||
         [10, 11, 12].any (fun i => fld (w i) 63 48 ≠ 0) || [13, 14, 15].any (fun i => w i ≠ 0)),
     (0x0C, j.maxFeat = 0 || 65536 < j.maxFeat)]

/-- The check of a MATCH descriptor. -/
def matchCheckDesc (ws : List Nat) (j : FtrJob) : Nat :=
  let w := fun i => wordAt ws i
  firstCode
    [(2, decide (256 < j.maxDist)),
     (7, [2, 4, 5, 7, 8, 9].any (fun i => baseOf (w i) % 16 ≠ 0) || [3, 6].any (fun i => baseOf (w i) % 32 ≠ 0)),
     (8, fld (w 0) 61 34 ≠ 0 || fld (w 0) 11 0 ≠ 0 || fld (w 1) 15 0 ≠ 0 ||
         (List.range 8).any (fun i => fld (w (2 + i)) 63 48 ≠ 0) || (List.range 6).any (fun i => w (10 + i) ≠ 0))]

/-- The check of an FTR descriptor; a reserved OP is BAD_MODE. -/
def ftrCheck (ws : List Nat) : Nat :=
  let j := ftrJob ws
  if j.op = 0 then detectCheck ws j else if j.op = 1 then matchCheckDesc ws j else 5

/-! ### Detection (R401 to R403) -/

/-- Whether `arc` cyclically consecutive marks of sixteen are set. -/
def arcOf (arc : Nat) (m : Nat) : Bool :=
  (List.range 16).any (fun i => (List.range arc).all (fun k => m.testBit ((i + k) % 16)))

/-- The score of a pixel (R401), 0 when it is no candidate. -/
def cornerScore (j : FtrJob) (g : Grid) (h w y x : Nat) : Nat :=
  if x < 3 || w < x + 4 || y < 3 || h < y + 4 then 0
  else
    let c := g.px y x
    let ps := circle.map (fun o => g.px ((y : Int) + o.2).toNat ((x : Int) + o.1).toNat)
    if c < 0 || ps.any (· < 0) then 0
    else
      let idx := (List.range 16).zip ps
      let bright := idx.foldl (fun m e => if c + j.thresh < e.2 then m + 2 ^ e.1 else m) 0
      let dark := idx.foldl (fun m e => if e.2 < c - j.thresh then m + 2 ^ e.1 else m) 0
      let pick := if arcOf j.arc bright then bright else if arcOf j.arc dark then dark else 0
      min 0xFFFF (idx.foldl (fun s e => if pick.testBit e.1 then s + ((e.2 - c).natAbs - j.thresh) else s) 0)

/-- Whether a candidate survives the local test (R402). -/
def survives (s : Array (Array Nat)) (y x : Nat) : Bool :=
  let at_ := fun (dx dy : Int) =>
    if (y : Int) + dy < 0 ∨ (x : Int) + dx < 0 then 0 else (s.getD ((y : Int) + dy).toNat #[]).getD ((x : Int) + dx).toNat 0
  let v := at_ 0 0
  decide (0 < v) && [(-1, -1), (0, -1), (1, -1), (-1, 0)].all (fun o => decide (at_ o.1 o.2 < v)) &&
    [(1, 0), (-1, 1), (0, 1), (1, 1)].all (fun o => decide (at_ o.1 o.2 ≤ v))

/-- A survivor: its cell, score, level, and place at its level (R403). -/
structure Feat where
  cell  : Nat
  score : Nat
  level : Nat
  y     : Nat
  x     : Nat
deriving DecidableEq

/-- Rank within a cell (R403): higher score, lower level, lower Y0, lower X0. -/
def Feat.before (a b : Feat) : Bool :=
  let key := fun (f : Feat) => (((0xFFFF - f.score) * 8 + f.level) * 65536 + f.y * 2 ^ f.level) * 65536 + f.x * 2 ^ f.level
  decide (key a < key b)

/-- Inserting by rank. -/
def rankFeat (f : Feat) : List Feat → List Feat
  | [] => [f]
  | g :: gs => if f.before g then f :: g :: gs else g :: rankFeat f gs

/-- The survivors of a level. -/
def levelFeats (j : FtrJob) (g : Grid) (k : Nat) : List Feat :=
  let h := levelSize j.height k
  let w := levelSize j.width k
  let s := ((List.range h).map (fun y => ((List.range w).map (fun x => cornerScore j g h w y x)).toArray)).toArray
  let ncx := (j.width + 2 ^ j.cellLog2 - 1) / 2 ^ j.cellLog2
  (List.range h).flatMap (fun y => (List.range w).filterMap (fun x =>
    if survives s y x then
      some ⟨y * 2 ^ k / 2 ^ j.cellLog2 * ncx + x * 2 ^ k / 2 ^ j.cellLog2, (s.getD y #[]).getD x 0, k, y, x⟩
    else none))

/-- The kept features in the order of R403. -/
def keptFeats (j : FtrJob) (fs : List Feat) : List Feat :=
  let ncx := (j.width + 2 ^ j.cellLog2 - 1) / 2 ^ j.cellLog2
  let ncy := (j.height + 2 ^ j.cellLog2 - 1) / 2 ^ j.cellLog2
  let cells := fs.foldl (fun (a : Array (List Feat)) f => a.set! f.cell (rankFeat f (a.getD f.cell [])))
    ((List.replicate (ncx * ncy) ([] : List Feat)).toArray)
  cells.toList.flatMap (·.take j.keep)

/-! ### Orientation and descriptor (R405 to R407) -/

/-- Offsets of the disk of radius 15. -/
def disk : List (Int × Int) :=
  (List.range 31).flatMap (fun (a : Nat) => (List.range 31).filterMap (fun (b : Nat) =>
    let dy := (a : Int) - 15
    let dx := (b : Int) - 15
    if dx * dx + dy * dy ≤ 225 then some (dx, dy) else none))

/-- Whether a place lies in a level. -/
def inLevel (h w : Nat) (y x : Int) : Bool := decide (0 ≤ y) && decide (y < h) && decide (0 ≤ x) && decide (x < w)

/-- ORIENT and BORDER of a feature (R405). -/
def orientation (g : Grid) (h w y x : Nat) : Nat × Bool :=
  let add := fun (s : Int × Int × Bool) (o : Int × Int) =>
    let r := (y : Int) + o.2
    let c := (x : Int) + o.1
    if !inLevel h w r c then (s.1, s.2.1, true)
    else
      let v := g.px r.toNat c.toNat
      if v < 0 then s else (s.1 + o.1 * v, s.2.1 + o.2 * v, s.2.2)
  let m := disk.foldl add (0, 0, false)
  let val := fun k => m.1 * cs k - m.2.1 * sn k
  let best := (List.range 256).foldl (fun (b : Nat) k => if val b < val k then k else b) 0
  (if m.1 = 0 && m.2.1 = 0 then 0 else best, m.2.2)

/-- A sample: the sum of 3 × 3 pixels, none when one is invalid, and whether it reaches outside the level (R407). -/
def sample3 (g : Grid) (h w : Nat) (y x : Int) : Option Int × Bool :=
  let ps := (List.range 3).flatMap (fun (a : Nat) => (List.range 3).map (fun (b : Nat) => (y + a - 1, x + b - 1)))
  let vs := ps.map (fun (p : Int × Int) =>
    g.px (clampInt 0 ((h : Int) - 1) p.1).toNat (clampInt 0 ((w : Int) - 1) p.2).toNat)
  (if vs.any (· < 0) then none else some (vs.foldl (· + ·) 0), ps.any (fun p => !inLevel h w p.1 p.2))

/-- The descriptor of a feature: its 256 bits, BORDER and PARTIAL (R407). -/
def describe (g : Grid) (h w y x orient : Nat) : Nat × Bool × Bool :=
  let q := (orient + 4) / 8 % 32
  let c := cs (8 * q)
  let s := sn (8 * q)
  let at_ := fun (dx dy : Int) =>
    sample3 g h w ((y : Int) + (-s * dx + c * dy + 16384) / 32768) ((x : Int) + (c * dx + s * dy + 16384) / 32768)
  let pat := pattern.toArray
  let p := fun i => pat.getD i 0
  (List.range 256).foldl (fun (a : Nat × Bool × Bool) b =>
    let m := at_ (p (4 * b)) (p (4 * b + 1))
    let n := at_ (p (4 * b + 2)) (p (4 * b + 3))
    let on := match m.1, n.1 with
      | some u, some v => decide (u < v)
      | _, _ => false
    (if on then a.1 + 2 ^ b else a.1, a.2.1 || m.2 || n.2, a.2.2 || m.1.isNone || n.1.isNone)) (0, false, false)

/-- A FEAT record (R330, R404). -/
def featBytes (f : Feat) (orient i : Nat) (described partial_ border : Bool) : List Byte :=
  leBytes 2 (f.x * 2 ^ f.level * 16) ++ leBytes 2 (f.y * 2 ^ f.level * 16) ++ leBytes 1 f.level ++ leBytes 1 orient ++
    leBytes 2 f.score ++ leBytes 4 (if described then i else 0xFFFFFFFF) ++ leBytes 2 f.cell ++
    leBytes 1 (b2n partial_ * 2 + b2n border) ++ [0]

/-- The levels of a DETECT job, as it reads them. -/
def detectLoad (u : Nat) (r : Running) (ws : List Nat) (parity : List Nat) (d : Dev) : List Grid × Load :=
  let j := ftrJob ws
  let acc := runAccess d u r false
  (List.range j.levels).foldl (fun (s : List Grid × Load) k =>
    let p := loadGrid u acc (levelArr j.inFmt (levelSize j.width k) (wordAt ws (2 + k)) (wordAt ws (6 + k))) 0
      (levelSize j.height k) s.2
    (s.1 ++ [p.1], p.2)) ([], { d := d, marks := jobMarks d u parity })

/-- The features of every level of a DETECT job, and those that it writes with those that it drops (R401 to R403). -/
def featsOf (j : FtrJob) (levels : List Grid) : List Feat :=
  (List.range j.levels).flatMap (fun k => levelFeats j (levels.getD k #[]) k)
def featsOut (j : FtrJob) (fs : List Feat) : List Feat × List Feat :=
  ((keptFeats j fs).take j.maxFeat, (keptFeats j fs).drop j.maxFeat)

/-- What a DETECT job writes of its levels: the records and descriptors of its features, and the summary (R404 to R407). -/
def detectWrites (u : Nat) (r : Running) (ws : List Nat) (levels : List Grid) (d : Dev) : Dev :=
  let j := ftrJob ws
  let grid := fun k => levels.getD k #[]
  let fs := featsOf j levels
  let out := (featsOut j fs).1
  let dropped := (featsOut j fs).2
  let desc := baseOf (wordAt ws 11)
  let recs := ((List.range out.length).zip out).map (fun (e : Nat × Feat) =>
    let h := levelSize j.height e.2.level
    let w := levelSize j.width e.2.level
    let o := orientation (grid e.2.level) h w e.2.y e.2.x
    let b := if desc = 0 then (0, false, false) else describe (grid e.2.level) h w e.2.y e.2.x o.1
    (featBytes e.2 o.1 e.1 (desc ≠ 0) b.2.2 (o.2 || b.2.1), b.1))
  let d1 := engWrite u r (linearPieces (baseOf (wordAt ws 10)) (recs.flatMap (·.1))) d
  let d2 := if desc = 0 then d1 else engWrite u r (linearPieces desc (recs.flatMap (fun e => leBytes 32 e.2))) d1
  let sum := leBytes 4 out.length ++ leBytes 4 dropped.length ++ leBytes 4 fs.length ++ leBytes 4 (b2n (getEng d2 u).poison)
  let d3 := engWrite u r (linearPieces (baseOf (wordAt ws 12)) sum) d2
  let d4 := match dropped with
    | f :: _ => engFlag u 4 f.cell (bumpBy (kEng u 0x088) dropped.length d3)
    | [] => d3
  bump64By (kEng u 0x080) fs.length (bump64By (kEng u 0x060) out.length d4)

/-- The steps of a DETECT job that writes `n` features (R410). -/
def detectSteps (j : FtrJob) (n : Nat) : Nat :=
  64 + sumBelow j.levels (fun k => (levelSize j.width k * levelSize j.height k + 7) / 8) + 96 * n

/-- FTR_DETECT (R401 to R407, R410). -/
def detectRun (u : Nat) (parity : List Nat) (d : Dev) : Dev :=
  match openJob d u with
  | none => d
  | some (r, ws) =>
    if (ftrJob ws).op ≠ 0 then d
    else
      let lv := detectLoad u r ws parity d
      let n := (featsOut (ftrJob ws) (featsOf (ftrJob ws) lv.1)).1.length
      afterLoad u lv.2 d (fun d => jobDone u (detectSteps (ftrJob ws) n) (detectWrites u r ws lv.1 d))

/-! ### Matching (R408, R409) -/

/-- A feature as MATCH reads it: whether it takes part, X, Y, LEVEL, and its descriptor. -/
structure MFeat where
  takes : Bool
  x     : Int
  y     : Int
  level : Int
  desc  : Nat
deriving Inhabited

/-- A count read from a summary: 0 when poisoned (R408). -/
def loadCount (u : Nat) (acc : Access) (a : Nat) (l : Load) : Nat × Load :=
  let p := loadPieces u acc (bytePieces a 16) l
  if !p.2.ok then (0, p.2)
  else
    let c := countElems (elemsOf 16 1 p.1) p.2
    (if c.1.getD 0 (-2) = -2 then 0 else leNat ((p.1.map (·.1)).take 4), c.2)

/-- Reading a set of features (R408). -/
def loadFeats (u : Nat) (acc : Access) (feat desc n : Nat) (l : Load) : Array MFeat × Load :=
  (List.range n).foldl (fun (s : Array MFeat × Load) i =>
    let p := loadPieces u acc [(feat + 16 * i, 16)] s.2
    if !p.2.ok then (s.1, p.2)
    else
      let c := countElems (elemsOf 16 1 p.1) p.2
      let b := p.1.map (·.1)
      let x := leNat (b.take 2)
      let idx := leNat ((b.drop 8).take 4)
      if c.1.getD 0 (-2) = -2 || x = 0xFFFF || idx = 0xFFFFFFFF then (s.1.push ⟨false, 0, 0, 0, 0⟩, c.2)
      else
        let q := loadPieces u acc [(desc + 32 * idx, 32)] c.2
        let e := countElems (elemsOf 32 1 q.1) q.2
        (s.1.push ⟨e.1.getD 0 (-2) ≠ -2, x, leNat ((b.drop 2).take 2), leNat ((b.drop 4).take 1), leNat (q.1.map (·.1))⟩, e.2))
    (#[], l)

/-- Whether a train feature is eligible for a query (R408). -/
def pairOk (j : FtrJob) (q t : MFeat) : Bool :=
  let near := fun (a b d : Int) => decide ((a - b - 16 * d).natAbs ≤ 16 * j.win)
  q.takes && t.takes && (decide ((t.level - q.level).natAbs ≤ j.lvlTol) || j.lvlTol = 7) &&
    (j.win = 0 || (near t.x q.x j.dx && near t.y q.y j.dy))

/-- Hamming distance. -/
def hamming (q t : MFeat) : Nat := popCount 256 (q.desc ^^^ t.desc)

/-- The lowest and the next lowest distance among eligible partners: index, distance, second. -/
def twoBest (xs : List (Nat × Nat)) : Option (Nat × Nat × Option Nat) :=
  xs.foldl (fun (b : Option (Nat × Nat × Option Nat)) (e : Nat × Nat) => match b with
    | none => some (e.1, e.2, none)
    | some (i, dd, s) =>
      if e.2 < dd then some (e.1, e.2, some dd)
      else some (i, dd, some (match s with
        | some y => min y e.2
        | none => e.2))) none

/-- A MATCH record's fields: query, train, distances, flags; `none` for no match (R409). -/
def matchOne (j : FtrJob) (qs ts : Array MFeat) (q : Nat) : Option (Nat × Nat × Nat × Bool × Bool) :=
  let pairs := (List.range ts.size).filterMap (fun t =>
    if pairOk j (qs.getD q default) (ts.getD t default) then some (t, hamming (qs.getD q default) (ts.getD t default)) else none)
  match twoBest pairs with
  | none => none
  | some (t, dist, second) =>
    let d2 := second.getD 0xFFFF
    let ratio := d2 = 0xFFFF || decide (256 * dist ≤ j.ratio * d2)
    let rivals := (List.range qs.size).filterMap (fun i =>
      if pairOk j (qs.getD i default) (ts.getD t default) then some (i, hamming (qs.getD i default) (ts.getD t default)) else none)
    let mutual_ := match twoBest rivals with
      | some (i, _, _) => i = q
      | none => false
    if j.maxDist < dist || (j.reqRatio && !ratio) || (j.reqMutual && !mutual_) then none
    else some (t, dist, d2, ratio, mutual_)

/-- The bytes of a MATCH record (R332). -/
def matchBytes (q : Nat) (m : Option (Nat × Nat × Nat × Bool × Bool)) : List Byte :=
  match m with
  | none => leBytes 4 q ++ leBytes 4 0xFFFFFFFF ++ leBytes 2 0xFFFF ++ leBytes 2 0xFFFF ++ leBytes 4 0
  | some (t, dist, d2, ratio, mutual_) =>
    leBytes 4 q ++ leBytes 4 t ++ leBytes 2 dist ++ leBytes 2 d2 ++ leBytes 4 (b2n mutual_ * 4 + b2n ratio * 2)

/-- The counts of a MATCH job, as it reads them. -/
def matchCounts (u : Nat) (r : Running) (ws : List Nat) (parity : List Nat) (d : Dev) : (Nat × Nat) × Load :=
  let acc := runAccess d u r false
  let nq := loadCount u acc (baseOf (wordAt ws 4)) { d := d, marks := jobMarks d u parity }
  let nt := loadCount u acc (baseOf (wordAt ws 7)) nq.2
  ((nq.1, nt.1), nt.2)

/-- The features of a MATCH job, as it reads them after its counts. -/
def matchLoad (u : Nat) (r : Running) (ws : List Nat) (nq nt : Nat) (l : Load) (d : Dev) : (Array MFeat × Array MFeat) × Load :=
  let acc := runAccess d u r false
  let qs := loadFeats u acc (baseOf (wordAt ws 2)) (baseOf (wordAt ws 3)) nq l
  let ts := loadFeats u acc (baseOf (wordAt ws 5)) (baseOf (wordAt ws 6)) nt qs.2
  ((qs.1, ts.1), ts.2)

/-- What a MATCH job writes of `nq` query and `nt` train features: a record for each query feature, and the summary (R408,
R409). -/
def matchWrites (u : Nat) (r : Running) (ws : List Nat) (nq nt : Nat) (qs ts : Array MFeat) (d : Dev) : Dev :=
  let ms := (List.range nq).map (matchOne (ftrJob ws) qs ts)
  let bytes := ((List.range nq).zip ms).flatMap (fun (e : Nat × Option (Nat × Nat × Nat × Bool × Bool)) => matchBytes e.1 e.2)
  let d1 := engWrite u r (linearPieces (baseOf (wordAt ws 8)) bytes) d
  let hit := ms.filterMap id
  let sum := leBytes 4 nq ++ leBytes 4 hit.length ++ leBytes 4 (hit.filter (fun m => m.2.2.2.2)).length ++ leBytes 4 0
  let d2 := engWrite u r (linearPieces (baseOf (wordAt ws 9)) sum) d1
  bump64By (kEng u 0x090) (2 * nq * nt) (bump64By (kEng u 0x060) nq d2)

/-- The steps of a MATCH job (R410). -/
def matchSteps (nq nt : Nat) : Nat := 64 + 2 * ((nq * nt + 15) / 16)

/-- FTR_MATCH (R379, R408 to R410). -/
def matchRun (u : Nat) (parity : List Nat) (d : Dev) : Dev :=
  match openJob d u with
  | none => d
  | some (r, ws) =>
    if (ftrJob ws).op ≠ 1 then d
    else
      let n := matchCounts u r ws parity d
      let nq := n.1.1
      let nt := n.1.2
      if n.2.held then jobHolds u (runAccess d u r false) n.2 d
      else if n.2.fail then jobEnds u 0x23 (poisonIn u n.2 n.2.d)
      else if 65536 < nq || 65536 < nt then badJob u 0x0C (poisonIn u n.2 n.2.d)
      else
        let fs := matchLoad u r ws nq nt n.2 d
        afterLoad u fs.2 d (fun d => jobDone u (matchSteps nq nt) (matchWrites u r ws nq nt fs.1.1 fs.1.2 d))

/-! ### Starting a job -/

/-- ENGINE_JOB_START of any engine (R364, R379). -/
def engineStart (u : Nat) (d : Dev) : Dev :=
  match (u - 0x48) / 2 with
  | 0 => jobStart u 192 pyrCheck d
  | 1 => jobStart u 128 wrpCheck d
  | 2 => jobStart u 128 strCheck d
  | 3 => jobStart u 128 flwCheck d
  | _ => jobStart u 128 ftrCheck d

end Sys2Proof.Machine
end

