-- ==== Sys2Proof/Machine/HostBus.lean ====
section
/-! DEFINITION. Host requests through the BARs (R505 to R508, R515, R307, R64): register pages, enqueue windows, the yard
and stack memory, and the posted requests that the endpoint holds. -/

namespace Sys2Proof.Machine

/-- The host functions' accesses. -/
def hostAcc (f : Fin 16) (write bar4 : Bool) : Access := { who := .host f, cmp := f.val, write := write, bar4 := bar4 }

/-- Whether a function claims memory requests: it exists, its memory space is on, it is not in D3hot, and the link is
up. -/
def fnClaims (d : Dev) (f : Fin 16) : Bool :=
  linkIsUp d && fnExists d f.val && fnMemory d f.val && !fnD3 d f.val

/-- A function acts for a compartment that is ACTIVE (R307). -/
def fnActive (d : Dev) (f : Fin 16) : Bool := f.val = 0 || cmpActive d f.val

/-- A read that ends as an Unsupported Request is logged (R515). -/
def hostReadRefused (f : Fin 16) (k : Kind) (d : Dev) : Dev := answer (.host f) (.refused k) (urLogged f.val none d)

/-- FUNCTION_LEVEL_RESET (R504, R307): a compartment reset begins with its graphs and lists (R314 step 1). -/
def functionReset (f : Nat) (d : Dev) : Dev :=
  if !fnExists d f then d
  else if f = 0 then pfReset d
  else
    let d1 := vfReset f d
    if rdB d1 (kC f 0x04C) 8 && (getCmp d1 f).mode = .active then
      cmpResetStart f (wrB (kC f 0x048) 31 true (cutCompartment f false d1))
    else d1

/-! ### What each request does -/

/-- A host request on its way from the endpoint to an address: one that is lost, or whose response is, waits for its
timer (R183), one to an
unreachable block is a decode error (R191). `go` is told whether its data has lost its parity (R442). -/
def hostWay (f : Fin 16) (write bar4 : Bool) (a id : Nat) (fails : Dev → Dev) (go : Bool → Dev → Dev) (d : Dev) : Dev :=
  let acc := hostAcc f write bar4
  if attachCut d acc.who a then fails (decodeError acc a d)
  else
    let on := sendBus acc a d
    match on.1 with
    | .lost => launch ⟨.host f, f.val, id, 0, a, write, .pending, tick d, false⟩ on.2
    | .spoiled => go true on.2
    | .arrives => go false on.2
    | .unheard =>
      let e := { go false on.2 with rsp := on.2.rsp }
      if write then unanswered on.2 e else launch ⟨.host f, f.val, id, 0, a, false, .pending, tick d, false⟩ e

/-- A read whose data is spoiled completes with EP set (R508). -/
def hostPoisoned (f : Fin 16) (len : Nat) (d : Dev) : Dev := answer (.host f) (.data (List.replicate len 0) true) d

/-- A read brings data to a function: without its parity it is recorded, and the completion has EP set (R442, R508). -/
def hostData (spoiled : Bool) (acc : Access) (f : Fin 16) (a n : Nat) (o : Answer) (d : Dev) : Dev :=
  if spoiled then hostPoisoned f n (wayParity acc a d) else answer (.host f) o (tcount 8 n d)

/-- A write to a block whose data has lost its parity on the way fails there (R442). -/
def hostSpoiled (f : Fin 16) (a id : Nat) (d : Dev) : Dev :=
  hostFails f.val a .pathParity id (wayParity (hostAcc f true false) a d)

/-- A BAR0 read (R505, R515); the effects of a read whose data is spoiled on its way back stand. -/
def bar0Read (f : Fin 16) (o : Nat) (wide : Bool) (d : Dev) : Dev :=
  let n := if wide then 8 else 4
  let reads := fun (d : Dev) => readPage (hostAcc f false false) o n d
  hostWay f false false (0x40000000 + o) 0 (hostReadRefused f .noRegion)
    (fun sp d =>
      let r := reads d
      match r.1 with
      | .data bs => hostData sp (hostAcc f false false) f (0x40000000 + o) n (.data (bs.map (·.1)) false) r.2
      | .fail k => hostReadRefused f k r.2
      | .held => pageHold (hostAcc f false false) o n 0 (answer (.host f) .waits r.2)) d

/-- A BAR0 write. -/
def bar0Write (f : Fin 16) (o v : Nat) (wide : Bool) (id : Nat) (d : Dev) : Dev :=
  let n := if wide then 8 else 4
  let a := 0x40000000 + o
  hostWay f true false a id (hostFails f.val a .noRegion id)
    (fun sp d => if sp then hostSpoiled f a id d else
      let r := writePage (hostAcc f true false) o (leBytes n v) (tcount 8 n d)
      match r.1 with
      | .fail k => hostFails f.val a k id r.2
      | _ => r.2) d

/-- Whether a function's BAR2 reaches a queue (R507). -/
def fnReaches (d : Dev) (f : Fin 16) (q : Nat) : Bool :=
  f.val = 0 || ((getQueue d q).valid && (getQueue d q).hostEn && (getQueue d q).owner = f.val)

/-- A BAR2 enqueue; one that does not reach its queue is a failed host write (R515). -/
def bar2Enqueue (f : Fin 16) (q : Nat) (img : Image) (id : Nat) (d : Dev) : Dev :=
  let a := 0x60000000 + 0x40 * q
  hostWay f true false a id (hostFails f.val a .noRegion id)
    (fun sp d =>
      if sp then hostSpoiled f a id d
      else if fnReaches d f q then offerWindow (.host f) q img (tcount 8 64 d)
      else hostFails f.val a .refusedRights id (windowRefused (hostAcc f true false) q 0 d)) d

/-- A BAR2 read of a window's word: HEAD and TAIL (R505, R286). -/
def bar2Read (f : Fin 16) (q : Nat) (d : Dev) : Dev :=
  let acc := hostAcc f false false
  hostWay f false false (0x60000000 + 0x40 * q) 0 (hostReadRefused f .noRegion)
    (fun sp d =>
      let r := if fnReaches d f q then readWindow acc q 0 8 d else (.fail .refusedRights, windowRefused acc q 0 d)
      match r.1 with
      | .data bs => hostData sp acc f (0x60000000 + 0x40 * q) 8 (readAnswer (.data bs)) r.2
      | .fail k => hostReadRefused f k r.2
      | .held => r.2) d

/-- A BAR2 write of 8 bytes at offset 8 of a window (R286). -/
def bar2Head (f : Fin 16) (q v id : Nat) (d : Dev) : Dev :=
  let a := 0x60000008 + 0x40 * q
  hostWay f true false a id (hostFails f.val a .noRegion id)
    (fun sp d => if sp then hostSpoiled f a id d else
      let r := if fnReaches d f q then writeWindow (hostAcc f true false) q 8 (leBytes 8 v) (tcount 8 8 d)
               else (.fail .refusedRights, windowRefused (hostAcc f true false) q 8 d)
      match r.1 with
      | .fail k => hostFails f.val a k id r.2
      | _ => r.2) d

/-- The owner that a refusal of a VF's access names when its compartment is not ACTIVE: the compartment of the region, or
of the stack window, where the access falls; nothing between the two (R307, R311). -/
def hostOwner (d : Dev) (a : Nat) : Option Nat :=
  if a < yardEnd then (regionAt d a).map (fun x => x.2.owner)
  else if stackBase ≤ a then winOwner d (a - stackBase) else none

/-- A BAR4 read (R508, R304, R307). -/
def bar4Read (f : Fin 16) (a len : Nat) (d : Dev) : Dev :=
  let acc := hostAcc f false true
  if !fnActive d f then hostReadRefused f .refusedRights (refused acc .refusedRights (hostOwner d a) false a d)
  else if !isMemory a || !oneWindow a len then hostReadRefused f .noRegion (decodeError acc a d)
  else hostWay f false true a 0 (hostReadRefused f .noRegion)
    (fun sp d =>
      let r := memRead acc a len d
      match r.1 with
      | .data bs => hostData sp acc f a len (readAnswer (.data bs)) r.2
      | .fail k => if k.isRefusal then hostReadRefused f k r.2 else hostPoisoned f len r.2
      | .held => hold { station := heldAt d a, acc := acc, addr := a, data := [], tag := 0, len := len } r.2) d

/-- A BAR4 write, posted; the header's number is its tag. -/
def bar4Write (f : Fin 16) (a : Nat) (bs : List Byte) (id : Nat) (d : Dev) : Dev :=
  let acc := hostAcc f true true
  if !fnActive d f then hostFails f.val a .refusedRights id (refused acc .refusedRights (hostOwner d a) false a d)
  else if !isMemory a || !oneWindow a bs.length then hostFails f.val a .noRegion id (decodeError acc a d)
  else hostWay f true true a id (hostFails f.val a .noRegion id)
    (fun sp d => (postWrite sp acc id 0 a bs (tcount 8 bs.length d)).2) d

/-! ### Order (R64, R507) -/

/-- A host producer waits at a full queue in brake mode: later posted requests of all functions are held. -/
def hostBraked (d : Dev) : Bool := d.dpt.brakes.any (fun b => b.who.isHost)

/-- A BAR4 write of a function has been neither acknowledged nor failed. -/
def hostWriting (d : Dev) (f : Fin 16) : Bool :=
  d.net.flights.any (fun x => x.who = .host f && x.posted && isMemory x.addr) ||
    d.yard.held.any (fun x => x.acc.who = .host f && x.acc.write)

/-- Whether a request can take effect now: an enqueue only when the function's BAR4 writes are acknowledged or failed, a
BAR0 read only when its writes have taken effect (R64, R507). -/
def hostReady (d : Dev) (h : HostHeld) : Bool :=
  !hostBraked d && (match h.req with
    | .enqueue _ _ _ => !hostWriting d h.fn
    | .window _ _ _ => !hostWriting d h.fn
    | .bar0Read _ _ => !d.yard.held.any (fun x => x.acc.who = .host h.fn && x.acc.write)
    | .windowRead _ => !d.yard.held.any (fun x => x.acc.who = .host h.fn && x.acc.write)
    | _ => true)

/-- The effect of a request. -/
def hostEffect (h : HostHeld) (d0 : Dev) : Dev :=
  let d := onWay h.way d0
  match h.req with
  | .bar0 o v wide id => bar0Write h.fn o v wide id d
  | .bar0Read o wide => bar0Read h.fn o wide d
  | .enqueue q img id => bar2Enqueue h.fn q img id d
  | .window q v id => bar2Head h.fn q v id d
  | .windowRead q => bar2Read h.fn q d
  | .bar4 a bs id => bar4Write h.fn a bs id d
  | .bar4Read a len => bar4Read h.fn a len d

/-- Held requests take effect in the order in which they arrived. -/
def drainHost : Nat → Dev → Dev
  | 0, d => d
  | n + 1, d =>
    match d.hst.inbox with
    | [] => d
    | h :: rest =>
      if hostReady d h then drainHost n (hostEffect h { d with hst := { d.hst with inbox := rest } }) else d

/-- A request arrives. -/
def hostArrives (h : HostHeld) (d : Dev) : Dev :=
  let d1 := { d with hst := { d.hst with inbox := d.hst.inbox ++ [h] } }
  let d2 := if d.hst.inbox.isEmpty && hostReady d h then d1 else (match h.req with
    | .bar0Read _ _ => answer (.host h.fn) .waits d1
    | .bar4Read _ _ => answer (.host h.fn) .waits d1
    | .windowRead _ => answer (.host h.fn) .waits d1
    | _ => d1)
  drainHost d2.hst.inbox.length d2

/-- An inbound write: its header is kept, and with EP set, or an injection of flag 4, it is dropped as poisoned (R508). -/
def inboundWrite (f : Fin 16) (addr len : Nat) (ep : Bool) (m : Mishap) (req : Nat → HostReq) (d : Dev) : Dev :=
  let inj := (armed d T.HST 0 0 4).isSome
  let d0 := if inj then fired T.HST 0 0 d else d
  let h := keepHeader f.val addr len (bump (kH 0 0x050) d0)
  if ep || inj then
    let hdr := (h.2.hst.headers.find? (fun x => x.id = h.1)).map (fun x => (x, false))
    hostFails f.val addr .pathParity h.1 (flag0 T.HST 0 4 f.val (aerLog f.val aerPoison hdr h.2))
  else hostArrives ⟨f, req h.1, m⟩ h.2

/-- A request that no function claims is an Unsupported Request (the Base Specification's rule for a request that a
function does not support). -/
def unclaimed (f : Fin 16) (read : Bool) (addr len : Nat) (d : Dev) : Dev :=
  if !linkIsUp d then d
  else if read then
    let d1 := bump (kH 0 0x050) d
    answer (.host f) (.refused .noRegion) (if fnExists d f.val then urLogged f.val none d1 else d1)
  else if fnExists d f.val then
    let h := keepHeader f.val addr len (bump (kH 0 0x050) d)
    urLogged f.val ((h.2.hst.headers.find? (fun x => x.id = h.1)).map (fun x => (x, false))) h.2
  else d

/-- HOST_BAR0_ACCESS; `m` is what befalls the request beyond the endpoint. -/
def hostBar0 (f : Fin 16) (o : Nat) (wide : Bool) (write : Option W64) (ep : Bool) (m : Mishap) (d : Dev) : Dev :=
  let a := 0x40000000 + o
  let n := if wide then 8 else 4
  match write with
  | none => if fnClaims d f then hostArrives ⟨f, .bar0Read o wide, m⟩ (bump (kH 0 0x050) d) else unclaimed f true a n d
  | some v =>
    if fnClaims d f then inboundWrite f a n ep m (fun id => .bar0 o v.toNat wide id) d else unclaimed f false a n d

/-- HOST_BAR2_ENQUEUE: a write of 64 bytes, or a read of the window. -/
def hostBar2 (f : Fin 16) (q : Nat) (img : Option Image) (ep : Bool) (m : Mishap) (d : Dev) : Dev :=
  let a := 0x60000000 + 0x40 * q
  match img with
  | some i => if fnClaims d f then inboundWrite f a 64 ep m (fun id => .enqueue q i id) d else unclaimed f false a 64 d
  | none => if fnClaims d f then hostArrives ⟨f, .windowRead q, m⟩ (bump (kH 0 0x050) d) else unclaimed f true a 8 d

/-- A CQ HEAD write through BAR2. -/
def hostHead (f : Fin 16) (q v : Nat) (ep : Bool) (d : Dev) : Dev :=
  let a := 0x60000008 + 0x40 * q
  if fnClaims d f then inboundWrite f a 8 ep .clear (fun id => .window q v id) d else unclaimed f false a 8 d

/-- HOST_BAR4_READ. -/
def hostBar4Read (f : Fin 16) (a len : Nat) (m : Mishap) (d : Dev) : Dev :=
  if len = 0 || 4096 < len then d
  else if fnClaims d f then hostArrives ⟨f, .bar4Read a len, m⟩ (bump (kH 0 0x050) d) else unclaimed f true a len d

/-- HOST_BAR4_WRITE; a payload longer than Max Payload Size is no request of this link. -/
def hostBar4Write (f : Fin 16) (a : Nat) (bs : List Byte) (ep : Bool) (m : Mishap) (d : Dev) : Dev :=
  if bs.isEmpty || 128 * 2 ^ d.hst.mps < bs.length then d
  else if fnClaims d f then inboundWrite f a bs.length ep m (fun id => .bar4 a bs id) d else unclaimed f false a bs.length d

end Sys2Proof.Machine
end

