-- ==== Sys2Proof/Machine/MgmtTarget.lean ====
section
/-! DEFINITION. The management target (R535 to R549): its framed commands, modes, alerts, in-band interrupts and
hot-join. -/

namespace Sys2Proof.Machine

def kMt (off : Nat) : Nat := rk T.MTB 0 0 off

/-- Changing the target's state. -/
def updMgmt (f : MgmtState → MgmtState) (d : Dev) : Dev := { d with mgmt := f d.mgmt }

/-- A brake wait holds a WRITE of the management bus (R541). -/
def mgmtHolding (d : Dev) : Bool := d.dpt.brakes.any (fun b => b.who = .mgmt)

/-- Whether the target acknowledges its address (R537, R541). -/
def mgmtAnswers (d : Dev) : Bool :=
  d.pwr.state = .run && d.pwr.warm = .idle && due d d.mgmt.upAt && !mgmtHolding d

def i3cMode (d : Dev) : Bool := d.mgmt.dyn.isSome

/-- The static address (R535), and the address byte of a transaction. -/
def staticAddr (d : Dev) : Nat := 0x38 + rdF d (kSys 0 0x044) 2 0
def addrByte (d : Dev) (read : Bool) : Byte := BitVec.ofNat 8 (2 * (d.mgmt.dyn.getD (staticAddr d)) + b2n read)

/-! ### Status -/

/-- Recording the status of a command (LAST_CMD). -/
def mgmtRecord (status cmd words : Nat) (d : Dev) : Dev := updMgmt (fun m => { m with last := (status, cmd, words) }) d

/-- A command that is discarded before any access (R542, R543). -/
def mgmtDiscard (status cmd : Nat) (d : Dev) : Dev :=
  let d1 := mgmtRecord status cmd 0 d
  if status = 0x14 then flag0 T.MTB 0 1 0 (bump (kMt 0x054) d1) else flag0 T.MTB 0 2 status d1

/-- The first failing word of a command ends it (R539). -/
def mgmtFail (status cmd words addr : Nat) (d : Dev) : Dev :=
  mgmtRecord status cmd words (flag0 T.MTB 0 3 (addr % 65536) (bump (kMt 0x060) d))

/-! ### Word accesses (R539, R540, R544) -/

def mgmtAcc (write : Bool) : Access := { who := .mgmt, cmp := 0, write := write }

/-- The status code of an address that the target does not serve: none when it may be accessed. -/
def mgmtBlocked (d : Dev) (a : Nat) : Option Nat :=
  if 2 ^ 46 ≤ a then some 0x11
  else match regionOf a with
    | .page _ => none
    | .ledger _ => if serviceClosed d then some 0x10 else none
    | .window _ _ => if serviceClosed d then some 0x10 else none
    | _ => some 0x11

/-- The status code of a failure. -/
def mgmtCode (k : Kind) : Nat := if k = .noRegion then 0x11 else 0x10

/-- A refused or undecoded word is counted as any other access (R59, R311). -/
def mgmtRefuse (code : Nat) (write : Bool) (a : Nat) (d : Dev) : Dev :=
  if code = 0x11 then decodeError (mgmtAcc write) a d else refusedAt (mgmtAcc write) a d

/-- Reading bytes: the data or a status code. -/
def mgmtFetch (a len : Nat) (d : Dev) : Except Nat (List Byte) × Dev :=
  match mgmtBlocked d a with
  | some c => (.error c, mgmtRefuse c false a d)
  | none =>
    let r := busRead (mgmtAcc false) a len d
    match r.1 with
    | .data bs => (.ok (bs.map (·.1)), r.2)
    | .fail k => (.error (mgmtCode k), r.2)
    | .held => (.error 0x10, r.2)

/-- Writing bytes: none, or a status code. -/
def mgmtPut (a : Nat) (bs : List Byte) (d : Dev) : Option Nat × Dev :=
  match mgmtBlocked d a with
  | some c => (some c, mgmtRefuse c true a d)
  | none =>
    let r := directWrite (mgmtAcc true) a bs d
    match r.1 with
    | .fail k => (some (mgmtCode k), r.2)
    | _ => (none, r.2)

/-- Words of a READ from word `i`: the bytes, 0xFF from a failing word onward, its status and the words completed. -/
def mgmtWords (a count : Nat) : Nat → Nat → Dev → (List Byte × Nat × Nat) × Dev
  | 0, _, d => (([], 0, count), d)
  | n + 1, i, d =>
    let r := mgmtFetch (a + 4 * i) 4 d
    match r.1 with
    | .ok bs =>
      let rest := mgmtWords a count n (i + 1) r.2
      ((bs ++ rest.1.1, rest.1.2), rest.2)
    | .error c => ((List.replicate (4 * (n + 1)) 0xFF, c, i), r.2)

/-- Words of a WRITE: the status and the words completed. -/
def mgmtStores (a : Nat) : List W32 → Nat → Dev → (Nat × Nat) × Dev
  | [], i, d => ((0, i), d)
  | w :: ws, i, d =>
    let r := mgmtPut (a + 4 * i) (leBytes 4 w.toNat) d
    match r.1 with
    | none => mgmtStores a ws (i + 1) r.2
    | some c => ((c, i), r.2)

/-- Whether an address lies in an enqueue window, and the offset in it. -/
def windowOff (a : Nat) : Option Nat := match regionOf a with
  | .window _ off => some off
  | _ => none

/-! ### Commands (R538, R543) -/

/-- The bytes of a write phase. -/
def mgmtPhase (d : Dev) (cmd : Nat) (fields : List Byte) : List Byte := addrByte d false :: BitVec.ofNat 8 cmd :: fields

/-- A new write transaction addresses the target: a pending reply is discarded (R538). -/
def mgmtOpen (sent : List Byte) (d : Dev) : Dev := updMgmt (fun m => { m with reply := none, bytes := [], sent := sent }) d

/-- The status of a frame that is discarded: none when it is whole. PEC_REQ asks a PEC of a WRITE alone; a READ or STATUS
that ends with a wrong one is discarded all the same (DEDUCED, log entry 168). -/
def frameStatus (d : Dev) (write : Bool) (f : MgmtFrame) (count addr : Nat) : Option Nat :=
  match f with
  | .unknown _ => some 0x12
  | .short => some 0x13
  | .long => some 0x13
  | .parity => if i3cMode d then some 0x16 else none
  | .badPec => if !i3cMode d && rdB d (kMt 0x044) 0 then some 0x14 else if i3cMode d then none else some 0x13
  | .noPec => if write && !i3cMode d && rdB d (kMt 0x044) 0 then some 0x14 else none
  | .whole => none
  |>.orElse (fun _ => if count = 0 || 64 < count then some 0x13 else if addr % 4 ≠ 0 then some 0x10 else none)

/-- The command byte of a frame. -/
def frameCmd (f : MgmtFrame) (cmd : Nat) : Nat := match f with
  | .unknown c => c.toNat
  | _ => cmd

/-- The pending reply of a READ. -/
def mgmtReply (status : Nat) (bs : List Byte) (d : Dev) : Dev :=
  updMgmt (fun m => { m with reply := some .read, bytes := BitVec.ofNat 8 status :: bs }) d

/-- MGMT_READ: the words are read at the end of the write phase, and the reply waits for its read phase (R538, R541). -/
def mgmtRead (a count : Nat) (f : MgmtFrame) (d : Dev) : Dev :=
  if !mgmtAnswers d then d
  else
    let d0 := mgmtOpen (mgmtPhase d 1 (leBytes 6 a ++ leBytes 1 count)) d
    match frameStatus d false f count a with
    | some c => mgmtDiscard c (frameCmd f 1) d0
    | none =>
      let d1 := bump (kMt 0x050) d0
      match windowOff a with
      | some off =>
        let r := if off = 0 && count = 2 then mgmtFetch a 8 d1
                 else (.error (if serviceClosed d || a < 2 ^ 46 then 0x10 else 0x11), refusedAt (mgmtAcc false) a d1)
        (match r.1 with
         | .ok bs => mgmtReply 0 bs (mgmtRecord 0 1 2 r.2)
         | .error c => mgmtReply c (List.replicate (4 * count) 0xFF) (mgmtFail c 1 0 a r.2))
      | none =>
        let r := mgmtWords a count count 0 d1
        let d2 := if r.1.2.1 = 0 then mgmtRecord 0 1 count r.2 else mgmtFail r.1.2.1 1 r.1.2.2 (a + 4 * r.1.2.2) r.2
        mgmtReply r.1.2.1 r.1.1 d2

/-- What a WRITE whose frame is right does: its status and the words completed. -/
def mgmtWriteActs (a : Nat) (ws : List W32) (d : Dev) : (Nat × Nat) × Dev :=
  match windowOff a with
  | some off =>
    if (off = 0 && ws.length = 16) || (off = 8 && ws.length = 2) then
      let r := mgmtPut a (ws.flatMap (fun w => leBytes 4 w.toNat)) d
      (match r.1 with
       | none => ((0, ws.length), r.2)
       | some c => ((c, 0), r.2))
    else ((0x10, 0), refusedAt (mgmtAcc true) a d)
  | none => mgmtStores a ws 0 d

/-- MGMT_WRITE (R541): COUNT and the data words, which a whole frame has as many of. -/
def mgmtWrite (a count : Nat) (ws : List W32) (f : MgmtFrame) (d : Dev) : Dev :=
  if !mgmtAnswers d then d
  else
    let d0 := mgmtOpen (mgmtPhase d 2 (leBytes 6 a ++ leBytes 1 count ++ ws.flatMap (fun w => leBytes 4 w.toNat))) d
    let inj := (armed d T.MTB 0 0 1).isSome && !i3cMode d && rdB d (kMt 0x044) 0
    let d1 := if inj then fired T.MTB 0 0 d0 else d0
    let g := if inj && f = .whole then MgmtFrame.badPec else f
    match frameStatus d true g (if ws.length < count then 0 else count) a with
    | some c => mgmtDiscard c (frameCmd g 2) d1
    | none =>
      let r := mgmtWriteActs a (ws.take count) (bump (kMt 0x050) d1)
      if r.1.1 = 0 then mgmtRecord 0 2 r.1.2 r.2 else mgmtFail r.1.1 2 r.1.2 (a + 4 * r.1.2) r.2

/-- MGMT_STATUS: the reply is the last command's status, command byte and words completed. -/
def mgmtStatus (f : MgmtFrame) (d : Dev) : Dev :=
  if !mgmtAnswers d then d
  else
    let d0 := mgmtOpen (mgmtPhase d 3 []) d
    match frameStatus d false f 1 0 with
    | some c => mgmtDiscard c (frameCmd f 3) d0
    | none =>
      let l := d.mgmt.last
      updMgmt (fun m => { m with reply := some .status, bytes := leBytes 1 l.1 ++ leBytes 1 l.2.1 ++ leBytes 1 l.2.2 })
        (bump (kMt 0x050) d0)

/-- MGMT_READ_PHASE: `again` says that it follows a repeated START. The pending reply is returned with PEC in I²C mode; with
none pending the bytes read 0xFF (R538, R542, R543). -/
def mgmtReadPhase (again : Bool) (d : Dev) : Dev :=
  if !mgmtAnswers d then d
  else if d.mgmt.reply.isNone then answer .mgmt (.data [0xFF] false) (mgmtDiscard 0x15 0 d)
  else
    let bs := d.mgmt.bytes
    let pec := crc8 ((if again then d.mgmt.sent else []) ++ addrByte d true :: bs)
    answer .mgmt (.data (if i3cMode d then bs else bs ++ [pec]) false)
      (updMgmt (fun m => { m with reply := none, bytes := [] }) d)

/-! ### Alerts (R546 to R548) -/

/-- An alert has risen: each new bit of ALERT_PENDING is raised by IBI where interrupts are in force; else ALERT_N is driven
again, whatever released it (R547, R548). -/
def mgmtAlert (d : Dev) : Dev :=
  let p := alertPending d
  let news := (List.range 32).filter (fun t => p.testBit t && !d.mgmt.known.testBit t)
  let d1 := updMgmt (fun m => { m with known := m.known ||| p }) d
  if ibiMode d1 && !news.isEmpty then
    updMgmt (fun m => { m with ibis := m.ibis ++ news, byIbi := news.foldl setBit m.byIbi }) d1
  else updMgmt (fun m => { m with released := false }) d1

/-- What the target holds of the alerts that are still pending: an alert that is over waits for no interrupt, is in no
fallback, and with none left ALERT_N is released (R547, R548). -/
def mgmtNow (d : Dev) : MgmtState :=
  let m := d.mgmt
  let p := alertPending d
  let left := m.ibis.filter (fun t => p.testBit t)
  { m with known := m.known &&& p, byIbi := m.byIbi &&& p, ibis := left, fallback := m.fallback &&& p
           nacks := if left.head? = m.ibis.head? && !left.isEmpty then m.nacks else 0
           released := m.released && alertOn d }

/-- Alerts that are over are forgotten. -/
def alertsOver (d : Dev) : Dev := { d with mgmt := mgmtNow d }

/-- ALERT_RESPONSE_READ (R547): `win` says whether the target wins arbitration. -/
def alertRead (win : Bool) (d : Dev) : Dev :=
  if !mgmtAnswers d || i3cMode d then d
  else if !win then flag0 T.MTB 0 6 0 d
  else
    let b : Byte := BitVec.ofNat 8 (2 * staticAddr d)
    let d1 := if rdB d (kMt 0x044) 5 then updMgmt (fun m => { m with released := true, fallback := 0 }) d else d
    answer .mgmt (.data [b, crc8 [0x19, b]] false) d1

/-- The IBI of the oldest waiting alert is over. -/
def ibiOver (d : Dev) : Dev := updMgmt (fun m => { m with ibis := m.ibis.drop 1, nacks := 0 }) d

/-- An alert falls back to ALERT_N, until it is released (R548). -/
def ibiFallback (t : Nat) (d : Dev) : Dev :=
  flag0 T.MTB 0 4 0 (updMgmt (fun m =>
    { m with byIbi := clrBit m.byIbi t, fallback := setBit m.fallback t, released := false }) d)

/-- IBI_RETRY: a pending interrupt is raised at a bus-free condition (R548). -/
def ibiRetry (ack : Bool) (d : Dev) : Dev :=
  match d.mgmt.ibis with
  | [] => d
  | t :: _ =>
    if !mgmtAnswers d || !ibiMode d then d
    else if ack then
      let low := (findBelow 0x1D (fun t => (alertPending d).testBit t)).getD 0
      answer .mgmt (.data [0, BitVec.ofNat 8 low] false) (ibiOver d)
    else if d.mgmt.nacks + 1 < 8 then updMgmt (fun m => { m with nacks := m.nacks + 1 }) d
    else
      let d1 := bumpBy (kMt 0x05C) 8 (ibiOver d)
      if rdB d1 (kMt 0x044) 3 && rdB d1 (rk T.SYS 0 1 0x048) 0 then ibiFallback t d1 else d1

/-- HOT_JOIN (R549). -/
def hotJoin (ack : Bool) (d : Dev) : Dev :=
  let m := d.mgmt
  if !mgmtAnswers d || m.hjDone || !m.hjOn || !rdB d (kMt 0x044) 2 || !due d m.hjAt || m.dyn.isSome then d
  else if ack then updMgmt (fun m => { m with hjDone := true }) d
  else if m.hjNacks + 1 < 8 then
    updMgmt (fun m => { m with hjNacks := m.hjNacks + 1, hjAt := tick d + 100000 }) d
  else flag0 T.MTB 0 5 0 (updMgmt (fun m => { m with hjNacks := 8, hjDone := true }) d)

/-- MGMT_SCL_TIMEOUT (R545): the transaction is abandoned, in I²C mode with TIMEOUT_EN. -/
def sclTimeout (d : Dev) : Dev :=
  if !mgmtAnswers d || i3cMode d || !rdB d (kMt 0x044) 1 then d
  else flag0 T.MTB 0 0 0 (bump (kMt 0x058) d)

/-! ### CCCs (R535, R536) -/

/-- A dynamic address is assigned: I3C mode, and Hot-Join ends. -/
def assignDyn (a : Nat) (d : Dev) : Dev :=
  updMgmt (fun m => { m with dyn := some a, seen := true, hjDone := true }) d

/-- ENTDAA and SETDASA address a target that holds no dynamic address. -/
def entDaa (a : Nat) (d : Dev) : Dev := if mgmtAnswers d && d.mgmt.dyn.isNone then assignDyn a d else d

/-- A CCC that the target supports in I3C mode. -/
def ccc (f : Dev → Dev) (d : Dev) : Dev := if mgmtAnswers d && i3cMode d then f d else d

/-- RSTDAA: back to I²C mode. -/
def rstDaa (d : Dev) : Dev :=
  ccc (updMgmt (fun m => { m with dyn := none, ibis := [], byIbi := 0, nacks := 0, fallback := 0 })) d

/-- ENEC and DISEC: the interrupt and hot-join events named. An alert that is pending when interrupts come on is not a
new one. -/
def enec (int hj : Bool) (d : Dev) : Dev :=
  ccc (updMgmt (fun m => { m with ibiOn := m.ibiOn || int, hjOn := m.hjOn || hj })) d
def disec (int hj : Bool) (d : Dev) : Dev :=
  let f := updMgmt (fun m =>
    { m with ibiOn := m.ibiOn && !int, ibis := if int then [] else m.ibis, nacks := if int then 0 else m.nacks
             byIbi := if int then m.ibis.foldl clrBit m.byIbi else m.byIbi, hjOn := m.hjOn && !hj, hjDone := m.hjDone || hj })
  if mgmtAnswers d && (i3cMode d || d.mgmt.seen) then f d else d

/-- The Provisional ID: fuse rows 11 and 12. -/
def provisionalId (d : Dev) : Nat := rd d (kFuse 11) + rd d (kFuse 12) % 65536 * 2 ^ 32

/-- A CCC that returns a value. -/
def getCcc (v : Dev → Nat) (d : Dev) : Dev := ccc (fun d => answer .mgmt (.code (v d)) d) d

/-- GETSTATUS: the manual does not give the bits of the target status. -/
def getStatus (d : Dev) : Dev :=
  ccc (fun d => let r := draw d; answer .mgmt (.code (r.1.toNat % 65536)) r.2) d

/-! ### Resets (R535, R549) -/

/-- A warm reset, cold restart or wake: I²C mode, and Hot-Join once the target answers again when it has held a dynamic
address; `power` for a power-on reset, which clears I3C_SEEN. -/
def mgmtReset (power : Bool) (d : Dev) : Dev :=
  let seen := d.mgmt.seen && !power
  { d with mgmt := { seen := seen, hjDone := !seen, upAt := d.mgmt.upAt } }

end Sys2Proof.Machine
end

