-- ==== Sys2Proof/Machine/Tap.lean ====
section
/-! DEFINITION. The test access port (R582 to R592) and the UART console (R593). -/

namespace Sys2Proof.Machine

/-- Changing the port's state. -/
def updTap (f : Tap → Tap) (d : Dev) : Dev := { d with tap := f d.tap }

/-- The TAP is powered (R582). -/
def tapOn (d : Dev) : Bool := d.pwr.state ≠ .off && d.pwr.state ≠ .dormant && d.pwr.state ≠ .hold

/-- Loading an instruction (R583). -/
def tapLoad (i : TapIr) (d : Dev) : Dev := if tapOn d then updTap (fun t => { t with ir := i }) d else d

/-- The instruction in force: while SERVICE_CLOSE is, every one but IDCODE acts as BYPASS, whenever it was loaded (R583,
R597). -/
def tapIr (d : Dev) : TapIr := if serviceClosed d && d.tap.ir ≠ .idcode then .bypass else d.tap.ir

/-- TAP_RESET (R582). -/
def tapReset (d : Dev) : Dev := if tapOn d then updTap (fun t => { t with ir := .idcode }) d else d

/-- The PART field of a part (R584). -/
def partCode : Part → Nat
  | .vm4_11 => 0x4011 | .vm4_21 => 0x4021 | .vm4_41 => 0x4041 | .vm4_22 => 0x4022 | .vm4_42 => 0x4042

/-- The IDCODE register (R584). -/
def idcode (d : Dev) : Nat :=
  rdF d (kSys 0 0x040) 19 16 * 2 ^ 28 + partCode d.part * 2 ^ 12 + rdF d (kFuse 10) 26 16 * 2 + 1

/-- The instruction IDCODE, and the register that it selects. -/
def tapIdcode (d : Dev) : Dev := if tapOn d then answer .tap (.code (idcode d)) (tapLoad .idcode d) else d

/-- The chain of the part. -/
def scanOf (d : Dev) : List ScanGroup := scanChain d.part.ioDies

/-- What the cells of a group capture: `level` where they look outward; RESET_N, VR_EN and PG are the module's own (R586). -/
def scanCell (d : Dev) (g : ScanGroup) (level : Nat) : Nat := match g with
  | .resetN => b2n (!d.pwr.resetLow)
  | .vrEn => d.pwr.vrEn
  | .pg => d.pwr.pg
  | _ => level

/-- An instruction that selects the boundary register is loaded, and the register is scanned once: it captures the pins,
shifts them out, and takes what is shifted in (R583, R585, R587). -/
def tapScan (i : TapIr) (pins load : List Nat) (d : Dev) : Dev :=
  let d1 := tapLoad i d
  if tapIr d1 ≠ i || !tapOn d then d1
  else
    let chain := (scanOf d).zipIdx
    answer .tap (.cells (chain.map (fun x => scanCell d x.1 (pins.getD x.2 0))))
      (updTap (fun t => { t with boundary := chain.map (fun x => load.getD x.2 0) }) d1)

/-- The pins are cut off from the module (R588). -/
def pinsCut (d : Dev) : Bool := match tapIr d with
  | .extest => true | .highz => true | .clamp => true | .pulse => true | .train => true | _ => false

/-- The groups of pins that the boundary register drives, with their cells (R586, R588): none in HIGHZ. -/
def scanDrives (d : Dev) : List (ScanGroup × Nat) :=
  if pinsCut d && tapIr d ≠ .highz then ((scanOf d).zip d.tap.boundary).filter (fun x => !x.1.observes) else []

/-! ### Balls (R603, R604) -/

/-- Output balls of the module outside its lanes and buses. -/
inductive Ball where
  | vrEn (k : Fin 8) | alertN | fsync (k : Fin 6) | uartTx | xspiClk | xspiCsN | xspiResetN | tdo
deriving DecidableEq, Repr

/-- The level of a ball between the transfers that a command carries out whole; none where it is high-impedance, unpowered,
or driven by the boundary register. -/
def ballLevel (d : Dev) (b : Ball) : Option Bool :=
  match b with
  | .vrEn k => some (d.pwr.vrEn.testBit k.val)
  | _ =>
    if !tapOn d || pinsCut d then none
    else match b with
      | .alertN => if alertDriven d then some false else none
      | .fsync k => some (fsyncLevel d k.val)
      | .uartTx => some true
      | .xspiClk => some false
      | .xspiCsN => some true
      | .xspiResetN => some (xspiResetN d)
      | _ => none

/-- Whether the pull-down of the straps is on: from VIO18 reaching PG until 1 ms after they are sampled. -/
def strapPull (d : Dev) : Bool :=
  tapOn d && d.pwr.pg.testBit 0 && (!d.pwr.strapped || decide (rd64 d (kAon 0 0x040) < d.pwr.strapAt + 33))

/-- Whether the pull-up of a button or hot-plug ball is there: in every power state with VAON. -/
def inputPull (d : Dev) : Bool := d.pwr.state ≠ .off

/-- What arrives over the pins is lost while they are cut off (R588). -/
def overPins (f : Dev → Dev) (d : Dev) : Dev := if pinsCut d then d else f d

/-! ### Word accesses as compartment 0 (R589) -/

def tapAcc (write : Bool) : Access := { who := .tap, cmp := 0, write := write }

/-- A 32-bit read, by the console where `con`: the data, a refusal, or an access that has to wait. -/
def tapFetch (con : Bool) (a : Nat) (d : Dev) : ReadOut × Dev :=
  if 2 ^ 46 ≤ a then (.fail .noRegion, decodeError (tapAcc false) a d)
  else match regionOf a with
    | .outbound =>
      let r := outRead .tap 0 a 4 (if con then .console else .plain) d
      if r.1 then (.held, r.2) else (.fail .noRegion, r.2)
    | .memory =>
      let r := busRead (tapAcc false) a 4 d
      (match r.1 with
       | .held => (.held, park { station := heldAt d a, acc := tapAcc false, addr := a, data := [], tag := b2n con, len := 4 } d)
       | _ => r)
    | .page k =>
      let r := busRead (tapAcc false) a 4 d
      (r.1, doIf (r.1 = .held) (pageHold (tapAcc false) k 4 (b2n con)) r.2)
    | _ => busRead (tapAcc false) a 4 d

/-- A 32-bit write: done, refused, or one that has to wait. -/
def tapPut (con : Bool) (a v : Nat) (d : Dev) : WriteOut × Dev :=
  let acc := tapAcc true
  let bs := leBytes 4 v
  if 2 ^ 46 ≤ a then (.fail .noRegion, decodeError acc a d)
  else match regionOf a with
    | .outbound => (.ok, outWrite acc 0 0 a bs d)
    | .memory =>
      if !oneWindow a 4 then (.fail .noRegion, decodeError acc a d)
      else
        let r := memWrite acc a bs d
        (match r.1 with
         | .held => (.held, park { station := heldAt d a, acc := acc, addr := a, data := bs, tag := b2n con } r.2)
         | _ => r)
    | _ => directWrite acc a bs d

/-- The 84-bit register after an access: STATUS and data. -/
def memResult (status data : Nat) (d : Dev) : Dev :=
  updTap (fun t => { t with mem := status + data % 2 ^ 32 * 2 ^ 50 }) d

/-- MEM_ACCESS: an Update-DR with OP, ADDR and DATA; ignored while STATUS is busy (R589). -/
def memAccess (op a v : Nat) (d : Dev) : Dev :=
  let d0 := tapLoad .memAccess d
  if tapIr d0 ≠ .memAccess || !tapOn d || d.tap.mem % 4 = 1 then d0
  else match op with
    | 1 =>
      let r := tapFetch false a d0
      (match r.1 with
       | .data bs => memResult 0 (leNat (bs.map (·.1))) r.2
       | .fail _ => memResult 2 0 r.2
       | .held => memResult 1 0 r.2)
    | 2 =>
      let r := tapPut false a v d0
      (match r.1 with
       | .ok => memResult 0 0 r.2
       | .fail _ => memResult 2 0 r.2
       | .held => memResult 1 0 r.2)
    | _ => d0

/-- STRONGBOX: an Update-DR reads a word, or clears FULL (R590). -/
def tapBox (h i : Nat) (clear : Bool) (d : Dev) : Dev :=
  let d0 := tapLoad .strongbox d
  if tapIr d0 ≠ .strongbox || !tapOn d || 67 < h then d0
  else
    let w := (getCore d0 h).box.frame.getD i 0
    let d1 := updTap (fun t => { t with box := h + i * 2 ^ 7 + w * 2 ^ 10 }) d0
    answer .tap (.code w) (if clear then updCore h (fun c => { c with box := { c.box with full := false } }) d1 else d1)

/-! ### The console (R593) -/

/-- A hexadecimal digit's character. -/
def hexDigit (n : Nat) : Byte := BitVec.ofNat 8 (if n < 10 then 48 + n else 55 + n)

/-- A number as `k` hexadecimal digits. -/
def hexChars (k n : Nat) : List Byte := (List.range k).map (fun i => hexDigit (n / 16 ^ (k - 1 - i) % 16))

def okChars : List Byte := [79, 75]

/-- The console's status code of a failure (R561). -/
def uartCode (k : Kind) : Nat := if k = .noRegion then 0x11 else 0x10

/-- The console answers while the module runs and SERVICE_CLOSE is not in force. -/
def consoleOn (d : Dev) : Bool := d.pwr.state = .run && !serviceClosed d

/-- A console reply on UART_TX, which stays idle after SERVICE_CLOSE and is cut off with the pins (R588, R593). -/
def uartLine (cs : List Byte) (d : Dev) : Dev := if consoleOn d && !pinsCut d then answer .tap (.line cs) d else d

/-- Words of an R command after the text so far, until a word fails or has to wait. -/
def uartWords : Nat → Nat → List Byte → Dev → Dev
  | 0, _, t, d => uartLine (t ++ okChars) d
  | n + 1, a, t, d =>
    let r := tapFetch true a d
    match r.1 with
    | .data bs => uartWords n (a + 4) (t ++ hexChars 8 (leNat (bs.map (·.1))) ++ [32]) r.2
    | .fail k => uartLine (t ++ hexChars 2 (uartCode k)) r.2
    | .held => updTap (fun x => { x with console := some (a, n + 1, t) }) r.2

/-- The answer to a W command. -/
def uartDone (o : WriteOut) (a : Nat) (d : Dev) : Dev := match o with
  | .ok => uartLine okChars d
  | .fail k => uartLine (hexChars 2 (uartCode k)) d
  | .held => updTap (fun x => { x with console := some (a, 0, []) }) d

/-- The value of a digit. -/
def digitValue (c : Byte) : Option Nat :=
  let n := c.toNat
  if inR n 48 10 then some (n - 48) else if inR n 65 6 then some (n - 55) else if inR n 97 6 then some (n - 87) else none

/-- A number in a base, from its digits. -/
def readNumber (base : Nat) (cs : List Byte) : Option Nat :=
  cs.foldl (fun a c => match a, digitValue c with
    | some x, some v => if v < base then some (base * x + v) else none
    | _, _ => none) (if cs.isEmpty then none else some 0)

/-- The parts of a line between its spaces. -/
def lineParts (cs : List Byte) : List (List Byte) :=
  cs.foldr (fun c acc => match acc with
    | x :: xs => if c = 32 then [] :: x :: xs else (c :: x) :: xs
    | [] => [[c]]) [[]]

/-- A command of the console. -/
inductive ConsoleCmd where
  | read (a n : Nat) | write (a v : Nat) | ident | malformed
deriving DecidableEq, Repr

/-- The command that a line spells (R593): single spaces, an address of 12 digits and data of 8, and a count of 1 to 16 in
decimal. DESIGN CHOICE (log entry 163): digits of either case, and no other spacing. -/
def consoleCmd (line : List Byte) : ConsoleCmd := match lineParts line with
  | [[73]] => .ident
  | [[82], a, n] => (match readNumber 16 a, readNumber 10 n with
    | some x, some k => if a.length = 12 && 1 ≤ k && k ≤ 16 then .read x k else .malformed
    | _, _ => .malformed)
  | [[87], a, v] => (match readNumber 16 a, readNumber 16 v with
    | some x, some y => if a.length = 12 && v.length = 8 then .write x y else .malformed
    | _, _ => .malformed)
  | _ => .malformed

/-- The console carries out a line (R593). -/
def consoleRun (line : List Byte) (d : Dev) : Dev := match consoleCmd line with
  | .read a n => uartWords n a [] d
  | .write a v => let r := tapPut true a v d; uartDone r.1 a r.2
  | .ident => uartLine (hexChars 8 (idcode d) ++ [32] ++ hexChars 8 (rd d (kSys 0 0x04C)) ++ [32]
      ++ hexChars 8 (rd d (kSys 0 0x050))) d
  | .malformed => uartLine [63] d

/-- A line arrives on UART_RX; while the console waits for an access it keeps the line (log entry 163). -/
def uartCommand (line : List Byte) (d : Dev) : Dev :=
  if !consoleOn d then d
  else if d.tap.console.isSome then updTap (fun t => { t with lines := t.lines ++ [line] }) d
  else consoleRun line d

/-- The next line that has waited, once the console is free. -/
def consoleNext (d : Dev) : Dev :=
  match d.tap.lines with
  | [] => d
  | l :: rest =>
    if d.tap.console.isSome then d
    else
      let d1 := updTap (fun t => { t with lines := if consoleOn d then rest else [] }) d
      if consoleOn d then push .consoleLine (consoleRun l d1) else d1

/-- An access that the console waited for is over: it goes on with its line, unless SERVICE_CLOSE has come in between. -/
def consoleBack (r : FarReply) (d : Dev) : Dev :=
  match d.tap.console with
  | none => d
  | some (a, n, t) =>
    let d1 := push .consoleLine (updTap (fun x => { x with console := none }) d)
    if !consoleOn d1 then d1
    else match r with
      | .data [] => uartLine (t ++ hexChars 2 0x10) d1
      | .data bs => uartWords (n - 1) (a + 4) (t ++ hexChars 8 (leNat (bs.map (·.1))) ++ [32]) d1
      | .fail k => uartLine (t ++ hexChars 2 (uartCode k)) d1
      | _ => uartDone .ok a d1

/-- An access that the port waited for is over: the console's, or that of MEM_ACCESS (R589). -/
def tapBack (con : Bool) (r : FarReply) (d : Dev) : Dev :=
  if con then consoleBack r d
  else if d.tap.mem % 4 ≠ 1 then d
  else match r with
    | .data [] => memResult 2 0 d
    | .data bs => memResult 0 (leNat (bs.map (·.1))) d
    | .fail _ => memResult 2 0 d
    | _ => memResult 0 0 d

end Sys2Proof.Machine
end

