-- ==== Sys2Proof/Machine/CoreOps.lean ====
section
/-! DEFINITION. How a core runs an instruction (chapter 7): levels, fetch, exceptions and their frames, the strongbox,
poison, endings, and the accesses of a core. -/

namespace Sys2Proof.Machine

/-! ### Who acts (R216, R447) -/

/-- The requester that a holder id names. -/
def coreWho (h : Nat) : Who := if h < 64 then .coach (Fin.ofNat 64 h) else .ctl (Fin.ofNat 4 (h - 64))

/-- The type and instance of a core's pages. -/
def coreTy (h : Nat) : Nat := if h < 64 then T.CCH else T.CTL
def coreInst (h : Nat) : Nat := if h < 64 then h else h - 64

/-- The run of a core is a duplicate (R447). -/
def isDuplicate (d : Dev) (h : Nat) : Bool := match runOf d h with
  | some r => r.kind ≠ .original
  | none => false

/-- How a core's access is treated. -/
def coreAcc (d : Dev) (h : Nat) (write : Bool) : Access :=
  { who := coreWho h, cmp := cmpOf d (coreWho h), write := write,
    unit := match runOf d h with
      | some r => claimUnit d h r
      | none => h }

/-- The serial number of a core's run, 0 for a resident program. -/
def coreSerial (d : Dev) (h : Nat) : Nat := ((runOf d h).map (·.serial)).getD 0

/-- The stack pointer in use (R212, R216). -/
def Core.sp (c : Core) : Nat := if c.super then c.ssp else c.csp

/-! ### How an instruction ends -/

/-- What an instruction comes to. -/
inductive CoreOut where
  /-- It completes, and the PC moves on. -/
  | next
  /-- A taken branch. -/
  | jump (a : Nat)
  /-- An exception, with its cause and the ADDR of its frame (R241). -/
  | trap (cause addr : Nat)
  /-- The waybill or the resident program ends, with a status and a user code. -/
  | stop (status user : Nat)
  /-- The core waits; `moves` says that the PC has moved on. -/
  | waits (w : WaitFor) (moves : Bool)
  /-- The core takes FRAME_FAULT with no push (R245). -/
  | fault
  /-- An access is held at a sweep: the instruction is issued again. -/
  | stay
  /-- The run has gone away: a duplicate whose sample was cancelled (R448). -/
  | gone
deriving DecidableEq, Repr

/-! ### Parity errors (R213, INJECT of CCH and CTL) -/

/-- A flag of a core. -/
def coreFlag (h n detail : Nat) (d : Dev) : Dev := flag0 (coreTy h) (coreInst h) n detail d

/-- A parity error is found: it is flagged, recorded and scored (R467). -/
def parityFound (h n detail : Nat) (d : Dev) : Dev :=
  score h 1 (cper { cls := 0x02, block := coreTy h, inst := coreInst h, unit := h, detail := detail }
    (coreFlag h n detail (fired (coreTy h) (coreInst h) 0 d)))

/-- An armed injection of flag 3 on one of the registers that an instruction reads: the register is poisoned. -/
def regParity (h : Nat) (ss vs : List Nat) (d : Dev) : Dev :=
  match armed d (coreTy h) (coreInst h) 0 3 with
  | none => d
  | some p =>
    if p < 32 && p ≠ 0 && ss.contains p then
      parityFound h 3 p (updCore h (fun c => c.setS p (c.sReg p).1 true) d)
    else if 64 ≤ p && vs.contains ((p - 64) / 64) then
      parityFound h 3 p (updCore h (fun c =>
        c.setLane ((p - 64) / 64) ((p - 64) % 64) ((c.lane ((p - 64) / 64) ((p - 64) % 64)).1, true)) d)
    else d

/-- An armed injection of flag 4 on one of the rows that an instruction reads. -/
def accParity (h : Nat) (rows : List Nat) (d : Dev) : Dev :=
  match armed d (coreTy h) (coreInst h) 0 4 with
  | none => d
  | some p =>
    if rows.contains (p % 256) then
      parityFound h 4 p (updCore h (fun c => c.setAccPoison (p % 256 / 32) (p % 32) true) d)
    else d

/-- An armed injection of flag 5 on a byte of a weight buffer in the range that an mma reads. -/
def wbufParity (h b lo hi : Nat) (d : Dev) : Dev :=
  match armed d (coreTy h) (coreInst h) 0 5 with
  | none => d
  | some p =>
    let o := 2 * (p % 2 ^ 15)
    if p / 2 ^ 15 = b && decide (lo ≤ o) && decide (o < hi) then
      parityFound h 5 p (updCore h (fun c => { c with
        wb := Map.set (fun _ => 0) c.wb (65536 * b + o) ((c.wbByte b o).1 + 256) }) d)
    else d

/-! ### Endings (R239, R251) -/

/-- The program of a core ends: a waybill once its posted writes are done, a resident program at once. -/
def endProgram (h status user : Nat) (d : Dev) : Dev :=
  match runOf d h with
  | some _ =>
    let d1 := regParity h [1] [] d
    let s1 := (getCore d1 h).sReg 1
    -- a poisoned s1 does not leave the core: what the completion carries is open (log entry 80)
    let r := if s1.2 then Config.poisonedResult (BitVec.ofNat 64 s1.1) else BitVec.ofNat 64 s1.1
    updCore h (fun c => ({ c with streams := [], loop := none, queue := [], pending := none } : Core).waits .drain)
      (setEnding h status user r.toNat d1)
  | none =>
    let d1 := updCore h (fun c => { c with
      resident := false, wait := .none, loop := none, queue := []
      mode := if c.mode = .debugHalt then .debugHalt else .idle }) d
    if status = 0x20 then
      cper { cls := 0x03, block := coreTy h, inst := coreInst h, cmp := some (cmpOf d (coreWho h)), unit := h } d1
    else d1

/-! ### Accesses of a core -/

/-- What a core's read brings: bytes, a failure, an answer to wait for, or nothing yet. -/
inductive CoreRead where
  | data (bs : List PByte)
  | fail
  | far
  | held
deriving DecidableEq, Repr

/-- The window of C_BOUNDS (R252). -/
def inBounds (d : Dev) (h o len : Nat) : Bool :=
  let k := fun off => rd d (rk T.CTL (h - 64) 1 off)
  decide (fld (k 0x040) 17 0 ≤ o) && decide (o + len ≤ fld (k 0x044) 17 0)

/-- A C-level access of a control core to its own local RAM that lies outside C_BOUNDS. -/
def outOfBounds (d : Dev) (h a len : Nat) : Bool :=
  match regionOf a with
  | .lram o => decide (64 ≤ h) && o / 0x40000 = h - 64 && !(getCore d h).super && !inBounds d h (o % 0x40000) len
  | _ => false

/-- Register pages, of this module or another of its team: an access cancels the sample (R448). -/
def isPage (a : Nat) : Bool := match regionOf (a % 2 ^ 46) with
  | .page _ => true
  | _ => false

/-- A read of a core: its own module's map, the host behind the outbound window, or another module (R40, R45, R511). One
that is lost on its way waits for its timer (R183). -/
def coreRead (h a len : Nat) (fetch : Bool) (what : FarFor) (d : Dev) : CoreRead × Dev :=
  let acc := { coreAcc d h false with fetch := fetch }
  let b := a % 2 ^ 46
  match toward d acc.who a with
  | .nowhere => (.fail, decodeError acc (a % 2 ^ 48) d)
  | .far m => (.far, farAsk acc.who acc.cmp (tagOf d h) m a (.read a len fetch) what false d)
  | .here =>
    if inOutbound b then
      (let r := outRead acc.who acc.cmp b len what d
       (if r.1 then .far else .fail, r.2))
    else if outOfBounds d h b len then (.fail, refusedAt acc b d)
    else
      let on := sendBus acc b d
      if on.1 = .lost then (.far, lostAsk acc b what on.2)
      else
        let r := busRead acc b len on.2
        match r.1 with
        | .data bs =>
          if on.1 = .unheard then (.far, lostAsk acc b what r.2)
          else if on.1 = .spoiled then (.data (bs.map (fun x => (x.1, true))), wayParity acc b r.2) else (.data bs, r.2)
        | .fail _ => if on.1 = .unheard then (.far, lostAsk acc b what r.2) else (.fail, r.2)
        | .held => (.held, r.2)

/-- What becomes of a core's write: it is done or on its way, refused, or a non-posted one that the core waits for. -/
inductive CoreWrite where
  | ok | fail | far
deriving DecidableEq, Repr

/-- A write of a core: posted to memory and to the host, and not posted elsewhere, where the core waits for it (R63,
R165). A duplicate's writes are not sent (R447). -/
def coreWrite (h a : Nat) (bs : List Byte) (d : Dev) : CoreWrite × Dev :=
  let acc := coreAcc d h true
  let b := a % 2 ^ 46
  if isDuplicate d h then (.ok, d)
  else match toward d acc.who a with
    | .nowhere => (.fail, decodeError acc (a % 2 ^ 48) d)
    | .far m =>
      if isMemory b then (.ok, farWrite acc (tagOf d h) (coreSerial d h) a bs d)
      else (.far, farAsk acc.who acc.cmp (tagOf d h) m a (.write a bs) .store false d)
    | .here =>
      if inOutbound b then (.ok, outWrite acc (tagOf d h) (coreSerial d h) b bs d)
      else if outOfBounds d h b bs.length then (.fail, refusedAt acc b d)
      else if isMemory b then (.ok, sendWrite acc (tagOf d h) b bs d)
      else
        let on := sendBus acc b d
        match on.1 with
        | .lost => (.far, lostAsk acc b .store on.2)
        | .spoiled => (.fail, wayParity acc b on.2)
        | .arrives =>
          let r := directWrite acc b bs on.2
          (if r.1 = .ok then .ok else .fail, r.2)
        | .unheard => (.far, lostAsk acc b .store (directWrite acc b bs on.2).2)

/-- How a store ends. -/
def CoreWrite.out (a : Nat) : CoreWrite → CoreOut
  | .ok => .next
  | .fail => .trap 0x04 a
  | .far => .waits .far false

/-! ### Fetch (R218, R220, R241) -/

/-- The instruction at the PC: its words, and whether they are poisoned; or what its fetch comes to. `len` is 4, or 8 for
the long form. -/
def fetchWord (h len : Nat) (d : Dev) : Except CoreOut (Nat × Bool) × Dev :=
  let c := getCore d h
  let q := Map.get (fun _ => 0) c.queue c.pc
  if c.pc % 4 ≠ 0 then (.error (.trap 0x06 c.pc), d)
  else if q ≠ 0 then (.ok ((q - 1) % 2 ^ 64, bit (q - 1) 64), d)
  else
    let r := coreRead h c.pc len true .fetch d
    match r.1 with
    | .fail => (.error (.trap 0x06 c.pc), r.2)
    | .far => (.error (.waits .far false), r.2)
    | .held => (.error .stay, r.2)
    | .data bs => (.ok (leNat (bs.map (·.1)), bs.any (·.2)), r.2)

/-- The words at an address are kept in the fetch queue. -/
def Core.keep (a w : Nat) (poison : Bool) (c : Core) : Core :=
  { c with queue := Map.set (fun _ => 0) c.queue a (1 + w % 2 ^ 64 + b2n poison * 2 ^ 64) }

/-! ### Frames, the strongbox and FRAME_FAULT (R243 to R247) -/

/-- The eight words of an exception frame (R243). -/
def frameWords (d : Dev) (h cause addr instr sp pushFail : Nat) (boxed : Bool) : List Nat :=
  let c := getCore d h
  let st := moduleNo d % 4 * 2 ^ 40 + h % 128 * 2 ^ 32 + epochOf d h % 256 * 2 ^ 20 + cmpOf d (coreWho h) % 16 * 2 ^ 16
    + pushFail % 8 * 2 ^ 12 + b2n boxed * 2 ^ 11 + b2n (c.depth ≠ 0) * 2 ^ 10 + b2n (cause = 0x05) * 2 ^ 9
    + b2n c.super * 2 ^ 8 + cause % 256
  let resume := if cause = 0x07 || cause = 0x08 then c.pc + 4 else c.pc
  let ws := [c.pc, st, addr % 2 ^ 64, instr % 2 ^ 64, sp, resume, tagOf d h]
  let high := 0x01 * 2 ^ 24 + tick d % 2 ^ 24
  ws ++ [high * 2 ^ 32 + crc32c (ws.flatMap (leBytes 8) ++ leBytes 4 high)]

/-- Whether a frame's push at a stack pointer succeeds, and where it fails (R244): 0 none, 1 ALIGN, 2 RANGE, 3 RIGHTS,
4 WRITE_FAILED; none while a sweep holds it. With no stack region every push fails with RANGE (R258). `s` is the level at which the exception is taken. -/
def pushCheck (d : Dev) (h at_ : Nat) (s : Bool) : Option Nat :=
  let sp := at_ % 2 ^ 46
  if (armed d (coreTy h) (coreInst h) 0 0).isSome then some 2
  else if !(s && decide (64 ≤ h)) && (getCore d h).stackRgn.isNone then some 2
  else if at_ % 64 ≠ 0 then some 1
  else if 2 ^ 48 ≤ at_ || !isLocal d at_ then some 2
  else if s && decide (64 ≤ h) then
    let k := rk T.CTL (h - 64) 0 0x050
    let base := lramBase + (h - 64) * 0x40000
    let lo := base + fld (rd d k) 17 0
    let hi := base + fld (rd d (k + 4)) 17 0
    if lo + 64 ≤ sp && decide (sp ≤ hi) && decide (sp ≤ base + 0x40000) then some 0 else some 2
  else match (getCore d h).stackRgn with
    | none => some 2
    | some id =>
      let r := getDesc d id
      if !r.valid || sp < r.base + 64 || r.base + r.bytes < sp then some 2
      else match yardCheck d (coreAcc d h true) (sp - 64) 64 with
        | .ok => some 0
        | .held => none
        | .fail .unitStabled _ => some 4
        | _ => some 3

/-- The push itself: one non-posted write of 64 bytes. A duplicate's is not sent (R256). -/
def pushFrame (h sp : Nat) (ws : List Nat) (d : Dev) : Bool × Dev :=
  let bs := ws.flatMap (leBytes 8)
  let d1 := foldAccess h 0 (sp - 64) true bs d
  if isDuplicate d h then (true, d1)
  else
    let b := (sp - 64) % 2 ^ 46
    match regionOf b with
    | .lram o => (true, writeLram o bs d1)
    | _ =>
      let r := memWrite { coreAcc d h true with direct := true } b bs d1
      (r.1 = .ok, r.2)

/-- The event of a frame fault (R246, R310). -/
def frameEvent (h cause pushFail : Nat) (overflowed : Bool) (d : Dev) : Dev :=
  postBoth { kind := 0x02, subkind := cause, unit := h, subject := cmpOf d (coreWho h),
             detail := pushFail * 2 ^ 12 + b2n overflowed * 2 ^ 11, tag := tagOf d h } d

/-- FRAME_FAULT's outcome by core (R246): a coach's waybill ends ABORT_STACK and the coach takes a unit reset; CTL1 to CTL3
halt; CTL0's watchdog expires. -/
def faultOutcome (h cause pushFail : Nat) (overflowed : Bool) (d : Dev) : Dev :=
  let d1 := coreFlag h 0 (pushFail * 2 ^ 12 + cause) d
  -- the ending and the unit reset are one happening, which advances the epoch once (R161)
  if h < 64 then resetUnit h (cutRun h 0x22 (frameEvent h cause pushFail overflowed d1))
  else
    let d2 := updCore h (fun c => { c with mode := .frameFault, wait := .none, loop := none, queue := [], stepping := false })
      (setEnding h 0x22 0 0 d1)
    if h = 64 then push (.forced 0x05 ((getCore d h).pc % 2 ^ 32)) d2 else d2

/-- A push has failed: the frame goes to the strongbox, or the strongbox is FULL and overruns (R246, R247). -/
def frameFault (h cause addr instr sp pushFail : Nat) (d : Dev) : Dev :=
  let full := (getCore d h).box.full
  let ws := frameWords d h cause addr instr sp pushFail true
  let d1 := if full then coreFlag h 1 0 d
    else updCore h (fun c => { c with box := { frame := ws, full := true, count := satAdd 8 c.box.count 1 } }) d
  faultOutcome h cause pushFail full d1

/-! ### Exceptions (R241, R242, R244, R245) -/

/-- A frame has been pushed: the core goes to its handler (R245, R254). -/
def enterHandler (h cause : Nat) (s : Bool) (sp : Nat) (d : Dev) : Dev :=
  let d1 := updCore h (fun c =>
    let c1 := if s then { c with ssp := sp } else { c with csp := sp }
    { c1 with depth := c.depth + 1, loop := none, queue := []
              pending := if cause = 0x05 then none else c.pending }) d
  if (getCore d h).resident then
    updCore h (fun c => ({ c with
      super := true, sstatus := b2n c.super
      pc := (if cause = 0x0B then c.ivec else c.xvec) % 2 ^ 48 } : Core).goes) d1
  else if (getCore d h).handler = 0 then endProgram h 0x23 0 d1
  else updCore h (fun c => ({ c with pc := c.handler % 2 ^ 48 } : Core).goes) d1

/-- The number of a stack pointer as DBG_REG_SEL counts registers. -/
def spNumber (s : Bool) : Nat := if s then 33 else 32

/-- An armed injection of flag 3 on a stack pointer of a coach, which is control state: the waybill that uses it ends
ABORT_POISON (R442). -/
def spParity (d : Dev) (h : Nat) (s : Bool) : Bool := decide (h < 64) && decide (armed d T.CCH h 0 3 = some (spNumber s))

/-- Taking an exception: the frame is pushed on the stack of the level at which it is taken and the handler entered, or
the push fails (R244 to R247). -/
def takeException (h cause addr instr : Nat) (d : Dev) : Dev :=
  let c := getCore d h
  let s := c.resident || c.super
  let sp := if s then c.ssp else c.csp
  if spParity d h s then endProgram h 0x20 0 (parityFound h 3 (spNumber s) d)
  else match pushCheck d h sp s with
  | none => noteWait (coreWho h) (sp % 2 ^ 46 - 64) d
  | some p =>
    let d0 := if h < 64 then bump (rk T.CCH h 1 0x0A0) d else d
    let d1 := if (armed d (coreTy h) (coreInst h) 0 0).isSome then fired (coreTy h) (coreInst h) 0 d0 else d0
    if p ≠ 0 then frameFault h cause addr instr sp p d1
    else
      let r := pushFrame h sp (frameWords d1 h cause addr instr sp 0 false) d1
      if r.1 then enterHandler h cause s (sp - 64) r.2 else frameFault h cause addr instr sp 4 r.2

/-! ### Issue -/

/-- The PC moves past an instruction of `len` bytes; at the end of a loop's body it starts another pass (R220). -/
def Core.advance (len : Nat) (c : Core) : Core :=
  let n := (c.pc + len) % 2 ^ 48
  match c.loop with
  | some (first, body, togo, left) =>
    if 1 < togo then { c with pc := n, loop := some (first, body, togo - 1, left) }
    else if 1 < left then { c with pc := first, loop := some (first, body, body, left - 1) }
    else { c with pc := n, loop := none, queue := [] }
  | none => { c with pc := n, queue := [] }

/-- A taken branch ends a loop (R220). -/
def Core.jumps (a : Nat) (c : Core) : Core := { c with pc := a % 2 ^ 48, loop := none, queue := [] }

/-- What an instruction comes to is carried out. -/
def conclude (h len instr : Nat) (o : CoreOut) (d : Dev) : Dev :=
  let d1 := updCore h (fun c => { c with stepping := false }) d
  match o with
  | .next => updCore h (fun c => (c.advance len).goes) d1
  | .jump a => updCore h (fun c => (c.jumps a).goes) d1
  | .trap cause addr => takeException h cause addr instr d1
  | .stop status user => endProgram h status user d1
  | .waits w moves => updCore h (fun c => (if moves then c.advance len else c).waits w) d1
  | .fault =>
    -- no push failed: PUSH_FAIL is 0, and which of the causes of R241 DETAIL shows is open (log entry 81)
    let r := drawOf [1, 2, 3, 4, 5, 6, 7, 8, 9, 10, 11] d1
    faultOutcome h r.1 0 false r.2
  | .stay => d
  | .gone => d1

/-- Whether a core issues instructions: it runs, waits to issue one again, or is halted and steps. -/
def canIssue (d : Dev) (h : Nat) : Bool :=
  let c := getCore d h
  c.mode = .running || (c.mode = .waiting && c.wait = .unit) || (c.mode = .debugHalt && c.stepping && (c.wait = .none || c.wait = .unit))

/-- A breakpoint of a coach matches the PC (CCH page 1). -/
def breakHit (d : Dev) (h : Nat) : Bool :=
  decide (h < 64) && [0x048, 0x050].any (fun o =>
    let v := rd64 d (rk T.CCH h 1 o)
    bit v 0 && v / 4 * 4 = (getCore d h).pc)

/-- DBG_ATTACH of a core. -/
def attached (d : Dev) (h : Nat) : Bool := rdB d (kDbg h) 2

/-- A pending imprecise access fault is taken at the boundary before the next instruction (R242). -/
def imprecise (h : Nat) (d : Dev) : Dev :=
  match (getCore d h).pending with
  | some a => if canIssue d h || (getCore d h).wait = .interrupt then takeException h 0x05 a 0 d else d
  | none => d

/-! ### Reserved encodings (R219) -/

/-- Whether a func value of a major opcode is one that R219 defines, where it gives the values; a field that an operation
has no use for beside func is zero (log entry 122). -/
def funcDefined (op w : Nat) : Bool :=
  let sr := fld w 10 0
  let v := fld w 3 0
  let m := fld w 5 0
  let st := fld w 12 0
  match op with
  | 0x00 => decide (sr ≤ 20)
  | 0x06 => fld w 15 8 = 0 && fld w 7 6 != 3
  | 0x19 => decide (v ≤ 10)
  | 0x1A => decide (v ≤ 5)
  | 0x1B => decide (v ≤ 5)
  | 0x1E => decide (v ≤ 1)
  | 0x20 => m = 0
  | 0x21 => decide (m ≤ 2)
  | 0x22 => m = 0
  | 0x24 => st = 0
  | 0x25 => decide (st ≤ 3)
  | 0x28 => sr = 0
  | 0x29 => decide (fld w 3 0 ≤ 8) && fld w 10 5 = 0
  | 0x2A => fld w 10 10 = 0
  | 0x2B => decide (sr ≤ 1)
  | 0x2C => sr = 0
  | 0x30 => decide (fld w 5 0 ≤ 1)
  | 0x31 => decide (sr ≤ 2)
  | 0x32 => decide (sr ≤ 1)
  | 0x38 => decide (fld w 5 0 ≤ 1)
  | 0x39 => fld w 10 3 = 0 && fld w 15 11 = 0
  | 0x3A => decide (sr ≤ 1)
  | 0x3F => decide (fld w 20 16 ≤ 1) && fld w 15 0 = 0
  | _ => true

/-- Reserved major opcodes. -/
def opReserved (op : Nat) : Bool :=
  [0x17, 0x1F, 0x23, 0x26, 0x27, 0x2D, 0x2E, 0x2F, 0x33, 0x34, 0x35, 0x36, 0x37, 0x3B, 0x3C, 0x3D, 0x3E].contains op

/-- A word that raises ILLEGAL on a core whatever its operands hold (R217, R219). -/
def reservedWord (h w : Nat) : Bool :=
  let op := fld w 31 26
  opReserved op || !funcDefined op w || (decide (64 ≤ h) && decide (0x18 ≤ op) && decide (op ≤ 0x27)) ||
    (decide (h < 64) && decide (0x38 ≤ op) && decide (op ≤ 0x3A))

/-- An instruction of `len` bytes as far as it goes at this boundary: the fetch, a breakpoint, a reserved encoding, then
what the instruction does; with the words fetched. -/
def issuing (h len : Nat) (f : Dev → CoreOut × Dev) (d : Dev) : (CoreOut × Nat) × Dev :=
  let w := fetchWord h len d
  match w.1 with
  | .error o => ((o, 0), w.2)
  | .ok (instr, bad) =>
    if bad then ((.stop 0x20 0, instr), w.2)
    else if breakHit d h && (getCore d h).mode ≠ .debugHalt then
      (if attached w.2 h then
        ((.stay, instr), updCore h (fun c => { c with mode := .debugHalt, stepping := false }) w.2)
       else ((.trap 0x08 0, instr), w.2))
    else if reservedWord h (instr % 2 ^ 32) then ((.trap 0x01 0, instr), w.2)
    else
      let d1 := if (getCore w.2 h).loop.isSome then updCore h (fun c => c.keep c.pc instr false) w.2 else w.2
      let r := f d1
      -- an instruction that waits for an answer from beyond the module is still known when the answer comes
      ((r.1, instr), if r.1 = .waits .far false then updCore h (fun c => c.keep c.pc instr false) r.2 else r.2)

/-- Whether what an instruction comes to is a precise exception (R241). -/
def CoreOut.precise : CoreOut → Bool
  | .trap _ _ => true
  | _ => false

/-- An instruction of `len` bytes is issued; a pending imprecise fault is taken before it, but after a precise exception
of its own (R242). -/
def issue (h len : Nat) (f : Dev → CoreOut × Dev) (d : Dev) : Dev :=
  if !canIssue d h then d
  else
    let r := issuing h len f d
    if (getCore d h).pending.isSome && !r.1.1.precise then imprecise h d
    else conclude h len r.1.2 r.1.1 r.2

/-- Instructions that a control core does not have (R219). -/
def coachOnly (h : Nat) (f : Dev → CoreOut × Dev) (d : Dev) : CoreOut × Dev :=
  if h < 64 then f d else (.trap 0x01 0, d)

/-- The supervisor extensions (R217): ILLEGAL on a coach, PRIVILEGE at C level. -/
def superOnly (h : Nat) (f : Dev → CoreOut × Dev) (d : Dev) : CoreOut × Dev :=
  if h < 64 then (.trap 0x01 0, d) else if !(getCore d h).super then (.trap 0x02 0, d) else f d

/-- Changing the core as the whole of an instruction's effect. -/
def simply (h : Nat) (f : Core → Core) (d : Dev) : CoreOut × Dev := (.next, updCore h f d)

/-- An operation that cancels the sample of the run; a duplicate stops there (R448). -/
def unsampled (h : Nat) (f : Dev → CoreOut × Dev) (d : Dev) : CoreOut × Dev :=
  let dup := isDuplicate d h
  let d1 := cancelRun h d
  if dup then (.gone, d1) else f d1

/-- Operands that a poisoned value may not be (R251). -/
def clean (ps : List PVal) (f : Dev → CoreOut × Dev) (d : Dev) : CoreOut × Dev :=
  if ps.any (·.2) then (.stop 0x20 0, d) else f d

end Sys2Proof.Machine
end

