-- ==== Sys2Proof/Machine/Cores.lean ====
section
/-! DEFINITION. The scalar instructions of coaches and control cores (R219 to R221, R236 to R239, R245, R248, R254), and
how a waybill starts (R214, R215, R258). Each definition is what an instruction does once it has been issued. -/

namespace Sys2Proof.Machine

/-! ### Starting a waybill (R214, R215, R258) -/

/-- The core's state when a waybill starts; a control core's S-level CSRs are its supervisor's and stay. -/
def Core.started (c : Core) (h : Nat) (r : Running) : Core :=
  let keep := r.kind = .original && c.wbCmp = r.cmp + 1
  let b := if h < 64 then c.blank else c.renewed
  let s := decide (h < 64) && r.cmp = 0
  let img := r.image
  let arg2 := if img.arg1 < 2 ^ 31 then img.arg1 else img.arg1 + (2 ^ 64 - 2 ^ 32)
  let c1 := { b with
    mode := .running, super := s, pc := img.entry
    csp := if s then 0 else img.csp, ssp := if s then img.csp else 0
    handler := if img.handlerOff = 0 then 0
      else ofSigned 48 ((img.entry : Int) + 4 * toSigned 32 img.handlerOff)
    stackRgn := if img.stackEn then some img.stackRgn else none
    wb := if keep then c.wb else [], wbMeta := if keep then c.wbMeta else []
    wbCmp := if keep then c.wbCmp else 0
    wbLabel0 := if keep then c.wbLabel0 else 0, wbLabel1 := if keep then c.wbLabel1 else 0 }
  let args := [img.arg0, arg2] ++ r.payload
  foldBelow 6 (fun i c => c.setS (i + 1) (args.getD i 0) false) c1

/-- Reads beyond the module whose core has gone on to another program: their answers are of no use to it. -/
def forsake (h : Nat) (d : Dev) : Dev :=
  let who := coreWho h
  { d with
    dbr := { d.dbr with far := d.dbr.far.map (fun f => if f.who = who && !f.posted then { f with what := .dropped } else f) }
    hst := { d.hst with reads := d.hst.reads.map (fun r => if r.who = who then { r with what := .dropped } else r) } }

/-- WAYBILL_START: a waybill that the depot has given to a core starts; not on one that a kill has halted (R315 step 2). -/
def waybillStart (h : Nat) (d : Dev) : Dev :=
  match runOf d h with
  | none => d
  | some r =>
    if (getCore d h).mode ≠ .idle || (getCore d h).halted || r.ended.isSome || unitState d (coreTy h) (coreInst h) = .resetting then d
    else updCore h (fun c => c.started h r) (forsake h d)

/-! ### Scalar arithmetic -/

/-- SCALAR_ALU: the operation that func selects. -/
def scalarAlu (h rd ra rb func : Nat) (d : Dev) : CoreOut × Dev :=
  let ops := [ScalarOp.add, .sub, .and, .or, .xor, .sll, .srl, .sra, .slt, .sltu, .mul, .mulh, .mulhu, .div, .divu, .rem,
    .remu, .min, .max, .minu, .maxu]
  match ops[func]? with
  | none => (.trap 0x01 0, d)
  | some op =>
    let d1 := regParity h [ra, rb] [] d
    let c := getCore d1 h
    let r := scalarOp op (c.sReg ra).1 (c.sReg rb).1
    simply h (fun c => (c.setS rd r.1 ((c.sReg ra).2 || (c.sReg rb).2)).raiseFp r.2) d1

/-- SCALAR_IMMEDIATE. -/
def scalarImm (h : Nat) (op : ImmOp) (rd ra : Nat) (i : BitVec 16) (d : Dev) : CoreOut × Dev :=
  let d1 := regParity h [ra] [] d
  let x := (getCore d1 h).sReg ra
  match immOp op x.1 i with
  | none => (.trap 0x01 0, d)
  | some r => simply h (fun c => c.setS rd r.1 x.2) d1

/-- LUI. -/
def lui (h rd : Nat) (i : BitVec 16) (d : Dev) : CoreOut × Dev :=
  simply h (fun c => c.setS rd (imm32 (BitVec.ofNat 32 (i.toNat * 65536))) false) d

/-- LI and LIH. -/
def li (h rd : Nat) (i : W32) (d : Dev) : CoreOut × Dev := simply h (fun c => c.setS rd (imm32 i) false) d
def lih (h rd : Nat) (i : W32) (d : Dev) : CoreOut × Dev :=
  let d1 := regParity h [rd] [] d
  simply h (fun c => c.setS rd ((c.sReg rd).1 % 2 ^ 32 + i.toNat * 2 ^ 32) (c.sReg rd).2) d1

/-! ### Loads and stores -/

/-- The address of a load or store. -/
def dataAddr (base : Nat) (i : BitVec 16) : Nat := (base + imm64 i) % 2 ^ 64

/-- The bytes of a load reach their register, and the read digest (R213, R449). -/
def loaded (h rd a : Nat) (bs : List PByte) (d : Dev) : Dev :=
  updCore h (fun c => c.setS rd (leNat (bs.map (·.1))) (bs.any (·.2))) (foldAccess h 0 a false (bs.map (·.1)) d)

/-- An access that register pages answer cancels the sample; another does not (R448). -/
def checked (h a : Nat) (f : Dev → CoreOut × Dev) (d : Dev) : CoreOut × Dev :=
  if isPage a then unsampled h f d else f d

/-- LOAD of 2^size bytes, zero-extended. -/
def loadOp (h rd ra size : Nat) (i : BitVec 16) (d : Dev) : CoreOut × Dev :=
  let n := 2 ^ size
  let d1 := regParity h [ra] [] d
  let x := (getCore d1 h).sReg ra
  let a := dataAddr x.1 i
  clean [x] (fun d =>
    if a % n ≠ 0 then (.trap 0x03 a, d)
    else checked h a (fun d =>
      let r := coreRead h a n false (.load rd n) d
      match r.1 with
      | .data bs => (.next, loaded h rd a bs r.2)
      | .fail => (.trap 0x04 a, r.2)
      | .far => (.waits .far false, r.2)
      | .held => (.stay, r.2)) d) d1

/-- STORE of the low 2^size bytes of rd. -/
def storeOp (h rd ra size : Nat) (i : BitVec 16) (d : Dev) : CoreOut × Dev :=
  let n := 2 ^ size
  let d1 := regParity h [ra, rd] [] d
  let x := (getCore d1 h).sReg ra
  let v := (getCore d1 h).sReg rd
  let a := dataAddr x.1 i
  clean [x] (fun d =>
    if a % n ≠ 0 then (.trap 0x03 a, d)
    else clean [v] (fun d => checked h a (fun d =>
      let bs := leBytes n v.1
      let r := coreWrite h a bs (foldAccess h 0 a true bs d)
      (r.1.out a, r.2)) d) d) d1

/-! ### Control flow -/

/-- The target of a branch, in words from it. -/
def target (d : Dev) (h : Nat) (off : Int) : Nat := ofSigned 48 (((getCore d h).pc : Int) + 4 * off)

/-- BRANCH. -/
def branchTo (h : Nat) (op : BranchOp) (ra rb : Nat) (off : BitVec 16) (d : Dev) : CoreOut × Dev :=
  let d1 := regParity h [ra, rb] [] d
  let a := (getCore d1 h).sReg ra
  let b := (getCore d1 h).sReg rb
  clean [a, b] (fun d => (if branchTaken op a.1 b.1 then .jump (target d h off.toInt) else .next, d)) d1

/-- JAL: the link goes to s31. -/
def jal (h : Nat) (off : BitVec 26) (d : Dev) : CoreOut × Dev :=
  let t := target d h off.toInt
  (.jump t, updCore h (fun c => c.setS 31 ((c.pc + 4) % 2 ^ 48) false) d)

/-- JALR. -/
def jalr (h rd ra : Nat) (i : BitVec 16) (d : Dev) : CoreOut × Dev :=
  let d1 := regParity h [ra] [] d
  let x := (getCore d1 h).sReg ra
  let t := dataAddr x.1 i / 4 * 4
  clean [x] (fun d => (.jump t, updCore h (fun c => c.setS rd ((c.pc + 4) % 2 ^ 48) false) d)) d1

/-- The address after the next `n` instructions from `a`, which the fetch queue takes in to skip them: a long form has two
words (R218, R220). -/
def skipBody (h : Nat) : Nat → Nat → Dev → Except CoreOut Nat × Dev
  | 0, a, d => (.ok a, d)
  | n + 1, a, d =>
    let q := Map.get (fun _ => 0) (getCore d h).queue a
    let past := fun w => (a + if fld w 31 26 = 0x3F then 8 else 4) % 2 ^ 48
    if q ≠ 0 then skipBody h n (past ((q - 1) % 2 ^ 32)) d
    else
      let r := coreRead h a 4 true .fetch d
      match r.1 with
      | .data bs => skipBody h n (past (leNat (bs.map (·.1)))) r.2
      | .fail => (.error (.trap 0x06 a), r.2)
      | .far => (.error (.waits .far false), r.2)
      | .held => (.error .stay, r.2)

/-- LOOP (R220): the next `off` words run `ra` times; a count of 0 skips them. A body of no word or of more than 32 raises
ILLEGAL (DESIGN CHOICE, log entry 181). -/
def loopOp (h ra : Nat) (off : BitVec 16) (d : Dev) : CoreOut × Dev :=
  let d1 := regParity h [ra] [] d
  let x := (getCore d1 h).sReg ra
  let n := off.toNat
  if (getCore d h).loop.isSome || n = 0 || decide (32 < n) then (.trap 0x01 0, d)
  else clean [x] (fun d =>
    let pc := (getCore d h).pc
    if x.1 = 0 then
      (let r := skipBody h n ((pc + 4) % 2 ^ 48) d
       match r.1 with
       | .ok a => (.jump a, r.2)
       | .error o => (o, r.2))
    else (.next, updCore h (fun c => { c with loop := some ((pc + 4) % 2 ^ 48, n, n + 1, x.1) }) d)) d1

/-! ### Atomics, semaphores, tallies (R135, R159, R156, R157, R238) -/

/-- AMO: a yard atomic on 4 or 8 bytes. One whose operands are spoiled on their way changes nothing and returns the poison
marker (R135, R442; log entry 123). -/
def amoOp (h : Nat) (op : AmoOp) (rd ra rb : Nat) (wide : Bool) (d : Dev) : CoreOut × Dev :=
  let n := if wide then 8 else 4
  let d1 := regParity h [ra, rb, rd] [] d
  let c := getCore d1 h
  let x := c.sReg ra
  let a := x.1
  let v := (c.sReg rb).1 % 2 ^ (8 * n)
  let old := (c.sReg rd).1 % 2 ^ (8 * n)
  clean ([x, c.sReg rb] ++ (if op = .cas then [c.sReg rd] else [])) (fun d =>
    if a % n ≠ 0 then (.trap 0x03 a, d)
    else unsampled h (fun d =>
      let acc := coreAcc d h true
      let b := a % 2 ^ 46
      match toward d acc.who a with
      | .nowhere => (.trap 0x04 a, decodeError acc (a % 2 ^ 48) d)
      | .far m => (.waits .far false, farAsk acc.who acc.cmp (tagOf d h) m a (.atomic op a n v old) (.atomic rd n) false d)
      | .here =>
        let on := sendBus acc b d
        if on.1 = .lost then (.waits .far false, lostAsk acc b (.atomic rd n) on.2)
        else if on.1 = .spoiled then simply h (fun c => c.setS rd 0 true) (wayParity acc b on.2)
        else if b < yardEnd && (yardCheck on.2 { acc with write := false } b n = .held) then (.stay, noteWait acc.who b on.2)
        else
          let r := amo acc b n op v old on.2
          if on.1 = .unheard then (.waits .far false, lostAsk acc b (.atomic rd n) r.2)
          else match r.1 with
          | .ok (o, bad) => simply h (fun c => c.setS rd o bad) r.2
          | .error _ => (.trap 0x04 a, r.2)) d) d1

/-- The semaphore that a SEM register's address names: station × 256 + index. -/
def semAt (a : Nat) : Option Nat :=
  match regionOf a with
  | .page k =>
    if keyTy k = T.YRD && keyPage k = 2 && decide (0x800 ≤ keyOff k) && keyOff k % 8 = 0 then
      some (keyInst k * 256 + (keyOff k - 0x800) / 8)
    else none
  | _ => none

/-- The result of an operation goes to a register, or the core waits for it. -/
def codeTo (h rd : Nat) (w : WaitFor) (r : Option Nat × Dev) : CoreOut × Dev :=
  match r.1 with
  | some n => simply h (fun c => c.setS rd n false) r.2
  | none => (.waits w true, r.2)

/-- A semaphore operation at the cluster (R159). -/
def semDo (op : SemOp) (k cmp holder n timeout : Nat) (d : Dev) : Option Nat × Dev :=
  match op with
  | .signal => let r := semSignal k cmp holder n d; (some r.1, r.2)
  | .wait => semWait k cmp holder n timeout d
  | .acquire => semAcquire k cmp holder timeout d
  | .release => let r := semRelease k cmp holder d; (some r.1, r.2)

/-- SEM: the SEM register's address in ra, the timeout in rb, the result code to rd. A cluster out of use refuses it
(R644); an epoch switch holds it (R189). A SIGNAL of 0 is no func value of R159: ILLEGAL (R219). -/
def semOp (h : Nat) (op : SemOp) (rd ra rb count : Nat) (d : Dev) : CoreOut × Dev :=
  let d1 := regParity h [ra, rb] [] d
  let x := (getCore d1 h).sReg ra
  let t := (getCore d1 h).sReg rb
  let a := x.1
  let timeout := t.1 % 2 ^ 32
  if op = .signal && count = 0 then (.trap 0x01 0, d)
  else clean [x, t] (fun d => unsampled h (fun d =>
    let acc := coreAcc d h true
    let b := a % 2 ^ 46
    match toward d acc.who a with
    | .nowhere => (.trap 0x04 a, decodeError acc (a % 2 ^ 48) d)
    | .far m =>
      (.waits .far false, farAsk acc.who acc.cmp (tagOf d h) m a (.sem op a count timeout h (epochOf d h)) (.enq rd) false d)
    | .here =>
      match semAt b with
      | none => (.trap 0x04 a, decodeError acc b d)
      | some k =>
        if yardSwitch d acc.who (k / 256) then (.stay, d)
        else if !enabled d T.YRD (k / 256) && !clusterOut d (k / 256) then
          (.trap 0x04 a, refused acc .noRegion none false b d)
        else
          let on := sendTo acc.who false (homeStation acc.who) (k / 256) b d
          if on.1 = .lost then (.waits .far false, lostAsk acc b (.enq rd) on.2)
          else
            let r := semDo op k acc.cmp h count timeout on.2
            if on.1 = .unheard && r.1.isSome then (.waits .far false, lostAsk acc b (.enq rd) r.2)
            else codeTo h rd (.sem rd) r) d) d1

/-- Whether a core reaches a tally: its cluster is in use, in service and reachable (R176, R191, R644). -/
def tallyReach (d : Dev) (h t : Nat) : Bool :=
  let s := t / 1024
  !clusterOut d s && !clusterCut d (coreWho h) s && enabled d T.YRD s

/-- The core may watch and rearm a tally: it acts for the tally's owner or compartment 0 (R156, R305). -/
def tallyMine (d : Dev) (h t : Nat) : Bool :=
  let c := cmpOf d (coreWho h)
  c = 0 || c = (getTally d t).owner

/-- A tally operation that is refused raises ACCESS. -/
def tallyRefused (h t : Nat) (d : Dev) : CoreOut × Dev :=
  let acc := coreAcc d h true
  let a := regAddr (kY (t / 1024) 1 0x044)
  (.trap 0x04 t, if tallyReach d h t then refused acc .refusedRights (some (getTally d t).owner) false a d
    else decodeError acc a d)

/-- TREARM. -/
def trearm (h ra : Nat) (d : Dev) : CoreOut × Dev :=
  let d1 := regParity h [ra] [] d
  let x := (getCore d1 h).sReg ra
  let t := x.1 % 2 ^ 16
  clean [x] (fun d => unsampled h (fun d =>
    if yardSwitch d (coreWho h) (t / 1024) then (.stay, d)
    else if tallyReach d h t && tallyMine d h t then (.next, rearm t d) else tallyRefused h t d) d) d1

/-- A core's watch of a tally: the instruction completes, waits, or tries again after FULL. -/
def watchFor (h t thresh : Nat) (deadline : Option Nat) (d : Dev) : CoreOut × Dev :=
  let r := watchTally ⟨t, thresh, .core h⟩ d
  match r.1 with
  | .fired => (.next, r.2)
  | _ => (.waits (.tally deadline) false, r.2)

/-- TWAIT as it is issued (R238). -/
def twaitOp (h rd ra rb : Nat) (d : Dev) : CoreOut × Dev :=
  let d1 := regParity h [ra, rb, rd] [] d
  let c := getCore d1 h
  let t := (c.sReg ra).1 % 2 ^ 16
  let lim := (c.sReg rd).1 % 2 ^ 32
  clean [c.sReg ra, c.sReg rb, c.sReg rd] (fun d => unsampled h (fun d =>
    if yardSwitch d (coreWho h) (t / 1024) then (.stay, d)
    else if tallyReach d h t && tallyMine d h t then
      watchFor h t ((c.sReg rb).1 % 2 ^ 32) (if lim = 0xFFFFFFFF then none else some (tick d + lim)) d
    else tallyRefused h t d) d) d1

/-- Whether a core has a watch registered. -/
def hasWatch (d : Dev) (h : Nat) : Bool := d.yard.watches.any (fun w => w.waiter = .core h)

/-- TWAIT: a core whose watch was answered FULL tries again (R238); any other issues the instruction. -/
def twait (h rd ra rb : Nat) (d : Dev) : Dev :=
  match (getCore d h).wait with
  | .tally dl =>
    if hasWatch d h then d
    else
      let c := getCore d h
      let t := (c.sReg ra).1 % 2 ^ 16
      let r := if tallyReach d h t && tallyMine d h t then watchFor h t ((c.sReg rb).1 % 2 ^ 32) dl d else tallyRefused h t d
      conclude h 4 0 r.1 r.2
  | _ => issue h 4 (twaitOp h rd ra rb) d

/-- TWAIT_TIMEOUT: the waybill ends ABORT_TIMEOUT (R238). -/
def twaitTimeout (h : Nat) (d : Dev) : Dev :=
  match (getCore d h).wait with
  | .tally (some t) => if t ≤ tick d then endProgram h 0x26 0 (dropWatches h d) else d
  | _ => d

/-! ### fence and enq (R236, R237) -/

/-- FENCE. -/
def fenceOp (h rd : Nat) (d : Dev) : CoreOut × Dev :=
  if isDuplicate d h then simply h (fun c => c.setS rd 0 false) d
  else if outstanding d (coreWho h) = 0 then simply h (fun c => { (c.setS rd c.fence false) with fence := 0 }) d
  else (.waits (.fence rd) true, d)

/-- Offering a waybill image to a queue of this module or of another (R237, R263, R293, R191). -/
def offer (h rd q : Nat) (img : Image) (d : Dev) : CoreOut × Dev :=
  let who := coreWho h
  let c := cmpOf d who
  let m := q / 65536 % 4
  if m ≠ moduleNo d then
    (if isPresent d m then
      (.waits .far false, farAsk who c (tagOf d h) m 0 (.enqueue (q % 65536) img) (.enq rd) false d)
     else simply h (fun c => c.setS rd 0x0A false) d)
  else if cutOff d (homeStation who) 0 then simply h (fun c => c.setS rd 0x0B false) d
  else
    let r := enqueue who c (q % 65536) false img d
    match r.1 with
    | .code n => simply h (fun c => c.setS rd n false) r.2
    | o =>
      let b : BrakeWait := { who := who, cmp := c, queue := q % 65536, image := img, deadline := none, window := false, node := none }
      (.waits (.brake rd) true, awaits o b r.2)

/-- The image that `enq` has read is offered; a poisoned one ends the waybill (R251). -/
def offerRead (h rd q a : Nat) (bs : List PByte) (d : Dev) : CoreOut × Dev :=
  if bs.any (·.2) then (.stop 0x20 0, d)
  else offer h rd q (Image.ofBytes (bs.map (·.1))) (foldAccess h 0 a false (bs.map (·.1)) d)

/-- ENQ. -/
def enqOp (h rd ra rb : Nat) (d : Dev) : CoreOut × Dev :=
  let d1 := regParity h [ra, rb] [] d
  let x := (getCore d1 h).sReg ra
  let y := (getCore d1 h).sReg rb
  let q := y.1 % 2 ^ 18
  clean [x, y] (fun d =>
    if x.1 % 64 ≠ 0 then (.trap 0x03 x.1, d)
    else unsampled h (fun d =>
      let r := coreRead h x.1 64 false (.image rd q) d
      match r.1 with
      | .data bs => offerRead h rd q x.1 bs r.2
      | .fail => (.trap 0x04 x.1, r.2)
      | .far => (.waits .far false, r.2)
      | .held => (.stay, r.2)) d) d1

/-! ### CSRs (R254) -/

/-- A queue that a mask names by its number holds an unread entry (log entry 82). -/
def maskUnread (d : Dev) (m : Nat) : Bool :=
  (List.range 64).any (fun q => m.testBit q && (getQueue d q).valid && (getQueue d q).kind = 1 &&
    (getQueue d q).tail ≠ (getQueue d q).head)

/-- The pending bits of IP_IE. -/
def pendingBits (d : Dev) (h : Nat) : Nat :=
  let c := getCore d h
  b2n (decide (c.timecmp ≤ tick d)) + b2n (h = 64 && alertOn d && rdB d (kSys 1 0x048) 1) * 2 + b2n (maskUnread d c.evqMask) * 4
    + b2n (maskUnread d c.cqMask) * 8 + b2n (bit c.ipie 4) * 16

/-- Sources that are pending and enabled. -/
def pendingEnabled (d : Dev) (h : Nat) : Nat := pendingBits d h &&& (fld (getCore d h).ipie 20 16)

/-- What a CSR access raises, if it raises anything: ILLEGAL or PRIVILEGE (R254). -/
def csrBad (d : Dev) (h n : Nat) : Option Nat :=
  if 0x100 ≤ n && decide (n ≤ 0x106) then
    (if h < 64 then some 0x01 else if (getCore d h).super then none else some 0x02)
  else if 0x0B < n then some 0x01
  else if 0x0A ≤ n && decide (64 ≤ h) then some 0x01 else none

/-- The value of a CSR. -/
def csrValue (h n : Nat) (d : Dev) : Nat × Dev :=
  let c := getCore d h
  match n with
  | 0x000 => (h, d) | 0x001 => (moduleNo d, d) | 0x002 => (cmpOf d (coreWho h), d) | 0x003 => (tick d, d)
  | 0x004 => (let r := draw d; (r.1.toNat, r.2))
  | 0x005 => (tagOf d h, d) | 0x006 => (if isDuplicate d h then 0 else c.fence, d) | 0x007 => (c.rmode, d)
  | 0x008 => (c.fpflags, d) | 0x009 => (c.imprecise, d) | 0x00A => (c.wbLabel0, d) | 0x00B => (c.wbLabel1, d)
  | 0x100 => (c.sstatus, d) | 0x101 => (c.ivec, d) | 0x102 => (c.xvec, d)
  | 0x103 => (fld c.ipie 20 16 * 65536 + pendingBits d h, d) | 0x104 => (c.timecmp, d)
  | 0x105 => (c.evqMask, d) | _ => (c.cqMask, d)

/-- Writing a CSR; a read-only one ignores the write (R9). -/
def Core.csrSet (n v : Nat) (c : Core) : Core :=
  match n with
  | 0x007 => { c with rmode := v % 8 } | 0x008 => { c with fpflags := v % 128 / 2 * 2 }
  | 0x00A => { c with wbLabel0 := v } | 0x00B => { c with wbLabel1 := v }
  | 0x100 => { c with sstatus := v % 4 } | 0x101 => { c with ivec := v } | 0x102 => { c with xvec := v }
  | 0x103 => { c with ipie := fld v 20 16 * 65536 + (if bit v 4 && bit c.ipie 4 then 16 else 0) }
  | 0x104 => { c with timecmp := v } | 0x105 => { c with evqMask := v } | 0x106 => { c with cqMask := v }
  | _ => c

/-- CSRR. -/
def csrRead (h rd n : Nat) (d : Dev) : CoreOut × Dev :=
  match csrBad d h n with
  | some e => (.trap e 0, d)
  | none =>
    let f := fun (d : Dev) => let r := csrValue h n d; simply h (fun c => c.setS rd r.1 false) r.2
    if n = 3 || n = 4 then unsampled h f d else f d

/-- CSRW. -/
def csrWrite (h ra n : Nat) (d : Dev) : CoreOut × Dev :=
  match csrBad d h n with
  | some e => (.trap e 0, d)
  | none =>
    let d1 := regParity h [ra] [] d
    let x := (getCore d1 h).sReg ra
    clean [x] (simply h (fun c => c.csrSet n x.1)) d1

/-! ### System instructions -/

/-- The frame that `xret` has read takes effect (R245). -/
def returns (h : Nat) (ie : Bool) (bs : List Byte) (d : Dev) : CoreOut × Dev :=
  let w := fun i => leNat ((bs.drop (8 * i)).take 8)
  (.jump (w 5), updCore h (fun c =>
    let c1 := if c.super then { c with ssp := w 4 } else { c with csp := w 4 }
    { c1 with super := c.super && bit (w 1) 8, depth := c.depth - 1
              sstatus := if ie then setBit c.sstatus 1 else c.sstatus }) d)

/-- A frame that fails or is poisoned: ABORT_FAULT, or FRAME_FAULT of a resident program (R245). -/
def badFrame (h : Nat) (d : Dev) : CoreOut × Dev := (if (getCore d h).resident then .fault else .stop 0x23 0, d)

/-- The frame at SP has been read. -/
def frameRead (h : Nat) (ie : Bool) (a : Nat) (bs : List PByte) (d : Dev) : CoreOut × Dev :=
  if bs.any (·.2) then badFrame h d else returns h ie (bs.map (·.1)) (foldAccess h 0 a false (bs.map (·.1)) d)

/-- XRET and SRET: the frame at SP is read (R245). -/
def xretOp (h : Nat) (ie : Bool) (d : Dev) : CoreOut × Dev :=
  let sp := (getCore d h).sp
  let r := coreRead h sp 64 false (.frame ie) d
  match r.1 with
  | .data bs => frameRead h ie sp bs r.2
  | .fail => badFrame h r.2
  | .far => (.waits .far false, r.2)
  | .held => (.stay, r.2)

/-- TRAP. -/
def trapOp (code : Nat) (d : Dev) : CoreOut × Dev := (.trap 0x07 code, d)

/-- BRK (R241): DEBUG_HALT while a debugger is attached. -/
def brk (h : Nat) (d : Dev) : Dev :=
  issue h 4 (fun d =>
    if attached d h then (.stay, updCore h (fun c => { c with mode := .debugHalt, stepping := false }) d)
    else (.trap 0x08 0, d)) d

/-- DONE and ABORT; the user code of `abort` is the low byte of rb (log entry 83). -/
def doneOp (d : Dev) : CoreOut × Dev := (.stop 0x00 0, d)
def abortOp (h rb : Nat) (d : Dev) : CoreOut × Dev :=
  let d1 := regParity h [rb] [] d
  let x := (getCore d1 h).sReg rb
  clean [x] (fun d => (.stop 0x23 (x.1 % 256), d)) d1

/-- SBRD (R217, R248): ILLEGAL on every core but CTL0, and PRIVILEGE there at C level; a holder id above 67 names no core, and what is read is open (log entry 84). -/
def sbrdOp (h rd ra word : Nat) (d : Dev) : CoreOut × Dev :=
  if h ≠ 64 then (.trap 0x01 0, d)
  else superOnly h (fun d =>
    let d1 := regParity h [ra] [] d
    let x := (getCore d1 h).sReg ra
    clean [x] (fun d =>
      if 67 < x.1 then (let r := draw d; simply h (fun c => c.setS rd r.1.toNat false) r.2)
      else
        let v := (getCore d x.1).box.frame.getD word 0
        let d2 := if word = 7 then updCore x.1 (fun c => { c with box := { c.box with full := false } }) d else d
        simply h (fun c => c.setS rd v false) d2) d1) d

/-- SRET and WFI (R254). -/
def sretOp (h : Nat) (d : Dev) : CoreOut × Dev := superOnly h (xretOp h true) d
def wfiOp (h : Nat) (d : Dev) : CoreOut × Dev :=
  superOnly h (fun d => if pendingEnabled d h ≠ 0 then (.next, d) else (.waits .interrupt true, d)) d

/-- A control core that waits in `wfi` goes on when a source is pending and enabled (R254). -/
def wakeCores (d : Dev) : Dev :=
  each [64, 65, 66, 67] (fun h d =>
    if (getCore d h).wait = .interrupt && pendingEnabled d h ≠ 0 then updCore h Core.goes d else d) d

/-- A control core can take an interrupt: it runs its resident program, waits in `wfi`, or is idle with its last program or
waybill over and nobody holding it (log entry 124); its locks are not being reaped (R162). -/
def takesInterrupts (d : Dev) (h : Nat) : Bool :=
  let c := getCore d h
  let st := unitState d T.CTL (h - 64)
  decide (64 ≤ h) && (runOf d h).isNone && st ≠ .resetting && st ≠ .stabled &&
    !reaping d h && ((c.resident && (c.mode = .running || c.wait = .interrupt)) || (c.mode = .idle && !c.halted))

/-- INTERRUPT: a control core takes the first pending enabled source at S level, once no waybill runs (R254). -/
def interrupt (h : Nat) (d : Dev) : Dev :=
  if takesInterrupts d h && bit (getCore d h).sstatus 1 && pendingEnabled d h ≠ 0 then
    takeException h 0x0B 0 0 (updCore h (fun c => { c with resident := true }) d)
  else d

/-! ### Local RAM (R252) -/

/-- LRAM_CLEAR_DONE: every word is zero. -/
def lramCleared (n : Nat) (d : Dev) : Dev :=
  let k := rk T.CTL n 1 0x058
  if !rdB d k 0 then d
  else wrB k 0 false { d with cores := { d.cores with lram := d.cores.lram.filter (fun (e : Nat × Cell39) => e.1 / 65536 ≠ n) } }

end Sys2Proof.Machine
end

