-- ==== Sys2Proof/Machine/Coaches.lean ====
section
/-! DEFINITION. The vector and matrix units and the stream engines of a coach (R218 to R235). Each definition is what an
instruction does once it has been issued. -/

namespace Sys2Proof.Machine

/-! ### The vector unit (R221 to R224) -/

/-- VECTOR_INTEGER. -/
def vectorInt (h : Nat) (e : Elem) (op : VIntOp) (vd va vb p : Nat) (pz : Bool) (d : Dev) : CoreOut × Dev :=
  coachOnly h (fun d =>
    if e.isFloat then (.trap 0x01 0, d)
    else simply h (Core.vint e op vd va vb p pz)
      (regParity h [] (va :: (if op = .abs then [] else [vb]) ++ (if op = .mac then [vd] else [])) d)) d

/-- VECTOR_FLOAT. -/
def vectorFloat (h : Nat) (e : Elem) (op : VFltOp) (vd va vb p : Nat) (pz : Bool) (d : Dev) : CoreOut × Dev :=
  let unary := op = .abs || op = .neg || op = .recip || op = .rsqrt
  coachOnly h (fun d =>
    if !e.isFloat then (.trap 0x01 0, d)
    else simply h (Core.vflt e op vd va vb p pz)
      (regParity h [] (va :: (if unary then [] else [vb]) ++ (if op = .fma || op = .fms then [vd] else [])) d)) d

/-- VECTOR_COMPARE: integers have no `isnan` and no `isinvalid`. -/
def vectorCompare (h : Nat) (e : Elem) (op : VCmpOp) (pd va vb p : Nat) (pz : Bool) (d : Dev) : CoreOut × Dev :=
  let test := op = .isnan || op = .isinvalid
  coachOnly h (fun d =>
    if test && !e.isFloat then (.trap 0x01 0, d)
    else simply h (Core.vcmp e op pd va vb p pz) (regParity h [] (va :: (if test then [] else [vb])) d)) d

/-- VECTOR_PERMUTE. -/
def vectorPermute (h : Nat) (e : Elem) (op : VPermOp) (vd va vb p : Nat) (pz : Bool) (d : Dev) : CoreOut × Dev :=
  coachOnly h (fun d =>
    simply h (Core.vperm e op vd va vb p pz) (regParity h [] (va :: (if op = .shuffle then [vb] else [])) d)) d

/-- VECTOR_CONVERT: elements of vd beyond those that va holds are free, and the same on every coach (R225, log entry
25). -/
def vectorConvert (h : Nat) (src dst : ConvType) (vd va p : Nat) (pz : Bool) (d : Dev) : CoreOut × Dev :=
  coachOnly h (fun d =>
    simply h (Core.vconv src dst vd va p pz (fun i => (Config.unreached src.num dst.num i).toNat)) (regParity h [] [va] d)) d

/-- VECTOR_MOVE. -/
def vectorMove (h : Nat) (op : VMovOp) (vd va vb p : Nat) (pz : Bool) (d : Dev) : CoreOut × Dev :=
  let ss := if op = .scalarToLane then [va] else []
  let vs := match op with
    | .laneToScalar => [va]
    | .select => [va, vb]
    | _ => []
  coachOnly h (fun d => simply h (Core.vmove op vd va vb p pz) (regParity h ss vs d)) d

/-! ### Stream descriptors (R232) -/

namespace Stream
/-- A word of the descriptor in force. -/
def word (s : Stream) (i : Nat) : Nat := s.run.getD i 0
def target (s : Stream) : Nat := fld (s.word 0) 62 60
def kind (s : Stream) : Nat := fld (s.word 0) 59 56
def telem (s : Stream) : Nat := fld (s.word 0) 55 52
def base (s : Stream) : Nat := fld (s.word 0) 47 0
def pitch (s : Stream) : Nat := fld (s.word 1) 63 32
def count0 (s : Stream) : Nat := fld (s.word 1) 31 0
def step1 (s : Stream) : Int := toSigned 32 (fld (s.word 2) 63 32)
def count1 (s : Stream) : Nat := max 1 (fld (s.word 2) 31 0)
def step2 (s : Stream) : Int := toSigned 32 (fld (s.word 3) 63 32)
def count2 (s : Stream) : Nat := max 1 (fld (s.word 3) 31 0)
/-- The turntable mode. -/
def tt (s : Stream) : TtMode := match s.kind with
  | 1 => .row | 2 => .col | 3 => .transpose | 4 => .stride | _ => .linear
/-- The element size of TRANSPOSE, in bits. -/
def elem (s : Stream) : Nat := 8 * 2 ^ s.telem
/-- Accesses of the transfer. -/
def reps (s : Stream) : Nat := s.count1 * s.count2
/-- The weight buffer that a stream loads, if it loads one. -/
def buffer (s : Stream) : Option Nat := if 2 ≤ s.target && decide (s.target ≤ 5) then some (s.target % 2) else none
/-- The address and the cells of the next access, cut to 32 cells; none when all have been made. -/
def next (s : Stream) : Option (Nat × Nat) :=
  if s.reps ≤ s.done then none
  else
    let a : Int := (s.base : Int) + (s.done / s.count1 : Nat) * s.step2 + (s.done % s.count1 : Nat) * s.step1 + (4 * s.off : Nat)
    some (ofSigned 48 a, if s.tt = .linear then min 32 (s.count0 - s.off) else s.count0)
/-- An access of n cells has been made. -/
def moved (s : Stream) (n : Nat) : Stream :=
  if s.tt = .linear && decide (s.off + n < s.count0) then { s with off := s.off + n }
  else { s with off := 0, done := s.done + 1 }
/-- Whether a descriptor obeys R232 and R233, as far as it shows by itself; a weight load that is larger than its buffer
does not (log entry 85). -/
def wellFormed (s : Stream) : Bool :=
  let l := s.tt = .linear
  !bit (s.word 0) 63 && fld (s.word 0) 51 48 = 0 && decide (s.target ≤ 5) && decide (s.kind ≤ 4) &&
  (s.tt ≠ .transpose || decide (s.telem ≤ 2)) && s.base % 4 = 0 &&
  (if s.tt = .stride then decide (1 ≤ s.pitch) && decide (s.pitch ≤ 4095) else s.pitch = 0) &&
  decide (1 ≤ s.count0) && (l || decide (s.count0 ≤ 32)) && ((s.tt ≠ .transpose && s.tt ≠ .stride) || s.count0 = 32) &&
  s.step1 % 4 = 0 && s.step2 % 4 = 0 &&
  (s.target < 2 || decide (4 * s.count0 * s.reps ≤ (if s.target < 4 then 65536 else 8192)))
end Stream

/-- A descriptor that breaks R232 or R233: modes other than LINEAR and STRIDE need a 2-D yard region, and a mode other
than LINEAR needs the yard. The regions of another team module's yard are not known here, and judge there. -/
def badStream (d : Dev) (s : Stream) : Bool :=
  let b := s.base % 2 ^ 46
  !s.wellFormed || (s.tt ≠ .linear && (decide (yardEnd ≤ b) ||
    (s.tt ≠ .stride && isLocal d s.base && (match regionAt d b with
      | some (_, g) => !g.twoD
      | none => false))))

/-! ### Moving data (R232 to R234) -/

/-- A stream engine of a core. -/
def Core.stream (c : Core) (i : Nat) : Stream := Map.get (fun _ => ({} : Stream)) c.streams i

/-- Changing a stream engine. -/
def Core.updStream (i : Nat) (f : Stream → Stream) (c : Core) : Core :=
  { c with streams := Map.upd (fun _ => ({} : Stream)) c.streams i f }

/-- A weight buffer is LOADING (R231). -/
def Core.loading (c : Core) (b : Nat) : Bool :=
  (List.range 8).any (fun i => (c.stream i).mode = .running && (c.stream i).buffer = some b)

/-- Bytes are packed into 256-byte FIFO entries (R233). -/
def Stream.pack (bs : List PByte) (s : Stream) : Stream :=
  let p : FifoEntry := ⟨s.part.bytes ++ bs.map (·.1), s.part.poison ++ bs.map (·.2)⟩
  if p.bytes.length < 256 then { s with part := p }
  else { s with fifo := s.fifo ++ [⟨p.bytes.take 256, p.poison.take 256⟩], part := ⟨p.bytes.drop 256, p.poison.drop 256⟩ }

/-- The last entry is padded with zeros (R233). -/
def Stream.pad (s : Stream) : Stream :=
  let n := s.part.bytes.length
  if n = 0 || decide (4 ≤ s.fifo.length) then s else s.pack (List.replicate (256 - n) (0, false))

/-- Bytes that a stream has read go to its FIFO, or to its weight buffer from offset 0 upward. -/
def Core.deliver (i : Nat) (bs : List PByte) (c : Core) : Core :=
  let s := c.stream i
  let at_ := s.pos
  let put := fun (m : Map Nat) (k : Nat) => (List.range bs.length).foldl (fun m j =>
    let x := bs.getD j (0, false)
    Map.set (fun _ => 0) m (k + at_ + j) (x.1.toNat + b2n x.2 * 256)) m
  let c1 := match s.target with
    | 2 => { c with wb := put c.wb 0 } | 3 => { c with wb := put c.wb 65536 }
    | 4 => { c with wbMeta := put c.wbMeta 0 } | 5 => { c with wbMeta := put c.wbMeta 8192 }
    | _ => c.updStream i (Stream.pack bs)
  c1.updStream i (fun s => { s with pos := s.pos + bs.length })

/-- How one access of a stream goes. -/
inductive Piece where
  | moved
  | blocked
  /-- A read has been sent to another module; its answer is to come. -/
  | asked
  /-- The waybill ends with a status. -/
  | ends (status : Nat)
deriving DecidableEq, Repr

/-- Bytes arrive: the read digest takes them unless they load a weight buffer (R449). -/
def streamArrives (h i a n : Nat) (bs : List PByte) (d : Dev) : Dev :=
  let s := (getCore d h).stream i
  let d1 := if s.buffer.isSome then d else foldAccess h (1 + i) a false (bs.map (·.1)) d
  updCore h (fun c => (c.deliver i bs).updStream i (fun s => s.moved n)) d1

/-- A read of a stream (R45, R234). -/
def streamRead (h i a n : Nat) (d : Dev) : Piece × Dev :=
  let s := (getCore d h).stream i
  let acc := { coreAcc d h false with stream := true }
  let b := a % 2 ^ 46
  let able := isMemory b && (s.tt = .linear || decide (b < yardEnd))
  if s.target = 0 && decide (4 < s.fifo.length + (s.part.bytes.length + 4 * n + 255) / 256) then (.blocked, d)
  else match toward d acc.who a with
    | .nowhere => (.ends 0x23, decodeError acc a d)
    | .far m =>
      if !able then (.ends 0x23, decodeError acc a d)
      else
        let op := if s.tt = .linear then FarOp.read a (4 * n) false else .turn a s.tt n s.elem s.pitch
        (.asked, farAsk acc.who acc.cmp (tagOf d h) m a op (.stream i) false
          (updCore h (fun c => c.updStream i (fun s => { s with busy := true })) d))
    | .here =>
      if !able then (.ends 0x23, decodeError acc b d)
      else
        let on := sendOff acc b d
        let lose := fun (d : Dev) =>
          (Piece.asked, lostAsk acc b (.stream i) (updCore h (fun c => c.updStream i (fun s => { s with busy := true })) d))
        if on.1 = .lost then lose on.2
        else
          let r := if s.tt = .linear then memRead acc b (4 * n) on.2 else ttRead acc b s.tt n s.elem s.pitch on.2
          match r.1 with
          | .data bs =>
            if on.1 = .unheard then lose r.2
            else if on.1 = .spoiled then
              (.moved, streamArrives h i a n (bs.map (fun x => (x.1, true))) (pathParity acc b r.2))
            else (.moved, streamArrives h i a n bs r.2)
          | .fail _ => (.ends 0x23, r.2)
          | .held => (.blocked, r.2)

/-- A write of a stream whose bytes have left its FIFO: posted to memory, or an image offered at an enqueue window (R165,
R233, R263). -/
def streamSend (h a : Nat) (s : Stream) (bs : List Byte) (d : Dev) : Piece × Dev :=
  let acc := { coreAcc d h true with stream := true }
  let b := a % 2 ^ 46
  let line := decide (s.tt = .linear)
  match toward d acc.who a with
  | .nowhere => (.ends 0x23, decodeError acc a d)
  | .far m =>
    if line then (.moved, farWrite acc (tagOf d h) (coreSerial d h) a bs d)
    else if b < yardEnd then
      (.moved, farAsk acc.who acc.cmp (tagOf d h) m a (.turnWrite a s.tt s.elem s.pitch bs) .plain true
        (launch ⟨acc.who, acc.cmp, tagOf d h, coreSerial d h, a, true, .pending, tick d, true⟩ d))
    else (.ends 0x23, decodeError acc a d)
  | .here =>
    if isMemory b && line then (.moved, sendWrite acc (tagOf d h) b bs d)
    else if b < yardEnd then (.moved, sendTurn acc (tagOf d h) b s.tt s.elem s.pitch bs d)
    else match regionOf b with
      | .window _ _ =>
        let r := directWrite acc b bs d
        (if line && decide (r.1 = .ok) then .moved else .ends 0x23, r.2)
      | _ => (.ends 0x23, decodeError acc b d)

/-- A write of a stream: its bytes come from the FIFO in order, and a poisoned one ends the waybill (R233, R251). A
duplicate's is not sent (R447). -/
def streamWrite (h i a n : Nat) (d : Dev) : Piece × Dev :=
  let s0 := (getCore d h).stream i
  let s := if s0.part.bytes.length < 4 * n then
      (match s0.fifo with
       | e :: r => { s0 with part := ⟨s0.part.bytes ++ e.bytes, s0.part.poison ++ e.poison⟩, fifo := r }
       | [] => s0)
    else s0
  let bs := s.part.bytes.take (4 * n)
  if s.part.bytes.length < 4 * n then (.blocked, d)
  else if (s.part.poison.take (4 * n)).any id then (.ends 0x20, d)
  else
    let d1 := updCore h (fun c => c.updStream i (fun _ =>
      ({ s with part := ⟨s.part.bytes.drop (4 * n), s.part.poison.drop (4 * n)⟩ } : Stream).moved n))
      (foldAccess h (1 + i) a true bs d)
    if isDuplicate d h then (.moved, d1) else streamSend h a s bs d1

/-- One access of a stream engine, if it can make one now. -/
def streamStep (h i : Nat) (d : Dev) : Piece × Dev :=
  let s := (getCore d h).stream i
  if s.mode ≠ .running || s.busy then (.blocked, d)
  else match s.next with
    | none =>
      if s.target = 0 && !s.part.bytes.isEmpty && decide (s.fifo.length < 4) then
        (.moved, updCore h (fun c => c.updStream i Stream.pad) d)
      else (.blocked, d)
    | some (a, n) => if s.target = 1 then streamWrite h i a n d else streamRead h i a n d

/-- The lowest-numbered ready engine of those named makes its access; the answer names it. -/
def grantStream (h : Nat) (d : Dev) : List Nat → Option (Nat × Piece) × Dev
  | [] => (none, d)
  | i :: is =>
    match streamStep h i d with
    | (.blocked, e) => grantStream h e is
    | (p, e) => (some (i, p), e)

/-- The stream engines of a core move what they can, one access a step; an engine that was granted in one step stands
back in the next (R235). `last` is that engine, 8 for none. The answer is the status with which a stream ends the
waybill, if one does. -/
def streamPump : Nat → Nat → Nat → Dev → Option Nat × Dev
  | 0, _, _, d => (none, d)
  | fuel + 1, h, last, d =>
    match grantStream h d ((List.range 8).filter (· ≠ last)) with
    | (some (_, .ends st), e) => (some st, e)
    | (some (i, _), e) => streamPump fuel h i e
    | (none, e) =>
      match grantStream h e [last] with
      | (some (_, .ends st), e) => (some st, e)
      | (some (i, _), e) => streamPump fuel h i e
      | (none, e) => (none, e)

/-- More accesses than the streams of a core can make before they have to wait. -/
def pumpFuel : Nat := 160000

/-- The stream engines of a core move what they can. -/
def pumpAll (h : Nat) (d : Dev) : Option Nat × Dev := streamPump pumpFuel h 8 d

/-- The streams move what they can, then an instruction goes on. -/
def pumped (h : Nat) (f : Dev → CoreOut × Dev) (d : Dev) : CoreOut × Dev :=
  let r := pumpAll h d
  match r.1 with
  | some st => (.stop st 0, r.2)
  | none => f r.2

/-- Every byte of a stream's transfer has moved. -/
def Stream.finished (s : Stream) : Bool :=
  s.mode = .running && !s.busy && s.next.isNone && (s.target ≠ 0 || s.part.bytes.isEmpty)

/-- STREAM_COMPLETE: the transfer ends, and with it LOADING of a weight buffer (R231). -/
def streamComplete (h i : Nat) (d : Dev) : Dev :=
  let r := pumpAll h d
  match r.1 with
  | some st => endProgram h st 0 r.2
  | none =>
    let s := (getCore r.2 h).stream i
    if !s.finished then r.2
    else updCore h (fun c =>
      let c1 := c.updStream i (fun s => { s with mode := .complete })
      match s.buffer with
      | some b => { c1 with wbSeen := clrBit c1.wbSeen b }
      | none => c1) r.2

/-- The answer of another module to a stream's read, or the end of its wait for one that was lost, which is poison (R183). -/
def streamBack (h i a : Nat) (bs : Option (List PByte)) (d : Dev) : Dev :=
  let s := (getCore d h).stream i
  if !s.busy then d
  else
    let d1 := updCore h (fun c => c.updStream i (fun s => { s with busy := false })) d
    match bs, s.next with
    | some bs, some (_, n) =>
      let got := if bs.isEmpty then List.replicate (4 * n) (0, true) else bs
      let r := pumpAll h (streamArrives h i a n got d1)
      (match r.1 with
       | some st => endProgram h st 0 r.2
       | none => r.2)
    | _, _ => endProgram h 0x23 0 d1

/-! ### Stream instructions (R219, R231 to R234) -/

/-- The four words of a descriptor, each read as a scalar load. -/
def readDesc (h a : Nat) (d : Dev) : CoreRead × Dev :=
  [0, 8, 16, 24].foldl (fun r o =>
    match r.1 with
    | .data bs =>
      let x := coreRead h (a + o) 8 false .plain r.2
      (match x.1 with
       | .data cs => (.data (bs ++ cs), x.2)
       | .held => (.held, d)
       | y => (y, x.2))
    | _ => r) (CoreRead.data [], d)

/-- A descriptor has been read; a poisoned one ends the waybill (R251). -/
def gotDesc (h i a : Nat) (bs : List PByte) (d : Dev) : CoreOut × Dev :=
  let raw := bs.map (·.1)
  let ws := (List.range 4).map (fun k => leNat ((raw.drop (8 * k)).take 8))
  if bs.any (·.2) then (.stop 0x20 0, d)
  else simply h (fun c => c.updStream i (fun s => { s with words := ws }))
    (each (List.range 4) (fun k d => foldAccess h 0 (a + 8 * k) false ((raw.drop (8 * k)).take 8) d) d)

/-- STCFG. -/
def stcfg (h i ra : Nat) (d : Dev) : CoreOut × Dev :=
  coachOnly h (fun d =>
    let d1 := regParity h [ra] [] d
    let x := (getCore d1 h).sReg ra
    clean [x] (fun d =>
      if x.1 % 8 ≠ 0 then (.trap 0x03 x.1, d)
      else checked h x.1 (fun d =>
        let far := decide (x.1 < 2 ^ 48) && (!isLocal d x.1 || inOutbound (x.1 % 2 ^ 46))
        let r := if far then coreRead h x.1 32 false (.desc i) d else readDesc h x.1 d
        match r.1 with
        | .data bs => gotDesc h i x.1 bs r.2
        | .fail => (.trap 0x04 x.1, r.2)
        | .far => (.waits .far false, r.2)
        | .held => (.stay, r.2)) d) d1) d

/-- STSTART: a descriptor that breaks the rules ends the waybill (R234); a weight load claims the buffers for the
waybill's compartment (R215). -/
def ststart (h i : Nat) (d : Dev) : CoreOut × Dev :=
  coachOnly h (fun d =>
    let s : Stream := { words := ((getCore d h).stream i).words, run := ((getCore d h).stream i).words, mode := .running }
    if badStream d s then (.stop 0x23 0, d)
    else
      let own := cmpOf d (coreWho h) + 1
      pumped h (fun d => (.next, d)) (updCore h (fun c =>
        let c1 := c.updStream i (fun _ => s)
        if s.buffer.isSome then { c1 with wbCmp := own } else c1) d)) d

/-- STSTOP: the transfer ends where it stands (log entry 85). -/
def ststop (h i : Nat) (d : Dev) : CoreOut × Dev :=
  coachOnly h (simply h (fun c => c.updStream i (fun s => { words := s.words, run := s.run, mode := .stopped }))) d

/-- STWAIT: it waits while the stream runs. -/
def stwait (h i : Nat) (d : Dev) : CoreOut × Dev :=
  coachOnly h (pumped h (fun d => if ((getCore d h).stream i).mode = .running then (.waits .unit false, d) else (.next, d))) d

/-- STSTAT: the manual gives no layout for the status that it returns; it is free, by the stream's state, accesses made and
bytes moved (log entry 86). -/
def ststat (h i rd : Nat) (d : Dev) : CoreOut × Dev :=
  coachOnly h (fun d =>
    let s := (getCore d h).stream i
    simply h (fun c => c.setS rd (Config.streamStatus s.mode.num s.done s.pos).toNat false) d) d

/-- A stream that has been started with a target and not stopped. -/
def Stream.serves (s : Stream) (t : Nat) : Bool := (s.mode = .running || s.mode = .complete) && s.target = t

/-- The lanes of a FIFO entry. -/
def entryLanes (e : FifoEntry) : List PVal :=
  (List.range 64).map (fun l => (leNat ((e.bytes.drop (4 * l)).take 4), ((e.poison.drop (4 * l)).take 4).any id))

/-- VLD. -/
def vld (h vd i : Nat) (d : Dev) : CoreOut × Dev :=
  coachOnly h (fun d =>
    if !((getCore d h).stream i).serves 0 then (.trap 0x09 0, d)
    else pumped h (fun d =>
      let s := (getCore d h).stream i
      match s.fifo with
      | e :: r => simply h (fun c => (c.updStream i (fun s => { s with fifo := r })).setLanes vd (entryLanes e)) d
      | [] => (if s.mode = .complete then .trap 0x09 0 else .waits .unit false, d)) d) d

/-- The FIFO entry that a vector register makes. -/
def laneEntry (c : Core) (va : Nat) : FifoEntry :=
  let ls := (List.range 64).map (c.lane va)
  ⟨ls.flatMap (fun l => leBytes 4 l.1), ls.flatMap (fun l => List.replicate 4 l.2)⟩

/-- VST. -/
def vst (h i va : Nat) (d : Dev) : CoreOut × Dev :=
  coachOnly h (fun d =>
    if !((getCore d h).stream i).serves 1 then (.trap 0x09 0, d)
    else pumped h (fun d =>
      if 4 ≤ ((getCore d h).stream i).fifo.length then (.waits .unit false, d)
      else
        let d1 := regParity h [] [va] d
        pumped h (fun d => (.next, d))
          (updCore h (fun c => c.updStream i (fun s => { s with fifo := s.fifo ++ [laneEntry c va] })) d1)) d) d

/-! ### The matrix unit (R226 to R231) -/

/-- The content digest of a weight buffer: the sum over its 256-byte chunks, of the values and then of the sparsity
metadata, which stand after them (R212, R449, log entry 87). -/
def contentDigest (c : Core) (b : Nat) : Nat :=
  let byte := fun o => if o < 65536 then (c.wbByte b o).1 else (c.metaByte b (o - 65536)).1
  (List.range 288).foldl (fun s k =>
    s + crc32c (leBytes 6 (256 * k) ++ (List.range 256).map (fun j => BitVec.ofNat 8 (byte (256 * k + j))))) 0

/-- An mma reads a weight buffer: its content digest goes into RD at the first read of a run, or after a load (R449). -/
def seeBuffer (h b : Nat) (d : Dev) : Dev :=
  let c := getCore d h
  if c.wbSeen.testBit b then d
  else
    let d1 := updCore h (fun c => { c with wbSeen := setBit c.wbSeen b }) d
    match runOf d h with
    | some r =>
      if r.kind = .original && r.sample.isNone then d1
      else
        let x := digestsOf d1 h
        setDigests h { x with rd := (x.rd + contentDigest c b) % 2 ^ 64 } d1
    | none => d1

/-- MMA (R226 to R230): ILLEGAL for a reserved format, an odd va of a sparse one, or the other TYPE; MATRIX_RANGE for a
koff out of place or a bad metadata nibble. -/
def mma (h fmt ad va sa b : Nat) (sp z : Bool) (d : Dev) : CoreOut × Dev :=
  coachOnly h (fun d =>
    match mfmt fmt with
    | none => (.trap 0x01 0, d)
    | some f =>
      if (sp && va % 2 = 1) || (!z && (getCore d h).accFloat.testBit ad != f.isFloat) then (.trap 0x01 0, d)
      else if (getCore d h).loading b then (.waits .unit false, d)
      else
        let d1 := regParity h [sa] (if sp then [va, va + 1] else [va]) d
        let x := (getCore d1 h).sReg sa
        let kn := if sp then 2 * f.k else f.k
        clean [x] (fun d =>
          if x.1 % f.k ≠ 0 || decide (f.maxK < x.1 + kn) || (sp && !(getCore d h).metaOk b x.1 kn) then (.trap 0x0A 0, d)
          else
            let row := fun k => k * 64 * f.bits / 8 / (if sp then 2 else 1)
            let d2 := wbufParity h b (row x.1) (row (x.1 + kn))
              (if z then d else accParity h ((List.range 32).map (32 * ad + ·)) d)
            simply h (Core.mma f ad va x.1 b sp z) (bump64By (rk T.CCH h 1 0x090) 8 (seeBuffer h b d2))) d1) d

/-- MRD. -/
def mrd (h vd ad row : Nat) (d : Dev) : CoreOut × Dev :=
  coachOnly h (fun d => simply h (Core.mrd vd ad row false) (accParity h [32 * ad + row] d)) d

/-- MWR and MCLR set TYPE by the class of fmt, and a reserved fmt is ILLEGAL (R230). -/
def mwr (h fmt ad row va : Nat) (d : Dev) : CoreOut × Dev :=
  coachOnly h (fun d =>
    match mfmt fmt with
    | none => (.trap 0x01 0, d)
    | some f => simply h (Core.mwr ad row va f.isFloat false) (regParity h [] [va] d)) d

/-- MCLR. -/
def mclr (h fmt ad : Nat) (d : Dev) : CoreOut × Dev :=
  coachOnly h (fun d =>
    match mfmt fmt with
    | none => (.trap 0x01 0, d)
    | some f => simply h (Core.mclr ad f.isFloat) d) d

/-- WBWAIT. -/
def wbwait (h b : Nat) (d : Dev) : CoreOut × Dev :=
  coachOnly h (fun d => (if (getCore d h).loading b then .waits .unit false else .next, d)) d

end Sys2Proof.Machine
end

