-- ==== Sys2Proof/Machine/Settle.lean ====
section
/-! DEFINITION. What one command starts in other blocks, carried out before it ends: tally watches, completions, reports,
alerts, answers from beyond the module, packets that another module sends, and producers that waited for a queue. -/

namespace Sys2Proof.Machine

/-! ### Answers from beyond the module -/

/-- The instruction that a core waits with, as its fetch queue holds it. -/
def waitingInstr (d : Dev) (h : Nat) : Nat := (Map.get (fun _ => 0) (getCore d h).queue (getCore d h).pc - 1) % 2 ^ 64

/-- An instruction of a core that waited for an answer ends with it. -/
def resumes (h : Nat) (f : Dev → CoreOut × Dev) (d : Dev) : Dev :=
  if (getCore d h).wait ≠ .far then d
  else let r := f d; conclude h 4 (waitingInstr d h) r.1 r.2

/-- The answer to a core's access beyond its module (R45, R511). An answer that was lost carries the poison marker and no
data. -/
def coreBack (h a : Nat) (what : FarFor) (r : FarReply) (d : Dev) : Dev :=
  let data := match r with
    | .data bs => some (bs, bs.isEmpty || bs.any (·.2))
    | _ => none
  match what with
  | .plain => d
  | .console => d
  | .engine => d
  | .relay _ _ => d
  | .dropped => d
  | .store => resumes h (fun d => match r with
      | .fail _ => (.trap 0x04 a, d)
      | _ => (.next, d)) d
  | .stream i => streamBack h i a (data.map (·.1)) d
  | .load rd n => resumes h (fun d => match data with
      | some (bs, _) => (.next, if bs.isEmpty then updCore h (fun c => c.setS rd 0 true) d else loaded h rd a (bs.take n) d)
      | none => (.trap 0x04 a, d)) d
  | .atomic rd _ => resumes h (fun d => match data with
      | some (bs, p) => simply h (fun c => c.setS rd (leNat (bs.map (·.1))) p) d
      | none => (.trap 0x04 a, d)) d
  | .enq rd => resumes h (fun d => match r with
      | .code c => simply h (fun x => x.setS rd c false) d
      | _ => if a = 0 then simply h (fun x => x.setS rd 0x0B false) d else (.trap 0x04 a, d)) d
  | .image rd q => resumes h (fun d => match data with
      | some (bs, p) => if p then (.stop 0x20 0, d) else offerRead h rd q a bs d
      | none => (.trap 0x04 a, d)) d
  | .fetch =>
    if (getCore d h).wait ≠ .far then d
    else (match data with
      | some (bs, p) => updCore h (fun c => (c.keep a (leNat (bs.map (·.1))) p).goes) d
      | none => conclude h 4 0 (.trap 0x06 a) d)
  | .desc i => resumes h (fun d => match data with
      | some (bs, p) => if p then (.stop 0x20 0, d) else gotDesc h i a bs d
      | none => (.trap 0x04 a, d)) d
  | .frame ie => resumes h (fun d => match data with
      | some (bs, p) => if p then badFrame h d else frameRead h ie a bs d
      | none => badFrame h d) d

/-- The first packet relayed of which `p` holds is answered. -/
def relayAnswer (p : Packet → Bool) (r : FarReply) (d : Dev) : Dev :=
  match d.dbr.relayed.find? p with
  | some k => farReply k r { d with dbr := { d.dbr with relayed := d.dbr.relayed.erase k } }
  | none => d

/-- Writes of other modules to this module's host that are acknowledged, or have failed, are answered (R510, R527). -/
def relayEnds (d : Dev) : Dev :=
  let ripe := fun (f : Flight) => (match f.who with
    | .drawbar _ _ => true
    | _ => false) && f.st ≠ .pending
  each (d.net.flights.filter ripe) (fun f =>
    relayAnswer (fun k => k.isWrite && (k.kind.2.map (· % 2 ^ 46)) = some f.addr && k.cmp = f.cmp) (match f.st with
      | .failed e => .fail e
      | _ => .ack)) { d with net := { d.net with flights := d.net.flights.filter (fun f => !ripe f) } }

/-- An access of another module to this module's host, behind the outbound window; none where it goes elsewhere (R45,
R527). -/
def relay (acc : Access) (k : Packet) (d : Dev) : Option Dev :=
  let kept := { d with dbr := { d.dbr with relayed := d.dbr.relayed ++ [k] } }
  match k.body with
  | .ask (.read a len _) =>
    if inOutbound (a % 2 ^ 46) then
      let r := outRead acc.who acc.cmp (a % 2 ^ 46) len (.relay k.src k.xid) kept
      some (if r.1 then r.2 else farReply k (.fail .noRegion) { r.2 with dbr := { r.2.dbr with relayed := d.dbr.relayed } })
    else none
  | .ask (.write a bs) =>
    if inOutbound (a % 2 ^ 46) then some (relayEnds (outWrite { acc with write := true } k.wtag 0 (a % 2 ^ 46) bs kept)) else none
  | _ => none

/-- An answer reaches whoever asked. -/
def comesBack (who : Who) (a : Nat) (what : FarFor) (r : FarReply) (d : Dev) : Dev :=
  match what with
  | .relay s x => relayAnswer (fun k => k.src = s && k.xid = x) r d
  | _ => match (if what = .plain then none else holderOf who), who, r with
  | none, .engine n, r => if what = .engine then pieceBack (0x48 + n.val) a r d else d
  | some h, _, _ => coreBack h a what r d
  | none, .tap, r => tapBack (what = .console) r d
  | none, w, .data bs => answer w (.data (bs.map (·.1)) (bs.isEmpty || bs.any (·.2))) d
  | none, w, .fail k => answer w (.refused k) d
  | none, _, _ => d

/-- A read of CTR_ENTRY that has been held is made again (R296). -/
def pageAgain (h : HeldAccess) (d : Dev) : Dev :=
  let r := readPage h.acc (h.addr - 0x40000000) h.len d
  match r.1, h.acc.who with
  | .held, _ => keepRead h r.2
  | .data bs, .host f => hostData false h.acc f h.addr h.len (.data (bs.map (·.1)) false) r.2
  | .fail k, .host f => hostReadRefused f k r.2
  | .data bs, .tap => push (.back .tap h.addr (tapFor h) (.data bs)) r.2
  | .fail k, .tap => push (.back .tap h.addr (tapFor h) (.fail k)) r.2
  | o, w => answer w (readAnswer o) r.2

/-! ### Packets of other modules (R45, R293, R527) -/

/-- A packet waits for a sweep or for a read, or for room in a queue in brake mode, where `braked`. -/
def stall (p : Nat) (k : Packet) (braked : Bool) (d : Dev) : Dev :=
  { d with dbr := { d.dbr with stalled := d.dbr.stalled ++ [(p, k, braked)] } }

/-- A holder of another module, as the clusters name it. -/
def farHolder (src holder : Nat) : Nat := 128 * (src + 1) + holder % 128

/-- A semaphore operation of another module's holder; a cluster out of use refuses it (R644), an epoch switch holds it
(R189), and one that its port cannot reach answers RESET (R176, R191). -/
def serveSem (k : Packet) (p : Nat) (op : SemOp) (a n timeout holder epoch : Nat) (d : Dev) : Dev :=
  let w := farHolder k.src holder
  let acc : Access := { who := .drawbar (Fin.ofNat 2 p) (Fin.ofNat 16 k.cmp), cmp := k.cmp, write := true }
  match semAt (a % 2 ^ 46) with
  | none => farReply k (.fail .noRegion) (decodeError acc (a % 2 ^ 46) d)
  | some s =>
    if yardSwitch d acc.who (s / 256) then stall p k false d
    else if cutOff d (homeStation acc.who) (s / 256) then farReply k (.code 9) d
    else if !enabled d T.YRD (s / 256) && !clusterOut d (s / 256) then
      farReply k (.fail .noRegion) (refused acc .noRegion none false (a % 2 ^ 46) d)
    else
    let d1 := { d with yard := { d.yard with epochs := Map.set (fun _ => 0) d.yard.epochs w epoch } }
    let r := semDo op s k.cmp w n timeout d1
    match r.1 with
    | some c => farReply k (.code c) r.2
    | none => { r.2 with dbr := { r.2.dbr with semAsks := r.2.dbr.semAsks ++ [(w, k)] } }

/-- A packet asks something of this module; `again` says that it has waited for a slot (R266). -/
def serve (again : Bool) (p : Nat) (k : Packet) (d : Dev) : Dev :=
  let acc : Access := { who := .drawbar (Fin.ofNat 2 p) (Fin.ofNat 16 k.cmp), cmp := k.cmp }
  match k.body with
  | .tell _ => d
  | .ask op =>
    match relay acc k d with
    | some e => e
    | none =>
    match op with
    | .read a len fetch =>
      let r := busRead { acc with fetch := fetch } (a % 2 ^ 46) len d
      (match r.1 with
       | .data bs => farReply k (.data bs) r.2
       | .fail e => farReply k (.fail e) r.2
       | .held => stall p k false r.2)
    | .turn a m n e st =>
      let r := ttRead acc (a % 2 ^ 46) m n e st d
      (match r.1 with
       | .data bs => farReply k (.data bs) r.2
       | .fail e => farReply k (.fail e) r.2
       | .held => stall p k false r.2)
    | .turnWrite a m e st bs =>
      let r := turnWrite { acc with write := true } (a % 2 ^ 46) m e st bs d
      (match r.1 with
       | .ok => farReply k .ack r.2
       | .fail e => farReply k (.fail e) r.2
       | .held => stall p k false r.2)
    | .write a bs =>
      let b := a % 2 ^ 46
      let w := { acc with write := true }
      let r := if isMemory b then memWrite w b bs d else directWrite w b bs d
      (match r.1 with
       | .ok => farReply k .ack r.2
       | .fail e => farReply k (.fail e) r.2
       | .held => stall p k false r.2)
    | .atomic op a n src cmp =>
      let b := a % 2 ^ 46
      let w := { acc with write := true }
      if b < yardEnd && (yardCheck d { w with write := false } b n = .held) then stall p k false (noteWait acc.who b d)
      else
        let r := amo w b n op src cmp d
        (match r.1 with
         | .ok (o, bad) => farReply k (.data (marked (leBytes n o) bad)) r.2
         | .error e => farReply k (.fail e) r.2)
    | .enqueue q img =>
      let r := enqueue acc.who k.cmp q false img d
      (match r.1 with
       | .code c => farReply k (.code c) (doIf (again && c ≠ 0) (flag0 T.DPT 0 3 q) r.2)
       | .brake => stall p k true r.2
       | .backing off => stall p k false (doIf off backingWaits r.2))
    | .sem op a n timeout holder epoch => serveSem k p op a n timeout holder epoch d
    | .decrement c n void =>
      depotCheck (fun d => foldBelow n (fun i d => ctrAction k.cmp (c + i) (if void then ctrVoid else ctrDec) d) d) d
    | .token key slot payload void => depotCheck (deliverToken k.cmp key slot payload void) d
    | .pressure _ => d

/-- Packets that waited are tried again, in order. -/
def serveStalled (d : Dev) : Dev :=
  each d.dbr.stalled (fun x d => serve x.2.2 x.1 x.2.1 d) { d with dbr := { d.dbr with stalled := [] } }

/-- A queued request of another module's holder has been answered. -/
def semAnswered (w code : Nat) (d : Dev) : Dev :=
  match d.dbr.semAsks.find? (fun x => x.1 = w) with
  | none => d
  | some x => farReply x.2 (.code code) { d with dbr := { d.dbr with semAsks := d.dbr.semAsks.filter (fun y => y.1 ≠ w) } }

/-- A counter or token operation goes to another module; one that is not present is flagged (R285, R293). -/
def farSend (dst cmp : Nat) (op : FarOp) (d : Dev) : Dev :=
  if isPresent d dst then farPost dst cmp op d else flag0 T.DPT 0 13 dst d

/-! ### One action -/

/-- A tally watch has fired (R157, R238, R273, R417). -/
def watchFired (w : WatchFor) (d : Dev) : Dev :=
  match w with
  | .waybill q i => if (getSlot d q i).state = .waiting && (getSlot d q i).stage = .tally then makeReady q i false d else d
  | .core h => (match (getCore d h).wait with
    | .tally _ => updCore h (fun c => (c.advance 4).goes) d
    | _ => d)
  | .graph g => tallyTrigger g d

/-- A bit of ALERT_PENDING has risen (R512, R546). -/
def alertRises (d : Dev) : Dev :=
  let d1 := mgmtAlert d
  if alertToPf d1 then sendVector 0 0 d1 else d1

/-- A trail-mode finding: a further record, and the sequencer's finding (R287, R433). -/
def suspectFound (img : Image) (q unit turn : Nat) (d : Dev) : Dev :=
  let d1 := suspectRecord q img.tag unit img.ticketValid d
  if img.ticketValid then { d1 with fgs := { d1.fgs with
    findings := d1.fgs.findings ++ [⟨img.ticketGraph, img.ticketFrame, turn, img.tag⟩] } } else d1

/-- A command list has ended (R358, R425). -/
def listDone (a : ListFor) (ok : Bool) (d : Dev) : Dev :=
  match a with
  | .command => d
  | .node g f turn n => listReport g f turn n ok d
  | .replug p b => replugEnded p b ok d

/-- The end of a reset of everything outside the always-on island: a fuse row being blown stays partly blown and its
shadow is read again, the management target forgets its address, and the inputs keep what they hold (R110, R549, R563,
R596). -/
def restarted (d : Dev) : Dev :=
  let d1 := mgmtReset false (readFuses (progCut d))
  showInputs { d1 with hmi := hmiKept d1 }

/-- Carrying out one action. -/
def settleOne (t : Todo) (d : Dev) : Dev :=
  match t with
  | .watchFired w => watchFired w d
  | .graphDue g due => periodicTrigger g due d
  | .fsyncDue k late => fsyncPulse k late d
  | .restarted => restarted d
  | .stable code => stableAuto code d
  | .forced cause detail => forcedReset cause detail d
  | .alert => alertRises d
  | .recorded q => queueWritten q d
  | .fired q i void => slotFired q i void d
  | .complete q i => completeSlot q i d
  | .report _ q i status poison => reportOf q i status poison d
  | .runEnded u r e => runEnded u r e d
  | .cmpSwept n => cmpSwept n d
  | .suspect img q u turn => suspectFound img q u turn d
  | .abandoned u r => abandoned u r d
  | .release p b f => releaseBuf p b f d
  | .slack g q => govSlack g q d
  | .listAsk p k a => listAsked p k a d
  | .listStop a => each [0, 1, 2, 3] (fun p d => listStopped p (· = a) d) d
  | .rowLost tag => rowLost tag d
  | .listDone a ok => listDone a ok d
  | .logWrite a bs => (ownWrite { who := .integ, cmp := 0, write := true } a bs d).2
  | .readsAgain => graphRetry (backingRetry d)
  | .readAgain h => pageAgain h d
  | .consoleLine => consoleNext d
  | .farCtr dst cmp c n void => farSend dst cmp (.decrement c n void) d
  | .farToken dst cmp key slot payload void => farSend dst cmp (.token key slot payload void) d
  | .back who a what r => comesBack who a what r d
  | .serve p k => serve false p k d
  | .semFar w code => semAnswered w code d

/-! ### Producers that wait (R237, R263, R426) -/

/-- A producer that still waits after it has offered its waybill again (R263, R296). -/
def waitsOn (b : BrakeWait) (o : EnqOut) (d : Dev) : Dev :=
  let deadline := if b.window && b.deadline.isNone then brakeDeadline d else b.deadline
  let put := fun (c : BrakeWait) (d : Dev) =>
    { d with dpt := { d.dpt with brakes := d.dpt.brakes.map (fun x => if x = b then c else x) } }
  match o with
  | .backing off => doIf off backingWaits (put { b with backing := true, braked := false, deadline := none } d)
  | _ => doIf (!b.braked) (stat 4) (put { b with braked := true, deadline := deadline } d)

/-- A producer whose queue has room again offers its waybill; a core that has gone elsewhere offers nothing. -/
def resumeBrake (b : BrakeWait) (d : Dev) : Dev :=
  let d1 := { d with dpt := { d.dpt with brakes := d.dpt.brakes.erase b } }
  let x := enqueue b.who b.cmp b.queue false b.image d1
  match b.node with
  | some g => unbrake b.braked g d1
  | none =>
    match (if b.window then none else holderOf b.who) with
    | some h => (match (getCore d1 h).wait with
      | .brake r =>
        (match x.1 with
         | .code n => doIf (n ≠ 0) (brakeFlag b) (updCore h (fun c => (c.setS r n false).goes) x.2)
         | o => waitsOn b o d)
      | _ => d1)
    | none =>
      (match x.1 with
       | .code 0 => answer b.who (.code 0) x.2
       | .code n => answer b.who (.code n) (brakeRefused b x.2)
       | o => waitsOn b o d)

/-- The oldest host request that can take effect does (R64, R507). -/
def hostReadyNow (d : Dev) : Bool := match d.hst.inbox with
  | [] => false
  | h :: _ => hostReady d h

/-! ### An injected error of INT (R466) -/

/-- INT INJECT flag 1: the lowest pending sample slot is lost; a held gate original is released SUSPECT. -/
def sampleUe (d : Dev) : Dev :=
  if (armed d T.INT 0 0 1).isNone then d
  else match samplesWhere d (fun _ => true) with
  | [] => d
  | (k, x) :: _ =>
    let d1 := flag0 T.INT 0 1 k (fired T.INT 0 0 d)
    releaseGate x.queue x.slot true (dropSample k d1)

/-! ### All of it -/

/-- Actions are carried out in order, then what had to wait goes on. -/
def settleLoop : Nat → Dev → Dev
  | 0, d => d
  | n + 1, d =>
    match d.todo with
    | t :: ts => settleLoop n (settleOne t { d with todo := ts })
    | [] =>
      match brakeReady d with
      | some b => settleLoop n (resumeBrake b d)
      | none => if hostReadyNow d then settleLoop n (drainHost 1 d) else d

/-- More actions than one command starts. -/
def settleFuel : Nat := 100000

/-- What a command started is carried out, and the module is between commands again. -/
def settle (d : Dev) : Dev :=
  let d1 := settleLoop settleFuel (sampleUe (serveStalled (relayEnds d)))
  let d2 := alertsOver (wakeCores d1)
  { onWay .clear d2 with firsts := [], todo := [] }

/-- A command whose effect is `f`, with all that it starts. -/
def effect (f : Dev → Dev) (s : State) : Host.Outcome State Fault Refusal := act (fun d => settle (f d)) s

/-! ### Time limits of responses (R183, R524) -/

/-- RSP_TIMEOUT: the oldest access of a requester whose timer has expired before any response came, whatever its target has
done with it: a read is poisoned, a posted write fails with PATH_PARITY, or with REMOTE where the drawbar has lost it (R183,
R524, R528). -/
def rspTimeout (w : Who) (beyond : Bool) (d : Dev) : Dev :=
  let lim := rdF d (rk T.TPK 0 0 0x044) 15 0
  let late := fun since => decide (since + lim ≤ tick d)
  let t := takeFlight (fun f => f.who = w && late f.since) d.net.flights
  match t.1, d.dbr.far.find? (fun f => f.who = w && !f.posted && late f.since) with
  | none, none => d
  | none, some r =>
    push (.back w r.addr r.what (.data []))
      (timedOut w { d with dbr := { d.dbr with far := d.dbr.far.filter (fun f => f.xid ≠ r.xid) } })
  | some f, _ =>
    let d1 := timedOut w { d with net := { d.net with flights := t.2 } }
    if !f.posted then answer w (.data [] true) d1
    else
      let mine := fun (x : Far) => x.who = w && x.posted && x.addr = f.addr
      let d2 := { d1 with dbr := { d1.dbr with far := changeFirst mine (fun _ => none) d1.dbr.far } }
      let kind := match d.dbr.far.find? mine with
        | some x => if x.lost || beyond then Kind.remote else .pathParity
        | none => .pathParity
      match w with
      | .host fn => hostFailed fn.val f.addr f.tag .pathParity d2
      | .drawbar _ _ => relayEnds { d2 with net := { d2.net with flights := { f with st := .failed .pathParity } :: d2.net.flights } }
      | _ => fenceCheck w (failureNotice f kind d2)

end Sys2Proof.Machine
end

