-- ==== Sys2Proof/Machine/CmdReg.lean ====
section
/-! DEFINITION. The commands that act on any register page: plain writes and reads of registers, and the header fields of
a unit's page 0 (R9, R51 to R62, R112, R470, R643 to R646). -/

namespace Sys2Proof.Machine

/-! ### A requester at a register page -/

/-- An access of a core to a register page cancels the sample of its run (R448). -/
def pageTouched (w : Who) (d : Dev) : Dev := match holderOf w with
  | some h => cancelRun h d
  | none => d

/-- How a requester's access to a register page is treated. -/
def pageAcc (w : Who) (write : Bool) (d : Dev) : Access := { who := w, cmp := cmpOf d w, write := write }

/-- A requester writes `n` bytes of a register page of this module; a host function writes through BAR0 (R505). -/
def regPut (w : Who) (k n v : Nat) (d : Dev) : Dev :=
  match w with
  | .host f => hostBar0 f k (n = 8) (some (BitVec.ofNat 64 v)) false .clear d
  | _ =>
    let d1 := pageTouched w d
    let acc := pageAcc w true d1
    if attachCut d1 w (0x40000000 + k) then answer w (.refused .noRegion) (decodeError acc (0x40000000 + k) d1)
    else
      let r := writePage acc k (leBytes n v) d1
      match r.1 with
      | .fail e => answer w (.refused e) r.2
      | _ => r.2

/-- A requester reads `n` bytes of a register page of this module. -/
def regGet (w : Who) (k n : Nat) (d : Dev) : Dev :=
  match w with
  | .host f => hostBar0 f k (n = 8) none false .clear d
  | _ =>
    let d1 := pageTouched w d
    let acc := pageAcc w false d1
    if attachCut d1 w (0x40000000 + k) then answer w (.refused .noRegion) (decodeError acc (0x40000000 + k) d1)
    else
      let r := readPage acc k n d1
      answer w (readAnswer r.1) (doIf (r.1 = .held) (pageHold acc k n 0) r.2)

/-- A write of a 32-bit register of this module. -/
def regCmd (w : Who) (k v : Nat) (d : Dev) : Dev := regPut w k 4 v d

/-- A write that sets one bit of a register word and gives the rest of it as it stands. -/
def regSetBit (w : Who) (k n : Nat) (d : Dev) : Dev := regCmd w k (setBit (rd d k) n) d

/-- A register access of a requester that is no host function on its way to its block: `go` at the block, unless it is lost,
or its response is,
when it waits for its timer (R183), or its data is spoiled: a write then fails, and a read is poisoned (R442). -/
def regWay (w : Who) (write : Bool) (a n : Nat) (m : Mishap) (go : Dev → Dev) (d : Dev) : Dev :=
  let acc := pageAcc w write d
  let on := sendBus acc a (onWay m d)
  match on.1 with
  | .arrives => go on.2
  | .lost => lostAsk acc a .plain (pageTouched w on.2)
  | .unheard => lostAsk acc a .plain { go on.2 with rsp := on.2.rsp }
  | .spoiled =>
    if write then answer w (.refused .pathParity) (wayParity acc a (pageTouched w on.2))
    else
      let d1 := pageTouched w on.2
      answer w (.data (List.replicate n 0) true) (wayParity acc a (readPage (pageAcc w false d1) (a - 0x40000000) n d1).2)

/-- A write at an address of any module's register pages (R45, R46, R60): 4 or 8 bytes, not posted (R63). DESIGN CHOICE (log
entry 141): the rows of register accesses mean nothing at an address outside the register-page window, and change nothing
there. -/
def addrPut (w : Who) (a n v : Nat) (m : Mishap) (d : Dev) : Dev :=
  let acc := pageAcc w true d
  match regKey (a % 2 ^ 46) with
  | none => d
  | some k =>
    match toward d w a, w with
    | .here, .host f => hostBar0 f k (n = 8) (some (BitVec.ofNat 64 v)) false m d
    | .here, _ => regWay w true (a % 2 ^ 46) n m (regPut w k n v) d
    | .far t, _ => farAsk w acc.cmp (tagOf d w.unitId) t a (.write a (leBytes n v)) .plain false (pageTouched w d)
    | .nowhere, _ => answer w (.refused .noRegion) (decodeError acc a d)

/-- A read at an address of any module's register pages; outside the register-page window it changes nothing (log entry
141). -/
def addrGet (w : Who) (a n : Nat) (m : Mishap) (d : Dev) : Dev :=
  let acc := pageAcc w false d
  match regKey (a % 2 ^ 46) with
  | none => d
  | some k =>
    match toward d w a, w with
    | .here, .host f => hostBar0 f k (n = 8) none false m d
    | .here, _ => regWay w false (a % 2 ^ 46) n m (regGet w k n) d
    | .far t, _ => farAsk w acc.cmp (tagOf d w.unitId) t a (.read a n false) .plain false (pageTouched w d)
    | .nowhere, _ => answer w (.refused .noRegion) (decodeError acc a d)

/-- The bytes of a 32-bit or a 64-bit access. -/
def accessBytes (wide : Bool) : Nat := if wide then 8 else 4

/-- A page that a part has: elsewhere nothing answers (R49). -/
def onPage (ty inst page : Nat) (f : Dev → Dev) (d : Dev) : Dev :=
  if page < pagesPer ty && inst < instances d.part ty then f d else d

/-! ### The rows -/

/-- REGISTER_WRITE (R646): a write of 32 or 64 bits of a register by a requester; what befalls it on its way. -/
def execRegisterWrite (who : Who) (addr : Addr) (wide : Bool) (value : W64) (mishap : Mishap) (s : State) :
    Host.Outcome State Fault Refusal :=
  effect (addrPut who addr.toNat (accessBytes wide) value.toNat mishap) s

/-- COUNTER_READ_CLEAR (R9): a read of a register by a requester; an RC register clears. -/
def execCounterReadClear (who : Who) (addr : Addr) (wide : Bool) (mishap : Mishap) (s : State) :
    Host.Outcome State Fault Refusal :=
  effect (addrGet who addr.toNat (accessBytes wide) mishap) s

/-- HIGH_WORD_LATCH (R62): a 32-bit read of the low word of a 64-bit register latches its high word. -/
def execHighWordLatch (who : Who) (addr : Addr) (mishap : Mishap) (s : State) : Host.Outcome State Fault Refusal :=
  effect (addrGet who addr.toNat 4 mishap) s

/-- STICKY_CLEAR (R52): a W1C write of STICKY. -/
def execStickyClear (who : Who) (ty : Fin 32) (inst : Fin 64) (page : Fin 128) (value : W32) (s : State) :
    Host.Outcome State Fault Refusal :=
  effect (onPage ty.val inst.val page.val (regCmd who (rk ty.val inst.val page.val 0x010) value.toNat)) s

/-- CTRL with ENABLE as it stands, and further bits. -/
def ctrlWord (d : Dev) (ty inst bits : Nat) : Nat := b2n (enabled d ty inst) + bits

/-- UNIT_RESET (R112). -/
def execUnitReset (who : Who) (ty : Fin 32) (inst : Fin 64) (s : State) : Host.Outcome State Fault Refusal :=
  effect (onPage ty.val inst.val 0 (fun d =>
    regCmd who (kCTRL ty.val inst.val) (ctrlWord d ty.val inst.val 2) d)) s

/-- UNIT_RESET_COMPLETE (R112): the reset of a unit is over; a stack's ends with its training (R211). -/
def execUnitResetComplete (ty : Fin 32) (inst : Fin 64) (s : State) : Host.Outcome State Fault Refusal :=
  effect (onPage ty.val inst.val 0 (fun d => if ty.val = T.STK then d else resetDone ty.val inst.val d)) s

/-- STABLE_REQ (R470). -/
def execStableReq (who : Who) (ty : Fin 32) (inst : Fin 64) (s : State) : Host.Outcome State Fault Refusal :=
  effect (onPage ty.val inst.val 0 (fun d =>
    regCmd who (kCTRL ty.val inst.val) (ctrlWord d ty.val inst.val 4) d)) s

/-- PROBATION_REQ (R470). -/
def execProbationReq (who : Who) (ty : Fin 32) (inst : Fin 64) (s : State) : Host.Outcome State Fault Refusal :=
  effect (onPage ty.val inst.val 0 (fun d =>
    regCmd who (kCTRL ty.val inst.val) (ctrlWord d ty.val inst.val 8) d)) s

/-- ENABLE_WRITE (R644). -/
def execEnableWrite (who : Who) (ty : Fin 32) (inst : Fin 64) (on : Bool) (s : State) : Host.Outcome State Fault Refusal :=
  effect (onPage ty.val inst.val 0 (regCmd who (kCTRL ty.val inst.val) (b2n on))) s

/-- INJECT_ARM (R55): a write of INJECT with ARM set. -/
def execInjectArm (who : Who) (ty : Fin 32) (inst : Fin 64) (page : Fin 128) (flag : Fin 32) (param : BitVec 16) (s : State) :
    Host.Outcome State Fault Refusal :=
  effect (onPage ty.val inst.val page.val
    (regCmd who (rk ty.val inst.val page.val 0x01C) (2 ^ 31 + flag.val * 65536 + param.toNat))) s

/-- OWNER_WRITE (R56). -/
def execOwnerWrite (who : Who) (ty : Fin 32) (inst : Fin 64) (owner : Fin 16) (s : State) : Host.Outcome State Fault Refusal :=
  effect (onPage ty.val inst.val 0 (regCmd who (kOWNER ty.val inst.val) owner.val)) s

end Sys2Proof.Machine
end

