-- ==== Sys2Proof/Machine/CmdClock.lean ====
section
/-! DEFINITION. The commands of clocks, the tick, and the governor (chapter 3). An operand is what a sensor or a
measurement shows. -/

namespace Sys2Proof.Machine

/-- When REF is lost, the drawbar ports send link-down and go DOWN (R78 step 4, R524). -/
def refWatched (f : Dev → Dev) (d : Dev) : Dev :=
  let d1 := f d
  if d1.clk.lost && !d.clk.lost then drawbarRefLost d1 else d1

/-- A write of a GOV register by a requester. -/
def govReg (who : Who) (off v : Nat) (d : Dev) : Dev := regCmd who (kV 0 off) v d

/-- A tick: the counters, in a team slewing, and the digest checks that are late (R75, R486, R529). -/
def tickAll (d : Dev) : Dev := digLates (teamPart slewTick (refWatched tickCmd d))

/-- TICK (R75); the tick of a team's follower slews (R529). -/
def execTick (s : State) : Host.Outcome State Fault Refusal :=
  effect tickAll s

/-- REF_LOST (R78): two windows without a REF edge. -/
def execRefLost (s : State) : Host.Outcome State Fault Refusal := effect (refWatched (refLost false false)) s

/-- REF_UNLOCK (R78): the PLL has lost lock with REF edges present. -/
def execRefUnlock (s : State) : Host.Outcome State Fault Refusal := effect (refWatched (refLost true true)) s

/-- HOLDOVER_SWITCH (R78). -/
def execHoldoverSwitch (s : State) : Host.Outcome State Fault Refusal := effect holdoverSwitch s

/-- PLL_OUTPUTS_STOP (R78). -/
def execPllOutputsStop (s : State) : Host.Outcome State Fault Refusal := effect pllOutputsStop s

/-- REF_QUALIFIED (R80). -/
def execRefQualified (s : State) : Host.Outcome State Fault Refusal := effect refQualified s

/-- REF_RESTORE (R80): a write of REF_RESTORE, with the other fields of the register as they stand. -/
def execRefRestore (who : Who) (s : State) : Host.Outcome State Fault Refusal :=
  effect (regSetBit who (rk T.CLK 0 0 0x040) 9) s

/-- REF_RELOCKED (R80). -/
def execRefRelocked (s : State) : Host.Outcome State Fault Refusal := effect refRelocked s

/-- REF_MEASURE (R81): the REF cycles in 1,024 AON cycles. -/
def execRefMeasure (cycles : W32) (s : State) : Host.Outcome State Fault Refusal :=
  effect (refWatched (refMeasure cycles.toNat)) s

/-- AON_LOST (R82). -/
def execAonLost (s : State) : Host.Outcome State Fault Refusal := effect aonLost s

/-- AON_RESTORED (R82). -/
def execAonRestored (s : State) : Host.Outcome State Fault Refusal := effect aonRestored s

/-- STEP_RATE_MEASURE (R69): the replica's count in 1 µs. -/
def execStepRateMeasure (mhz : BitVec 16) (s : State) : Host.Outcome State Fault Refusal := effect (stepRate mhz.toNat) s

/-- DOMAIN_MEASURE (R71): the frequency of each domain in kHz, and the domains that toggled and that stopped. -/
def execDomainMeasure (khz : List W32) (toggled stopped : BitVec 14) (s : State) : Host.Outcome State Fault Refusal :=
  effect (domainMeasure (khz.map (·.toNat)) toggled.toNat stopped.toNat) s

/-- The governor's period, and the exchange of pressures in a team (R89, R91). -/
def govPeriod (d : Dev) : Dev := if evalDue d then teamPart sendPressure (govEvaluate d) else d

/-- GOV_EVALUATE (R91); module 0 and its members exchange pressures (R89). -/
def execGovEvaluate (s : State) : Host.Outcome State Fault Refusal :=
  effect govPeriod s

/-- SETTLE_EXPIRE (R93). -/
def execSettleExpire (s : State) : Host.Outcome State Fault Refusal := effect settleExpire s

/-- PMBUS_TRANSACTION_DONE (R94): a two-wire status, the word read, and the lines where the port checks them (R552). -/
def execPmbusTransactionDone (status : BitVec 8) (word : BitVec 16) (lines : Lines) (s : State) :
    Host.Outcome State Fault Refusal :=
  effect (overPins (govOffBus status.toNat word.toNat lines)) s

/-- GOV_PAGE (R560). -/
def execGovPage (lines : Lines) (s : State) : Host.Outcome State Fault Refusal :=
  effect (overPins (govOnBus lines govPage)) s

/-- GOV_VOUT_COMMAND (R560). -/
def execGovVoutCommand (lines : Lines) (s : State) : Host.Outcome State Fault Refusal :=
  effect (overPins (govOnBus lines govVout)) s

/-- GOV_READ_VOUT (R560). -/
def execGovReadVout (lines : Lines) (s : State) : Host.Outcome State Fault Refusal :=
  effect (overPins (govOnBus lines govRead)) s

/-- RESUME (R94): a write of RESUME, with the other fields of GOV_CTRL as they stand. -/
def execResume (who : Who) (s : State) : Host.Outcome State Fault Refusal :=
  effect (regSetBit who (kV 0 0x040) 10) s

/-- MANUAL_TARGET_WRITE (R95). -/
def execManualTargetWrite (who : Who) (mv : BitVec 16) (s : State) : Host.Outcome State Fault Refusal :=
  effect (govReg who 0x05C mv.toNat) s

/-- GOV_MODE_WRITE (R95): a write of GOV_CTRL. -/
def execGovModeWrite (who : Who) (value : W32) (s : State) : Host.Outcome State Fault Refusal :=
  effect (govReg who 0x040 value.toNat) s

/-- BOOST_BUCKET (R96). -/
def execBoostBucket (s : State) : Host.Outcome State Fault Refusal := effect boostBucket s

/-- TJ_SENSOR_UPDATE (R97): a junction sensor's reading in 1/16 °C. -/
def execTjSensorUpdate (sensor : Fin 18) (value : BitVec 16) (s : State) : Host.Outcome State Fault Refusal :=
  effect (tjUpdate sensor.val value) s

end Sys2Proof.Machine
end

