-- ==== Sys2Proof/Machine/CmdPower.lean ====
section
/-! DEFINITION. The commands of power, reset, boot and Dormant (chapter 4). -/

namespace Sys2Proof.Machine

/-- THERMAL_TRIP (R97): a sensor has read 110 °C or more for 10 µs. -/
def execThermalTrip (sensor : Fin 18) (s : State) : Host.Outcome State Fault Refusal := effect (thermalTrip sensor.val) s

/-- POWER_ON_RESET (R101). -/
def execPowerOnReset (s : State) : Host.Outcome State Fault Refusal := effect powerOnReset s

/-- VAON_LOSS (R101). -/
def execVaonLoss (s : State) : Host.Outcome State Fault Refusal := effect vaonLoss s

/-- PG_RISE (R102). -/
def execPgRise (rail : Fin 8) (s : State) : Host.Outcome State Fault Refusal := effect (pgRise rail.val) s

/-- RAIL_WAIT_EXPIRE (R102). -/
def execRailWaitExpire (s : State) : Host.Outcome State Fault Refusal := effect railWaited s

/-- PG_TIMEOUT (R104). -/
def execPgTimeout (s : State) : Host.Outcome State Fault Refusal := effect pgTimeout s

/-- POWER_FAULT (R105). -/
def execPowerFault (rail : Fin 8) (s : State) : Host.Outcome State Fault Refusal := effect (powerFault rail.val) s

/-- SEQ_DOWN_END (R101). -/
def execSeqDownEnd (s : State) : Host.Outcome State Fault Refusal := effect seqDownEnd s

/-- RETRY_EXPIRE (R101). -/
def execRetryExpire (s : State) : Host.Outcome State Fault Refusal := effect retryExpire s

/-- STRAP_SAMPLE (R108): the level of the seven straps. -/
def execStrapSample (straps : BitVec 7) (s : State) : Host.Outcome State Fault Refusal := effect (strapSample straps.toNat) s

/-- REF_BOOT_TIMEOUT (R107). -/
def execRefBootTimeout (s : State) : Host.Outcome State Fault Refusal := effect (refWatched refBootTimeout) s

/-- RESET_N_ASSERT (R109). -/
def execResetNAssert (s : State) : Host.Outcome State Fault Refusal := effect resetAssert s

/-- RESET_N_RELEASE (R109). -/
def execResetNRelease (s : State) : Host.Outcome State Fault Refusal := effect resetRelease s

/-- TEST_EN_ASSERT (R608): the level that the TEST_EN pin takes. -/
def execTestEnAssert (level : Bool) (s : State) : Host.Outcome State Fault Refusal := effect (testEnLevel level) s

/-- WARM_RESET (R111): a write of SYS_CTRL with WARM_RESET and a key. -/
def execWarmReset (who : Who) (key : BitVec 8) (s : State) : Host.Outcome State Fault Refusal :=
  effect (regCmd who (kSys 0 0x048) (key.toNat * 256 + 1)) s

/-- WARM_RESET_SWEEP_DONE (R111): how the VOUT_COMMAND for 0.75 V ends. -/
def execWarmResetSweepDone (status : BitVec 8) (s : State) : Host.Outcome State Fault Refusal :=
  effect (sweepEnded status.toNat) s

/-- WARM_RESET_VOUT_WAIT_EXPIRE (R111). -/
def execWarmResetVoutWaitExpire (s : State) : Host.Outcome State Fault Refusal := effect voutWaited s

/-- PERST_N_ASSERT (R113). -/
def execPerstNAssert (s : State) : Host.Outcome State Fault Refusal := effect perstAssert s

/-- PERST_N_RELEASE (R113). -/
def execPerstNRelease (s : State) : Host.Outcome State Fault Refusal := effect perstRelease s

/-- BOOT_ROM_START (R116). -/
def execBootRomStart (s : State) : Host.Outcome State Fault Refusal := effect bootStart s

/-- BOOT_HOST_DOORBELL (R116): a write of the image's length. -/
def execBootHostDoorbell (who : Who) (value : W32) (s : State) : Host.Outcome State Fault Refusal :=
  effect (regCmd who (kSys 0 0x060) value.toNat) s

/-- HOST_BOOT_TIMEOUT (R116). -/
def execHostBootTimeout (s : State) : Host.Outcome State Fault Refusal := effect hostTimeout s

/-- BOOT_IMAGE_CHECK (R119): of the image in flash, or of the one that the host has placed. -/
def execBootImageCheck (flash : Bool) (octal : Option Byte) (s : State) : Host.Outcome State Fault Refusal :=
  effect (bootCheck flash (octal.map (·.toNat))) s

/-- WDT_KICK (R122). -/
def execWdtKick (who : Who) (value : W32) (s : State) : Host.Outcome State Fault Refusal :=
  effect (regCmd who (kSys 0 0x058) value.toNat) s

/-- WDT_EXPIRE (R122). -/
def execWdtExpire (s : State) : Host.Outcome State Fault Refusal := effect wdtExpire s

/-- DORMANT_REQ (R123): a write of SYS_CTRL with DORMANT_REQ and a key. -/
def execDormantReq (who : Who) (key : BitVec 8) (s : State) : Host.Outcome State Fault Refusal :=
  effect (regCmd who (kSys 0 0x048) (key.toNat * 256 + 2)) s

/-- WAKE_EVENT (R125): an enabled wake source becomes active; `mgmt` says that it is the management bus's address match. -/
def execWakeEvent (mgmt : Bool) (s : State) : Host.Outcome State Fault Refusal := effect (wakeEvent mgmt) s

/-- RTC_ALARM (R124). -/
def execRtcAlarm (s : State) : Host.Outcome State Fault Refusal := effect rtcAlarm s

/-- AON_CYCLE (R124). -/
def execAonCycle (s : State) : Host.Outcome State Fault Refusal := effect aonCycle s

end Sys2Proof.Machine
end

