-- ==== Sys2Proof/Machine/CmdYard.lean ====
section
/-! DEFINITION. The commands of the yard (chapter 5): accesses, atomics, region descriptors, tallies, semaphores, fences and
response timers. -/

namespace Sys2Proof.Machine

/-! ### Accesses -/

/-- A read as a command: one of this module, of another one, or of nothing (R45). -/
def memGet (w : Who) (a : Nat) (op : FarOp) (here : Dev → Dev) (d : Dev) : Dev :=
  let acc : Access := { who := w, cmp := cmpOf d w, unit := w.unitId }
  match toward d w a with
  | .here => here d
  | .far m => farAsk w acc.cmp (tagOf d w.unitId) m a op .plain false d
  | .nowhere => answer w (.refused .noRegion) (decodeError acc a d)

/-- A posted write as a command: into this module, to another one, or nowhere (R45). -/
def memPut (w : Who) (a : Nat) (bs : List Byte) (here : Dev → Dev) (d : Dev) : Dev :=
  let acc : Access := { who := w, cmp := cmpOf d w, write := true, unit := w.unitId }
  match toward d w a with
  | .here => here d
  | .far _ => farWrite acc (tagOf d w.unitId) (serialOf d w.unitId) a bs d
  | .nowhere =>
    launch ⟨w, acc.cmp, tagOf d w.unitId, serialOf d w.unitId, a, true, .failed .noRegion, tick d, false⟩ (decodeError acc a d)

/-- A turntable read as a command. -/
def yardGet (w : Who) (a : Nat) (m : TtMode) (n e stride : Nat) (m0 : Mishap) (upset : BitVec 39) (d : Dev) : Dev :=
  if !ttShape w m n e stride then d
  else memGet w a (.turn a m n e stride) (yardReadCmd w (a % 2 ^ 46) m n e stride m0 upset) d

/-- YARD_READ (R142): `cells` cells at an address, in a turntable mode with its element size and stride; what
befalls the request on its way, and the stored bits of the first cell that have flipped. -/
def execYardRead (who : Who) (addr : Addr) (mode : TtMode) (cells : Fin 33) (elem : Fin 33) (stride : BitVec 16)
    (mishap : Mishap) (upset : BitVec 39) (s : State) : Host.Outcome State Fault Refusal :=
  effect (yardGet who addr.toNat mode cells.val elem.val stride.toNat mishap upset) s

/-- YARD_WRITE (R165): bytes at an address; what befalls it on its way, whether its data fails parity, and how often a
full ring buffer refused its flits. -/
def execYardWrite (who : Who) (addr : Addr) (bytes : List Byte) (mishap : Mishap) (parity : Bool) (rounds : BitVec 16)
    (s : State) : Host.Outcome State Fault Refusal :=
  effect (memPut who addr.toNat bytes (yardWriteCmd who (addr.toNat % 2 ^ 46) bytes mishap parity rounds.toNat)) s

/-- POSTED_WRITE_ACK (R165). -/
def execPostedWriteAck (who : Who) (s : State) : Host.Outcome State Fault Refusal := effect (ackCmd who) s

/-- A failure notice reaches its initiator. -/
def noticeReaches (who : Who) (d : Dev) : Dev :=
  match who with
  | .host f => hostWriteFailed f d
  | w => noticeCmd w d

/-- FAILURE_NOTICE (R168): a host function's notice goes to the endpoint (R514). -/
def execFailureNotice (who : Who) (s : State) : Host.Outcome State Fault Refusal :=
  effect (noticeReaches who) s

/-! ### Atomics (R135, R219): instructions of a core -/

/-- An atomic on 32 or 64 bits; what befalls it on its way. -/
def atomic (op : AmoOp) (core : Fin 68) (rd ra rb : Fin 32) (wide : Bool) (m : Mishap) (d : Dev) : Dev :=
  issue core.val 4 (fun d => amoOp core.val op rd.val ra.val rb.val wide (onWay m d)) d

/-- AMO_ADD. -/
def execAmoAdd (core : Fin 68) (rd ra rb : Fin 32) (wide : Bool) (mishap : Mishap) (s : State) :
    Host.Outcome State Fault Refusal :=
  effect (atomic .add core rd ra rb wide mishap) s

/-- AMO_AND. -/
def execAmoAnd (core : Fin 68) (rd ra rb : Fin 32) (wide : Bool) (mishap : Mishap) (s : State) :
    Host.Outcome State Fault Refusal :=
  effect (atomic .and core rd ra rb wide mishap) s

/-- AMO_OR. -/
def execAmoOr (core : Fin 68) (rd ra rb : Fin 32) (wide : Bool) (mishap : Mishap) (s : State) :
    Host.Outcome State Fault Refusal :=
  effect (atomic .or core rd ra rb wide mishap) s

/-- AMO_SWAP. -/
def execAmoSwap (core : Fin 68) (rd ra rb : Fin 32) (wide : Bool) (mishap : Mishap) (s : State) :
    Host.Outcome State Fault Refusal :=
  effect (atomic .swap core rd ra rb wide mishap) s

/-- AMO_CAS. -/
def execAmoCas (core : Fin 68) (rd ra rb : Fin 32) (wide : Bool) (mishap : Mishap) (s : State) :
    Host.Outcome State Fault Refusal :=
  effect (atomic .cas core rd ra rb wide mishap) s

/-- AMO_MIN. -/
def execAmoMin (core : Fin 68) (rd ra rb : Fin 32) (wide : Bool) (mishap : Mishap) (s : State) :
    Host.Outcome State Fault Refusal :=
  effect (atomic .min core rd ra rb wide mishap) s

/-- AMO_MAX. -/
def execAmoMax (core : Fin 68) (rd ra rb : Fin 32) (wide : Bool) (mishap : Mishap) (s : State) :
    Host.Outcome State Fault Refusal :=
  effect (atomic .max core rd ra rb wide mishap) s

/-- AMO_MINU. -/
def execAmoMinu (core : Fin 68) (rd ra rb : Fin 32) (wide : Bool) (mishap : Mishap) (s : State) :
    Host.Outcome State Fault Refusal :=
  effect (atomic .minu core rd ra rb wide mishap) s

/-- AMO_MAXU. -/
def execAmoMaxu (core : Fin 68) (rd ra rb : Fin 32) (wide : Bool) (mishap : Mishap) (s : State) :
    Host.Outcome State Fault Refusal :=
  effect (atomic .maxu core rd ra rb wide mishap) s

/-! ### Region descriptors (R138 to R141): writes of DESC_CMD -/

/-- A write of DESC_CMD of a cluster, with a command code. -/
def descReg (who : Who) (cluster : Fin 64) (code : Nat) (d : Dev) : Dev := regCmd who (kY cluster.val 0 0x048) code d

/-- DESC_READ. -/
def execDescRead (who : Who) (cluster : Fin 64) (s : State) : Host.Outcome State Fault Refusal := effect (descReg who cluster 0) s

/-- DESC_COMMIT. -/
def execDescCommit (who : Who) (cluster : Fin 64) (s : State) : Host.Outcome State Fault Refusal :=
  effect (descReg who cluster 1) s

/-- DESC_RELEASE. -/
def execDescRelease (who : Who) (cluster : Fin 64) (s : State) : Host.Outcome State Fault Refusal :=
  effect (descReg who cluster 2) s

/-- DESC_MODIFY. -/
def execDescModify (who : Who) (cluster : Fin 64) (s : State) : Host.Outcome State Fault Refusal :=
  effect (descReg who cluster 3) s

/-- SWEEP_DONE (R170): the sweep of a region ends. -/
def execSweepDone (region : BitVec 14) (s : State) : Host.Outcome State Fault Refusal := effect (fun d => bootReleased (sweepDone region.toNat d)) s

/-! ### Tallies -/

/-- TALLY_INCREMENT (R154). -/
def execTallyIncrement (mishap : Mishap) (s : State) : Host.Outcome State Fault Refusal :=
  effect (fun d => tallyIncrement (onWay mishap d)) s

/-- TALLY_REARM (R156): a write of TALLY_REARM. -/
def execTallyRearm (who : Who) (cluster : Fin 64) (s : State) : Host.Outcome State Fault Refusal :=
  effect (regCmd who (kY cluster.val 1 0x050) 1) s

/-- TALLY_WATCH_REGISTER (R157): a watch request reaches its cluster. -/
def execTallyWatchRegister (tally thresh : BitVec 16) (waiter : WatchFor) (s : State) : Host.Outcome State Fault Refusal :=
  effect (watchRegister ⟨tally.toNat, thresh.toNat, waiter⟩) s

/-! ### Semaphores (R159): instructions of a core, and registers -/

/-- A semaphore instruction, with what befalls its request on the way. -/
def semInstr (op : SemOp) (core : Fin 68) (rd ra rb : Fin 32) (count : BitVec 8) (m : Mishap) (d : Dev) : Dev :=
  issue core.val 4 (fun d => semOp core.val op rd.val ra.val rb.val count.toNat (onWay m d)) d

/-- SEM_SIGNAL. -/
def execSemSignal (core : Fin 68) (rd ra rb : Fin 32) (count : BitVec 8) (mishap : Mishap) (s : State) :
    Host.Outcome State Fault Refusal :=
  effect (semInstr .signal core rd ra rb count mishap) s

/-- SEM_WAIT. -/
def execSemWait (core : Fin 68) (rd ra rb : Fin 32) (count : BitVec 8) (mishap : Mishap) (s : State) :
    Host.Outcome State Fault Refusal :=
  effect (semInstr .wait core rd ra rb count mishap) s

/-- SEM_ACQUIRE. -/
def execSemAcquire (core : Fin 68) (rd ra rb : Fin 32) (count : BitVec 8) (mishap : Mishap) (s : State) :
    Host.Outcome State Fault Refusal :=
  effect (semInstr .acquire core rd ra rb count mishap) s

/-- SEM_RELEASE. -/
def execSemRelease (core : Fin 68) (rd ra rb : Fin 32) (count : BitVec 8) (mishap : Mishap) (s : State) :
    Host.Outcome State Fault Refusal :=
  effect (semInstr .release core rd ra rb count mishap) s

/-- SEM_TIMEOUT (R159): the timeout of a holder's queued request; holders of other modules stand from 128 on, 128 for each
module. -/
def execSemTimeout (holder : Fin 640) (s : State) : Host.Outcome State Fault Refusal := effect (semTimeout holder.val) s

/-- The key of a word of SEM[k]. -/
def semKey (cluster : Fin 64) (k : Fin 256) (hi : Bool) : Nat := kY cluster.val 2 (0x800 + 8 * k.val + 4 * b2n hi)

/-- SEM_KIND_WRITE (R164): a write of the high word of SEM[k], with KIND and OWNER. -/
def execSemKindWrite (who : Who) (cluster : Fin 64) (sem : Fin 256) (value : W32) (s : State) : Host.Outcome State Fault Refusal :=
  effect (regCmd who (semKey cluster sem true) value.toNat) s

/-- SEM_VALUE_WRITE (R164): a write of the low word of SEM[k]. -/
def execSemValueWrite (who : Who) (cluster : Fin 64) (sem : Fin 256) (value : W32) (s : State) : Host.Outcome State Fault Refusal :=
  effect (regCmd who (semKey cluster sem false) value.toNat) s

/-- LOCK_REAP (R162): the broadcast for a holder reaches a cluster. -/
def execLockReap (holder : Fin 68) (cluster : Fin 64) (mishap : Mishap) (s : State) : Host.Outcome State Fault Refusal :=
  effect (fun d => lockReap holder.val cluster.val (onWay mishap d)) s

/-- LOCK_REAP_DONE (R162). -/
def execLockReapDone (holder : Fin 68) (s : State) : Host.Outcome State Fault Refusal := effect (lockReapDone holder.val) s

/-! ### Fences and response timers -/

/-- FENCE (R166). -/
def execFence (core : Fin 68) (rd : Fin 32) (s : State) : Host.Outcome State Fault Refusal :=
  effect (issue core.val 4 (fenceOp core.val rd.val)) s

/-- RSP_TIMEOUT (R183): of the oldest access of a requester whose timer has expired. `beyond` says that a port of another module
has lost it (R524, R528, log entry 178). -/
def execRspTimeout (who : Who) (beyond : Bool) (s : State) : Host.Outcome State Fault Refusal := effect (rspTimeout who beyond) s

/-- LATE_RSP (R183). -/
def execLateRsp (who : Who) (s : State) : Host.Outcome State Fault Refusal := effect (lateRspCmd who) s

end Sys2Proof.Machine
end

