-- ==== Sys2Proof/Machine/CmdNet.lean ====
section
/-! DEFINITION. The commands of the turnpike and of the memory stacks (chapter 6). -/

namespace Sys2Proof.Machine

/-! ### Routes and links (R188 to R190, R470) -/

/-- EPOCH_CMD (R189): a write of EPOCH_CMD. -/
def execEpochCmd (who : Who) (s : State) : Host.Outcome State Fault Refusal := effect (regCmd who (kT 1 0x048) 1) s

/-- EPOCH_SWITCH_DONE (R189). -/
def execEpochSwitchDone (s : State) : Host.Outcome State Fault Refusal := effect epochSwitchDone s

/-- EPOCH_SLOW (R189). -/
def execEpochSlow (s : State) : Host.Outcome State Fault Refusal := effect epochSlow s

/-- ROUTE_DATA_WRITE (R188). -/
def execRouteDataWrite (who : Who) (value : W32) (s : State) : Host.Outcome State Fault Refusal :=
  effect (regCmd who (kT 1 0x044) value.toNat) s

/-- LINK_STABLE (R190): LINK_CMD with code 1, on the selected link. -/
def execLinkStable (who : Who) (s : State) : Host.Outcome State Fault Refusal := effect (regCmd who (kT 1 0x054) 1) s

/-- LINK_PROBATION (R470): LINK_CMD with code 2. -/
def execLinkProbation (who : Who) (s : State) : Host.Outcome State Fault Refusal := effect (regCmd who (kT 1 0x054) 2) s

/-! ### Stacks -/

/-- STACK_READ (R203): bytes at an address; what befalls the request on its way, stored bits of the first line that have
flipped, command parity failures, and corrections inside the die. -/
def execStackRead (who : Who) (addr : Addr) (len : Fin 4097) (bar4 : Bool) (mishap : Mishap) (upset : BitVec 576)
    (parity : Fin 4) (die : BitVec 8) (s : State) : Host.Outcome State Fault Refusal :=
  let a := addr.toNat
  effect (memGet who a (.read a len.val false)
    (stackReadCmd who (a % 2 ^ 46) len.val bar4 mishap upset parity.val die.toNat)) s

/-- STACK_WRITE (R201): bytes at an address; what befalls it on its way, whether its data fails parity, and command parity
failures. -/
def execStackWrite (who : Who) (addr : Addr) (bytes : List Byte) (mishap : Mishap) (damaged : Bool) (parity : Fin 4)
    (s : State) : Host.Outcome State Fault Refusal :=
  effect (memPut who addr.toNat bytes (stackWriteCmd who (addr.toNat % 2 ^ 46) bytes mishap damaged parity.val)) s

/-- STACK_TEMP_READ (R205): the reading in 1/16 °C. -/
def execStackTempRead (stack : Fin 4) (value : BitVec 16) (s : State) : Host.Outcome State Fault Refusal :=
  effect (stackTemp stack.val value) s

/-- STACK_TRAINING_DONE (R211). -/
def execStackTrainingDone (stack : Fin 4) (ok : Bool) (s : State) : Host.Outcome State Fault Refusal :=
  effect (trainingDone stack.val ok) s

/-- STACK_RECAL_DONE (R207). -/
def execStackRecalDone (stack : Fin 4) (s : State) : Host.Outcome State Fault Refusal := effect (recalDone stack.val) s

/-- RECAL_WINDOW (R488). -/
def execRecalWindow (stack : Fin 4) (channel : Fin 16) (s : State) : Host.Outcome State Fault Refusal :=
  effect (recalWindow stack.val channel.val) s

/-- RECAL_CHANNEL_DONE (R206): how often the recalibration failed. -/
def execRecalChannelDone (stack : Fin 4) (failures : Fin 3) (s : State) : Host.Outcome State Fault Refusal :=
  effect (recalChannelDone stack.val failures.val) s

/-- STACK_REFRESH (R203). -/
def execStackRefresh (stack : Fin 4) (channel : Fin 32) (bank : Fin 32) (s : State) : Host.Outcome State Fault Refusal :=
  effect (stackRefresh stack.val channel.val bank.val) s

/-- PATROL_READ (R208): stored bits of the line that have flipped. -/
def execPatrolRead (stack : Fin 4) (upset : BitVec 576) (s : State) : Host.Outcome State Fault Refusal :=
  effect (patrolRead stack.val upset) s

/-- PATROL_DEBT_TICK (R483). -/
def execPatrolDebtTick (s : State) : Host.Outcome State Fault Refusal := effect patrolDebt s

/-- PC_CMD_STABLE (R210): PC_CMD with its command bit and a pseudo-channel. -/
def execPcCmdStable (who : Who) (stack : Fin 4) (channel : Fin 32) (s : State) : Host.Outcome State Fault Refusal :=
  effect (onPage T.STK stack.val 0 (regCmd who (kS stack.val 0 0x04C) (256 + channel.val))) s

/-- MIGRATE_DONE (R210): so many further lines are on the spares, or all that are left. -/
def execMigrateDone (stack : Fin 4) (lines : Option (BitVec 24)) (s : State) : Host.Outcome State Fault Refusal :=
  effect (migrateDone stack.val (lines.map BitVec.toNat)) s

/-- SPARE_EN_WRITE (R209). -/
def execSpareEnWrite (who : Who) (on : Bool) (s : State) : Host.Outcome State Fault Refusal :=
  effect (regCmd who (kS 0 0 0x050) (b2n on * 2 ^ 31)) s

end Sys2Proof.Machine
end

