-- ==== Sys2Proof/Machine/CmdCore.lean ====
section
/-! DEFINITION. The commands of coaches and control cores (chapter 7): an instruction is issued by a core when the core
runs; the frames and the fetch queue hold the word at its PC. -/

namespace Sys2Proof.Machine

/-- WAYBILL_START (R214). -/
def execWaybillStart (core : Fin 68) (s : State) : Host.Outcome State Fault Refusal := effect (waybillStart core.val) s

/-- A stored local RAM cell that a load reads has bits flipped (R440). -/
def loadUpset (h ra : Nat) (imm : BitVec 16) (upset : BitVec 39) (d : Dev) : Dev :=
  let a := dataAddr ((getCore d h).sReg ra).1 imm
  match regionOf (a % 2 ^ 46) with
  | .lram o => if isLocal d a && upset ≠ 0 then upsetLram o upset d else d
  | _ => d

/-- Coaches have vector, matrix and stream units; a control core raises ILLEGAL (R219). -/
def coachInstr (core : Fin 68) (f : Nat → Dev → CoreOut × Dev) (d : Dev) : Dev := issue core.val 4 (f core.val) d

/-! ### Scalar instructions -/

/-- SCALAR_ALU (R219, R221): the operation that func selects. -/
def execScalarAlu (core : Fin 68) (rd ra rb : Fin 32) (func : Fin 2048) (s : State) : Host.Outcome State Fault Refusal :=
  effect (issue core.val 4 (scalarAlu core.val rd.val ra.val rb.val func.val)) s

/-- SCALAR_IMMEDIATE (R219). -/
def execScalarImmediate (core : Fin 68) (op : ImmOp) (rd ra : Fin 32) (imm : BitVec 16) (s : State) :
    Host.Outcome State Fault Refusal :=
  effect (issue core.val 4 (scalarImm core.val op rd.val ra.val imm)) s

/-- LUI (R219). -/
def execLui (core : Fin 68) (rd : Fin 32) (imm : BitVec 16) (s : State) : Host.Outcome State Fault Refusal :=
  effect (issue core.val 4 (lui core.val rd.val imm)) s

/-- LOAD of 2^size bytes (R219); what befalls its request on its way, and stored bits that have flipped. -/
def execLoad (core : Fin 68) (rd ra : Fin 32) (size : Fin 4) (imm : BitVec 16) (mishap : Mishap) (upset : BitVec 39)
    (s : State) : Host.Outcome State Fault Refusal :=
  effect (issue core.val 4 (fun d =>
    loadOp core.val rd.val ra.val size.val imm (onWay mishap (loadUpset core.val ra.val imm upset d)))) s

/-- STORE of 2^size bytes (R219); what befalls it on its way. -/
def execStore (core : Fin 68) (rd ra : Fin 32) (size : Fin 4) (imm : BitVec 16) (mishap : Mishap) (s : State) :
    Host.Outcome State Fault Refusal :=
  effect (issue core.val 4 (fun d => storeOp core.val rd.val ra.val size.val imm (onWay mishap d))) s

/-- BRANCH (R219). -/
def execBranch (core : Fin 68) (op : BranchOp) (ra rb : Fin 32) (off : BitVec 16) (s : State) :
    Host.Outcome State Fault Refusal :=
  effect (issue core.val 4 (branchTo core.val op ra.val rb.val off)) s

/-- JAL (R219). -/
def execJal (core : Fin 68) (off : BitVec 26) (s : State) : Host.Outcome State Fault Refusal :=
  effect (issue core.val 4 (jal core.val off)) s

/-- JALR (R219). -/
def execJalr (core : Fin 68) (rd ra : Fin 32) (imm : BitVec 16) (s : State) : Host.Outcome State Fault Refusal :=
  effect (issue core.val 4 (jalr core.val rd.val ra.val imm)) s

/-- LOOP (R220). -/
def execLoop (core : Fin 68) (ra : Fin 32) (off : BitVec 16) (s : State) : Host.Outcome State Fault Refusal :=
  effect (issue core.val 4 (loopOp core.val ra.val off)) s

/-- LI (R219), an instruction of eight bytes. -/
def execLi (core : Fin 68) (rd : Fin 32) (imm : W32) (s : State) : Host.Outcome State Fault Refusal :=
  effect (issue core.val 8 (li core.val rd.val imm)) s

/-- LIH (R219), an instruction of eight bytes. -/
def execLih (core : Fin 68) (rd : Fin 32) (imm : W32) (s : State) : Host.Outcome State Fault Refusal :=
  effect (issue core.val 8 (lih core.val rd.val imm)) s

/-! ### Vector instructions (R218 to R224) -/

/-- VECTOR_INTEGER (R221). -/
def execVectorInteger (core : Fin 68) (elem : Elem) (op : VIntOp) (vd va vb : Fin 32) (p : Fin 8) (pz : Bool) (s : State) :
    Host.Outcome State Fault Refusal :=
  effect (coachInstr core (fun h => vectorInt h elem op vd.val va.val vb.val p.val pz)) s

/-- VECTOR_FLOAT (R222). -/
def execVectorFloat (core : Fin 68) (elem : Elem) (op : VFltOp) (vd va vb : Fin 32) (p : Fin 8) (pz : Bool) (s : State) :
    Host.Outcome State Fault Refusal :=
  effect (coachInstr core (fun h => vectorFloat h elem op vd.val va.val vb.val p.val pz)) s

/-- VECTOR_COMPARE (R223). -/
def execVectorCompare (core : Fin 68) (elem : Elem) (op : VCmpOp) (vd va vb : Fin 32) (p : Fin 8) (pz : Bool) (s : State) :
    Host.Outcome State Fault Refusal :=
  effect (coachInstr core (fun h => vectorCompare h elem op vd.val va.val vb.val p.val pz)) s

/-- VECTOR_PERMUTE (R219). -/
def execVectorPermute (core : Fin 68) (elem : Elem) (op : VPermOp) (vd va vb : Fin 32) (p : Fin 8) (pz : Bool) (s : State) :
    Host.Outcome State Fault Refusal :=
  effect (coachInstr core (fun h => vectorPermute h elem op vd.val va.val vb.val p.val pz)) s

/-- VECTOR_CONVERT (R224). -/
def execVectorConvert (core : Fin 68) (src dst : ConvType) (vd va : Fin 32) (p : Fin 8) (pz : Bool) (s : State) :
    Host.Outcome State Fault Refusal :=
  effect (coachInstr core (fun h => vectorConvert h src dst vd.val va.val p.val pz)) s

/-- VECTOR_MOVE (R219). -/
def execVectorMove (core : Fin 68) (op : VMovOp) (vd va vb : Fin 32) (p : Fin 8) (pz : Bool) (s : State) :
    Host.Outcome State Fault Refusal :=
  effect (coachInstr core (fun h => vectorMove h op vd.val va.val vb.val p.val pz)) s

/-! ### Matrix instructions (R226 to R231) -/

/-- MMA (R226). -/
def execMma (core : Fin 68) (fmt : Fin 16) (ad : Fin 8) (va sa : Fin 32) (wb : Fin 2) (sp z : Bool) (s : State) :
    Host.Outcome State Fault Refusal :=
  effect (coachInstr core (fun h => mma h fmt.val ad.val va.val sa.val wb.val sp z)) s

/-- MRD (R230). -/
def execMrd (core : Fin 68) (vd : Fin 32) (ad : Fin 8) (row : Fin 32) (s : State) : Host.Outcome State Fault Refusal :=
  effect (coachInstr core (fun h => mrd h vd.val ad.val row.val)) s

/-- MWR (R230). -/
def execMwr (core : Fin 68) (fmt : Fin 16) (ad : Fin 8) (row va : Fin 32) (s : State) : Host.Outcome State Fault Refusal :=
  effect (coachInstr core (fun h => mwr h fmt.val ad.val row.val va.val)) s

/-- MCLR (R230). -/
def execMclr (core : Fin 68) (fmt : Fin 16) (ad : Fin 8) (s : State) : Host.Outcome State Fault Refusal :=
  effect (coachInstr core (fun h => mclr h fmt.val ad.val)) s

/-- WBWAIT (R231). -/
def execWbwait (core : Fin 68) (wb : Fin 2) (s : State) : Host.Outcome State Fault Refusal :=
  effect (coachInstr core (fun h => wbwait h wb.val)) s

/-! ### Stream instructions (R231 to R234): `mishap` befalls the first packet that the streams send -/

/-- VLD (R234). -/
def execVld (core : Fin 68) (vd : Fin 32) (stream : Fin 8) (mishap : Mishap) (s : State) : Host.Outcome State Fault Refusal :=
  effect (coachInstr core (fun h d => vld h vd.val stream.val (onWay mishap d))) s

/-- VST (R234). -/
def execVst (core : Fin 68) (stream : Fin 8) (va : Fin 32) (mishap : Mishap) (s : State) : Host.Outcome State Fault Refusal :=
  effect (coachInstr core (fun h d => vst h stream.val va.val (onWay mishap d))) s

/-- STCFG (R232). -/
def execStcfg (core : Fin 68) (stream : Fin 8) (ra : Fin 32) (s : State) : Host.Outcome State Fault Refusal :=
  effect (coachInstr core (fun h => stcfg h stream.val ra.val)) s

/-- STSTART (R233). -/
def execStstart (core : Fin 68) (stream : Fin 8) (mishap : Mishap) (s : State) : Host.Outcome State Fault Refusal :=
  effect (coachInstr core (fun h d => ststart h stream.val (onWay mishap d))) s

/-- STSTOP (R219). -/
def execStstop (core : Fin 68) (stream : Fin 8) (s : State) : Host.Outcome State Fault Refusal :=
  effect (coachInstr core (fun h => ststop h stream.val)) s

/-- STWAIT (R219). -/
def execStwait (core : Fin 68) (stream : Fin 8) (mishap : Mishap) (s : State) : Host.Outcome State Fault Refusal :=
  effect (coachInstr core (fun h d => stwait h stream.val (onWay mishap d))) s

/-- STSTAT (R219): the status of any stream is a free value (log entry 86). -/
def execStstat (core : Fin 68) (rd : Fin 32) (stream : Fin 8) (s : State) : Host.Outcome State Fault Refusal :=
  effect (coachInstr core (fun h => ststat h stream.val rd.val)) s

/-- STREAM_COMPLETE (R231): a stream of a coach finishes its transfer. -/
def execStreamComplete (core : Fin 64) (stream : Fin 8) (mishap : Mishap) (s : State) : Host.Outcome State Fault Refusal :=
  effect (fun d => streamComplete core.val stream.val (onWay mishap d)) s

/-! ### Tallies, queues, CSRs and system instructions -/

/-- TWAIT (R238). -/
def execTwait (core : Fin 68) (rd ra rb : Fin 32) (s : State) : Host.Outcome State Fault Refusal :=
  effect (twait core.val rd.val ra.val rb.val) s

/-- TWAIT_TIMEOUT (R238). -/
def execTwaitTimeout (core : Fin 68) (s : State) : Host.Outcome State Fault Refusal := effect (twaitTimeout core.val) s

/-- TREARM (R156). -/
def execTrearm (core : Fin 68) (ra : Fin 32) (s : State) : Host.Outcome State Fault Refusal :=
  effect (issue core.val 4 (trearm core.val ra.val)) s

/-- ENQ (R237). -/
def execEnq (core : Fin 68) (rd ra rb : Fin 32) (s : State) : Host.Outcome State Fault Refusal :=
  effect (issue core.val 4 (enqOp core.val rd.val ra.val rb.val)) s

/-- CSRR (R219, R254). -/
def execCsrr (core : Fin 68) (rd : Fin 32) (csr : Fin 1024) (s : State) : Host.Outcome State Fault Refusal :=
  effect (issue core.val 4 (csrRead core.val rd.val csr.val)) s

/-- CSRW (R219, R254). -/
def execCsrw (core : Fin 68) (ra : Fin 32) (csr : Fin 1024) (s : State) : Host.Outcome State Fault Refusal :=
  effect (issue core.val 4 (csrWrite core.val ra.val csr.val)) s

/-- SCSRR (R217). -/
def execScsrr (core : Fin 68) (rd : Fin 32) (csr : Fin 1024) (s : State) : Host.Outcome State Fault Refusal :=
  effect (issue core.val 4 (superOnly core.val (csrRead core.val rd.val csr.val))) s

/-- SCSRW (R217). -/
def execScsrw (core : Fin 68) (ra : Fin 32) (csr : Fin 1024) (s : State) : Host.Outcome State Fault Refusal :=
  effect (issue core.val 4 (superOnly core.val (csrWrite core.val ra.val csr.val))) s

/-- TRAP (R241). -/
def execTrap (core : Fin 68) (code : Fin 32) (s : State) : Host.Outcome State Fault Refusal :=
  effect (issue core.val 4 (trapOp code.val)) s

/-- BRK (R241). -/
def execBrk (core : Fin 68) (s : State) : Host.Outcome State Fault Refusal := effect (brk core.val) s

/-- XRET (R245). -/
def execXret (core : Fin 68) (s : State) : Host.Outcome State Fault Refusal :=
  effect (issue core.val 4 (xretOp core.val false)) s

/-- DONE (R239). -/
def execDone (core : Fin 68) (s : State) : Host.Outcome State Fault Refusal := effect (issue core.val 4 (doneOp)) s

/-- ABORT (R239). -/
def execAbort (core : Fin 68) (rb : Fin 32) (s : State) : Host.Outcome State Fault Refusal :=
  effect (issue core.val 4 (abortOp core.val rb.val)) s

/-- SBRD (R248). -/
def execSbrd (core : Fin 68) (rd ra : Fin 32) (word : Fin 8) (s : State) : Host.Outcome State Fault Refusal :=
  effect (issue core.val 4 (sbrdOp core.val rd.val ra.val word.val)) s

/-- SRET (R219, R254). -/
def execSret (core : Fin 68) (s : State) : Host.Outcome State Fault Refusal := effect (issue core.val 4 (sretOp core.val)) s

/-- WFI (R254). -/
def execWfi (core : Fin 68) (s : State) : Host.Outcome State Fault Refusal := effect (issue core.val 4 (wfiOp core.val)) s

/-! ### Events of a core -/

/-- ACCESS_IMPRECISE (R242): the pending fault is taken at an instruction boundary. -/
def execAccessImprecise (core : Fin 68) (s : State) : Host.Outcome State Fault Refusal := effect (imprecise core.val) s

/-- INTERRUPT (R254) of a control core. -/
def execInterrupt (core : Fin 4) (s : State) : Host.Outcome State Fault Refusal := effect (interrupt (64 + core.val)) s

/-- DBG_HALT_REQ (R591): a write of DBG_CTRL. -/
def execDbgHaltReq (who : Who) (core : Fin 68) (value : Fin 8) (s : State) : Host.Outcome State Fault Refusal :=
  effect (regCmd who (kDbg core.val) value.val) s

/-- DBG_STEP (R591): a write of DBG_CTRL with STEP, the other fields as they stand. -/
def execDbgStep (who : Who) (core : Fin 68) (s : State) : Host.Outcome State Fault Refusal :=
  effect (regSetBit who (kDbg core.val) 1) s

/-- LRAM_CLEAR (R252). -/
def execLramClear (who : Who) (core : Fin 4) (s : State) : Host.Outcome State Fault Refusal :=
  effect (regCmd who (rk T.CTL core.val 1 0x058) 1) s

/-- LRAM_CLEAR_DONE (R252). -/
def execLramClearDone (core : Fin 4) (s : State) : Host.Outcome State Fault Refusal := effect (lramCleared core.val) s

end Sys2Proof.Machine
end

