-- ==== Sys2Proof/Machine/CmdDepot.lean ====
section
/-! DEFINITION. The commands of the depot (chapter 8) and of compartments (chapter 9). -/

namespace Sys2Proof.Machine

/-- A command of the depot: an injected error of its cached structures shows first (R295). -/
def depotDoes (f : Dev → Dev) (s : State) : Host.Outcome State Fault Refusal := effect (depotCheck f) s

/-- What the depot does by itself, when there is something to do: else it reads no structure. -/
def depotTurn (f : Dev → Dev) (d : Dev) : Dev := if f d = d then d else depotCheck f d

/-- A row of what the depot does by itself. -/
def depotActs (f : Dev → Dev) (s : State) : Host.Outcome State Fault Refusal := effect (depotTurn f) s

/-! ### Enqueue windows, records and completion queues -/

/-- A write of 64 bytes at offset 0 of an enqueue window; a host function writes through BAR2 (R263, R507). -/
def windowPut (who : Who) (q : Nat) (img : Image) (d : Dev) : Dev :=
  match who with
  | .host f => hostBar2 f q (some img) false .clear d
  | w => offerWindow w q img d

/-- ENQUEUE_WINDOW_WRITE (R263): the image, its first word in the lowest 64 bits. -/
def execEnqueueWindowWrite (who : Who) (queue : BitVec 16) (image : BitVec 512) (mishap : Mishap) (s : State) :
    Host.Outcome State Fault Refusal :=
  depotDoes (fun d => windowPut who queue.toNat (Image.ofBytes (leBytes 64 image.toNat)) (onWay mishap d)) s

/-- BRAKE_TIMEOUT (R263). -/
def execBrakeTimeout (s : State) : Host.Outcome State Fault Refusal := depotActs brakeTimeout s

/-- RECORD_TOKEN (R267): a TOKEN record comes to a queue. -/
def execRecordToken (who : Who) (queue : BitVec 16) (key : W32) (slot : Fin 4) (payload : W64) (void : Bool) (s : State) :
    Host.Outcome State Fault Refusal :=
  depotDoes (windowPut who queue.toNat (tokenImage key.toNat slot.val payload.toNat void)) s

/-- RECORD_DECREMENT (R267): a DECREMENT record comes to a queue. -/
def execRecordDecrement (who : Who) (queue : BitVec 16) (counter : BitVec 20) (n : BitVec 8) (void : Bool) (s : State) :
    Host.Outcome State Fault Refusal :=
  depotDoes (windowPut who queue.toNat (decrementImage counter.toNat n.toNat void)) s

/-- A write of a completion queue's HEAD; a host function writes through BAR2, where EP marks a poisoned write (R286, R507,
R508). -/
def headPut (who : Who) (q v : Nat) (ep : Bool) (d : Dev) : Dev :=
  match who with
  | .host f => hostHead f q v ep d
  | w => cqHead w q v d

/-- CQ_HEAD_WRITE (R286). -/
def execCqHeadWrite (who : Who) (queue : BitVec 16) (value : W64) (ep : Bool) (s : State) :
    Host.Outcome State Fault Refusal :=
  depotDoes (headPut who queue.toNat value.toNat ep) s

/-! ### Queue and counter commands (R262, R269): writes of QCMD and CTR_CMD -/

/-- A write of QCMD with a command code. -/
def queueReg (who : Who) (code : Nat) (d : Dev) : Dev := regCmd who (kD 1 0x044) code d

/-- QCMD_READ. -/
def execQcmdRead (who : Who) (s : State) : Host.Outcome State Fault Refusal := effect (queueReg who 0) s

/-- QCMD_COMMIT. -/
def execQcmdCommit (who : Who) (s : State) : Host.Outcome State Fault Refusal := effect (queueReg who 1) s

/-- QCMD_MODIFY. -/
def execQcmdModify (who : Who) (s : State) : Host.Outcome State Fault Refusal := effect (queueReg who 2) s

/-- QCMD_RELEASE. -/
def execQcmdRelease (who : Who) (s : State) : Host.Outcome State Fault Refusal := effect (queueReg who 3) s

/-- QCMD_PURGE. -/
def execQcmdPurge (who : Who) (s : State) : Host.Outcome State Fault Refusal := effect (queueReg who 4) s

/-- CTR_CLEAR (R269). -/
def execCtrClear (who : Who) (s : State) : Host.Outcome State Fault Refusal := effect (regCmd who (kD 2 0x050) 1) s

/-! ### What the depot does by itself -/

/-- TIMETABLE_FIRE (R274). -/
def execTimetableFire (s : State) : Host.Outcome State Fault Refusal := depotActs timetableFire s

/-- PLACEMENT (R278). -/
def execPlacement (mishap : Mishap) (s : State) : Host.Outcome State Fault Refusal :=
  depotActs (fun d => placement (onWay mishap d)) s

/-- SLOTTED_START (R280). -/
def execSlottedStart (unit : BitVec 8) (s : State) : Host.Outcome State Fault Refusal := depotActs (slottedStart unit.toNat) s

/-- The run of a unit ends and is reported, unless its compartment drains (R314). -/
def waybillEnds (u : Nat) (d : Dev) : Dev := match runOf d u with
  | some r => if (getCmp d r.cmp).draining then d else finishRun u d
  | none => d

/-- WAYBILL_END (R285): a unit reports the end of its waybill; the units of a compartment that is reset or killed report
with its later steps (R314). -/
def execWaybillEnd (unit : BitVec 8) (mishap : Mishap) (s : State) : Host.Outcome State Fault Refusal :=
  depotActs (fun d => waybillEnds unit.toNat (onWay mishap d)) s

/-- DISPATCH_EPOCH_BOUNDARY (R283). -/
def execDispatchEpochBoundary (s : State) : Host.Outcome State Fault Refusal := depotActs periodicBoundary s

/-- DPT_EPOCH_CMD (R283). -/
def execDptEpochCmd (who : Who) (s : State) : Host.Outcome State Fault Refusal := effect (regCmd who (kD 0 0x054) 1) s

/-- BACKING_RETRY (R296). -/
def execBackingRetry (mishap : Mishap) (s : State) : Host.Outcome State Fault Refusal :=
  depotActs (fun d => backingRetry (onWay mishap d)) s

/-- DUPLICATE_ABANDON (R281). -/
def execDuplicateAbandon (unit : BitVec 8) (s : State) : Host.Outcome State Fault Refusal :=
  depotActs (duplicateAbandon unit.toNat) s

/-- WATCH_RETRY (R273). -/
def execWatchRetry (s : State) : Host.Outcome State Fault Refusal := depotActs watchRetry s

/-! ### Compartments -/

/-- A write of CMP_CMD: a command code with a key. -/
def cmpReg (who : Who) (cmp : Fin 16) (key : BitVec 8) (code : Nat) (d : Dev) : Dev :=
  regCmd who (kC cmp.val 0x044) (key.toNat * 256 + code) d

/-- CMP_ACTIVATE (R313). -/
def execCmpActivate (who : Who) (cmp : Fin 16) (key : BitVec 8) (s : State) : Host.Outcome State Fault Refusal :=
  effect (cmpReg who cmp key 1) s

/-- CMP_RESET (R314). -/
def execCmpReset (who : Who) (cmp : Fin 16) (key : BitVec 8) (s : State) : Host.Outcome State Fault Refusal :=
  effect (cmpReg who cmp key 2) s

/-- CMP_KILL (R315). -/
def execCmpKill (who : Who) (cmp : Fin 16) (key : BitVec 8) (s : State) : Host.Outcome State Fault Refusal :=
  effect (cmpReg who cmp key 3) s

/-- CMP_DRAIN_DONE (R314, R315). -/
def execCmpDrainDone (cmp : Fin 16) (s : State) : Host.Outcome State Fault Refusal := effect (cmpDrainDone cmp.val) s

/-- STACK_WINDOW_ZEROED (R316): the window of a compartment that is zeroed first. -/
def execStackWindowZeroed (cmp : Fin 16) (s : State) : Host.Outcome State Fault Refusal := effect (windowZeroed cmp.val) s

/-- COACH_MASK_WRITE (R298): a write of 64 bits. -/
def execCoachMaskWrite (who : Who) (cmp : Fin 16) (value : W64) (s : State) : Host.Outcome State Fault Refusal :=
  effect (regPut who (kC cmp.val 0x050) 8 value.toNat) s

/-- OTHER_MASK_WRITE (R298). -/
def execOtherMaskWrite (who : Who) (cmp : Fin 16) (value : W32) (s : State) : Host.Outcome State Fault Refusal :=
  effect (regCmd who (kC cmp.val 0x058) value.toNat) s

/-- STKWIN_WRITE (R303): a write of 64 bits. -/
def execStkwinWrite (who : Who) (cmp : Fin 16) (window : Fin 8) (value : W64) (s : State) : Host.Outcome State Fault Refusal :=
  effect (regPut who (kC cmp.val (0x080 + 8 * window.val)) 8 value.toNat) s

/-- EVQ_WRITE (R309). -/
def execEvqWrite (who : Who) (cmp : Fin 16) (value : W32) (s : State) : Host.Outcome State Fault Refusal :=
  effect (regCmd who (kC cmp.val 0x070) value.toNat) s

/-- SHARE_PERIOD_END (R300). -/
def execSharePeriodEnd (s : State) : Host.Outcome State Fault Refusal := effect sharePeriodEnd s

end Sys2Proof.Machine
end

