-- ==== Sys2Proof/Machine/CmdIntake.lean ====
section
/-! DEFINITION. The commands of the camera intake (chapter 10): packets as they arrive, timers, and registers. `header` is 0 for a
good packet header, 1 for a corrected and 2 for an uncorrectable one; `mhz` is the byte clock that the port measures. -/

namespace Sys2Proof.Machine

/-- CSI_FRAME_START (R348). -/
def execCsiFrameStart (port : Fin 6) (vc : Fin 16) (number : BitVec 16) (header : Fin 3) (mhz : BitVec 16) (s : State) :
    Host.Outcome State Fault Refusal :=
  effect (overPins (csiFrameStart port.val vc.val number.toNat header.val mhz.toNat)) s

/-- CSI_FRAME_END (R351). -/
def execCsiFrameEnd (port : Fin 6) (vc : Fin 16) (header : Fin 3) (s : State) : Host.Outcome State Fault Refusal :=
  effect (overPins (csiFrameEnd port.val vc.val header.val)) s

/-- CSI_LINE_START (R355). -/
def execCsiLineStart (port : Fin 6) (vc : Fin 16) (line : BitVec 16) (header : Fin 3) (mhz : BitVec 16) (s : State) :
    Host.Outcome State Fault Refusal :=
  effect (overPins (csiLineStart port.val vc.val line.toNat header.val mhz.toNat)) s

/-- CSI_LINE_END (R353). -/
def execCsiLineEnd (port : Fin 6) (vc : Fin 16) (header : Fin 3) (s : State) : Host.Outcome State Fault Refusal :=
  effect (overPins (csiLineEnd port.val vc.val header.val)) s

/-- CSI_LONG_PACKET (R350): whether its CRC is right, whether the line buffer fails parity and whether its FIFO is full. -/
def execCsiLongPacket (port : Fin 6) (vc : Fin 16) (dt : Fin 64) (payload : List Byte) (crcOk : Bool) (header : Fin 3)
    (parity full : Bool) (mishap : Mishap) (s : State) :
    Host.Outcome State Fault Refusal :=
  effect (overPins (fun d => csiLongPacket port.val vc.val dt.val payload crcOk header.val parity full (onWay mishap d))) s

/-- CSI_DESKEW (R341). -/
def execCsiDeskew (port : Fin 6) (s : State) : Host.Outcome State Fault Refusal :=
  effect (overPins (csiDeskew port.val)) s

/-- LINE_TIMEOUT (R353): whether the byte clock is absent. -/
def execLineTimeout (port : Fin 6) (binding : Fin 4) (clockAbsent : Bool) (s : State) :
    Host.Outcome State Fault Refusal :=
  effect (lineTimeout port.val binding.val clockAbsent) s

/-- FRAME_CLOSE_DRAINED (R351). -/
def execFrameCloseDrained (port : Fin 6) (binding : Fin 4) (mishap : Mishap) (s : State) :
    Host.Outcome State Fault Refusal :=
  effect (fun d => closeDrained port.val binding.val (onWay mishap d)) s

/-- FRAME_RECORD_DONE (R351). -/
def execFrameRecordDone (port : Fin 6) (binding : Fin 4) (mishap : Mishap) (s : State) :
    Host.Outcome State Fault Refusal :=
  effect (fun d => recordDone port.val binding.val (onWay mishap d)) s

/-- STREAM_RELEASE (R348): a write of RELEASE bits. -/
def execStreamRelease (who : Who) (port : Fin 6) (binding : Fin 4) (buffers : Fin 16) (s : State) :
    Host.Outcome State Fault Refusal :=
  effect (regCmd who (kPort port.val (0x090 + 4 * binding.val)) buffers.val) s

/-- STREAM_REPLUG (R358): a write of REPLUG. -/
def execStreamReplug (who : Who) (port : Fin 6) (binding : Fin 4) (s : State) : Host.Outcome State Fault Refusal :=
  effect (regCmd who (kPort port.val (0x090 + 4 * binding.val)) 256) s

/-- BIND_ENABLE (R342): a write of the word with EN. -/
def execBindEnable (who : Who) (port : Fin 6) (binding : Fin 4) (value : W32) (s : State) :
    Host.Outcome State Fault Refusal :=
  effect (regCmd who (kBind port.val binding.val 0) value.toNat) s

/-- HOTPLUG_FALL (R357). -/
def execHotplugFall (port : Fin 6) (binding : Fin 4) (s : State) : Host.Outcome State Fault Refusal :=
  effect (hotplugFall port.val binding.val) s

/-- HOTPLUG_RISE (R358). -/
def execHotplugRise (port : Fin 6) (binding : Fin 4) (s : State) : Host.Outcome State Fault Refusal :=
  effect (hotplugRise port.val binding.val) s

/-- REPLUG_HOLD_EXPIRE (R358). -/
def execReplugHoldExpire (port : Fin 6) (binding : Fin 4) (s : State) : Host.Outcome State Fault Refusal :=
  effect (replugExpire port.val binding.val) s

/-- ABSENT_TICKS_EXPIRE (R359). -/
def execAbsentTicksExpire (port : Fin 6) (binding : Fin 4) (s : State) : Host.Outcome State Fault Refusal :=
  effect (absentExpire port.val binding.val) s

/-- FSYNC_ENABLE (R361): a write of FSYNC_CTRL. -/
def execFsyncEnable (who : Who) (output : Fin 6) (value : W32) (s : State) : Host.Outcome State Fault Refusal :=
  effect (regCmd who (kInk 0 (0x100 + 0x20 * output.val)) value.toNat) s

/-- FSYNC_WIDTH_EXPIRE (R361). -/
def execFsyncWidthExpire (output : Fin 6) (s : State) : Host.Outcome State Fault Refusal := effect (fsyncEnd output.val) s

end Sys2Proof.Machine
end

