-- ==== Sys2Proof/Machine/CmdEngine.lean ====
section
/-! DEFINITION. The commands of the vision engines (chapters 11 and 12). `parity` lists the elements read whose byte parity fails, and `mishap` is
what befalls the first packet of a job's step. -/

namespace Sys2Proof.Machine

/-- The unit id of an engine: pyramid, warp, stereo, flow and feature engines in order, two of each (R259). -/
def engineId (sub : Nat) (inst : Fin 2) : Nat := 0x48 + 2 * sub + inst.val

/-- ENGINE_JOB_START (R364). -/
def execEngineJobStart (engine : Fin 10) (mishap : Mishap) (s : State) : Host.Outcome State Fault Refusal :=
  effect (fun d => engineStart (0x48 + engine.val) (onWay mishap d)) s

/-- PYR_JOB (R372). -/
def execPyrJob (inst : Fin 2) (parity : List Nat) (mishap : Mishap) (s : State) : Host.Outcome State Fault Refusal :=
  effect (fun d => pyrRun (engineId 0 inst) parity (onWay mishap d)) s

/-- WRP_JOB (R375). -/
def execWrpJob (inst : Fin 2) (parity : List Nat) (mishap : Mishap) (s : State) : Host.Outcome State Fault Refusal :=
  effect (fun d => wrpRun (engineId 1 inst) parity (onWay mishap d)) s

/-- STR_JOB (R390). -/
def execStrJob (inst : Fin 2) (parity : List Nat) (mishap : Mishap) (s : State) : Host.Outcome State Fault Refusal :=
  effect (fun d => strRun (engineId 2 inst) parity (onWay mishap d)) s

/-- FLW_JOB (R398). -/
def execFlwJob (inst : Fin 2) (parity : List Nat) (mishap : Mishap) (s : State) : Host.Outcome State Fault Refusal :=
  effect (fun d => flwRun (engineId 3 inst) parity (onWay mishap d)) s

/-- FTR_DETECT (R403). -/
def execFtrDetect (inst : Fin 2) (parity : List Nat) (mishap : Mishap) (s : State) : Host.Outcome State Fault Refusal :=
  effect (fun d => detectRun (engineId 4 inst) parity (onWay mishap d)) s

/-- FTR_MATCH (R409). -/
def execFtrMatch (inst : Fin 2) (parity : List Nat) (mishap : Mishap) (s : State) : Host.Outcome State Fault Refusal :=
  effect (fun d => matchRun (engineId 4 inst) parity (onWay mishap d)) s

/-- ENGINE_JOB_END (R366). -/
def execEngineJobEnd (engine : Fin 10) (s : State) : Host.Outcome State Fault Refusal :=
  effect (jobEnd (0x48 + engine.val)) s

end Sys2Proof.Machine
end

