-- ==== Sys2Proof/Machine/CmdGraph.lean ====
section
/-! DEFINITION. The commands of the frame-graph sequencer (chapter 13). -/

namespace Sys2Proof.Machine

/-- A write of GRAPH_CMD, on the graph slot and address that the registers name (R411). -/
def graphReg (who : Who) (v : Nat) (d : Dev) : Dev := regCmd who (kF 0 0x04C) v d

/-- GRAPH_LOAD (R413). -/
def execGraphLoad (who : Who) (mishap : Mishap) (s : State) : Host.Outcome State Fault Refusal :=
  effect (fun d => graphReg who 1 (onWay mishap d)) s

/-- The code of START, with the slot that hands over (R414). -/
def startWord (handover : Option (Fin 64)) : Nat := 2 + (match handover with
  | some g => 2 ^ 22 + g.val * 65536
  | none => 0)

/-- GRAPH_START (R414): the slot that hands over, when there is one. -/
def execGraphStart (who : Who) (handover : Option (Fin 64)) (mishap : Mishap) (s : State) :
    Host.Outcome State Fault Refusal :=
  effect (fun d => graphReg who (startWord handover) (onWay mishap d)) s

/-- GRAPH_STOP (R411). -/
def execGraphStop (who : Who) (s : State) : Host.Outcome State Fault Refusal := effect (graphReg who 3) s

/-- GRAPH_UNLOAD (R411). -/
def execGraphUnload (who : Who) (s : State) : Host.Outcome State Fault Refusal := effect (graphReg who 4) s

/-- GRAPH_TRIGGER (R417). -/
def execGraphTrigger (who : Who) (s : State) : Host.Outcome State Fault Refusal := effect (graphReg who 5) s

/-- The oldest event on its way to the sequencer, when it is of the kind that arrives, reaches every graph that takes an
input from its stream. -/
def eventArrives (arrives : FgsEvent → Option (Nat → Nat → Dev → Dev)) (d : Dev) : Dev :=
  match d.fgs.events with
  | [] => d
  | e :: rest =>
    match arrives e with
    | none => d
    | some f => each (listeners d e.stream) (fun x d => f x.1 x.2 (useTable x.1 d)) { d with fgs := { d.fgs with events := rest } }

/-- FGS_FRAME_START (R417). -/
def execFgsFrameStart (s : State) : Host.Outcome State Fault Refusal :=
  effect (eventArrives (fun e => match e with
    | .start _ _ buf time _ degr => some (fun g k d => frameStart g k buf time degr d)
    | _ => none)) s

/-- FGS_FRAME_END (R420). -/
def execFgsFrameEnd (s : State) : Host.Outcome State Fault Refusal :=
  effect (eventArrives (fun e => match e with
    | .fin _ _ buf status record => some (fun g k d => frameEnd g k buf status record d)
    | _ => none)) s

/-- FGS_ABSENT_EVENT (R421). -/
def execFgsAbsentEvent (s : State) : Host.Outcome State Fault Refusal :=
  effect (eventArrives (fun e => match e with
    | .absent _ _ time _ degr => some (fun g k d => absentTicket g k time degr d)
    | _ => none)) s

/-- JOIN_WINDOW_EXPIRE (R419). -/
def execJoinWindowExpire (graph : Fin 64) (s : State) : Host.Outcome State Fault Refusal :=
  effect (joinExpire graph.val) s

/-- The oldest report of the depot is applied. -/
def reportArrives (d : Dev) : Dev := match d.fgs.reports with
  | [] => d
  | r :: rest => applyReport r { d with fgs := { d.fgs with reports := rest } }

/-- NODE_REPORT (R427). -/
def execNodeReport (s : State) : Host.Outcome State Fault Refusal := effect reportArrives s

/-- A ticket is abandoned at its deadline and grace, under the policy ABANDON (R430). -/
def abandonDue (g f : Nat) (d : Dev) : Dev :=
  let t := tableOf d g
  let fr := getFrame d g f
  if t.policy = 2 && fr.stage = .opened && decide (fr.time + t.deadline + t.grace ≤ tick d) then abandonFrame g f d else d

/-- ABANDON_DEADLINE (R430). -/
def execAbandonDeadline (graph : Fin 64) (frame : Fin 4) (s : State) : Host.Outcome State Fault Refusal :=
  effect (abandonDue graph.val frame.val) s

/-- The oldest finding of the integrity block is applied. -/
def findingArrives (d : Dev) : Dev := match d.fgs.findings with
  | [] => d
  | x :: rest => applyFinding x { d with fgs := { d.fgs with findings := rest } }

/-- SUSPECT_FINDING (R433). -/
def execSuspectFinding (s : State) : Host.Outcome State Fault Refusal := effect findingArrives s

/-- FGS_BACKING_RETRY (R436). -/
def execFgsBackingRetry (mishap : Mishap) (s : State) : Host.Outcome State Fault Refusal :=
  effect (fun d => graphRetry (onWay mishap d)) s

end Sys2Proof.Machine
end

