-- ==== Sys2Proof/Machine/CmdInt.lean ====
section
/-! DEFINITION. The commands of the integrity block, background services and telemetry (chapters 14 and 15). Operands are what a
check, a probe or a sensor finds. -/

namespace Sys2Proof.Machine

/-- SHADOW_END (R450). -/
def execShadowEnd (slot : Fin 256) (s : State) : Host.Outcome State Fault Refusal := effect (shadowEnd slot.val) s

/-- TIEBREAK_END (R451). -/
def execTiebreakEnd (slot : Fin 256) (s : State) : Host.Outcome State Fault Refusal := effect (tiebreakEnd slot.val) s

/-- GATE_WAIT_EXPIRE (R453). -/
def execGateWaitExpire (s : State) : Host.Outcome State Fault Refusal := effect gateExpire s

/-- LEDGER_WINDOW_END (R457): a ledger RAM word that has flipped bits, by its offset / 8, and whether it is
uncorrectable. -/
def execLedgerWindowEnd (upset : Option (Fin 8192 × Bool)) (s : State) : Host.Outcome State Fault Refusal :=
  effect (ledgerWindowEnd upset) s

/-- A write of DIG_CMD. -/
def digReg (who : Who) (code : Nat) (d : Dev) : Dev := regCmd who (kI 0 0x204) code d

/-- DIG_REGISTER (R463). -/
def execDigRegister (who : Who) (s : State) : Host.Outcome State Fault Refusal := effect (digReg who 1) s

/-- DIG_CHECK_NOW (R463). -/
def execDigCheckNow (who : Who) (s : State) : Host.Outcome State Fault Refusal := effect (digReg who 2) s

/-- DIG_REMOVE (R487). -/
def execDigRemove (who : Who) (s : State) : Host.Outcome State Fault Refusal := effect (digReg who 3) s

/-- DIGEST_CHECK_START (R485). -/
def execDigestCheckStart (s : State) : Host.Outcome State Fault Refusal := effect digestStart s

/-- DIGEST_CHECK_DONE (R462). -/
def execDigestCheckDone (mishap : Mishap) (s : State) : Host.Outcome State Fault Refusal :=
  effect (fun d => digestDone (onWay mishap d)) s

/-- XC_START (R464): a write of XC_CMD with START. -/
def execXcStart (who : Who) (rounds : BitVec 16) (formats : Fin 16) (s : State) : Host.Outcome State Fault Refusal :=
  effect (regCmd who (kI 0 0x100) (2 ^ 31 + formats.val * 65536 + rounds.toNat)) s

/-- XCHECK_ROUND_DONE (R465): the coaches whose result a fault has changed, and how. -/
def execXcheckRoundDone (odd : List (Fin 64 × W32)) (s : State) : Host.Outcome State Fault Refusal :=
  effect (xcRound odd) s

/-- PROBATION_TEST_DONE (R470). -/
def execProbationTestDone (code : BitVec 16) (pass : Bool) (s : State) : Host.Outcome State Fault Refusal :=
  effect (probeDone code.toNat pass) s

/-- SCORE_DECAY (R467). -/
def execScoreDecay (code : BitVec 16) (s : State) : Host.Outcome State Fault Refusal := effect (scoreDecay code.toNat) s

/-- RET_STATUS_READ (R477). -/
def execRetStatusRead (who : Who) (s : State) : Host.Outcome State Fault Refusal := effect (regGet who (kI 3 0x064) 4) s

/-- RET_DATA_READ (R477). -/
def execRetDataRead (who : Who) (s : State) : Host.Outcome State Fault Refusal := effect (regGet who (kI 3 0x068) 4) s

/-- YARD_SCRUB_ROW (R481). -/
def execYardScrubRow (cluster : Fin 64) (mishap : Mishap) (s : State) : Host.Outcome State Fault Refusal :=
  effect (fun d => scrubRow cluster.val (onWay mishap d)) s

/-- SCRUB_WRITEBACK (R482). -/
def execScrubWriteback (cluster : Fin 64) (s : State) : Host.Outcome State Fault Refusal :=
  effect (scrubWrite cluster.val) s

/-- MARGIN_PROBE (R491): the margin of each station group. -/
def execMarginProbe (margins : List (Fin 16)) (s : State) : Host.Outcome State Fault Refusal :=
  effect (marginProbe (margins.map (·.val))) s

/-- AGING_MEASURE (R493): the slowdown of each station. -/
def execAgingMeasure (ppm : List (BitVec 16)) (s : State) : Host.Outcome State Fault Refusal :=
  effect (agingMeasure (ppm.map (·.toNat))) s

/-- TLM_SAMPLE (R495). -/
def execTlmSample (s : State) : Host.Outcome State Fault Refusal := effect tlmSample s

/-- TLM_RECORD (R497). -/
def execTlmRecord (mishap : Mishap) (s : State) : Host.Outcome State Fault Refusal :=
  effect (fun d => tlmRecord (onWay mishap d)) s

/-- SNAP_TAKE (R499): a write of SNAP_TAKE, the period as it stands. -/
def execSnapTake (who : Who) (s : State) : Host.Outcome State Fault Refusal :=
  effect (regSetBit who (kTl 0 0x044) 31) s

/-- TLM_SNAPSHOT (R499). -/
def execTlmSnapshot (mishap : Mishap) (s : State) : Host.Outcome State Fault Refusal :=
  effect (fun d => tlmSnapshot (onWay mishap d)) s

end Sys2Proof.Machine
end

