-- ==== Sys2Proof/Machine/CmdHost.lean ====
section
/-! DEFINITION. The commands of the host link (chapter 16, first half). What comes over the PCIe lanes is lost while the pins are cut
off (R588). -/

namespace Sys2Proof.Machine

/-- HOST_BAR0_ACCESS (R505): a read, or a write with its value; EP marks a poisoned write, and the mishap is what befalls
the request beyond the endpoint (R182, R196). -/
def execHostBar0Access (fn : Fin 16) (off : BitVec 28) (wide : Bool) (write : Option W64) (ep : Bool) (mishap : Mishap)
    (s : State) : Host.Outcome State Fault Refusal :=
  effect (overPins (hostBar0 fn off.toNat wide write ep mishap)) s

/-- HOST_BAR2_ENQUEUE (R505, R507): an enqueue, or a read of the window. -/
def execHostBar2Enqueue (fn : Fin 16) (queue : BitVec 16) (image : Option (BitVec 512)) (ep : Bool) (mishap : Mishap)
    (s : State) : Host.Outcome State Fault Refusal :=
  effect (overPins (hostBar2 fn queue.toNat (image.map (fun i => Image.ofBytes (leBytes 64 i.toNat))) ep mishap)) s

/-- HOST_BAR4_READ (R508). -/
def execHostBar4Read (fn : Fin 16) (addr : Addr) (len : Fin 4097) (mishap : Mishap) (s : State) :
    Host.Outcome State Fault Refusal :=
  effect (overPins (hostBar4Read fn addr.toNat len.val mishap)) s

/-- HOST_BAR4_WRITE (R508). -/
def execHostBar4Write (fn : Fin 16) (addr : Addr) (bytes : List Byte) (ep : Bool) (mishap : Mishap) (s : State) :
    Host.Outcome State Fault Refusal :=
  effect (overPins (hostBar4Write fn addr.toNat bytes ep mishap)) s

/-- HOST_WRITE_FAILED (R514). -/
def execHostWriteFailed (fn : Fin 16) (s : State) : Host.Outcome State Fault Refusal := effect (hostWriteFailed fn) s

/-- A requester reads the host's memory through the outbound window, as a command of its own (R511). -/
def outGet (who : Who) (a len : Nat) (d : Dev) : Dev :=
  if !inOutbound a || len = 0 then d
  else
    let r := outRead who (cmpOf d who) a len .plain d
    if r.1 then r.2 else answer who (.refused .noRegion) r.2

/-- A requester writes the host's memory through the outbound window (R510). -/
def outPut (who : Who) (a : Nat) (bs : List Byte) (d : Dev) : Dev :=
  let acc : Access := { who := who, cmp := cmpOf d who, write := true, unit := who.unitId }
  if !inOutbound a || bs.isEmpty then d
  else outWrite acc (tagOf d who.unitId) (((runOf d who.unitId).map (·.serial)).getD 0) a bs d

/-- OUTBOUND_READ (R511). -/
def execOutboundRead (who : Who) (addr : Addr) (len : Fin 4097) (s : State) : Host.Outcome State Fault Refusal :=
  effect (outGet who addr.toNat len.val) s

/-- OUTBOUND_READ_COMPLETE (R511): a completion for a part of the oldest read of a requester, or its error or timeout. -/
def execOutboundReadComplete (who : Who) (ok : Bool) (bytes : List Byte) (s : State) : Host.Outcome State Fault Refusal :=
  effect (overPins (outReadDone who ok bytes)) s

/-- OUTBOUND_WRITE (R510). -/
def execOutboundWrite (who : Who) (addr : Addr) (bytes : List Byte) (s : State) : Host.Outcome State Fault Refusal :=
  effect (outPut who addr.toNat bytes) s

/-- OUTBOUND_WRITE_ACK (R510). -/
def execOutboundWriteAck (who : Who) (s : State) : Host.Outcome State Fault Refusal :=
  effect (overPins (outWriteAck who)) s

/-- FUNCTION_LEVEL_RESET (R504). -/
def execFunctionLevelReset (fn : Fin 16) (s : State) : Host.Outcome State Fault Refusal :=
  effect (overPins (functionReset fn.val)) s

/-- CONFIG_WRITE (R503). -/
def execConfigWrite (field : ConfigField) (s : State) : Host.Outcome State Fault Refusal :=
  effect (overPins (configWrite field)) s

/-- VEC_BIND_WRITE (R513). -/
def execVecBindWrite (who : Who) (fn : Fin 16) (vector : Fin 64) (value : W32) (s : State) :
    Host.Outcome State Fault Refusal :=
  effect (regCmd who (kVec fn.val vector.val) value.toNat) s

/-- VECTOR_ARM (R513): a write of ARMED, the other fields as they stand. -/
def execVectorArm (who : Who) (fn : Fin 16) (vector : Fin 64) (s : State) : Host.Outcome State Fault Refusal :=
  effect (regSetBit who (kVec fn.val vector.val) 30) s

/-- HOST_LINK_DOWN (R516). -/
def execHostLinkDown (s : State) : Host.Outcome State Fault Refusal := effect hostLinkDown s

/-- HOST_LINK_UP (R516): the width and rate of the link. -/
def execHostLinkUp (width : Fin 8) (rate : Fin 16) (s : State) : Host.Outcome State Fault Refusal :=
  effect (hostLinkUp width.val rate.val) s

/-- REFCLK_LOST (R518). -/
def execRefclkLost (s : State) : Host.Outcome State Fault Refusal := effect refclkLost s

/-- REFCLK_RESTORED (R518). -/
def execRefclkRestored (s : State) : Host.Outcome State Fault Refusal := effect refclkRestored s

/-- IN_BAND_LINK_RESET (R109). -/
def execInBandLinkReset (s : State) : Host.Outcome State Fault Refusal := effect (overPins (inBandReset)) s

end Sys2Proof.Machine
end

