-- ==== Sys2Proof/Machine/CmdDrawbar.lean ====
section
/-! DEFINITION. The commands of the drawbar (chapter 16, second half), on parts that have one. Packets and flits arrive with their
header, and are lost while the pins are cut off (R588); `cycle` is the REF cycle within the tick. -/

namespace Sys2Proof.Machine

/-- PORT_ENABLE (R524): a write of PORT_CTRL. -/
def execPortEnable (who : Who) (port : Fin 2) (on : Bool) (s : State) : Host.Outcome State Fault Refusal :=
  effect (onPage T.DBR 0 (1 + port.val) (regCmd who (kB (1 + port.val) 0x040) (b2n on))) s

/-- PORT_LOCKED (R524). -/
def execPortLocked (port : Fin 2) (s : State) : Host.Outcome State Fault Refusal :=
  effect (overPins (teamPart (portLocked port.val))) s

/-- PORT_TRAINING_TIMEOUT (R524). -/
def execPortTrainingTimeout (port : Fin 2) (s : State) : Host.Outcome State Fault Refusal :=
  effect (teamPart (trainingTimeout port.val)) s

/-- PORT_DOWN_EXPIRE (R524). -/
def execPortDownExpire (port : Fin 2) (s : State) : Host.Outcome State Fault Refusal :=
  effect (teamPart (downExpire port.val)) s

/-- HELLO (R526): the sender's TEAM_ID, TEAM_SIZE, TOPOLOGY, port and PRESENT. `anew` names the members whose compartment 0 has
written FORM since this module removed them (R531, log entry 177). -/
def execHello (port : Fin 2) (hdr : FlitHdr) (id size : Fin 8) (topology : Fin 4) (sender : Fin 2) (present anew : Fin 16)
    (s : State) :
    Host.Outcome State Fault Refusal :=
  effect (overPins (teamPart (helloFlit port.val hdr id.val size.val topology.val sender.val present.val anew.val))) s

/-- DATA_FLIT (R523): the packets that end in the flit. -/
def execDataFlit (port : Fin 2) (hdr : FlitHdr) (packets : List Packet) (s : State) : Host.Outcome State Fault Refusal :=
  effect (overPins (teamPart (dataFlit port.val hdr packets))) s

/-- NAK (R523). -/
def execNak (port : Fin 2) (hdr : FlitHdr) (s : State) : Host.Outcome State Fault Refusal :=
  effect (overPins (teamPart (nakFlit port.val hdr))) s

/-- IDLE_FLIT (R523). -/
def execIdleFlit (port : Fin 2) (hdr : FlitHdr) (s : State) : Host.Outcome State Fault Refusal :=
  effect (overPins (teamPart (idleFlit port.val hdr))) s

/-- REPLAY_TIMEOUT (R523). -/
def execReplayTimeout (port : Fin 2) (s : State) : Host.Outcome State Fault Refusal :=
  effect (teamPart (replayTimeout port.val)) s

/-- RETRAIN_DONE (R523). -/
def execRetrainDone (port : Fin 2) (ok : Bool) (s : State) : Host.Outcome State Fault Refusal :=
  effect (overPins (teamPart (retrainDone port.val ok))) s

/-- FORM (R525): a write of TEAM_CMD with FORM. -/
def execForm (who : Who) (s : State) : Host.Outcome State Fault Refusal :=
  effect (onPage T.DBR 0 0 (regCmd who (kB 0 0x044) 1)) s

/-- FORM_NO_PATH (R526). -/
def execFormNoPath (s : State) : Host.Outcome State Fault Refusal := effect (teamPart formNoPath) s

/-- ECHO (R529). -/
def execEcho (port : Fin 2) (cycle : Fin 200) (s : State) : Host.Outcome State Fault Refusal :=
  effect (teamPart (echoSend port.val cycle.val)) s

/-- ECHO_RECEIVE (R529). -/
def execEchoReceive (port : Fin 2) (hdr : FlitHdr) (cookie : W64) (s : State) : Host.Outcome State Fault Refusal :=
  effect (overPins (teamPart (echoReceive port.val hdr cookie.toNat))) s

/-- ECHO_REPLY (R529). -/
def execEchoReply (port : Fin 2) (hdr : FlitHdr) (cookie : W64) (cycle : Fin 200) (s : State) :
    Host.Outcome State Fault Refusal :=
  effect (overPins (teamPart (echoReplied port.val hdr cookie.toNat cycle.val))) s

/-- TICK_SYNC_SEND (R529). -/
def execTickSyncSend (cycle : Fin 200) (s : State) : Host.Outcome State Fault Refusal :=
  effect (teamPart (syncSend cycle.val)) s

/-- TICK_SYNC (R529): module 0's tick and cycle, the delay accumulated, this module's cycle, its internal transit, and whether
module 0's tick is LOCKED. -/
def execTickSync (port : Fin 2) (hdr : FlitHdr) (time : W64) (cycle : Fin 200) (delay : W32) (here : Fin 200)
    (transit : BitVec 16) (locked : Bool) (s : State) :
    Host.Outcome State Fault Refusal :=
  effect (overPins (teamPart (tickSync port.val hdr time.toNat cycle.val delay.toNat here.val transit.toNat locked))) s

/-- MEMBER_TIMEOUT (R530). -/
def execMemberTimeout (member : Fin 4) (s : State) : Host.Outcome State Fault Refusal :=
  effect (teamPart (memberTimeout member.val)) s

end Sys2Proof.Machine
end

