-- ==== Sys2Proof/Machine/CmdMgmt.lean ====
section
/-! DEFINITION. The commands of the management bus (chapter 17, first half): a frame arrives whole or damaged. Two-wire traffic is
lost while the pins are cut off (R588). -/

namespace Sys2Proof.Machine

/-- MGMT_READ (R538). -/
def execMgmtRead (addr : Addr) (count : BitVec 8) (frame : MgmtFrame) (s : State) : Host.Outcome State Fault Refusal :=
  effect (overPins (mgmtRead addr.toNat count.toNat frame)) s

/-- MGMT_WRITE (R541). -/
def execMgmtWrite (addr : Addr) (count : BitVec 8) (words : List W32) (frame : MgmtFrame) (s : State) :
    Host.Outcome State Fault Refusal :=
  effect (overPins (mgmtWrite addr.toNat count.toNat words frame)) s

/-- MGMT_STATUS (R538). -/
def execMgmtStatus (frame : MgmtFrame) (s : State) : Host.Outcome State Fault Refusal :=
  effect (overPins (mgmtStatus frame)) s

/-- MGMT_READ_PHASE (R538): after a repeated START or not. -/
def execMgmtReadPhase (repeated : Bool) (s : State) : Host.Outcome State Fault Refusal :=
  effect (overPins (mgmtReadPhase repeated)) s

/-- ALERT_RESPONSE_READ (R547): whether the target wins arbitration. -/
def execAlertResponseRead (wins : Bool) (s : State) : Host.Outcome State Fault Refusal :=
  effect (overPins (alertRead wins)) s

/-- ENTDAA (R536). -/
def execEntdaa (addr : Fin 128) (s : State) : Host.Outcome State Fault Refusal := effect (overPins (entDaa addr.val)) s

/-- SETDASA (R536): as ENTDAA, from the static address. -/
def execSetdasa (addr : Fin 128) (s : State) : Host.Outcome State Fault Refusal :=
  effect (overPins (fun d => entDaa addr.val d)) s

/-- SETNEWDA (R536). -/
def execSetnewda (addr : Fin 128) (s : State) : Host.Outcome State Fault Refusal :=
  effect (overPins (ccc (assignDyn addr.val))) s

/-- RSTDAA (R535). -/
def execRstdaa (s : State) : Host.Outcome State Fault Refusal := effect (overPins (rstDaa)) s

/-- ENEC (R536). -/
def execEnec (interrupts hotJoin : Bool) (s : State) : Host.Outcome State Fault Refusal :=
  effect (overPins (enec interrupts hotJoin)) s

/-- DISEC (R536). -/
def execDisec (interrupts hotJoin : Bool) (s : State) : Host.Outcome State Fault Refusal :=
  effect (overPins (disec interrupts hotJoin)) s

/-- GETPID (R536). -/
def execGetpid (s : State) : Host.Outcome State Fault Refusal := effect (overPins (getCcc provisionalId)) s

/-- GETBCR (R536). -/
def execGetbcr (s : State) : Host.Outcome State Fault Refusal := effect (overPins (getCcc (fun _ => 0x06))) s

/-- GETDCR (R536). -/
def execGetdcr (s : State) : Host.Outcome State Fault Refusal := effect (overPins (getCcc (fun _ => 0x00))) s

/-- GETSTATUS (R536). -/
def execGetstatus (s : State) : Host.Outcome State Fault Refusal := effect (overPins (getStatus)) s

/-- SETMWL (R536). -/
def execSetmwl (len : BitVec 16) (s : State) : Host.Outcome State Fault Refusal :=
  effect (overPins (ccc (updMgmt (fun m => { m with mwl := len.toNat })))) s

/-- SETMRL (R536). -/
def execSetmrl (len : BitVec 16) (s : State) : Host.Outcome State Fault Refusal :=
  effect (overPins (ccc (updMgmt (fun m => { m with mrl := len.toNat })))) s

/-- GETMWL (R536). -/
def execGetmwl (s : State) : Host.Outcome State Fault Refusal := effect (overPins (getCcc (fun d => d.mgmt.mwl))) s

/-- GETMRL (R536). -/
def execGetmrl (s : State) : Host.Outcome State Fault Refusal := effect (overPins (getCcc (fun d => d.mgmt.mrl))) s

/-- MGMT_SCL_TIMEOUT (R545). -/
def execMgmtSclTimeout (s : State) : Host.Outcome State Fault Refusal := effect (overPins (sclTimeout)) s

/-- IBI_RETRY (R548): whether the controller acknowledges. -/
def execIbiRetry (ack : Bool) (s : State) : Host.Outcome State Fault Refusal := effect (overPins (ibiRetry ack)) s

/-- HOT_JOIN (R549). -/
def execHotJoin (ack : Bool) (s : State) : Host.Outcome State Fault Refusal := effect (overPins (hotJoin ack)) s

end Sys2Proof.Machine
end

