-- ==== Sys2Proof/Machine/CmdList.lean ====
section
/-! DEFINITION. The commands of the two-wire controllers (chapter 17, second half): what the lines show before a START, and how the
transaction ends. -/

namespace Sys2Proof.Machine

/-- A write of a register that acts on what the outside shows as it is written: refused as any other (R57). -/
def regWith (who : Who) (k : Nat) (f : Dev → Dev) (d : Dev) : Dev := guarded who k f (dropLatch who (pageTouched who d))

/-- LIST_RUN (R557): a write of LIST_CMD with RUN. -/
def execListRun (who : Who) (bus : Fin 4) (list : Fin 64) (s : State) : Host.Outcome State Fault Refusal :=
  effect (regCmd who (kW bus.val 0x04C) (256 + list.val)) s

/-- LIST_WRITE (R556). -/
def execListWrite (bus : Fin 4) (lines : Lines) (out : WireOut) (s : State) : Host.Outcome State Fault Refusal :=
  effect (overPins (listTxn bus.val 1 lines out [])) s

/-- LIST_CHECK (R556): the byte read. -/
def execListCheck (bus : Fin 4) (lines : Lines) (out : WireOut) (byte : Byte) (s : State) :
    Host.Outcome State Fault Refusal :=
  effect (overPins (listTxn bus.val 2 lines out [byte])) s

/-- LIST_DELAY (R556). -/
def execListDelay (bus : Fin 4) (s : State) : Host.Outcome State Fault Refusal := effect (listDelay bus.val) s

/-- LIST_READ (R556): the bytes read. -/
def execListRead (bus : Fin 4) (lines : Lines) (out : WireOut) (bytes : List Byte) (s : State) :
    Host.Outcome State Fault Refusal :=
  effect (overPins (listTxn bus.val 4 lines out bytes)) s

/-- LIST_END (R558). -/
def execListEnd (bus : Fin 4) (s : State) : Host.Outcome State Fault Refusal := effect (listEnd bus.val) s

/-- ADDR_RETRY (R553). -/
def execAddrRetry (bus : Fin 4) (lines : Lines) (out : WireOut) (bytes : List Byte) (s : State) :
    Host.Outcome State Fault Refusal :=
  effect (overPins (addrRetry bus.val lines out bytes)) s

/-- ARB_LOST_RETRY (R554). -/
def execArbLostRetry (bus : Fin 4) (lines : Lines) (out : WireOut) (bytes : List Byte) (s : State) :
    Host.Outcome State Fault Refusal :=
  effect (overPins (arbRetry bus.val lines out bytes)) s

/-- STRETCH_TIMEOUT (R554). -/
def execStretchTimeout (bus : Fin 4) (lines : Lines) (s : State) : Host.Outcome State Fault Refusal :=
  effect (overPins (stretchTimeout bus.val lines)) s

/-- RECOVER (R552): a write of RECOVER, and the lines as they are. -/
def execRecover (who : Who) (bus : Fin 4) (lines : Lines) (s : State) : Host.Outcome State Fault Refusal :=
  effect (regWith who (kW bus.val 0x054) (recoverBus bus.val lines)) s

/-- LIST_DIR_WRITE (R555). -/
def execListDirWrite (who : Who) (bus : Fin 4) (list : Fin 64) (value : W32) (s : State) :
    Host.Outcome State Fault Refusal :=
  effect (regCmd who (kW bus.val (0x100 + 4 * list.val)) value.toNat) s

/-- A read or a write of a register. -/
def regEither (who : Who) (k : Nat) : Option W32 → Dev → Dev
  | some v => regCmd who k v.toNat
  | none => regGet who k 4

/-- LRAM_DATA_ACCESS (R555): a write with its value, or a read. -/
def execLramDataAccess (who : Who) (bus : Fin 4) (write : Option W32) (s : State) : Host.Outcome State Fault Refusal :=
  effect (regEither who (kW bus.val 0x084) write) s

end Sys2Proof.Machine
end

