-- ==== Sys2Proof/Machine/CmdHmi.lean ====
section
/-! DEFINITION. The commands of the human interface (chapter 18). `full` says that the event FIFO is full, `raws` what the touch
channels measure. -/

namespace Sys2Proof.Machine

/-- DEBOUNCE_EXPIRE (R566). -/
def execDebounceExpire (input : Fin 23) (full : Bool) (s : State) : Host.Outcome State Fault Refusal :=
  effect (debounceEnds input.val full) s

/-- EVENT_GAP_END (R567). -/
def execEventGapEnd (input : Fin 23) (full : Bool) (s : State) : Host.Outcome State Fault Refusal :=
  effect (gapEnds input.val full) s

/-- STUCK_EXPIRE (R568). -/
def execStuckExpire (input : Fin 23) (full : Bool) (s : State) : Host.Outcome State Fault Refusal :=
  effect (stuckEnds input.val full) s

/-- REARM_EXPIRE (R569). -/
def execRearmExpire (input : Fin 23) (full : Bool) (s : State) : Host.Outcome State Fault Refusal :=
  effect (rearmEnds input.val full) s

/-- TOUCH_SCAN (R570): whether the scan took too long. -/
def execTouchScan (raws : List (BitVec 16)) (slow full : Bool) (s : State) : Host.Outcome State Fault Refusal :=
  effect (touchScan (raws.map (·.toNat)) slow full) s

/-- DORMANT_TOUCH_SCAN (R576). -/
def execDormantTouchScan (first second : BitVec 16) (s : State) : Host.Outcome State Fault Refusal :=
  effect (dormantScan first.toNat second.toNat) s

/-- INPUT_CFG_WRITE (R566). -/
def execInputCfgWrite (who : Who) (input : Fin 23) (value : W32) (full : Bool) (s : State) :
    Host.Outcome State Fault Refusal :=
  effect (regWith who (kM 0 (0x080 + 8 * input.val)) (inputCfg input.val value.toNat full)) s

/-- LED_CTRL_WRITE (R580). -/
def execLedCtrlWrite (who : Who) (led : Fin 4) (value : W32) (s : State) : Host.Outcome State Fault Refusal :=
  effect (regCmd who (kM 1 (0x040 + 0x10 * led.val)) value.toNat) s

/-- LED_RESTART (R580). -/
def execLedRestart (who : Who) (leds : Fin 16) (s : State) : Host.Outcome State Fault Refusal :=
  effect (regCmd who (kM 1 0x080) leds.val) s

/-- LED_SLOT_ADVANCE (R580). -/
def execLedSlotAdvance (led : Fin 4) (s : State) : Host.Outcome State Fault Refusal := effect (ledAdvance led.val) s

/-- PIN_LEVEL_CHANGE (R566). -/
def execPinLevelChange (input : Fin 23) (level full : Bool) (s : State) : Host.Outcome State Fault Refusal :=
  effect (pinChanges input.val level full) s

/-- PWM_PERIOD_BOUNDARY (R579). -/
def execPwmPeriodBoundary (led : Fin 4) (s : State) : Host.Outcome State Fault Refusal := effect (pwmBoundary led.val) s

end Sys2Proof.Machine
end

