-- ==== Sys2Proof/Machine/CmdDebug.lean ====
section
/-! DEFINITION. The commands of test, debug, fuses and the boot flash (chapter 19). The boundary register takes the value that is
shifted in as it shifts out the pins that it captured: `pins` and `load` name the cells group by group in the order of the
chain (R585). -/

namespace Sys2Proof.Machine

/-- TAP_RESET (R582). -/
def execTapReset (s : State) : Host.Outcome State Fault Refusal := effect tapReset s

/-- IDCODE (R584). -/
def execIdcode (s : State) : Host.Outcome State Fault Refusal := effect tapIdcode s

/-- SAMPLE_PRELOAD (R583). -/
def execSamplePreload (pins load : List Nat) (s : State) : Host.Outcome State Fault Refusal :=
  effect (tapScan .sample pins load) s

/-- EXTEST (R588). -/
def execExtest (pins load : List Nat) (s : State) : Host.Outcome State Fault Refusal :=
  effect (tapScan .extest pins load) s

/-- HIGHZ (R588). -/
def execHighz (s : State) : Host.Outcome State Fault Refusal := effect (tapLoad .highz) s

/-- CLAMP (R588). -/
def execClamp (s : State) : Host.Outcome State Fault Refusal := effect (tapLoad .clamp) s

/-- EXTEST_PULSE (R587). -/
def execExtestPulse (pins load : List Nat) (s : State) : Host.Outcome State Fault Refusal :=
  effect (tapScan .pulse pins load) s

/-- EXTEST_TRAIN (R587). -/
def execExtestTrain (pins load : List Nat) (s : State) : Host.Outcome State Fault Refusal :=
  effect (tapScan .train pins load) s

/-- BYPASS (R583): its opcode, or one that the table does not list. -/
def execBypass (opcode : Byte) (s : State) : Host.Outcome State Fault Refusal := effect (tapLoad (TapIr.ofOpcode opcode.toNat)) s

/-- MEM_ACCESS (R589). -/
def execMemAccess (op : Fin 4) (addr : Addr) (value : W32) (s : State) : Host.Outcome State Fault Refusal :=
  effect (memAccess op.val addr.toNat value.toNat) s

/-- STRONGBOX (R590). -/
def execStrongbox (holder : Fin 128) (word : Fin 8) (clear : Bool) (s : State) : Host.Outcome State Fault Refusal :=
  effect (tapBox holder.val word.val clear) s

/-- UART_READ (R593): a line that begins with R, or with none of the three letters. -/
def execUartRead (line : List Byte) (s : State) : Host.Outcome State Fault Refusal := effect (overPins (uartCommand line)) s

/-- UART_WRITE (R593): a line that begins with W. -/
def execUartWrite (line : List Byte) (s : State) : Host.Outcome State Fault Refusal := effect (overPins (uartCommand line)) s

/-- UART_IDENT (R593): a line that begins with I. -/
def execUartIdent (line : List Byte) (s : State) : Host.Outcome State Fault Refusal := effect (overPins (uartCommand line)) s

/-- PROG_CMD (R596): a write of PROG_CMD, and whether VIO18 is in range from now on (R84). -/
def execProgCmd (who : Who) (value : W32) (vio : Bool) (s : State) : Host.Outcome State Fault Refusal :=
  effect (regWith who (kF1 0x048) (progCmd value.toNat) ∘ updPwr (fun p => { p with vio18 := vio })) s

/-- FUSE_PROG_DONE (R596): the bits of each copy that did not blow. -/
def execFuseProgDone (missA missB : W32) (s : State) : Host.Outcome State Fault Refusal :=
  effect (progDone missA.toNat missB.toNat) s

/-- A write of XSP_CMD with an operation, and the opcode of a register read (R598). -/
def flashReg (who : Who) (op opcode : Nat) (d : Dev) : Dev := regCmd who (kX 0x044) (opcode * 2 ^ 24 + op * 256) d

/-- XSP_PAGE_PROGRAM (R598). -/
def execXspPageProgram (who : Who) (s : State) : Host.Outcome State Fault Refusal := effect (flashReg who 0 0) s

/-- XSP_ERASE_4K (R598). -/
def execXspErase4k (who : Who) (s : State) : Host.Outcome State Fault Refusal := effect (flashReg who 1 0) s

/-- XSP_ERASE_64K (R598). -/
def execXspErase64k (who : Who) (s : State) : Host.Outcome State Fault Refusal := effect (flashReg who 2 0) s

/-- XSP_REGISTER_READ (R598). -/
def execXspRegisterRead (who : Who) (opcode : Byte) (s : State) : Host.Outcome State Fault Refusal :=
  effect (flashReg who 3 opcode.toNat) s

/-- XSP_CMD_DONE (R598): the flash's status register, and the bytes of a register read. -/
def execXspCmdDone (status : Byte) (bytes : List Byte) (s : State) : Host.Outcome State Fault Refusal :=
  effect (overPins (flashDone status.toNat bytes)) s

/-- FLASH_TIMEOUT (R598): a read of the flash window at an address that the flash does not answer, or the running
operation. -/
def execFlashTimeout (reader : Option (Who × Addr)) (s : State) : Host.Outcome State Fault Refusal :=
  effect (flashTimeout (reader.map (fun x => (x.1, x.2.toNat)))) s

end Sys2Proof.Machine
end

