-- ==== Sys2Proof/Machine/Dispatch.lean ====
section
/-! DEFINITION. One arm for each command: its meaning. -/

namespace Sys2Proof.Machine

def exec (i : Instr) (s : State) : Host.Outcome State Fault Refusal :=
  match i with
  | .registerWrite who addr wide value mishap => Sys2Proof.Machine.execRegisterWrite who addr wide value mishap s
  | .counterReadClear who addr wide mishap => Sys2Proof.Machine.execCounterReadClear who addr wide mishap s
  | .highWordLatch who addr mishap => Sys2Proof.Machine.execHighWordLatch who addr mishap s
  | .stickyClear who ty inst page value => Sys2Proof.Machine.execStickyClear who ty inst page value s
  | .unitReset who ty inst => Sys2Proof.Machine.execUnitReset who ty inst s
  | .unitResetComplete ty inst => Sys2Proof.Machine.execUnitResetComplete ty inst s
  | .stableReq who ty inst => Sys2Proof.Machine.execStableReq who ty inst s
  | .probationReq who ty inst => Sys2Proof.Machine.execProbationReq who ty inst s
  | .enableWrite who ty inst on => Sys2Proof.Machine.execEnableWrite who ty inst on s
  | .injectArm who ty inst page flag param => Sys2Proof.Machine.execInjectArm who ty inst page flag param s
  | .ownerWrite who ty inst owner => Sys2Proof.Machine.execOwnerWrite who ty inst owner s
  | .tick => Sys2Proof.Machine.execTick s
  | .refLost => Sys2Proof.Machine.execRefLost s
  | .refUnlock => Sys2Proof.Machine.execRefUnlock s
  | .holdoverSwitch => Sys2Proof.Machine.execHoldoverSwitch s
  | .pllOutputsStop => Sys2Proof.Machine.execPllOutputsStop s
  | .refQualified => Sys2Proof.Machine.execRefQualified s
  | .refRestore who => Sys2Proof.Machine.execRefRestore who s
  | .refRelocked => Sys2Proof.Machine.execRefRelocked s
  | .refMeasure cycles => Sys2Proof.Machine.execRefMeasure cycles s
  | .aonLost => Sys2Proof.Machine.execAonLost s
  | .stepRateMeasure mhz => Sys2Proof.Machine.execStepRateMeasure mhz s
  | .govEvaluate => Sys2Proof.Machine.execGovEvaluate s
  | .settleExpire => Sys2Proof.Machine.execSettleExpire s
  | .pmbusTransactionDone status word lines => Sys2Proof.Machine.execPmbusTransactionDone status word lines s
  | .resume who => Sys2Proof.Machine.execResume who s
  | .manualTargetWrite who mv => Sys2Proof.Machine.execManualTargetWrite who mv s
  | .govModeWrite who value => Sys2Proof.Machine.execGovModeWrite who value s
  | .boostBucket => Sys2Proof.Machine.execBoostBucket s
  | .tjSensorUpdate sensor value => Sys2Proof.Machine.execTjSensorUpdate sensor value s
  | .thermalTrip sensor => Sys2Proof.Machine.execThermalTrip sensor s
  | .powerOnReset => Sys2Proof.Machine.execPowerOnReset s
  | .vaonLoss => Sys2Proof.Machine.execVaonLoss s
  | .pgRise rail => Sys2Proof.Machine.execPgRise rail s
  | .railWaitExpire => Sys2Proof.Machine.execRailWaitExpire s
  | .pgTimeout => Sys2Proof.Machine.execPgTimeout s
  | .powerFault rail => Sys2Proof.Machine.execPowerFault rail s
  | .seqDownEnd => Sys2Proof.Machine.execSeqDownEnd s
  | .retryExpire => Sys2Proof.Machine.execRetryExpire s
  | .strapSample straps => Sys2Proof.Machine.execStrapSample straps s
  | .refBootTimeout => Sys2Proof.Machine.execRefBootTimeout s
  | .resetNAssert => Sys2Proof.Machine.execResetNAssert s
  | .resetNRelease => Sys2Proof.Machine.execResetNRelease s
  | .testEnAssert level => Sys2Proof.Machine.execTestEnAssert level s
  | .warmReset who key => Sys2Proof.Machine.execWarmReset who key s
  | .warmResetSweepDone status => Sys2Proof.Machine.execWarmResetSweepDone status s
  | .warmResetVoutWaitExpire => Sys2Proof.Machine.execWarmResetVoutWaitExpire s
  | .perstNAssert => Sys2Proof.Machine.execPerstNAssert s
  | .perstNRelease => Sys2Proof.Machine.execPerstNRelease s
  | .bootRomStart => Sys2Proof.Machine.execBootRomStart s
  | .bootHostDoorbell who value => Sys2Proof.Machine.execBootHostDoorbell who value s
  | .hostBootTimeout => Sys2Proof.Machine.execHostBootTimeout s
  | .bootImageCheck flash octal => Sys2Proof.Machine.execBootImageCheck flash octal s
  | .wdtKick who value => Sys2Proof.Machine.execWdtKick who value s
  | .wdtExpire => Sys2Proof.Machine.execWdtExpire s
  | .dormantReq who key => Sys2Proof.Machine.execDormantReq who key s
  | .wakeEvent mgmt => Sys2Proof.Machine.execWakeEvent mgmt s
  | .rtcAlarm => Sys2Proof.Machine.execRtcAlarm s
  | .yardRead who addr mode cells elem stride mishap upset => Sys2Proof.Machine.execYardRead who addr mode cells elem stride mishap upset s
  | .yardWrite who addr bytes mishap parity rounds => Sys2Proof.Machine.execYardWrite who addr bytes mishap parity rounds s
  | .postedWriteAck who => Sys2Proof.Machine.execPostedWriteAck who s
  | .failureNotice who => Sys2Proof.Machine.execFailureNotice who s
  | .amoAdd core rd ra rb wide mishap => Sys2Proof.Machine.execAmoAdd core rd ra rb wide mishap s
  | .amoAnd core rd ra rb wide mishap => Sys2Proof.Machine.execAmoAnd core rd ra rb wide mishap s
  | .amoOr core rd ra rb wide mishap => Sys2Proof.Machine.execAmoOr core rd ra rb wide mishap s
  | .amoSwap core rd ra rb wide mishap => Sys2Proof.Machine.execAmoSwap core rd ra rb wide mishap s
  | .amoCas core rd ra rb wide mishap => Sys2Proof.Machine.execAmoCas core rd ra rb wide mishap s
  | .amoMin core rd ra rb wide mishap => Sys2Proof.Machine.execAmoMin core rd ra rb wide mishap s
  | .amoMax core rd ra rb wide mishap => Sys2Proof.Machine.execAmoMax core rd ra rb wide mishap s
  | .amoMinu core rd ra rb wide mishap => Sys2Proof.Machine.execAmoMinu core rd ra rb wide mishap s
  | .amoMaxu core rd ra rb wide mishap => Sys2Proof.Machine.execAmoMaxu core rd ra rb wide mishap s
  | .descRead who cluster => Sys2Proof.Machine.execDescRead who cluster s
  | .descCommit who cluster => Sys2Proof.Machine.execDescCommit who cluster s
  | .descRelease who cluster => Sys2Proof.Machine.execDescRelease who cluster s
  | .descModify who cluster => Sys2Proof.Machine.execDescModify who cluster s
  | .sweepDone region => Sys2Proof.Machine.execSweepDone region s
  | .tallyIncrement mishap => Sys2Proof.Machine.execTallyIncrement mishap s
  | .tallyRearm who cluster => Sys2Proof.Machine.execTallyRearm who cluster s
  | .tallyWatchRegister tally thresh waiter => Sys2Proof.Machine.execTallyWatchRegister tally thresh waiter s
  | .semSignal core rd ra rb count mishap => Sys2Proof.Machine.execSemSignal core rd ra rb count mishap s
  | .semWait core rd ra rb count mishap => Sys2Proof.Machine.execSemWait core rd ra rb count mishap s
  | .semAcquire core rd ra rb count mishap => Sys2Proof.Machine.execSemAcquire core rd ra rb count mishap s
  | .semRelease core rd ra rb count mishap => Sys2Proof.Machine.execSemRelease core rd ra rb count mishap s
  | .semTimeout holder => Sys2Proof.Machine.execSemTimeout holder s
  | .semKindWrite who cluster sem value => Sys2Proof.Machine.execSemKindWrite who cluster sem value s
  | .semValueWrite who cluster sem value => Sys2Proof.Machine.execSemValueWrite who cluster sem value s
  | .lockReap holder cluster mishap => Sys2Proof.Machine.execLockReap holder cluster mishap s
  | .lockReapDone holder => Sys2Proof.Machine.execLockReapDone holder s
  | .fence core rd => Sys2Proof.Machine.execFence core rd s
  | .rspTimeout who beyond => Sys2Proof.Machine.execRspTimeout who beyond s
  | .lateRsp who => Sys2Proof.Machine.execLateRsp who s
  | .epochCmd who => Sys2Proof.Machine.execEpochCmd who s
  | .epochSwitchDone => Sys2Proof.Machine.execEpochSwitchDone s
  | .epochSlow => Sys2Proof.Machine.execEpochSlow s
  | .routeDataWrite who value => Sys2Proof.Machine.execRouteDataWrite who value s
  | .linkStable who => Sys2Proof.Machine.execLinkStable who s
  | .linkProbation who => Sys2Proof.Machine.execLinkProbation who s
  | .stackRead who addr len bar4 mishap upset parity die => Sys2Proof.Machine.execStackRead who addr len bar4 mishap upset parity die s
  | .stackWrite who addr bytes mishap damaged parity => Sys2Proof.Machine.execStackWrite who addr bytes mishap damaged parity s
  | .stackTempRead stack value => Sys2Proof.Machine.execStackTempRead stack value s
  | .stackTrainingDone stack ok => Sys2Proof.Machine.execStackTrainingDone stack ok s
  | .stackRecalDone stack => Sys2Proof.Machine.execStackRecalDone stack s
  | .recalWindow stack channel => Sys2Proof.Machine.execRecalWindow stack channel s
  | .patrolRead stack upset => Sys2Proof.Machine.execPatrolRead stack upset s
  | .patrolDebtTick => Sys2Proof.Machine.execPatrolDebtTick s
  | .pcCmdStable who stack channel => Sys2Proof.Machine.execPcCmdStable who stack channel s
  | .migrateDone stack lines => Sys2Proof.Machine.execMigrateDone stack lines s
  | .spareEnWrite who on => Sys2Proof.Machine.execSpareEnWrite who on s
  | .waybillStart core => Sys2Proof.Machine.execWaybillStart core s
  | .scalarAlu core rd ra rb func => Sys2Proof.Machine.execScalarAlu core rd ra rb func s
  | .scalarImmediate core op rd ra imm => Sys2Proof.Machine.execScalarImmediate core op rd ra imm s
  | .lui core rd imm => Sys2Proof.Machine.execLui core rd imm s
  | .load core rd ra size imm mishap upset => Sys2Proof.Machine.execLoad core rd ra size imm mishap upset s
  | .store core rd ra size imm mishap => Sys2Proof.Machine.execStore core rd ra size imm mishap s
  | .branch core op ra rb off => Sys2Proof.Machine.execBranch core op ra rb off s
  | .jal core off => Sys2Proof.Machine.execJal core off s
  | .jalr core rd ra imm => Sys2Proof.Machine.execJalr core rd ra imm s
  | .loop core ra off => Sys2Proof.Machine.execLoop core ra off s
  | .vectorInteger core elem op vd va vb p pz => Sys2Proof.Machine.execVectorInteger core elem op vd va vb p pz s
  | .vectorFloat core elem op vd va vb p pz => Sys2Proof.Machine.execVectorFloat core elem op vd va vb p pz s
  | .vectorCompare core elem op vd va vb p pz => Sys2Proof.Machine.execVectorCompare core elem op vd va vb p pz s
  | .vectorPermute core elem op vd va vb p pz => Sys2Proof.Machine.execVectorPermute core elem op vd va vb p pz s
  | .vectorConvert core src dst vd va p pz => Sys2Proof.Machine.execVectorConvert core src dst vd va p pz s
  | .vectorMove core op vd va vb p pz => Sys2Proof.Machine.execVectorMove core op vd va vb p pz s
  | .vld core vd stream mishap => Sys2Proof.Machine.execVld core vd stream mishap s
  | .vst core stream va mishap => Sys2Proof.Machine.execVst core stream va mishap s
  | .mma core fmt ad va sa wb sp z => Sys2Proof.Machine.execMma core fmt ad va sa wb sp z s
  | .mrd core vd ad row => Sys2Proof.Machine.execMrd core vd ad row s
  | .mwr core fmt ad row va => Sys2Proof.Machine.execMwr core fmt ad row va s
  | .mclr core fmt ad => Sys2Proof.Machine.execMclr core fmt ad s
  | .wbwait core wb => Sys2Proof.Machine.execWbwait core wb s
  | .stcfg core stream ra => Sys2Proof.Machine.execStcfg core stream ra s
  | .ststart core stream mishap => Sys2Proof.Machine.execStstart core stream mishap s
  | .ststop core stream => Sys2Proof.Machine.execStstop core stream s
  | .stwait core stream mishap => Sys2Proof.Machine.execStwait core stream mishap s
  | .ststat core rd stream => Sys2Proof.Machine.execStstat core rd stream s
  | .streamComplete core stream mishap => Sys2Proof.Machine.execStreamComplete core stream mishap s
  | .twait core rd ra rb => Sys2Proof.Machine.execTwait core rd ra rb s
  | .twaitTimeout core => Sys2Proof.Machine.execTwaitTimeout core s
  | .watchRetry => Sys2Proof.Machine.execWatchRetry s
  | .trearm core ra => Sys2Proof.Machine.execTrearm core ra s
  | .enq core rd ra rb => Sys2Proof.Machine.execEnq core rd ra rb s
  | .csrr core rd csr => Sys2Proof.Machine.execCsrr core rd csr s
  | .csrw core ra csr => Sys2Proof.Machine.execCsrw core ra csr s
  | .trap core code => Sys2Proof.Machine.execTrap core code s
  | .brk core => Sys2Proof.Machine.execBrk core s
  | .xret core => Sys2Proof.Machine.execXret core s
  | .done core => Sys2Proof.Machine.execDone core s
  | .abort core rb => Sys2Proof.Machine.execAbort core rb s
  | .scsrr core rd csr => Sys2Proof.Machine.execScsrr core rd csr s
  | .scsrw core ra csr => Sys2Proof.Machine.execScsrw core ra csr s
  | .sbrd core rd ra word => Sys2Proof.Machine.execSbrd core rd ra word s
  | .sret core => Sys2Proof.Machine.execSret core s
  | .wfi core => Sys2Proof.Machine.execWfi core s
  | .li core rd imm => Sys2Proof.Machine.execLi core rd imm s
  | .lih core rd imm => Sys2Proof.Machine.execLih core rd imm s
  | .accessImprecise core => Sys2Proof.Machine.execAccessImprecise core s
  | .interrupt core => Sys2Proof.Machine.execInterrupt core s
  | .dbgHaltReq who core value => Sys2Proof.Machine.execDbgHaltReq who core value s
  | .dbgStep who core => Sys2Proof.Machine.execDbgStep who core s
  | .lramClear who core => Sys2Proof.Machine.execLramClear who core s
  | .lramClearDone core => Sys2Proof.Machine.execLramClearDone core s
  | .enqueueWindowWrite who queue image mishap => Sys2Proof.Machine.execEnqueueWindowWrite who queue image mishap s
  | .brakeTimeout => Sys2Proof.Machine.execBrakeTimeout s
  | .recordToken who queue key slot payload void => Sys2Proof.Machine.execRecordToken who queue key slot payload void s
  | .recordDecrement who queue counter n void => Sys2Proof.Machine.execRecordDecrement who queue counter n void s
  | .qcmdRead who => Sys2Proof.Machine.execQcmdRead who s
  | .qcmdCommit who => Sys2Proof.Machine.execQcmdCommit who s
  | .qcmdModify who => Sys2Proof.Machine.execQcmdModify who s
  | .qcmdRelease who => Sys2Proof.Machine.execQcmdRelease who s
  | .qcmdPurge who => Sys2Proof.Machine.execQcmdPurge who s
  | .ctrClear who => Sys2Proof.Machine.execCtrClear who s
  | .timetableFire => Sys2Proof.Machine.execTimetableFire s
  | .placement mishap => Sys2Proof.Machine.execPlacement mishap s
  | .slottedStart unit => Sys2Proof.Machine.execSlottedStart unit s
  | .waybillEnd unit mishap => Sys2Proof.Machine.execWaybillEnd unit mishap s
  | .cqHeadWrite who queue value ep => Sys2Proof.Machine.execCqHeadWrite who queue value ep s
  | .dispatchEpochBoundary => Sys2Proof.Machine.execDispatchEpochBoundary s
  | .dptEpochCmd who => Sys2Proof.Machine.execDptEpochCmd who s
  | .backingRetry mishap => Sys2Proof.Machine.execBackingRetry mishap s
  | .duplicateAbandon unit => Sys2Proof.Machine.execDuplicateAbandon unit s
  | .cmpActivate who cmp key => Sys2Proof.Machine.execCmpActivate who cmp key s
  | .cmpReset who cmp key => Sys2Proof.Machine.execCmpReset who cmp key s
  | .cmpKill who cmp key => Sys2Proof.Machine.execCmpKill who cmp key s
  | .cmpDrainDone cmp => Sys2Proof.Machine.execCmpDrainDone cmp s
  | .stackWindowZeroed cmp => Sys2Proof.Machine.execStackWindowZeroed cmp s
  | .coachMaskWrite who cmp value => Sys2Proof.Machine.execCoachMaskWrite who cmp value s
  | .otherMaskWrite who cmp value => Sys2Proof.Machine.execOtherMaskWrite who cmp value s
  | .stkwinWrite who cmp window value => Sys2Proof.Machine.execStkwinWrite who cmp window value s
  | .evqWrite who cmp value => Sys2Proof.Machine.execEvqWrite who cmp value s
  | .sharePeriodEnd => Sys2Proof.Machine.execSharePeriodEnd s
  | .csiFrameStart port vc number header mhz => Sys2Proof.Machine.execCsiFrameStart port vc number header mhz s
  | .csiFrameEnd port vc header => Sys2Proof.Machine.execCsiFrameEnd port vc header s
  | .csiLineStart port vc line header mhz => Sys2Proof.Machine.execCsiLineStart port vc line header mhz s
  | .csiLineEnd port vc header => Sys2Proof.Machine.execCsiLineEnd port vc header s
  | .csiLongPacket port vc dt payload crcOk header parity full mishap => Sys2Proof.Machine.execCsiLongPacket port vc dt payload crcOk header parity full mishap s
  | .csiDeskew port => Sys2Proof.Machine.execCsiDeskew port s
  | .lineTimeout port binding clockAbsent => Sys2Proof.Machine.execLineTimeout port binding clockAbsent s
  | .frameCloseDrained port binding mishap => Sys2Proof.Machine.execFrameCloseDrained port binding mishap s
  | .frameRecordDone port binding mishap => Sys2Proof.Machine.execFrameRecordDone port binding mishap s
  | .streamRelease who port binding buffers => Sys2Proof.Machine.execStreamRelease who port binding buffers s
  | .streamReplug who port binding => Sys2Proof.Machine.execStreamReplug who port binding s
  | .bindEnable who port binding value => Sys2Proof.Machine.execBindEnable who port binding value s
  | .hotplugFall port binding => Sys2Proof.Machine.execHotplugFall port binding s
  | .hotplugRise port binding => Sys2Proof.Machine.execHotplugRise port binding s
  | .replugHoldExpire port binding => Sys2Proof.Machine.execReplugHoldExpire port binding s
  | .absentTicksExpire port binding => Sys2Proof.Machine.execAbsentTicksExpire port binding s
  | .fsyncEnable who output value => Sys2Proof.Machine.execFsyncEnable who output value s
  | .fsyncWidthExpire output => Sys2Proof.Machine.execFsyncWidthExpire output s
  | .engineJobStart engine mishap => Sys2Proof.Machine.execEngineJobStart engine mishap s
  | .pyrJob inst parity mishap => Sys2Proof.Machine.execPyrJob inst parity mishap s
  | .wrpJob inst parity mishap => Sys2Proof.Machine.execWrpJob inst parity mishap s
  | .strJob inst parity mishap => Sys2Proof.Machine.execStrJob inst parity mishap s
  | .flwJob inst parity mishap => Sys2Proof.Machine.execFlwJob inst parity mishap s
  | .ftrDetect inst parity mishap => Sys2Proof.Machine.execFtrDetect inst parity mishap s
  | .ftrMatch inst parity mishap => Sys2Proof.Machine.execFtrMatch inst parity mishap s
  | .engineJobEnd engine => Sys2Proof.Machine.execEngineJobEnd engine s
  | .graphLoad who mishap => Sys2Proof.Machine.execGraphLoad who mishap s
  | .graphStart who handover mishap => Sys2Proof.Machine.execGraphStart who handover mishap s
  | .graphStop who => Sys2Proof.Machine.execGraphStop who s
  | .graphUnload who => Sys2Proof.Machine.execGraphUnload who s
  | .graphTrigger who => Sys2Proof.Machine.execGraphTrigger who s
  | .fgsFrameStart => Sys2Proof.Machine.execFgsFrameStart s
  | .joinWindowExpire graph => Sys2Proof.Machine.execJoinWindowExpire graph s
  | .fgsFrameEnd => Sys2Proof.Machine.execFgsFrameEnd s
  | .fgsAbsentEvent => Sys2Proof.Machine.execFgsAbsentEvent s
  | .nodeReport => Sys2Proof.Machine.execNodeReport s
  | .abandonDeadline graph frame => Sys2Proof.Machine.execAbandonDeadline graph frame s
  | .suspectFinding => Sys2Proof.Machine.execSuspectFinding s
  | .fgsBackingRetry mishap => Sys2Proof.Machine.execFgsBackingRetry mishap s
  | .shadowEnd slot => Sys2Proof.Machine.execShadowEnd slot s
  | .tiebreakEnd slot => Sys2Proof.Machine.execTiebreakEnd slot s
  | .gateWaitExpire => Sys2Proof.Machine.execGateWaitExpire s
  | .ledgerWindowEnd upset => Sys2Proof.Machine.execLedgerWindowEnd upset s
  | .digRegister who => Sys2Proof.Machine.execDigRegister who s
  | .digCheckNow who => Sys2Proof.Machine.execDigCheckNow who s
  | .digRemove who => Sys2Proof.Machine.execDigRemove who s
  | .digestCheckStart => Sys2Proof.Machine.execDigestCheckStart s
  | .digestCheckDone mishap => Sys2Proof.Machine.execDigestCheckDone mishap s
  | .xcStart who rounds formats => Sys2Proof.Machine.execXcStart who rounds formats s
  | .xcheckRoundDone odd => Sys2Proof.Machine.execXcheckRoundDone odd s
  | .probationTestDone code pass => Sys2Proof.Machine.execProbationTestDone code pass s
  | .scoreDecay code => Sys2Proof.Machine.execScoreDecay code s
  | .retStatusRead who => Sys2Proof.Machine.execRetStatusRead who s
  | .retDataRead who => Sys2Proof.Machine.execRetDataRead who s
  | .yardScrubRow cluster mishap => Sys2Proof.Machine.execYardScrubRow cluster mishap s
  | .scrubWriteback cluster => Sys2Proof.Machine.execScrubWriteback cluster s
  | .marginProbe margins => Sys2Proof.Machine.execMarginProbe margins s
  | .agingMeasure ppm => Sys2Proof.Machine.execAgingMeasure ppm s
  | .tlmSample => Sys2Proof.Machine.execTlmSample s
  | .tlmRecord mishap => Sys2Proof.Machine.execTlmRecord mishap s
  | .snapTake who => Sys2Proof.Machine.execSnapTake who s
  | .tlmSnapshot mishap => Sys2Proof.Machine.execTlmSnapshot mishap s
  | .hostBar0Access fn off wide write ep mishap => Sys2Proof.Machine.execHostBar0Access fn off wide write ep mishap s
  | .hostBar2Enqueue fn queue image ep mishap => Sys2Proof.Machine.execHostBar2Enqueue fn queue image ep mishap s
  | .hostBar4Read fn addr len mishap => Sys2Proof.Machine.execHostBar4Read fn addr len mishap s
  | .hostBar4Write fn addr bytes ep mishap => Sys2Proof.Machine.execHostBar4Write fn addr bytes ep mishap s
  | .hostWriteFailed fn => Sys2Proof.Machine.execHostWriteFailed fn s
  | .outboundRead who addr len => Sys2Proof.Machine.execOutboundRead who addr len s
  | .outboundReadComplete who ok bytes => Sys2Proof.Machine.execOutboundReadComplete who ok bytes s
  | .outboundWrite who addr bytes => Sys2Proof.Machine.execOutboundWrite who addr bytes s
  | .outboundWriteAck who => Sys2Proof.Machine.execOutboundWriteAck who s
  | .functionLevelReset fn => Sys2Proof.Machine.execFunctionLevelReset fn s
  | .configWrite field => Sys2Proof.Machine.execConfigWrite field s
  | .vecBindWrite who fn vector value => Sys2Proof.Machine.execVecBindWrite who fn vector value s
  | .vectorArm who fn vector => Sys2Proof.Machine.execVectorArm who fn vector s
  | .hostLinkDown => Sys2Proof.Machine.execHostLinkDown s
  | .hostLinkUp width rate => Sys2Proof.Machine.execHostLinkUp width rate s
  | .refclkLost => Sys2Proof.Machine.execRefclkLost s
  | .refclkRestored => Sys2Proof.Machine.execRefclkRestored s
  | .portEnable who port on => Sys2Proof.Machine.execPortEnable who port on s
  | .portLocked port => Sys2Proof.Machine.execPortLocked port s
  | .portTrainingTimeout port => Sys2Proof.Machine.execPortTrainingTimeout port s
  | .portDownExpire port => Sys2Proof.Machine.execPortDownExpire port s
  | .hello port hdr id size topology sender present anew => Sys2Proof.Machine.execHello port hdr id size topology sender present anew s
  | .dataFlit port hdr packets => Sys2Proof.Machine.execDataFlit port hdr packets s
  | .nak port hdr => Sys2Proof.Machine.execNak port hdr s
  | .replayTimeout port => Sys2Proof.Machine.execReplayTimeout port s
  | .retrainDone port ok => Sys2Proof.Machine.execRetrainDone port ok s
  | .form who => Sys2Proof.Machine.execForm who s
  | .formNoPath => Sys2Proof.Machine.execFormNoPath s
  | .echo port cycle => Sys2Proof.Machine.execEcho port cycle s
  | .echoReply port hdr cookie cycle => Sys2Proof.Machine.execEchoReply port hdr cookie cycle s
  | .tickSyncSend cycle => Sys2Proof.Machine.execTickSyncSend cycle s
  | .tickSync port hdr time cycle delay here transit locked => Sys2Proof.Machine.execTickSync port hdr time cycle delay here transit locked s
  | .memberTimeout member => Sys2Proof.Machine.execMemberTimeout member s
  | .mgmtRead addr count frame => Sys2Proof.Machine.execMgmtRead addr count frame s
  | .mgmtWrite addr count words frame => Sys2Proof.Machine.execMgmtWrite addr count words frame s
  | .mgmtStatus frame => Sys2Proof.Machine.execMgmtStatus frame s
  | .mgmtReadPhase repeated => Sys2Proof.Machine.execMgmtReadPhase repeated s
  | .alertResponseRead wins => Sys2Proof.Machine.execAlertResponseRead wins s
  | .entdaa addr => Sys2Proof.Machine.execEntdaa addr s
  | .setdasa addr => Sys2Proof.Machine.execSetdasa addr s
  | .setnewda addr => Sys2Proof.Machine.execSetnewda addr s
  | .rstdaa => Sys2Proof.Machine.execRstdaa s
  | .enec interrupts hotJoin => Sys2Proof.Machine.execEnec interrupts hotJoin s
  | .disec interrupts hotJoin => Sys2Proof.Machine.execDisec interrupts hotJoin s
  | .getpid => Sys2Proof.Machine.execGetpid s
  | .getbcr => Sys2Proof.Machine.execGetbcr s
  | .getdcr => Sys2Proof.Machine.execGetdcr s
  | .getstatus => Sys2Proof.Machine.execGetstatus s
  | .setmwl len => Sys2Proof.Machine.execSetmwl len s
  | .setmrl len => Sys2Proof.Machine.execSetmrl len s
  | .getmwl => Sys2Proof.Machine.execGetmwl s
  | .getmrl => Sys2Proof.Machine.execGetmrl s
  | .mgmtSclTimeout => Sys2Proof.Machine.execMgmtSclTimeout s
  | .ibiRetry ack => Sys2Proof.Machine.execIbiRetry ack s
  | .hotJoin ack => Sys2Proof.Machine.execHotJoin ack s
  | .listRun who bus list => Sys2Proof.Machine.execListRun who bus list s
  | .listWrite bus lines out => Sys2Proof.Machine.execListWrite bus lines out s
  | .listCheck bus lines out byte => Sys2Proof.Machine.execListCheck bus lines out byte s
  | .listDelay bus => Sys2Proof.Machine.execListDelay bus s
  | .listRead bus lines out bytes => Sys2Proof.Machine.execListRead bus lines out bytes s
  | .listEnd bus => Sys2Proof.Machine.execListEnd bus s
  | .addrRetry bus lines out bytes => Sys2Proof.Machine.execAddrRetry bus lines out bytes s
  | .arbLostRetry bus lines out bytes => Sys2Proof.Machine.execArbLostRetry bus lines out bytes s
  | .stretchTimeout bus lines => Sys2Proof.Machine.execStretchTimeout bus lines s
  | .recover who bus lines => Sys2Proof.Machine.execRecover who bus lines s
  | .listDirWrite who bus list value => Sys2Proof.Machine.execListDirWrite who bus list value s
  | .lramDataAccess who bus write => Sys2Proof.Machine.execLramDataAccess who bus write s
  | .govPage lines => Sys2Proof.Machine.execGovPage lines s
  | .govVoutCommand lines => Sys2Proof.Machine.execGovVoutCommand lines s
  | .govReadVout lines => Sys2Proof.Machine.execGovReadVout lines s
  | .debounceExpire input full => Sys2Proof.Machine.execDebounceExpire input full s
  | .eventGapEnd input full => Sys2Proof.Machine.execEventGapEnd input full s
  | .stuckExpire input full => Sys2Proof.Machine.execStuckExpire input full s
  | .rearmExpire input full => Sys2Proof.Machine.execRearmExpire input full s
  | .touchScan raws slow full => Sys2Proof.Machine.execTouchScan raws slow full s
  | .dormantTouchScan first second => Sys2Proof.Machine.execDormantTouchScan first second s
  | .inputCfgWrite who input value full => Sys2Proof.Machine.execInputCfgWrite who input value full s
  | .ledCtrlWrite who led value => Sys2Proof.Machine.execLedCtrlWrite who led value s
  | .ledRestart who leds => Sys2Proof.Machine.execLedRestart who leds s
  | .ledSlotAdvance led => Sys2Proof.Machine.execLedSlotAdvance led s
  | .tapReset => Sys2Proof.Machine.execTapReset s
  | .idcode => Sys2Proof.Machine.execIdcode s
  | .samplePreload pins load => Sys2Proof.Machine.execSamplePreload pins load s
  | .extest pins load => Sys2Proof.Machine.execExtest pins load s
  | .highz => Sys2Proof.Machine.execHighz s
  | .clamp => Sys2Proof.Machine.execClamp s
  | .extestPulse pins load => Sys2Proof.Machine.execExtestPulse pins load s
  | .extestTrain pins load => Sys2Proof.Machine.execExtestTrain pins load s
  | .bypass opcode => Sys2Proof.Machine.execBypass opcode s
  | .memAccess op addr value => Sys2Proof.Machine.execMemAccess op addr value s
  | .strongbox holder word clear => Sys2Proof.Machine.execStrongbox holder word clear s
  | .uartRead line => Sys2Proof.Machine.execUartRead line s
  | .uartWrite line => Sys2Proof.Machine.execUartWrite line s
  | .uartIdent line => Sys2Proof.Machine.execUartIdent line s
  | .progCmd who value vio => Sys2Proof.Machine.execProgCmd who value vio s
  | .fuseProgDone missA missB => Sys2Proof.Machine.execFuseProgDone missA missB s
  | .xspPageProgram who => Sys2Proof.Machine.execXspPageProgram who s
  | .xspErase4k who => Sys2Proof.Machine.execXspErase4k who s
  | .xspErase64k who => Sys2Proof.Machine.execXspErase64k who s
  | .xspRegisterRead who opcode => Sys2Proof.Machine.execXspRegisterRead who opcode s
  | .xspCmdDone status bytes => Sys2Proof.Machine.execXspCmdDone status bytes s
  | .flashTimeout reader => Sys2Proof.Machine.execFlashTimeout reader s
  | .aonRestored => Sys2Proof.Machine.execAonRestored s
  | .aonCycle => Sys2Proof.Machine.execAonCycle s
  | .stackRefresh stack channel bank => Sys2Proof.Machine.execStackRefresh stack channel bank s
  | .recalChannelDone stack failures => Sys2Proof.Machine.execRecalChannelDone stack failures s
  | .inBandLinkReset => Sys2Proof.Machine.execInBandLinkReset s
  | .idleFlit port hdr => Sys2Proof.Machine.execIdleFlit port hdr s
  | .echoReceive port hdr cookie => Sys2Proof.Machine.execEchoReceive port hdr cookie s
  | .pinLevelChange input level full => Sys2Proof.Machine.execPinLevelChange input level full s
  | .pwmPeriodBoundary led => Sys2Proof.Machine.execPwmPeriodBoundary led s
  | .domainMeasure khz toggled stopped => Sys2Proof.Machine.execDomainMeasure khz toggled stopped s

end Sys2Proof.Machine
end

