-- ==== Sys2Proof/Safety.lean ====
section
/-! DEFINITION. What claims about commands speak of: a safe step, the state after a command's own effect, a module at rest,
and requesters whose register writes take effect. -/

namespace Sys2Proof.Machine

/-- Whether one step answers a next state. -/
def stepsSafely (s : State) : Bool :=
  match step s with
  | .next _ => true
  | .fault _ => false
  | .refused _ => false

/-- The module as a command finds it: the answers of earlier steps have left, and nothing befalls a packet yet. -/
def State.begins (s : State) : Dev := { s.dev with rsp := [], net := { s.dev.net with way := .clear } }

/-- The state after a command whose own effect leaves the module `d`: what the command has set going is carried out, and the
commands that wait still wait. -/
def State.ends (s : State) (d : Dev) : State := { s with dev := settle d }

/-- A module at rest: nothing waits that a settling module would carry out. -/
def atRest (d : Dev) : Bool :=
  d.net.way = .clear && d.todo.isEmpty && d.dpt.brakes.isEmpty && d.hst.inbox.isEmpty && d.dbr.stalled.isEmpty
    && d.net.flights.all (fun f => match f.who, f.st with
      | .drawbar _ _, .pending => true
      | .drawbar _ _, _ => false
      | _, _ => true) && (armed d T.INT 0 0 1).isNone
    && mgmtNow d = d.mgmt
    && [64, 65, 66, 67].all (fun h => !((getCore d h).wait = .interrupt && pendingEnabled d h ≠ 0))

/-- What every step leaves (`Certificates`): no action and no capture of STICKY_FIRST is left over; the management target asks for
an interrupt, and is in the fallback, for pending alerts alone (R546, R548); no control core waits in `wfi`
with a pending enabled source (R254). -/
def Settled (d : Dev) : Prop :=
  d.todo = [] ∧ d.firsts = [] ∧
  d.mgmt.ibis.all (alertPending d).testBit ∧ d.mgmt.fallback &&& alertPending d = d.mgmt.fallback ∧
  d.mgmt.byIbi &&& alertPending d = d.mgmt.byIbi ∧ (d.mgmt.ibis = [] → d.mgmt.nacks = 0) ∧
  (alertOn d = false → d.mgmt.released = false) ∧
  ∀ h ∈ [64, 65, 66, 67], (getCore d h).wait = .interrupt → pendingEnabled d h = 0

/-- Every sparse content of a module is in its canonical form (`Map.wf`): register words, the ledger RAM, yard cells and
tallies, stack lines, local RAM, the boot flash and the fuses. -/
def canonical (d : Dev) : Bool :=
  Map.wf (regDefault d.part) d.regs && Map.wf (fun _ => (0 : W32)) d.ledger && Map.wf (fun _ => goodCell 0) d.yard.cells
    && Map.wf (fun _ => ({} : Tally)) d.yard.tallies && Map.wf (fun _ => encodeLine 0 false) d.stk.lines
    && Map.wf (fun _ => goodCell 0) d.cores.lram && Map.wf (fun _ => 0xFF) d.xsp.flash
    && Map.wf (fun _ => ((0, 0) : Nat × Nat)) d.fus.rows

/-- A requester that is no host function (those write through BAR0). -/
def onChip : Who → Bool
  | .host _ => false
  | _ => true

/-- What any access of a requester to a register page does first: it cancels the sample of the requester's run (R448) and
ends its high-word latch (R62). -/
def touched (w : Who) (d : Dev) : Dev := dropLatch w (pageTouched w d)

/-- The fields of a register word that a requester may write (R57, R646). -/
def openFields (d : Dev) (w : Who) (k : Nat) : Nat := (writeMask d w k).getD 0

/-- A requester on the chip may write fields of a register word, the block takes the value, and no stabled link or bundle
lies between them (R57, R191, R646). -/
def mayPut (d : Dev) (w : Who) (k v : Nat) : Bool :=
  let e := pageTouched w d
  onChip w && openFields e w k != 0 && !blockRefuses e w k (v % 2 ^ 32) && !attachCut e w (0x40000000 + k)

/-- A unit whose run, if it has one, is an original that is not being sampled: its reads cancel nothing (R448). -/
def plainRun (d : Dev) (u : Nat) : Bool := match runOf d u with
  | none => true
  | some r => r.kind = .original && r.sample.isNone

/-- The instruction word that a core issues and the module once it is fetched (R212, R218): the core runs, no imprecise
exception and no breakpoint comes first, the word is fetched whole and unpoisoned and is not reserved on this core, and no
parity error is armed. A hardware loop keeps the word. -/
def fetched (d : Dev) (h len : Nat) : Option (Nat × Dev) :=
  if canIssue d h && (getCore d h).pending.isNone && !(breakHit d h && (getCore d h).mode ≠ .debugHalt) then
    match fetchWord h len d with
    | (.ok (w, false), e) =>
      let e1 := if (getCore e h).loop.isSome then updCore h (fun c => c.keep c.pc w false) e else e
      if !reservedWord h (w % 2 ^ 32) && (armed e1 (coreTy h) (coreInst h) 0 3).isNone then some (w, e1) else none
    | _ => none
  else none

/-- VALUE and ACCUM of a tally after the loop of R154, for at most `n` rounds: while ACCUM is at least GRANULE, VALUE advances
by one, modulo 2^32, and ACCUM loses a granule. -/
def wholeGranules (granule : Nat) : Nat → Nat → Nat → Nat × Nat
  | 0, v, acc => (v, acc)
  | n + 1, v, acc => if granule ≤ acc then wholeGranules granule n ((v + 1) % 2 ^ 32) (acc - granule) else (v, acc)

/-- Byte `j` of a cell's word. -/
def wordByte (w : W32) (j : Nat) : Byte := w.extractLsb' (8 * j) 8

end Sys2Proof.Machine
end

