-- ==== Sys2Proof/Certificates/Slice0/Obligations.lean ====
section
/-! DEFINITION. The statements for the provers: what each row of the opcode table answers, what a step is, and what the
manual's rules say of flags, rights, cells, tallies, semaphores, cores and exceptions. -/

open Sys2Proof Sys2Proof.Machine
/-! ### Registers of any page -/

/-- Plain register writes (R9, R646): a requester on the chip that may write fields of a word stores exactly those, in range; a
host function's write goes through BAR0. Row REGISTER_WRITE, at addresses that lead to this module's pages, that nothing
befalls on its way. -/
def Obligations.PlainRegisterWriteCompletes : Prop :=
  ∀ (s : State) (d : Dev), d = s.begins → ∀ (who : Who) (addr : Addr) (value : W64) (k : Nat),
    regKey (addr.toNat % 2 ^ 46) = some k → toward d who addr.toNat = .here → k % 4 = 0 → 0x040 ≤ keyOff k →
    ¬ (keyTy k = T.YRD ∧ keyPage k = 1 ∧ keyOff k = 0x050) →
    (∀ m e, blockWrite who m k (value.toNat % 2 ^ 32) e = none) → mayPut d who k value.toNat = true →
    exec (.registerWrite who addr false value .clear) s = .next (s.ends
      (let e := touched who d
       wr k (plainValue (openFields (pageTouched who d) who k) (rd e k) k (value.toNat % 2 ^ 32)) e))

/-- Header rows (R52, R55, R56, R112, R470, R644): what each does once its requester may write the word. Rows STICKY_CLEAR,
INJECT_ARM, OWNER_WRITE, UNIT_RESET (of a coach, a control core or an engine), ENABLE_WRITE, STABLE_REQ, PROBATION_REQ and
UNIT_RESET_COMPLETE. -/
def Obligations.HeaderRowsComplete : Prop :=
  ∀ (s : State) (d : Dev), d = s.begins → ∀ (who : Who) (ty : Fin 32) (inst : Fin 64),
    inst.val < instances d.part ty.val →
    (∀ (page : Fin 128) (value : W32), page.val < pagesPer ty.val → ownSticky ty.val page.val = true →
      mayPut d who (rk ty.val inst.val page.val 0x010) value.toNat = true →
      exec (.stickyClear who ty inst page value) s =
        .next (s.ends (clearSticky ty.val inst.val page.val value.toNat (touched who d)))) ∧
    (∀ (page : Fin 128) (flag : Fin 32) (param : BitVec 16), page.val < pagesPer ty.val →
      ownSticky ty.val page.val = true → canInject ty.val page.val flag.val = true → ty.val ≠ T.HMI →
      mayPut d who (rk ty.val inst.val page.val 0x01C) (2 ^ 31 + flag.val * 65536 + param.toNat) = true →
      exec (.injectArm who ty inst page flag param) s =
        .next (s.ends (arm ty.val inst.val page.val flag.val param.toNat (touched who d)))) ∧
    (0 < pagesPer ty.val →
      (∀ owner : Fin 16, (capBits ty.val inst.val).testBit 1 = true → mayPut d who (kOWNER ty.val inst.val) owner.val = true →
        exec (.ownerWrite who ty inst owner) s =
          .next (s.ends (wr (kOWNER ty.val inst.val) owner.val (touched who d)))) ∧
      (∀ on : Bool, mayPut d who (kCTRL ty.val inst.val) (b2n on) = true →
        enabled (touched who d) ty.val inst.val = !on →
        exec (.enableWrite who ty inst on) s = .next (s.ends (enableUnit ty.val inst.val on (touched who d)))) ∧
      (∀ u : Nat, u < 0x52 → ¬ (0x44 ≤ u ∧ u < 0x48) → unitPage u = (ty.val, inst.val) →
        mayPut d who (kCTRL ty.val inst.val) (ctrlWord d ty.val inst.val 2) = true →
        enabled (touched who d) ty.val inst.val = enabled d ty.val inst.val →
        rdB (touched who d) (kCTRL ty.val inst.val) 1 = false →
        exec (.unitReset who ty inst) s = .next (s.ends (resetUnit u (touched who d)))) ∧
      (∀ c : Nat, unitCode ty.val inst.val = some c → enabled (touched who d) ty.val inst.val = enabled d ty.val inst.val →
        (mayPut d who (kCTRL ty.val inst.val) (ctrlWord d ty.val inst.val 4) = true →
          c ≠ 0x40 → codeState (touched who d) c ≠ .stabled →
          exec (.stableReq who ty inst) s = .next (s.ends (stableUnit c (touched who d)))) ∧
        (mayPut d who (kCTRL ty.val inst.val) (ctrlWord d ty.val inst.val 8) = true →
          c / 0x1000 ≠ 2 → c / 0x1000 < 4 → codeState (touched who d) c = .stabled →
          (c / 0x1000 = 1 → regionIn (touched who d) (c % 0x1000) = false) →
          exec (.probationReq who ty inst) s = .next (s.ends
            (let e := touched who d
             setUnitState (codePage c).1 (codePage c).2 .probation
              { e with integ := { e.integ with passed := e.integ.passed.filter (· ≠ c) } })))) ∧
      (ty.val ≠ T.STK → ty.val ≠ T.CCH → ty.val ≠ T.CTL → ty.val ≠ T.YRD →
        rdB d (kCTRL ty.val inst.val) 1 = true → unitState d ty.val inst.val = .resetting →
        exec (.unitResetComplete ty inst) s = .next (s.ends
          (setUnitState ty.val inst.val .running (resetBit ty.val inst.val false d)))))

/-- Reads of registers (R9, R62): the value the block shows, what reading clears, and the latched high word. Rows
COUNTER_READ_CLEAR and HIGH_WORD_LATCH, at addresses that lead to this module's pages, that nothing befalls on their way. -/
def Obligations.RegisterReadsComplete : Prop :=
  ∀ (s : State) (d : Dev), d = s.begins → ∀ (who : Who) (addr : Addr) (k : Nat),
    regKey (addr.toNat % 2 ^ 46) = some k → toward d who addr.toNat = .here → k % 4 = 0 → onChip who = true →
    attachCut (pageTouched who d) who (0x40000000 + k) = false →
    populated (pageTouched who d).part k = true → mayRead (pageTouched who d) who k = true →
    latchOf (touched who d) who = none → keyTy k ≠ T.INT → keyTy k ≠ T.TWC → runsOn k = false → isCtrEntry k = false →
    looseMask (touched who d) k = 0 →
    ((accOf k).rc = true → wideLow k = false →
      exec (.counterReadClear who addr false .clear) s = .next (s.ends
        (let e := touched who d
         answer who (.data (leBytes 4 (wordNow e k)) false) (readClears k e)))) ∧
    (wideLow k = true → (accOf k).rc = false → looseMask (touched who d) (k + 4) = 0 →
      exec (.highWordLatch who addr .clear) s = .next (s.ends
        (let e := touched who d
         answer who (.data (leBytes 4 (wordNow e k)) false) (setLatch who (k + 4) (wordNow e (k + 4)) e))))

/-! ### Clocks and the governor -/

/-- Rows of the clocks (R69, R71, R75, R78, R80, R81, R82): TICK, which counts modulo 2^64 from REF and from the holdover
oscillator alike, REF_LOST, REF_UNLOCK, HOLDOVER_SWITCH, PLL_OUTPUTS_STOP, REF_QUALIFIED, REF_RESTORE, REF_RELOCKED,
REF_MEASURE within 500 ppm, AON_LOST, AON_RESTORED, STEP_RATE_MEASURE, DOMAIN_MEASURE. The model's choice: REF_PPM is
truncated toward zero (log entry 47), self-refresh begins with the holdover switch (48), and the tick goes on over resets
(43). -/
def Obligations.ClockRowsComplete : Prop :=
  ∀ (s : State) (d : Dev), d = s.begins →
    (∃ e : Dev, exec .tick s = .next (s.ends e) ∧ tick e = (tick d + 1) % 2 ^ 64) ∧
    (d.clk.lost = false → exec .refLost s = .next (s.ends (drawbarRefLost (flag0 T.CLK 0 0 0 (updClk (fun c => { c with
      lost := true, locked := false, refPresent := false, relocking := false, good := 0 }) d))))) ∧
    (d.clk.lost = false → exec .refUnlock s = .next (s.ends (drawbarRefLost (flag0 T.CLK 0 2 0 (flag0 T.CLK 0 0 0
      (updClk (fun c => { c with
        lost := true, locked := false, refPresent := true, relocking := false, good := 0 }) d)))))) ∧
    (d.clk.lost = true → exec .holdoverSwitch s = .next (s.ends
      (selfRefresh (updClk (fun c => { c with holdover := true }) d)))) ∧
    (d.clk.lost = true → d.clk.stopped = false → exec .pllOutputsStop s = .next (s.ends
      (drawbarRefLost (selfRefresh (updClk (fun c => { c with stopped := true }) d))))) ∧
    (d.clk.lost = true → d.clk.injectEnd = none → exec .refQualified s = .next (s.ends (updClk (fun c => { c with
      refPresent := true, injectEnd := none
      relocking := c.relocking || rdB d (rk T.CLK 0 0 0x040) 8 }) d))) ∧
    (∀ who, mayPut d who (rk T.CLK 0 0 0x040) (setBit (rd d (rk T.CLK 0 0 0x040)) 9) = true →
      (touched who d).clk.lost = true → exec (.refRestore who) s = .next (s.ends
        (updClk (fun c => { c with relocking := true })
          (wr (rk T.CLK 0 0 0x040) (setBit (rd d (rk T.CLK 0 0 0x040)) 9 % 2 ^ 32 &&& 0x110) (touched who d))))) ∧
    (d.clk.relocking = true → exec .refRelocked s = .next (s.ends (drawbarRefBack
      (each (List.range d.part.stacks) (fun p e =>
          if (stackOf e p).mode = .selfRefresh then updStack p (fun c => { c with mode := .recalibrating }) e else e)
        (updClk (fun c => { c with
          lost := false, locked := true, relocking := false, holdover := false, stopped := false
          refPresent := true, injectEnd := none }) d))))) ∧
    (∀ cycles : W32, ((cycles.toNat : Int) - 781250).natAbs * 1000000 ≤ 500 * 781250 →
      exec (.refMeasure cycles) s = .next (s.ends (updClk (fun c => { c with
          good := c.good + 1, inRange := true, range := c.range && decide (c.good + 1 < 2) })
        (wr (rk T.CLK 0 0 0x048)
          (ofSigned 16 (clampInt (-32768) 32767 (Int.tdiv (((cycles.toNat : Int) - 781250) * 128) 100))) d)))) ∧
    (d.clk.refPresent = true → exec .aonLost s = .next (s.ends
      (flag0 T.CLK 0 3 0 (updClk (fun c => { c with aon := false }) d)))) ∧
    exec .aonRestored s = .next (s.ends (updClk (fun c => { c with aon := true }) d)) ∧
    (∀ mhz : BitVec 16, exec (.stepRateMeasure mhz) s = .next (s.ends (wr (rk T.GOV 0 1 0x058) mhz.toNat d))) ∧
    (∀ (khz : List W32) (toggled stopped : BitVec 14),
      exec (.domainMeasure khz toggled stopped) s = .next (s.ends
        (let mask := rd d (rk T.CLK 0 1 0x040)
         let e := wr (rk T.CLK 0 1 0x044) (toggled.toNat &&& mask) (foldBelow 14 (fun i e =>
           wr (rk T.CLK 0 1 (0x050 + 4 * i)) (if mask.testBit i then (khz.map (·.toNat)).getD i 0 else 0) e) d)
         wr (rk T.CLK 0 1 0x048) (rd e (rk T.CLK 0 1 0x048) ||| (stopped.toNat &&& mask)) e)))

/-- Rows of the governor (R91, R93, R94, R95, R96, R97, R560): GOV_EVALUATE with the pressure below the band, SETTLE_EXPIRE,
GOV_PAGE, GOV_VOUT_COMMAND, GOV_READ_VOUT, PMBUS_TRANSACTION_DONE, RESUME, MANUAL_TARGET_WRITE, GOV_MODE_WRITE, BOOST_BUCKET,
TJ_SENSOR_UPDATE in AUTO mode below THROT_ON. The model's choice: the base of 750 mV while VCORE is unknown (log entries 44,
133), rounding and words of the bus (45, 171), the sensor that is reported (134). -/
def Obligations.GovernorRowsComplete : Prop :=
  ∀ (s : State) (d : Dev), d = s.begins →
    (∀ p : Int, evalDue d = true → enabled d T.GOV 0 = true → d.part.ioDies = 1 → govAuto d = true →
      (let u := thermalStep (updGov (fun g => { g with evaled := tick d }) d)
       let th := d.gov.cooled || decide (govCeiling u ≠ govCeiling d)
       let e := updGov (fun g => { g with cooled := false }) u
       pressure e = some p → p < toSigned 16 (rdF d (kV 0 0x050) 15 0) → exec .govEvaluate s = .next (s.ends
        (let n := min (vcmd e + rdF e (kV 0 0x04C) 7 0) (govCeiling e)
         setTarget (govClamp e n) th (if vcmd e < n then 1 else 0)
           (updGov (fun g => { g with above := 0 }) e))))) ∧
    (∀ t : Nat, d.gov.settle = some t → t ≤ tick d → exec .settleExpire s = .next (s.ends (updGov (fun g => { g with
      settle := none, reading := true, boosting := if g.vcmd ≤ 850 then none else g.boosting }) d))) ∧
    -- the port counts the transaction and its START, finds the lines free, and puts the bytes on the bus (R552, R560)
    (let onLines := fun (e : Dev) => updTw 1 (fun x => { x with scl := true, sda := true }) (twCount 1 5 (twCount 1 0 e))
     let onBus := fun (target : Option (List Byte)) (reads : Bool) (e : Dev) => updTw 1 (fun x => { x with
       wire := wireBytes (rdF e (kV 1 0x040) 6 0) target reads (rdB e (kV 1 0x040) 8) }) e
     pinsCut d = false → govFree d = true → (twPort d 1).mode ≠ .stuck → armed d T.TWC 1 0 3 = none →
      (pageEn d = true → d.gov.paged = false → (voutDue d || d.gov.reading) = true → exec (.govPage .free) s = .next (s.ends
        (let e := onLines (updGov (fun g => { g with txn := some .page }) d)
         onBus (some [0x00, BitVec.ofNat 8 (rdF e (kV 1 0x040) 19 16)]) false e))) ∧
      (∀ (v : Nat) (th : Bool), d.gov.next = some (v, th) → voutDue d = true → (pageEn d = true → d.gov.paged = true) →
        exec (.govVoutCommand .free) s = .next (s.ends
          (let e := onLines (updGov (fun g => { g with
            txn := some (.vout v th), next := g.later.map (fun w => (w, false)), later := none, paged := false }) d)
           let w := voutWord v e
           let bs := wireBytes (rdF e (kV 1 0x040) 6 0) (some (0x21 :: leBytes 2 w.1)) false (rdB e (kV 1 0x040) 8)
           updTw 1 (fun x => { x with wire := bs }) w.2))) ∧
      (d.gov.reading = true → (pageEn d = true → d.gov.paged = true) → exec (.govReadVout .free) s = .next (s.ends
        (onBus (some [0x8B]) true
          (onLines (updGov (fun g => { g with txn := some .read, reading := false, paged := false }) d)))))) ∧
    (∀ (v : Nat) (th : Bool) (word : BitVec 16) (l : Lines), d.gov.txn = some (.vout v th) → pinsCut d = false →
      armed d T.TWC 1 0 0 = none → armed d T.GOV 0 0 0 = none →
      exec (.pmbusTransactionDone 0 word l) s = .next (s.ends (startNext 1
        (updGov (fun g => { g with
            vcmd := v, settle := some (tick d + rdF d (kV 0 0x070) 15 0)
            boosting := if 850 < v && g.boosting.isNone then some (tick d) else g.boosting })
          (updGov (fun g => { g with txn := none, fails := 0, pageFails := 0 }) d))))) ∧
    (∀ who : Who,
      (mayPut d who (kV 0 0x040) (setBit (rd d (kV 0 0x040)) 10) = true →
        exec (.resume who) s = .next (s.ends (govCtrl (setBit (rd d (kV 0 0x040)) 10 % 2 ^ 32) (touched who d)))) ∧
      (∀ value : W32, mayPut d who (kV 0 0x040) value.toNat = true →
        exec (.govModeWrite who value) s = .next (s.ends (govCtrl value.toNat (touched who d)))) ∧
      (∀ mv : BitVec 16, mayPut d who (kV 0 0x05C) mv.toNat = true → govAuto (touched who d) = false →
        exec (.manualTargetWrite who mv) s = .next (s.ends
          (let e := wr (kV 0 0x05C) mv.toNat (touched who d)
           setTarget (govClamp e (rdF e (kV 0 0x05C) 15 0)) false 0 e)))) ∧
    exec .boostBucket s = .next (s.ends (boostCheck (updGov (fun g => { g with boost := (0 :: g.boost).take 60 }) d))) ∧
    (∀ (sensor : Fin 18) (value : BitVec 16), (tjSensors d.part).contains sensor.val = true →
      govAuto d = true → enabled d T.GOV 0 = true →
      (let e := wr (kV 1 (0x060 + 4 * sensor.val)) value.toNat d
       (tjMax e).2 < 16 * throtOn e → exec (.tjSensorUpdate sensor value) s = .next (s.ends
        (let moved := govCeiling (wr (kV 1 0x048) ((tjMax e).1 * 65536 + ofSigned 16 (tjMax e).2) e) ≠ govCeiling d
         updGov (fun g => { g with throttle := false, hot := false, cooled := g.cooled || decide moved })
          (wr (kV 1 0x048) ((tjMax e).1 * 65536 + ofSigned 16 (tjMax e).2) e)))))

/-! ### Power, reset and boot -/

/-- Rows of the power sequencer, each in the power state that R101 lets it act in (R97, R101, R102, R104, R105, R107, R108,
R124, R125): THERMAL_TRIP, POWER_ON_RESET, VAON_LOSS, PG_RISE of the rail that comes up, RAIL_WAIT_EXPIRE between rails and
into RUN, PG_TIMEOUT with retries left and after the third, POWER_FAULT in RUN and in SEQ_UP, SEQ_DOWN_END, RETRY_EXPIRE,
STRAP_SAMPLE, REF_BOOT_TIMEOUT, RTC_ALARM in DORMANT and elsewhere, AON_CYCLE, WAKE_EVENT of the management bus. The model's
choice: contents lost with V_AON read as unwritten (log entry 6), SOURCE of a reset-cause record (42), and the header counts
of the ledger RAM (147). -/
def Obligations.PowerRowsComplete : Prop :=
  ∀ (s : State) (d : Dev), d = s.begins →
    -- a rail has failed: PG_TIMEOUT with DETAIL the rail; RETRY while retries are left, then HOLD (R104)
    let railFailed := fun (k : Nat) (d : Dev) => seqDown (if 3 ≤ d.pwr.retries then .hold else .retry) true
      (updPwr (fun p => { p with retries := if 3 ≤ d.pwr.retries then 0 else p.retries + 1 }) (flag0 T.SYS 0 1 k d))
    (∀ sensor : Fin 18, d.pwr.state = .run → (tjSensors d.part).contains sensor.val = true → 110 * 16 ≤ tjOf d sensor.val →
      exec (.thermalTrip sensor) s = .next (s.ends
        (seqDown .hold false (writeCause 0x0A (T.GOV * 256) sensor.val (flag0 T.GOV 0 4 sensor.val d))))) ∧
    (d.pwr.state = .off → exec .powerOnReset s = .next (s.ends (powerOn d))) ∧
    -- a fuse row that was being blown is left partly blown (R596); the button and hot-plug pins keep their levels (R566)
    exec .vaonLoss s = .next (s.ends
      (let c := progCut d
       { part := c.part, fus := c.fus, xsp := { flash := c.xsp.flash }, rsp := c.rsp, fresh := c.fresh
         hmi := { ins := (c.hmi.ins.filter (fun e => decide (8 ≤ e.1) && e.2.pin)).map (fun e =>
           (e.1, { pin := true, level := true })) }
         pwr := { state := .off, vrEn := 0, pg := 0, resetLow := c.pwr.resetLow, testEn := c.pwr.testEn
                  perstLow := c.pwr.perstLow } })) ∧
    (∀ rail : Fin 8, d.pwr.vrEn.testBit rail.val = true → d.pwr.state = .seqUp → d.pwr.rail = rail.val →
      d.pwr.railWait = false → exec (.pgRise rail) s = .next (s.ends
        (updPwr (fun p => { p with pg := setBit p.pg rail.val, railWait := true })
          (if rail.val = 7 then { d with mgmt := { d.mgmt with upAt := tick d + 1000 } } else d)))) ∧
    (d.pwr.state = .seqUp → d.pwr.railWait = true → exec .railWaitExpire s = .next (s.ends (updPwr (fun p =>
      if p.rail < 7 then { p with rail := p.rail + 1, railWait := false, vrEn := setBit p.vrEn (p.rail + 1) }
      else { p with state := .run, railWait := false, retries := 0, warm := if heldInReset d then .heldLow else .idle }) d))) ∧
    (d.pwr.state = .seqUp → d.pwr.railWait = false → exec .pgTimeout s = .next (s.ends (railFailed d.pwr.rail d))) ∧
    (∀ rail : Fin 8, d.pwr.pg.testBit rail.val = true →
      let e := updPwr (fun p => { p with pg := clrBit p.pg rail.val }) d
      (d.pwr.state = .run → exec (.powerFault rail) s = .next (s.ends
        (updPwr (fun p => { p with cause := 0x09, detail := rail.val })
          (seqDown .retry false (writeCause 0x09 0 rail.val (flag0 T.SYS 0 0 rail.val e)))))) ∧
      (d.pwr.state = .seqUp → exec (.powerFault rail) s = .next (s.ends (railFailed rail.val e)))) ∧
    (d.pwr.state = .seqDown →
      let e := updPwr (fun p => { p with state := p.goal, pg := 0 }) d
      let f := if d.pwr.goal = .dormant then ledCount 0x10 (bump (kAon 1 0x048) e) else e
      exec .seqDownEnd s = .next (s.ends (if d.pwr.pinLatched then coldStart 0x02 0 f
        else if d.pwr.goal = .dormant && d.pwr.wakeLatched then coldStart 0x0B (rd f (kAon 0 0x054)) f else f))) ∧
    (d.pwr.state = .retry → exec .retryExpire s = .next (s.ends
      (seqUp (if d.pwr.longRetry then d else ledCount 0x0C (bump (kAon 1 0x044) d))))) ∧
    (∀ straps : BitVec 7, d.pwr.strapped = false → d.pwr.pg.testBit 0 = true → exec (.strapSample straps) s = .next (s.ends
      (wr (kSys 0 0x044) straps.toNat (updPwr (fun p => { p with strapped := true }) d)))) ∧
    (d.pwr.pg.testBit 3 = true →
      (d.clk.lost = true → exec .refBootTimeout s = .next (s.ends
        (selfRefresh (updClk (fun c => { c with holdover := true }) d)))) ∧
      (d.clk.lost = false → exec .refBootTimeout s = .next (s.ends
        (drawbarRefLost (selfRefresh (updClk (fun c => { c with holdover := true })
          (flag0 T.CLK 0 0 0 (updClk (fun c => { c with
            lost := true, locked := false, refPresent := false, relocking := false, good := 0 }) d)))))))) ∧
    (rd64 d (kAon 0 0x048) ≠ 0 → rd64 d (kAon 0 0x040) = rd64 d (kAon 0 0x048) →
      ((d.pwr.state = .run ∨ bit (rd d (kAon 0 0x050)) 0 = false) → exec .rtcAlarm s = .next (s.ends d)) ∧
      (d.pwr.state = .dormant → bit (rd d (kAon 0 0x050)) 0 = true → exec .rtcAlarm s = .next (s.ends
        (let e := wakeBits 1 d
         coldStart 0x0B (rd e (kAon 0 0x054)) e)))) ∧
    exec .aonCycle s = .next (s.ends (wr64 (kAon 0 0x040) (rd64 d (kAon 0 0x040) + 1) d)) ∧
    ((∀ i < 23, (hmiIn d i).rose = false) → d.pwr.state = .dormant → bit (rd d (kAon 0 0x050)) 1 = true →
      exec (.wakeEvent true) s = .next (s.ends
        (let e := wakeBits 2 d
         coldStart 0x0B (rd e (kAon 0 0x054)) e)))

/-- Rows of resets and of the boot (R109, R111, R113, R116, R119, R122, R123, R608): RESET_N_ASSERT, RESET_N_RELEASE,
TEST_EN_ASSERT, WARM_RESET, WARM_RESET_SWEEP_DONE, WARM_RESET_VOUT_WAIT_EXPIRE, PERST_N_ASSERT, PERST_N_RELEASE, WDT_KICK,
WDT_EXPIRE, DORMANT_REQ; BOOT_ROM_START, with BOOT_LOOP after three warm resets before BOOT_DONE, BOOT_HOST_DOORBELL,
HOST_BOOT_TIMEOUT, BOOT_IMAGE_CHECK of the primary flash image. A key other than 0xA5 only sets BAD_KEY. That the image starts
in XSP_CFG's dummy cycles' free value and at S level is the model's choice (log entries 165, 167). -/
def Obligations.ResetRowsComplete : Prop :=
  ∀ (s : State) (d : Dev), d = s.begins →
    (d.pwr.state = .run → d.pwr.warm = .idle →
      exec .resetNAssert s = .next (s.ends (warmStart 0x02 0 (updPwr (fun p => { p with resetLow := true }) d))) ∧
      exec (.testEnAssert true) s = .next (s.ends (warmStart 0x02 0 (updPwr (fun p => { p with testEn := true }) d)))) ∧
    (d.pwr.state = .seqDown →
      let e := updPwr (fun p => { p with resetLow := true, pinLatched := true }) d
      (d.pwr.goal ≠ .dormant → exec .resetNAssert s = .next (s.ends e)) ∧
      (d.pwr.goal = .dormant → exec .resetNAssert s = .next (s.ends
        (flag0 T.AON 0 1 0 (wakeBits 4 (updPwr (fun p => { p with wakeLatched := true }) e)))))) ∧
    (d.pwr.state = .run → d.pwr.warm = .heldLow →
      (d.pwr.testEn = false → exec .resetNRelease s = .next (s.ends
        (updPwr (fun p => { p with resetLow := false, warm := .idle }) d))) ∧
      (d.pwr.resetLow = false → exec (.testEnAssert false) s = .next (s.ends
        (updPwr (fun p => { p with testEn := false, warm := .idle }) d)))) ∧
    (d.pwr.state = .hold → d.pwr.resetLow = true → exec .resetNRelease s = .next (s.ends
      (coldStart 0x02 0 (updPwr (fun p => { p with resetLow := false }) d)))) ∧
    (∀ (who : Who) (key : BitVec 8),
      (mayPut d who (kSys 0 0x048) (key.toNat * 256 + 1) = true → exec (.warmReset who key) s = .next (s.ends
        (if key = 0xA5 then warmStart 0x03 0 (touched who d) else flag0 T.SYS 0 7 0 (touched who d)))) ∧
      (mayPut d who (kSys 0 0x048) (key.toNat * 256 + 2) = true → exec (.dormantReq who key) s = .next (s.ends
        (if key = 0xA5 then sleepReq (touched who d) else flag0 T.SYS 0 7 0 (touched who d))))) ∧
    (d.pwr.warm = .sweep → exec (.warmResetSweepDone 0) s = .next (s.ends
      (updGov (fun g => { g with vcmd := 750 })
        (updPwr (fun p => { p with warm := .vout }) { d with yard := { d.yard with cells := [] } })))) ∧
    (∀ status : BitVec 8, status ≠ 0 → d.pwr.warm = .sweep → exec (.warmResetSweepDone status) s = .next (s.ends
      (flag0 T.GOV 0 0 status.toNat (updGov (fun g => { g with stopped := true, vcmd := 0 })
        (updPwr (fun p => { p with warm := .vout }) { d with yard := { d.yard with cells := [] } }))))) ∧
    (d.pwr.warm = .vout → exec .warmResetVoutWaitExpire s = .next (s.ends
      (updPwr (fun p => { p with warm := if heldInReset d then .heldLow else .idle }) (leaveSelfRefresh d)))) ∧
    (d.pwr.perstLow = false → d.pwr.state = .run → exec .perstNAssert s = .next (s.ends
      (endpointReset (flag0 T.HST 0 2 0 (updPwr (fun p => { p with perstLow := true }) d))))) ∧
    exec .perstNRelease s = .next (s.ends (updPwr (fun p => { p with
      perstLow := false, hostSince := if p.boot = .host then tick d else p.hostSince }) d)) ∧
    (∀ (who : Who), mayPut d who (kSys 0 0x058) 0x4B = true → exec (.wdtKick who 0x4B) s = .next (s.ends
      (wrB (kSys 0 0x05C) 0 false (wdtReload (touched who d))))) ∧
    (wdtPeriod d ≠ 0 → rdF d (kSys 0 0x05C) 31 16 = 0 → (getCore d 64).mode ≠ .debugHalt →
      (rdB d (kSys 0 0x05C) 0 = false → exec .wdtExpire s = .next (s.ends
        (wdtReload (updCore 64 (fun c => { c with ipie := setBit c.ipie 4 })
          (wrB (kSys 0 0x05C) 0 true (flag0 T.SYS 0 3 0 d)))))) ∧
      (rdB d (kSys 0 0x05C) 0 = true → exec .wdtExpire s = .next (s.ends (warmStart 0x04 0 (flag0 T.SYS 0 4 0 d))))) ∧
    -- XSP_CFG goes to 1S at 25 MHz, its dummy cycles open (R598)
    (d.pwr.state = .run → d.pwr.warm = .idle → d.pwr.boot = .idle → (d.clk.locked || d.clk.holdover) = true →
      (getCore d 64).mode ≠ .debugHalt →
      let t := probeNow (trainStacks d)
      let e := wr (rk T.XSP 0 0 0x040) ((draw t).1.toNat % 256 * 2 ^ 16 + 8) (draw t).2
      ((d.pwr.warmed = true ∧ 3 ≤ d.pwr.bootCount) → exec .bootRomStart s = .next (s.ends
        (flag0 T.SYS 0 6 0 (bootCode 0x1E (updPwr (fun p => { p with boot := .halted }) e))))) ∧
      ((d.pwr.warmed = false ∨ d.pwr.bootCount < 3) →
        (bootSrc d = 1 → exec .bootRomStart s = .next (s.ends (bootCode 0 (hostWait e)))) ∧
        (bootSrc d = 3 → exec .bootRomStart s = .next (s.ends
          (bootCode 0x1F (updPwr (fun p => { p with boot := .halted }) e)))) ∧
        (bootSrc d ≠ 1 → bootSrc d ≠ 3 → exec .bootRomStart s = .next (s.ends
          (bootCode 0 (updPwr (fun p => { p with boot := .primary }) e)))))) ∧
    (∀ (who : Who) (value : W32), mayPut d who (kSys 0 0x060) value.toNat = true → 0 < value.toNat → value.toNat ≤ 0x3E100 →
      (touched who d).pwr.boot = .host → exec (.bootHostDoorbell who value) s = .next (s.ends
        (updPwr (fun p => { p with loaded := true }) (wr (kSys 0 0x060) value.toNat (touched who d))))) ∧
    (d.pwr.boot = .host → d.pwr.loaded = false → d.pwr.perstLow = false → bootSrc d = 2 → d.pwr.hostSince + 10000000 ≤ tick d →
      exec .hostBootTimeout s = .next (s.ends (bootFailed 0x16 d))) ∧
    (d.pwr.boot = .primary → (getCore d 64).mode ≠ .debugHalt →
      (exec (.bootImageCheck false none) s = .next (s.ends (bootFailed 0x15 (flag0 T.XSP 0 0 0 d)))) ∧
      (let hdr := flashBytes d 0 256
       let payload := flashBytes d 256 (min 0x3E000 (fieldAt hdr 0x08 4))
       let c := imageCheck hdr payload (rdB d (kFuse 0) 1) (keyHash d)
       (c = 0 → exec (.bootImageCheck true none) s = .next (s.ends (bootJump hdr payload 0x01 d))) ∧
       (c ≠ 0 → exec (.bootImageCheck true none) s = .next (s.ends (bootFailed c d)))))

/-! ### The yard -/

/-- What the checks of the yard and of stack memory decide (R142, R302, R304). An access of the yard that no other holds up
takes the first step of R142 that applies; it passes for a compartment other than 0 only inside one region that is its own or
that it may read, with the rights the access needs. A stack access passes for such a compartment only inside one of its own
windows, with the right. What does not pass is answered without regard to the cells' contents. That memory being zeroed
refuses REFUSED_RIGHTS is the model's choice (log entry 119). -/
def Obligations.AccessChecksDecide : Prop :=
  ∀ (d : Dev) (acc : Access) (a len : Nat),
    (behindHeld d acc.who a = false → yardSwitch d acc.who (stationAt a) = false → clusterCut d acc.who (stationAt a) = false →
      clusterOut d (stationAt a) = false → enabled d T.YRD (stationAt a) = true →
      (regionAt d a = none → yardCheck d acc a len = .fail .noRegion none) ∧
      ∀ (id : Nat) (r : Desc), regionAt d a = some (id, r) →
        let supRead := acc.cmp = 0 ∧ acc.write = false
        let right := (acc.cmp = 0 ∨ (acc.cmp = r.owner ∧ (if acc.write then r.wr else r.rd) = true) ∨
            (acc.write = false ∧ r.readers.testBit acc.cmp = true ∧ r.rd = true)) ∧
          (acc.fetch = true → r.fetch = true) ∧ (acc.bar4 = true → r.host = true)
        ((r.sweeping = true ∨ (getPage d (a / 0x1000)).sweeping = true ∨ unitState d T.YRD (stationAt a) = .resetting) →
          yardCheck d acc a len = .held) ∧
        (r.sweeping = false → (getPage d (a / 0x1000)).sweeping = false → unitState d T.YRD (stationAt a) ≠ .resetting →
          (r.base + r.bytes < a + len → yardCheck d acc a len = .fail .bounds (some r.owner)) ∧
          (a + len ≤ r.base + r.bytes →
            (r.held = true → ¬ supRead → yardCheck d acc a len = .fail .postmortemHeld (some r.owner)) ∧
            (r.held = false ∨ supRead →
              ((∃ u, r.claim = some u ∧ u ≠ acc.unit) → ¬ supRead → yardCheck d acc a len = .fail .claimed (some r.owner)) ∧
              ((∀ u, r.claim = some u → u = acc.unit) ∨ supRead →
                (right → yardCheck d acc a len = .ok) ∧
                (¬ right → yardCheck d acc a len = .fail .refusedRights (some r.owner))))))) ∧
    (acc.cmp ≠ 0 → yardCheck d acc a len = .ok → ∃ (id : Nat) (r : Desc), regionAt d a = some (id, r) ∧
      a + len ≤ r.base + r.bytes ∧ (acc.write = true → acc.cmp = r.owner ∧ r.wr = true) ∧
      (acc.write = false → (acc.cmp = r.owner ∨ r.readers.testBit acc.cmp = true) ∧ r.rd = true) ∧
      (acc.fetch = true → r.fetch = true) ∧ (acc.bar4 = true → r.host = true)) ∧
    (yardCheck d acc a len ≠ .ok → ∀ (n : Nat) (c : Cell39),
      (yardRead acc a len (putCell n c d)).1 = (yardRead acc a len d).1) ∧
    (let o := a - stackBase
     let covers := fun k => winCovers (stkWin d acc.cmp k) o len = true
     (usable d < o + len → stackCheck d acc a len = .fail .noRegion none) ∧
     (o + len ≤ usable d →
       (acc.cmp = 0 → stackCheck d acc a len = .ok) ∧
       (acc.cmp ≠ 0 →
         ((∀ k < 8, ¬ covers k) → stackCheck d acc a len = .fail .noRegion (winOwner d o)) ∧
         (stackCheck d acc a len = .ok ↔ beingZeroed d o len = false ∧
           ∃ k < 8, covers k ∧ bit (stkWin d acc.cmp k) (if acc.write then 61 else 62) = true ∧
             (acc.fetch = true → bit (stkWin d acc.cmp k) 60 = true) ∧
             (acc.bar4 = true → bit (stkWin d acc.cmp k) 59 = true)) ∧
         ((∃ k < 8, covers k) → stackCheck d acc a len ≠ .ok →
           stackCheck d acc a len = .fail .refusedRights (winOwner d o)))))

/-- Accesses of the yard (R142, R165, R168, R183): YARD_READ and YARD_WRITE that nothing befalls, POSTED_WRITE_ACK,
FAILURE_NOTICE, RSP_TIMEOUT of a read, LATE_RSP of a read whose timer has expired. The model's choice: a write lands in the
step that issues it and its flight has answered by then (log entry 5), and what a lost request answers (15, 178). -/
def Obligations.YardAccessRowsComplete : Prop :=
  ∀ (s : State) (d : Dev), d = s.begins → ∀ who : Who,
    (∀ (addr : Addr) (mode : TtMode) (cells elem : Fin 33) (stride : BitVec 16) (bs : List PByte) (e : Dev),
      toward d who addr.toNat = .here → addr.toNat % 2 ^ 46 < yardEnd →
      ttShape who mode cells.val elem.val stride.toNat = true →
      ttRead { who := who, cmp := cmpOf d who, unit := who.unitId } (addr.toNat % 2 ^ 46) mode cells.val elem.val stride.toNat d
        = (.data bs, e) →
      exec (.yardRead who addr mode cells elem stride .clear 0) s =
        .next (s.ends (answer who (.data (bs.map (·.1)) (bs.any (·.2))) e))) ∧
    (∀ (addr : Addr) (bytes : List Byte) (e : Dev),
      let a := addr.toNat % 2 ^ 46
      toward d who addr.toNat = .here → a < yardEnd → clusterParts a bytes.length = [(0, bytes.length)] →
      memWrite { who := who, cmp := cmpOf d who, write := true, unit := who.unitId } a bytes (ringRefused who a 0 d) = (.ok, e) →
      exec (.yardWrite who addr bytes .clear false 0) s = .next (s.ends
        (launch ⟨who, cmpOf d who, tagOf d who.unitId, serialOf d who.unitId, a, true, .acked, tick d, false⟩ e))) ∧
    (∀ (f : Flight) (rest : List Flight), takeFlight (fun f => f.who = who && f.posted && f.st = .acked) d.net.flights
        = (some f, rest) →
      exec (.postedWriteAck who) s = .next (s.ends (fenceCheck who { d with net := { d.net with flights := rest } }))) ∧
    (∀ (k : Kind) (f : Flight) (pre rest : List Flight), who.isHost = false → d.net.flights = pre ++ f :: rest →
      (∀ x ∈ pre, x.who = who → x.posted = true → ∀ k, x.st ≠ .failed k) → f.who = who → f.posted = true → f.st = .failed k →
      exec (.failureNotice who) s =
        .next (s.ends (fenceCheck who (failureNotice f k { d with net := { d.net with flights := pre ++ rest } })))) ∧
    (∀ (f : Flight) (pre rest : List Flight), d.net.flights = pre ++ f :: rest →
      (∀ x ∈ pre, x.who = who → tick d < x.since + rdF d (rk T.TPK 0 0 0x044) 15 0) →
      f.who = who → f.posted = false → f.since + rdF d (rk T.TPK 0 0 0x044) 15 0 ≤ tick d →
      exec (.rspTimeout who false) s = .next (s.ends (answer who (.data [] true)
        (let e := { d with net := { d.net with flights := pre ++ rest } }
         { flag0 T.TPK 0 2 (timerStation who) (bump (rk T.TPK 0 0 0x04C) e) with
           net := { e.net with expired := e.net.expired ++ [who] } })))) ∧
    (d.net.expired.contains who = true → exec (.lateRsp who) s = .next (s.ends (flag0 T.TPK 0 3 (timerStation who)
      (bump (rk T.TPK 0 0 0x050) { d with net := { d.net with expired := d.net.expired.erase who } }))))

/-- Atomics (R135): the register takes the value that was in memory, and memory the result. Rows AMO_ADD to AMO_MAXU, of a
core at an address of its own module, that nothing befalls on their way. The model's choice: an atomic whose operands lose
their parity (log entry 123). -/
def Obligations.AtomicRowsComplete : Prop :=
  ∀ (s : State) (core : Fin 68) (rd ra rb : Fin 32) (wide : Bool) (op : AmoOp)
    (row : Fin 68 → Fin 32 → Fin 32 → Fin 32 → Bool → Mishap → Instr),
    (op, row) ∈ [(AmoOp.add, Instr.amoAdd), (.and, .amoAnd), (.or, .amoOr), (.swap, .amoSwap), (.cas, .amoCas),
      (.min, .amoMin), (.max, .amoMax), (.minu, .amoMinu), (.maxu, .amoMaxu)] →
    ∀ (w : Nat) (e e0 e2 : Dev) (old : Nat) (bad : Bool), fetched s.begins core.val 4 = some (w, e0) → e = onWay .clear e0 →
      plainRun e core.val = true →
      let n := if wide then 8 else 4
      let x := (getCore e core.val).sReg ra.val
      let v := (getCore e core.val).sReg rb.val
      let c := (getCore e core.val).sReg rd.val
      let acc := coreAcc e core.val true
      let b := x.1 % 2 ^ 46
      x.2 = false → v.2 = false → (op = .cas → c.2 = false) → x.1 % n = 0 → toward e acc.who x.1 = .here →
      (b < yardEnd → yardCheck e { acc with write := false } b n ≠ .held) →
      amo acc b n op (v.1 % 2 ^ (8 * n)) (c.1 % 2 ^ (8 * n)) e = (.ok (old, bad), e2) →
      exec (row core rd ra rb wide .clear) s =
        .next (s.ends (conclude core.val 4 w .next (updCore core.val (fun c => c.setS rd.val old bad) e2)))

/-- Region descriptors (R138 to R141): DESC_READ, DESC_COMMIT, DESC_RELEASE and DESC_MODIFY of a descriptor that passes the
checks, in a cluster whose command register is not busy. SWEEP_DONE (R170, R172): the pages that swept are clean and hold
zeros before held accesses go on. -/
def Obligations.DescriptorRowsComplete : Prop :=
   (∀ (s : State) (who : Who) (c : Fin 64) (d : Dev), d = touched who s.begins → descBusy d c.val = false →
      let id := descSel d c.val
      let old := getDesc d id
      let r := descOffered d c.val
      (mayPut s.begins who (kY c.val 0 0x048) 0 = true → exec (.descRead who c) s = .next (s.ends (descResult c.val 0
        (wr64 (kY c.val 0 0x068) old.w3 (wr64 (kY c.val 0 0x060) old.w2 (wr64 (kY c.val 0 0x058) old.w1
          (wr64 (kY c.val 0 0x050) old.w0 d))))))) ∧
      (mayPut s.begins who (kY c.val 0 0x048) 1 = true → commitCheck d c.val r = 0 →
        exec (.descCommit who c) s = .next (s.ends
          (let any := r.pages.any (fun p => sweepsPage (getPage d p) r)
           let e := updDesc id (fun _ => { r with w0 := setBit r.w0 63, goal := if any then .commit else .none })
             (orphan id (each r.pages (fun p d => updPage p (fun e => { e with
               valid := true, sweeping := sweepsPage e r, lastOwner := r.owner, desc := id }) d) d))
           if any then descRuns c.val id e else descResult c.val 0 e))) ∧
      (mayPut s.begins who (kY c.val 0 0x048) 2 = true → old.valid = true →
        ((old.held || old.sweep ≠ 0) = true → exec (.descRelease who c) s = .next (s.ends (descRuns c.val id
          (startSweep id .release (updDesc id (fun x => { x with w0 := clrBit x.w0 63 }) d))))) ∧
        ((old.held || old.sweep ≠ 0) = false → exec (.descRelease who c) s = .next (s.ends
          -- VALID alone is cleared; the fields stay to be read (R141)
          (descResult c.val 0 (updDesc id (fun x => { x with w0 := clrBit x.w0 63, goal := .none }) (freePages old d)))))) ∧
      (mayPut s.begins who (kY c.val 0 0x048) 3 = true → old.valid = true → r.basePage = old.basePage →
        r.sizePages = old.sizePages → r.twoD = old.twoD → fld r.w1 55 48 = fld old.w1 55 48 → r.owner = old.owner →
        badField r = false → badTally d r = false →
        exec (.descModify who c) s = .next (s.ends (descResult c.val 0
          (updDesc id (fun x => { x with w0 := setBit r.w0 63, w1 := r.w1, w2 := r.w2, w3 := r.w3 }) d))))) ∧
   (∀ (s : State) (region : BitVec 14), (getDesc s.dev region.toNat).sweeping = true →
      s.dev.yard.orphans.find? (fun o => o.1 = region.toNat) = none →
      ∃ d : Dev, exec (.sweepDone region) s = .next (s.ends (bootReleased (sweptFor region.toNat (releaseHeld d)))) ∧
        ∀ p ∈ (getDesc s.dev region.toNat).pages, (getPage s.dev p).sweeping = true →
          (getPage d p).sweeping = false ∧ (getPage d p).clean = true ∧ ∀ n, n / 1024 = p → getCell d n = goodCell 0)

/-- Tallies (R154, R156, R157): TALLY_INCREMENT of a landed write, TALLY_REARM, TALLY_WATCH_REGISTER in the three answers of a
cluster that takes it. The model's choice: the order of increments and the bare watch of TALLY_WATCH_REGISTER (log entry 112),
and when a watch answered FULL is tried again (37). -/
def Obligations.TallyRowsComplete : Prop :=
  ∀ (s : State) (d : Dev), d = s.begins →
    (∀ (x : Landed) (rest : List Landed), d.yard.landed = x :: rest → clusterOut d (x.tally / 1024) = false →
      enabled d T.YRD (x.tally / 1024) = true →
      exec (.tallyIncrement .clear) s =
        .next (s.ends (tallyAdd x.tally x.cells x.granule { d with yard := { d.yard with landed := rest } }))) ∧
    (∀ (who : Who) (c : Fin 64), mayPut d who (kY c.val 1 0x050) 1 = true → exec (.tallyRearm who c) s = .next (s.ends
      (updTally (tallySel (touched who d) c.val) (fun t => { t with value := 0, accum := 0 }) (touched who d)))) ∧
    (∀ (tally thresh : BitVec 16) (waiter : WatchFor), watchTaken d ⟨tally.toNat, thresh.toNat, waiter⟩ = true →
      (thresh.toNat ≤ (getTally d tally.toNat).value →
        exec (.tallyWatchRegister tally thresh waiter) s = .next (s.ends (push (.watchFired waiter) d))) ∧
      ((getTally d tally.toNat).value < thresh.toNat → watchesUsed d (tally.toNat / 1024) < 256 →
        exec (.tallyWatchRegister tally thresh waiter) s = .next (s.ends { d with yard := { d.yard with
          watches := d.yard.watches ++ [⟨tally.toNat, thresh.toNat, waiter⟩] } })) ∧
      ((getTally d tally.toNat).value < thresh.toNat → 256 ≤ watchesUsed d (tally.toNat / 1024) → (∀ u, waiter ≠ .core u) →
        exec (.tallyWatchRegister tally thresh waiter) s = .next (s.ends
          (let e := flag0 T.YRD (tally.toNat / 1024) 7 (tally.toNat % 1024) d
           { e with dpt := { e.dpt with retries := e.dpt.retries ++ [⟨tally.toNat, thresh.toNat, waiter⟩] } }))))

/-- Semaphores (R159, R162, R164): SEM_SIGNAL, SEM_WAIT, SEM_ACQUIRE, SEM_RELEASE of a core at its own module, which nothing
befalls on their way and which the cluster answers with a code or queues; SEM_TIMEOUT, SEM_KIND_WRITE, SEM_VALUE_WRITE,
LOCK_REAP, LOCK_REAP_DONE. The model's choice: what stabling does to waiters (log entry 16), and that a waiter's removal
grants none behind it (179). -/
def Obligations.SemaphoreRowsComplete : Prop :=
  ∀ (s : State) (d : Dev), d = s.begins →
    (∀ (op : SemOp) (row : Fin 68 → Fin 32 → Fin 32 → Fin 32 → BitVec 8 → Mishap → Instr),
      (op, row) ∈ [(SemOp.signal, Instr.semSignal), (.wait, .semWait), (.acquire, .semAcquire), (.release, .semRelease)] →
      ∀ (core : Fin 68) (rd ra rb : Fin 32) (count : BitVec 8) (w k : Nat) (e0 e e2 : Dev) (code : Option Nat),
        fetched d core.val 4 = some (w, e0) → e = onWay .clear e0 → plainRun e core.val = true →
        let x := (getCore e core.val).sReg ra.val
        let t := (getCore e core.val).sReg rb.val
        (op = .signal → count ≠ 0) → x.2 = false → t.2 = false → toward e (coreWho core.val) x.1 = .here →
        semAt (x.1 % 2 ^ 46) = some k → yardSwitch e (coreWho core.val) (k / 256) = false →
        (enabled e T.YRD (k / 256) || clusterOut e (k / 256)) = true →
        semDo op k (cmpOf e (coreWho core.val)) core.val count.toNat (t.1 % 2 ^ 32) e = (code, e2) →
        exec (row core rd ra rb count .clear) s = .next (s.ends (match code with
          | some n => conclude core.val 4 w .next (updCore core.val (fun c => c.setS rd.val n false) e2)
          | none => conclude core.val 4 w (.waits (.sem rd.val) true) e2))) ∧
    (∀ (holder : Fin 640) (q : Waiter) (t : Nat) (pre rest : List Waiter), d.yard.waiters = pre ++ q :: rest →
      (∀ x ∈ pre, x.holder = holder.val → ∀ u, x.deadline = some u → tick d < u) → q.holder = holder.val →
      q.deadline = some t → t ≤ tick d →
      exec (.semTimeout holder) s = .next (s.ends (answerSem holder.val 2 (dropWaiter q.sem holder.val d)))) ∧
    (∀ (who : Who) (c : Fin 64) (k : Fin 256) (value : W32),
      (mayPut d who (semKey c k true) value.toNat = true →
        (getCmp (touched who d) (fld value.toNat 31 28)).draining = false → exec (.semKindWrite who c k value) s = .next (s.ends
          (semKind (c.val * 256 + k.val) (fld value.toNat 27 26)
            (updSem (c.val * 256 + k.val) (fun x => { x with owner := fld value.toNat 31 28 }) (touched who d))))) ∧
      (mayPut d who (semKey c k false) value.toNat = true → exec (.semValueWrite who c k value) s = .next (s.ends
        (semValue (c.val * 256 + k.val) (fld value.toNat 23 0) (touched who d))))) ∧
    (∀ (holder : Fin 68) (c : Fin 64) (r : Reap) (pre rest : List Reap), d.yard.reaps = pre ++ r :: rest →
      (∀ x ∈ pre, x.holder ≠ holder.val) → r.holder = holder.val →
      holderCut d holder.val c.val = false →
      exec (.lockReap holder c .clear) s = .next (s.ends
        (let e := reapAt r c.val d
         { e with yard := { e.yard with reaps := e.yard.reaps.map (fun x =>
           if x = r then { x with done := setBit x.done c.val } else x) } }))) ∧
    (∀ holder : Fin 68, exec (.lockReapDone holder) s = .next (s.ends { d with yard := { d.yard with
      reaps := d.yard.reaps.filter (fun r => !(r.holder = holder.val && r.done = 2 ^ 64 - 1)) } }))

/-! ### Cores -/

/-- Scalar rows (R219, R220, R221): SCALAR_ALU, SCALAR_IMMEDIATE, LUI, LI, LIH, and the branches BRANCH, JAL, JALR, LOOP. A
register that is written takes the poison of what it is computed from; s0 discards what is written to it (R212,
`ZeroRegisterStaysZero`). The model's choice: corners of division and of conversion flags (log entry 26), the length of a loop
body (181), reserved func bits (122). -/
def Obligations.ScalarRowsComplete : Prop :=
  ∀ (s : State) (core : Fin 68) (rd ra rb : Fin 32),
    let h := core.val
    (∀ (w : Nat) (e : Dev), fetched s.begins h 4 = some (w, e) →
      let a := (getCore e h).sReg ra.val
      let b := (getCore e h).sReg rb.val
      (∀ (i : Fin 21) (op : ScalarOp),
        [ScalarOp.add, .sub, .and, .or, .xor, .sll, .srl, .sra, .slt, .sltu, .mul, .mulh, .mulhu, .div, .divu, .rem, .remu,
          .min, .max, .minu, .maxu][i.val]? = some op →
        exec (.scalarAlu core rd ra rb (i.castLE (by decide))) s = .next (s.ends (conclude h 4 w .next (updCore h (fun c =>
          (c.setS rd.val (scalarOp op a.1 b.1).1 ((c.sReg ra.val).2 || (c.sReg rb.val).2)).raiseFp (scalarOp op a.1 b.1).2)
          e)))) ∧
      (∀ (op : ImmOp) (imm : BitVec 16) (r : Nat × Nat), immOp op a.1 imm = some r →
        exec (.scalarImmediate core op rd ra imm) s =
          .next (s.ends (conclude h 4 w .next (updCore h (fun c => c.setS rd.val r.1 a.2) e)))) ∧
      (∀ imm : BitVec 16, exec (.lui core rd imm) s = .next (s.ends (conclude h 4 w .next
        (updCore h (fun c => c.setS rd.val (imm32 (BitVec.ofNat 32 (imm.toNat * 65536))) false) e)))) ∧
      (∀ (op : BranchOp) (off : BitVec 16), a.2 = false → b.2 = false →
        exec (.branch core op ra rb off) s = .next (s.ends (conclude h 4 w
          (if branchTaken op a.1 b.1 then .jump (target e h off.toInt) else .next) e))) ∧
      (∀ off : BitVec 26, exec (.jal core off) s = .next (s.ends (conclude h 4 w (.jump (target e h off.toInt))
        (updCore h (fun c => c.setS 31 ((c.pc + 4) % 2 ^ 48) false) e)))) ∧
      (∀ imm : BitVec 16, a.2 = false → exec (.jalr core rd ra imm) s = .next (s.ends (conclude h 4 w
        (.jump (dataAddr a.1 imm / 4 * 4)) (updCore h (fun c => c.setS rd.val ((c.pc + 4) % 2 ^ 48) false) e)))) ∧
      (∀ off : BitVec 16, (getCore e h).loop = none → 0 < off.toNat → off.toNat ≤ 32 → a.2 = false →
        let pc := (getCore e h).pc
        exec (.loop core ra off) s = .next (s.ends
          (if a.1 = 0 then
             (match skipBody h off.toNat ((pc + 4) % 2 ^ 48) e with
              | (.ok past, e2) => conclude h 4 w (.jump past) e2
              | (.error o, e2) => conclude h 4 w o (if o = .waits .far false then updCore h (fun c => c.keep c.pc w false) e2 else e2))
           else conclude h 4 w .next
            (updCore h (fun c => { c with loop := some ((pc + 4) % 2 ^ 48, off.toNat, off.toNat + 1, a.1) }) e))))) ∧
    (∀ (w : Nat) (e : Dev) (imm : W32), fetched s.begins h 8 = some (w, e) →
      exec (.li core rd imm) s = .next (s.ends (conclude h 8 w .next (updCore h (fun c => c.setS rd.val (imm32 imm) false) e))) ∧
      exec (.lih core rd imm) s = .next (s.ends (conclude h 8 w .next (updCore h (fun c =>
        c.setS rd.val ((c.sReg rd.val).1 % 2 ^ 32 + imm.toNat * 2 ^ 32) (c.sReg rd.val).2) e))))

/-- Loads and stores (R219, R237): LOAD of an address that answers with data, STORE to an address that takes it, both with
nothing that befalls them on their way, and ENQ of an image that is read, which the depot then judges. The model's choice: for
whom an access acts (log entry 28), and the program counter in waits (33). -/
def Obligations.LoadStoreRowsComplete : Prop :=
  ∀ (s : State) (core : Fin 68) (rd ra rb : Fin 32) (size : Fin 4) (imm : BitVec 16) (w : Nat) (e e2 : Dev),
    let h := core.val
    let n := 2 ^ size.val
    fetched s.begins h 4 = some (w, e) → plainRun e h = true → ((getCore e h).sReg ra.val).2 = false →
    let a := dataAddr ((getCore e h).sReg ra.val).1 imm
    let sent := onWay .clear e
    (∀ bs : List PByte, a % n = 0 → coreRead h a n false (.load rd.val n) sent = (.data bs, e2) →
      exec (.load core rd ra size imm .clear 0) s = .next (s.ends (conclude h 4 w .next (loaded h rd.val a bs e2)))) ∧
    (∀ v : Nat, a % n = 0 → (getCore e h).sReg rd.val = (v, false) →
      coreWrite h a (leBytes n v) (foldAccess h 0 a true (leBytes n v) sent) = (.ok, e2) →
      exec (.store core rd ra size imm .clear) s = .next (s.ends (conclude h 4 w .next e2))) ∧
    (∀ (bs : List PByte) (q : Nat), (getCore e h).sReg rb.val = (q, false) → ((getCore e h).sReg ra.val).1 % 64 = 0 →
      coreRead h ((getCore e h).sReg ra.val).1 64 false (.image rd.val (q % 2 ^ 18)) e = (.data bs, e2) →
      bs.any (·.2) = false →
      exec (.enq core rd ra rb) s = .next (s.ends
        (let r := offer h rd.val (q % 2 ^ 18) (Image.ofBytes (bs.map (·.1)))
          (foldAccess h 0 ((getCore e h).sReg ra.val).1 false (bs.map (·.1)) e2)
         conclude h 4 w r.1 (if r.1 = .waits .far false then updCore h (fun c => c.keep c.pc w false) r.2 else r.2))))

/-- Vector and matrix rows of a coach (R219, R221, R222, R223, R224, R226, R230, R231): VECTOR_INTEGER, VECTOR_FLOAT,
VECTOR_COMPARE, VECTOR_PERMUTE, VECTOR_CONVERT, VECTOR_MOVE, MMA, MRD, MWR, MCLR, WBWAIT. The model's choice: rounding and
estimates (log entries 21, 22), NaN patterns (23, 184, 185), FP32 sums, rotate and shuffle (24), the third source and
converted elements (25), quiet NaNs of a comparison (182), a reduction of nothing (183). -/
def Obligations.VectorRowsComplete : Prop :=
  ∀ (s : State) (core : Fin 68) (w : Nat) (e : Dev) (vd va vb : Fin 32) (p : Fin 8) (pz : Bool),
    let h := core.val
    h < 64 → fetched s.begins h 4 = some (w, e) →
    let goes := fun f => s.ends (conclude h 4 w .next (updCore h f e))
    (∀ (el : Elem) (op : VIntOp), el.isFloat = false →
      exec (.vectorInteger core el op vd va vb p pz) s = .next (goes (Core.vint el op vd.val va.val vb.val p.val pz))) ∧
    (∀ (el : Elem) (op : VFltOp), el.isFloat = true →
      exec (.vectorFloat core el op vd va vb p pz) s = .next (goes (Core.vflt el op vd.val va.val vb.val p.val pz))) ∧
    (∀ (el : Elem) (op : VCmpOp), (op = .isnan ∨ op = .isinvalid → el.isFloat = true) →
      exec (.vectorCompare core el op vd va vb p pz) s = .next (goes (Core.vcmp el op vd.val va.val vb.val p.val pz))) ∧
    (∀ (el : Elem) (op : VPermOp),
      exec (.vectorPermute core el op vd va vb p pz) s = .next (goes (Core.vperm el op vd.val va.val vb.val p.val pz))) ∧
    (∀ src dst : ConvType, exec (.vectorConvert core src dst vd va p pz) s = .next (goes
      (Core.vconv src dst vd.val va.val p.val pz (fun i => (Config.unreached src.num dst.num i).toNat)))) ∧
    (∀ op : VMovOp, exec (.vectorMove core op vd va vb p pz) s = .next (goes (Core.vmove op vd.val va.val vb.val p.val pz))) ∧
    (∀ (ad : Fin 8) (row : Fin 32), accParity h [32 * ad.val + row.val] e = e →
      exec (.mrd core vd ad row) s = .next (goes (Core.mrd vd.val ad.val row.val false))) ∧
    (∀ (fmt : Fin 16) (f : MFmt) (ad : Fin 8), mfmt fmt.val = some f →
      (∀ row : Fin 32, exec (.mwr core fmt ad row va) s = .next (goes (Core.mwr ad.val row.val va.val f.isFloat false))) ∧
      exec (.mclr core fmt ad) s = .next (goes (Core.mclr ad.val f.isFloat)) ∧
      (∀ (sa : Fin 32) (wb : Fin 2) (sp z : Bool) (x : Nat), (sp = true → va.val % 2 = 0) →
        (z = false → (getCore e h).accFloat.testBit ad.val = f.isFloat) →
        (getCore e h).loading wb.val = false → (getCore e h).sReg sa.val = (x, false) → x % f.k = 0 →
        let kn := if sp then 2 * f.k else f.k
        let row := fun k => k * 64 * f.bits / 8 / (if sp then 2 else 1)
        x + kn ≤ f.maxK → (sp = true → (getCore e h).metaOk wb.val x kn = true) →
        exec (.mma core fmt ad va sa wb sp z) s = .next (s.ends (conclude h 4 w .next
          (let e2 := wbufParity h wb.val (row x) (row (x + kn))
             (if z then e else accParity h ((List.range 32).map (32 * ad.val + ·)) e)
           updCore h (Core.mma f ad.val va.val x wb.val sp z)
             (bump64By (rk T.CCH h 1 0x090) 8 (seeBuffer h wb.val e2))))))) ∧
    (∀ wb : Fin 2, (getCore e h).loading wb.val = false → exec (.wbwait core wb) s = .next (s.ends (conclude h 4 w .next e)))

/-- Stream rows of a coach (R219, R231 to R234), after what the stream engines of the coach move meanwhile with nothing that
befalls it on its way: VLD takes the oldest entry of the FIFO, or waits for one, or traps on a complete stream that has none;
VST puts an entry into a FIFO with room; STCFG takes a descriptor that is read; STSTART begins the transfer; STSTOP ends it;
STWAIT goes on once the stream runs no more, and waits until then; STSTAT. STREAM_COMPLETE: a stream with nothing left to move
is complete, and a buffer it filled is no longer seen. The model's choice: when engines move data (log entries 38, 117), what
a descriptor asks (39), a load past its buffer and STSTOP (85), the free value of STSTAT (86). -/
def Obligations.StreamRowsComplete : Prop :=
   (∀ (s : State) (core : Fin 68) (w : Nat) (e : Dev) (vd : Fin 32) (i : Fin 8),
      let h := core.val
      h < 64 → fetched s.begins h 4 = some (w, e) →
      let st := (getCore e h).stream i.val
      let sent := onWay .clear e
      (∀ m : Dev, pumpAll h sent = (none, m) →
        let sm := (getCore m h).stream i.val
        (st.serves 0 = true →
          (∀ (x : FifoEntry) (rest : List FifoEntry), sm.fifo = x :: rest →
            exec (.vld core vd i .clear) s = .next (s.ends (conclude h 4 w .next (updCore h (fun c =>
              (c.updStream i.val (fun s => { s with fifo := rest })).setLanes vd.val (entryLanes x)) m)))) ∧
          (sm.fifo = [] → exec (.vld core vd i .clear) s = .next (s.ends (conclude h 4 w
            (if sm.mode = .complete then .trap 0x09 0 else .waits .unit false) m)))) ∧
        (st.serves 1 = true →
          (∀ e2 : Dev, sm.fifo.length < 4 → armed m (coreTy h) (coreInst h) 0 3 = none →
            pumpAll h (updCore h (fun c => c.updStream i.val (fun s => { s with fifo := s.fifo ++ [laneEntry c vd.val] })) m)
              = (none, e2) →
            exec (.vst core i vd .clear) s = .next (s.ends (conclude h 4 w .next e2))) ∧
          (4 ≤ sm.fifo.length → exec (.vst core i vd .clear) s = .next (s.ends (conclude h 4 w (.waits .unit false) m)))) ∧
        exec (.stwait core i .clear) s = .next (s.ends (conclude h 4 w
          (if sm.mode = .running then .waits .unit false else .next) m))) ∧
      (∀ (ra : Fin 32) (a : Nat) (bs : List PByte) (e2 : Dev), (getCore e h).sReg ra.val = (a, false) → a % 8 = 0 → a < 2 ^ 48 →
        isLocal e a = true → inOutbound (a % 2 ^ 46) = false → plainRun e h = true → readDesc h a e = (.data bs, e2) →
        bs.any (·.2) = false →
        exec (.stcfg core i ra) s = .next (s.ends (conclude h 4 w .next (gotDesc h i.val a bs e2).2))) ∧
      (∀ e2 : Dev,
        let x : Stream := { words := st.words, run := st.words, mode := .running }
        badStream sent x = false →
        pumpAll h (updCore h (fun c =>
          let c1 := c.updStream i.val (fun _ => x)
          if x.buffer.isSome then { c1 with wbCmp := cmpOf sent (coreWho h) + 1 } else c1) sent) = (none, e2) →
        exec (.ststart core i .clear) s = .next (s.ends (conclude h 4 w .next e2))) ∧
      exec (.ststop core i) s = .next (s.ends (conclude h 4 w .next (updCore h (fun c =>
        c.updStream i.val (fun s => { words := s.words, run := s.run, mode := .stopped })) e))) ∧
      exec (.ststat core vd i) s = .next (s.ends (conclude h 4 w .next (updCore h
        (fun c => c.setS vd.val (Config.streamStatus st.mode.num st.done st.pos).toNat false) e)))) ∧
   (∀ (s : State) (core : Fin 64) (i : Fin 8) (m : Dev), pumpAll core.val s.begins = (none, m) →
      let sm := (getCore m core.val).stream i.val
      (sm.finished = true → exec (.streamComplete core i .clear) s = .next (s.ends (updCore core.val (fun c =>
        let c1 := c.updStream i.val (fun s => { s with mode := .complete })
        match sm.buffer with
        | some b => { c1 with wbSeen := clrBit c1.wbSeen b }
        | none => c1) m))) ∧
      (sm.finished = false → exec (.streamComplete core i .clear) s = .next (s.ends m)))

/-- Waits, CSRs, exceptions and ends (R156, R166, R217, R219, R238, R239, R241, R245, R248, R254): TWAIT that fires or waits,
TREARM, CSRR, CSRW, SCSRR, SCSRW, TRAP, BRK, XRET, DONE, ABORT, SBRD, SRET, WFI, FENCE. The model's choice: the program
counter in waits (log entry 33), TWAIT's threshold and its refusal (36), poisoned results (80), the user code of ABORT (83),
SBRD past the last holder (84), when an interrupt is taken (124). -/
def Obligations.ControlRowsComplete : Prop :=
  ∀ (s : State) (core : Fin 68) (w : Nat) (e : Dev) (rd ra rb : Fin 32),
    let h := core.val
    fetched s.begins h 4 = some (w, e) →
    let a := (getCore e h).sReg ra.val
    let b := (getCore e h).sReg rb.val
    let c := (getCore e h).sReg rd.val
    let t := a.1 % 2 ^ 16
    (plainRun e h = true → a.2 = false → yardSwitch e (coreWho h) (t / 1024) = false →
      tallyReach e h t = true → tallyMine e h t = true →
      exec (.trearm core ra) s = .next (s.ends (conclude h 4 w .next (updTally t (fun x => { x with value := 0, accum := 0 }) e))) ∧
      ((∀ dl, (getCore s.begins h).wait ≠ .tally dl) → b.2 = false → c.2 = false →
        (b.1 % 2 ^ 32 ≤ (getTally e t).value → exec (.twait core rd ra rb) s = .next (s.ends (conclude h 4 w .next e))) ∧
        ((getTally e t).value < b.1 % 2 ^ 32 → watchesUsed e (t / 1024) < 256 →
          exec (.twait core rd ra rb) s = .next (s.ends (conclude h 4 w
            (.waits (.tally (if c.1 % 2 ^ 32 = 0xFFFFFFFF then none else some (tick e + c.1 % 2 ^ 32))) false)
            { e with yard := { e.yard with watches := e.yard.watches ++ [⟨t, b.1 % 2 ^ 32, .core h⟩] } }))))) ∧
    (∀ n : Fin 1024, csrBad e h n.val = none →
      ((n.val = 3 ∨ n.val = 4 → plainRun e h = true) →
        exec (.csrr core rd n) s = .next (s.ends (conclude h 4 w .next
          (updCore h (fun c => c.setS rd.val (csrValue h n.val e).1 false) (csrValue h n.val e).2)))) ∧
      (a.2 = false →
        exec (.csrw core ra n) s = .next (s.ends (conclude h 4 w .next (updCore h (fun c => c.csrSet n.val a.1) e)))) ∧
      (64 ≤ h → (getCore e h).super = true →
        ((n.val = 3 ∨ n.val = 4 → plainRun e h = true) →
          exec (.scsrr core rd n) s = .next (s.ends (conclude h 4 w .next
            (updCore h (fun c => c.setS rd.val (csrValue h n.val e).1 false) (csrValue h n.val e).2)))) ∧
        (a.2 = false →
          exec (.scsrw core ra n) s = .next (s.ends (conclude h 4 w .next (updCore h (fun c => c.csrSet n.val a.1) e)))))) ∧
    (∀ code : Fin 32, exec (.trap core code) s = .next (s.ends (conclude h 4 w (.trap 0x07 code.val) e))) ∧
    exec (.brk core) s = .next (s.ends (if attached e h
      then updCore h (fun c => { c with mode := .debugHalt, stepping := false }) e else conclude h 4 w (.trap 0x08 0) e)) ∧
    exec (.done core) s = .next (s.ends (conclude h 4 w (.stop 0x00 0) e)) ∧
    (b.2 = false → exec (.abort core rb) s = .next (s.ends (conclude h 4 w (.stop 0x23 (b.1 % 256)) e))) ∧
    (outstanding e (coreWho h) = 0 → isDuplicate e h = false → exec (.fence core rd) s = .next (s.ends (conclude h 4 w .next
      (updCore h (fun c => { (c.setS rd.val c.fence false) with fence := 0 }) e)))) ∧
    (∀ (bs : List PByte) (e2 : Dev), bs.any (·.2) = false →
      (coreRead h (getCore e h).sp 64 false (.frame false) e = (.data bs, e2) →
        exec (.xret core) s = .next (s.ends
          (let r := returns h false (bs.map (·.1)) (foldAccess h 0 (getCore e h).sp false (bs.map (·.1)) e2)
           conclude h 4 w r.1 r.2))) ∧
      (64 ≤ h → (getCore e h).super = true → coreRead h (getCore e h).sp 64 false (.frame true) e = (.data bs, e2) →
        exec (.sret core) s = .next (s.ends
          (let r := returns h true (bs.map (·.1)) (foldAccess h 0 (getCore e h).sp false (bs.map (·.1)) e2)
           conclude h 4 w r.1 r.2)))) ∧
    (64 ≤ h → (getCore e h).super = true →
      exec (.wfi core) s = .next (s.ends (conclude h 4 w
        (if pendingEnabled e h ≠ 0 then .next else .waits .interrupt true) e)) ∧
      (∀ word : Fin 8, h = 64 → a.2 = false → a.1 ≤ 67 → exec (.sbrd core rd ra word) s = .next (s.ends (conclude h 4 w .next
        (updCore h (fun c => c.setS rd.val ((getCore e a.1).box.frame.getD word.val 0) false)
          (if word.val = 7 then updCore a.1 (fun c => { c with box := { c.box with full := false } }) e else e))))))

/-- A core outside the instruction stream (R214, R238, R242, R252, R254, R591): WAYBILL_START, TWAIT_TIMEOUT,
ACCESS_IMPRECISE, INTERRUPT, DBG_HALT_REQ, DBG_STEP, LRAM_CLEAR, LRAM_CLEAR_DONE. The model's choice: the labels of weight
buffers (log entry 34), levels of control cores (29), a pending ACCESS_IMPRECISE (32), what counts as halted (71), when an
interrupt is taken (124). -/
def Obligations.CoreEventRowsComplete : Prop :=
  ∀ (s : State) (d : Dev), d = s.begins → ∀ (core : Fin 68),
    let h := core.val
    (∀ r : Running, runOf d h = some r → (getCore d h).mode = .idle → (getCore d h).halted = false → r.ended = none →
      unitState d (coreTy h) (coreInst h) ≠ .resetting →
      exec (.waybillStart core) s = .next (s.ends (updCore h (fun c => c.started h r) (forsake h d)))) ∧
    (∀ t : Nat, (getCore d h).wait = .tally (some t) → t ≤ tick d →
      exec (.twaitTimeout core) s = .next (s.ends (endProgram h 0x26 0 (dropWatches h d)))) ∧
    (∀ a : Nat, (getCore d h).pending = some a → canIssue d h = true →
      exec (.accessImprecise core) s = .next (s.ends (takeException h 0x05 a 0 d))) ∧
    (∀ n : Fin 4, takesInterrupts d (64 + n.val) = true → bit (getCore d (64 + n.val)).sstatus 1 = true →
      pendingEnabled d (64 + n.val) ≠ 0 → exec (.interrupt n) s = .next (s.ends
        (takeException (64 + n.val) 0x0B 0 0 (updCore (64 + n.val) (fun c => { c with resident := true }) d)))) ∧
    (∀ (who : Who) (value : Fin 8), mayPut d who (kDbg h) value.val = true →
      exec (.dbgHaltReq who core value) s = .next (s.ends (dbgWrite h value.val (touched who d)))) ∧
    (∀ who : Who, mayPut d who (kDbg h) (setBit (rd d (kDbg h)) 1) = true →
      exec (.dbgStep who core) s = .next (s.ends (dbgWrite h (setBit (rd d (kDbg h)) 1 % 2 ^ 32) (touched who d)))) ∧
    (∀ (who : Who) (n : Fin 4),
      (mayPut d who (rk T.CTL n.val 1 0x058) 1 = true → exec (.lramClear who n) s = .next (s.ends
        (let e := touched who d
         wr (rk T.CTL n.val 1 0x058) (rd e (rk T.CTL n.val 1 0x058) ||| 1) e))) ∧
      (rdB d (rk T.CTL n.val 1 0x058) 0 = true → exec (.lramClearDone n) s = .next (s.ends
        (wrB (rk T.CTL n.val 1 0x058) 0 false { d with cores := { d.cores with
          lram := d.cores.lram.filter (fun (x : Nat × Cell39) => x.1 / 65536 ≠ n.val) } }))))

/-! ### The turnpike and the stacks -/

/-- Rows of the turnpike (R188, R189, R190, R470): EPOCH_CMD, EPOCH_SWITCH_DONE, EPOCH_SLOW, ROUTE_DATA_WRITE, LINK_STABLE,
LINK_PROBATION. The model's choice: counts that only timing gives are free (log entry 63). -/
def Obligations.TurnpikeRowsComplete : Prop :=
  ∀ (s : State) (d : Dev), d = s.begins →
    (∀ who : Who, mayPut d who (kT 1 0x048) 1 = true →
      ((touched who d).net.busy = false → exec (.epochCmd who) s = .next (s.ends
        (let e := touched who d
         { e with net := { e.net with busy := true } }))) ∧
      ((touched who d).net.busy = true → exec (.epochCmd who) s = .next (s.ends
        (let e := touched who d
         { e with net := { e.net with again := true } })))) ∧
    exec .epochSwitchDone s = .next (s.ends
      (let e := switchDone d
       each ((List.range 64).filter (fun t => cutOff e (some 0) t && !cutOff d (some 0) t)) loseTallies e)) ∧
    (d.net.busy = true → exec .epochSlow s = .next (s.ends (flag0 T.TPK 0 5 0 d))) ∧
    (∀ (who : Who) (value : W32), mayPut d who (kT 1 0x044) value.toNat = true → routeAuto (touched who d) = false →
      rdB (touched who d) (kT 1 0x040) 12 = true → exec (.routeDataWrite who value) s = .next (s.ends
        (let e := touched who d
         { e with net := { e.net with shadow := Map.set (fun _ => 0) e.net.shadow (routeSel e) (value.toNat % 256) } }))) ∧
    (∀ (who : Who), let e := touched who d
      linkExists (linkSel e) = true →
      (mayPut d who (kT 1 0x054) 1 = true → (getLink e (linkSel e)).state ≠ .stabled →
        -- a link on probation that no table uses is stabled at once; any other once the tables avoid it (R190, R470)
        (let tested := (getLink e (linkSel e)).state = .probation ∧ (getLink e (linkSel e)).passed = false ∧
           linkUsed e (linkSel e) = false
         (tested → exec (.linkStable who) s = .next (s.ends
          (cper { cls := 0x20, block := T.TPK, detail := 0x2000 + linkSel e } (mapBit (0x2000 + linkSel e) true
            (flag0 T.TPK 0 4 (linkSel e) (updLink (linkSel e) (fun k => { k with state := .stabled, passed := false }) e)))))) ∧
         (¬ tested → e.net.toStable.contains (linkSel e) = false → exec (.linkStable who) s = .next (s.ends
          (reroute (updLink (linkSel e) (fun k => { k with passed := false })
            { e with net := { e.net with toStable := e.net.toStable ++ [linkSel e] } })))))) ∧
      (mayPut d who (kT 1 0x054) 2 = true → (getLink e (linkSel e)).state = .stabled →
        exec (.linkProbation who) s = .next (s.ends
          (reroute (updLink (linkSel e) (fun k => { k with state := .probation, passed := false }) e)))))

/-- Rows of the stacks (R201, R203, R205, R206, R207, R208, R209, R210, R211, R483, R488): STACK_READ and STACK_WRITE that
nothing befalls on their way or on the interface, STACK_TEMP_READ from the start of training on, STACK_TRAINING_DONE,
STACK_RECAL_DONE, RECAL_WINDOW, RECAL_CHANNEL_DONE, STACK_REFRESH, PATROL_READ, PATROL_DEBT_TICK, PC_CMD_STABLE, MIGRATE_DONE,
SPARE_EN_WRITE. The model's choice: a write lands in the step that issues it (log entry 5), unwritten lines (6), reset and
stabling of a stack (91), the order of SCRUB_PTR (150), memory that is being zeroed (119). -/
def Obligations.StackRowsComplete : Prop :=
  ∀ (s : State) (d : Dev), d = s.begins →
    (∀ (who : Who) (addr : Addr), toward d who addr.toNat = .here →
      let a := addr.toNat % 2 ^ 46
      stackBase ≤ a → a < stackBase + usable d →
      (∀ (len : Fin 4097) (bar4 : Bool) (upset : BitVec 576) (die : BitVec 8),
        let r := memRead { who := who, cmp := cmpOf d who, bar4 := bar4, unit := who.unitId } a len.val
           (dieEcc a die.toNat (caFailures a 0 (upsetLine a upset d)))
        r.1 ≠ .held →
        exec (.stackRead who addr len bar4 .clear upset 0 die) s = .next (s.ends (answer who (readAnswer r.1) r.2))) ∧
      (∀ bytes : List Byte,
        let e := caFailures a 0 d
        let r := memWrite { who := who, cmp := cmpOf d who, write := true, unit := who.unitId } a bytes e
        r.1 ≠ .held →
        exec (.stackWrite who addr bytes .clear false 0) s = .next (s.ends
          (launch ⟨who, cmpOf d who, tagOf d who.unitId, serialOf e who.unitId, a, true, postedOutcome r.1, tick e, false⟩
            r.2)))) ∧
    (∀ (p : Fin 4) (value : BitVec 16), p.val < d.part.stacks → (stackOf d p.val).started = true →
      let e := updStack p.val (fun c => { c with
        fastRefresh := decide (85 * 16 < value.toInt), halfRate := decide (95 * 16 ≤ value.toInt) })
        (wrF (kS p.val 0 0x044) 15 0 value.toNat d)
      (value.toInt < 95 * 16 → exec (.stackTempRead p value) s = .next (s.ends
        (updStack p.val (fun c => { c with hot := false }) e))) ∧
      (95 * 16 ≤ value.toInt → value.toInt < 105 * 16 → exec (.stackTempRead p value) s = .next (s.ends
        (flag0 T.STK p.val 9 0 e))) ∧
      (105 * 16 ≤ value.toInt → exec (.stackTempRead p value) s = .next (s.ends
        (updStack p.val (fun c => { c with hot := true, rows := [], recal := none })
          (flag0 T.STK p.val 10 0 (flag0 T.STK p.val 9 0 e)))))) ∧
    (∀ p : Fin 4, p.val < d.part.stacks → (stackOf d p.val).mode = .training → unitState d T.STK p.val = .resetting →
      let e := updStack p.val (fun c => { c with inReset := false }) (wrB (kCTRL T.STK p.val) 1 false d)
      (d.clk.lost = false → exec (.stackTrainingDone p true) s = .next (s.ends
        (wakeCheck (setUnitState T.STK p.val (if enabled e T.STK p.val then .running else .off)
          (updStack p.val (fun c => { c with mode := .ready }) e))))) ∧
      exec (.stackTrainingDone p false) s = .next (s.ends (wakeCheck (stableStack p.val (flag0 T.STK p.val 7 0 e))))) ∧
    (∀ p : Fin 4, (stackOf d p.val).mode = .recalibrating →
      exec (.stackRecalDone p) s = .next (s.ends (updStack p.val (fun c => { c with mode := .ready }) d))) ∧
    (∀ (p : Fin 4) (c : Fin 16), p.val < d.part.stacks → stackOnline d p.val = true →
      (let r := recalNow (recalOf d p.val) (tick d)
       let off := c.val * r.1 / 16 + p.val * r.1 / 64
       r.2 + off ≤ tick d → (tick d - r.2 - off) % max 1 r.1 = 0 →
       exec (.recalWindow p c) s = .next (s.ends (updStack p.val (fun x => { x with recal := some c.val }) d)))) ∧
    (∀ (p : Fin 4) (failures : Fin 3) (ch : Nat), (stackOf d p.val).recal = some ch →
      (let e := updStack p.val (fun c => { c with recal := none, rows := c.rows.filter (fun r => r.1 / 64 ≠ ch) }) d
       exec (.recalChannelDone p failures) s = .next (s.ends (if 2 ≤ failures.val then flag0 T.STK p.val 8 ch e else e)))) ∧
    (∀ (p : Fin 4) (channel bank : Fin 32), exec (.stackRefresh p channel bank) s = .next (s.ends
      (updStack p.val (fun c => { c with rows := Map.set (fun _ => 0) c.rows (channel.val * 32 + bank.val) 0 }) d))) ∧
    (∀ p : Fin 4, p.val < d.part.stacks → stackOnline d p.val = true → (stackOf d p.val).debt ≠ 0 →
      ∃ e : Dev, exec (.patrolRead p 0) s = .next (s.ends e) ∧
        rd64 e (kS p.val 1 0x060) =
          ((patrolPlace d p.val (patrolTotal d p.val) (rd64 d (kS p.val 1 0x060) % patrolTotal d p.val) + 1) % patrolTotal d p.val) % 2 ^ 64) ∧
    (d.tlm.debtAt ≤ tick d → (∀ p < d.part.stacks, rdB d (kS p 1 0x068) 31 = false) → exec .patrolDebtTick s = .next (s.ends
      (updTlm (fun t => { t with debtAt := (tick d / 1000 + 1) * 1000 }) d))) ∧
    (∀ (who : Who) (p : Fin 4) (pc : Fin 32), p.val < d.part.stacks →
      mayPut d who (kS p.val 0 0x04C) (256 + pc.val) = true →
      (let e := touched who d
       e.part = d.part → (stackOf e p.val).pcs.testBit pc.val = false → (stackOf e p.val).migrate ≠ some pc.val →
       (spareEn e = false → exec (.pcCmdStable who p pc) s = .next (s.ends (pcStabled p.val pc.val e))) ∧
       (spareEn e = true → rdB e (kS p.val 0 0x050) 8 = false → (stackOf e p.val).migrate = none →
         exec (.pcCmdStable who p pc) s = .next (s.ends
          (wr (kS p.val 0 0x054) (0x80000000 + migrateLines)
            (updStack p.val (fun c => { c with migrate := some pc.val, copied := 0 }) e)))))) ∧
    (∀ (p : Fin 4) (pc : Nat) (lines : Option (BitVec 24)), (stackOf d p.val).migrate = some pc →
      -- in a unit reset, or else offline, nothing is copied (R211)
      ((stackOf d p.val).inReset = true ∨ stackOnline d p.val = false → exec (.migrateDone p lines) s = .next (s.ends d)) ∧
      ((stackOf d p.val).inReset = false → stackOnline d p.val = true →
      let copied := (stackOf d p.val).copied
      let left := migrateLines - copied
      let n := min left ((lines.map BitVec.toNat).getD left)
      let e := copyLines p.val pc copied n d
      exec (.migrateDone p lines) s = .next (s.ends
        (if n < left then wr (kS p.val 0 0x054) (0x80000000 + (left - n)) (updStack p.val (fun x => { x with copied := copied + n }) e)
         else pcStabled p.val pc
          (flag0 T.STK p.val 12 pc (wr (kS p.val 0 0x054) 0 (wrF (kS p.val 0 0x050) 8 0 (256 + pc) e))))))) ∧
    (∀ (who : Who) (on : Bool), mayPut d who (kS 0 0 0x050) (b2n on * 2 ^ 31) = true → (touched who d).stk.accessed = false →
      exec (.spareEnWrite who on) s = .next (s.ends (wrB (kS 0 0 0x050) 31 on (touched who d))))

/-! ### The depot and the compartments -/

/-- Enqueues (R263, R267, R286): ENQUEUE_WINDOW_WRITE, RECORD_TOKEN and RECORD_DECREMENT that the queue takes while no earlier
offer of the requester to it waits, and CQ_HEAD_WRITE by the queue's owner, of requesters on the chip. The model's choice: the
16 bits of a CQ HEAD write (log entry 111), the entry of an injected control-store error (88), images written to the ring at
acceptance (97). -/
def Obligations.EnqueueRowsComplete : Prop :=
  ∀ (s : State) (d : Dev), d = s.begins → armed d T.DPT 0 0 0 = none → armed d T.DPT 0 0 1 = none →
    ∀ (who : Who) (queue : BitVec 16), onChip who = true →
    (d.dpt.brakes.any (fun b => b.who = who && b.queue = queue.toNat) = false →
      (∀ (image : BitVec 512) (e : Dev),
        enqueue who (cmpOf d who) queue.toNat false (Image.ofBytes (leBytes 64 image.toNat)) d = (.code 0, e) →
        exec (.enqueueWindowWrite who queue image .clear) s = .next (s.ends (answer who (.code 0) e))) ∧
      (∀ (key : W32) (slot : Fin 4) (payload : W64) (void : Bool) (e : Dev),
        enqueue who (cmpOf d who) queue.toNat false (tokenImage key.toNat slot.val payload.toNat void) d = (.code 0, e) →
        exec (.recordToken who queue key slot payload void) s = .next (s.ends (answer who (.code 0) e))) ∧
      (∀ (counter : BitVec 20) (n : BitVec 8) (void : Bool) (e : Dev),
        enqueue who (cmpOf d who) queue.toNat false (decrementImage counter.toNat n.toNat void) d = (.code 0, e) →
        exec (.recordDecrement who queue counter n void) s = .next (s.ends (answer who (.code 0) e)))) ∧
    (∀ (value : W64) (ep : Bool), (getQueue d queue.toNat).valid = true → (getQueue d queue.toNat).kind = 1 →
      (cmpOf d who = (getQueue d queue.toNat).owner ∨ cmpOf d who = 0) →
      exec (.cqHeadWrite who queue value ep) s = .next (s.ends (releaseCq queue.toNat
        (updQueue queue.toNat (fun x => { x with
          head := x.head + (value.toNat + 65536 - x.head % 65536) % 65536 }) d))))

/-- Queue and counter commands (R262, R269, R283, R295): QCMD_READ, QCMD_COMMIT, QCMD_MODIFY, QCMD_RELEASE, QCMD_PURGE of a
queue that passes the checks and whose descriptor is read, or held for it where the read has to wait, CTR_CLEAR of an unbound
counter, DPT_EPOCH_CMD. The model's choice: waybills whose counter or key serves another (log entry 12), how descriptors are
held in memory and read (97, 98, 118), DISPATCH_EN at a boundary (96, 121). -/
def Obligations.QueueCommandRowsComplete : Prop :=
  ∀ (s : State) (who : Who) (d : Dev), d = touched who s.begins → armed d T.DPT 0 0 0 = none → armed d T.DPT 0 0 1 = none →
    let q := queueSel d
    let n := queueOffered d
    -- a command whose descriptor cannot be read yet is held, BUSY, and of a busy block none starts (R262, R296)
    (∀ (why : Backed) (e : Dev), rdB d (kD 1 0x048) 31 = false → fetchQueue q d = (why, e) → why = .held ∨ why = .offline →
      mayPut s.begins who (kD 1 0x044) 0 = true → exec (.qcmdRead who) s = .next (s.ends
        (holdOp why (.command 0 q n.w0 n.w1 n.w2) (wr (kD 1 0x048) (2 ^ 31) e)))) ∧
    (rdB d (kD 1 0x048) 31 = true → mayPut s.begins who (kD 1 0x044) 0 = true →
      exec (.qcmdRead who) s = .next (s.ends d)) ∧
    (∀ (e : Dev), rdB d (kD 1 0x048) 31 = false → fetchQueue q d = (.here, e) →
      let o := getQueue e q
      (mayPut s.begins who (kD 1 0x044) 0 = true → exec (.qcmdRead who) s = .next (s.ends (qResult 0
        (wr64 (kD 1 0x068) o.w3 (wr64 (kD 1 0x060) o.w2 (wr64 (kD 1 0x058) o.w1 (wr64 (kD 1 0x050) o.w0 e))))))) ∧
      (mayPut s.begins who (kD 1 0x044) 1 = true → o.valid = false → badRing e n = false → badCq e n = false →
        exec (.qcmdCommit who) s = .next (s.ends (qResult 0
          (backQueue q (updQueue q (fun _ => { n with w0 := setBit n.w0 63, tail := 0, occ := 0, head := 0 }) e))))) ∧
      (mayPut s.begins who (kD 1 0x044) 2 = true → o.valid = true → n.kind = o.kind → n.owner = o.owner →
        n.ringLog2 = o.ringLog2 → n.base = o.base → badCq e n = false →
        exec (.qcmdModify who) s = .next (s.ends (qResult 0
          (backQueue q (updQueue q (fun x => { x with w0 := setBit n.w0 63, w1 := n.w1, w2 := n.w2 }) e))))) ∧
      (mayPut s.begins who (kD 1 0x044) 3 = true → o.valid = true → (o.kind = 0 → o.occ = 0) →
        (o.kind = 1 → cqNamed e q = false) →
        exec (.qcmdRelease who) s = .next (s.ends (qResult 0
          (backQueue q (updQueue q (fun x => { x with w0 := clrBit x.w0 63 }) e))))) ∧
      (mayPut s.begins who (kD 1 0x044) 4 = true → o.valid = true →
        exec (.qcmdPurge who) s = .next (s.ends (qResult 0 (unblock (fun _ _ => true)
          (each (slotsWhere e (fun p s => p = q && (s.state = .waiting || s.state = .ready)))
            (fun x d => dropSlot x.1 x.2.1 d) e)))))) ∧
    (∀ e : Dev, let c := rdF d (kD 2 0x040) 19 0
      mayPut s.begins who (kD 2 0x050) 1 = true → fetchCtr c d = (.here, e) → (getCtr e c).bound = 0 →
      exec (.ctrClear who) s = .next (s.ends (updCtr c (fun _ => {}) e))) ∧
    (mayPut s.begins who (kD 0 0x054) 1 = true → exec (.dptEpochCmd who) s = .next (s.ends (epochBoundary d)))

/-- Dispatch (R263, R273, R274, R278, R280, R281, R283, R285, R296): PLACEMENT, SLOTTED_START, WAYBILL_END, TIMETABLE_FIRE,
DISPATCH_EPOCH_BOUNDARY, BACKING_RETRY, BRAKE_TIMEOUT, DUPLICATE_ABANDON, WATCH_RETRY. The model's choice: waybills whose
counter or key serves another (log entry 12), when a watch is tried again (37), the boundary of periodic dispatch (96), the
backing area (97, 98, 118), counting of waybills run (114), slots of a unit with ENABLE 0 (174). -/
def Obligations.DispatchRowsComplete : Prop :=
  ∀ (s : State) (d : Dev), d = s.begins → armed d T.DPT 0 0 0 = none → armed d T.DPT 0 0 1 = none →
    (∀ e : Dev, placeFirst (readyOrder d) d = (true, e) → exec (.placement .clear) s = .next (s.ends e)) ∧
    (∀ (unit : BitVec 8) (q i : Nat), stepSlot d unit.toNat = some (q, i) → unitIdle d unit.toNat = true →
      regionsOwned d (getSlot d q i).image (queueOwner d q) = true → regionsFree d (getSlot d q i).image = true →
      exec (.slottedStart unit) s = .next (s.ends (startOn unit.toNat q i (setStep unit.toNat none d)))) ∧
    (∀ (unit : BitVec 8) (r : Running) (x : Ending), runOf d unit.toNat = some r → r.ended = some x →
      (getCmp d r.cmp).draining = false → outstanding d (unitWho unit.toNat) = 0 →
      exec (.waybillEnd unit .clear) s = .next (s.ends (finishRun unit.toNat d))) ∧
    (∀ (x : TtEntry) (rest : List TtEntry), d.dpt.table = x :: rest → x.due ≤ tick d →
      (let e := { d with dpt := { d.dpt with table := rest } }
       let e2 := if x.due < tick d then bump (kD 4 0x050) e else e
       let again := fun p => if x.period = 0 then e2 else ttAdd (x.due + p) p x.action e2
       (∀ q i : Nat, x.action = .waybill q i → exec .timetableFire s = .next (s.ends (armForm q i (again x.period)))) ∧
       (∀ g : Nat, x.action = .graph g → exec .timetableFire s = .next (s.ends (push (.graphDue g x.due) (again x.period)))) ∧
       (∀ n k : Nat, x.action = .fsync n k → exec .timetableFire s = .next (s.ends
        (push (.fsyncDue k (decide (x.due < tick d))) (again (fsyncPeriod d n k))))))) ∧
    (d.dpt.lastEpoch + rd d (kD 0 0x050) ≤ tick d → exec .dispatchEpochBoundary s = .next (s.ends
      (epochBoundary { d with dpt := { d.dpt with lastEpoch := tick d } }))) ∧
    (depotWaits d = true → exec (.backingRetry .clear) s = .next (s.ends
      (let e := wrB (kD 0 0x040) 30 false { d with dpt := { d.dpt with
         holding := false, heldReads := [], brakes := d.dpt.brakes.map (fun b => { b with backing := false }) } }
       placement (retryOps { e with todo := e.todo ++ d.dpt.heldReads.map .readAgain })))) ∧
    (∀ (b : BrakeWait) (t : Nat) (pre rest : List BrakeWait), d.dpt.brakes = pre ++ b :: rest →
      (∀ x ∈ pre, x.window = true → ∀ u, x.deadline = some u → tick d < u) → b.window = true → b.deadline = some t → t ≤ tick d →
      exec .brakeTimeout s = .next (s.ends
        (let e := { d with dpt := { d.dpt with brakes := d.dpt.brakes.erase b } }
         -- only a wait for a slot is a brake wait that runs out (R266)
         refusedRecord b.queue b.image.tag
          (if b.braked then flag0 T.DPT 0 3 b.queue (countRefusal b.queue e) else countRefusal b.queue e)))) ∧
    (∀ (unit : BitVec 8) (r : Running), runOf d unit.toNat = some r → r.kind ≠ .original →
      (stepSlot d unit.toNat).isSome = true →
      exec (.duplicateAbandon unit) s = .next (s.ends (push (.abandoned unit.toNat r) (dropRun unit.toNat d)))) ∧
    exec .watchRetry s = .next (s.ends (each d.dpt.retries (fun w d => watchRegister w (stat 10 d))
      { d with dpt := { d.dpt with retries := [] } }))

/-- Compartments (R298, R300, R303, R309, R313, R314, R315, R316): CMP_ACTIVATE, CMP_RESET, CMP_KILL with the key,
CMP_DRAIN_DONE, STACK_WINDOW_ZEROED, COACH_MASK_WRITE, OTHER_MASK_WRITE, STKWIN_WRITE, EVQ_WRITE, SHARE_PERIOD_END. The
model's choice: the result of ACTIVATE on an ACTIVE compartment (log entry 95), the order in which slots are freed (110),
events behind an odd TAIL (154). -/
def Obligations.CompartmentRowsComplete : Prop :=
  ∀ (s : State) (d : Dev), d = s.begins → ∀ (who : Who) (cmp : Fin 16) (e : Dev), e = touched who d →
    let n := cmp.val
    (n ≠ 0 →
      (mayPut d who (kC n 0x044) (0xC5 * 256 + 1) = true → (getCmp e n).mode = .free →
        exec (.cmpActivate who cmp 0xC5) s = .next (s.ends (countersZero n (ledgerEpoch n (cResult n 0
          (updCmp n (fun c => { c with mode := .active, quiet := false }) e)))))) ∧
      (mayPut d who (kC n 0x044) (0xC5 * 256 + 2) = true → (getCmp e n).mode = .active →
        (getCmp (cutCompartment n false e) n).mode = .active →
        exec (.cmpReset who cmp 0xC5) s = .next (s.ends (cResult n 0
          (cmpResetStart n (wrB (kC n 0x048) 31 true (cutCompartment n false e)))))) ∧
      (mayPut d who (kC n 0x044) (0xC5 * 256 + 3) = true → (getCmp e n).mode = .active →
        (getCmp (cutCompartment n true e) n).mode = .active →
        exec (.cmpKill who cmp 0xC5) s = .next (s.ends (cResult n 0
          (cmpKillStart n (wrB (kC n 0x048) 31 true (cutCompartment n true e))))))) ∧
    ((getCmp d n).draining = true → drained d n = true →
      let kill := decide ((getCmp d n).mode = .killing)
      let f := payOwed n (cutYard n kill d)
      let mine := (f.yard.descs.filter (fun x => x.2.owner = n && x.2.goal != .commit)).map (·.1)
      let g := if kill then killRegions n (endRuns n kill f) else endRuns n kill f
      exec (.cmpDrainDone cmp) s = .next (s.ends (cmpSwept n (updCmp n (fun x => { x with
        draining := false, sweeps := (sweepsNow g).filter mine.contains }) g)))) ∧
    (∀ (k w : Nat) (rest : List (Nat × Nat)), (getCmp d n).zeroing = (k, w) :: rest →
      exec (.stackWindowZeroed cmp) s = .next (s.ends
        (let f := post 0 { kind := 8, subkind := k, subject := n, addr := stackBase + winBase w }
           (zeroLines (winBase w / 64) (winBytes w / 64) (updCmp n (fun c => { c with zeroing := rest }) d))
         if rest.isEmpty then flag0 T.CMP n 5 0 f else f))) ∧
    (cmpBusy e n = false →
      (∀ value : W32, mayPut d who (kC n 0x058) value.toNat = true →
        (n ≠ 0 → ∀ m < 16, m ≠ 0 → m ≠ n → rd e (kC m 0x058) &&& value.toNat &&& 0x1C00 = 0) →
        exec (.otherMaskWrite who cmp value) s = .next (s.ends (cResult n 0 (wr (kC n 0x058) (value.toNat % 0x2000) e)))) ∧
      (∀ value : W32, mayPut d who (kC n 0x070) value.toNat = true →
        (let q := getQueue e (fld value.toNat 15 0)
         q.valid = true → q.kind = 1 → q.owner = n → cqNamed e (fld value.toNat 15 0) = false →
         exec (.evqWrite who cmp value) s = .next (s.ends (cResult n 0 (wr (kC n 0x070) (value.toNat &&& 0x8000FFFF) e))))) ∧
      (∀ value : W64, mayPut d who (kC n 0x050) value.toNat = true →
        conflict e n 0x050 (value.toNat &&& (2 ^ 64 - 1)) = false →
        exec (.coachMaskWrite who cmp value) s = .next (s.ends (cResult n 0 (wr64 (kC n 0x050) value.toNat e)))) ∧
      (∀ (win : Fin 8) (value : W64), mayPut d who (kC n (0x080 + 8 * win.val)) value.toNat = true →
        (bit value.toNat 63 = true → winCheck e n (winBits value.toNat) = 0) →
        exec (.stkwinWrite who cmp win value) s = .next (s.ends
          (wr64 (kC n (0x080 + 8 * win.val)) (winBits value.toNat) (wr (kC n 0x0C0) (win.val * 256) e))))) ∧
    (tick d % rd d (kC 0 0x0C4) = 0 → exec .sharePeriodEnd s = .next (s.ends
      (each (List.range 16) (fun n d => updCmp n (fun c => { c with used := [] }) d) d)))

/-! ### The intake -/

/-- CSI-2 packets at a port that is enabled, on an enabled intake, in its rate window, with a clean header and calibrated
lanes (R341, R348, R350, R351, R353, R355): CSI_FRAME_START, CSI_FRAME_END, CSI_LINE_START, CSI_LINE_END, CSI_LONG_PACKET of a
bound data type in an open frame, CSI_DESKEW. The model's choice: byte orders of packed formats (log entry 50), and what R326
and R345 leave open of packed rows (155). -/
def Obligations.CsiRowsComplete : Prop :=
  ∀ (s : State) (d : Dev), d = s.begins → ∀ (port : Fin 6) (vc : Fin 16) (mhz : BitVec 16),
    let p := port.val
    pinsCut d = false → portExists d p = true → rdB d (kPort p 0x040) 31 = true → inkOn d p = true →
    armed d T.INK (p / 3) (1 + p % 3) 1 = none → armed d T.INK (p / 3) (1 + p % 3) 2 = none → (getPort d p).fault = false →
    (8 * mhz.toNat ≤ 1500 ∨ (getPort d p).deskewed = true) → inWindow d p mhz.toNat = true →
    (∀ number : BitVec 16, exec (.csiFrameStart port vc number 0 mhz) s = .next (s.ends
      (each (onChannel d p vc.val) (frameStartOn p number.toNat mhz.toNat)
        (each ((List.range 4).filter (fun b => !(onChannel d p vc.val).contains b)) (rateMoved p mhz.toNat)
          (updPort p (fun x => { x with fault := false }) (measured p mhz.toNat d)))))) ∧
    (∀ line : BitVec 16, exec (.csiLineStart port vc line 0 mhz) s = .next (s.ends
      (each (onChannel d p vc.val) (lineStartOn p line.toNat)
        (each (List.range 4) (rateMoved p mhz.toNat) (measured p mhz.toNat d))))) ∧
    exec (.csiFrameEnd port vc 0) s = .next (s.ends (each (onChannel d p vc.val) (fun b d =>
      let x := getStream d p b
      if discards x then portCount p 12 d
      else if x.state = .inFrame then updStream p b (fun s => { s with state := .waitFs }) (closeCam p b 0 false d)
      else if x.state = .dropping then updStream p b (fun s => { s with state := .waitFs }) d
      else d) d)) ∧
    exec (.csiLineEnd port vc 0) s = .next (s.ends (each (onChannel d p vc.val) (fun b d =>
      if discards (getStream d p b) then portCount p 12 d else updOpen p b (fun f => { f with last := tick d }) d) d)) ∧
    (∀ (dt : Fin 64) (payload : List Byte) (crcOk parity full : Bool) (b : Nat),
      (8 * (getPort d p).mhz ≤ 1500 ∨ (getPort d p).deskewed = true) → supportedDt dt.val = true →
      (onChannel (tcount 9 payload.length d) p vc.val).find? (fun b => bindDt (tcount 9 payload.length d) p b = dt.val) = some b →
      (getStream d p b).state = .inFrame →
      exec (.csiLongPacket port vc dt payload crcOk 0 parity full .clear) s = .next (s.ends
        (lineOn p b payload crcOk parity full (tcount 9 payload.length d)))) ∧
    exec (.csiDeskew port) s = .next (s.ends (updPort p (fun x => { x with deskewed := true }) d))

/-- Streams of a camera (R342, R348, R351, R353, R357, R358, R359): LINE_TIMEOUT, FRAME_CLOSE_DRAINED, FRAME_RECORD_DONE,
STREAM_RELEASE, STREAM_REPLUG, BIND_ENABLE, HOTPLUG_FALL, HOTPLUG_RISE, REPLUG_HOLD_EXPIRE, ABSENT_TICKS_EXPIRE. FSYNC_ENABLE
of an output with a free timetable entry and FSYNC_WIDTH_EXPIRE (R361). The model's choice: a hot-plug fall of every stream
(log entry 56), when REPLUGGED is set (57), damaged frames and rows (58), the last accepted frame start (59), CLOSE_TICK
(107). -/
def Obligations.StreamEventRowsComplete : Prop :=
   (∀ (s : State) (d : Dev), d = s.begins → ∀ (port : Fin 6) (binding : Fin 4),
      let p := port.val
      let b := binding.val
      let st := getStream d p b
      (∀ f : CamFrame, st.frame = some f → st.state = .inFrame → f.last + rdF d (kPort p 0x048) 15 0 ≤ tick d →
        exec (.lineTimeout port binding false) s = .next (s.ends (portFlag p 3 b (portCount p 7
          (updStream p b (fun s => { s with state := .waitFs }) (closeCam p b 1 true d)))))) ∧
      (∀ (f : CamFrame) (fs : List CamFrame), st.closing = f :: fs → writing d p f.serial = false →
        (f.recorded = false → exec (.frameCloseDrained port binding .clear) s = .next (s.ends (writeRecordOf p b f d))) ∧
        -- of an intake that is out of service no event goes to the sequencer (R644)
        (f.recorded = true → exec (.frameRecordDone port binding .clear) s = .next (s.ends
          (let e := updStream p b (fun s => { s with closing := fs }) (stampClose p f d)
           if inkOn d p then { e with fgs := { e.fgs with events := e.fgs.events ++
             [if f.absent then .absent p b f.time f.record f.degr else .fin p b ⟨f.buf, f.serial⟩ f.status f.record] } }
           else e)))) ∧
      (hpEn d p b = true →
        (hpHigh d p b = false → st.state ≠ .off → st.state ≠ .detached →
          exec (.hotplugFall port binding) s = .next (s.ends (portFlag p 8 b (portCount p 11
            (updStream p b (fun s => { s with state := .detached })
              (doIf (st.state = .configuring) (push (.listStop (.replug p b))) (closeCam p b 8 true d))))))) ∧
        (hpHigh d p b = true → st.state = .detached → exec (.hotplugRise port binding) s = .next (s.ends
          (updStream p b (fun s => { s with state := .replugWait, rose := tick d }) d)))) ∧
      (st.state = .replugWait → hpHigh d p b = true →
        st.rose + 1000 * clamp 1 4000 (rdF d (kBind p b 0x1C) 11 0) ≤ tick d →
        ((clEn d p b = true ∧ inkStabled d p = false) →
          exec (.replugHoldExpire port binding) s = .next (s.ends (startReplug p b d))) ∧
        ((clEn d p b = false ∨ inkStabled d p = true) → exec (.replugHoldExpire port binding) s = .next (s.ends
          (updStream p b (fun s => { s with state := if inkStabled d p then .stabled else .waitFs }) d)))) ∧
      (rd d (kBind p b 0x3C) ≠ 0 → st.state ≠ .off → st.state ≠ .inFrame → inkOn d p = true →
        absentSince st + rd d (kBind p b 0x3C) ≤ tick d → st.closing = [] →
        exec (.absentTicksExpire port binding) s = .next (s.ends
          (let f := st.nextBuf % bufCount d p b
           let fr : CamFrame := { serial := d.ink.serials + 1, buf := f, time := tick d, degr := degraded d, seq := st.accepted
                                  absent := true, cmp := bindCmp d p b
                                  record := rd64 d (kBind p b 0x30) % 2 ^ 48 + f * 64 }
           writeRecordOf p b fr (portCount p 10
             (updStream p b (fun s => { s with absent := some (tick d), closing := s.closing ++ [fr] })
               { d with ink := { d.ink with serials := d.ink.serials + 1 } }))))) ∧
      (∀ (who : Who) (e : Dev), e = touched who d → portExists d p = true →
        (∀ buffers : Fin 16, mayPut d who (kPort p (0x090 + 4 * b)) buffers.val = true →
          exec (.streamRelease who port binding buffers) s = .next (s.ends
            (each ((List.range 4).filter (fun f => buffers.val.testBit f)) (releaseBuf p b) e))) ∧
        (mayPut d who (kPort p (0x090 + 4 * b)) 256 = true → (getStream e p b).state = .configFail →
          exec (.streamReplug who port binding) s = .next (s.ends (startReplug p b e))) ∧
        (∀ value : W32, mayPut d who (kBind p b 0) value.toNat = true → bindEn e p b = false → bit value.toNat 31 = true →
          (let e1 := wrB (kBind p b 0) 31 false (wr (kBind p b 0) value.toNat e)
           mayEnable e1 p b = true → exec (.bindEnable who port binding value) s = .next (s.ends
            (updStream p b (fun s => { s with
              state := if inkStabled e p then .stabled else .waitFs, accepted := 0, since := tick e })
              (wrB (kBind p b 0) 31 true e1))))))) ∧
   (∀ (s : State) (d : Dev), d = s.begins → ∀ (output : Fin 6),
      (∀ (who : Who) (value : W32) (e : Dev), e = touched who d → bit value.toNat 31 = true →
        mayPut d who (kInk 0 (0x100 + 0x20 * output.val)) value.toNat = true →
        (let k := kInk 0 (0x100 + 0x20 * output.val)
         let e1 := wr k (plainValue (openFields (pageTouched who d) who k) (rd e k) k value.toNat)
           { e with ink := { e.ink with fsyncSet := setBit e.ink.fsyncSet output.val } }
         rdB e k 31 = false → rdB e1 k 31 = true → ttPeriodic e1 < 256 →
         exec (.fsyncEnable who output value) s = .next (s.ends
          (let p := fsyncPeriod e1 0 output.val
           ttAdd (fsyncFirst (rd64 e1 (kInk 0 (0x108 + 0x20 * output.val))) p (tick e1)) p (.fsync 0 output.val) e1)))) ∧
      (∀ t : Nat, Map.get (fun _ => 0) d.ink.pulses output.val = t + 1 → t ≤ tick d →
        exec (.fsyncWidthExpire output) s = .next (s.ends
          { d with ink := { d.ink with pulses := Map.set (fun _ => 0) d.ink.pulses output.val 0 } })))

/-! ### Vision engines and graphs -/

/-- Jobs of the vision engines (R364, R366, R372, R375, R390, R398, R403, R409), with nothing that befalls their accesses on
their way: ENGINE_JOB_START, whose descriptor can be read whole and passes the checks, keeps its words; PYR_JOB, WRP_JOB,
STR_JOB, FLW_JOB, FTR_DETECT and FTR_MATCH, whose inputs can be read, write the outputs computed from those inputs, count
their steps and are done; ENGINE_JOB_END of a job that is done ends its run. The model's choice: rows of earlier bands (log
entry 51), codes of RADIUS and MESH_S (52), the order of reads and writes (53), how poison is counted (54), fast tiles (55),
spare elements (156). -/
def Obligations.EngineRowsComplete : Prop :=
  ∀ (s : State) (d : Dev), d = s.begins →
    (∀ (engine : Fin 10) (r : Running) (u : Nat), u = 0x48 + engine.val → jobOf d u = some r →
      (let n := if engine.val < 2 then 192 else 128
       let l := loadPieces u (runAccess d u r false) (bytePieces r.image.job n) { d := d }
       let ws := (List.range (n / 8)).map (fun i => leNat (((l.1.map (·.1)).drop (8 * i)).take 8))
       (getEng d u).serial ≠ r.serial → r.image.job % 64 = 0 → l.2.ok = true → l.1.any (·.2) = false →
       [pyrCheck, wrpCheck, strCheck, flwCheck, ftrCheck][engine.val / 2]?.map (· ws) = some 0 →
       exec (.engineJobStart engine .clear) s = .next (s.ends
         (setEng u { serial := r.serial, words := ws } (setEng u { serial := r.serial } l.2.d)))) ∧
      ((getEng d u).serial = r.serial → (getEng d u).done = true →
        exec (.engineJobEnd engine) s = .next (s.ends
          (setRun u (some { r with ended := some { unit := u, poison := (getEng d u).poison } }) (bump (kEng u 0x050) d))))) ∧
    (∀ (inst : Fin 2) (parity : List Nat) (r : Running) (ws : List Nat),
      let read := fun (u : Nat) (l : Load) => poisonIn u l l.d
      (∀ u : Nat, u = engineId 0 inst → openJob d u = some (r, ws) →
        (let x := pyrLoad u r ws parity d
         x.2.ok = true → exec (.pyrJob inst parity .clear) s = .next (s.ends
           (jobDone u (pyrSteps (pyrJob ws)) (pyrWrites u r ws x.1 (read u x.2)))))) ∧
      (∀ u : Nat, u = engineId 1 inst → openJob d u = some (r, ws) →
        (let x := wrpLoad u r ws parity d
         let tiles := wrpTiles (wrpJob ws) x.1.1
         x.2.ok = true → exec (.wrpJob inst parity .clear) s = .next (s.ends
           (jobDone u (wrpSteps tiles) (bumpBy (kEng u 0x080) (tiles.filter (fun t => !t.2)).length
             (wrpWrites u r ws x.1.1 x.1.2 (read u x.2))))))) ∧
      (∀ u : Nat, u = engineId 2 inst → openJob d u = some (r, ws) →
        (let x := strLoad u r ws parity d
         x.2.ok = true → exec (.strJob inst parity .clear) s = .next (s.ends
           (jobDone u (strSteps (strJob ws)) (strWrites u r ws x.1.1 x.1.2.1 x.1.2.2.1 x.1.2.2.2 (read u x.2)))))) ∧
      (∀ u : Nat, u = engineId 3 inst → openJob d u = some (r, ws) →
        (let x := flwLoad u r ws parity d
         x.2.ok = true → exec (.flwJob inst parity .clear) s = .next (s.ends
           (jobDone u (flwSteps (flwJob ws)) (flwWrites u r ws x.1.1 x.1.2.1 x.1.2.2 (read u x.2)))))) ∧
      (∀ u : Nat, u = engineId 4 inst → openJob d u = some (r, ws) →
        ((ftrJob ws).op = 0 →
          (let x := detectLoad u r ws parity d
           x.2.ok = true → exec (.ftrDetect inst parity .clear) s = .next (s.ends
             (jobDone u (detectSteps (ftrJob ws) (featsOut (ftrJob ws) (featsOf (ftrJob ws) x.1)).1.length)
               (detectWrites u r ws x.1 (read u x.2)))))) ∧
        ((ftrJob ws).op = 1 →
          (let c := matchCounts u r ws parity d
           let x := matchLoad u r ws c.1.1 c.1.2 c.2 d
           c.2.ok = true → c.1.1 ≤ 65536 → c.1.2 ≤ 65536 → x.2.ok = true →
           exec (.ftrMatch inst parity .clear) s = .next (s.ends
             (jobDone u (matchSteps c.1.1 c.1.2) (matchWrites u r ws c.1.1 c.1.2 x.1.1 x.1.2 (read u x.2))))))))

/-- Graph commands (R411, R413, R414, R417): GRAPH_LOAD, GRAPH_START, GRAPH_STOP, GRAPH_UNLOAD, GRAPH_TRIGGER of a graph in
the stage the command asks for, while no command waits and no error is armed. The model's choice: which failing check reports
(log entry 31), CLOSE_TICK and triggers in STOPPING (107), corrected errors of a table (157), writes of the blocks themselves
(172). -/
def Obligations.GraphCommandRowsComplete : Prop :=
  ∀ (s : State) (who : Who) (d : Dev), d = touched who s.begins → rdB d (kF 0 0x050) 31 = false →
    armed d T.FGS 0 0 0 = none → armed d T.FGS 0 0 1 = none →
    let g := rdF d (kF 0 0x048) 5 0
    (∀ (base : Nat) (hdr raw : List Byte) (bad : Bool) (e e2 e3 : Dev) (addr : Nat), addr = rd64 d (kF 0 0x058) % 2 ^ 48 →
      mayPut s.begins who (kF 0 0x04C) 1 = true → (getGraph d g).stage ≠ .running → (getGraph d g).stage ≠ .stopping →
      graphBacking d = some base →
      readLines addr 4 d = (some (hdr, false), e) → badHeader hdr = false →
      readLines addr (fieldAt hdr 8 4 / 64) d = (some (raw, bad), e2) →
      loadCheck e2 raw bad = (0, 0) →
      (backingUp d g (fieldAt hdr 8 4) = true →
        e3 = (ownWrite { who := .fgs, cmp := 0, write := true } (base + g * 0x10000) raw e2).2 →
        exec (.graphLoad who .clear) s = .next (s.ends
          (let t := parseTable raw
           let f := updGraph g (fun _ => { stage := .loaded, table := some t }) e3
           graphResult 0 0 (wr (kG g 0x040) (graphStatus f g) (wr (kG g 0x0A0) t.len (wr (kG g 0x0A4) t.check f)))))) ∧
      -- the command waits, BUSY, for a backing that is offline (R436)
      (backingUp d g (fieldAt hdr 8 4) = false → exec (.graphLoad who .clear) s = .next (s.ends
        (let f := wr (kF 0 0x050) 0x80000000 (flag0 T.FGS 0 2 g e2)
         { f with fgs := { f.fgs with waiting := some ⟨1, g, addr⟩ } })))) ∧
    -- so it does for a read that is held (R171, R189)
    (∀ (e : Dev) (addr : Nat), addr = rd64 d (kF 0 0x058) % 2 ^ 48 →
      mayPut s.begins who (kF 0 0x04C) 1 = true → (getGraph d g).stage ≠ .running → (getGraph d g).stage ≠ .stopping →
      (graphBacking d).isSome = true → readLines addr 4 d = (none, e) →
      exec (.graphLoad who .clear) s = .next (s.ends
        (let f := wr (kF 0 0x050) 0x80000000 e
         { f with fgs := { f.fgs with waiting := some ⟨1, g, addr⟩ } }))) ∧
    (∀ (base : Nat) (raw : List Byte) (e : Dev), mayPut s.begins who (kF 0 0x04C) (startWord none) = true →
      (getGraph d g).stage = .loaded → (tableOf d g).trigger ≠ 0 → graphBacking d = some base →
      backingUp d g (tableOf d g).len = true →
      readLines (base + g * 0x10000) ((tableOf d g).len / 64) d = (some (raw, false), e) →
      exec (.graphStart who none .clear) s = .next (s.ends
        (let e2 := updGraph g (fun y => { y with
           stage := .running, seq := 0, last := (tableOf d g).maxFrames - 1, source := none }) e
         graphResult 0 0 (pump g (watchTrigger g (armAhead g (wr64 (kG g 0x048) 0 e2))))))) ∧
    (mayPut s.begins who (kF 0 0x04C) 3 = true → (getGraph d g).stage = .running →
      exec (.graphStop who) s = .next (s.ends
        (graphResult 0 0 (pump g (updGraph g (fun x => { x with stage := .stopping, source := none }) d))))) ∧
    (mayPut s.begins who (kF 0 0x04C) 4 = true → (getGraph d g).stage = .loaded →
      exec (.graphUnload who) s = .next (s.ends (graphResult 0 0
        (wr (kG g 0x0A0) 0 (wr (kG g 0x0A4) 0 (wr (kG g 0x040) 0 (updGraph g (fun _ => {}) d))))))) ∧
    (mayPut s.begins who (kF 0 0x04C) 5 = true → (getGraph d g).stage = .running →
      exec (.graphTrigger who) s = .next (s.ends (graphResult 0 0 (trigger g (tick d) (degraded d) none d))))

/-- Events of graphs (R417, R419, R420, R421, R427, R430, R433, R436): FGS_FRAME_START, FGS_FRAME_END, FGS_ABSENT_EVENT,
JOIN_WINDOW_EXPIRE, NODE_REPORT, ABANDON_DEADLINE, SUSPECT_FINDING, FGS_BACKING_RETRY. The model's choice: CLOSE_TICK and
triggers in STOPPING (log entry 107), corrected errors of a table (157), writes of the blocks themselves (172). -/
def Obligations.GraphEventRowsComplete : Prop :=
  ∀ (s : State) (d : Dev), d = s.begins →
    (∀ (rest : List FgsEvent) (p b time num : Nat) (buf : CamBuf) (degr : Bool),
      d.fgs.events = .start p b buf time num degr :: rest →
      exec .fgsFrameStart s = .next (s.ends
        (each (listeners d (p, b)) (fun x d => frameStart x.1 x.2 buf time degr (useTable x.1 d))
          { d with fgs := { d.fgs with events := rest } }))) ∧
    (∀ (rest : List FgsEvent) (p b status record : Nat) (buf : CamBuf), d.fgs.events = .fin p b buf status record :: rest →
      exec .fgsFrameEnd s = .next (s.ends
        (each (listeners d (p, b)) (fun x d => frameEnd x.1 x.2 buf status record (useTable x.1 d))
          { d with fgs := { d.fgs with events := rest } }))) ∧
    (∀ (rest : List FgsEvent) (p b time record : Nat) (degr : Bool), d.fgs.events = .absent p b time record degr :: rest →
      exec .fgsAbsentEvent s = .next (s.ends
        (each (listeners d (p, b)) (fun x d => absentTicket x.1 x.2 time degr (useTable x.1 d))
          { d with fgs := { d.fgs with events := rest } }))) ∧
    (∀ (r : Report) (rest : List Report), d.fgs.reports = r :: rest →
      exec .nodeReport s = .next (s.ends (applyReport r { d with fgs := { d.fgs with reports := rest } }))) ∧
    (∀ (x : Finding) (rest : List Finding), d.fgs.findings = x :: rest →
      exec .suspectFinding s = .next (s.ends (applyFinding x { d with fgs := { d.fgs with findings := rest } }))) ∧
    (∀ (graph : Fin 64), armed d T.FGS 0 0 0 = none → armed d T.FGS 0 0 1 = none →
      framesWhere d graph.val (fun f => f.stage = .opened &&
        decide (f.time + (tableOf d graph.val).joinWindow < tick d)) = [] →
      exec (.joinWindowExpire graph) s = .next (s.ends
        (let gone := (getGraph d graph.val).held.filter (fun h => decide (h.till < tick d))
         pump graph.val (each gone (fun h d =>
           let d := bump (kG graph.val 0x08C) d
           match (tableOf s.begins graph.val).inputs[h.input]? with
           | some i => if i.release && !h.released then push (.release i.port i.binding h.buf.index) d else d
           | none => d)
          (updGraph graph.val (fun x => { x with held := x.held.filter (fun h => !decide (h.till < tick d)) }) d))))) ∧
    (∀ (graph : Fin 64) (frame : Fin 4), (tableOf d graph.val).policy = 2 → (getFrame d graph.val frame.val).stage = .opened →
      (getFrame d graph.val frame.val).time + (tableOf d graph.val).deadline + (tableOf d graph.val).grace ≤ tick d →
      exec (.abandonDeadline graph frame) s = .next (s.ends (abandonFrame graph.val frame.val d))) ∧
    (∀ w : GraphWait, d.fgs.waiting = some w → exec (.fgsBackingRetry .clear) s = .next (s.ends
      (let e := wr (kF 0 0x050) 0 { d with fgs := { d.fgs with waiting := none } }
       if w.cmd = 1 then graphLoad w.graph w.addr e
       else graphStart w.graph (if bit w.cmd 22 then some (fld w.cmd 21 16) else none) e)))
/-! ### Integrity, background services, telemetry -/

/-- Sampled runs (R450, R451, R453, R473): SHADOW_END of an agreeing, an inconclusive and a mismatching sample; TIEBREAK_END
with each verdict; GATE_WAIT_EXPIRE of the first original held too long, by the verdict that is then due or unchecked. The
model's choice: the unit under which a duplicate acts, and what it keeps from memory (log entries 28, 114). -/
def Obligations.SamplingRowsComplete : Prop :=
  ∀ (s : State) (d : Dev), d = s.begins → ∀ (slot : Fin 256) (x : Sample) (o r : RunEnd), getSample d slot.val = some x →
    x.orig = some o → x.shadowEnd = some r →
    (x.mismatch = false → isAbort o.status = false → r.status ≠ 0x20 →
      (o.rd ≠ r.rd → exec (.shadowEnd slot) s = .next (s.ends (settled slot.val x (ledgerCount x.cmp 0x050 (istat 4 d))))) ∧
      (o.rd = r.rd → o.wd = r.wd → exec (.shadowEnd slot) s = .next (s.ends
        (settled slot.val x (ledgerCount x.cmp 0x028 (istat 2 (conclusive x d)))))) ∧
      (o.rd = r.rd → o.wd ≠ r.wd → ∀ v e, x.shadow = some v →
        e = cper { cls := 0x10, block := (unitPage x.unit).1, inst := (unitPage x.unit).2, cmp := some x.cmp, tag := x.image.tag,
                   queue := x.queue, unit := x.unit, unit2 := v, detail := x.unit } (flag0 T.INT 0 2 x.unit (istat 3 d)) →
        everEligible d x.queue [x.unit, v] ≠ [] →
        exec (.shadowEnd slot) s = .next (s.ends (setSample slot.val (some { x with mismatch := true, abandons := 0 }) e)))) ∧
    (x.mismatch = false → (isAbort o.status = true ∨ r.status = 0x20) →
      exec (.shadowEnd slot) s = .next (s.ends (cancelSample slot.val d))) ∧
    (∀ t : RunEnd, x.tieEnd = some t →
      (t.rd ≠ o.rd → exec (.tiebreakEnd slot) s = .next (s.ends (unresolved slot.val x d))) ∧
      (t.rd = o.rd → t.wd = o.wd → exec (.tiebreakEnd slot) s = .next (s.ends (dupAtFault slot.val x d))) ∧
      (t.rd = o.rd → t.wd ≠ o.wd → t.wd = r.wd → exec (.tiebreakEnd slot) s = .next (s.ends (origAtFault slot.val x d))) ∧
      (t.rd = o.rd → t.wd ≠ o.wd → t.wd ≠ r.wd → exec (.tiebreakEnd slot) s = .next (s.ends (unresolved slot.val x d)))) ∧
    (∀ (q i : Nat) (z : Slot) (rest : List (Nat × Nat × Slot)),
      slotsWhere d (fun _ y => gateOver (rd d (kI 0 0x044)) (tick d) y) = (q, i, z) :: rest →
      let mine := fun (e : Dev) => samplesWhere e (fun y => y.queue = q && y.slot = i)
      let e := each (mine d) (fun y f => giveVerdict y.1 y.2 f) d
      ((getSlot e q i).gated = none → exec .gateWaitExpire s = .next (s.ends e)) ∧
      ((getSlot e q i).gated.isSome = true → exec .gateWaitExpire s = .next (s.ends
        (let o := queueOwner e q
         let f := ledgerNote o 0x068 (flag0 T.INT 0 4 o (istat 11 e))
         releaseGate q i false (each (mine f) (fun y f => dropSample y.1 f) f)))))

/-- The rest of the integrity block (R457, R462, R463, R464, R465, R467, R470, R477, R485, R487): LEDGER_WINDOW_END,
DIG_REGISTER with a reference given, DIG_CHECK_NOW, DIG_REMOVE, DIGEST_CHECK_START of a due entry, DIGEST_CHECK_DONE with
agreeing copies, XC_START, XCHECK_ROUND_DONE of a round that is not the last, PROBATION_TEST_DONE, SCORE_DECAY,
RET_STATUS_READ, RET_DATA_READ. The model's choice: rounds without a majority and the form of their results (log entries 99,
158), scores that reach the limit (100), rates, references and the upset of a window (101), clusters in PROBATION (19), the
ledger of compartment 0 (173), late digests (176). -/
def Obligations.IntegrityRowsComplete : Prop :=
  ∀ (s : State) (d : Dev), d = s.begins →
    (d.integ.lastWindow + rd d (kI 1 0x040) ≤ tick d → exec (.ledgerWindowEnd none) s = .next (s.ends
      (windowClosed d))) ∧
    (∀ (who : Who) (e : Dev), e = touched who d →
      (mayPut d who (kI 0 0x204) 1 = true → bit (rd64 e (kI 0 0x210)) 61 = true →
        exec (.digRegister who) s = .next (s.ends (digCount (newDig (digSel e)
          { w0 := setBit (rd64 e (kI 0 0x210)) 63, w1 := rd64 e (kI 0 0x218), w2 := rd64 e (kI 0 0x220),
            ref := rd64 e (kI 0 0x228) } e)))) ∧
      (mayPut d who (kI 0 0x204) 2 = true → bit (getDig e (digSel e)).w0 63 = true → e.integ.digBusy = none →
        exec (.digCheckNow who) s = .next (s.ends (digestBegin false (digSel e) e))) ∧
      (mayPut d who (kI 0 0x204) 3 = true → e.integ.digBusy = none →
        exec (.digRemove who) s = .next (s.ends (digCount (newDig (digSel e) {}
          { e with integ := { e.integ with digAsked := e.integ.digAsked.filter (fun k => !decide (k = digSel e)) } })))) ∧
      (∀ (rounds : BitVec 16) (formats : Fin 16), rounds.toNat ≠ 0 → e.integ.xcheck = none →
        mayPut d who (kI 0 0x100) (2 ^ 31 + formats.val * 65536 + rounds.toNat) = true →
        exec (.xcStart who rounds formats) s = .next (s.ends
          (wr (kI 0 0x114) 0x80000000 (wr64 (kI 0 0x118) 0 { e with integ := { e.integ with
            xcheck := some { rounds := rounds.toNat, done := 0, mask := rd64 e (kI 0 0x108), failed := 0
                             fmts := formats.val } } })))) ∧
      (onChip who = true → latchOf e who = none →
        (mayRead e who (kI 3 0x064) = true → exec (.retStatusRead who) s = .next (s.ends
          (answer who (.data (leBytes 4 (retainedNow e)) false) (setRetCursor (portOf who) (oldestWord e) e)))) ∧
        (mayRead e who (kI 3 0x068) = true → exec (.retDataRead who) s = .next (s.ends
          (answer who (.data (leBytes 4 (retData (portOf who) e).1) false) (retData (portOf who) e).2))))) ∧
    (∀ k : Nat, d.integ.digBusy = none → d.integ.digAsked = [] → digRuns d = true →
      digFrom (fun e => decide (digDue d e ≤ tick d)) d = some k →
      exec .digestCheckStart s = .next (s.ends (digestBegin true k d))) ∧
    (∀ (k : Nat) (x : DigEntry), d.integ.digBusy = some (k, x) → d.integ.digAt ≤ tick d → copyOnline d (fld x.w0 47 0) (fld x.w2 31 0) = true →
      (bit x.w1 63 = true → copyOnline d (fld x.w1 47 0) (fld x.w2 31 0) = true) →
      copyHeld d (fld x.w0 47 0) (fld x.w2 31 0) = false →
      (bit x.w1 63 = true → copyHeld d (fld x.w1 47 0) (fld x.w2 31 0) = false) →
      let r := entryDigests x d
      let f := { r.2 with integ := { r.2.integ with digRepaired := false } }
      -- the first check, and the check after a repair: 0 match, 1 repaired, 2 mismatch (R462)
      (d.integ.digRepaired = false → digestsAgree x r.1 = true → exec (.digestCheckDone .clear) s = .next (s.ends (digestResult 0 r.2))) ∧
      (d.integ.digRepaired = false → digestsAgree x r.1 = false → bit x.w0 62 = false →
        exec (.digestCheckDone .clear) s = .next (s.ends (digestResult 2 (digestReport k 0 x r.2)))) ∧
      (d.integ.digRepaired = true → digestsAgree x r.1 = true →
        exec (.digestCheckDone .clear) s = .next (s.ends (digestResult 1 (digestReport k 1 x f)))) ∧
      (d.integ.digRepaired = true → digestsAgree x r.1 = false →
        exec (.digestCheckDone .clear) s = .next (s.ends (digestResult 2 (digestReport k 2 x f))))) ∧
    (∀ (x : XCheck) (odd : List (Fin 64 × W32)), d.integ.xcheck = some x → x.done + 1 ≠ x.rounds →
      exec (.xcheckRoundDone odd) s = .next (s.ends
        (let cs := coachesIn x.mask
         let bad := cs.filter (fun c => some (xcResult odd c) ≠ xcMajority odd cs)
         let y := { x with done := x.done + 1, failed := bad.foldl setBit x.failed }
         let e := each bad (fun c f => score c (if cs.length = 2 then 2 else 4)
           (cper { cls := 0x13, block := T.CCH, inst := c, unit := c, detail := c } (flag0 T.INT 0 8 c f))) d
         wr (kI 0 0x114) (0x80000000 + y.done) (wr64 (kI 0 0x118) y.failed
           { e with integ := { e.integ with xcheck := some y } })))) ∧
    (∀ code : BitVec 16, codeState d code.toNat = .probation → code.toNat / 0x1000 = 0 →
      exec (.probationTestDone code true) s = .next (s.ends (probeReport code.toNat true { d with integ := { d.integ with
        passed := if d.integ.passed.contains code.toNat then d.integ.passed else d.integ.passed ++ [code.toNat] } })) ∧
      exec (.probationTestDone code false) s = .next (s.ends (probeReport code.toNat false (flag0 T.INT 0 10 code.toNat
        (let e := setUnitState (codePage code.toNat).1 (codePage code.toNat).2 .stabled d
         { e with integ := { e.integ with passed := e.integ.passed.filter (· ≠ code.toNat) } }))))) ∧
    (∀ code : BitVec 16, scoreOf d code.toNat ≠ 0 →
      Map.get (fun _ => 0) d.integ.scoreTick code.toNat + rd d (kI 2 0x044) ≤ tick d →
      exec (.scoreDecay code) s = .next (s.ends (setScore code.toNat (scoreOf d code.toNat - 1) d)))

/-- Background services and telemetry (R481, R482, R491, R493, R495, R497, R499): YARD_SCRUB_ROW, SCRUB_WRITEBACK,
MARGIN_PROBE, AGING_MEASURE, TLM_SAMPLE, TLM_RECORD, SNAP_TAKE and TLM_SNAPSHOT when due. The model's choice: passes by
cluster (log entry 79), PRESSURE of a team (130, 131), counts that only timing gives (63), rewriting by a cluster itself
(180). -/
def Obligations.ServiceRowsComplete : Prop :=
  ∀ (s : State) (d : Dev), d = s.begins →
    (∀ (cluster : Fin 64) (row : Nat), rdB d (kBg 0 0x040) 0 = true → enabled d T.BGS 0 = true → rowDue d cluster.val = true →
      row = Map.get (fun _ => 0) d.tlm.rows cluster.val →
      (let e := updTlm (fun t => { t with
         rows := Map.set (fun _ => 0) t.rows cluster.val ((row + 1) % scrubRows)
         paced := Map.set (fun _ => (0, 0)) t.paced cluster.val (tick d / 1000, rowsIssued d cluster.val + 1) }) d
       let e2 := if (row + 1) % scrubRows = 0 then bumpWrap (kBg 0 0x048) e else e
       let first := cluster.val * 786432 + row * 32
       (rowSkipped d cluster.val row = true → exec (.yardScrubRow cluster .clear) s = .next (s.ends e2)) ∧
       (rowSkipped d cluster.val row = false → exec (.yardScrubRow cluster .clear) s = .next (s.ends
        (let e3 := (readCells first 32 e2).2
         { e3 with yard := { e3.yard with
           scrubbed := e3.yard.scrubbed ++ (List.range 32).filterMap (fun i => fixable d (first + i)) } }))))) ∧
    (∀ (cluster : Fin 64) (i : Nat) (c : Cell39) (w : W32), c.decode = .corrected w →
      d.yard.scrubbed.filter (fun x => stationAt (4 * x.1) = cluster.val) = [(i, c)] →
      (let rest := d.yard.scrubbed.filter (fun x => stationAt (4 * x.1) ≠ cluster.val)
       let e := { d with yard := { d.yard with scrubbed := rest } }
       (getCell d i = c → exec (.scrubWriteback cluster) s = .next (s.ends (putCell i (goodCell w) e))) ∧
       (getCell d i ≠ c → exec (.scrubWriteback cluster) s = .next (s.ends e)))) ∧
    (∀ (margins : List (Fin 16)) (g m : Nat), marginProbes d = true → d.tlm.probeAt ≤ tick d →
      g = (List.range 16).foldl (fun b i => if min 15 ((margins.map (·.val)).getD i 0) < min 15 ((margins.map (·.val)).getD b 0)
        then i else b) 0 → m = min 15 ((margins.map (·.val)).getD g 0) →
      (let e := wr (kBg 1 0x044) (g * 65536 + m) d
       (fld (rd d (kBg 1 0x040)) 3 0 ≤ m → exec (.marginProbe margins) s = .next (s.ends
        (bootReleased
          (updTlm (fun t => { t with probeAt := tick e + 1000 * fld (rd d (kBg 1 0x040)) 31 16, probing := false }) e)))) ∧
       (m < fld (rd d (kBg 1 0x040)) 3 0 → rdF d (kV 1 0x054) 15 0 < 850 → exec (.marginProbe margins) s = .next (s.ends
        (let f := bump (kBg 1 0x048) (flag0 T.GOV 0 7 0 (limited false (wr (kV 1 0x054) (min 850 (rdF d (kV 1 0x054) 15 0 + 5))) e))
         updTlm (fun t => { t with probeAt := tick f + 100 }) f))))) ∧
    (∀ ppm : List (BitVec 16), rdB d (kBg 0 0x040) 2 = true → d.tlm.ageAt ≤ tick d →
      exec (.agingMeasure ppm) s = .next (s.ends
        (each (List.range 64) (fun t e =>
          let v := min 65535 ((ppm.map (·.toNat)).getD t 0)
          let e2 := wr (kBg 1 (0x050 + 4 * t)) v e
          if fld (rd d (kBg 1 0x04C)) 15 0 < v then flag0 T.BGS 0 4 t e2 else e2)
          (updTlm (fun t => { t with ageAt := tick d + 1000000 * fld (rd d (kBg 1 0x04C)) 31 16 }) d)))) ∧
    (d.tlm.sampled + rd d (kTl 0 0x040) ≤ tick d → tlmUp d = true → ∃ e : Dev, exec .tlmSample s = .next (s.ends e) ∧
      rd64 e (kTl 0 0x050) = tick d % 2 ^ 64 ∧ rd e (kTl 0 0x058) = rd d (kV 1 0x048) ∧ rd e (kTl 0 0x05C) = d.gov.vcmd % 2 ^ 32 ∧
      rd e (kTl 0 0x060) = rd d (kV 1 0x044) ∧ rd e (kTl 0 0x064) = rd d (kV 1 0x058) ∧
      rd e (kTl 0 0x068) = pressureWord d % 2 ^ 32 ∧ rd e (kTl 0 0x06C) = rd d (kV 1 0x054) ∧
      (∀ k : Nat, k < 18 → (tjSensors d.part).contains k = true → rd e (kTl 0 (0x080 + 4 * k)) = rd d (kV 1 (0x060 + 4 * k))) ∧
      (∀ p : Nat, p < 4 → rd e (kTl 0 (0x0D0 + 4 * p)) = (if p < d.part.stacks then rdF d (kS p 0 0x044) 15 0 else 0)) ∧
      (∀ k : Nat, k < 18 → (tjSensors d.part).contains k = false → rd e (kTl 0 (0x080 + 4 * k)) = 0) ∧
      e.yard = d.yard ∧ e.stk = d.stk ∧ e.dpt = d.dpt ∧ e.cmps = d.cmps ∧ e.cores = d.cores) ∧
    (d.tlm.lastAt + rd d (kTl 1 0x10C) ≤ tick d → enabled d T.TLM 0 = true → tlmUp d = true → exec (.tlmRecord .clear) s = .next (s.ends
      (let e := updTlm (fun t => { t with lastAt := tick d }) d
       each (List.range 16) tlmCmp (if bit (rd64 e (kTl 1 0x100)) 63 then tlmModule e else e)))) ∧
    (∀ who : Who, mayPut d who (kTl 0 0x044) (setBit (rd d (kTl 0 0x044)) 31) = true →
      exec (.snapTake who) s = .next (s.ends
        (let e := wrF (kTl 0 0x044) 15 0 (setBit (rd d (kTl 0 0x044)) 31 % 2 ^ 32) (touched who d)
         wrB (kTl 0 0x044) 31 true (updTlm (fun t => { t with asked := true }) e)))) ∧
    (d.tlm.asked = true → tlmUp d = true → ∃ e : Dev, exec (.tlmSnapshot .clear) s = .next (s.ends e) ∧
      (let page := 2 + (d.tlm.snap + 1) % 2
       e.tlm.snap = d.tlm.snap + 1 ∧ e.tlm.asked = false ∧
       rd64 e (kTl page 0x040) = (d.tlm.snap + 1) % 2 ^ 64 ∧ rd64 e (kTl page 0x048) = tick d % 2 ^ 64 ∧
       (∀ i : Nat, i < 64 → i ≠ 1 → rd e (kTl page (0x100 + 4 * i)) = rd d (kTl 0 (0x040 + 4 * i))) ∧
       (∀ i : Nat, i < 64 → runsOn (kTl 1 (0x040 + 4 * i)) = false →
         rd e (kTl page (0x200 + 4 * i)) = rd d (kTl 1 (0x040 + 4 * i)))))
/-! ### The host link -/

/-- Requests of the host (R505, R507, R508, R514): HOST_BAR0_ACCESS, HOST_BAR2_ENQUEUE, HOST_BAR4_READ, HOST_BAR4_WRITE of a
function that claims them and waits for nothing; HOST_WRITE_FAILED. The model's choice: a write lands in the step that issues
it (log entry 5), what is taken from the Base Specification (65, 68, 159), reads of BAR2 (106). -/
def Obligations.HostRequestRowsComplete : Prop :=
  ∀ (s : State) (d : Dev), d = s.begins → ∀ f : Fin 16,
    (pinsCut d = false → fnClaims d f = true → d.hst.inbox = [] → hostBraked d = false →
      (d.yard.held.any (fun x => x.acc.who = .host f && x.acc.write) = false → ∀ (off : BitVec 28) (wide : Bool),
        exec (.hostBar0Access f off wide none false .clear) s = .next (s.ends
          (bar0Read f off.toNat wide (bump (kH 0 0x050) d)))) ∧
      (d.yard.held.any (fun x => x.acc.who = .host f && x.acc.write) = false → ∀ queue : BitVec 16,
        exec (.hostBar2Enqueue f queue none false .clear) s = .next (s.ends (bar2Read f queue.toNat (bump (kH 0 0x050) d)))) ∧
      (∀ (addr : Addr) (len : Fin 4097), len.val ≠ 0 → exec (.hostBar4Read f addr len .clear) s = .next (s.ends
        (bar4Read f addr.toNat len.val (bump (kH 0 0x050) d)))) ∧
      (armed d T.HST 0 0 4 = none →
        (∀ (off : BitVec 28) (wide : Bool) (v : W64) (id : Nat) (e : Dev),
          keepHeader f.val (0x40000000 + off.toNat) (if wide then 8 else 4) (bump (kH 0 0x050) d) = (id, e) →
          exec (.hostBar0Access f off wide (some v) false .clear) s = .next (s.ends (bar0Write f off.toNat v.toNat wide id e))) ∧
        (∀ (queue : BitVec 16) (image : BitVec 512) (id : Nat) (e : Dev),
          keepHeader f.val (0x60000000 + 0x40 * queue.toNat) 64 (bump (kH 0 0x050) d) = (id, e) →
          outstanding d (.host f) = 0 → d.yard.held.any (fun x => x.acc.who = .host f && x.acc.write) = false →
          exec (.hostBar2Enqueue f queue (some image) false .clear) s = .next (s.ends
            (bar2Enqueue f queue.toNat (Image.ofBytes (leBytes 64 image.toNat)) id e))) ∧
        (∀ (addr : Addr) (bytes : List Byte) (id : Nat) (e : Dev), bytes ≠ [] → bytes.length ≤ 128 * 2 ^ d.hst.mps →
          keepHeader f.val addr.toNat bytes.length (bump (kH 0 0x050) d) = (id, e) →
          exec (.hostBar4Write f addr bytes false .clear) s = .next (s.ends (bar4Write f addr.toNat bytes id e))))) ∧
    (∀ (g : Flight) (k : Kind) (rest : List Flight), g.st = .failed k →
      takeFlight (hostFailure f) d.net.flights = (some g, rest) →
      exec (.hostWriteFailed f) s = .next (s.ends
        (hostFailed f.val g.addr g.tag k { d with net := { d.net with flights := rest } })))

/-- The outbound window (R501, R510, R511): OUTBOUND_READ of a part that the map lets through, and of several parts, which are
checked and issued one by one; OUTBOUND_READ_COMPLETE while no part waits to be issued, OUTBOUND_WRITE_ACK, OUTBOUND_WRITE
that the map lets through. The model's choice: the count of OUT_TLPS and the failure of a part (log entry 67), what is taken
from the Base Specification (159). -/
def Obligations.OutboundRowsComplete : Prop :=
  ∀ (s : State) (d : Dev), d = s.begins → ∀ who : Who,
    (∀ (addr : Addr) (len : Fin 4097), inOutbound addr.toNat = true → len.val ≠ 0 →
      (let parts := outParts (readLimit d) (len.val + 2) addr.toNat len.val
       let asks := fun (r : OutRead) => updHst (fun h => { h with reads := h.reads ++ [r] }) d
       let read : OutRead := { who := who, cmp := cmpOf d who, addr := addr.toNat, what := .plain }
       let e := pumpReads parts.length (asks { read with wait := parts })
       (e.hst.reads.any readOver = false → exec (.outboundRead who addr len) s = .next (s.ends e)) ∧
       (∀ p : Nat × Nat, parts = [p] → (∀ r ∈ d.hst.reads, r.wait = [] ∧ r.parts ≠ []) → outstandingReads d < 256 →
        outAllowed d (cmpOf d who) (outEntry p.1) false = true → exec (.outboundRead who addr len) s = .next (s.ends
          (answer who (.outbound (outOwner d (outEntry p.1)) false (hostAddr d p.1) p.2)
            (tcount 8 p.2 (bump (kH 0 0x054) (asks { read with parts := [p] })))))))) ∧
    (pinsCut d = false →
      (let mine := fun (r : OutRead) => r.who = who && !r.parts.isEmpty
       ∀ (r : OutRead) (p : Nat × Nat) (ok : Bool) (bytes : List Byte), d.hst.reads.find? mine = some r →
        (∀ x ∈ d.hst.reads, x.wait = [] ∧ x.parts ≠ []) → bytes.length = p.2 →
        (let e := if ok then d else outReadFail (outEntry p.1) d
         (r.parts = [p] → exec (.outboundReadComplete who ok bytes) s = .next (s.ends
          (push (.back r.who r.addr r.what (if r.fault then .fail .noRegion else .data (marked (r.got ++ bytes) (r.bad || !ok))))
            (updHst (fun h => { h with reads := changeFirst mine (fun _ => none) h.reads }) e)))) ∧
         (∀ (q : Nat × Nat) (rest : List (Nat × Nat)), r.parts = p :: q :: rest →
          exec (.outboundReadComplete who ok bytes) s = .next (s.ends
            (updHst (fun h => { h with reads := changeFirst mine (fun _ =>
              some { r with parts := q :: rest, got := r.got ++ bytes, bad := r.bad || !ok }) h.reads }) e))))) ∧
      exec (.outboundWriteAck who) s = .next (s.ends
        (let fs := changeFirst (fun f => f.who = who && toHost f) (fun f => some { f with st := .acked }) d.net.flights
         { d with net := { d.net with flights := fs } }))) ∧
    (∀ (addr : Addr) (bytes : List Byte), inOutbound addr.toNat = true → bytes ≠ [] →
      (let parts := outParts (128 * 2 ^ d.hst.mps) (bytes.length + 2) addr.toNat bytes.length
       (∀ p ∈ parts, outAllowed d (cmpOf d who) (outEntry p.1) true = true) →
       exec (.outboundWrite who addr bytes) s = .next (s.ends
        (launch ⟨who, cmpOf d who, tagOf d who.unitId, ((runOf d who.unitId).map (·.serial)).getD 0, addr.toNat, true, .pending,
            tick d, false⟩
          (each parts (fun p e => answer who (.outbound (outOwner e (outEntry p.1)) true (hostAddr e p.1) p.2)
            (tcount 8 p.2 (bump (kH 0 0x054) e))) d)))))

/-- The endpoint (R109, R503, R504, R513, R516, R518): FUNCTION_LEVEL_RESET, CONFIG_WRITE, VEC_BIND_WRITE, VECTOR_ARM,
HOST_LINK_DOWN, HOST_LINK_UP, REFCLK_LOST, REFCLK_RESTORED, IN_BAND_LINK_RESET. The model's choice: messages that are lost or
pend (log entry 62), reset values of the configuration (65, 66), refused bindings (69), what a falling link drops (67, 76),
when the endpoint comes up (137), what a reset of the PF clears (169). -/
def Obligations.EndpointRowsComplete : Prop :=
  ∀ (s : State) (d : Dev), d = s.begins →
    (pinsCut d = false →
      exec .inBandLinkReset s = .next (s.ends (endpointReset d)) ∧
      -- of the PF: its requests are dropped, the VFs go, and its own configuration and MSI-X table are reset (R504)
      exec (.functionLevelReset 0) s = .next (s.ends
        (let r := dropInbound (fun _ => true) d
         let e := fnConfigReset 0 { r.2 with regs := r.2.regs.filter (fun (x : Nat × W32) =>
           !(keyTy x.1 = T.HST && keyPage x.1 = 1 && decide (0x800 ≤ keyOff x.1))) }
         post 0 { kind := 0x05, subject := 0, detail := r.1 } (vfsGone e))) ∧
      (∀ f : Fin 16, f ≠ 0 → fnExists d f.val = true →
        exec (.functionLevelReset f) s = .next (s.ends
          (let e := vfReset f.val d
           if rdB e (kC f.val 0x04C) 8 ∧ (getCmp e f.val).mode = .active then
             cmpResetStart f.val (wrB (kC f.val 0x048) 31 true (cutCompartment f.val false e)) else e))) ∧
      (linkIsUp d = true →
        (∀ (f : Fin 16) (b : Bool), fnExists d f.val = true →
          exec (.configWrite (.memorySpace f b)) s = .next (s.ends (updHst (fun h => { h with mse := putBit h.mse f.val b }) d)) ∧
          exec (.configWrite (.busMaster f b)) s = .next (s.ends (updHst (fun h => { h with bme := putBit h.bme f.val b }) d)) ∧
          exec (.configWrite (.powerD3 f b)) s = .next (s.ends (updHst (fun h => { h with d3 := putBit h.d3 f.val b }) d)) ∧
          exec (.configWrite (.errorReporting f b)) s = .next (s.ends (updHst (fun h => { h with errs := putBit h.errs f.val b }) d)) ∧
          exec (.configWrite (.msixEnable f b)) s = .next (s.ends
            (sendPending f.val (updHst (fun h => { h with msix := putBit h.msix f.val b }) d))) ∧
          exec (.configWrite (.msixMask f b)) s = .next (s.ends
            (sendPending f.val (updHst (fun h => { h with masked := putBit h.masked f.val b }) d)))) ∧
        (∀ b : Bool, exec (.configWrite (.vfEnable b)) s = .next (s.ends
          (dropVfs (updHst (fun h => { h with vfEnable := b }) d)))) ∧
        (∀ n : Fin 16, exec (.configWrite (.numVfs n)) s = .next (s.ends
          (dropVfs (updHst (fun h => { h with numVfs := n.val }) d)))))) ∧
    (∀ (who : Who) (f : Fin 16) (v : Fin 64) (k q : Nat) (e : Dev), k = kVec f.val v.val → e = touched who d →
      (getQueue e q).valid = true → (getQueue e q).kind = 1 → ((getQueue e q).owner = f.val ∨ f = 0) →
      boundVector (wr k 0 e) q = none → (f = 0 → v = 0 → alertToPf e = false) →
      (∀ value : W32, mayPut d who k value.toNat = true → bit value.toNat 31 = true → bit value.toNat 30 = false →
        fld value.toNat 15 0 = q →
        exec (.vecBindWrite who f v value) s = .next (s.ends (wr k (2 ^ 31 + b2n (rdB e k 30) * 2 ^ 30 + q) e))) ∧
      (mayPut d who k (setBit (rd d k) 30) = true → rdB d k 31 = true → rdF d k 15 0 = q →
        ∀ e1 : Dev, e1 = wr k (2 ^ 31 + b2n (rdB d k 30) * 2 ^ 30 + q) e →
        ((getQueue e q).tail = (getQueue e q).head → exec (.vectorArm who f v) s = .next (s.ends (wrB k 30 true e1))) ∧
        ((getQueue e q).tail ≠ (getQueue e q).head →
          exec (.vectorArm who f v) s = .next (s.ends (sendVector f.val v.val (wrB k 30 false e1)))))) ∧
    (linkIsUp d = true → exec .hostLinkDown s = .next (s.ends
      (wr (kH 0 0x044) 0 (hostLinkEvent 0 (flag0 T.HST 0 0 0 (bump (kH 0 0x05C) (wrB (kH 0 0x044) 16 false
        (outLost (dropInbound (fun _ => true) d).2)))))))) ∧
    (∀ (width : Fin 8) (rate : Fin 16), linkIsUp d = false → d.pwr.endpoint = true → d.pwr.perstLow = false → d.hst.refclk = true →
      (width = 1 ∨ width = 2 ∨ width = 4) → 1 ≤ rate.val → rate.val ≤ 4 →
      exec (.hostLinkUp width rate) s = .next (s.ends
        (hostLinkEvent 1 (wr (kH 0 0x044) (0x10000 + width.val * 256 + rate.val) d)))) ∧
    (d.hst.refclk = true →
      (d.pwr.perstLow = true → exec .refclkLost s = .next (s.ends d)) ∧
      (d.pwr.perstLow = false → exec .refclkLost s = .next (s.ends
        (hostLinkOf 2 (rd d (kH 0 0x044)) (linkFalls (flag0 T.HST 0 1 0 (updHst (fun h => { h with refclk := false }) d))))))) ∧
    exec .refclkRestored s = .next (s.ends (updHst (fun h => { h with refclk := true }) d))
/-! ### The drawbar -/

/-- Flits of a drawbar port (R523, R526, R529): HELLO that is accepted in HELLO, DATA_FLIT, NAK, IDLE_FLIT, ECHO_RECEIVE,
ECHO_REPLY and TICK_SYNC of an aligned follower, each whole and in order; ECHO, REPLAY_TIMEOUT. The model's choice: what a
HELLO tells (log entries 160, 177), and when a packet that a sweep holds is tried again (74). -/
def Obligations.FlitRowsComplete : Prop :=
  ∀ (s : State) (d : Dev), d = s.begins → d.part.ioDies = 2 → pinsCut d = false →
    ∀ (port : Fin 2) (hdr : FlitHdr) (p : Nat) (x : DbPort), p = port.val → x = dbPort d p → hdr.crcOk = true →
    (hdr.seq.val = x.rxSeq → (x.state = .hello ∨ x.state = .up) →
      ∀ e : Dev, e = credited p hdr (acked p hdr.ack (updDb p (fun x => { x with rxSeq := (x.rxSeq + 1) % 4096, heard := true })
        (bump64 (kB (1 + p) 0x060) d))) →
      let sends := fun (f : Dev) => idleOut p x.nextSeq (pumpPort p f)
      -- accepted, the port is up and the members of `anew` count again; else it goes down (R526, R531)
      (∀ (id size : Fin 8) (topo : Fin 4) (sender : Fin 2) (present anew : Fin 16) (c : Nat),
        c = helloCheck e p id.val size.val topo.val sender.val →
        (c = 0 → exec (.hello port hdr id size topo sender present anew) s = .next (s.ends (sends
          (let f := wrF (kB (1 + p) 0x044) 12 12 sender.val (wrF (kB (1 + p) 0x044) 9 8 id.val
             (updDb p (fun x => { x with present := present.val % 16 ||| 2 ^ id.val }) e))
           let g := if (dbPort e p).state = .hello then dbrEvent 0x41 1 p 0 (setPort p .up f) else f
           tryForm (tellNeighbours (refreshPresent
             { g with dbr := { g.dbr with removed := g.dbr.removed ^^^ (g.dbr.removed &&& anew.val) } })))))) ∧
        (c ≠ 0 → exec (.hello port hdr id size topo sender present anew) s = .next (s.ends (sends
          (portDown p (formResult c e)))))) ∧
      (∀ packets : List Packet, x.state = .up →
        exec (.dataFlit port hdr packets) s = .next (s.ends (sends (each packets (takePacket p) e)))) ∧
      (∀ cookie : W64, canSend (dbPort e p) = true → exec (.echoReceive port hdr cookie) s = .next (s.ends
        (sends (sendFlit p (.echoReply cookie.toNat) e)))) ∧
      (∀ (cookie : W64) (cycle : Fin 200) (at_ : Nat), (dbPort e p).echo = some (cookie.toNat, at_) →
        exec (.echoReply port hdr cookie cycle) s = .next (s.ends (sends
          (wrF (kB (1 + p) 0x044) 31 16 ((refCount e cycle.val - at_) / 2) (updDb p (fun x => { x with echo := none }) e))))) ∧
      (∀ (time : W64) (cycle : Fin 200) (delay : W32) (here : Fin 200) (transit : BitVec 16) (locked : Bool),
        formed e = true → teamId e ≠ 0 → e.dbr.joining = false →
        (let off : Int := (refCount e here.val : Int) - (time.toNat * 200 + cycle.val + delay.toNat + linkDelay e p : Nat)
         let f := setOffset off locked e
         exec (.tickSync port hdr time cycle delay here transit locked) s = .next (s.ends (sends
           (if canSend (dbPort f (1 - p)) ∧ topology e ≠ 0 then
              sendFlit (1 - p) (.tickSync time.toNat cycle.val (delay.toNat + linkDelay e p + transit.toNat)) f
            else f)))))) ∧
    ((x.state = .hello ∨ x.state = .up) → ∀ e : Dev, e = credited p hdr (acked p hdr.ack (bump64 (kB (1 + p) 0x060) d)) →
      exec (.nak port hdr) s = .next (s.ends (pumpPort p (replayFlits p e))) ∧
      exec (.idleFlit port hdr) s = .next (s.ends (pumpPort p e))) ∧
    ((x.state = .hello ∨ x.state = .up ∧ x.replays < 8) → x.replay ≠ [] → x.ackAt + 2 ≤ tick d →
      exec (.replayTimeout port) s = .next (s.ends (bump (kB (1 + p) 0x04C)
        (updDb p (fun x => { x with replays := x.replays + 1, ackAt := tick d })
          (each x.replay (fun f => flitOut p f.body.type f.seq f.credit f.body.bytes) d))))) ∧
    (∀ cycle : Fin 200, canSend x = true → x.echoAt ≤ tick d → exec (.echo port cycle) s = .next (s.ends
      (sendFlit p (.echo (refCount d cycle.val)) (updDb p (fun x => { x with
        echo := some (refCount d cycle.val, refCount d cycle.val), echoAt := tick d + 1000000 }) d))))

/-- Ports and the team (R523, R524, R525, R526, R529, R530): PORT_ENABLE, PORT_LOCKED, PORT_TRAINING_TIMEOUT,
PORT_DOWN_EXPIRE, RETRAIN_DONE, FORM with every compartment but 0 FREE, FORM_NO_PATH, TICK_SYNC_SEND, MEMBER_TIMEOUT. The
model's choice: receive buffers (log entry 61), the ports that resets take down (75), whom a HELLO tells of and who comes back
(160, 177), CREDIT of packets that are lost (178). -/
def Obligations.TeamRowsComplete : Prop :=
  ∀ (s : State) (d : Dev), d = s.begins → d.part.ioDies = 2 → pinsCut d = false →
    (∀ (port : Fin 2) (p : Nat), p = port.val →
      (∀ (who : Who) (e : Dev), e = touched who d →
        (mayPut d who (kB (1 + p) 0x040) 1 = true → (dbPort e p).state = .disabled →
          exec (.portEnable who port true) s = .next (s.ends
            (setPort p .training (updDb p (fun _ => {}) (wrB (kB (1 + p) 0x040) 0 true e))))) ∧
        (mayPut d who (kB (1 + p) 0x040) 0 = true → (dbPort e p).state ≠ .disabled →
          exec (.portEnable who port false) s = .next (s.ends
            (setPort p .disabled (portDown p (wrB (kB (1 + p) 0x040) 0 false e)))))) ∧
      ((dbPort d p).state = .training →
        (d.clk.locked = true → (dbPort d p).retry = false → tick d ≤ (dbPort d p).since + 5000 →
          exec (.portLocked port) s = .next (s.ends (sendHello p
            (updDb p (fun x => { x with freed := [0, 1, 2].map Config.drawbarBuffers }) (setPort p .hello d))))) ∧
        ((dbPort d p).since + (if (dbPort d p).retry then 100000 else 5000) ≤ tick d →
          exec (.portTrainingTimeout port) s = .next (s.ends
            (updDb p (fun x => { x with since := tick d, retry := !x.retry }) d)))) ∧
      ((dbPort d p).state = .down → (dbPort d p).since + 100000 ≤ tick d →
        exec (.portDownExpire port) s = .next (s.ends (setPort p .training (updDb p (fun _ => {}) d)))) ∧
      ((dbPort d p).state = .retrain →
        exec (.retrainDone port true) s = .next (s.ends
          (let e := dbrEvent 0x41 1 p 0 (setPort p .up d)
           let f := updDb p (fun x => { x with ackAt := tick d }) e
           tellNeighbours (refreshPresent (pumpPort p
             (each (dbPort f p).replay (fun y => flitOut p y.body.type y.seq y.credit y.body.bytes) f))))) ∧
        exec (.retrainDone port false) s = .next (s.ends (startRetrain p d)))) ∧
    (∀ (who : Who) (e : Dev), e = touched who d → mayPut d who (kB 0 0x044) 1 = true →
      (∀ n < 16, n ≠ 0 → (getCmp e n).mode = .free) → exec (.form who) s = .next (s.ends
        (tryForm (refreshPresent (portEnable 1 true (portEnable 0 true { e with dbr := { e.dbr with forming := some (tick e), removed := 0 } })))))) ∧
    (∀ t : Nat, d.dbr.forming = some t → t + 1000000 ≤ tick d → exec .formNoPath s = .next (s.ends
      (flag0 T.DBR 0 3 7 (wrF (kB 0 0x048) 7 0 7 { d with dbr := { d.dbr with forming := none } })))) ∧
    (∀ cycle : Fin 200, formed d = true → teamId d = 0 → d.dbr.syncAt ≤ tick d →
      exec (.tickSyncSend cycle) s = .next (s.ends
        (each ([0, 1].filter (fun p => canSend (dbPort d p))) (fun p f => sendFlit p (.tickSync (tick f) cycle.val 0) f)
          { d with dbr := { d.dbr with syncAt := tick d + rd d (kB 0 0x04C) } }))) ∧
    (∀ (member : Fin 4) (m g : Nat), m = member.val → Map.get (fun _ => 0) d.dbr.gone m = g + 1 →
      g + rd d (kB 0 0x050) ≤ tick d →
      exec (.memberTimeout member) s = .next (s.ends (memberLost m d)))
/-! ### The management bus -/

/-- Framed commands (R538, R541, R545): MGMT_READ, MGMT_WRITE and MGMT_STATUS of a whole frame, MGMT_READ_PHASE of a pending
reply, MGMT_SCL_TIMEOUT. I3C (R535, R536, R547 to R549): the CCCs ENTDAA, SETDASA, SETNEWDA, RSTDAA, ENEC, DISEC, GETPID,
GETBCR, GETDCR, GETSTATUS, SETMWL, SETMRL, GETMWL, GETMRL; ALERT_RESPONSE_READ, IBI_RETRY, HOT_JOIN. The value of GETSTATUS is
free (log entry 27). The model's choice beside it: LAST_CMD and Hot-Join (log entry 108), a wrong PEC on a frame that needs
none (168). -/
def Obligations.ManagementRowsComplete : Prop :=
   (∀ (s : State) (d : Dev), d = s.begins → pinsCut d = false → mgmtAnswers d = true →
      (∀ (addr : Addr) (count : BitVec 8), count.toNat ≠ 0 → count.toNat ≤ 64 → addr.toNat % 4 = 0 → windowOff addr.toNat = none →
        (let e := bump (kMt 0x050) (mgmtOpen (mgmtPhase d 1 (leBytes 6 addr.toNat ++ leBytes 1 count.toNat)) d)
         let r := mgmtWords addr.toNat count.toNat count.toNat 0 e
         r.1.2.1 = 0 → exec (.mgmtRead addr count .whole) s = .next (s.ends
          (mgmtReply 0 r.1.1 (mgmtRecord 0 1 count.toNat r.2))))) ∧
      (∀ (addr : Addr) (count : BitVec 8) (words : List W32), words.length = count.toNat → count.toNat ≠ 0 → count.toNat ≤ 64 →
        addr.toNat % 4 = 0 → windowOff addr.toNat = none → armed d T.MTB 0 0 1 = none →
        (let e := bump (kMt 0x050) (mgmtOpen (mgmtPhase d 2 (leBytes 6 addr.toNat ++ leBytes 1 count.toNat ++
           words.flatMap (fun w => leBytes 4 w.toNat))) d)
         let r := mgmtStores addr.toNat words 0 e
         r.1.1 = 0 → exec (.mgmtWrite addr count words .whole) s = .next (s.ends (mgmtRecord 0 2 r.1.2 r.2)))) ∧
      exec (.mgmtStatus .whole) s = .next (s.ends
        (let l := d.mgmt.last
         updMgmt (fun m => { m with reply := some .status, bytes := leBytes 1 l.1 ++ leBytes 1 l.2.1 ++ leBytes 1 l.2.2 })
          (bump (kMt 0x050) (mgmtOpen (mgmtPhase d 3 []) d)))) ∧
      (∀ again : Bool, d.mgmt.reply.isSome = true → exec (.mgmtReadPhase again) s = .next (s.ends
        (let pec := crc8 ((if again then d.mgmt.sent else []) ++ addrByte d true :: d.mgmt.bytes)
         answer .mgmt (.data (if i3cMode d then d.mgmt.bytes else d.mgmt.bytes ++ [pec]) false)
          (updMgmt (fun m => { m with reply := none, bytes := [] }) d)))) ∧
      (i3cMode d = false → rdB d (kMt 0x044) 1 = true → exec .mgmtSclTimeout s = .next (s.ends
        (flag0 T.MTB 0 0 0 (bump (kMt 0x058) d))))) ∧
   (∀ (s : State) (d : Dev), d = s.begins → pinsCut d = false → mgmtAnswers d = true →
      (i3cMode d = false →
        (∀ addr : Fin 128, exec (.entdaa addr) s = .next (s.ends (assignDyn addr.val d)) ∧
          exec (.setdasa addr) s = .next (s.ends (assignDyn addr.val d))) ∧
        exec (.alertResponseRead true) s = .next (s.ends
          (let b : Byte := BitVec.ofNat 8 (2 * staticAddr d)
           answer .mgmt (.data [b, crc8 [0x19, b]] false)
            (if rdB d (kMt 0x044) 5 then updMgmt (fun m => { m with released := true, fallback := 0 }) d else d))) ∧
        exec (.alertResponseRead false) s = .next (s.ends (flag0 T.MTB 0 6 0 d)) ∧
        (∀ ack : Bool, d.mgmt.hjDone = false → d.mgmt.hjOn = true → rdB d (kMt 0x044) 2 = true → due d d.mgmt.hjAt = true →
          d.mgmt.hjNacks < 7 →
          exec (.hotJoin ack) s = .next (s.ends (if ack then updMgmt (fun m => { m with hjDone := true }) d
            else updMgmt (fun m => { m with hjNacks := m.hjNacks + 1, hjAt := tick d + 100000 }) d)))) ∧
      (i3cMode d = true →
        (∀ addr : Fin 128, exec (.setnewda addr) s = .next (s.ends (assignDyn addr.val d))) ∧
        exec .rstdaa s = .next (s.ends
          (updMgmt (fun m => { m with dyn := none, ibis := [], byIbi := 0, nacks := 0, fallback := 0 }) d)) ∧
        (∀ int hj : Bool,
          exec (.enec int hj) s = .next (s.ends (updMgmt (fun m => { m with ibiOn := m.ibiOn || int, hjOn := m.hjOn || hj }) d)) ∧
          exec (.disec int hj) s = .next (s.ends (updMgmt (fun m =>
            { m with ibiOn := m.ibiOn && !int, ibis := if int then [] else m.ibis, nacks := if int then 0 else m.nacks
                     byIbi := if int then m.ibis.foldl clrBit m.byIbi else m.byIbi
                     hjOn := m.hjOn && !hj, hjDone := m.hjDone || hj }) d))) ∧
        exec .getpid s = .next (s.ends (answer .mgmt (.code (provisionalId d)) d)) ∧
        exec .getbcr s = .next (s.ends (answer .mgmt (.code 0x06) d)) ∧
        exec .getdcr s = .next (s.ends (answer .mgmt (.code 0x00) d)) ∧
        exec .getstatus s = .next (s.ends (answer .mgmt (.code ((draw d).1.toNat % 65536)) (draw d).2)) ∧
        (∀ len : BitVec 16,
          exec (.setmwl len) s = .next (s.ends (updMgmt (fun m => { m with mwl := len.toNat }) d)) ∧
          exec (.setmrl len) s = .next (s.ends (updMgmt (fun m => { m with mrl := len.toNat }) d))) ∧
        exec .getmwl s = .next (s.ends (answer .mgmt (.code d.mgmt.mwl) d)) ∧
        exec .getmrl s = .next (s.ends (answer .mgmt (.code d.mgmt.mrl) d))) ∧
      -- of the alerts whose IBI waits, the oldest: taken, refused by a NACK, or given up after eight of them (R548)
      (∀ (t0 : Nat) (rest : List Nat), ibiMode d = true → d.mgmt.ibis = t0 :: rest →
        (∀ t : Nat, findBelow 0x1D (fun t => (alertPending d).testBit t) = some t → exec (.ibiRetry true) s = .next (s.ends
          (answer .mgmt (.data [0, BitVec.ofNat 8 t] false) (updMgmt (fun m => { m with ibis := rest, nacks := 0 }) d)))) ∧
        (d.mgmt.nacks < 7 → exec (.ibiRetry false) s = .next (s.ends (updMgmt (fun m => { m with nacks := m.nacks + 1 }) d))) ∧
        (7 ≤ d.mgmt.nacks →
          let e := bumpBy (kMt 0x05C) 8 (updMgmt (fun m => { m with ibis := rest, nacks := 0 }) d)
          ((rdB e (kMt 0x044) 3 = false ∨ rdB e (rk T.SYS 0 1 0x048) 0 = false) → exec (.ibiRetry false) s = .next (s.ends e)) ∧
          (rdB e (kMt 0x044) 3 = true → rdB e (rk T.SYS 0 1 0x048) 0 = true → exec (.ibiRetry false) s = .next (s.ends
            (flag0 T.MTB 0 4 0 (updMgmt (fun m => { m with
              byIbi := clrBit m.byIbi t0, fallback := setBit m.fallback t0, released := false }) e)))))))
/-! ### The two-wire controllers -/

/-- Lists of a controller port (R552, R553, R554, R555, R556, R557, R558): LIST_RUN, LIST_WRITE, LIST_CHECK, LIST_READ,
LIST_DELAY, LIST_END, ADDR_RETRY, ARB_LOST_RETRY with free lines and an acknowledged transfer, STRETCH_TIMEOUT, RECOVER,
LIST_DIR_WRITE, LRAM_DATA_ACCESS. The model's choice: results of refused lists (log entry 77), and the lines that a plain
RECOVER finds (72). -/
def Obligations.ListRowsComplete : Prop :=
  ∀ (s : State) (d : Dev), d = s.begins → ∀ (bus : Fin 4) (p : Nat), p = bus.val →
    (∀ (r : ListRun) (w n : Nat), (twPort d p).run = some r → listOp d p r = some w → opWords w = some n → opFits r n = true →
      r.stop = false → (twPort d p).mode ≠ .stuck →
      (pinsCut d = false → govAhead d p = false → armed d T.TWC p 0 0 = none → armed d T.TWC p 0 3 = none →
        -- the lines are free, and the command's bytes are on the bus (R552, R556)
        ∀ e : Dev, e = (let f := updTw p (fun x => { x with scl := true, sda := true }) d
                        updTw p (fun x => { x with wire := listWire f p r w }) f) →
        (firstTry r = true →
          (fld w 31 28 = 1 → exec (.listWrite bus .free .done) s = .next (s.ends (nextOp p n (twCount p 0 e)))) ∧
          (∀ byte : Byte, fld w 31 28 = 2 → exec (.listCheck bus .free .done byte) s = .next (s.ends
            (let c := listWord (nextOp p n (twCount p 0 e)) p (r.pc + 1 + (fld w 15 8 + 3) / 4)
             if byte.toNat &&& fld c 15 8 = fld c 7 0 then nextOp p n (twCount p 0 e)
             else endRun p 0x07 r.pc (fld w 26 20) (nextOp p n (twCount p 0 e))))) ∧
          (∀ bytes : List Byte, fld w 31 28 = 4 → bytes.length = fld w 7 0 →
            exec (.listRead bus .free .done bytes) s = .next (s.ends (readBuf p bytes (nextOp p n (twCount p 0 e)))))) ∧
        (fld w 31 28 = 1 →
          (r.nacks ≠ 0 → exec (.addrRetry bus .free .done []) s = .next (s.ends (nextOp p n e))) ∧
          (r.losts ≠ 0 → exec (.arbLostRetry bus .free .done []) s = .next (s.ends (nextOp p n e))))) ∧
      (pinsCut d = false → fld w 31 28 = 1 ∨ fld w 31 28 = 2 ∨ fld w 31 28 = 4 → firstTry r = true →
        exec (.stretchTimeout bus .free) s = .next (s.ends (endRun p 0x05 r.pc (fld w 26 20)
          (updTw p (fun x => { x with scl := true, sda := true }) (twCount p 0 d))))) ∧
      (fld w 31 28 = 3 →
        (r.till = none → exec (.listDelay bus) s = .next (s.ends
          (updTw p (fun x => { x with run := some { r with till := some (tick d + fld w 15 0) } }) d))) ∧
        (∀ t : Nat, r.till = some t → t ≤ tick d → exec (.listDelay bus) s = .next (s.ends (nextOp p 1 d)))) ∧
      (fld w 31 28 = 0 → exec (.listEnd bus) s = .next (s.ends (endRun p 0 0 0 d)))) ∧
    (∀ (r : ListRun), (twPort d p).run = some r → r.stop = true → exec (.listEnd bus) s = .next (s.ends (endRun p 0x08 0 0 d))) ∧
    (∀ (who : Who) (e : Dev), e = touched who d →
      (∀ list : Fin 64, mayPut d who (kW p 0x04C) (256 + list.val) = true → enabled e T.TWC p = true →
        (twPort e p).mode ≠ .stuck → bit (listDir e p list.val) 31 = true →
        ((twPort e p).run.isSome = true → (twPort e p).queue.length < 8) →
        exec (.listRun who bus list) s = .next (s.ends
          (startNext p (updTw p (fun x => { x with queue := x.queue ++ [⟨list.val, .command⟩] }) e)))) ∧
      (mayPut d who (kW p 0x054) 1 = true → exec (.recover who bus .free) s = .next (s.ends (startNext p
        (updTw p (fun x => { x with mode := .idle }) (updTw p (fun x => { x with scl := true, sda := true }) e))))) ∧
      (∀ (list : Fin 64) (value : W32), mayPut d who (kW p (0x100 + 4 * list.val)) value.toNat = true →
        ((activeLists e p).contains list.val = false → exec (.listDirWrite who bus list value) s = .next (s.ends
          (wr (kW p (0x100 + 4 * list.val)) (value.toNat &&& 0x8F3FF3FF) e))) ∧
        ((activeLists e p).contains list.val = true → exec (.listDirWrite who bus list value) s = .next (s.ends
          (flag0 T.TWC p 10 list.val e)))) ∧
      (∀ value : W32, mayPut d who (kW p 0x084) value.toNat = true → wordBusy e p (lramSel e p) = none →
        exec (.lramDataAccess who bus (some value)) s = .next (s.ends (lramNext p
          (updTw p (fun x => { x with ram := Map.set (fun _ => 0) x.ram (lramSel e p) value.toNat }) e)))))

/-! ### Touch, buttons, lights and hot-plug -/

/-- The human interface (R566, R567, R568, R569, R570, R576, R579, R580): DEBOUNCE_EXPIRE, EVENT_GAP_END, STUCK_EXPIRE and
PIN_LEVEL_CHANGE of a pin input; REARM_EXPIRE, TOUCH_SCAN, DORMANT_TOUCH_SCAN when due; INPUT_CFG_WRITE, LED_CTRL_WRITE,
LED_RESTART, LED_SLOT_ADVANCE, PWM_PERIOD_BOUNDARY. The model's choice: the order within a scan and the operands of FIFO room
(log entry 78), events that wait behind a closed gate (161), pins while the module is off (162). -/
def Obligations.InterfaceRowsComplete : Prop :=
  ∀ (s : State) (d : Dev), d = s.begins →
    (∀ (input : Fin 23) (full : Bool) (i : Nat), i = input.val →
      (8 ≤ i →
        ((hmiIn d i).pin ≠ (hmiIn d i).level → (hmiIn d i).pinAt + inputMs (debounceMs d i) ≤ aonNow d →
          exec (.debounceExpire input full) s = .next (s.ends (setLevel i (hmiIn d i).pin full d))) ∧
        -- a debounce that is over in the same AON cycle acts first (R581)
        (∀ e : Dev, e = (if (hmiIn d i).pin ≠ (hmiIn d i).level ∧ (hmiIn d i).pinAt + inputMs (debounceMs d i) ≤ aonNow d
            then setLevel i (hmiIn d i).pin full d else d) →
          exec (.stuckExpire input full) s = .next (s.ends (if stuckDue e i then maskInput i full e else e))) ∧
        (∀ level : Bool, (hmiIn d i).pin ≠ level → d.pwr.state = .off →
          exec (.pinLevelChange input level full) s = .next (s.ends (updIn i (fun x => { x with pin := level, level := level }) d))) ∧
        (∀ (level : Bool) (e : Dev), (hmiIn d i).pin ≠ level → d.pwr.state ≠ .off →
          e = showInput i (updIn i (fun x => { x with pin := level, pinAt := aonNow d }) d) →
          (debounceMs d i ≠ 0 → exec (.pinLevelChange input level full) s = .next (s.ends e)) ∧
          (debounceMs d i = 0 → (hmiIn d i).level ≠ level →
            exec (.pinLevelChange input level full) s = .next (s.ends (setLevel i level full e))))) ∧
      -- what waits goes first; then a level that is not the one last posted (R567, R578)
      (∀ e f : Dev, e = flushWaiting d → ((hmiIn e i).pin = (hmiIn e i).level ∨ i < 8) →
        (hmiIn e i).gapEnd ≠ 0 → (hmiIn e i).gapEnd ≤ aonNow e + 1 → f = updIn i (fun x => { x with gapEnd := 0 }) e →
        exec (.eventGapEnd input false) s = .next (s.ends
          (if (hmiIn f i).blocked = false ∧ reported f i ≠ (hmiIn f i).posted ∧ eventsOn f i = true then postLevel i f else f))) ∧
      (((hmiIn d i).pin = (hmiIn d i).level ∨ i < 8) → rearmDue d i = true → rearmRuns d i = true →
        exec (.rearmExpire input full) s = .next (s.ends (maskEvent i 3 full (flag0 T.HMI 0 2 i (showInput i
          (updIn i (fun x => { x with masked := false, posted := false, unscanned := false }) d)))))) ∧
      (∀ (who : Who) (value : W32) (e : Dev), e = touched who d → mayPut d who (kM 0 (0x080 + 8 * i)) value.toNat = true →
        exec (.inputCfgWrite who input value full) s = .next (s.ends
          (let w := value.toNat &&& 0xFC7FFF00
           levelChanged i (inActive e i) full (wr (kM 0 (0x080 + 8 * i)) (setFld w 22 16 (min 64 (fld w 22 16))) e))))) ∧
    (∀ (raws : List (BitVec 16)) (full : Bool), enabled d T.HMI 0 = true → d.pwr.state = .run →
      (d.hmi.scanned ≠ 0 → d.hmi.scanned - 1 + inputMs (max 1 (rdF d (kM 0 0x04C) 31 24)) ≤ aonNow d) →
      exec (.touchScan raws false full) s = .next (s.ends
        (each ((List.range 8).filter (fun c => rdB d (kM 0 0x04C) (16 + c)))
          (fun c e => scanChannel c ((raws.map (·.toNat)).getD c 0 % 65536) full e)
          (updHmi (fun h => { h with scanned := aonNow d + 1 }) d)))) ∧
    (∀ first second : BitVec 16, d.pwr.state = .dormant → d.hmi.scanned + quarterSec 1 ≤ aonNow d + 1 →
      exec (.dormantTouchScan first second) s = .next (s.ends
        (let e := updHmi (fun h => { h with scanned := aonNow d + 1 }) d
         each d.hmi.dormant (fun x f => dormantChannel x.1 x.2.1 x.2.2
          ((if x.1 = fld (rd e (kAon 0 0x05C)) 2 0 && rdB f (kAon 0 0x05C) 8 then first.toNat else second.toNat) % 65536) f) e))) ∧
    (∀ (who : Who) (e : Dev), e = touched who d →
      (∀ (led : Fin 4) (value : W32) (k : Nat), k = kM 1 (0x040 + 0x10 * led.val) → mayPut d who k value.toNat = true →
        exec (.ledCtrlWrite who led value) s = .next (s.ends
          (let w := plainValue (openFields (pageTouched who d) who k) (rd e k) k value.toNat &&& 0xC1F0FFFF
           ledRestart led.val (wr k (setFld w 15 0 (max 1 (fld w 15 0))) e)))) ∧
      (∀ leds : Fin 16, mayPut d who (kM 1 0x080) leds.val = true → exec (.ledRestart who leds) s = .next (s.ends
        (each ((List.range 4).filter (fun k => leds.val.testBit k)) ledRestart e)))) ∧
    (∀ (led : Fin 4) (k : Nat) (x : Led), k = led.val → x = getLed d k →
      (x.ends ≠ 0 → x.ends ≤ tick d → exec (.ledSlotAdvance led) s = .next (s.ends
        (updLed k (fun x => { x with
          slot := if x.slot + 1 < ledLen d k then x.slot + 1 else 0, ends := x.ends + 1000 * ledSlotMs d k }) d))) ∧
      exec (.pwmPeriodBoundary led) s = .next (s.ends
        (let on := rdB d (kM 1 (0x048 + 16 * k)) x.slot
         let w := rd d (kM 1 (0x044 + 16 * k))
         updLed k (fun y => { y with duty := if ledDriven d k then (if on then fld w 27 16 else fld w 11 0) else 0 }) d)))
/-! ### Test access, fuses and the boot flash -/

/-- The test access port and the console (R582, R583, R584, R587, R588, R589, R590, R593): TAP_RESET, IDCODE, SAMPLE_PRELOAD,
EXTEST, HIGHZ, CLAMP, EXTEST_PULSE, EXTEST_TRAIN, BYPASS, MEM_ACCESS of a read and a write that are done at once, STRONGBOX,
UART_READ, UART_WRITE, UART_IDENT. The model's choice: the console's rights, its spelling and its queue (log entries 109,
163), which traffic the cut pins lose (116), pins while the module is off (162). -/
def Obligations.DebugRowsComplete : Prop :=
  ∀ (s : State) (d : Dev), d = s.begins →
    (tapOn d = true →
      exec .tapReset s = .next (s.ends (updTap (fun t => { t with ir := .idcode }) d)) ∧
      exec .idcode s = .next (s.ends (answer .tap (.code (idcode d)) (updTap (fun t => { t with ir := .idcode }) d))) ∧
      (∀ (row : Instr) (ir : TapIr), (row, ir) ∈ [(Instr.highz, TapIr.highz), (.clamp, .clamp)] →
        exec row s = .next (s.ends (updTap (fun t => { t with ir := ir }) d))) ∧
      (∀ opcode : Byte, exec (.bypass opcode) s = .next (s.ends (updTap (fun t => { t with ir := TapIr.ofOpcode opcode.toNat }) d))) ∧
      -- the chain of the part is scanned once: what its cells capture leaves, and what is shifted in stays (R585 to R587)
      (∀ (row : List Nat → List Nat → Instr) (ir : TapIr), (row, ir) ∈ [(Instr.samplePreload, TapIr.sample),
          (.extest, .extest), (.extestPulse, .pulse), (.extestTrain, .train)] → ∀ pins load : List Nat,
        exec (row pins load) s = .next (s.ends
          (let e := updTap (fun t => { t with ir := ir }) d
           let chain := (scanChain d.part.ioDies).zipIdx
           if serviceClosed d then e
           else answer .tap (.cells (chain.map (fun x => match x.1 with
               | .resetN => b2n (!d.pwr.resetLow)
               | .vrEn => d.pwr.vrEn
               | .pg => d.pwr.pg
               | _ => pins.getD x.2 0)))
             (updTap (fun t => { t with boundary := chain.map (fun x => load.getD x.2 0) }) e)))) ∧
      (serviceClosed d = false →
        -- the next access while one is busy is ignored (R589)
        (∀ (op : Fin 4) (addr : Addr) (value : W32) (e : Dev), e = updTap (fun t => { t with ir := .memAccess }) d →
          (d.tap.mem % 4 = 1 → exec (.memAccess op addr value) s = .next (s.ends e)) ∧
          (d.tap.mem % 4 ≠ 1 →
            (∀ (r : ReadOut) (f : Dev), op = 1 → tapFetch false addr.toNat e = (r, f) →
              exec (.memAccess op addr value) s = .next (s.ends (match r with
                | .data bs => memResult 0 (leNat (bs.map (·.1))) f
                | .fail _ => memResult 2 0 f
                | .held => memResult 1 0 f))) ∧
            (∀ (r : WriteOut) (f : Dev), op = 2 → tapPut false addr.toNat value.toNat e = (r, f) →
              exec (.memAccess op addr value) s = .next (s.ends (match r with
                | .ok => memResult 0 0 f
                | .fail _ => memResult 2 0 f
                | .held => memResult 1 0 f))))) ∧
        (∀ (holder : Fin 128) (word : Fin 8), holder.val < 68 →
          (let w := (getCore d holder.val).box.frame.getD word.val 0
           let e := updTap (fun t => { t with ir := .strongbox, box := holder.val + word.val * 2 ^ 7 + w * 2 ^ 10 }) d
           exec (.strongbox holder word false) s = .next (s.ends (answer .tap (.code w) e)) ∧
           exec (.strongbox holder word true) s = .next (s.ends (answer .tap (.code w)
            (updCore holder.val (fun c => { c with box := { c.box with full := false } }) e))))))) ∧
    (consoleOn d = true → pinsCut d = false → ∀ (row : List Byte → Instr), row ∈ [Instr.uartRead, .uartWrite, .uartIdent] →
      ∀ line : List Byte,
      -- a line that comes while one waits is kept (log entry 163, the model's choice)
      (d.tap.console.isSome = true →
        exec (row line) s = .next (s.ends (updTap (fun t => { t with lines := t.lines ++ [line] }) d))) ∧
      (d.tap.console = none →
        (∀ a n : Nat, consoleCmd line = .read a n → exec (row line) s = .next (s.ends (uartWords n a [] d))) ∧
        (∀ (a v : Nat) (e : Dev),
          (consoleCmd line = .write a v → tapPut true a v d = (.ok, e) → exec (row line) s = .next (s.ends (uartLine okChars e))) ∧
          (∀ k : Kind, consoleCmd line = .write a v → tapPut true a v d = (.fail k, e) →
            exec (row line) s = .next (s.ends (uartLine (hexChars 2 (uartCode k)) e)))) ∧
        (consoleCmd line = .ident → exec (row line) s = .next (s.ends (uartLine (hexChars 8 (idcode d) ++ [32] ++
          hexChars 8 (rd d (kSys 0 0x04C)) ++ [32] ++ hexChars 8 (rd d (kSys 0 0x050))) d))) ∧
        (consoleCmd line = .malformed → exec (row line) s = .next (s.ends (uartLine [63] d)))))

/-- Fuses and the boot flash (R596, R598): PROG_CMD that is allowed, FUSE_PROG_DONE, XSP_PAGE_PROGRAM, XSP_ERASE_4K,
XSP_ERASE_64K, XSP_REGISTER_READ, XSP_CMD_DONE, FLASH_TIMEOUT. The model's choice: how the flash programs and erases (log
entry 64), the state of the fuses as shipped (40). -/
def Obligations.FlashRowsComplete : Prop :=
  ∀ (s : State) (d : Dev), d = s.begins →
    (∀ (who : Who) (e : Dev), e = touched who d →
      (∀ (value : W32) (vio : Bool) (d2 f : Dev), d2 = updPwr (fun p => { p with vio18 := vio }) d →
        mayPut d2 who (kF1 0x048) value.toNat = true → f = touched who d2 → f.fus.prog = none → bit value.toNat 0 = true →
        let c := progRefusal f (fld value.toNat 15 8)
        (c = 0 → exec (.progCmd who value vio) s = .next (s.ends (wr (kF1 0x04C) (2 ^ 31)
          { f with fus := { f.fus with prog := some (rdF f (kF1 0x040) 6 0, rd f (kF1 0x044)) } }))) ∧
        (c ≠ 0 → exec (.progCmd who value vio) s = .next (s.ends (wr (kF1 0x04C) c (flag0 T.FUS 0 1 c f))))) ∧
      (e.xsp.op = none → ∀ (row : Instr) (op : FlashOp) (v : Nat),
        (row, op, v) ∈ [(Instr.xspPageProgram who, FlashOp.program, 0), (.xspErase4k who, .erase4, 256),
          (.xspErase64k who, .erase64, 512)] →
        mayPut d who (kX 0x044) v = true →
        exec row s = .next (s.ends (wrB (kX 0x04C) 31 true
          { e with xsp := { e.xsp with op := some (op, rdF e (kX 0x048) 27 0, tick e) } }))) ∧
      (e.xsp.op = none → ∀ opcode : Byte, mayPut d who (kX 0x044) (opcode.toNat * 2 ^ 24 + 3 * 256) = true →
        exec (.xspRegisterRead who opcode) s = .next (s.ends (wrB (kX 0x04C) 31 true
          { e with xsp := { e.xsp with op := some (.register opcode.toNat, rdF e (kX 0x048) 27 0, tick e) } })))) ∧
    (∀ (r bits : Nat) (missA missB : W32), d.fus.prog = some (r, bits) →
      exec (.fuseProgDone missA missB) s = .next (s.ends
        (let e := rereadFuse r (blow r (bits &&& (0xFFFFFFFF ^^^ missA.toNat)) (bits &&& (0xFFFFFFFF ^^^ missB.toNat))
           { d with fus := { d.fus with prog := none } })
         wr (kF1 0x04C) 0 (if bits &&& rd e (kFuse r) = bits then e else flag0 T.FUS 0 2 r e)))) ∧
    (∀ (o t : Nat) (status : Byte) (e : Dev), pinsCut d = false → e = wr (kX 0x04C) status.toNat { d with xsp := { d.xsp with op := none } } →
      (d.xsp.op = some (.program, o, t) → exec (.xspCmdDone status []) s = .next (s.ends (programPage o e))) ∧
      (d.xsp.op = some (.erase4, o, t) →
        exec (.xspCmdDone status []) s = .next (s.ends (eraseFlash (o / 4096 * 4096) 4096 e))) ∧
      (d.xsp.op = some (.erase64, o, t) →
        exec (.xspCmdDone status []) s = .next (s.ends (eraseFlash (o / 65536 * 65536) 65536 e))) ∧
      (∀ (n : Nat) (bytes : List Byte), d.xsp.op = some (.register n, o, t) →
        exec (.xspCmdDone status bytes) s = .next (s.ends (fillBuf bytes e)))) ∧
    (∀ (w : Who) (a : Addr), 0x3000000000 ≤ a.toNat → a.toNat < 0x3010000000 → cmpOf d w = 0 →
      exec (.flashTimeout (some (w, a))) s = .next (s.ends (answer w (.data [] true) (flag0 T.XSP 0 0 0 d)))) ∧
    (∀ (op : FlashOp) (o t : Nat), d.xsp.op = some (op, o, t) → t + 10000 ≤ tick d →
      exec (.flashTimeout none) s = .next (s.ends
        (flag0 T.XSP 0 0 0 (wrB (kX 0x04C) 31 false { d with xsp := { d.xsp with op := none } }))))

/-! ### Steps -/

/-- A step runs the command at the front of the queue, on the state with the rest of the queue (the form of a block's step);
with none waiting the module idles (the model's choice, log entry 1). -/
def Obligations.StepRunsTheFrontCommand : Prop :=
  ∀ s : State, (∀ (c : Instr) (rest : List Instr), s.pending = c :: rest → step s = exec c { s with pending := rest }) ∧
    (s.pending = [] → step s = .next s)

/-- Every command answers a next state and leaves the waiting commands alone, so that `n` steps run the first `n` of them. -/
def Obligations.CommandsRunInOrder : Prop :=
  (∀ (c : Instr) (s : State), ∃ d : Dev, exec c s = .next { s with dev := d }) ∧
    ∀ (n : Nat) (s : State), ∃ d : Dev, Host.Core.run Sys2Proof.core n s = .next { dev := d, pending := s.pending.drop n }

/-- Every step leaves a module at rest: no action is left over, an alert-driven request of the management target stands only
while an alert is pending (R546, R548), and no control core waits in `wfi` with a pending enabled source (R254). -/
def Obligations.StepKeepsSettled : Prop :=
  ∀ s t : State, Settled s.dev → step s = .next t → Settled t.dev

/-- The module is at rest after reset, its sparse contents are in canonical form, and nothing waits; and what a command has set
going ends with it: a module in which nothing waits for the end of the command changes no further, so that the next state that
a row names is the state after the step. -/
def Obligations.ResetIsSettled : Prop :=
  Settled State.reset.dev ∧ canonical State.reset.dev = true ∧ State.reset.pending = [] ∧
    ∀ d : Dev, atRest d = true → settle d = { d with firsts := [], todo := [] }

/-- Every step keeps the sparse contents in their canonical form: register words, the ledger RAM, yard cells and tallies, stack
lines, local RAM, the flash and the fuses. No step changes the part or takes back a blown fuse bit, in either stored copy (R594,
R595), and the flash keeps its contents in every step but one that runs XSP_CMD_DONE (R598). -/
def Obligations.StepKeepsMemoriesCanonical : Prop :=
  ∀ s t : State, step s = .next t →
    (canonical s.dev = true → canonical t.dev = true) ∧ t.dev.part = s.dev.part ∧
    (∀ row : Nat, let x := fuseCopies s.dev row
      let y := fuseCopies t.dev row
      x.1 &&& y.1 = x.1 ∧ x.2 &&& y.2 = x.2) ∧
    ((∀ (c : Instr) (rest : List Instr) (status : Byte) (bs : List Byte), s.pending = c :: rest → c ≠ .xspCmdDone status bs) →
      t.dev.xsp.flash = s.dev.xsp.flash)

/-- Stack memory, local RAM, the flash and the ledger RAM hold what is written and keep all else (R134, R199, R201, R252, R598):
a freshly encoded line decodes as its data and its poison; a stack write that succeeds leaves each line it touches freshly
encoded, its written bytes new and the others as the line decoded, and one that is dropped changes no line's data; a write of
local RAM leaves each word it touches freshly encoded, poisoned where it was poisoned and written in part; programming takes
bits of one flash page to 0 and erasing makes bytes 0xFF (the model's choice, log entry 64); words of the ledger read as they
were written. Every other line, word and byte reads as before. -/
def Obligations.MemoriesHoldWhatIsWritten : Prop :=
  (∀ (w : BitVec 512) (p : Bool), (encodeLine w p).decode = if p then .poisoned w else .good w) ∧
  ∀ d : Dev,
    (∀ (a : Nat) (bs : List Byte), let o := a - stackBase
      let n := o / 64
      let m := if bs.isEmpty then 0 else (o + bs.length - 1) / 64 - n + 1
      let r := landStack a bs d
      stackBase ≤ a →
      (∀ j, (j < n ∨ n + m ≤ j) → getLine r.2 j = getLine d j) ∧
      (r.1 ≠ none → ∀ j, (getLine r.2 j).data = (getLine d j).data) ∧
      (r.1 = none → ∀ i < m, ∃ w : BitVec 512, getLine r.2 (n + i) = encodeLine w false ∧
        ∀ b < 64, let x := 64 * (n + i) + b
          (lineBytes w).getD b 0 = if o ≤ x ∧ x < o + bs.length then bs.getD (x - o) 0
            else (lineBytes (getLine d (n + i)).decode.data).getD b 0)) ∧
    (∀ (o : Nat) (bs : List Byte), let n := o / 4
      let m := cellsTouched o bs.length
      (∀ j, (j < n ∨ n + m ≤ j) → lramCell (writeLram o bs d) j = lramCell d j) ∧
      ∀ i < m, let c := (lramCell d (n + i)).decode
        let part := cellPart o bs (n + i)
        ∃ w : W32, lramCell (writeLram o bs d) (n + i) =
            (if c.poison && !part.all Option.isSome then poisonCell w else goodCell w) ∧
          ∀ j < 4, wordByte w j = (part.getD j none).getD (wordByte c.data j)) ∧
    (∀ o a : Nat, flashByte (programPage o d) a =
      if a / 256 = o / 256 then flashByte d a &&& bufByte d ((a + 256 - o % 256) % 256) else flashByte d a) ∧
    (∀ first count a : Nat, flashByte (eraseFlash first count d) a =
      if first ≤ a ∧ a < first + count then 0xFF else flashByte d a) ∧
    ∀ (o : Nat) (bs : List Byte), o % 4 = 0 → bs.length % 4 = 0 → ∀ k : Nat, ledRd (ledBytes o bs d) k =
      if o / 4 ≤ k / 4 ∧ k / 4 < o / 4 + bs.length / 4 then leNat ((bs.drop (4 * (k / 4 - o / 4))).take 4) else ledRd d k

/-! ### Flags and rights -/

/-- STICKY_FIRST (R52): captured by a flag that sets while VALID is 0; the lowest-numbered flag of one step; VALID clears with
the last flag; a write of the register itself does nothing. -/
def Obligations.StickyFirstCaptures : Prop :=
  ∀ (d : Dev) (ty inst page : Nat),
    let k := kFIRST ty inst page
    (∀ n x : Nat, n < 32 →
      rdB (flag ty inst page n x d) (kSTICKY ty inst page) n = true ∧
      (rdB d k 31 = false → rd (flag ty inst page n x d) k = 0x80000000 + n * 65536 + x % 65536 ∧
        ∀ m y : Nat, m < 32 → rd (flag ty inst page m y (flag ty inst page n x d)) k =
          if m < n then 0x80000000 + m * 65536 + y % 65536 else 0x80000000 + n * 65536 + x % 65536) ∧
      (rdB d k 31 = true → d.firsts.contains k = false → rd (flag ty inst page n x d) k = rd d k)) ∧
    (∀ v : Nat, v < 2 ^ 32 →
      let rest := rd d (kSTICKY ty inst page) &&& (0xFFFFFFFF ^^^ v)
      rd (clearSticky ty inst page v d) (kSTICKY ty inst page) = rest ∧
      (rest = 0 → rdB (clearSticky ty inst page v d) k 31 = false) ∧
      (rest ≠ 0 → rd (clearSticky ty inst page v d) k = rd d k)) ∧
    (∀ (w : Who) (m v : Nat), storeWord w m k v d = d)

/-- Writes under rights (R646): a write of a word in which the requester may write no field is refused and changes no register;
otherwise the fields it may write take the written values and the others keep theirs, without an error. A requester of a
compartment other than 0 may write no field that is marked supervisor-RW or WO, compartment 0. -/
def Obligations.WritesObeyRights : Prop :=
  ∀ (d : Dev) (w : Who) (k v : Nat), k % 4 = 0 → populated d.part k = true →
    (writeMask d w k = none →
      (writePage (pageAcc w true d) k (leBytes 4 v) d).1 = .fail .refusedRights ∧ regWrite w k v d = (false, dropLatch w d) ∧
        ∀ j, rd (dropLatch w d) j = rd d j) ∧
    (∀ m : Nat, writeMask d w k = some m → m ≠ 0 → 0x040 ≤ keyOff k →
      ¬ (keyTy k = T.YRD ∧ keyPage k = 1 ∧ keyOff k = 0x050) → (∀ e, blockWrite w m k (v % 2 ^ 32) e = none) →
      blockRefuses d w k v = false → (accOf k).w1c = 0 → (accOf k).w1s = 0 → rangesOf k = [] →
      (regWrite w k v d).1 = true ∧
      (∀ i < 32, (rd (regWrite w k v d).2 k).testBit i =
        if ((accOf k).rw ||| (accOf k).sup).testBit i && m.testBit i then v.testBit i else (rd d k).testBit i) ∧
      ∀ j, j ≠ k → rd (regWrite w k v d).2 j = rd d j) ∧
    (cmpOf d w ≠ 0 → ownFunction (cmpOf d w) k = false → closedBus d w = false →
      (keyOff k = 0x024 → writeMask d w k = none) ∧
      (0x040 ≤ keyOff k → openMask k = 0 → writeMask d w k = none) ∧
      ∀ m, writeMask d w k = some m → m = openMask k ∨ m = 0)

/-! ### Cells of the yard -/

/-- The SECDED code of a cell (R132): the columns of data bits and check bits, and the syndrome of good and of poisoned cells.
So one flipped bit of a good cell is corrected and any two are detected, whichever they are. -/
def Obligations.SecdedCode : Prop :=
  (∀ i < 32, dataColumn i = ((List.range 128).filter (fun v => (List.range 7).countP (fun b => v.testBit b) = 3)).getD i 0) ∧
  (∀ (c : Cell39), (∀ b < 7, (c ^^^ BitVec.ofNat 39 (1 <<< (32 + b))).syndrome = c.syndrome ^^^ (1 <<< b)) ∧
    ∀ i < 32, (c ^^^ BitVec.ofNat 39 (1 <<< i)).syndrome = c.syndrome ^^^ dataColumn i) ∧
  (∀ w : W32, (goodCell w).data = w ∧ (goodCell w).syndrome = 0 ∧ (poisonCell w).data = w ∧ (poisonCell w).syndrome = 0x7F) ∧
  ∀ w : W32, (goodCell w).decode = .good w ∧ (poisonCell w).decode = .poisoned w ∧
    (∀ i < 39, (goodCell w ^^^ BitVec.ofNat 39 (1 <<< i)).decode = .corrected w) ∧
    ∀ i < 39, ∀ j < i, ∃ x, (goodCell w ^^^ BitVec.ofNat 39 (1 <<< i) ^^^ BitVec.ofNat 39 (1 <<< j)).decode = .uncorrectable x

/-- What a read of a cell does (R133), with no error armed in its cluster: the data, the poison marker, the counter that rises
and the cell that is rewritten, by the syndrome. -/
def Obligations.CellReadActs : Prop :=
  ∀ (d : Dev) (n : Nat), let s := stationAt (4 * n)
    let b := bankOf d (4 * n)
    let c := getCell d n
    armed d T.YRD s 0 0 = none → armed d T.YRD s 0 1 = none →
    (c.syndrome = 0 → readCell n d = ((c.data, false), d)) ∧
    (∀ i < 7, c.syndrome = 1 <<< i → readCell n d = ((c.data, false),
      cper { cls := 0x01, block := T.YRD, inst := s, addr := 4 * n, detail := b } (flag0 T.YRD s 0 b (countY s 0x040 1 d)))) ∧
    (∀ i < 32, c.syndrome = dataColumn i → readCell n d = ((c.data ^^^ BitVec.ofNat 32 (1 <<< i), false),
      cper { cls := 0x01, block := T.YRD, inst := s, addr := 4 * n, detail := b } (flag0 T.YRD s 0 b (countY s 0x040 1 d)))) ∧
    (c.syndrome = 0x7F → readCell n d = ((c.data, true), flag0 T.YRD s 2 b (countY s 0x048 1 d))) ∧
    (c.syndrome ≠ 0 → (∀ i < 7, c.syndrome ≠ 1 <<< i) → (∀ i < 32, c.syndrome ≠ dataColumn i) → c.syndrome ≠ 0x7F →
      readCell n d = ((c.data, true), score (0x1000 + s) 1
        (cper { cls := 0x02, block := T.YRD, inst := s, addr := 4 * n, detail := b }
          (flag0 T.YRD s 1 b (countY s 0x044 1 (putCell n (poisonCell c.data) d))))) ∧
      (getCell (readCell n d).2 n).syndrome = 0x7F) ∧
    (c.syndrome = 0 ∨ c.syndrome = 0x7F ∨ (∃ i < 7, c.syndrome = 1 <<< i) ∨ (∃ i < 32, c.syndrome = dataColumn i) →
      getCell (readCell n d).2 n = c) ∧
    (∀ off ∈ [0x040, 0x044, 0x048], rd (countY s off 1 d) (kY s 3 off) = min 0xFFFFFFFF (rd d (kY s 3 off) + 1))

/-- Writes of cells (R134): a whole cell is stored whatever it held, with fresh check bits and so without poison; a part of a
cell is merged with what a read corrects; poison or an uncorrectable error in a cell that is written in part drops the write,
which fails PARTIAL_UE, leaves that cell poisoned, and every cell reads as before. Cells outside the written bytes keep what
they held. -/
def Obligations.CellWritesMerge : Prop :=
  (∀ (a : Nat) (bs : List Byte) (d : Dev), (writeCells a bs d).1 = true →
    (∀ n, (n < a / 4 ∨ a / 4 + cellsTouched a bs.length ≤ n) → getCell (writeCells a bs d).2 n = getCell d n) ∧
    ∀ i < cellsTouched a bs.length, ∃ w : W32, getCell (writeCells a bs d).2 (a / 4 + i) = goodCell w ∧
      ∀ j < 4, wordByte w j = ((cellPart a bs (a / 4 + i)).getD j none).getD
        (wordByte (getCell d (a / 4 + i)).decode.data j)) ∧
  (∀ (n : Nat) (bs : List (Option Byte)) (d : Dev),
    (bs.all Option.isSome = true → (mergeCell n bs d).1.isSome = true ∧ (mergeCell n bs d).2 = d) ∧
    (bs.all Option.isSome = false → armed d T.YRD (stationAt (4 * n)) 0 0 = none → armed d T.YRD (stationAt (4 * n)) 0 1 = none →
      armed d T.YRD (stationAt (4 * n)) 0 3 = none →
      (mergeCell n bs d).1.isSome = !(getCell d n).decode.poison ∧
      ((getCell d n).decode.poison = true → (getCell (mergeCell n bs d).2 n).decode.poison = true))) ∧
  (∀ (acc : Access) (a : Nat) (bs : List Byte) (d : Dev), yardCheck d acc a bs.length = .ok →
    (landYard acc a bs d).1 = false → (yardWrite acc a bs d).1 = .fail .partialUe) ∧
  (∀ (a : Nat) (bs : List Byte) (d : Dev),
    ((∃ i < cellsTouched a bs.length, (cellPart a bs (a / 4 + i)).all Option.isSome = false ∧
      (getCell d (a / 4 + i)).decode.poison = true) → (writeCells a bs d).1 = false) ∧
    ((writeCells a bs d).1 = false → ∀ n : Nat, (getCell (writeCells a bs d).2 n).data = (getCell d n).data ∧
      (armed d T.YRD (stationAt (4 * n)) 0 0 = none → armed d T.YRD (stationAt (4 * n)) 0 1 = none →
        (getCell (writeCells a bs d).2 n).decode.data = (getCell d n).decode.data ∧
        (getCell (writeCells a bs d).2 n).decode.poison = (getCell d n).decode.poison))) ∧
  ∀ w : W32, (goodCell w).decode = .good w

/-! ### Tallies and semaphores -/

/-- Landed cells advance a tally by whole granules, as the loop of R154 does, and leave every other tally alone. -/
def Obligations.TallyCountsWholeGranules : Prop :=
  ∀ (d : Dev) (t cells granule : Nat), 0 < granule → (getTally d t).value < 2 ^ 32 →
    (let x := getTally d t
     let y := getTally (tallyAdd t cells granule d) t
     (y.value, y.accum) = wholeGranules granule (x.accum + cells) x.value (x.accum + cells)) ∧
    ∀ u, u ≠ t → getTally (tallyAdd t cells granule d) u = getTally d u

/-- Semaphore operations and their results (R158, R159, R160) at a cluster that the caller reaches. Codes: 0 OK, 1 BROKEN, 2
TIMEOUT, 3 BUSY, 4 NOT_OWNER, 5 SELF_HELD, 6 OVERFLOW, 7 WRONG_KIND, 8 REFUSED. -/
def Obligations.SemaphoreOperations : Prop :=
  ∀ (d : Dev) (k cmp h n timeout : Nat), let x := getSem d k
    clusterOut d (k / 256) = false →
    cutOff d (if h < 64 then some h else if h < 68 then homeStation (.ctl (Fin.ofNat 4 (h - 64))) else none) (k / 256) = false →
    (cmp ≠ x.owner → cmp ≠ 0 → ∀ op, semDo op k cmp h n timeout d = (some 8, d)) ∧
    ((cmp = x.owner ∨ cmp = 0) →
    let queued := fun (acquire : Bool) (amount : Nat) => { d with yard := { d.yard with
      waiters := d.yard.waiters ++ [⟨k, h, cmp, epochOf d h, acquire, amount,
        if timeout = 0xFFFFFFFF then none else some (tick d + timeout)⟩] } }
    (x.kind = .counting →
      (x.value + n ≤ 0xFFFFFF → semDo .signal k cmp h n timeout d =
        (some 0, grantCounting 128 k (updSem k (fun s => { s with value := s.value + n }) d))) ∧
      (0xFFFFFF < x.value + n → semDo .signal k cmp h n timeout d = (some 6, flag0 T.YRD (k / 256) 6 (k % 256) d)) ∧
      (n ≤ x.value → waitersOf d k = [] → semDo .wait k cmp h n timeout d =
        (some 0, updSem k (fun s => { s with value := s.value - n }) d)) ∧
      ((x.value < n ∨ waitersOf d k ≠ []) →
        (timeout = 0 → semDo .wait k cmp h n timeout d = (some 2, d)) ∧
        (timeout ≠ 0 → waitersUsed d (k / 256) < 128 → semDo .wait k cmp h n timeout d = (none, queued false n)) ∧
        (timeout ≠ 0 → 128 ≤ waitersUsed d (k / 256) → semDo .wait k cmp h n timeout d =
          (some 3, flag0 T.YRD (k / 256) 5 (k % 256) d)))) ∧
    (x.kind = .lock →
      (x.state = .free → semDo .acquire k cmp h n timeout d = (some 0, updSem k (lockTaken d cmp h) d)) ∧
      (x.state = .broken → semDo .acquire k cmp h n timeout d = (some 1, updSem k (lockTaken d cmp h) d)) ∧
      (x.state = .held →
        (heldBy d x h = true → semDo .acquire k cmp h n timeout d = (some 5, d)) ∧
        (heldBy d x h = false → timeout = 0 → semDo .acquire k cmp h n timeout d = (some 2, d)) ∧
        (heldBy d x h = false → timeout ≠ 0 → waitersUsed d (k / 256) < 128 →
          semDo .acquire k cmp h n timeout d = (none, queued true 0)) ∧
        (heldBy d x h = false → timeout ≠ 0 → 128 ≤ waitersUsed d (k / 256) →
          semDo .acquire k cmp h n timeout d = (some 3, flag0 T.YRD (k / 256) 5 (k % 256) d))) ∧
      (heldBy d x h = true →
        (waitersOf d k = [] → semDo .release k cmp h n timeout d = (some 0, updSem k lockFree d)) ∧
        (∀ (w : Waiter) (rest : List Waiter), waitersOf d k = w :: rest → semDo .release k cmp h n timeout d =
          (some 0, answerSem w.holder 0 (dropWaiter k w.holder (updSem k (lockTaken d w.cmp w.holder) d))))) ∧
      (heldBy d x h = false → semDo .release k cmp h n timeout d = (some 4, d))) ∧
    (x.kind ≠ .counting → semDo .signal k cmp h n timeout d = (some 7, d) ∧ semDo .wait k cmp h n timeout d = (some 7, d)) ∧
    (x.kind ≠ .lock → semDo .acquire k cmp h n timeout d = (some 7, d) ∧ semDo .release k cmp h n timeout d = (some 7, d)))

/-- A counting semaphore grants its waiters in strict arrival order, and a waiter at the head that needs more than VALUE blocks
those behind it (R160): those granted are the first ones, VALUE falls by what they asked, and what remains cannot be granted.
Each holder waits once. -/
def Obligations.CountingGrantsInOrder : Prop :=
  ∀ (d : Dev) (k : Nat), ((waitersOf d k).map (·.holder)).Nodup → (waitersOf d k).length ≤ 128 →
    ∃ j ≤ (waitersOf d k).length, waitersOf (grantCounting 128 k d) k = (waitersOf d k).drop j ∧
      (getSem (grantCounting 128 k d) k).value + (((waitersOf d k).take j).map (·.amount)).sum = (getSem d k).value ∧
      ∀ (w : Waiter) (rest : List Waiter), (waitersOf d k).drop j = w :: rest →
        (getSem (grantCounting 128 k d) k).value < w.amount

/-! ### Cores -/

/-- s0 reads zero and ignores writes, p0 reads all ones and ignores writes, and every other register reads as it was written,
poison bit included, while the rest keep theirs (R212, R213). -/
def Obligations.ZeroRegisterStaysZero : Prop :=
  ∀ (c : Core) (r q v : Nat) (poison : Bool), r < 32 → q < 32 →
    (c.setS r v poison).sReg q = (if q = 0 then (0, false) else if q = r then (v % 2 ^ 64, poison) else c.sReg q) ∧
    (c.setS 0 v poison = c) ∧ (c.setPred 0 v = c) ∧ c.pred 0 = 2 ^ 256 - 1 ∧
    (∀ p < 8, ∀ p' < 8, (c.setPred p v).pred p' =
      if p' = 0 then 2 ^ 256 - 1 else if p' = p then v % 2 ^ 256 else c.pred p')

/-- The exception frame (R243): eight words, their fields, and the check over bytes 0x00–0x37 and 0x3C–0x3F. -/
def Obligations.ExceptionFrameLayout : Prop :=
  ∀ (d : Dev) (h cause addr instr sp pushFail : Nat) (boxed : Bool), h < 128 → cause < 256 → pushFail < 5 →
    let c := getCore d h
    ∃ status check : Nat,
      frameWords d h cause addr instr sp pushFail boxed = [c.pc, status, addr % 2 ^ 64, instr % 2 ^ 64, sp,
        (if cause = 0x07 ∨ cause = 0x08 then c.pc + 4 else c.pc), tagOf d h, check] ∧
      fld status 41 40 = moduleNo d % 4 ∧ fld status 38 32 = h ∧ fld status 27 20 = epochOf d h % 256 ∧
      fld status 19 16 = cmpOf d (coreWho h) % 16 ∧ fld status 14 12 = pushFail ∧ bit status 11 = boxed ∧
      bit status 10 = decide (c.depth ≠ 0) ∧ bit status 9 = decide (cause = 0x05) ∧ bit status 8 = c.super ∧
      fld status 7 0 = cause ∧
      fld check 63 56 = 0x01 ∧ fld check 55 32 = tick d % 2 ^ 24 ∧
      fld check 31 0 = crc32c ([c.pc, status, addr % 2 ^ 64, instr % 2 ^ 64, sp,
        (if cause = 0x07 ∨ cause = 0x08 then c.pc + 4 else c.pc), tagOf d h].flatMap (leBytes 8) ++
          leBytes 4 (check / 2 ^ 32))

/-- Taking an exception whose push succeeds (R241, R244, R245): the frame goes below the stack pointer of the level at which
the exception is taken, which falls by 64; a coach or a dispatched waybill goes to its handler at its own level, or ends
ABORT_FAULT when it has none; a resident program enters S level at XVEC, or at IVEC for an interrupt. -/
def Obligations.ExceptionEntry : Prop :=
  ∀ (d : Dev) (h cause addr instr : Nat) (e : Dev), let c := getCore d h
    let s := c.resident || c.super
    let sp := if s then c.ssp else c.csp
    let d0 := if h < 64 then bump (rk T.CCH h 1 0x0A0) d else d
    pushCheck d h sp s = some 0 → armed d (coreTy h) (coreInst h) 0 0 = none → spParity d h s = false →
    pushFrame h sp (frameWords d0 h cause addr instr sp 0 false) d0 = (true, e) →
    let x := getCore e h
    let t := getCore (takeException h cause addr instr d) h
    (x.resident = true → t.super = true ∧ t.sstatus = b2n x.super ∧ t.depth = x.depth + 1 ∧
      t.pc = (if cause = 0x0B then x.ivec else x.xvec) % 2 ^ 48 ∧ (s = true → t.ssp = sp - 64 ∧ t.csp = x.csp)) ∧
    (x.resident = false → x.handler ≠ 0 → t.super = x.super ∧ t.pc = x.handler % 2 ^ 48 ∧ t.depth = x.depth + 1 ∧
      (s = true → t.ssp = sp - 64 ∧ t.csp = x.csp) ∧ (s = false → t.csp = sp - 64 ∧ t.ssp = x.ssp)) ∧
    (x.resident = false → x.handler = 0 → takeException h cause addr instr d = endProgram h 0x23 0 (updCore h (fun y => { y with
      ssp := if s then sp - 64 else y.ssp, csp := if s then y.csp else sp - 64, depth := y.depth + 1, loop := none
      queue := [], pending := if cause = 0x05 then none else y.pending }) e))
end

