-- ==== Sys2Proof/Laws/Map.lean ====
section
/-! SUPPORT. The laws of sparse data: a read after a write, and that every operation keeps the canonical form. -/

namespace Sys2Proof.Machine

variable {α : Type}

/-- An entered value is read back. -/
@[simp] theorem Map.get_ins_same (d : Nat → α) (m : Map α) (k : Nat) (v : α) : Map.get d (Map.ins m k v) k = v := by
  induction m with
  | nil => simp [Map.ins, Map.get]
  | cons e m ih =>
    obtain ⟨j, w⟩ := e
    unfold Map.ins
    split
    · simp [Map.get]
    · split
      · simp [Map.get]
      · simp only [Map.get]; rw [if_neg (by assumption)]; exact ih

/-- Entering a value leaves every other key alone. -/
theorem Map.get_ins_other (d : Nat → α) (m : Map α) {k j : Nat} (v : α) (h : j ≠ k) :
    Map.get d (Map.ins m k v) j = Map.get d m j := by
  induction m with
  | nil => simp [Map.ins, Map.get, h]
  | cons e m ih =>
    obtain ⟨i, w⟩ := e
    unfold Map.ins
    split
    · next e => subst e; simp [Map.get, h]
    · split
      · simp [Map.get, h]
      · simp only [Map.get, ih]

/-- A key taken out reads as an unlisted one. -/
@[simp] theorem Map.get_del_same (d : Nat → α) (m : Map α) (k : Nat) : Map.get d (Map.del m k) k = d k := by
  induction m with
  | nil => rfl
  | cons e m ih =>
    obtain ⟨i, w⟩ := e
    unfold Map.del
    split
    · exact ih
    · simp only [Map.get]; rw [if_neg (by assumption)]; exact ih

/-- Taking a key out leaves every other key alone. -/
theorem Map.get_del_other (d : Nat → α) (m : Map α) {k j : Nat} (h : j ≠ k) :
    Map.get d (Map.del m k) j = Map.get d m j := by
  induction m with
  | nil => rfl
  | cons e m ih =>
    obtain ⟨i, w⟩ := e
    unfold Map.del
    split
    · next e => subst e; simp [Map.get, h, ih]
    · simp only [Map.get, ih]

/-- A written value is read back. -/
@[simp] theorem Map.get_set_same [DecidableEq α] (d : Nat → α) (m : Map α) (k : Nat) (v : α) :
    Map.get d (Map.set d m k v) k = v := by
  unfold Map.set
  split
  · next e => simp [e]
  · simp

/-- A write leaves every other key alone. -/
theorem Map.get_set_other [DecidableEq α] (d : Nat → α) (m : Map α) {k j : Nat} (v : α) (h : j ≠ k) :
    Map.get d (Map.set d m k v) j = Map.get d m j := by
  unfold Map.set
  split
  · exact Map.get_del_other d m h
  · exact Map.get_ins_other d m v h

/-- What a write does to every key. -/
theorem Map.get_set [DecidableEq α] (d : Nat → α) (m : Map α) (k j : Nat) (v : α) :
    Map.get d (Map.set d m k v) j = if j = k then v else Map.get d m j := by
  split
  · next e => subst e; simp
  · next e => exact Map.get_set_other d m v e

/-- What applying a function at a key does to every key. -/
theorem Map.get_upd [DecidableEq α] (d : Nat → α) (m : Map α) (k j : Nat) (f : α → α) :
    Map.get d (Map.upd d m k f) j = if j = k then f (Map.get d m k) else Map.get d m j := Map.get_set d m k j _

theorem Map.above_ins {m : Map α} {i k : Nat} (v : α) (h : Map.above i m = true) (hk : i < k) :
    Map.above i (Map.ins m k v) = true := by
  cases m with
  | nil => simp [Map.ins, Map.above, hk]
  | cons e m =>
    obtain ⟨j, w⟩ := e
    unfold Map.ins
    split
    · simp [Map.above, hk]
    · split
      · simp [Map.above, hk]
      · simpa [Map.above] using h

theorem Map.above_trans {m : Map α} {i j : Nat} (h : Map.above j m = true) (hi : i < j) :
    Map.above i m = true := by
  cases m with
  | nil => rfl
  | cons e m => obtain ⟨k, w⟩ := e; simp [Map.above] at *; omega

theorem Map.above_del [DecidableEq α] {d : Nat → α} {m : Map α} {i k : Nat} (h : Map.above i m = true)
    (hw : Map.wf d m = true) : Map.above i (Map.del m k) = true := by
  induction m with
  | nil => rfl
  | cons e m ih =>
    obtain ⟨j, w⟩ := e
    simp only [Map.wf, Bool.and_eq_true] at hw
    unfold Map.del
    split
    · exact ih (Map.above_trans hw.1.2 (by simpa [Map.above] using h)) hw.2
    · simpa [Map.above] using h

/-- Entering a value that is not the unlisted one keeps the canonical form. -/
theorem Map.wf_ins [DecidableEq α] {d : Nat → α} {m : Map α} {k : Nat} {v : α} (hv : v ≠ d k) (hw : Map.wf d m = true) :
    Map.wf d (Map.ins m k v) = true := by
  induction m with
  | nil => simp [Map.ins, Map.wf, Map.above, hv]
  | cons e m ih =>
    obtain ⟨j, w⟩ := e
    simp only [Map.wf, Bool.and_eq_true, decide_eq_true_eq] at hw
    unfold Map.ins
    split
    · next e => subst e; simp [Map.wf, hv, hw]
    · split
      · next e =>
        simp [Map.wf, hv, hw]
        simp [Map.above, e]
      · have hj : j < k := by omega
        simp [Map.wf, hw.1.1, ih hw.2, Map.above_ins v hw.1.2 hj]

/-- Taking a key out keeps the canonical form. -/
theorem Map.wf_del [DecidableEq α] {d : Nat → α} {m : Map α} (k : Nat) (hw : Map.wf d m = true) :
    Map.wf d (Map.del m k) = true := by
  induction m with
  | nil => rfl
  | cons e m ih =>
    obtain ⟨j, w⟩ := e
    simp only [Map.wf, Bool.and_eq_true, decide_eq_true_eq] at hw
    unfold Map.del
    split
    · exact ih hw.2
    · simp [Map.wf, hw.1.1, ih hw.2, Map.above_del hw.1.2 hw.2]

/-- A write keeps the canonical form. -/
theorem Map.wf_set [DecidableEq α] {d : Nat → α} {m : Map α} (k : Nat) (v : α) (hw : Map.wf d m = true) :
    Map.wf d (Map.set d m k v) = true := by
  unfold Map.set
  split
  · exact Map.wf_del k hw
  · next e => exact Map.wf_ins e hw

/-- Applying a function at a key keeps the canonical form. -/
theorem Map.wf_upd [DecidableEq α] {d : Nat → α} {m : Map α} (k : Nat) (f : α → α) (hw : Map.wf d m = true) :
    Map.wf d (Map.upd d m k f) = true := Map.wf_set k _ hw

theorem Map.above_filter [DecidableEq α] {d : Nat → α} {m : Map α} {i : Nat} (p : Nat × α → Bool)
    (h : Map.above i m = true) (hw : Map.wf d m = true) : Map.above i (m.filter p) = true := by
  induction m with
  | nil => rfl
  | cons e m ih =>
    obtain ⟨j, w⟩ := e
    simp only [Map.wf, Bool.and_eq_true] at hw
    rw [List.filter_cons]
    split
    · simpa [Map.above] using h
    · exact ih (Map.above_trans hw.1.2 (by simpa [Map.above] using h)) hw.2

/-- Taking entries out keeps the canonical form. -/
theorem Map.wf_filter [DecidableEq α] {d : Nat → α} {m : Map α} (p : Nat × α → Bool) (hw : Map.wf d m = true) :
    Map.wf d (m.filter p) = true := by
  induction m with
  | nil => rfl
  | cons e m ih =>
    obtain ⟨j, w⟩ := e
    simp only [Map.wf, Bool.and_eq_true] at hw
    rw [List.filter_cons]
    split
    · simp [Map.wf, hw.1.1, ih hw.2, Map.above_filter p hw.1.2 hw.2]
    · exact ih hw.2

/-- Canonical lists with equal contents are equal data. -/
theorem Map.ext_of_get [DecidableEq α] {d : Nat → α} {m n : Map α} (hm : Map.wf d m = true) (hn : Map.wf d n = true)
    (h : ∀ k, Map.get d m k = Map.get d n k) : m = n := by
  have low : ∀ {m : Map α} {i k : Nat}, Map.wf d m = true → Map.above i m = true → k ≤ i → Map.get d m k = d k := by
    intro m
    induction m with
    | nil => intros; rfl
    | cons e m ih =>
      intro i k hw ha hk
      obtain ⟨j, w⟩ := e
      simp only [Map.wf, Bool.and_eq_true] at hw
      simp only [Map.above, decide_eq_true_eq] at ha
      simp only [Map.get]
      rw [if_neg (by omega)]
      exact ih hw.2 hw.1.2 (by omega)
  induction m generalizing n with
  | nil =>
    cases n with
    | nil => rfl
    | cons e n =>
      obtain ⟨j, w⟩ := e
      have := h j
      simp only [Map.wf, Bool.and_eq_true, decide_eq_true_eq] at hn
      simp [Map.get] at this
      exact absurd this.symm hn.1.1
  | cons e m ih =>
    obtain ⟨j, w⟩ := e
    simp only [Map.wf, Bool.and_eq_true, decide_eq_true_eq] at hm
    cases n with
    | nil =>
      have := h j
      simp [Map.get] at this
      exact absurd this hm.1.1
    | cons e' n =>
      obtain ⟨i, x⟩ := e'
      simp only [Map.wf, Bool.and_eq_true, decide_eq_true_eq] at hn
      have hij : i = j := by
        rcases Nat.lt_trichotomy i j with hlt | heq | hgt
        · have := h i
          simp only [Map.get] at this
          rw [if_neg (by omega), low hm.2 hm.1.2 (by omega)] at this
          simp at this
          exact absurd this.symm hn.1.1
        · exact heq
        · have := h j
          simp only [Map.get] at this
          rw [if_neg (show ¬ j = i by omega), low hn.2 hn.1.2 (by omega)] at this
          simp at this
          exact absurd this hm.1.1
      subst hij
      have hx : w = x := by have := h i; simpa [Map.get] using this
      subst hx
      have : m = n := by
        refine ih hm.2 hn.2 fun k => ?_
        by_cases hk : k = i
        · subst hk
          rw [low hm.2 hm.1.2 (Nat.le_refl _), low hn.2 hn.1.2 (Nat.le_refl _)]
        · have := h k
          simpa [Map.get, hk] using this
      rw [this]

end Sys2Proof.Machine
end

