-- ==== Sys2Proof/Laws/State.lean ====
section
/-! SUPPORT. The fields of the state after each named update: one lemma for each field and update, so that no proof
unfolds a record update. -/

namespace Sys2Proof.Machine

variable (d : Dev)

@[simp] theorem wr_part (k v : Nat) : (wr k v d).part = d.part := rfl
@[simp] theorem wr_latches (k v : Nat) : (wr k v d).latches = d.latches := rfl
@[simp] theorem wr_inj (k v : Nat) : (wr k v d).inj = d.inj := rfl
@[simp] theorem wr_clk (k v : Nat) : (wr k v d).clk = d.clk := rfl
@[simp] theorem wr_gov (k v : Nat) : (wr k v d).gov = d.gov := rfl
@[simp] theorem wr_pwr (k v : Nat) : (wr k v d).pwr = d.pwr := rfl
@[simp] theorem wr_yard (k v : Nat) : (wr k v d).yard = d.yard := rfl
@[simp] theorem wr_net (k v : Nat) : (wr k v d).net = d.net := rfl
@[simp] theorem wr_stk (k v : Nat) : (wr k v d).stk = d.stk := rfl
@[simp] theorem wr_dpt (k v : Nat) : (wr k v d).dpt = d.dpt := rfl
@[simp] theorem wr_integ (k v : Nat) : (wr k v d).integ = d.integ := rfl
@[simp] theorem wr_cmps (k v : Nat) : (wr k v d).cmps = d.cmps := rfl
@[simp] theorem wr_cores (k v : Nat) : (wr k v d).cores = d.cores := rfl
@[simp] theorem wr_fgs (k v : Nat) : (wr k v d).fgs = d.fgs := rfl
@[simp] theorem wr_ink (k v : Nat) : (wr k v d).ink = d.ink := rfl
@[simp] theorem wr_engs (k v : Nat) : (wr k v d).engs = d.engs := rfl
@[simp] theorem wr_fus (k v : Nat) : (wr k v d).fus = d.fus := rfl
@[simp] theorem wr_tap (k v : Nat) : (wr k v d).tap = d.tap := rfl
@[simp] theorem wr_xsp (k v : Nat) : (wr k v d).xsp = d.xsp := rfl
@[simp] theorem wr_hst (k v : Nat) : (wr k v d).hst = d.hst := rfl
@[simp] theorem wr_dbr (k v : Nat) : (wr k v d).dbr = d.dbr := rfl
@[simp] theorem wr_mgmt (k v : Nat) : (wr k v d).mgmt = d.mgmt := rfl
@[simp] theorem wr_twc (k v : Nat) : (wr k v d).twc = d.twc := rfl
@[simp] theorem wr_hmi (k v : Nat) : (wr k v d).hmi = d.hmi := rfl
@[simp] theorem wr_tlm (k v : Nat) : (wr k v d).tlm = d.tlm := rfl
@[simp] theorem wr_ledger (k v : Nat) : (wr k v d).ledger = d.ledger := rfl
@[simp] theorem wr_rsp (k v : Nat) : (wr k v d).rsp = d.rsp := rfl
@[simp] theorem wr_firsts (k v : Nat) : (wr k v d).firsts = d.firsts := rfl
@[simp] theorem wr_todo (k v : Nat) : (wr k v d).todo = d.todo := rfl
@[simp] theorem wr_fresh (k v : Nat) : (wr k v d).fresh = d.fresh := rfl

@[simp] theorem wr64_part (k v : Nat) : (wr64 k v d).part = d.part := rfl
@[simp] theorem wr64_latches (k v : Nat) : (wr64 k v d).latches = d.latches := rfl
@[simp] theorem wr64_inj (k v : Nat) : (wr64 k v d).inj = d.inj := rfl
@[simp] theorem wr64_clk (k v : Nat) : (wr64 k v d).clk = d.clk := rfl
@[simp] theorem wr64_gov (k v : Nat) : (wr64 k v d).gov = d.gov := rfl
@[simp] theorem wr64_pwr (k v : Nat) : (wr64 k v d).pwr = d.pwr := rfl
@[simp] theorem wr64_yard (k v : Nat) : (wr64 k v d).yard = d.yard := rfl
@[simp] theorem wr64_net (k v : Nat) : (wr64 k v d).net = d.net := rfl
@[simp] theorem wr64_stk (k v : Nat) : (wr64 k v d).stk = d.stk := rfl
@[simp] theorem wr64_dpt (k v : Nat) : (wr64 k v d).dpt = d.dpt := rfl
@[simp] theorem wr64_integ (k v : Nat) : (wr64 k v d).integ = d.integ := rfl
@[simp] theorem wr64_cmps (k v : Nat) : (wr64 k v d).cmps = d.cmps := rfl
@[simp] theorem wr64_cores (k v : Nat) : (wr64 k v d).cores = d.cores := rfl
@[simp] theorem wr64_fgs (k v : Nat) : (wr64 k v d).fgs = d.fgs := rfl
@[simp] theorem wr64_ink (k v : Nat) : (wr64 k v d).ink = d.ink := rfl
@[simp] theorem wr64_engs (k v : Nat) : (wr64 k v d).engs = d.engs := rfl
@[simp] theorem wr64_fus (k v : Nat) : (wr64 k v d).fus = d.fus := rfl
@[simp] theorem wr64_tap (k v : Nat) : (wr64 k v d).tap = d.tap := rfl
@[simp] theorem wr64_xsp (k v : Nat) : (wr64 k v d).xsp = d.xsp := rfl
@[simp] theorem wr64_hst (k v : Nat) : (wr64 k v d).hst = d.hst := rfl
@[simp] theorem wr64_dbr (k v : Nat) : (wr64 k v d).dbr = d.dbr := rfl
@[simp] theorem wr64_mgmt (k v : Nat) : (wr64 k v d).mgmt = d.mgmt := rfl
@[simp] theorem wr64_twc (k v : Nat) : (wr64 k v d).twc = d.twc := rfl
@[simp] theorem wr64_hmi (k v : Nat) : (wr64 k v d).hmi = d.hmi := rfl
@[simp] theorem wr64_tlm (k v : Nat) : (wr64 k v d).tlm = d.tlm := rfl
@[simp] theorem wr64_ledger (k v : Nat) : (wr64 k v d).ledger = d.ledger := rfl
@[simp] theorem wr64_rsp (k v : Nat) : (wr64 k v d).rsp = d.rsp := rfl
@[simp] theorem wr64_firsts (k v : Nat) : (wr64 k v d).firsts = d.firsts := rfl
@[simp] theorem wr64_todo (k v : Nat) : (wr64 k v d).todo = d.todo := rfl
@[simp] theorem wr64_fresh (k v : Nat) : (wr64 k v d).fresh = d.fresh := rfl

@[simp] theorem wrF_part (k hi lo v : Nat) : (wrF k hi lo v d).part = d.part := rfl
@[simp] theorem wrF_latches (k hi lo v : Nat) : (wrF k hi lo v d).latches = d.latches := rfl
@[simp] theorem wrF_inj (k hi lo v : Nat) : (wrF k hi lo v d).inj = d.inj := rfl
@[simp] theorem wrF_clk (k hi lo v : Nat) : (wrF k hi lo v d).clk = d.clk := rfl
@[simp] theorem wrF_gov (k hi lo v : Nat) : (wrF k hi lo v d).gov = d.gov := rfl
@[simp] theorem wrF_pwr (k hi lo v : Nat) : (wrF k hi lo v d).pwr = d.pwr := rfl
@[simp] theorem wrF_yard (k hi lo v : Nat) : (wrF k hi lo v d).yard = d.yard := rfl
@[simp] theorem wrF_net (k hi lo v : Nat) : (wrF k hi lo v d).net = d.net := rfl
@[simp] theorem wrF_stk (k hi lo v : Nat) : (wrF k hi lo v d).stk = d.stk := rfl
@[simp] theorem wrF_dpt (k hi lo v : Nat) : (wrF k hi lo v d).dpt = d.dpt := rfl
@[simp] theorem wrF_integ (k hi lo v : Nat) : (wrF k hi lo v d).integ = d.integ := rfl
@[simp] theorem wrF_cmps (k hi lo v : Nat) : (wrF k hi lo v d).cmps = d.cmps := rfl
@[simp] theorem wrF_cores (k hi lo v : Nat) : (wrF k hi lo v d).cores = d.cores := rfl
@[simp] theorem wrF_fgs (k hi lo v : Nat) : (wrF k hi lo v d).fgs = d.fgs := rfl
@[simp] theorem wrF_ink (k hi lo v : Nat) : (wrF k hi lo v d).ink = d.ink := rfl
@[simp] theorem wrF_engs (k hi lo v : Nat) : (wrF k hi lo v d).engs = d.engs := rfl
@[simp] theorem wrF_fus (k hi lo v : Nat) : (wrF k hi lo v d).fus = d.fus := rfl
@[simp] theorem wrF_tap (k hi lo v : Nat) : (wrF k hi lo v d).tap = d.tap := rfl
@[simp] theorem wrF_xsp (k hi lo v : Nat) : (wrF k hi lo v d).xsp = d.xsp := rfl
@[simp] theorem wrF_hst (k hi lo v : Nat) : (wrF k hi lo v d).hst = d.hst := rfl
@[simp] theorem wrF_dbr (k hi lo v : Nat) : (wrF k hi lo v d).dbr = d.dbr := rfl
@[simp] theorem wrF_mgmt (k hi lo v : Nat) : (wrF k hi lo v d).mgmt = d.mgmt := rfl
@[simp] theorem wrF_twc (k hi lo v : Nat) : (wrF k hi lo v d).twc = d.twc := rfl
@[simp] theorem wrF_hmi (k hi lo v : Nat) : (wrF k hi lo v d).hmi = d.hmi := rfl
@[simp] theorem wrF_tlm (k hi lo v : Nat) : (wrF k hi lo v d).tlm = d.tlm := rfl
@[simp] theorem wrF_ledger (k hi lo v : Nat) : (wrF k hi lo v d).ledger = d.ledger := rfl
@[simp] theorem wrF_rsp (k hi lo v : Nat) : (wrF k hi lo v d).rsp = d.rsp := rfl
@[simp] theorem wrF_firsts (k hi lo v : Nat) : (wrF k hi lo v d).firsts = d.firsts := rfl
@[simp] theorem wrF_todo (k hi lo v : Nat) : (wrF k hi lo v d).todo = d.todo := rfl
@[simp] theorem wrF_fresh (k hi lo v : Nat) : (wrF k hi lo v d).fresh = d.fresh := rfl

@[simp] theorem wrB_part (k i : Nat) (b : Bool) : (wrB k i b d).part = d.part := rfl
@[simp] theorem wrB_latches (k i : Nat) (b : Bool) : (wrB k i b d).latches = d.latches := rfl
@[simp] theorem wrB_inj (k i : Nat) (b : Bool) : (wrB k i b d).inj = d.inj := rfl
@[simp] theorem wrB_clk (k i : Nat) (b : Bool) : (wrB k i b d).clk = d.clk := rfl
@[simp] theorem wrB_gov (k i : Nat) (b : Bool) : (wrB k i b d).gov = d.gov := rfl
@[simp] theorem wrB_pwr (k i : Nat) (b : Bool) : (wrB k i b d).pwr = d.pwr := rfl
@[simp] theorem wrB_yard (k i : Nat) (b : Bool) : (wrB k i b d).yard = d.yard := rfl
@[simp] theorem wrB_net (k i : Nat) (b : Bool) : (wrB k i b d).net = d.net := rfl
@[simp] theorem wrB_stk (k i : Nat) (b : Bool) : (wrB k i b d).stk = d.stk := rfl
@[simp] theorem wrB_dpt (k i : Nat) (b : Bool) : (wrB k i b d).dpt = d.dpt := rfl
@[simp] theorem wrB_integ (k i : Nat) (b : Bool) : (wrB k i b d).integ = d.integ := rfl
@[simp] theorem wrB_cmps (k i : Nat) (b : Bool) : (wrB k i b d).cmps = d.cmps := rfl
@[simp] theorem wrB_cores (k i : Nat) (b : Bool) : (wrB k i b d).cores = d.cores := rfl
@[simp] theorem wrB_fgs (k i : Nat) (b : Bool) : (wrB k i b d).fgs = d.fgs := rfl
@[simp] theorem wrB_ink (k i : Nat) (b : Bool) : (wrB k i b d).ink = d.ink := rfl
@[simp] theorem wrB_engs (k i : Nat) (b : Bool) : (wrB k i b d).engs = d.engs := rfl
@[simp] theorem wrB_fus (k i : Nat) (b : Bool) : (wrB k i b d).fus = d.fus := rfl
@[simp] theorem wrB_tap (k i : Nat) (b : Bool) : (wrB k i b d).tap = d.tap := rfl
@[simp] theorem wrB_xsp (k i : Nat) (b : Bool) : (wrB k i b d).xsp = d.xsp := rfl
@[simp] theorem wrB_hst (k i : Nat) (b : Bool) : (wrB k i b d).hst = d.hst := rfl
@[simp] theorem wrB_dbr (k i : Nat) (b : Bool) : (wrB k i b d).dbr = d.dbr := rfl
@[simp] theorem wrB_mgmt (k i : Nat) (b : Bool) : (wrB k i b d).mgmt = d.mgmt := rfl
@[simp] theorem wrB_twc (k i : Nat) (b : Bool) : (wrB k i b d).twc = d.twc := rfl
@[simp] theorem wrB_hmi (k i : Nat) (b : Bool) : (wrB k i b d).hmi = d.hmi := rfl
@[simp] theorem wrB_tlm (k i : Nat) (b : Bool) : (wrB k i b d).tlm = d.tlm := rfl
@[simp] theorem wrB_ledger (k i : Nat) (b : Bool) : (wrB k i b d).ledger = d.ledger := rfl
@[simp] theorem wrB_rsp (k i : Nat) (b : Bool) : (wrB k i b d).rsp = d.rsp := rfl
@[simp] theorem wrB_firsts (k i : Nat) (b : Bool) : (wrB k i b d).firsts = d.firsts := rfl
@[simp] theorem wrB_todo (k i : Nat) (b : Bool) : (wrB k i b d).todo = d.todo := rfl
@[simp] theorem wrB_fresh (k i : Nat) (b : Bool) : (wrB k i b d).fresh = d.fresh := rfl

@[simp] theorem bump_part (k : Nat) : (bump k d).part = d.part := rfl
@[simp] theorem bump_latches (k : Nat) : (bump k d).latches = d.latches := rfl
@[simp] theorem bump_inj (k : Nat) : (bump k d).inj = d.inj := rfl
@[simp] theorem bump_clk (k : Nat) : (bump k d).clk = d.clk := rfl
@[simp] theorem bump_gov (k : Nat) : (bump k d).gov = d.gov := rfl
@[simp] theorem bump_pwr (k : Nat) : (bump k d).pwr = d.pwr := rfl
@[simp] theorem bump_yard (k : Nat) : (bump k d).yard = d.yard := rfl
@[simp] theorem bump_net (k : Nat) : (bump k d).net = d.net := rfl
@[simp] theorem bump_stk (k : Nat) : (bump k d).stk = d.stk := rfl
@[simp] theorem bump_dpt (k : Nat) : (bump k d).dpt = d.dpt := rfl
@[simp] theorem bump_integ (k : Nat) : (bump k d).integ = d.integ := rfl
@[simp] theorem bump_cmps (k : Nat) : (bump k d).cmps = d.cmps := rfl
@[simp] theorem bump_cores (k : Nat) : (bump k d).cores = d.cores := rfl
@[simp] theorem bump_fgs (k : Nat) : (bump k d).fgs = d.fgs := rfl
@[simp] theorem bump_ink (k : Nat) : (bump k d).ink = d.ink := rfl
@[simp] theorem bump_engs (k : Nat) : (bump k d).engs = d.engs := rfl
@[simp] theorem bump_fus (k : Nat) : (bump k d).fus = d.fus := rfl
@[simp] theorem bump_tap (k : Nat) : (bump k d).tap = d.tap := rfl
@[simp] theorem bump_xsp (k : Nat) : (bump k d).xsp = d.xsp := rfl
@[simp] theorem bump_hst (k : Nat) : (bump k d).hst = d.hst := rfl
@[simp] theorem bump_dbr (k : Nat) : (bump k d).dbr = d.dbr := rfl
@[simp] theorem bump_mgmt (k : Nat) : (bump k d).mgmt = d.mgmt := rfl
@[simp] theorem bump_twc (k : Nat) : (bump k d).twc = d.twc := rfl
@[simp] theorem bump_hmi (k : Nat) : (bump k d).hmi = d.hmi := rfl
@[simp] theorem bump_tlm (k : Nat) : (bump k d).tlm = d.tlm := rfl
@[simp] theorem bump_ledger (k : Nat) : (bump k d).ledger = d.ledger := rfl
@[simp] theorem bump_rsp (k : Nat) : (bump k d).rsp = d.rsp := rfl
@[simp] theorem bump_firsts (k : Nat) : (bump k d).firsts = d.firsts := rfl
@[simp] theorem bump_todo (k : Nat) : (bump k d).todo = d.todo := rfl
@[simp] theorem bump_fresh (k : Nat) : (bump k d).fresh = d.fresh := rfl

@[simp] theorem bump64_part (k : Nat) : (bump64 k d).part = d.part := wr64_part d _ _
@[simp] theorem bump64_latches (k : Nat) : (bump64 k d).latches = d.latches := wr64_latches d _ _
@[simp] theorem bump64_inj (k : Nat) : (bump64 k d).inj = d.inj := wr64_inj d _ _
@[simp] theorem bump64_clk (k : Nat) : (bump64 k d).clk = d.clk := wr64_clk d _ _
@[simp] theorem bump64_gov (k : Nat) : (bump64 k d).gov = d.gov := wr64_gov d _ _
@[simp] theorem bump64_pwr (k : Nat) : (bump64 k d).pwr = d.pwr := wr64_pwr d _ _
@[simp] theorem bump64_yard (k : Nat) : (bump64 k d).yard = d.yard := wr64_yard d _ _
@[simp] theorem bump64_net (k : Nat) : (bump64 k d).net = d.net := wr64_net d _ _
@[simp] theorem bump64_stk (k : Nat) : (bump64 k d).stk = d.stk := wr64_stk d _ _
@[simp] theorem bump64_dpt (k : Nat) : (bump64 k d).dpt = d.dpt := wr64_dpt d _ _
@[simp] theorem bump64_integ (k : Nat) : (bump64 k d).integ = d.integ := wr64_integ d _ _
@[simp] theorem bump64_cmps (k : Nat) : (bump64 k d).cmps = d.cmps := wr64_cmps d _ _
@[simp] theorem bump64_cores (k : Nat) : (bump64 k d).cores = d.cores := wr64_cores d _ _
@[simp] theorem bump64_fgs (k : Nat) : (bump64 k d).fgs = d.fgs := wr64_fgs d _ _
@[simp] theorem bump64_ink (k : Nat) : (bump64 k d).ink = d.ink := wr64_ink d _ _
@[simp] theorem bump64_engs (k : Nat) : (bump64 k d).engs = d.engs := wr64_engs d _ _
@[simp] theorem bump64_fus (k : Nat) : (bump64 k d).fus = d.fus := wr64_fus d _ _
@[simp] theorem bump64_tap (k : Nat) : (bump64 k d).tap = d.tap := wr64_tap d _ _
@[simp] theorem bump64_xsp (k : Nat) : (bump64 k d).xsp = d.xsp := wr64_xsp d _ _
@[simp] theorem bump64_hst (k : Nat) : (bump64 k d).hst = d.hst := wr64_hst d _ _
@[simp] theorem bump64_dbr (k : Nat) : (bump64 k d).dbr = d.dbr := wr64_dbr d _ _
@[simp] theorem bump64_mgmt (k : Nat) : (bump64 k d).mgmt = d.mgmt := wr64_mgmt d _ _
@[simp] theorem bump64_twc (k : Nat) : (bump64 k d).twc = d.twc := wr64_twc d _ _
@[simp] theorem bump64_hmi (k : Nat) : (bump64 k d).hmi = d.hmi := wr64_hmi d _ _
@[simp] theorem bump64_tlm (k : Nat) : (bump64 k d).tlm = d.tlm := wr64_tlm d _ _
@[simp] theorem bump64_ledger (k : Nat) : (bump64 k d).ledger = d.ledger := wr64_ledger d _ _
@[simp] theorem bump64_rsp (k : Nat) : (bump64 k d).rsp = d.rsp := wr64_rsp d _ _
@[simp] theorem bump64_firsts (k : Nat) : (bump64 k d).firsts = d.firsts := wr64_firsts d _ _
@[simp] theorem bump64_todo (k : Nat) : (bump64 k d).todo = d.todo := wr64_todo d _ _
@[simp] theorem bump64_fresh (k : Nat) : (bump64 k d).fresh = d.fresh := wr64_fresh d _ _

@[simp] theorem setUnitState_part (ty i : Nat) (u : UnitState) : (setUnitState ty i u d).part = d.part := wrF_part d _ _ _ _
@[simp] theorem setUnitState_latches (ty i : Nat) (u : UnitState) : (setUnitState ty i u d).latches = d.latches := wrF_latches d _ _ _ _
@[simp] theorem setUnitState_inj (ty i : Nat) (u : UnitState) : (setUnitState ty i u d).inj = d.inj := wrF_inj d _ _ _ _
@[simp] theorem setUnitState_clk (ty i : Nat) (u : UnitState) : (setUnitState ty i u d).clk = d.clk := wrF_clk d _ _ _ _
@[simp] theorem setUnitState_gov (ty i : Nat) (u : UnitState) : (setUnitState ty i u d).gov = d.gov := wrF_gov d _ _ _ _
@[simp] theorem setUnitState_pwr (ty i : Nat) (u : UnitState) : (setUnitState ty i u d).pwr = d.pwr := wrF_pwr d _ _ _ _
@[simp] theorem setUnitState_yard (ty i : Nat) (u : UnitState) : (setUnitState ty i u d).yard = d.yard := wrF_yard d _ _ _ _
@[simp] theorem setUnitState_net (ty i : Nat) (u : UnitState) : (setUnitState ty i u d).net = d.net := wrF_net d _ _ _ _
@[simp] theorem setUnitState_stk (ty i : Nat) (u : UnitState) : (setUnitState ty i u d).stk = d.stk := wrF_stk d _ _ _ _
@[simp] theorem setUnitState_dpt (ty i : Nat) (u : UnitState) : (setUnitState ty i u d).dpt = d.dpt := wrF_dpt d _ _ _ _
@[simp] theorem setUnitState_integ (ty i : Nat) (u : UnitState) : (setUnitState ty i u d).integ = d.integ := wrF_integ d _ _ _ _
@[simp] theorem setUnitState_cmps (ty i : Nat) (u : UnitState) : (setUnitState ty i u d).cmps = d.cmps := wrF_cmps d _ _ _ _
@[simp] theorem setUnitState_cores (ty i : Nat) (u : UnitState) : (setUnitState ty i u d).cores = d.cores := wrF_cores d _ _ _ _
@[simp] theorem setUnitState_fgs (ty i : Nat) (u : UnitState) : (setUnitState ty i u d).fgs = d.fgs := wrF_fgs d _ _ _ _
@[simp] theorem setUnitState_ink (ty i : Nat) (u : UnitState) : (setUnitState ty i u d).ink = d.ink := wrF_ink d _ _ _ _
@[simp] theorem setUnitState_engs (ty i : Nat) (u : UnitState) : (setUnitState ty i u d).engs = d.engs := wrF_engs d _ _ _ _
@[simp] theorem setUnitState_fus (ty i : Nat) (u : UnitState) : (setUnitState ty i u d).fus = d.fus := wrF_fus d _ _ _ _
@[simp] theorem setUnitState_tap (ty i : Nat) (u : UnitState) : (setUnitState ty i u d).tap = d.tap := wrF_tap d _ _ _ _
@[simp] theorem setUnitState_xsp (ty i : Nat) (u : UnitState) : (setUnitState ty i u d).xsp = d.xsp := wrF_xsp d _ _ _ _
@[simp] theorem setUnitState_hst (ty i : Nat) (u : UnitState) : (setUnitState ty i u d).hst = d.hst := wrF_hst d _ _ _ _
@[simp] theorem setUnitState_dbr (ty i : Nat) (u : UnitState) : (setUnitState ty i u d).dbr = d.dbr := wrF_dbr d _ _ _ _
@[simp] theorem setUnitState_mgmt (ty i : Nat) (u : UnitState) : (setUnitState ty i u d).mgmt = d.mgmt := wrF_mgmt d _ _ _ _
@[simp] theorem setUnitState_twc (ty i : Nat) (u : UnitState) : (setUnitState ty i u d).twc = d.twc := wrF_twc d _ _ _ _
@[simp] theorem setUnitState_hmi (ty i : Nat) (u : UnitState) : (setUnitState ty i u d).hmi = d.hmi := wrF_hmi d _ _ _ _
@[simp] theorem setUnitState_tlm (ty i : Nat) (u : UnitState) : (setUnitState ty i u d).tlm = d.tlm := wrF_tlm d _ _ _ _
@[simp] theorem setUnitState_ledger (ty i : Nat) (u : UnitState) : (setUnitState ty i u d).ledger = d.ledger := wrF_ledger d _ _ _ _
@[simp] theorem setUnitState_rsp (ty i : Nat) (u : UnitState) : (setUnitState ty i u d).rsp = d.rsp := wrF_rsp d _ _ _ _
@[simp] theorem setUnitState_firsts (ty i : Nat) (u : UnitState) : (setUnitState ty i u d).firsts = d.firsts := wrF_firsts d _ _ _ _
@[simp] theorem setUnitState_todo (ty i : Nat) (u : UnitState) : (setUnitState ty i u d).todo = d.todo := wrF_todo d _ _ _ _
@[simp] theorem setUnitState_fresh (ty i : Nat) (u : UnitState) : (setUnitState ty i u d).fresh = d.fresh := wrF_fresh d _ _ _ _

@[simp] theorem push_part (t : Todo) : (push t d).part = d.part := rfl
@[simp] theorem push_regs (t : Todo) : (push t d).regs = d.regs := rfl
@[simp] theorem push_latches (t : Todo) : (push t d).latches = d.latches := rfl
@[simp] theorem push_inj (t : Todo) : (push t d).inj = d.inj := rfl
@[simp] theorem push_clk (t : Todo) : (push t d).clk = d.clk := rfl
@[simp] theorem push_gov (t : Todo) : (push t d).gov = d.gov := rfl
@[simp] theorem push_pwr (t : Todo) : (push t d).pwr = d.pwr := rfl
@[simp] theorem push_yard (t : Todo) : (push t d).yard = d.yard := rfl
@[simp] theorem push_net (t : Todo) : (push t d).net = d.net := rfl
@[simp] theorem push_stk (t : Todo) : (push t d).stk = d.stk := rfl
@[simp] theorem push_dpt (t : Todo) : (push t d).dpt = d.dpt := rfl
@[simp] theorem push_integ (t : Todo) : (push t d).integ = d.integ := rfl
@[simp] theorem push_cmps (t : Todo) : (push t d).cmps = d.cmps := rfl
@[simp] theorem push_cores (t : Todo) : (push t d).cores = d.cores := rfl
@[simp] theorem push_fgs (t : Todo) : (push t d).fgs = d.fgs := rfl
@[simp] theorem push_ink (t : Todo) : (push t d).ink = d.ink := rfl
@[simp] theorem push_engs (t : Todo) : (push t d).engs = d.engs := rfl
@[simp] theorem push_fus (t : Todo) : (push t d).fus = d.fus := rfl
@[simp] theorem push_tap (t : Todo) : (push t d).tap = d.tap := rfl
@[simp] theorem push_xsp (t : Todo) : (push t d).xsp = d.xsp := rfl
@[simp] theorem push_hst (t : Todo) : (push t d).hst = d.hst := rfl
@[simp] theorem push_dbr (t : Todo) : (push t d).dbr = d.dbr := rfl
@[simp] theorem push_mgmt (t : Todo) : (push t d).mgmt = d.mgmt := rfl
@[simp] theorem push_twc (t : Todo) : (push t d).twc = d.twc := rfl
@[simp] theorem push_hmi (t : Todo) : (push t d).hmi = d.hmi := rfl
@[simp] theorem push_tlm (t : Todo) : (push t d).tlm = d.tlm := rfl
@[simp] theorem push_ledger (t : Todo) : (push t d).ledger = d.ledger := rfl
@[simp] theorem push_rsp (t : Todo) : (push t d).rsp = d.rsp := rfl
@[simp] theorem push_firsts (t : Todo) : (push t d).firsts = d.firsts := rfl
@[simp] theorem push_todo (t : Todo) : (push t d).todo = d.todo ++ [t] := rfl
@[simp] theorem push_fresh (t : Todo) : (push t d).fresh = d.fresh := rfl

@[simp] theorem ledWr_part (o v : Nat) : (ledWr o v d).part = d.part := rfl
@[simp] theorem ledWr_regs (o v : Nat) : (ledWr o v d).regs = d.regs := rfl
@[simp] theorem ledWr_latches (o v : Nat) : (ledWr o v d).latches = d.latches := rfl
@[simp] theorem ledWr_inj (o v : Nat) : (ledWr o v d).inj = d.inj := rfl
@[simp] theorem ledWr_clk (o v : Nat) : (ledWr o v d).clk = d.clk := rfl
@[simp] theorem ledWr_gov (o v : Nat) : (ledWr o v d).gov = d.gov := rfl
@[simp] theorem ledWr_pwr (o v : Nat) : (ledWr o v d).pwr = d.pwr := rfl
@[simp] theorem ledWr_yard (o v : Nat) : (ledWr o v d).yard = d.yard := rfl
@[simp] theorem ledWr_net (o v : Nat) : (ledWr o v d).net = d.net := rfl
@[simp] theorem ledWr_stk (o v : Nat) : (ledWr o v d).stk = d.stk := rfl
@[simp] theorem ledWr_dpt (o v : Nat) : (ledWr o v d).dpt = d.dpt := rfl
@[simp] theorem ledWr_integ (o v : Nat) : (ledWr o v d).integ = d.integ := rfl
@[simp] theorem ledWr_cmps (o v : Nat) : (ledWr o v d).cmps = d.cmps := rfl
@[simp] theorem ledWr_cores (o v : Nat) : (ledWr o v d).cores = d.cores := rfl
@[simp] theorem ledWr_fgs (o v : Nat) : (ledWr o v d).fgs = d.fgs := rfl
@[simp] theorem ledWr_ink (o v : Nat) : (ledWr o v d).ink = d.ink := rfl
@[simp] theorem ledWr_engs (o v : Nat) : (ledWr o v d).engs = d.engs := rfl
@[simp] theorem ledWr_fus (o v : Nat) : (ledWr o v d).fus = d.fus := rfl
@[simp] theorem ledWr_tap (o v : Nat) : (ledWr o v d).tap = d.tap := rfl
@[simp] theorem ledWr_xsp (o v : Nat) : (ledWr o v d).xsp = d.xsp := rfl
@[simp] theorem ledWr_hst (o v : Nat) : (ledWr o v d).hst = d.hst := rfl
@[simp] theorem ledWr_dbr (o v : Nat) : (ledWr o v d).dbr = d.dbr := rfl
@[simp] theorem ledWr_mgmt (o v : Nat) : (ledWr o v d).mgmt = d.mgmt := rfl
@[simp] theorem ledWr_twc (o v : Nat) : (ledWr o v d).twc = d.twc := rfl
@[simp] theorem ledWr_hmi (o v : Nat) : (ledWr o v d).hmi = d.hmi := rfl
@[simp] theorem ledWr_tlm (o v : Nat) : (ledWr o v d).tlm = d.tlm := rfl
@[simp] theorem ledWr_ledger (o v : Nat) : (ledWr o v d).ledger = Map.set (fun _ => (0 : W32)) d.ledger (o / 4) (BitVec.ofNat 32 v) := rfl
@[simp] theorem ledWr_rsp (o v : Nat) : (ledWr o v d).rsp = d.rsp := rfl
@[simp] theorem ledWr_firsts (o v : Nat) : (ledWr o v d).firsts = d.firsts := rfl
@[simp] theorem ledWr_todo (o v : Nat) : (ledWr o v d).todo = d.todo := rfl
@[simp] theorem ledWr_fresh (o v : Nat) : (ledWr o v d).fresh = d.fresh := rfl

@[simp] theorem putCell_part (n : Nat) (c : Cell39) : (putCell n c d).part = d.part := rfl
@[simp] theorem putCell_regs (n : Nat) (c : Cell39) : (putCell n c d).regs = d.regs := rfl
@[simp] theorem putCell_latches (n : Nat) (c : Cell39) : (putCell n c d).latches = d.latches := rfl
@[simp] theorem putCell_inj (n : Nat) (c : Cell39) : (putCell n c d).inj = d.inj := rfl
@[simp] theorem putCell_clk (n : Nat) (c : Cell39) : (putCell n c d).clk = d.clk := rfl
@[simp] theorem putCell_gov (n : Nat) (c : Cell39) : (putCell n c d).gov = d.gov := rfl
@[simp] theorem putCell_pwr (n : Nat) (c : Cell39) : (putCell n c d).pwr = d.pwr := rfl
@[simp] theorem putCell_net (n : Nat) (c : Cell39) : (putCell n c d).net = d.net := rfl
@[simp] theorem putCell_stk (n : Nat) (c : Cell39) : (putCell n c d).stk = d.stk := rfl
@[simp] theorem putCell_dpt (n : Nat) (c : Cell39) : (putCell n c d).dpt = d.dpt := rfl
@[simp] theorem putCell_integ (n : Nat) (c : Cell39) : (putCell n c d).integ = d.integ := rfl
@[simp] theorem putCell_cmps (n : Nat) (c : Cell39) : (putCell n c d).cmps = d.cmps := rfl
@[simp] theorem putCell_cores (n : Nat) (c : Cell39) : (putCell n c d).cores = d.cores := rfl
@[simp] theorem putCell_fgs (n : Nat) (c : Cell39) : (putCell n c d).fgs = d.fgs := rfl
@[simp] theorem putCell_ink (n : Nat) (c : Cell39) : (putCell n c d).ink = d.ink := rfl
@[simp] theorem putCell_engs (n : Nat) (c : Cell39) : (putCell n c d).engs = d.engs := rfl
@[simp] theorem putCell_fus (n : Nat) (c : Cell39) : (putCell n c d).fus = d.fus := rfl
@[simp] theorem putCell_tap (n : Nat) (c : Cell39) : (putCell n c d).tap = d.tap := rfl
@[simp] theorem putCell_xsp (n : Nat) (c : Cell39) : (putCell n c d).xsp = d.xsp := rfl
@[simp] theorem putCell_hst (n : Nat) (c : Cell39) : (putCell n c d).hst = d.hst := rfl
@[simp] theorem putCell_dbr (n : Nat) (c : Cell39) : (putCell n c d).dbr = d.dbr := rfl
@[simp] theorem putCell_mgmt (n : Nat) (c : Cell39) : (putCell n c d).mgmt = d.mgmt := rfl
@[simp] theorem putCell_twc (n : Nat) (c : Cell39) : (putCell n c d).twc = d.twc := rfl
@[simp] theorem putCell_hmi (n : Nat) (c : Cell39) : (putCell n c d).hmi = d.hmi := rfl
@[simp] theorem putCell_tlm (n : Nat) (c : Cell39) : (putCell n c d).tlm = d.tlm := rfl
@[simp] theorem putCell_ledger (n : Nat) (c : Cell39) : (putCell n c d).ledger = d.ledger := rfl
@[simp] theorem putCell_rsp (n : Nat) (c : Cell39) : (putCell n c d).rsp = d.rsp := rfl
@[simp] theorem putCell_firsts (n : Nat) (c : Cell39) : (putCell n c d).firsts = d.firsts := rfl
@[simp] theorem putCell_todo (n : Nat) (c : Cell39) : (putCell n c d).todo = d.todo := rfl
@[simp] theorem putCell_fresh (n : Nat) (c : Cell39) : (putCell n c d).fresh = d.fresh := rfl

@[simp] theorem putLine_part (n : Nat) (l : Line) : (putLine n l d).part = d.part := rfl
@[simp] theorem putLine_regs (n : Nat) (l : Line) : (putLine n l d).regs = d.regs := rfl
@[simp] theorem putLine_latches (n : Nat) (l : Line) : (putLine n l d).latches = d.latches := rfl
@[simp] theorem putLine_inj (n : Nat) (l : Line) : (putLine n l d).inj = d.inj := rfl
@[simp] theorem putLine_clk (n : Nat) (l : Line) : (putLine n l d).clk = d.clk := rfl
@[simp] theorem putLine_gov (n : Nat) (l : Line) : (putLine n l d).gov = d.gov := rfl
@[simp] theorem putLine_pwr (n : Nat) (l : Line) : (putLine n l d).pwr = d.pwr := rfl
@[simp] theorem putLine_yard (n : Nat) (l : Line) : (putLine n l d).yard = d.yard := rfl
@[simp] theorem putLine_net (n : Nat) (l : Line) : (putLine n l d).net = d.net := rfl
@[simp] theorem putLine_dpt (n : Nat) (l : Line) : (putLine n l d).dpt = d.dpt := rfl
@[simp] theorem putLine_integ (n : Nat) (l : Line) : (putLine n l d).integ = d.integ := rfl
@[simp] theorem putLine_cmps (n : Nat) (l : Line) : (putLine n l d).cmps = d.cmps := rfl
@[simp] theorem putLine_cores (n : Nat) (l : Line) : (putLine n l d).cores = d.cores := rfl
@[simp] theorem putLine_fgs (n : Nat) (l : Line) : (putLine n l d).fgs = d.fgs := rfl
@[simp] theorem putLine_ink (n : Nat) (l : Line) : (putLine n l d).ink = d.ink := rfl
@[simp] theorem putLine_engs (n : Nat) (l : Line) : (putLine n l d).engs = d.engs := rfl
@[simp] theorem putLine_fus (n : Nat) (l : Line) : (putLine n l d).fus = d.fus := rfl
@[simp] theorem putLine_tap (n : Nat) (l : Line) : (putLine n l d).tap = d.tap := rfl
@[simp] theorem putLine_xsp (n : Nat) (l : Line) : (putLine n l d).xsp = d.xsp := rfl
@[simp] theorem putLine_hst (n : Nat) (l : Line) : (putLine n l d).hst = d.hst := rfl
@[simp] theorem putLine_dbr (n : Nat) (l : Line) : (putLine n l d).dbr = d.dbr := rfl
@[simp] theorem putLine_mgmt (n : Nat) (l : Line) : (putLine n l d).mgmt = d.mgmt := rfl
@[simp] theorem putLine_twc (n : Nat) (l : Line) : (putLine n l d).twc = d.twc := rfl
@[simp] theorem putLine_hmi (n : Nat) (l : Line) : (putLine n l d).hmi = d.hmi := rfl
@[simp] theorem putLine_tlm (n : Nat) (l : Line) : (putLine n l d).tlm = d.tlm := rfl
@[simp] theorem putLine_ledger (n : Nat) (l : Line) : (putLine n l d).ledger = d.ledger := rfl
@[simp] theorem putLine_rsp (n : Nat) (l : Line) : (putLine n l d).rsp = d.rsp := rfl
@[simp] theorem putLine_firsts (n : Nat) (l : Line) : (putLine n l d).firsts = d.firsts := rfl
@[simp] theorem putLine_todo (n : Nat) (l : Line) : (putLine n l d).todo = d.todo := rfl
@[simp] theorem putLine_fresh (n : Nat) (l : Line) : (putLine n l d).fresh = d.fresh := rfl

@[simp] theorem updTally_part (t : Nat) (f : Tally → Tally) : (updTally t f d).part = d.part := rfl
@[simp] theorem updTally_regs (t : Nat) (f : Tally → Tally) : (updTally t f d).regs = d.regs := rfl
@[simp] theorem updTally_latches (t : Nat) (f : Tally → Tally) : (updTally t f d).latches = d.latches := rfl
@[simp] theorem updTally_inj (t : Nat) (f : Tally → Tally) : (updTally t f d).inj = d.inj := rfl
@[simp] theorem updTally_clk (t : Nat) (f : Tally → Tally) : (updTally t f d).clk = d.clk := rfl
@[simp] theorem updTally_gov (t : Nat) (f : Tally → Tally) : (updTally t f d).gov = d.gov := rfl
@[simp] theorem updTally_pwr (t : Nat) (f : Tally → Tally) : (updTally t f d).pwr = d.pwr := rfl
@[simp] theorem updTally_net (t : Nat) (f : Tally → Tally) : (updTally t f d).net = d.net := rfl
@[simp] theorem updTally_stk (t : Nat) (f : Tally → Tally) : (updTally t f d).stk = d.stk := rfl
@[simp] theorem updTally_dpt (t : Nat) (f : Tally → Tally) : (updTally t f d).dpt = d.dpt := rfl
@[simp] theorem updTally_integ (t : Nat) (f : Tally → Tally) : (updTally t f d).integ = d.integ := rfl
@[simp] theorem updTally_cmps (t : Nat) (f : Tally → Tally) : (updTally t f d).cmps = d.cmps := rfl
@[simp] theorem updTally_cores (t : Nat) (f : Tally → Tally) : (updTally t f d).cores = d.cores := rfl
@[simp] theorem updTally_fgs (t : Nat) (f : Tally → Tally) : (updTally t f d).fgs = d.fgs := rfl
@[simp] theorem updTally_ink (t : Nat) (f : Tally → Tally) : (updTally t f d).ink = d.ink := rfl
@[simp] theorem updTally_engs (t : Nat) (f : Tally → Tally) : (updTally t f d).engs = d.engs := rfl
@[simp] theorem updTally_fus (t : Nat) (f : Tally → Tally) : (updTally t f d).fus = d.fus := rfl
@[simp] theorem updTally_tap (t : Nat) (f : Tally → Tally) : (updTally t f d).tap = d.tap := rfl
@[simp] theorem updTally_xsp (t : Nat) (f : Tally → Tally) : (updTally t f d).xsp = d.xsp := rfl
@[simp] theorem updTally_hst (t : Nat) (f : Tally → Tally) : (updTally t f d).hst = d.hst := rfl
@[simp] theorem updTally_dbr (t : Nat) (f : Tally → Tally) : (updTally t f d).dbr = d.dbr := rfl
@[simp] theorem updTally_mgmt (t : Nat) (f : Tally → Tally) : (updTally t f d).mgmt = d.mgmt := rfl
@[simp] theorem updTally_twc (t : Nat) (f : Tally → Tally) : (updTally t f d).twc = d.twc := rfl
@[simp] theorem updTally_hmi (t : Nat) (f : Tally → Tally) : (updTally t f d).hmi = d.hmi := rfl
@[simp] theorem updTally_tlm (t : Nat) (f : Tally → Tally) : (updTally t f d).tlm = d.tlm := rfl
@[simp] theorem updTally_ledger (t : Nat) (f : Tally → Tally) : (updTally t f d).ledger = d.ledger := rfl
@[simp] theorem updTally_rsp (t : Nat) (f : Tally → Tally) : (updTally t f d).rsp = d.rsp := rfl
@[simp] theorem updTally_firsts (t : Nat) (f : Tally → Tally) : (updTally t f d).firsts = d.firsts := rfl
@[simp] theorem updTally_todo (t : Nat) (f : Tally → Tally) : (updTally t f d).todo = d.todo := rfl
@[simp] theorem updTally_fresh (t : Nat) (f : Tally → Tally) : (updTally t f d).fresh = d.fresh := rfl

@[simp] theorem updSem_part (k : Nat) (f : Sem → Sem) : (updSem k f d).part = d.part := rfl
@[simp] theorem updSem_regs (k : Nat) (f : Sem → Sem) : (updSem k f d).regs = d.regs := rfl
@[simp] theorem updSem_latches (k : Nat) (f : Sem → Sem) : (updSem k f d).latches = d.latches := rfl
@[simp] theorem updSem_inj (k : Nat) (f : Sem → Sem) : (updSem k f d).inj = d.inj := rfl
@[simp] theorem updSem_clk (k : Nat) (f : Sem → Sem) : (updSem k f d).clk = d.clk := rfl
@[simp] theorem updSem_gov (k : Nat) (f : Sem → Sem) : (updSem k f d).gov = d.gov := rfl
@[simp] theorem updSem_pwr (k : Nat) (f : Sem → Sem) : (updSem k f d).pwr = d.pwr := rfl
@[simp] theorem updSem_net (k : Nat) (f : Sem → Sem) : (updSem k f d).net = d.net := rfl
@[simp] theorem updSem_stk (k : Nat) (f : Sem → Sem) : (updSem k f d).stk = d.stk := rfl
@[simp] theorem updSem_dpt (k : Nat) (f : Sem → Sem) : (updSem k f d).dpt = d.dpt := rfl
@[simp] theorem updSem_integ (k : Nat) (f : Sem → Sem) : (updSem k f d).integ = d.integ := rfl
@[simp] theorem updSem_cmps (k : Nat) (f : Sem → Sem) : (updSem k f d).cmps = d.cmps := rfl
@[simp] theorem updSem_cores (k : Nat) (f : Sem → Sem) : (updSem k f d).cores = d.cores := rfl
@[simp] theorem updSem_fgs (k : Nat) (f : Sem → Sem) : (updSem k f d).fgs = d.fgs := rfl
@[simp] theorem updSem_ink (k : Nat) (f : Sem → Sem) : (updSem k f d).ink = d.ink := rfl
@[simp] theorem updSem_engs (k : Nat) (f : Sem → Sem) : (updSem k f d).engs = d.engs := rfl
@[simp] theorem updSem_fus (k : Nat) (f : Sem → Sem) : (updSem k f d).fus = d.fus := rfl
@[simp] theorem updSem_tap (k : Nat) (f : Sem → Sem) : (updSem k f d).tap = d.tap := rfl
@[simp] theorem updSem_xsp (k : Nat) (f : Sem → Sem) : (updSem k f d).xsp = d.xsp := rfl
@[simp] theorem updSem_hst (k : Nat) (f : Sem → Sem) : (updSem k f d).hst = d.hst := rfl
@[simp] theorem updSem_dbr (k : Nat) (f : Sem → Sem) : (updSem k f d).dbr = d.dbr := rfl
@[simp] theorem updSem_mgmt (k : Nat) (f : Sem → Sem) : (updSem k f d).mgmt = d.mgmt := rfl
@[simp] theorem updSem_twc (k : Nat) (f : Sem → Sem) : (updSem k f d).twc = d.twc := rfl
@[simp] theorem updSem_hmi (k : Nat) (f : Sem → Sem) : (updSem k f d).hmi = d.hmi := rfl
@[simp] theorem updSem_tlm (k : Nat) (f : Sem → Sem) : (updSem k f d).tlm = d.tlm := rfl
@[simp] theorem updSem_ledger (k : Nat) (f : Sem → Sem) : (updSem k f d).ledger = d.ledger := rfl
@[simp] theorem updSem_rsp (k : Nat) (f : Sem → Sem) : (updSem k f d).rsp = d.rsp := rfl
@[simp] theorem updSem_firsts (k : Nat) (f : Sem → Sem) : (updSem k f d).firsts = d.firsts := rfl
@[simp] theorem updSem_todo (k : Nat) (f : Sem → Sem) : (updSem k f d).todo = d.todo := rfl
@[simp] theorem updSem_fresh (k : Nat) (f : Sem → Sem) : (updSem k f d).fresh = d.fresh := rfl

@[simp] theorem updCore_part (h : Nat) (f : Core → Core) : (updCore h f d).part = d.part := rfl
@[simp] theorem updCore_regs (h : Nat) (f : Core → Core) : (updCore h f d).regs = d.regs := rfl
@[simp] theorem updCore_latches (h : Nat) (f : Core → Core) : (updCore h f d).latches = d.latches := rfl
@[simp] theorem updCore_inj (h : Nat) (f : Core → Core) : (updCore h f d).inj = d.inj := rfl
@[simp] theorem updCore_clk (h : Nat) (f : Core → Core) : (updCore h f d).clk = d.clk := rfl
@[simp] theorem updCore_gov (h : Nat) (f : Core → Core) : (updCore h f d).gov = d.gov := rfl
@[simp] theorem updCore_pwr (h : Nat) (f : Core → Core) : (updCore h f d).pwr = d.pwr := rfl
@[simp] theorem updCore_yard (h : Nat) (f : Core → Core) : (updCore h f d).yard = d.yard := rfl
@[simp] theorem updCore_net (h : Nat) (f : Core → Core) : (updCore h f d).net = d.net := rfl
@[simp] theorem updCore_stk (h : Nat) (f : Core → Core) : (updCore h f d).stk = d.stk := rfl
@[simp] theorem updCore_dpt (h : Nat) (f : Core → Core) : (updCore h f d).dpt = d.dpt := rfl
@[simp] theorem updCore_integ (h : Nat) (f : Core → Core) : (updCore h f d).integ = d.integ := rfl
@[simp] theorem updCore_cmps (h : Nat) (f : Core → Core) : (updCore h f d).cmps = d.cmps := rfl
@[simp] theorem updCore_fgs (h : Nat) (f : Core → Core) : (updCore h f d).fgs = d.fgs := rfl
@[simp] theorem updCore_ink (h : Nat) (f : Core → Core) : (updCore h f d).ink = d.ink := rfl
@[simp] theorem updCore_engs (h : Nat) (f : Core → Core) : (updCore h f d).engs = d.engs := rfl
@[simp] theorem updCore_fus (h : Nat) (f : Core → Core) : (updCore h f d).fus = d.fus := rfl
@[simp] theorem updCore_tap (h : Nat) (f : Core → Core) : (updCore h f d).tap = d.tap := rfl
@[simp] theorem updCore_xsp (h : Nat) (f : Core → Core) : (updCore h f d).xsp = d.xsp := rfl
@[simp] theorem updCore_hst (h : Nat) (f : Core → Core) : (updCore h f d).hst = d.hst := rfl
@[simp] theorem updCore_dbr (h : Nat) (f : Core → Core) : (updCore h f d).dbr = d.dbr := rfl
@[simp] theorem updCore_mgmt (h : Nat) (f : Core → Core) : (updCore h f d).mgmt = d.mgmt := rfl
@[simp] theorem updCore_twc (h : Nat) (f : Core → Core) : (updCore h f d).twc = d.twc := rfl
@[simp] theorem updCore_hmi (h : Nat) (f : Core → Core) : (updCore h f d).hmi = d.hmi := rfl
@[simp] theorem updCore_tlm (h : Nat) (f : Core → Core) : (updCore h f d).tlm = d.tlm := rfl
@[simp] theorem updCore_ledger (h : Nat) (f : Core → Core) : (updCore h f d).ledger = d.ledger := rfl
@[simp] theorem updCore_rsp (h : Nat) (f : Core → Core) : (updCore h f d).rsp = d.rsp := rfl
@[simp] theorem updCore_firsts (h : Nat) (f : Core → Core) : (updCore h f d).firsts = d.firsts := rfl
@[simp] theorem updCore_todo (h : Nat) (f : Core → Core) : (updCore h f d).todo = d.todo := rfl
@[simp] theorem updCore_fresh (h : Nat) (f : Core → Core) : (updCore h f d).fresh = d.fresh := rfl

@[simp] theorem updCmp_part (n : Nat) (f : Cmp → Cmp) : (updCmp n f d).part = d.part := rfl
@[simp] theorem updCmp_regs (n : Nat) (f : Cmp → Cmp) : (updCmp n f d).regs = d.regs := rfl
@[simp] theorem updCmp_latches (n : Nat) (f : Cmp → Cmp) : (updCmp n f d).latches = d.latches := rfl
@[simp] theorem updCmp_inj (n : Nat) (f : Cmp → Cmp) : (updCmp n f d).inj = d.inj := rfl
@[simp] theorem updCmp_clk (n : Nat) (f : Cmp → Cmp) : (updCmp n f d).clk = d.clk := rfl
@[simp] theorem updCmp_gov (n : Nat) (f : Cmp → Cmp) : (updCmp n f d).gov = d.gov := rfl
@[simp] theorem updCmp_pwr (n : Nat) (f : Cmp → Cmp) : (updCmp n f d).pwr = d.pwr := rfl
@[simp] theorem updCmp_yard (n : Nat) (f : Cmp → Cmp) : (updCmp n f d).yard = d.yard := rfl
@[simp] theorem updCmp_net (n : Nat) (f : Cmp → Cmp) : (updCmp n f d).net = d.net := rfl
@[simp] theorem updCmp_stk (n : Nat) (f : Cmp → Cmp) : (updCmp n f d).stk = d.stk := rfl
@[simp] theorem updCmp_dpt (n : Nat) (f : Cmp → Cmp) : (updCmp n f d).dpt = d.dpt := rfl
@[simp] theorem updCmp_integ (n : Nat) (f : Cmp → Cmp) : (updCmp n f d).integ = d.integ := rfl
@[simp] theorem updCmp_cores (n : Nat) (f : Cmp → Cmp) : (updCmp n f d).cores = d.cores := rfl
@[simp] theorem updCmp_fgs (n : Nat) (f : Cmp → Cmp) : (updCmp n f d).fgs = d.fgs := rfl
@[simp] theorem updCmp_ink (n : Nat) (f : Cmp → Cmp) : (updCmp n f d).ink = d.ink := rfl
@[simp] theorem updCmp_engs (n : Nat) (f : Cmp → Cmp) : (updCmp n f d).engs = d.engs := rfl
@[simp] theorem updCmp_fus (n : Nat) (f : Cmp → Cmp) : (updCmp n f d).fus = d.fus := rfl
@[simp] theorem updCmp_tap (n : Nat) (f : Cmp → Cmp) : (updCmp n f d).tap = d.tap := rfl
@[simp] theorem updCmp_xsp (n : Nat) (f : Cmp → Cmp) : (updCmp n f d).xsp = d.xsp := rfl
@[simp] theorem updCmp_hst (n : Nat) (f : Cmp → Cmp) : (updCmp n f d).hst = d.hst := rfl
@[simp] theorem updCmp_dbr (n : Nat) (f : Cmp → Cmp) : (updCmp n f d).dbr = d.dbr := rfl
@[simp] theorem updCmp_mgmt (n : Nat) (f : Cmp → Cmp) : (updCmp n f d).mgmt = d.mgmt := rfl
@[simp] theorem updCmp_twc (n : Nat) (f : Cmp → Cmp) : (updCmp n f d).twc = d.twc := rfl
@[simp] theorem updCmp_hmi (n : Nat) (f : Cmp → Cmp) : (updCmp n f d).hmi = d.hmi := rfl
@[simp] theorem updCmp_tlm (n : Nat) (f : Cmp → Cmp) : (updCmp n f d).tlm = d.tlm := rfl
@[simp] theorem updCmp_ledger (n : Nat) (f : Cmp → Cmp) : (updCmp n f d).ledger = d.ledger := rfl
@[simp] theorem updCmp_rsp (n : Nat) (f : Cmp → Cmp) : (updCmp n f d).rsp = d.rsp := rfl
@[simp] theorem updCmp_firsts (n : Nat) (f : Cmp → Cmp) : (updCmp n f d).firsts = d.firsts := rfl
@[simp] theorem updCmp_todo (n : Nat) (f : Cmp → Cmp) : (updCmp n f d).todo = d.todo := rfl
@[simp] theorem updCmp_fresh (n : Nat) (f : Cmp → Cmp) : (updCmp n f d).fresh = d.fresh := rfl

@[simp] theorem updClk_part (f : Clk → Clk) : (updClk f d).part = d.part := rfl
@[simp] theorem updClk_regs (f : Clk → Clk) : (updClk f d).regs = d.regs := rfl
@[simp] theorem updClk_latches (f : Clk → Clk) : (updClk f d).latches = d.latches := rfl
@[simp] theorem updClk_inj (f : Clk → Clk) : (updClk f d).inj = d.inj := rfl
@[simp] theorem updClk_clk (f : Clk → Clk) : (updClk f d).clk = f d.clk := rfl
@[simp] theorem updClk_gov (f : Clk → Clk) : (updClk f d).gov = d.gov := rfl
@[simp] theorem updClk_pwr (f : Clk → Clk) : (updClk f d).pwr = d.pwr := rfl
@[simp] theorem updClk_yard (f : Clk → Clk) : (updClk f d).yard = d.yard := rfl
@[simp] theorem updClk_net (f : Clk → Clk) : (updClk f d).net = d.net := rfl
@[simp] theorem updClk_stk (f : Clk → Clk) : (updClk f d).stk = d.stk := rfl
@[simp] theorem updClk_dpt (f : Clk → Clk) : (updClk f d).dpt = d.dpt := rfl
@[simp] theorem updClk_integ (f : Clk → Clk) : (updClk f d).integ = d.integ := rfl
@[simp] theorem updClk_cmps (f : Clk → Clk) : (updClk f d).cmps = d.cmps := rfl
@[simp] theorem updClk_cores (f : Clk → Clk) : (updClk f d).cores = d.cores := rfl
@[simp] theorem updClk_fgs (f : Clk → Clk) : (updClk f d).fgs = d.fgs := rfl
@[simp] theorem updClk_ink (f : Clk → Clk) : (updClk f d).ink = d.ink := rfl
@[simp] theorem updClk_engs (f : Clk → Clk) : (updClk f d).engs = d.engs := rfl
@[simp] theorem updClk_fus (f : Clk → Clk) : (updClk f d).fus = d.fus := rfl
@[simp] theorem updClk_tap (f : Clk → Clk) : (updClk f d).tap = d.tap := rfl
@[simp] theorem updClk_xsp (f : Clk → Clk) : (updClk f d).xsp = d.xsp := rfl
@[simp] theorem updClk_hst (f : Clk → Clk) : (updClk f d).hst = d.hst := rfl
@[simp] theorem updClk_dbr (f : Clk → Clk) : (updClk f d).dbr = d.dbr := rfl
@[simp] theorem updClk_mgmt (f : Clk → Clk) : (updClk f d).mgmt = d.mgmt := rfl
@[simp] theorem updClk_twc (f : Clk → Clk) : (updClk f d).twc = d.twc := rfl
@[simp] theorem updClk_hmi (f : Clk → Clk) : (updClk f d).hmi = d.hmi := rfl
@[simp] theorem updClk_tlm (f : Clk → Clk) : (updClk f d).tlm = d.tlm := rfl
@[simp] theorem updClk_ledger (f : Clk → Clk) : (updClk f d).ledger = d.ledger := rfl
@[simp] theorem updClk_rsp (f : Clk → Clk) : (updClk f d).rsp = d.rsp := rfl
@[simp] theorem updClk_firsts (f : Clk → Clk) : (updClk f d).firsts = d.firsts := rfl
@[simp] theorem updClk_todo (f : Clk → Clk) : (updClk f d).todo = d.todo := rfl
@[simp] theorem updClk_fresh (f : Clk → Clk) : (updClk f d).fresh = d.fresh := rfl

@[simp] theorem updGov_part (f : Gov → Gov) : (updGov f d).part = d.part := rfl
@[simp] theorem updGov_regs (f : Gov → Gov) : (updGov f d).regs = d.regs := rfl
@[simp] theorem updGov_latches (f : Gov → Gov) : (updGov f d).latches = d.latches := rfl
@[simp] theorem updGov_inj (f : Gov → Gov) : (updGov f d).inj = d.inj := rfl
@[simp] theorem updGov_clk (f : Gov → Gov) : (updGov f d).clk = d.clk := rfl
@[simp] theorem updGov_gov (f : Gov → Gov) : (updGov f d).gov = f d.gov := rfl
@[simp] theorem updGov_pwr (f : Gov → Gov) : (updGov f d).pwr = d.pwr := rfl
@[simp] theorem updGov_yard (f : Gov → Gov) : (updGov f d).yard = d.yard := rfl
@[simp] theorem updGov_net (f : Gov → Gov) : (updGov f d).net = d.net := rfl
@[simp] theorem updGov_stk (f : Gov → Gov) : (updGov f d).stk = d.stk := rfl
@[simp] theorem updGov_dpt (f : Gov → Gov) : (updGov f d).dpt = d.dpt := rfl
@[simp] theorem updGov_integ (f : Gov → Gov) : (updGov f d).integ = d.integ := rfl
@[simp] theorem updGov_cmps (f : Gov → Gov) : (updGov f d).cmps = d.cmps := rfl
@[simp] theorem updGov_cores (f : Gov → Gov) : (updGov f d).cores = d.cores := rfl
@[simp] theorem updGov_fgs (f : Gov → Gov) : (updGov f d).fgs = d.fgs := rfl
@[simp] theorem updGov_ink (f : Gov → Gov) : (updGov f d).ink = d.ink := rfl
@[simp] theorem updGov_engs (f : Gov → Gov) : (updGov f d).engs = d.engs := rfl
@[simp] theorem updGov_fus (f : Gov → Gov) : (updGov f d).fus = d.fus := rfl
@[simp] theorem updGov_tap (f : Gov → Gov) : (updGov f d).tap = d.tap := rfl
@[simp] theorem updGov_xsp (f : Gov → Gov) : (updGov f d).xsp = d.xsp := rfl
@[simp] theorem updGov_hst (f : Gov → Gov) : (updGov f d).hst = d.hst := rfl
@[simp] theorem updGov_dbr (f : Gov → Gov) : (updGov f d).dbr = d.dbr := rfl
@[simp] theorem updGov_mgmt (f : Gov → Gov) : (updGov f d).mgmt = d.mgmt := rfl
@[simp] theorem updGov_twc (f : Gov → Gov) : (updGov f d).twc = d.twc := rfl
@[simp] theorem updGov_hmi (f : Gov → Gov) : (updGov f d).hmi = d.hmi := rfl
@[simp] theorem updGov_tlm (f : Gov → Gov) : (updGov f d).tlm = d.tlm := rfl
@[simp] theorem updGov_ledger (f : Gov → Gov) : (updGov f d).ledger = d.ledger := rfl
@[simp] theorem updGov_rsp (f : Gov → Gov) : (updGov f d).rsp = d.rsp := rfl
@[simp] theorem updGov_firsts (f : Gov → Gov) : (updGov f d).firsts = d.firsts := rfl
@[simp] theorem updGov_todo (f : Gov → Gov) : (updGov f d).todo = d.todo := rfl
@[simp] theorem updGov_fresh (f : Gov → Gov) : (updGov f d).fresh = d.fresh := rfl

@[simp] theorem updPwr_part (f : Pwr → Pwr) : (updPwr f d).part = d.part := rfl
@[simp] theorem updPwr_regs (f : Pwr → Pwr) : (updPwr f d).regs = d.regs := rfl
@[simp] theorem updPwr_latches (f : Pwr → Pwr) : (updPwr f d).latches = d.latches := rfl
@[simp] theorem updPwr_inj (f : Pwr → Pwr) : (updPwr f d).inj = d.inj := rfl
@[simp] theorem updPwr_clk (f : Pwr → Pwr) : (updPwr f d).clk = d.clk := rfl
@[simp] theorem updPwr_gov (f : Pwr → Pwr) : (updPwr f d).gov = d.gov := rfl
@[simp] theorem updPwr_pwr (f : Pwr → Pwr) : (updPwr f d).pwr = f d.pwr := rfl
@[simp] theorem updPwr_yard (f : Pwr → Pwr) : (updPwr f d).yard = d.yard := rfl
@[simp] theorem updPwr_net (f : Pwr → Pwr) : (updPwr f d).net = d.net := rfl
@[simp] theorem updPwr_stk (f : Pwr → Pwr) : (updPwr f d).stk = d.stk := rfl
@[simp] theorem updPwr_dpt (f : Pwr → Pwr) : (updPwr f d).dpt = d.dpt := rfl
@[simp] theorem updPwr_integ (f : Pwr → Pwr) : (updPwr f d).integ = d.integ := rfl
@[simp] theorem updPwr_cmps (f : Pwr → Pwr) : (updPwr f d).cmps = d.cmps := rfl
@[simp] theorem updPwr_cores (f : Pwr → Pwr) : (updPwr f d).cores = d.cores := rfl
@[simp] theorem updPwr_fgs (f : Pwr → Pwr) : (updPwr f d).fgs = d.fgs := rfl
@[simp] theorem updPwr_ink (f : Pwr → Pwr) : (updPwr f d).ink = d.ink := rfl
@[simp] theorem updPwr_engs (f : Pwr → Pwr) : (updPwr f d).engs = d.engs := rfl
@[simp] theorem updPwr_fus (f : Pwr → Pwr) : (updPwr f d).fus = d.fus := rfl
@[simp] theorem updPwr_tap (f : Pwr → Pwr) : (updPwr f d).tap = d.tap := rfl
@[simp] theorem updPwr_xsp (f : Pwr → Pwr) : (updPwr f d).xsp = d.xsp := rfl
@[simp] theorem updPwr_hst (f : Pwr → Pwr) : (updPwr f d).hst = d.hst := rfl
@[simp] theorem updPwr_dbr (f : Pwr → Pwr) : (updPwr f d).dbr = d.dbr := rfl
@[simp] theorem updPwr_mgmt (f : Pwr → Pwr) : (updPwr f d).mgmt = d.mgmt := rfl
@[simp] theorem updPwr_twc (f : Pwr → Pwr) : (updPwr f d).twc = d.twc := rfl
@[simp] theorem updPwr_hmi (f : Pwr → Pwr) : (updPwr f d).hmi = d.hmi := rfl
@[simp] theorem updPwr_tlm (f : Pwr → Pwr) : (updPwr f d).tlm = d.tlm := rfl
@[simp] theorem updPwr_ledger (f : Pwr → Pwr) : (updPwr f d).ledger = d.ledger := rfl
@[simp] theorem updPwr_rsp (f : Pwr → Pwr) : (updPwr f d).rsp = d.rsp := rfl
@[simp] theorem updPwr_firsts (f : Pwr → Pwr) : (updPwr f d).firsts = d.firsts := rfl
@[simp] theorem updPwr_todo (f : Pwr → Pwr) : (updPwr f d).todo = d.todo := rfl
@[simp] theorem updPwr_fresh (f : Pwr → Pwr) : (updPwr f d).fresh = d.fresh := rfl

@[simp] theorem updHst_part (f : HostState → HostState) : (updHst f d).part = d.part := rfl
@[simp] theorem updHst_regs (f : HostState → HostState) : (updHst f d).regs = d.regs := rfl
@[simp] theorem updHst_latches (f : HostState → HostState) : (updHst f d).latches = d.latches := rfl
@[simp] theorem updHst_inj (f : HostState → HostState) : (updHst f d).inj = d.inj := rfl
@[simp] theorem updHst_clk (f : HostState → HostState) : (updHst f d).clk = d.clk := rfl
@[simp] theorem updHst_gov (f : HostState → HostState) : (updHst f d).gov = d.gov := rfl
@[simp] theorem updHst_pwr (f : HostState → HostState) : (updHst f d).pwr = d.pwr := rfl
@[simp] theorem updHst_yard (f : HostState → HostState) : (updHst f d).yard = d.yard := rfl
@[simp] theorem updHst_net (f : HostState → HostState) : (updHst f d).net = d.net := rfl
@[simp] theorem updHst_stk (f : HostState → HostState) : (updHst f d).stk = d.stk := rfl
@[simp] theorem updHst_dpt (f : HostState → HostState) : (updHst f d).dpt = d.dpt := rfl
@[simp] theorem updHst_integ (f : HostState → HostState) : (updHst f d).integ = d.integ := rfl
@[simp] theorem updHst_cmps (f : HostState → HostState) : (updHst f d).cmps = d.cmps := rfl
@[simp] theorem updHst_cores (f : HostState → HostState) : (updHst f d).cores = d.cores := rfl
@[simp] theorem updHst_fgs (f : HostState → HostState) : (updHst f d).fgs = d.fgs := rfl
@[simp] theorem updHst_ink (f : HostState → HostState) : (updHst f d).ink = d.ink := rfl
@[simp] theorem updHst_engs (f : HostState → HostState) : (updHst f d).engs = d.engs := rfl
@[simp] theorem updHst_fus (f : HostState → HostState) : (updHst f d).fus = d.fus := rfl
@[simp] theorem updHst_tap (f : HostState → HostState) : (updHst f d).tap = d.tap := rfl
@[simp] theorem updHst_xsp (f : HostState → HostState) : (updHst f d).xsp = d.xsp := rfl
@[simp] theorem updHst_hst (f : HostState → HostState) : (updHst f d).hst = f d.hst := rfl
@[simp] theorem updHst_dbr (f : HostState → HostState) : (updHst f d).dbr = d.dbr := rfl
@[simp] theorem updHst_mgmt (f : HostState → HostState) : (updHst f d).mgmt = d.mgmt := rfl
@[simp] theorem updHst_twc (f : HostState → HostState) : (updHst f d).twc = d.twc := rfl
@[simp] theorem updHst_hmi (f : HostState → HostState) : (updHst f d).hmi = d.hmi := rfl
@[simp] theorem updHst_tlm (f : HostState → HostState) : (updHst f d).tlm = d.tlm := rfl
@[simp] theorem updHst_ledger (f : HostState → HostState) : (updHst f d).ledger = d.ledger := rfl
@[simp] theorem updHst_rsp (f : HostState → HostState) : (updHst f d).rsp = d.rsp := rfl
@[simp] theorem updHst_firsts (f : HostState → HostState) : (updHst f d).firsts = d.firsts := rfl
@[simp] theorem updHst_todo (f : HostState → HostState) : (updHst f d).todo = d.todo := rfl
@[simp] theorem updHst_fresh (f : HostState → HostState) : (updHst f d).fresh = d.fresh := rfl

@[simp] theorem updMgmt_part (f : MgmtState → MgmtState) : (updMgmt f d).part = d.part := rfl
@[simp] theorem updMgmt_regs (f : MgmtState → MgmtState) : (updMgmt f d).regs = d.regs := rfl
@[simp] theorem updMgmt_latches (f : MgmtState → MgmtState) : (updMgmt f d).latches = d.latches := rfl
@[simp] theorem updMgmt_inj (f : MgmtState → MgmtState) : (updMgmt f d).inj = d.inj := rfl
@[simp] theorem updMgmt_clk (f : MgmtState → MgmtState) : (updMgmt f d).clk = d.clk := rfl
@[simp] theorem updMgmt_gov (f : MgmtState → MgmtState) : (updMgmt f d).gov = d.gov := rfl
@[simp] theorem updMgmt_pwr (f : MgmtState → MgmtState) : (updMgmt f d).pwr = d.pwr := rfl
@[simp] theorem updMgmt_yard (f : MgmtState → MgmtState) : (updMgmt f d).yard = d.yard := rfl
@[simp] theorem updMgmt_net (f : MgmtState → MgmtState) : (updMgmt f d).net = d.net := rfl
@[simp] theorem updMgmt_stk (f : MgmtState → MgmtState) : (updMgmt f d).stk = d.stk := rfl
@[simp] theorem updMgmt_dpt (f : MgmtState → MgmtState) : (updMgmt f d).dpt = d.dpt := rfl
@[simp] theorem updMgmt_integ (f : MgmtState → MgmtState) : (updMgmt f d).integ = d.integ := rfl
@[simp] theorem updMgmt_cmps (f : MgmtState → MgmtState) : (updMgmt f d).cmps = d.cmps := rfl
@[simp] theorem updMgmt_cores (f : MgmtState → MgmtState) : (updMgmt f d).cores = d.cores := rfl
@[simp] theorem updMgmt_fgs (f : MgmtState → MgmtState) : (updMgmt f d).fgs = d.fgs := rfl
@[simp] theorem updMgmt_ink (f : MgmtState → MgmtState) : (updMgmt f d).ink = d.ink := rfl
@[simp] theorem updMgmt_engs (f : MgmtState → MgmtState) : (updMgmt f d).engs = d.engs := rfl
@[simp] theorem updMgmt_fus (f : MgmtState → MgmtState) : (updMgmt f d).fus = d.fus := rfl
@[simp] theorem updMgmt_tap (f : MgmtState → MgmtState) : (updMgmt f d).tap = d.tap := rfl
@[simp] theorem updMgmt_xsp (f : MgmtState → MgmtState) : (updMgmt f d).xsp = d.xsp := rfl
@[simp] theorem updMgmt_hst (f : MgmtState → MgmtState) : (updMgmt f d).hst = d.hst := rfl
@[simp] theorem updMgmt_dbr (f : MgmtState → MgmtState) : (updMgmt f d).dbr = d.dbr := rfl
@[simp] theorem updMgmt_mgmt (f : MgmtState → MgmtState) : (updMgmt f d).mgmt = f d.mgmt := rfl
@[simp] theorem updMgmt_twc (f : MgmtState → MgmtState) : (updMgmt f d).twc = d.twc := rfl
@[simp] theorem updMgmt_hmi (f : MgmtState → MgmtState) : (updMgmt f d).hmi = d.hmi := rfl
@[simp] theorem updMgmt_tlm (f : MgmtState → MgmtState) : (updMgmt f d).tlm = d.tlm := rfl
@[simp] theorem updMgmt_ledger (f : MgmtState → MgmtState) : (updMgmt f d).ledger = d.ledger := rfl
@[simp] theorem updMgmt_rsp (f : MgmtState → MgmtState) : (updMgmt f d).rsp = d.rsp := rfl
@[simp] theorem updMgmt_firsts (f : MgmtState → MgmtState) : (updMgmt f d).firsts = d.firsts := rfl
@[simp] theorem updMgmt_todo (f : MgmtState → MgmtState) : (updMgmt f d).todo = d.todo := rfl
@[simp] theorem updMgmt_fresh (f : MgmtState → MgmtState) : (updMgmt f d).fresh = d.fresh := rfl

end Sys2Proof.Machine
end

