-- ==== Sys2Proof/Laws/Ops.lean ====
section
/-! SUPPORT. Reads of registers, ledger words, cells and block states after writes. -/

namespace Sys2Proof.Machine

variable (d : Dev)

/-- A register word reads as it was written, in 32 bits. -/
@[simp] theorem rd_wr_same (k v : Nat) : rd (wr k v d) k = v % 2 ^ 32 := by
  simp [rd, wr, Map.get_set_same]

/-- A register write leaves every other word alone. -/
theorem rd_wr_other {k j : Nat} (v : Nat) (h : j ≠ k) : rd (wr k v d) j = rd d j := by
  simp [rd, wr, Map.get_set_other _ _ _ h]

/-- What a register write does to every word. -/
theorem rd_wr (k j v : Nat) : rd (wr k v d) j = if j = k then v % 2 ^ 32 else rd d j := by
  split
  · next e => subst e; simp
  · next e => exact rd_wr_other d v e

/-- Register words are of 32 bits. -/
theorem rd_lt (k : Nat) : rd d k < 2 ^ 32 := (Map.get (regDefault d.part) d.regs k).isLt

/-- A 64-bit register reads as it was written. -/
@[simp] theorem rd64_wr64_same (k v : Nat) : rd64 (wr64 k v d) k = v % 2 ^ 64 := by
  simp only [rd64, wr64]
  rw [rd_wr_other _ _ (show k ≠ k + 4 by omega), rd_wr_same, rd_wr_same]
  omega

/-- A 64-bit write leaves every other word alone. -/
theorem rd_wr64_other {k j : Nat} (v : Nat) (h : j ≠ k) (h4 : j ≠ k + 4) : rd (wr64 k v d) j = rd d j := by
  rw [wr64, rd_wr_other _ _ h4, rd_wr_other _ _ h]

/-- A register write keeps the canonical form of the register words. -/
theorem wr_wf (k v : Nat) (h : Map.wf (regDefault d.part) d.regs = true) :
    Map.wf (regDefault (wr k v d).part) (wr k v d).regs = true := Map.wf_set k _ h

/-- A ledger word reads as it was written. -/
theorem ledRd_ledWr (o p v : Nat) : ledRd (ledWr o v d) p = if p / 4 = o / 4 then v % 2 ^ 32 else ledRd d p := by
  simp only [ledRd, ledWr_ledger, Map.get_set]
  split <;> simp

/-- A write of the ledger RAM keeps its canonical form. -/
theorem ledWr_wf (o v : Nat) (h : Map.wf (fun _ => (0 : W32)) d.ledger = true) :
    Map.wf (fun _ => (0 : W32)) (ledWr o v d).ledger = true := Map.wf_set _ _ h

/-- No two cells stand at one place. -/
theorem cellPlace_inj (n m : Nat) : cellPlace d m = cellPlace d n ↔ m = n := by
  have row : ∀ k, cellPlace d k / 32 = k / 32 := by intro k; unfold cellPlace; split <;> omega
  refine ⟨fun h => ?_, fun h => h ▸ rfl⟩
  have hr : m / 32 = n / 32 := by rw [← row m, ← row n, h]
  have hp : m / 1024 = n / 1024 := by omega
  unfold cellPlace at h
  rw [hp] at h
  split at h <;> omega

/-- A yard cell reads as it was stored. -/
theorem getCell_putCell (n m : Nat) (c : Cell39) : getCell (putCell n c d) m = if m = n then c else getCell d m := by
  have h : getCell (putCell n c d) m =
      if cellPlace d m = cellPlace d n then c else Map.get (fun _ => goodCell 0) d.yard.cells (cellPlace d m) :=
    Map.get_set _ _ _ _ _
  rw [h]; simp only [cellPlace_inj, getCell]

/-- Storing a cell keeps the canonical form of the yard. -/
theorem putCell_wf (n : Nat) (c : Cell39) (h : Map.wf (fun _ => goodCell 0) d.yard.cells = true) :
    Map.wf (fun _ => goodCell 0) (putCell n c d).yard.cells = true := Map.wf_set _ _ h

/-- A stack line reads as it was stored. -/
theorem getLine_putLine (n m : Nat) (l : Line) : getLine (putLine n l d) m = if m = n then l else getLine d m :=
  Map.get_set _ _ _ _ _

/-- Storing a line keeps the canonical form of the stacks. -/
theorem putLine_wf (n : Nat) (l : Line) (h : Map.wf (fun _ => encodeLine 0 false) d.stk.lines = true) :
    Map.wf (fun _ => encodeLine 0 false) (putLine n l d).stk.lines = true := Map.wf_set _ _ h

/-- Local RAM keeps its canonical form. -/
theorem putLramCell_wf (n : Nat) (c : Cell39) (h : Map.wf (fun _ => goodCell 0) d.cores.lram = true) :
    Map.wf (fun _ => goodCell 0) (putLramCell n c d).cores.lram = true := Map.wf_set _ _ h

/-- Flash bytes keep their canonical form. -/
theorem setFlash_wf (o v : Nat) (h : Map.wf (fun _ => 0xFF) d.xsp.flash = true) :
    Map.wf (fun _ => 0xFF) (setFlash o v d).xsp.flash = true := Map.wf_set _ _ h

@[simp] theorem getTally_updTally_same (t : Nat) (f : Tally → Tally) : getTally (updTally t f d) t = f (getTally d t) := by
  simp [getTally, updTally, Map.get_upd]

theorem getTally_updTally_other {t u : Nat} (f : Tally → Tally) (h : u ≠ t) : getTally (updTally t f d) u = getTally d u := by
  simp [getTally, updTally, Map.get_upd, h]

@[simp] theorem getSem_updSem_same (k : Nat) (f : Sem → Sem) : getSem (updSem k f d) k = f (getSem d k) := by
  simp [getSem, updSem, Map.get_upd]

theorem getSem_updSem_other {k j : Nat} (f : Sem → Sem) (h : j ≠ k) : getSem (updSem k f d) j = getSem d j := by
  simp [getSem, updSem, Map.get_upd, h]

@[simp] theorem getCore_updCore_same (h : Nat) (f : Core → Core) : getCore (updCore h f d) h = f (getCore d h) := by
  simp [getCore, updCore, Map.get_upd]

theorem getCore_updCore_other {h j : Nat} (f : Core → Core) (n : j ≠ h) : getCore (updCore h f d) j = getCore d j := by
  simp [getCore, updCore, Map.get_upd, n]

@[simp] theorem getCmp_updCmp_same (n : Nat) (f : Cmp → Cmp) : getCmp (updCmp n f d) n = f (getCmp d n) := by
  simp [getCmp, updCmp, Map.get_upd]

theorem getCmp_updCmp_other {n m : Nat} (f : Cmp → Cmp) (h : m ≠ n) : getCmp (updCmp n f d) m = getCmp d m := by
  simp [getCmp, updCmp, Map.get_upd, h]

end Sys2Proof.Machine
end

