-- ==== Sys2Proof/Laws/Canonical.lean ====
section
/-! SUPPORT. What an operation keeps of the sparse contents: the canonical form, the part, the blown fuse bits and the flash.
One lemma for each primitive that writes a sparse content, and the composition of what two operations keep. -/

namespace Sys2Proof.Machine

/-- `e` keeps what every step keeps of `d`: canonical contents, the part, blown fuse bits, and the flash. -/
structure Keeps (d e : Dev) : Prop where
  wf    : canonical d = true → canonical e = true
  part  : e.part = d.part
  fuses : ∀ r, (fuseCopies d r).1 &&& (fuseCopies e r).1 = (fuseCopies d r).1 ∧
    (fuseCopies d r).2 &&& (fuseCopies e r).2 = (fuseCopies d r).2
  flash : e.xsp.flash = d.xsp.flash

variable {d e f : Dev}

theorem Keeps.refl (d : Dev) : Keeps d d := ⟨id, rfl, fun _ => ⟨Nat.and_self _, Nat.and_self _⟩, rfl⟩

/-- Bits that are kept twice are kept. -/
theorem and_kept {a b c : Nat} (h : a &&& b = a) (g : b &&& c = b) : a &&& c = a := by
  calc a &&& c = (a &&& b) &&& c := by rw [h]
    _ = a &&& (b &&& c) := Nat.and_assoc ..
    _ = a := by rw [g, h]

theorem Keeps.trans (h : Keeps d e) (g : Keeps e f) : Keeps d f :=
  ⟨fun x => g.wf (h.wf x), g.part.trans h.part,
    fun r => ⟨and_kept (h.fuses r).1 (g.fuses r).1, and_kept (h.fuses r).2 (g.fuses r).2⟩, g.flash.trans h.flash⟩

/-- What changes no sparse content and not the part keeps it all. -/
theorem Keeps.of_eq (hp : e.part = d.part) (hr : e.regs = d.regs) (hl : e.ledger = d.ledger) (hy : e.yard.cells = d.yard.cells)
    (ht : e.yard.tallies = d.yard.tallies) (hs : e.stk.lines = d.stk.lines) (hc : e.cores.lram = d.cores.lram)
    (hf : e.xsp.flash = d.xsp.flash) (hu : e.fus.rows = d.fus.rows) : Keeps d e := by
  refine ⟨fun h => ?_, hp, fun r => ?_, hf⟩
  · simpa only [canonical, hp, hr, hl, hy, ht, hs, hc, hf, hu] using h
  · simp only [fuseCopies, hu, Nat.and_self, and_self]

/-- Canonical contents, taken apart. -/
theorem canonical_parts : canonical d = true ↔
    Map.wf (regDefault d.part) d.regs = true ∧ Map.wf (fun _ => (0 : W32)) d.ledger = true ∧
    Map.wf (fun _ => goodCell 0) d.yard.cells = true ∧ Map.wf (fun _ => ({} : Tally)) d.yard.tallies = true ∧
    Map.wf (fun _ => encodeLine 0 false) d.stk.lines = true ∧ Map.wf (fun _ => goodCell 0) d.cores.lram = true ∧
    Map.wf (fun _ => 0xFF) d.xsp.flash = true ∧ Map.wf (fun _ => ((0, 0) : Nat × Nat)) d.fus.rows = true := by
  simp only [canonical, Bool.and_eq_true, and_assoc]

/-- A register write. -/
theorem Keeps.wr (k v : Nat) (d : Dev) : Keeps d (wr k v d) := by
  refine ⟨fun h => ?_, rfl, fun _ => ⟨Nat.and_self _, Nat.and_self _⟩, rfl⟩
  obtain ⟨h1, h2⟩ := canonical_parts.mp h
  exact canonical_parts.mpr ⟨wr_wf d k v h1, h2⟩

/-- Register words that are forgotten. -/
theorem Keeps.forget (p : Nat × W32 → Bool) (d : Dev) : Keeps d { d with regs := d.regs.filter p } := by
  refine ⟨fun h => ?_, rfl, fun _ => ⟨Nat.and_self _, Nat.and_self _⟩, rfl⟩
  obtain ⟨h1, h2⟩ := canonical_parts.mp h
  exact canonical_parts.mpr ⟨Map.wf_filter p h1, h2⟩

/-- A word of the ledger RAM. -/
theorem Keeps.ledWr (o v : Nat) (d : Dev) : Keeps d (ledWr o v d) := by
  refine ⟨fun h => ?_, rfl, fun _ => ⟨Nat.and_self _, Nat.and_self _⟩, rfl⟩
  obtain ⟨h1, h2, h3⟩ := canonical_parts.mp h
  exact canonical_parts.mpr ⟨h1, ledWr_wf d o v h2, h3⟩

/-- A cell of the yard. -/
theorem Keeps.putCell (n : Nat) (c : Cell39) (d : Dev) : Keeps d (putCell n c d) := by
  refine ⟨fun h => ?_, rfl, fun _ => ⟨Nat.and_self _, Nat.and_self _⟩, rfl⟩
  obtain ⟨h1, h2, h3, h4⟩ := canonical_parts.mp h
  exact canonical_parts.mpr ⟨h1, h2, putCell_wf d n c h3, h4⟩

/-- A tally. -/
theorem Keeps.updTally (t : Nat) (g : Tally → Tally) (d : Dev) : Keeps d (updTally t g d) := by
  refine ⟨fun h => ?_, rfl, fun _ => ⟨Nat.and_self _, Nat.and_self _⟩, rfl⟩
  obtain ⟨h1, h2, h3, h4, h5⟩ := canonical_parts.mp h
  exact canonical_parts.mpr ⟨h1, h2, h3, Map.wf_upd t g h4, h5⟩

/-- A line of stack memory. -/
theorem Keeps.putLine (n : Nat) (l : Line) (d : Dev) : Keeps d (putLine n l d) := by
  refine ⟨fun h => ?_, rfl, fun _ => ⟨Nat.and_self _, Nat.and_self _⟩, rfl⟩
  obtain ⟨h1, h2, h3, h4, h5, h6⟩ := canonical_parts.mp h
  exact canonical_parts.mpr ⟨h1, h2, h3, h4, putLine_wf d n l h5, h6⟩

/-- A cell of local RAM. -/
theorem Keeps.putLramCell (n : Nat) (c : Cell39) (d : Dev) : Keeps d (putLramCell n c d) := by
  refine ⟨fun h => ?_, rfl, fun _ => ⟨Nat.and_self _, Nat.and_self _⟩, rfl⟩
  obtain ⟨h1, h2, h3, h4, h5, h6, h7⟩ := canonical_parts.mp h
  exact canonical_parts.mpr ⟨h1, h2, h3, h4, h5, putLramCell_wf d n c h6, h7⟩

/-- Fuse bits that are blown. -/
theorem Keeps.blow (r a b : Nat) (d : Dev) : Keeps d (blow r a b d) := by
  refine ⟨fun h => ?_, rfl, fun q => ?_, rfl⟩
  · obtain ⟨h1, h2, h3, h4, h5, h6, h7, h8⟩ := canonical_parts.mp h
    exact canonical_parts.mpr ⟨h1, h2, h3, h4, h5, h6, h7, Map.wf_set _ _ h8⟩
  · simp only [fuseCopies, Sys2Proof.Machine.blow, Map.get_set]
    split
    · next e => subst e; constructor <;> (apply Nat.eq_of_testBit_eq; intro i; simp; exact Or.inl)
    · exact ⟨Nat.and_self _, Nat.and_self _⟩

/-- An operation done for each of a list keeps what each of them keeps. -/
theorem Keeps.foldl {α : Type} {g : Dev → α → Dev} (h : ∀ x d, Keeps d (g d x)) (xs : List α) (d : Dev) :
    Keeps d (xs.foldl g d) := by
  induction xs generalizing d with
  | nil => exact Keeps.refl d
  | cons x xs ih => exact (h x d).trans (ih _)

end Sys2Proof.Machine
end

