-- ==== Sys2Proof/Laws/Regs.lean ====
section
/-! SUPPORT. Keys of registers, register writes that land, and a module at rest. -/

namespace Sys2Proof.Machine

/-! ### Keys -/

/-- A page slot of a type's stride. -/
def slotOk (ty inst page : Nat) : Bool := decide (page < pagesPer ty) && decide (inst * pagesPer ty + page < 256)

theorem rk_off (ty inst page : Nat) {off : Nat} (ho : off < 0x1000) : keyOff (rk ty inst page off) = off := by
  unfold keyOff rk; omega

theorem rk_ty {ty inst page off : Nat} (h : slotOk ty inst page = true) (ho : off < 0x1000) : keyTy (rk ty inst page off) = ty := by
  simp only [slotOk, Bool.and_eq_true, decide_eq_true_eq] at h
  unfold keyTy rk
  omega

theorem rk_slot {ty inst page off : Nat} (h : slotOk ty inst page = true) (ho : off < 0x1000) :
    keySlot (rk ty inst page off) = inst * pagesPer ty + page := by
  simp only [slotOk, Bool.and_eq_true, decide_eq_true_eq] at h
  unfold keySlot rk
  omega

theorem rk_page {ty inst page off : Nat} (h : slotOk ty inst page = true) (ho : off < 0x1000) :
    keyPage (rk ty inst page off) = page := by
  unfold keyPage
  rw [rk_slot h ho, rk_ty h ho]
  simp only [slotOk, Bool.and_eq_true, decide_eq_true_eq] at h
  rw [Nat.mul_comm, Nat.mul_add_mod, Nat.mod_eq_of_lt h.1]

theorem rk_inst {ty inst page off : Nat} (h : slotOk ty inst page = true) (ho : off < 0x1000) :
    keyInst (rk ty inst page off) = inst := by
  unfold keyInst
  rw [rk_slot h ho, rk_ty h ho]
  simp only [slotOk, Bool.and_eq_true, decide_eq_true_eq] at h
  rw [Nat.mul_comm, Nat.mul_add_div (by omega), Nat.div_eq_of_lt h.1, Nat.add_zero]

/-- Every page of every instance has a slot. -/
theorem slotOk_of {p : Part} {ty inst page : Nat} (hi : inst < instances p ty) (hp : page < pagesPer ty) :
    slotOk ty inst page = true := by
  have hty : ty < 32 := by
    rcases Nat.lt_or_ge ty 32 with h | h
    · exact h
    · exfalso; unfold pagesPer at hp; split at hp <;> omega
  have hall : ∀ t < 32, instances p t * pagesPer t ≤ 256 := by cases p <;> decide
  have h1 := hall ty hty
  have h2 : (inst + 1) * pagesPer ty ≤ instances p ty * pagesPer ty := Nat.mul_le_mul_right _ hi
  simp only [slotOk, hp, decide_true, Bool.true_and, decide_eq_true_eq]
  rw [Nat.add_mul] at h2
  omega

theorem rk_mod4 (ty inst page : Nat) {off : Nat} (ho : off % 4 = 0) : rk ty inst page off % 4 = 0 := by
  unfold rk; omega

/-! ### Writes -/

@[simp] theorem leNat_leBytes (n x : Nat) : leNat (leBytes n x) = x % 256 ^ n := by
  induction n generalizing x with
  | zero => simp [leBytes, leNat]; omega
  | succ n ih =>
    simp only [leBytes, leNat, ih, BitVec.toNat_ofNat]
    rw [show (2 ^ 8 : Nat) = 256 from rfl, Nat.pow_succ, Nat.mul_comm (256 ^ n), Nat.mod_mul]

@[simp] theorem leBytes_length (n x : Nat) : (leBytes n x).length = n := by
  induction n generalizing x with
  | zero => rfl
  | succ n ih => simp [leBytes, ih]

/-- A write that a requester on the chip may make is carried out by the block. -/
theorem regCmd_lands {w : Who} {k v : Nat} {d : Dev} (hw : onChip w = true) (hk : k % 4 = 0)
    (hm : openFields (pageTouched w d) w k ≠ 0)
    (hb : blockRefuses (pageTouched w d) w k (v % 2 ^ 32) = false)
    (hc : attachCut (pageTouched w d) w (0x40000000 + k) = false) :
    regCmd w k v d = storeWord w (openFields (pageTouched w d) w k) k (v % 2 ^ 32) (touched w d) := by
  cases hq : writeMask (pageTouched w d) w k with
  | none => simp [openFields, hq] at hm
  | some m =>
    simp only [openFields, hq, Option.getD_some] at hm
    have hp : populated (pageTouched w d).part k = true := by
      cases hpp : populated (pageTouched w d).part k with
      | true => rfl
      | false => simp [writeMask, hpp] at hq; omega
    have hr : regWrite w k (leNat (leBytes 4 v)) (pageTouched w d)
        = (true, storeWord w m k (v % 2 ^ 32) (touched w d)) := by
      have e : (256 : Nat) ^ 4 = 2 ^ 32 := by decide
      simp only [regWrite, hq, leNat_leBytes, e]
      rw [if_neg (by simp [hp, hm]), hb, Nat.mod_mod]
      rfl
    have hwp : writePage (pageAcc w true (pageTouched w d)) k (leBytes 4 v) (pageTouched w d)
        = (.ok, storeWord w m k (v % 2 ^ 32) (touched w d)) := by
      simp only [writePage, leBytes_length, hk, pageAcc, decide_true, Bool.and_self, ↓reduceIte, hr]
    cases w with
    | host f => simp [onChip] at hw
    | _ => simp [regCmd, regPut, hc, hwp, openFields, hq]

/-- A row whose effect is `f`. -/
theorem effect_eq (f : Dev → Dev) (s : State) : effect f s = .next (s.ends (f s.begins)) := rfl

/-- A row that is a register write, by a requester that may make it. -/
theorem effect_regCmd {s : State} {w : Who} {k v : Nat} (h : mayPut s.begins w k v = true) (hk : k % 4 = 0) :
    effect (regCmd w k v) s = .next (s.ends
      (storeWord w (openFields (pageTouched w s.begins) w k) k (v % 2 ^ 32) (touched w s.begins))) := by
  simp only [mayPut, Bool.and_eq_true, bne_iff_ne, ne_eq, Bool.not_eq_true'] at h
  obtain ⟨⟨⟨h1, h2⟩, h3⟩, h4⟩ := h
  rw [effect_eq, regCmd_lands h1 hk h2 h3 h4]

end Sys2Proof.Machine
end

