-- ==== Sys2Proof/Laws/Rows.lean ====
section
/-! SUPPORT. What a row of the table comes to under its guards: register writes that act, rows of the depot, of the pins and
of the team, jobs whose inputs are read, instructions that are fetched, and the end of a command. -/

namespace Sys2Proof.Machine

variable {s : State} {d e : Dev}

/-! ### Rows -/

/-- A row answers what its effect makes of the module as it begins. -/
theorem effect_of {f : Dev → Dev} (h : f s.begins = e) : effect f s = .next (s.ends e) := by rw [effect_eq, h]

/-- Whatever its effect, a row settles a module and leaves the queue. -/
theorem effect_ends (f : Dev → Dev) (s : State) : ∃ d, effect f s = .next { s with dev := settle d } :=
  ⟨f s.begins, effect_eq f s⟩

/-- A row that nothing befalls on its way finds the module as it begins. -/
theorem onWay_clear (s : State) : onWay .clear s.begins = s.begins := rfl

/-- An engine whose inputs have all been read goes on to its outputs. -/
theorem afterLoad_ok {u : Nat} {l : Load} (d : Dev) (f : Dev → Dev) (h : l.ok = true) :
    afterLoad u l d f = f (poisonIn u l l.d) := by
  simp only [Load.ok, Bool.and_eq_true, Bool.not_eq_true'] at h
  simp [afterLoad, h.1, h.2]

/-- A row of a page that the part has acts on it. -/
theorem effect_onPage {ty inst page : Nat} {f : Dev → Dev} (hi : inst < instances s.begins.part ty) (hp : page < pagesPer ty) :
    effect (onPage ty inst page f) s = effect f s := by
  rw [effect_eq, effect_eq, onPage, if_pos (by simp [hp, hi])]

/-- A register write that acts: what its block makes of it. -/
theorem effect_block {w : Who} {k v : Nat} (h : mayPut s.begins w k v = true) (hk : k % 4 = 0)
    (ho : 0x040 ≤ keyOff k) (hy : ¬ (keyTy k = T.YRD ∧ keyPage k = 1 ∧ keyOff k = 0x050))
    (hb : blockWrite w (openFields (pageTouched w s.begins) w k) k (v % 2 ^ 32) (touched w s.begins) = some e) :
    effect (regCmd w k v) s = .next (s.ends e) := by
  rw [effect_regCmd h hk]
  have hst : storeWord w (openFields (pageTouched w s.begins) w k) k (v % 2 ^ 32) (touched w s.begins) = e := by
    unfold storeWord
    split
    · omega
    · omega
    · omega
    · omega
    · omega
    · simp only [hb]
      have h4 : ¬ keyOff k < 0x40 := by omega
      have hy' : (keyTy k = T.YRD && keyPage k = 1 && keyOff k = 0x050) = false := by simpa using hy
      simp only [hy']
      rw [if_neg h4]; simp
  rw [hst]

/-- With no error armed in the depot its operations go on (R295). -/
theorem metaCheck_clear (h0 : armed d T.DPT 0 0 0 = none) (h1 : armed d T.DPT 0 0 1 = none) : metaCheck d = (true, d) := by
  simp [metaCheck, h0, h1]

/-- A depot row with no error armed in the depot. -/
theorem depotDoes_clear {f : Dev → Dev} (h0 : armed s.begins T.DPT 0 0 0 = none) (h1 : armed s.begins T.DPT 0 0 1 = none) :
    depotDoes f s = effect f s := by
  unfold depotDoes
  rw [effect_eq, effect_eq]
  have : depotCheck f s.begins = f s.begins := by unfold depotCheck; simp [metaCheck_clear h0 h1]
  rw [this]

/-- What the depot does by itself with no error armed in it. -/
theorem depotActs_clear {f : Dev → Dev} (h0 : armed s.begins T.DPT 0 0 0 = none) (h1 : armed s.begins T.DPT 0 0 1 = none) :
    depotActs f s = effect f s := by
  unfold depotActs
  rw [effect_eq, effect_eq]
  have : depotTurn f s.begins = f s.begins := by
    unfold depotTurn
    split
    · next h => exact h.symm
    · unfold depotCheck; simp [metaCheck_clear h0 h1]
  rw [this]

/-- What comes over the pins while they are connected. -/
theorem overPins_open {f : Dev → Dev} (h : pinsCut d = false) : overPins f d = f d := by simp [overPins, h]

/-- What only a part with two I/O dies does. -/
theorem teamPart_two {f : Dev → Dev} (h : d.part.ioDies = 2) : teamPart f d = f d := by simp [teamPart, h]

/-! ### Instructions -/

/-- What `fetched` says, taken apart: the conditions, and the module once the word is kept. -/
theorem fetched_cases {h len w : Nat} (hf : fetched d h len = some (w, e)) :
    canIssue d h = true ∧ (getCore d h).pending.isSome = false ∧
    (breakHit d h && (getCore d h).mode ≠ .debugHalt) = false ∧
    (∃ e1, fetchWord h len d = (.ok (w, false), e1) ∧
      (if (getCore e1 h).loop.isSome then updCore h (fun c => c.keep c.pc w false) e1 else e1) = e) ∧
    reservedWord h (w % 2 ^ 32) = false ∧ armed e (coreTy h) (coreInst h) 0 3 = none := by
  unfold fetched at hf
  split at hf
  · rename_i hg
    simp only [Bool.and_eq_true, Bool.not_eq_true'] at hg
    obtain ⟨⟨h1, h2⟩, h3⟩ := hg
    split at hf
    · rename_i w' e1 hw
      generalize hx : (if (getCore e1 h).loop.isSome = true then updCore h (fun c => c.keep c.pc w' false) e1 else e1) = x at hf
      dsimp only at hf
      split at hf
      · rename_i hn
        simp only [Option.some.injEq, Prod.mk.injEq] at hf
        obtain ⟨rfl, rfl⟩ := hf
        simp only [Bool.and_eq_true, Bool.not_eq_true', Option.isNone_iff_eq_none] at hn
        refine ⟨h1, ?_, h3, ⟨e1, hw, hx⟩, hn⟩
        cases hp : (getCore d h).pending <;> simp_all
      · cases hf
    · cases hf
  · cases hf

/-- An instruction that is fetched whole is concluded. -/
theorem issue_fetched {h len : Nat} {f : Dev → CoreOut × Dev} {e2 : Dev} {w : Nat} {o : CoreOut}
    (hf : fetched d h len = some (w, e)) (hr : f e = (o, e2)) (ho : o ≠ .waits .far false) :
    issue h len f d = conclude h len w o e2 := by
  obtain ⟨h1, h2, h3, ⟨e1, hw, hx⟩, h4, _⟩ := fetched_cases hf
  unfold issue issuing
  rw [hw, h1, h2, h3]
  simp only [Bool.not_true, Bool.false_and, Bool.false_eq_true, if_false, h4, hx, hr, ho]

/-- No register parity error shows to an instruction that is fetched. -/
theorem regParity_fetched {h len w : Nat} (hf : fetched d h len = some (w, e)) (ss vs : List Nat) : regParity h ss vs e = e := by
  unfold regParity
  rw [(fetched_cases hf).2.2.2.2.2]

/-! ### The end of a command -/

@[simp] theorem settle_todo (d : Dev) : (settle d).todo = [] := rfl
@[simp] theorem settle_firsts (d : Dev) : (settle d).firsts = [] := rfl

/-- Alerts are read from registers and the boot. -/
theorem alertOn_of {d e : Dev} (hr : d.regs = e.regs) (hp : d.part = e.part) (hw : d.pwr = e.pwr) : alertOn d = alertOn e := by
  unfold alertOn alertPending typeAlert pageAlert rd
  rw [hr, hp, hw]

/-- Ending alert-driven requests changes no alert. -/
theorem alertOn_alertsOver (d : Dev) : alertOn (alertsOver d) = alertOn d := alertOn_of rfl rfl rfl

/-- A change of one core leaves the interrupt sources of every other. -/
theorem pendingEnabled_updCore_other {h j : Nat} (f : Core → Core) (d : Dev) (n : j ≠ h) :
    pendingEnabled (updCore h f d) j = pendingEnabled d j := by
  unfold pendingEnabled pendingBits
  rw [getCore_updCore_other d f n, alertOn_of (d := updCore h f d) (e := d) rfl rfl rfl]
  rfl

end Sys2Proof.Machine
end

