-- ==== Sys2Proof/WellFormed.lean ====
section
/-! DEFINITION. Well-formed commands: operands within the bounds that the manual gives them, where the operand's type does
not already say so. -/

namespace Sys2Proof

open Sys2Proof.Machine

/-- A block type that has pages, and a page number that each of its instances has (R50). -/
def hasPage (ty page : Nat) : Bool := decide (page < pagesPer ty)

/-- What befalls a request names a link of the mesh (R177). -/
def mishapOk : Mishap → Bool
  | .link n => linkExists n.val
  | .reply (.link n) => linkExists n.val
  | _ => true

/-- Turntable element sizes are 8, 16 and 32 bits (R147). -/
def elemOk (e : Nat) : Bool := e = 8 || e = 16 || e = 32

/-- A unit that takes waybills from the depot (R28): coaches, CTL1 to CTL3 and the ten vision engines. -/
def targetOk (u : Nat) : Bool := decide (u < 0x40) || (decide (0x41 ≤ u) && decide (u < 0x44)) || (decide (0x48 ≤ u) && decide (u < 0x52))

/-- Who a tally watch may be for: a slot of a queue, a core, or a graph slot. -/
def watchForOk : WatchFor → Bool
  | .waybill q _ => decide (q < 65536)
  | .core u => decide (u < 68)
  | .graph g => decide (g < 64)

/-- The distinct entries of a list. -/
def distinct : List Nat → Bool
  | [] => true
  | x :: xs => !xs.contains x && distinct xs

/-- A list of between `lo` and `hi` entries. -/
def sized {α : Type} (lo hi : Nat) (xs : List α) : Bool := decide (lo ≤ xs.length) && decide (xs.length ≤ hi)

/-- Whether a command's operands are within the bounds the manual gives them. -/
def Instr.wf (i : Instr) : Bool :=
  match i with
  | .stickyClear _ ty _ page _ => hasPage ty.val page.val
  | .injectArm _ ty _ page _ _ => hasPage ty.val page.val
  | .unitReset _ ty _ => hasPage ty.val 0
  | .unitResetComplete ty _ => hasPage ty.val 0
  | .stableReq _ ty _ => hasPage ty.val 0
  | .probationReq _ ty _ => hasPage ty.val 0
  | .enableWrite _ ty _ _ => hasPage ty.val 0
  | .ownerWrite _ ty _ _ => hasPage ty.val 0
  | .domainMeasure khz _ _ => sized 14 14 khz
  | .yardRead _ _ _ cells elem _ mishap _ => decide (1 ≤ cells.val) && elemOk elem.val && mishapOk mishap
  | .yardWrite _ _ bytes mishap _ _ => sized 1 128 bytes && mishapOk mishap
  | .tallyWatchRegister _ _ waiter => watchForOk waiter
  | .stackRead _ _ len _ mishap _ _ _ => decide (1 ≤ len.val) && mishapOk mishap
  | .stackWrite _ _ bytes mishap _ _ => sized 1 4096 bytes && mishapOk mishap
  | .slottedStart unit => targetOk unit.toNat
  | .waybillEnd unit mishap => targetOk unit.toNat && mishapOk mishap
  | .duplicateAbandon unit => targetOk unit.toNat
  | .csiLongPacket _ _ _ payload _ _ _ _ mishap => sized 0 65535 payload && mishapOk mishap
  | .hostLinkUp width rate => linkFits width.val rate.val
  | .pmbusTransactionDone status _ _ => decide (status.toNat ≤ 6)
  | .warmResetSweepDone status => decide (status.toNat ≤ 6)
  | .bypass opcode => TapIr.ofOpcode opcode.toNat = .bypass
  | .uartRead line => line.head? ≠ some 87 && line.head? ≠ some 73
  | .uartWrite line => line.head? = some 87
  | .uartIdent line => line.head? = some 73
  | .bootImageCheck _ (some n) => 1 ≤ n.toNat
  | .xcheckRoundDone odd => distinct (odd.map (·.1.val))
  | .marginProbe margins => sized 16 16 margins
  | .agingMeasure ppm => sized 64 64 ppm
  | .hostBar0Access _ _ wide write _ mishap => mishapOk mishap &&
    (match write with
     | some v => wide || decide (v.toNat < 2 ^ 32)
     | none => true)
  | .hostBar2Enqueue _ _ _ _ mishap => mishapOk mishap
  | .hostBar4Read _ _ len mishap => decide (1 ≤ len.val) && mishapOk mishap
  | .hostBar4Write _ _ bytes _ mishap => sized 1 4096 bytes && mishapOk mishap
  | .load _ _ _ _ _ mishap _ => mishapOk mishap
  | .store _ _ _ _ _ mishap => mishapOk mishap
  | .amoAdd _ _ _ _ _ mishap => mishapOk mishap
  | .amoAnd _ _ _ _ _ mishap => mishapOk mishap
  | .amoOr _ _ _ _ _ mishap => mishapOk mishap
  | .amoSwap _ _ _ _ _ mishap => mishapOk mishap
  | .amoCas _ _ _ _ _ mishap => mishapOk mishap
  | .amoMin _ _ _ _ _ mishap => mishapOk mishap
  | .amoMax _ _ _ _ _ mishap => mishapOk mishap
  | .amoMinu _ _ _ _ _ mishap => mishapOk mishap
  | .amoMaxu _ _ _ _ _ mishap => mishapOk mishap
  | .counterReadClear _ _ _ mishap => mishapOk mishap
  | .highWordLatch _ _ mishap => mishapOk mishap
  | .registerWrite _ _ _ _ mishap => mishapOk mishap
  | .tallyIncrement mishap => mishapOk mishap
  | .semSignal _ _ _ _ _ mishap => mishapOk mishap
  | .semWait _ _ _ _ _ mishap => mishapOk mishap
  | .semAcquire _ _ _ _ _ mishap => mishapOk mishap
  | .semRelease _ _ _ _ _ mishap => mishapOk mishap
  | .lockReap _ _ mishap => mishapOk mishap
  | .vld _ _ _ mishap => mishapOk mishap
  | .vst _ _ _ mishap => mishapOk mishap
  | .ststart _ _ mishap => mishapOk mishap
  | .stwait _ _ mishap => mishapOk mishap
  | .streamComplete _ _ mishap => mishapOk mishap
  | .enqueueWindowWrite _ _ _ mishap => mishapOk mishap
  | .placement mishap => mishapOk mishap
  | .backingRetry mishap => mishapOk mishap
  | .frameCloseDrained _ _ mishap => mishapOk mishap
  | .frameRecordDone _ _ mishap => mishapOk mishap
  | .engineJobStart _ mishap => mishapOk mishap
  | .pyrJob _ _ mishap => mishapOk mishap
  | .wrpJob _ _ mishap => mishapOk mishap
  | .strJob _ _ mishap => mishapOk mishap
  | .flwJob _ _ mishap => mishapOk mishap
  | .ftrDetect _ _ mishap => mishapOk mishap
  | .ftrMatch _ _ mishap => mishapOk mishap
  | .graphLoad _ mishap => mishapOk mishap
  | .graphStart _ _ mishap => mishapOk mishap
  | .fgsBackingRetry mishap => mishapOk mishap
  | .digestCheckDone mishap => mishapOk mishap
  | .yardScrubRow _ mishap => mishapOk mishap
  | .tlmRecord mishap => mishapOk mishap
  | .tlmSnapshot mishap => mishapOk mishap
  | .outboundRead _ _ len => decide (1 ≤ len.val)
  | .outboundReadComplete _ _ bytes => sized 0 4096 bytes
  | .outboundWrite _ _ bytes => sized 1 4096 bytes
  | .mgmtWrite _ _ words _ => sized 0 64 words
  | .listRead _ _ _ bytes => sized 0 16 bytes
  | .addrRetry _ _ _ bytes => sized 0 16 bytes
  | .arbLostRetry _ _ _ bytes => sized 0 16 bytes
  | .touchScan raws _ _ => sized 8 8 raws
  | .xspCmdDone _ bytes => sized 0 256 bytes
  | _ => true

end Sys2Proof
end

