-- ==== Sys2Proof/Tests/Slice0.lean ====
section
/-! SUPPORT. The model's own tests: an ill-formed command for each check of well-formedness, published check values, and for
each statement of the certificates with hypotheses one theorem that shows states and operands which meet them, clause by
clause. -/

namespace Sys2Proof.Tests

open Sys2Proof.Machine

-- the theorems are evaluated one after another, which needs less memory
set_option Elab.async false

/-- The module right after reset, as a command finds it. -/
def base : Dev := State.reset.begins

/-- A requester of compartment 0: CTL0. -/
def sup : Who := .ctl 0

/-- The module in RUN, all rails up. -/
def live : Dev :=
  { base with
    clk := { base.clk with locked := true }
    pwr := { base.pwr with state := .run, pg := 255, vrEn := 255, endpoint := true } }

/-- The module in SEQ_UP, the wait after a rail's PG over to come. -/
def rising (rail : Nat) (wait : Bool) : Dev := { base with pwr := { base.pwr with rail := rail, railWait := wait, vrEn := 255 } }

/-- REF has been declared lost. -/
def lostRef : Dev := { base with clk := { base.clk with lost := true, locked := false, relocking := true } }

/-- The tick stands at `n`. -/
def atTick (n : Nat) (d : Dev) : Dev := wr64 kTick n d

/-! ### Well-formedness: an ill-formed command for each check, which the check refuses -/

theorem test_wf_pages :
    (Instr.stickyClear sup 0x0D 0 1 0).wf = false ∧ (Instr.injectArm sup 0x0D 0 1 0 0).wf = false ∧
    (Instr.unitReset sup 0 0).wf = false ∧ (Instr.unitResetComplete 0 0).wf = false ∧ (Instr.stableReq sup 0 0).wf = false ∧
    (Instr.probationReq sup 0 0).wf = false ∧ (Instr.enableWrite sup 0 0 true).wf = false ∧
    (Instr.ownerWrite sup 0 0 0).wf = false ∧ (Instr.stickyClear sup 0x0D 0 0 0).wf = true := by decide

theorem test_wf_units :
    (Instr.slottedStart 0x40).wf = false ∧ (Instr.waybillEnd 0x44 .clear).wf = false ∧ (Instr.duplicateAbandon 0x52).wf = false ∧
    (Instr.slottedStart 0x51).wf = true ∧ (Instr.tallyWatchRegister 0 0 (.core 68)).wf = false ∧
    (Instr.tallyWatchRegister 0 0 (.graph 64)).wf = false ∧ (Instr.tallyWatchRegister 0 0 (.waybill 65536 0)).wf = false := by
  decide

theorem test_wf_accesses :
    (Instr.yardRead sup 0 .row 0 8 0 .clear 0).wf = false ∧ (Instr.yardRead sup 0 .row 1 7 0 .clear 0).wf = false ∧
    (Instr.yardRead sup 0 .row 1 8 0 (.link 14) 0).wf = false ∧ (Instr.yardRead sup 0 .row 1 8 0 (.link 16) 0).wf = true ∧
    (Instr.yardWrite sup 0 [] .clear false 0).wf = false ∧ (Instr.yardWrite sup 0 [0] (.link 14) false 0).wf = false ∧
    (Instr.stackRead sup 0 0 false .clear 0 0 0).wf = false ∧ (Instr.stackWrite sup 0 [] .clear false 0).wf = false ∧
    (Instr.load 0 1 0 3 0 (.link 14) 0).wf = false ∧ (Instr.store 0 1 0 3 0 (.link 14)).wf = false ∧
    (Instr.amoCas 0 1 2 3 true (.link 14)).wf = false ∧ (Instr.counterReadClear sup 0 false (.link 14)).wf = false ∧
    (Instr.highWordLatch sup 0 (.link 14)).wf = false ∧ (Instr.load 0 1 0 3 0 (.link 16) 0).wf = true := by decide

theorem test_wf_host :
    (Instr.hostBar0Access 0 0 false (some 0x100000000) false .clear).wf = false ∧
    (Instr.hostBar0Access 0 0 true none false (.link 14)).wf = false ∧
    (Instr.hostBar2Enqueue 0 0 none false (.link 14)).wf = false ∧ (Instr.hostBar4Read 0 0 0 .clear).wf = false ∧
    (Instr.hostBar4Write 0 0 [] false .clear).wf = false ∧ (Instr.outboundRead sup 0 0).wf = false ∧
    (Instr.outboundReadComplete sup true (List.replicate 4097 0)).wf = false ∧ (Instr.outboundWrite sup 0 []).wf = false := by
  decide +kernel

theorem test_wf_lists :
    (Instr.domainMeasure [] 0 0).wf = false ∧ (Instr.csiLongPacket 0 0 0 (List.replicate 65536 0) true 0 false false .clear).wf = false ∧
    (Instr.xcheckRoundDone [(5, 0), (5, 1)]).wf = false ∧ (Instr.marginProbe []).wf = false ∧ (Instr.agingMeasure []).wf = false ∧
    (Instr.mgmtWrite 0 65 (List.replicate 65 0) .whole).wf = false ∧ (Instr.listRead 0 .free .done (List.replicate 17 0)).wf = false ∧
    (Instr.addrRetry 0 .free .done (List.replicate 17 0)).wf = false ∧
    (Instr.arbLostRetry 0 .free .done (List.replicate 17 0)).wf = false ∧ (Instr.touchScan [] false false).wf = false ∧
    (Instr.xspCmdDone 0 (List.replicate 257 0)).wf = false := by decide +kernel

/-! ### Decoding and checks with published values -/

/-- No row of the opcode table has bits, so no word spells a command. -/
theorem test_no_word_spells_a_command : decodeTableWord 8 0 = none ∧ decodeTableWord 32 0xFFFFFFFF = none := by decide

/-- The bytes "123456789". -/
def digits : List Byte := [0x31, 0x32, 0x33, 0x34, 0x35, 0x36, 0x37, 0x38, 0x39]

/-- The published check values of CRC-32C, of the SMBus CRC-8 and of the reflected CRC-64 of R461. -/
theorem test_crc_check_values : crc32c digits = 0xE3069283 ∧ crc8 digits = 0xF4 ∧ crc64 digits = 0x995DC9BBDF1939FA := by
  decide +kernel

/-! ### Registers, clocks, the governor, power and reset -/

theorem witness_PlainRegisterWriteCompletes :
    regKey (0x4020004C % 2 ^ 46) = some 0x20004C ∧ toward base sup 0x4020004C = .here ∧ 0x20004C % 4 = 0 ∧
    0x040 ≤ keyOff 0x20004C ∧ ¬ (keyTy 0x20004C = T.YRD ∧ keyPage 0x20004C = 1 ∧ keyOff 0x20004C = 0x050) ∧
    (∀ m e, blockWrite sup m 0x20004C (77 % 2 ^ 32) e = none) ∧ mayPut base sup 0x20004C 77 = true :=
  ⟨by decide, by decide, by decide, by decide, by decide, fun _ _ => rfl, by decide⟩

theorem witness_HeaderRowsComplete :
    (0 < instances base.part T.PYR ∧ 0 < pagesPer T.PYR ∧ ownSticky T.PYR 0 = true ∧
      mayPut base sup (rk T.PYR 0 0 0x010) 5 = true) ∧
    (canInject T.PYR 0 1 = true ∧ T.PYR ≠ T.HMI ∧ mayPut base sup (rk T.PYR 0 0 0x01C) (2 ^ 31 + 65536 + 3) = true) ∧
    ((capBits T.PYR 0).testBit 1 = true ∧ mayPut base sup (kOWNER T.PYR 0) 15 = true) ∧
    (mayPut base sup (kCTRL T.PYR 0) 1 = true ∧ enabled (touched sup base) T.PYR 0 = false) ∧
    (unitPage 0x48 = (T.PYR, 0) ∧ mayPut base sup (kCTRL T.PYR 0) (ctrlWord base T.PYR 0 2) = true ∧
      enabled (touched sup base) T.PYR 0 = enabled base T.PYR 0 ∧ rdB (touched sup base) (kCTRL T.PYR 0) 1 = false) ∧
    (unitCode T.PYR 0 = some 0x48 ∧ mayPut base sup (kCTRL T.PYR 0) (ctrlWord base T.PYR 0 4) = true ∧
      codeState (touched sup base) 0x48 ≠ .stabled) ∧
    (let d := setUnitState T.PYR 0 .stabled base
     mayPut d sup (kCTRL T.PYR 0) (ctrlWord d T.PYR 0 8) = true ∧ codeState (touched sup d) 0x48 = .stabled) ∧
    (let d := setUnitState T.PYR 0 .resetting (wrB (kCTRL T.PYR 0) 1 true base)
     rdB d (kCTRL T.PYR 0) 1 = true ∧ unitState d T.PYR 0 = .resetting) := by decide

theorem witness_RegisterReadsComplete :
    (regKey (0x40201048 % 2 ^ 46) = some 0x201048 ∧ toward base sup 0x40201048 = .here ∧ 0x201048 % 4 = 0 ∧ onChip sup = true ∧
      runsOn 0x201048 = false ∧ isCtrEntry 0x201048 = false ∧
      attachCut (pageTouched sup base) sup (0x40000000 + 0x201048) = false ∧
      populated (pageTouched sup base).part 0x201048 = true ∧ mayRead (pageTouched sup base) sup 0x201048 = true ∧
      latchOf (touched sup base) sup = none ∧ keyTy 0x201048 ≠ T.INT ∧ keyTy 0x201048 ≠ T.TWC ∧
      looseMask (touched sup base) 0x201048 = 0 ∧ (accOf 0x201048).rc = true ∧ wideLow 0x201048 = false) ∧
    (regKey (0x40200050 % 2 ^ 46) = some 0x200050 ∧ toward base sup 0x40200050 = .here ∧ runsOn 0x200050 = false ∧
      isCtrEntry 0x200050 = false ∧ populated (pageTouched sup base).part 0x200050 = true ∧ keyTy 0x200050 ≠ T.INT ∧
      keyTy 0x200050 ≠ T.TWC ∧
      attachCut (pageTouched sup base) sup (0x40000000 + 0x200050) = false ∧ mayRead (pageTouched sup base) sup 0x200050 = true ∧
      looseMask (touched sup base) 0x200050 = 0 ∧ wideLow 0x200050 = true ∧ (accOf 0x200050).rc = false ∧
      looseMask (touched sup base) 0x200054 = 0) := by decide

theorem witness_ClockRowsComplete :
    (base.clk.lost = false ∧ base.clk.refPresent = true) ∧
    (lostRef.clk.lost = true ∧ lostRef.clk.stopped = false ∧ lostRef.clk.injectEnd = none ∧ lostRef.clk.relocking = true) ∧
    (mayPut lostRef sup (rk T.CLK 0 0 0x040) (setBit (rd lostRef (rk T.CLK 0 0 0x040)) 9) = true ∧
      (touched sup lostRef).clk.lost = true) ∧
    ((781640 - 781250 : Int).natAbs * 1000000 ≤ 500 * 781250) := by decide

/-- A graph window whose slack is large, with the governor enabled in automatic mode on a one-die part, and an evaluation
due. -/
def governed : Dev :=
  atTick 100000 (wr64 (kV 0 0x060) 1 (wr (kV 0 0x040) 1 (wr (kV 0 0x050) 10 (wrB (kCTRL T.GOV 0) 0 true
    { base with part := .vm4_41, gov := { base.gov with windows := [(0, [0])], vcmd := 750 } }))))

/-- The governor's port is free, and a voltage command is due. -/
def commanding : Dev :=
  wrB (kCTRL T.GOV 0) 0 true { live with gov := { live.gov with next := some (760, false) } }

theorem witness_GovernorRowsComplete :
    (enabled governed T.GOV 0 = true ∧ governed.part.ioDies = 1 ∧ govAuto governed = true ∧ evalDue governed = true ∧
      (match pressure (thermalStep (updGov (fun g => { g with evaled := tick governed }) governed)) with
       | some p => decide (p < toSigned 16 (rdF governed (kV 0 0x050) 15 0))
       | none => false) = true) ∧
    (let d := { base with gov := { base.gov with settle := some 0 } }
     0 ≤ tick d) ∧
    (pinsCut commanding = false ∧ govFree commanding = true ∧ (twPort commanding 1).mode ≠ .stuck ∧
      voutDue commanding = true ∧ pageEn commanding = false) ∧
    (let d := wrB (kV 1 0x040) 10 true commanding
     govFree d = true ∧ pageEn d = true ∧ d.gov.paged = false ∧ (voutDue d || d.gov.reading) = true) ∧
    (let d := { commanding with gov := { commanding.gov with next := none, reading := true } }
     govFree d = true ∧ d.gov.reading = true ∧ pageEn d = false) ∧
    (let d := { base with gov := { base.gov with txn := some (.vout 760 false) } }
     pinsCut d = false ∧ armed d T.TWC 1 0 0 = none ∧ armed d T.GOV 0 0 0 = none) ∧
    armed commanding T.TWC 1 0 3 = none ∧
    (mayPut base sup (kV 0 0x040) (setBit (rd base (kV 0 0x040)) 10) = true ∧ mayPut base sup (kV 0 0x040) 1 = true ∧
      mayPut base sup (kV 0 0x05C) 800 = true ∧ govAuto (touched sup (wr (kV 0 0x040) 0 base)) = false) ∧
    ((tjSensors governed.part).contains 3 = true ∧ govAuto governed = true ∧ enabled governed T.GOV 0 = true ∧
      (let e := wr (kV 1 (0x060 + 4 * 3)) 320 governed
       (tjMax e).2 < 16 * throtOn e)) := by decide +kernel

theorem witness_PowerRowsComplete :
    (let d := wr (kV 1 0x060) 1760 live
     d.pwr.state = .run ∧ (tjSensors d.part).contains 0 = true ∧ 110 * 16 ≤ tjOf d 0) ∧
    (let d := { base with pwr := { base.pwr with state := .off } }
     d.pwr.state = .off) ∧
    ((rising 6 false).pwr.vrEn.testBit 6 = true ∧ (rising 6 false).pwr.state = .seqUp ∧ (rising 6 false).pwr.rail = 6 ∧
      (rising 6 false).pwr.railWait = false ∧ (rising 6 false).pwr.state = .seqUp) ∧
    ((rising 6 true).pwr.railWait = true ∧ (rising 6 true).pwr.rail < 7 ∧ 7 ≤ (rising 7 true).pwr.rail) ∧
    (live.pwr.pg.testBit 7 = true ∧ live.pwr.state = .run) ∧
    (let d := { live with pwr := { live.pwr with state := .seqDown, goal := .retry } }
     d.pwr.state = .seqDown ∧ d.pwr.goal ≠ .dormant ∧ d.pwr.pinLatched = false) ∧
    (let d := { live with pwr := { live.pwr with state := .seqDown, goal := .dormant } }
     d.pwr.state = .seqDown ∧ d.pwr.goal = .dormant ∧ d.pwr.pinLatched = false ∧ d.pwr.wakeLatched = false) ∧
    (let d := { live with pwr := { live.pwr with state := .retry, longRetry := true } }
     d.pwr.state = .retry ∧ d.pwr.longRetry = true) ∧
    (let d := { live with pwr := { live.pwr with state := .retry } }
     d.pwr.state = .retry ∧ d.pwr.longRetry = false) ∧
    (live.pwr.strapped = false ∧ live.pwr.pg.testBit 0 = true) ∧
    (let d := { live with clk := lostRef.clk }
     d.pwr.pg.testBit 3 = true ∧ d.clk.lost = true) ∧
    (live.pwr.pg.testBit 3 = true ∧ live.clk.lost = false) ∧
    (∀ st ∈ [PowerState.run, .dormant],
      let d := wr (kAon 0 0x050) 3 (wr64 (kAon 0 0x048) 9 (wr64 (kAon 0 0x040) 9 { live with pwr := { live.pwr with state := st } }))
      rd64 d (kAon 0 0x048) ≠ 0 ∧ rd64 d (kAon 0 0x040) = rd64 d (kAon 0 0x048) ∧ d.pwr.state = st ∧
        bit (rd d (kAon 0 0x050)) 0 = true ∧ bit (rd d (kAon 0 0x050)) 1 = true ∧ ∀ i < 23, (hmiIn d i).rose = false) ∧
    (∀ n ∈ [0, 2, 3], ∀ wait ∈ [false, true],
      let d := { rising 5 wait with pwr := { (rising 5 wait).pwr with retries := n, pg := 255 } }
      d.pwr.state = .seqUp ∧ d.pwr.railWait = wait ∧ d.pwr.retries = n ∧ d.pwr.pg.testBit 5 = true) := by decide

theorem witness_ResetRowsComplete :
    (live.pwr.state = .run ∧ live.pwr.warm = .idle) ∧
    (∀ g ∈ [PowerState.retry, .dormant],
      let d := { live with pwr := { live.pwr with state := .seqDown, goal := g } }
      d.pwr.state = .seqDown ∧ d.pwr.goal = g) ∧
    (let d := { live with pwr := { live.pwr with warm := .heldLow } }
     d.pwr.state = .run ∧ d.pwr.warm = .heldLow ∧ d.pwr.testEn = false ∧ d.pwr.resetLow = false) ∧
    (let d := { live with pwr := { live.pwr with state := .hold, resetLow := true } }
     d.pwr.state = .hold ∧ d.pwr.resetLow = true) ∧
    (mayPut live sup (kSys 0 0x048) (0xA5 * 256 + 1) = true ∧ mayPut live sup (kSys 0 0x048) (0x5A * 256 + 1) = true ∧
      mayPut live sup (kSys 0 0x048) (0xA5 * 256 + 2) = true) ∧
    (let d := { live with pwr := { live.pwr with warm := .sweep } }
     d.pwr.warm = .sweep) ∧
    (let d := { live with pwr := { live.pwr with warm := .vout } }
     d.pwr.warm = .vout) ∧
    (live.pwr.perstLow = false ∧ live.pwr.state = .run) ∧
    (mayPut live sup (kSys 0 0x058) 0x4B = true) ∧
    (let d := wr (kSys 0 0x05C) 0 (wr (kSys 0 0x054) 5 live)
     wdtPeriod d ≠ 0 ∧ rdF d (kSys 0 0x05C) 31 16 = 0 ∧ (getCore d 64).mode ≠ .debugHalt ∧ rdB d (kSys 0 0x05C) 0 = false) ∧
    (let d := wr (kSys 0 0x05C) 1 (wr (kSys 0 0x054) 5 live)
     wdtPeriod d ≠ 0 ∧ rdF d (kSys 0 0x05C) 31 16 = 0 ∧ (getCore d 64).mode ≠ .debugHalt ∧ rdB d (kSys 0 0x05C) 0 = true) := by
  decide

/-- The straps name boot source `n`. -/
def strapped (n : Nat) : Dev := wr (kSys 0 0x044) (n * 32) live

theorem witness_ResetRowsComplete_boot :
    (getCore live 64).mode ≠ .debugHalt ∧
    (live.pwr.state = .run ∧ live.pwr.warm = .idle ∧ live.pwr.boot = .idle ∧ (live.clk.locked || live.clk.holdover) = true ∧
      live.pwr.bootCount < 3 ∧ bootSrc (strapped 1) = 1 ∧ bootSrc (strapped 3) = 3 ∧ bootSrc (strapped 0) ≠ 1 ∧
      bootSrc (strapped 0) ≠ 3) ∧
    (let d := { live with pwr := { live.pwr with warmed := true, bootCount := 3 } }
     d.pwr.boot = .idle ∧ d.pwr.warmed = true ∧ 3 ≤ d.pwr.bootCount) ∧
    (let d := { live with pwr := { live.pwr with boot := .host } }
     mayPut d sup (kSys 0 0x060) 0x3E100 = true ∧ (touched sup d).pwr.boot = .host) ∧
    (let d := atTick 10000000 { strapped 2 with pwr := { live.pwr with boot := .host } }
     d.pwr.boot = .host ∧ d.pwr.loaded = false ∧ d.pwr.perstLow = false ∧ bootSrc d = 2 ∧ d.pwr.hostSince + 10000000 ≤ tick d) ∧
    (let d := { live with pwr := { live.pwr with boot := .primary } }
     d.pwr.boot = .primary) := by decide

/-! ### The yard and the cores -/

/-- Page 0 of the yard is a region of compartment 0 with every right, in cluster 0, which is enabled. -/
def yarded : Dev :=
  wrB (kCTRL T.YRD 0) 0 true { live with yard := { live.yard with
    pages := [(0, { valid := true, clean := false })]
    descs := [(0, { w0 := 2 ^ 63 + 2 ^ 56 + 2 ^ 55 + 2 ^ 54 + 0x10000 })] } }

/-- CTL0 runs its resident program from the start of its local RAM. -/
def ctlRuns (c : Core) : Dev :=
  { yarded with cores := {
      cores := [(64, { c with mode := .running, super := true, resident := true, pc := lramBase, ssp := lramBase + 0x1000 })]
      lram := [(0, goodCell 0x11), (1, goodCell 0x22)] } }

/-- Coach 0 runs code in page 0 of the yard. -/
def coachRuns (c : Core) : Dev := { yarded with cores := { cores := [(0, { c with mode := .running })] } }

/-- What holds of the word that core `h` issues and of the module once it is fetched. -/
def issues (h len : Nat) (d : Dev) (p : Dev → Bool) : Bool := match fetched d h len with
  | some (_, e) => p e
  | none => false

/-- A read that answers data. -/
def isData : ReadOut → Bool
  | .data _ => true
  | _ => false

/-- A read of a core that answers data without poison. -/
def brings : CoreRead → Bool
  | .data bs => !bs.any (·.2)
  | _ => false

/-- A posted write of coach 0 in flight. -/
def flying (st : FlightState) (posted : Bool) : Flight := ⟨.coach 0, 0, 0, 0, 0, posted, st, 0, false⟩

theorem witness_YardAccessRowsComplete :
    (isData (ttRead { who := .coach 0, cmp := cmpOf yarded (.coach 0), unit := 0 } 0 .linear 2 32 1 yarded).1 = true ∧
      0 < yardEnd ∧ toward yarded (.coach 0) 0 = .here ∧ ttShape (.coach 0) .linear 2 32 1 = true) ∧
    (clusterParts 0 2 = [(0, 2)] ∧ (memWrite { who := .coach 0, cmp := cmpOf yarded (.coach 0), write := true, unit := 0 } 0 [1, 2]
      (ringRefused (.coach 0) 0 0 yarded)).1 = .ok) ∧
    (takeFlight (fun f => f.who = .coach 0 && f.posted && f.st = .acked) [flying .pending false, flying .acked true]
      = (some (flying .acked true), [flying .pending false])) ∧
    ((Who.coach 0).isHost = false ∧ (flying (.failed .bounds) true).posted = true) ∧
    (let d := atTick 100000 yarded
     (flying .pending false).since + rdF d (rk T.TPK 0 0 0x044) 15 0 ≤ tick d) ∧
    ({ yarded with net := { yarded.net with expired := [Who.coach 0] } }.net.expired.contains (.coach 0) = true) := by decide

theorem witness_AtomicRowsComplete :
    (AmoOp.cas, Instr.amoCas) ∈ [(AmoOp.add, Instr.amoAdd), (.and, .amoAnd), (.or, .amoOr), (.swap, .amoSwap), (.cas, .amoCas),
      (.min, .amoMin), (.max, .amoMax), (.minu, .amoMinu), (.maxu, .amoMaxu)] ∧
    issues 64 4 (ctlRuns { s := [(2, 8), (3, 5)] }) (fun e0 =>
      let e := onWay .clear e0
      let x := (getCore e 64).sReg 2
      plainRun e 64 && !x.2 && !((getCore e 64).sReg 3).2 && !((getCore e 64).sReg 0).2 && decide (x.1 % 8 = 0) &&
        toward e (coreWho 64) x.1 == .here &&
        yardCheck e { coreAcc e 64 true with write := false } (x.1 % 2 ^ 46) 8 != .held &&
        (match (amo (coreAcc e 64 true) (x.1 % 2 ^ 46) 8 .cas 5 0 e).1 with
         | .ok (_, false) => true
         | _ => false)) = true :=
  ⟨by simp, by decide⟩

/-- A descriptor of page 1 of the yard stands in DESC_W0 to DESC_W3, and slot 1 is selected. -/
def offering : Dev := wr (kY 0 0 0x044) 1 (wr64 (kY 0 0 0x050) (2 ^ 54 + 0x10001) live)

/-- The same region is committed. -/
def committed (sweep : Nat) : Dev :=
  { offering with yard := { offering.yard with descs := [(1, { w0 := 2 ^ 63 + sweep * 2 ^ 60 + 2 ^ 54 + 0x10001 })] } }

theorem witness_DescriptorRowsComplete :
    (descBusy offering 0 = false ∧ mayPut offering sup (kY 0 0 0x048) 0 = true ∧ mayPut offering sup (kY 0 0 0x048) 1 = true ∧
      touched sup offering = offering ∧ commitCheck offering 0 (descOffered offering 0) = 0) ∧
    (let d := committed 1
     mayPut d sup (kY 0 0 0x048) 2 = true ∧ (getDesc d (descSel d 0)).valid = true ∧
      (getDesc d (descSel d 0)).sweep ≠ 0) ∧
    (let d := committed 0
     mayPut d sup (kY 0 0 0x048) 3 = true ∧ (getDesc d (descSel d 0)).valid = true ∧
      ((getDesc d (descSel d 0)).held || (getDesc d (descSel d 0)).sweep ≠ 0) = false ∧
      (let r := descOffered d 0
       let old := getDesc d (descSel d 0)
       r.basePage = old.basePage ∧ r.sizePages = old.sizePages ∧ r.twoD = old.twoD ∧ fld r.w1 55 48 = fld old.w1 55 48 ∧
        r.owner = old.owner ∧ badField r = false ∧ badTally d r = false)) ∧
    (let d := { offering with yard := { offering.yard with
       pages := [(1, { valid := true, clean := false, sweeping := true, desc := 1 })]
       descs := [(1, { w0 := 2 ^ 63 + 2 ^ 54 + 0x10001, goal := .commit })] } }
     (getDesc d 1).sweeping = true ∧ d.yard.orphans.find? (fun o => o.1 = 1) = none ∧ 1 ∈ (getDesc d 1).pages ∧ (getPage d 1).sweeping = true) := by decide

theorem witness_TallyRowsComplete :
    (let d := { yarded with yard := { yarded.yard with landed := [⟨5, 64, 32, 0⟩] } }
     d.yard.landed = ⟨5, 64, 32, 0⟩ :: [] ∧ clusterOut d (5 / 1024) = false ∧ enabled d T.YRD (5 / 1024) = true ∧ watchTaken d ⟨5, 9, .graph 0⟩ = true) ∧
    (mayPut yarded sup (kY 0 1 0x050) 1 = true) ∧
    (0 ≤ (getTally yarded 5).value ∧ (getTally yarded 5).value < 1 ∧ watchesUsed yarded (5 / 1024) < 256) ∧
    (let d := { yarded with yard := { yarded.yard with watches := List.replicate 256 ⟨5, 9, .graph 0⟩ } }
     (getTally d 5).value < 1 ∧ 256 ≤ watchesUsed d (5 / 1024)) := by decide +kernel

theorem witness_SemaphoreRowsComplete :
    (issues 64 4 (ctlRuns { s := [(2, 0x40502800)] }) (fun e0 =>
      let e := onWay .clear e0
      let x := (getCore e 64).sReg 2
      plainRun e 64 && !x.2 && !((getCore e 64).sReg 0).2 && toward e (coreWho 64) x.1 == .here &&
        semAt (x.1 % 2 ^ 46) == some 0 && enabled e T.YRD 0 && !yardSwitch e (coreWho 64) 0) = true) ∧
    (let q : Waiter := ⟨0, 64, 0, 0, false, 1, some 7⟩
     q.holder = 64 ∧ q.deadline = some 7 ∧ 7 ≤ tick (atTick 7 live)) ∧
    (mayPut live sup (semKey 0 255 true) 0x04000000 = true ∧ (getCmp (touched sup live) 0).draining = false ∧ mayPut live sup (semKey 0 255 false) 9 = true) ∧
    (holderCut live 3 5 = false ∧ holderCut live 67 5 = false) := by decide

theorem witness_ScalarRowsComplete :
    issues 64 4 (ctlRuns { s := [(2, 8)] }) (fun e => !((getCore e 64).sReg 2).2 && (getCore e 64).loop.isNone &&
      (immOp .shift 8 3).isSome) = true ∧
    issues 0 4 (coachRuns {}) (fun _ => true) = true ∧
    issues 64 8 (ctlRuns {}) (fun _ => true) = true := by decide

theorem witness_LoadStoreRowsComplete :
    issues 64 4 (ctlRuns { s := [(2, 64), (3, 7)] }) (fun e =>
      let x := (getCore e 64).sReg 2
      plainRun e 64 && !x.2 && decide (dataAddr x.1 8 % 2 ^ 3 = 0) &&
        brings (coreRead 64 (dataAddr x.1 8) 8 false (.load 4 8) (onWay .clear e)).1 &&
        !((getCore e 64).sReg 3).2 &&
        decide ((coreWrite 64 (dataAddr x.1 8) (leBytes 8 7)
          (foldAccess 64 0 (dataAddr x.1 8) true (leBytes 8 7) (onWay .clear e))).1 = .ok) &&
        decide (x.1 % 64 = 0) && brings (coreRead 64 x.1 64 false (.image 4 7) e).1) = true := by decide

theorem witness_VectorRowsComplete :
    issues 0 4 (coachRuns { s := [(2, 0)] }) (fun e =>
      decide (accParity 0 [32 * 7 + 31] e = e) && (mfmt 0).isSome &&
      (getCore e 0).loading 1 == false && !((getCore e 0).sReg 2).2 &&
      (match mfmt 0 with
       | some f => decide (0 % f.k = 0) && decide (0 + 2 * f.k ≤ f.maxK) && (getCore e 0).accFloat.testBit 0 == f.isFloat
       | none => false)) = true ∧
    Elem.i8.isFloat = false ∧ Elem.bf16.isFloat = true := by decide

/-- Coach 0 with three streams: a read that is complete with an entry in its FIFO, a write that is complete, and one whose
descriptor reads one cell. -/
def streaming : Core :=
  { s := [(2, 64)]
    streams := [(1, { mode := .complete, fifo := [⟨List.replicate 256 7, List.replicate 256 false⟩] }),
                (2, { mode := .complete, run := [2 ^ 60, 1, 0, 0] }), (3, { words := [0, 1, 0, 0] })] }

theorem witness_StreamRowsComplete :
    issues 0 4 (coachRuns streaming) (fun e =>
      let c := getCore e 0
      let sent := onWay .clear e
      ((c.stream 1).serves 0 && decide (pumpAll 0 sent = (none, sent)) && !(c.stream 1).fifo.isEmpty) &&
      ((c.stream 2).serves 1 && decide ((c.stream 2).fifo.length < 4) && (armed sent T.CCH 0 0 3).isNone &&
        (pumpAll 0 (updCore 0 (fun c =>
          c.updStream 2 (fun s => { s with fifo := s.fifo ++ [laneEntry c 5] })) sent)).1.isNone) &&
      (!(c.sReg 2).2 && decide ((c.sReg 2).1 % 8 = 0) && isLocal e (c.sReg 2).1 && !inOutbound ((c.sReg 2).1 % 2 ^ 46) &&
        plainRun e 0 && brings (readDesc 0 (c.sReg 2).1 e).1) &&
      (let x : Stream := { words := (c.stream 3).words, run := (c.stream 3).words, mode := .running }
       !badStream sent x && (pumpAll 0 (updCore 0 (fun c =>
         let c1 := c.updStream 3 (fun _ => x)
         if x.buffer.isSome then { c1 with wbCmp := cmpOf sent (coreWho 0) + 1 } else c1) sent)).1.isNone) &&
      ((c.stream 1).mode != .running)) = true ∧
    (let d := coachRuns { streams := [(3, { mode := .running, run := [0, 1, 0, 0], done := 1 })] }
     (pumpAll 0 d).1 = none ∧ ((getCore (pumpAll 0 d).2 0).stream 3).finished = true) := by
  decide +kernel

theorem witness_ControlRowsComplete :
    issues 64 4 (ctlRuns { s := [(2, 5), (3, 9)], csp := lramBase + 0x800 }) (fun e =>
      let c := getCore e 64
      plainRun e 64 && !(c.sReg 2).2 && !(c.sReg 3).2 && !yardSwitch e (coreWho 64) 0 && tallyReach e 64 5 && tallyMine e 64 5 &&
        decide ((getTally e 5).value < 9) && decide (watchesUsed e 0 < 256) && decide (0 ≤ (getTally e 5).value) &&
      (csrBad e 64 0x100).isNone && (csrBad e 64 3).isNone && c.super &&
      decide (outstanding e (coreWho 64) = 0) && !isDuplicate e 64 &&
      brings (coreRead 64 c.sp 64 false (.frame true) e).1 && brings (coreRead 64 c.sp 64 false (.frame false) e).1 &&
      decide ((c.sReg 2).1 ≤ 67)) = true ∧
    (∀ dl, (getCore (ctlRuns {}) 64).wait ≠ .tally dl) := ⟨by decide, fun _ h => by cases h⟩

/-- A waybill of compartment 1 that a unit runs. -/
def running : Running := { queue := 3, slot := 0, image := {}, payload := [], cmp := 1, kind := .original, serial := 1 }

/-- Unit `u` runs that waybill. -/
def atWork (u : Nat) (r : Running) (d : Dev) : Dev := { d with dpt := { d.dpt with runs := [(u, some r)] } }

theorem witness_CoreEventRowsComplete :
    (let d := atWork 0 running live
     runOf d 0 = some running ∧ (getCore d 0).mode = .idle ∧ (getCore d 0).halted = false ∧ running.ended = none ∧ unitState d T.CCH 0 ≠ .resetting) ∧
    (let d := atTick 9 (coachRuns { wait := .tally (some 9) })
     (getCore d 0).wait = .tally (some 9) ∧ 9 ≤ tick d) ∧
    (let d := coachRuns { pending := some 64 }
     (getCore d 0).pending = some 64 ∧ canIssue d 0 = true) ∧
    (let d := wr64 (rk T.CLK 0 0 0x050) 5 (ctlRuns { sstatus := 2, ipie := 0x1F0000, timecmp := 1 })
     takesInterrupts d 64 = true ∧ bit (getCore d 64).sstatus 1 = true ∧ pendingEnabled d 64 ≠ 0) ∧
    (mayPut live sup (kDbg 0) 7 = true ∧ mayPut live sup (kDbg 64) (setBit (rd live (kDbg 64)) 1) = true) ∧
    (let d := { live with cores := { cores := [(67, { mode := .debugHalt })] } }
     mayPut d sup (rk T.CTL 3 1 0x058) 1 = true) ∧
    (rdB (wrB (rk T.CTL 3 1 0x058) 0 true live) (rk T.CTL 3 1 0x058) 0 = true) := by decide

/-! ### The turnpike and the stacks -/

/-- Every stack is trained and READY. -/
def stacked : Dev :=
  { live with stk := { live.stk with ctl := [(0, { mode := .ready }), (1, { mode := .ready }), (2, { mode := .ready }),
                                             (3, { mode := .ready, debt := 2 })] } }

theorem witness_TurnpikeRowsComplete :
    (mayPut live sup (kT 1 0x048) 1 = true ∧ (touched sup live).net.busy = false) ∧
    (let d := { live with net := { live.net with busy := true } }
     mayPut d sup (kT 1 0x048) 1 = true ∧ (touched sup d).net.busy = true) ∧
    (let e := wr (kT 0 0x040) 0 (wr (kT 1 0x040) 0x1001 live)
     mayPut e sup (kT 1 0x044) 0x40 = true ∧ routeAuto (touched sup e) = false ∧ rdB (touched sup e) (kT 1 0x040) 12 = true) ∧
    (mayPut live sup (kT 1 0x054) 1 = true ∧ linkExists (linkSel live) = true ∧ (getLink live (linkSel live)).state ≠ .stabled ∧
      (getLink live (linkSel live)).state ≠ .probation ∧ live.net.toStable.contains (linkSel live) = false) ∧
    (let d := wr (rk T.TPK 0 0 0x040) 0 (updLink 0 (fun k => { k with state := .probation }) live)
     mayPut d sup (kT 1 0x054) 1 = true ∧ (getLink d (linkSel d)).state = .probation ∧ (getLink d (linkSel d)).passed = false) ∧
    (let d := updLink 0 (fun k => { k with state := .stabled }) live
     mayPut d sup (kT 1 0x054) 2 = true ∧ (getLink d (linkSel d)).state = .stabled) := by decide

/-- The listed entries of the ACTIVE tables lead nowhere. -/
def avoiding (ks : List Nat) : Dev := { live with net := { live.net with active := ks.map (fun k => (k, 0xC0)) } }

/-- A constant listing reads as its constant at every listed key. -/
theorem get_const (v k : Nat) (ks : List Nat) (h : k ∈ ks) : Map.get (fun _ => 0) (ks.map (fun j => (j, v))) k = v := by
  induction ks with
  | nil => cases h
  | cons j ks ih =>
    simp only [List.map, Map.get]
    split
    · rfl
    · next e => exact ih ((List.mem_cons.mp h).resolve_left e)

theorem unused_of_all (ks : List Nat) (h : ∀ k < 4096, k ∈ ks) : linkUsed (avoiding ks) 0 = false := by
  unfold linkUsed
  rw [List.any_eq_false]
  intro k hk
  have hm : k / 64 * 64 + k % 64 ∈ ks := h _ (by rw [List.mem_range] at hk; omega)
  have hr : route (avoiding ks) (k / 64) (k % 64) = 0xC0 := get_const 0xC0 _ ks hm
  simp [pathLinks, hr]

theorem witness_TurnpikeRowsComplete_unused : linkUsed (avoiding (List.range 4096)) 0 = false :=
  unused_of_all _ (fun _ h => List.mem_range.mpr h)

theorem witness_StackRowsComplete :
    (toward live sup stackBase = .here ∧ stackBase ≤ stackBase ∧ stackBase < stackBase + usable live ∧
      (memRead { who := sup, cmp := cmpOf live sup, unit := sup.unitId } stackBase 64
        (dieEcc stackBase 0 (caFailures stackBase 0 (upsetLine stackBase 0 live)))).1 ≠ .held ∧
      (memWrite { who := sup, cmp := cmpOf live sup, write := true, unit := sup.unitId } stackBase [1]
        (caFailures stackBase 0 live)).1 ≠ .held) ∧
    (let d := updStack 3 (fun c => { c with started := true }) live
     3 < d.part.stacks ∧ (stackOf d 3).started = true ∧ (94 * 16 : BitVec 16).toInt < 95 * 16 ∧
      (95 * 16 : BitVec 16).toInt < 105 * 16 ∧ 95 * 16 ≤ (95 * 16 : BitVec 16).toInt ∧ 105 * 16 ≤ (105 * 16 : BitVec 16).toInt) ∧
    (let d := setUnitState T.STK 3 .resetting live
     (stackOf d 3).mode = .training ∧ unitState d T.STK 3 = .resetting ∧ d.clk.lost = false) ∧
    (let d := updStack 3 (fun c => { c with mode := .recalibrating }) live
     (stackOf d 3).mode = .recalibrating) ∧
    (stackOnline stacked 0 = true ∧
      (let r := recalNow (recalOf stacked 0) (tick stacked)
       let off := 0 * r.1 / 16 + 0 * r.1 / 64
       r.2 + off ≤ tick stacked ∧ (tick stacked - r.2 - off) % max 1 r.1 = 0)) ∧
    (let d := updStack 3 (fun c => { c with recal := some 7 }) live
     (stackOf d 3).recal = some 7) ∧
    (stackOnline stacked 3 = true ∧ (stackOf stacked 3).debt ≠ 0) ∧
    (live.tlm.debtAt ≤ tick live ∧ ∀ p < live.part.stacks, rdB (wr (kS p 1 0x068) 0 live) (kS p 1 0x068) 31 = false) ∧
    (mayPut stacked sup (kS 3 0 0x04C) (256 + 31) = true ∧ (stackOf stacked 3).pcs.testBit 31 = false ∧
      (stackOf stacked 3).migrate ≠ some 31 ∧ spareEn stacked = false) ∧
    (let d := wrB (kS 0 0 0x050) 31 true stacked
     mayPut d sup (kS 3 0 0x04C) (256 + 31) = true ∧ spareEn d = true ∧ rdB d (kS 3 0 0x050) 8 = false ∧
      (stackOf d 3).migrate = none) ∧
    (let d := updStack 3 (fun c => { c with migrate := some 31 }) stacked
     (stackOf d 3).migrate = some 31 ∧ (stackOf d 3).inReset = false ∧ stackOnline d 3 = true ∧
      (stackOf (updStack 3 (fun c => { c with inReset := true }) d) 3).inReset = true ∧
      (stackOf (updStack 3 (fun c => { c with migrate := some 31 }) live) 3).migrate = some 31 ∧ stackOnline live 3 = false) ∧
    (mayPut live sup (kS 0 0 0x050) (2 ^ 31) = true ∧ (touched sup live).stk.accessed = false) := by
  decide +kernel

/-! ### The depot and the compartments -/

/-- The depot is enabled; compartment 1 is ACTIVE with coach 0, which is in the dispatch pool; its WORK queue 3 holds a READY
waybill, its WORK queue 4 is empty, and queue 5 is its COMPLETION queue. Their rings lie in page 0 of the yard. -/
def depot : Dev :=
  wr (kD 2 0x100) 0x10 (wr64 kCoachPool 1 (wrB (kCTRL T.DPT 0) 0 true { yarded with
    cmps := [(1, { mode := .active, coaches := 1 })]
    dpt := { yarded.dpt with
      queues := [(3, { w0 := 2 ^ 63 + 2 ^ 62 + 2 ^ 52, w2 := 1, tail := 1, occ := 1 }),
                 (4, { w0 := 2 ^ 63 + 2 ^ 62 + 2 ^ 52 + 0x400, w2 := 1 }),
                 (5, { w0 := 2 ^ 63 + 2 ^ 62 + 2 ^ 60 + 2 ^ 52 + 0x800, w2 := 1 })]
      slots := [(slotKey 3 0, { state := .ready, stage := .done })] } }))

/-- The waybill of queue 3 waits in the step slot of coach 0. -/
def stepped : Dev :=
  { depot with dpt := { depot.dpt with
      slots := [(slotKey 3 0, { state := .slotted, stage := .done })], steps := [(0, slotKey 3 0 + 1)] } }

theorem witness_EnqueueRowsComplete :
    (armed depot T.DPT 0 0 0 = none ∧ armed depot T.DPT 0 0 1 = none ∧ onChip sup = true ∧
      depot.dpt.brakes.any (fun b => b.who = sup && b.queue = 4) = false) ∧
    (enqueue sup (cmpOf depot sup) 4 false (Image.ofBytes (leBytes 64 0)) depot).1 = .code 0 ∧
    (enqueue sup (cmpOf depot sup) 4 false (tokenImage 7 3 9 true) depot).1 = .code 0 ∧
    (enqueue sup (cmpOf depot sup) 4 false (decrementImage 0x1007 255 false) depot).1 = .code 0 ∧
    ((getQueue depot 5).valid = true ∧ (getQueue depot 5).kind = 1 ∧ cmpOf depot sup = 0) := by decide

/-- QUEUE_SEL names queue 6, and QDESC_W0 to QDESC_W2 a WORK queue of compartment 1. -/
def queueAsked : Dev :=
  wr (kD 1 0x040) 6 (wr64 (kD 1 0x050) (2 ^ 62 + 2 ^ 52 + 0xC00) (wr64 (kD 1 0x060) 1 depot))

/-- Queue 6 is committed so. -/
def queueTaken : Dev :=
  { queueAsked with dpt := { queueAsked.dpt with queues := [(6, { w0 := 2 ^ 63 + 2 ^ 62 + 2 ^ 52 + 0xC00, w2 := 1 })] } }

theorem witness_QueueCommandRowsComplete :
    (armed queueAsked T.DPT 0 0 0 = none ∧ armed queueAsked T.DPT 0 0 1 = none ∧ queueAsked = touched sup queueAsked ∧
      (fetchQueue (queueSel queueAsked) queueAsked).1 ≠ .fatal ∧ (fetchQueue (queueSel queueAsked) queueAsked).2 = queueAsked ∧
      mayPut queueAsked sup (kD 1 0x044) 0 = true ∧ mayPut queueAsked sup (kD 1 0x044) 1 = true ∧
      (getQueue queueAsked (queueSel queueAsked)).valid = false ∧ badRing queueAsked (queueOffered queueAsked) = false ∧
      badCq queueAsked (queueOffered queueAsked) = false) ∧
    (let o := getQueue queueTaken (queueSel queueTaken)
     let n := queueOffered queueTaken
     queueTaken = touched sup queueTaken ∧ (fetchQueue (queueSel queueTaken) queueTaken).1 ≠ .fatal ∧
      (fetchQueue (queueSel queueTaken) queueTaken).2 = queueTaken ∧ mayPut queueTaken sup (kD 1 0x044) 2 = true ∧ o.valid = true ∧ n.kind = o.kind ∧
      n.owner = o.owner ∧ n.ringLog2 = o.ringLog2 ∧ n.base = o.base ∧ badCq queueTaken n = false ∧
      mayPut queueTaken sup (kD 1 0x044) 3 = true ∧ (o.kind = 0 → o.occ = 0) ∧ (o.kind = 1 → cqNamed queueTaken 6 = false) ∧
      mayPut queueTaken sup (kD 1 0x044) 4 = true) ∧
    (rdB queueAsked (kD 1 0x048) 31 = false ∧ (fetchQueue (queueSel queueAsked) queueAsked).1 = .here ∧
      rdB (wr (kD 1 0x048) (2 ^ 31) queueAsked) (kD 1 0x048) 31 = true ∧
      (let d := wr64 (kD 0 0x048) (2 ^ 63 + stackBase) queueAsked
       touched sup d = d ∧ rdB d (kD 1 0x048) 31 = false ∧ (fetchQueue (queueSel d) d).1 = .offline ∧
        mayPut d sup (kD 1 0x044) 0 = true ∧
        (let e := { d with stk := stacked.stk, net := { d.net with busy := true } }
         (fetchQueue (queueSel e) e).1 = .held))) ∧
    (let r := fetchCtr (rdF depot (kD 2 0x040) 19 0) (touched sup depot)
     mayPut depot sup (kD 2 0x050) 1 = true ∧ r.1 = .here ∧ (getCtr r.2 (rdF depot (kD 2 0x040) 19 0)).bound = 0) ∧
    (mayPut depot sup (kD 0 0x054) 1 = true) := by decide

/-- A producer that waits at the window of queue 4 until tick 9. -/
def braked : BrakeWait :=
  { who := sup, cmp := 0, queue := 4, image := {}, deadline := some 9, window := true, node := none }

theorem witness_DispatchRowsComplete :
    (armed depot T.DPT 0 0 0 = none ∧ armed depot T.DPT 0 0 1 = none ∧ (placeFirst (readyOrder depot) depot).1 = true) ∧
    (stepSlot stepped 0 = some (3, 0) ∧ unitIdle stepped 0 = true ∧
      regionsOwned stepped (getSlot stepped 3 0).image (queueOwner stepped 3) = true ∧
      regionsFree stepped (getSlot stepped 3 0).image = true) ∧
    (let r := { running with ended := some {} }
     let d := atWork 0 r depot
     runOf d 0 = some r ∧ r.ended = some {} ∧ (getCmp d r.cmp).draining = false ∧ outstanding d (unitWho 0) = 0) ∧
    (∀ a ∈ [TtAction.waybill 3 0, .graph 5, .fsync 1 2], ∀ p ∈ [0, 100],
      let d := { depot with dpt := { depot.dpt with table := [⟨0, 0, p, a⟩] } }
      d.dpt.table = [⟨0, 0, p, a⟩] ∧ 0 ≤ tick d) ∧
    (let d := atTick 1000000 depot
     d.dpt.lastEpoch + rd d (kD 0 0x050) ≤ tick d) ∧
    (depotWaits { depot with dpt := { depot.dpt with holding := true } } = true) ∧
    (∀ slot ∈ [false, true],
      let b := { braked with braked := slot }
      let d := atTick 9 { depot with dpt := { depot.dpt with brakes := [b] } }
      d.dpt.brakes = [] ++ b :: [] ∧ b.window = true ∧ b.deadline = some 9 ∧ 9 ≤ tick d) ∧
    (let r := { running with kind := .shadow 4 }
     let d := atWork 0 r stepped
     runOf d 0 = some r ∧ r.kind ≠ .original ∧ (stepSlot d 0).isSome = true) := by decide +kernel

theorem witness_CompartmentRowsComplete :
    (mayPut live sup (kC 15 0x044) (0xC5 * 256 + 1) = true ∧ (getCmp (touched sup live) 15).mode = .free) ∧
    (mayPut depot sup (kC 1 0x044) (0xC5 * 256 + 2) = true ∧ mayPut depot sup (kC 1 0x044) (0xC5 * 256 + 3) = true ∧
      (getCmp (touched sup depot) 1).mode = .active ∧
      (getCmp (cutCompartment 1 false (touched sup depot)) 1).mode = .active ∧
      (getCmp (cutCompartment 1 true (touched sup depot)) 1).mode = .active) ∧
    (∀ m ∈ [CmpMode.killing, .resetting],
      let d := { depot with cmps := [(1, { mode := m, draining := true })] }
      (getCmp d 1).draining = true ∧ drained d 1 = true ∧ (getCmp d 1).mode = m) ∧
    (let d := { depot with cmps := [(1, { zeroing := [(7, 0x1000)] })] }
     (getCmp d 1).zeroing = (7, 0x1000) :: []) ∧
    (cmpBusy depot 1 = false ∧ mayPut depot sup (kC 1 0x058) 0x1FFF = true ∧
      (∀ m < 16, m ≠ 0 → m ≠ 1 → rd depot (kC m 0x058) &&& 0x1FFF &&& 0x1C00 = 0)) ∧
    (mayPut depot sup (kC 1 0x070) 0x80000005 = true ∧
      (let q := getQueue depot (fld 0x80000005 15 0)
       q.valid = true ∧ q.kind = 1 ∧ q.owner = 1 ∧ cqNamed depot (fld 0x80000005 15 0) = false)) ∧
    (mayPut depot sup (kC 1 0x050) (2 ^ 63 + 1) = true ∧ conflict depot 1 0x050 ((2 ^ 63 + 1) &&& (2 ^ 64 - 1)) = false) ∧
    (mayPut depot sup (kC 1 (0x080 + 8 * 7)) (2 ^ 63 + 2 ^ 61) = true ∧ winCheck depot 1 (2 ^ 63 + 2 ^ 61) = 0) ∧
    (tick depot % rd depot (kC 0 0x0C4) = 0) := by decide +kernel

/-! ### The intakes -/

/-- Intake 0 is enabled, and port 0 with its binding 0: RAW8 of virtual channel 0, one buffer at the start of the yard. -/
def intake : Dev :=
  wrB (kCTRL T.INK 0) 0 true (wrB (kPort 0 0x040) 31 true (wr (kBind 0 0 0) (2 ^ 31 + 0x2A * 2 ^ 17) live))

/-- A stream of port 0 in that state. -/
def streamed (st : CamStream) (d : Dev) : Dev := { d with ink := { d.ink with streams := [(0, st)] } }

theorem witness_CsiRowsComplete :
    pinsCut intake = false ∧ portExists intake 0 = true ∧ rdB intake (kPort 0 0x040) 31 = true ∧ inkOn intake 0 = true ∧
    armed intake T.INK (0 / 3) (1 + 0 % 3) 1 = none ∧ armed intake T.INK (0 / 3) (1 + 0 % 3) 2 = none ∧
    (getPort intake 0).fault = false ∧ 8 * 187 ≤ 1500 ∧ inWindow intake 0 187 = true ∧
    (let d := streamed { state := .inFrame, frame := some { serial := 1 } } intake
     8 * (getPort d 0).mhz ≤ 1500 ∧ supportedDt 0x2A = true ∧ inWindow d 0 187 = true ∧
      (onChannel (tcount 9 3 d) 0 0).find? (fun b => bindDt (tcount 9 3 d) 0 b = 0x2A) = some 0 ∧
      (getStream d 0 0).state = .inFrame) := by decide

theorem witness_StreamEventRowsComplete :
    (let f : CamFrame := { serial := 1 }
     let d := atTick 100000 (streamed { state := .inFrame, frame := some f } intake)
     (getStream d 0 0).frame = some f ∧ (getStream d 0 0).state = .inFrame ∧ f.last + rdF d (kPort 0 0x048) 15 0 ≤ tick d) ∧
    (∀ r ∈ [false, true],
      let f : CamFrame := { serial := 1, recorded := r }
      let d := streamed { state := .waitFs, closing := [f] } intake
      (getStream d 0 0).closing = f :: [] ∧ writing d 0 f.serial = false ∧ f.recorded = r ∧ inkOn d 0 = true ∧
        inkOn (wrB (kCTRL T.INK 0) 0 false d) 0 = false) ∧
    (∀ st ∈ [CamState.waitFs, .configuring, .stabled],
      let d := streamed { state := st } (wrB (kBind 0 0 0x1C) 31 true intake)
      hpEn d 0 0 = true ∧ hpHigh d 0 0 = false ∧ (getStream d 0 0).state = st) ∧
    (let d := wr (rk T.HMI 0 0 0x040) 0x10000 (streamed { state := .detached } (wrB (kBind 0 0 0x1C) 31 true intake))
     hpEn d 0 0 = true ∧ hpHigh d 0 0 = true ∧ (getStream d 0 0).state = .detached) ∧
    (∀ cl ∈ [0, 0x800000],
      let d := atTick 4000000 (wr (rk T.HMI 0 0 0x040) 0x10000
        (streamed { state := .replugWait } (wr (kBind 0 0 0x1C) (0x80000FFF + cl) intake)))
      (getStream d 0 0).state = .replugWait ∧ hpHigh d 0 0 = true ∧
        (getStream d 0 0).rose + 1000 * clamp 1 4000 (rdF d (kBind 0 0 0x1C) 11 0) ≤ tick d ∧
        clEn d 0 0 = decide (cl ≠ 0) ∧ inkStabled d 0 = false ∧ inkStabled (setUnitState T.INK 0 .stabled d) 0 = true) ∧
    (let d := atTick 7 (wr (kBind 0 0 0x3C) 7 (streamed { state := .waitFs } intake))
     let st := getStream d 0 0
     rd d (kBind 0 0 0x3C) ≠ 0 ∧ st.state ≠ .off ∧ st.state ≠ .inFrame ∧ inkOn d 0 = true ∧
      absentSince st + rd d (kBind 0 0 0x3C) ≤ tick d ∧ st.closing = []) ∧
    (portExists intake 0 = true ∧ mayPut intake sup (kPort 0 0x090) 15 = true) ∧
    (let d := streamed { state := .configFail } intake
     mayPut d sup (kPort 0 0x090) 256 = true ∧ (getStream (touched sup d) 0 0).state = .configFail) ∧
    (let v := 2 ^ 31 + 0x2B * 2 ^ 17 + 0x100
     let e := touched sup intake
     mayPut intake sup (kBind 0 1 0) v = true ∧ bindEn e 0 1 = false ∧ bit v 31 = true ∧
      mayEnable (wrB (kBind 0 1 0) 31 false (wr (kBind 0 1 0) v e)) 0 1 = true) ∧
    (let k := kInk 0 (0x100 + 0x20 * 5)
     let v := 0x80000001
     let e := touched sup live
     let e1 := wr k (plainValue (openFields (pageTouched sup live) sup k) (rd e k) k v) e
     bit v 31 = true ∧ mayPut live sup k v = true ∧ rdB e k 31 = false ∧ rdB e1 k 31 = true ∧ ttPeriodic e1 < 256) ∧
    (let d := atTick 3 { live with ink := { live.ink with pulses := [(5, 4)] } }
     Map.get (fun _ => 0) d.ink.pulses 5 = 3 + 1 ∧ 3 ≤ tick d) := by decide

/-! ### Vision engines and graphs -/

/-- A run of compartment 0. -/
def job : Running := { running with cmp := 0 }

/-- Engine `u` runs a job whose descriptor at address 0 has been read as `words`. -/
def engaged (u : Nat) (words : List Nat) : Dev := { atWork u job yarded with engs := [(u, { serial := 1, words := words })] }

theorem witness_EngineRowsComplete :
    (let d := putCell 1 (goodCell 0x40000000) (atWork 0x50 job yarded)
     jobOf d 0x50 = some job ∧ (getEng d 0x50).serial ≠ job.serial ∧ job.image.job % 64 = 0 ∧
      (let l := loadPieces 0x50 (runAccess d 0x50 job false) (bytePieces job.image.job 128) { d := d }
       let ws := (List.range (128 / 8)).map (fun i => leNat (((l.1.map (·.1)).drop (8 * i)).take 8))
       l.2.ok = true ∧ l.1.any (·.2) = false ∧
        [pyrCheck, wrpCheck, strCheck, flwCheck, ftrCheck][8 / 2]?.map (· ws) = some 0)) ∧
    (let d := { atWork 0x51 job yarded with engs := [(0x51, { serial := 1, words := [0], done := true })] }
     jobOf d 0x51 = some job ∧ (getEng d 0x51).serial = job.serial ∧ (getEng d 0x51).done = true) ∧
    (let ws := [0, 8 * 2 ^ 48 + 8 * 2 ^ 32 + 8, 2 ^ 40, 0, 0, 0x1000]
     let d := engaged 0x48 ws
     let l := (pyrLoad (engineId 0 0) job ws [] d).2
     openJob d (engineId 0 0) = some (job, ws) ∧ l.ok = true) ∧
    (let ws := [0, 0x1000]
     let d := engaged 0x4A ws
     let l := (wrpLoad (engineId 1 0) job ws [] d).2
     openJob d (engineId 1 0) = some (job, ws) ∧ l.ok = true) ∧
    (let ws := [0, 0, 16 * 2 ^ 48 + 8 * 2 ^ 32 + 8, 0]
     let d := engaged 0x4D ws
     let l := (strLoad (engineId 2 1) job ws [] d).2
     openJob d (engineId 2 1) = some (job, ws) ∧ l.ok = true) ∧
    (let ws := [0, 0, 16 * 2 ^ 48 + 8 * 2 ^ 32 + 8, 2 ^ 55]
     let d := engaged 0x4E ws
     let l := (flwLoad (engineId 3 0) job ws [] d).2
     openJob d (engineId 3 0) = some (job, ws) ∧ l.ok = true) ∧
    (let ws := [2 ^ 40, 8 * 2 ^ 48 + 8 * 2 ^ 32]
     let d := engaged 0x50 ws
     let l := (detectLoad (engineId 4 0) job ws [] d).2
     openJob d (engineId 4 0) = some (job, ws) ∧ (ftrJob ws).op = 0 ∧ l.ok = true) ∧
    (let ws := [2 ^ 62, 0, 0x100, 0x200, 0, 0x300, 0x400]
     let d := putCell 0 (goodCell 2) (engaged 0x50 ws)
     let c := matchCounts (engineId 4 0) job ws [] d
     let l := (matchLoad (engineId 4 0) job ws c.1.1 c.1.2 c.2 d).2
     openJob d (engineId 4 0) = some (job, ws) ∧ (ftrJob ws).op = 1 ∧ c.2.ok = true ∧ c.1.1 ≤ 65536 ∧
      c.1.2 ≤ 65536 ∧ l.ok = true) := by decide +kernel

/-- The cells of a Psieb table of one command-list node. -/
def tableCells : List (Nat × Cell39) :=
  [(0, 0x31495350), (1, 1), (2, 0x180), (3, 0x44162279), (4, 1), (5, 0x100), (6, 3), (9, 100), (16, 4), (80, 1)].map
    (fun (c : Nat × Nat) => (c.1, goodCell (BitVec.ofNat 32 c.2)))

/-- A Psieb table of one command-list node stands at address 0, its list is list 0 of bus 0, the backing area is the start of
the stack, and the graph command registers name graph slot 0 and that address. -/
def tabled : Dev :=
  wr (rk T.TWC 0 0 0x100) (2 ^ 31) (wr64 (kF 0 0x040) (2 ^ 63 + stackBase) { yarded with
    stk := stacked.stk
    cmps := [(0, { mode := .active })]
    yard := { yarded.yard with cells := tableCells } })

/-- Graph slot 0 holds that table, in a stage. -/
def graphed (st : GraphStage) : Dev :=
  { tabled with fgs := { tabled.fgs with graphs := [(0, { stage := st, table := some { noTable with
      maxFrames := 1, trigger := 3, deadline := 100, ringLog2 := 4, len := 0x180 } })] } }

set_option maxRecDepth 2000 in
theorem witness_GraphCommandRowsComplete :
    (rdB (touched sup tabled) (kF 0 0x050) 31 = false ∧ armed (touched sup tabled) T.FGS 0 0 0 = none ∧
      armed (touched sup tabled) T.FGS 0 0 1 = none ∧ rdF (touched sup tabled) (kF 0 0x048) 5 0 = 0) ∧
    (let d := touched sup tabled
     let h := readLines (rd64 d (kF 0 0x058) % 2 ^ 48) 4 d
     let r := readLines (rd64 d (kF 0 0x058) % 2 ^ 48) (fieldAt (h.1.getD ([], true)).1 8 4 / 64) d
     mayPut tabled sup (kF 0 0x04C) 1 = true ∧ (getGraph d 0).stage = .empty ∧ graphBacking d = some stackBase ∧
      backingUp d 0 (fieldAt (h.1.getD ([], true)).1 8 4) = true ∧
      backingUp { d with stk := live.stk } 0 (fieldAt (h.1.getD ([], true)).1 8 4) = false ∧
      (h.1.getD ([], true)).2 = false ∧ badHeader (h.1.getD ([], true)).1 = false ∧ r.1.isSome = true ∧
      loadCheck r.2 (r.1.getD ([], true)).1 (r.1.getD ([], true)).2 = (0, 0)) ∧
    (let d := { tabled with net := { tabled.net with busy := true } }
     mayPut d sup (kF 0 0x04C) 1 = true ∧ (graphBacking d).isSome = true ∧
      (readLines (rd64 d (kF 0 0x058) % 2 ^ 48) 4 (touched sup d)).1 = none) ∧
    (let d := touched sup (graphed .loaded)
     let r := readLines (stackBase + 0 * 0x10000) ((tableOf d 0).len / 64) d
     mayPut (graphed .loaded) sup (kF 0 0x04C) (startWord none) = true ∧ (getGraph d 0).stage = .loaded ∧
      (tableOf d 0).trigger ≠ 0 ∧ graphBacking d = some stackBase ∧ backingUp d 0 (tableOf d 0).len = true ∧
      r.1.isSome = true ∧ (r.1.getD ([], true)).2 = false) ∧
    (mayPut (graphed .running) sup (kF 0 0x04C) 3 = true ∧ (getGraph (touched sup (graphed .running)) 0).stage = .running ∧
      mayPut (graphed .running) sup (kF 0 0x04C) 5 = true ∧
      mayPut (graphed .loaded) sup (kF 0 0x04C) 4 = true ∧ (getGraph (touched sup (graphed .loaded)) 0).stage = .loaded) := by
  decide +kernel

theorem witness_GraphEventRowsComplete :
    (∀ e ∈ [FgsEvent.start 0 0 ⟨0, 1⟩ 5 0 false, .fin 0 0 ⟨0, 1⟩ 0 0, .absent 0 0 5 0 true],
      let d := { live with fgs := { live.fgs with events := [e] } }
      d.fgs.events = e :: []) ∧
    (let r : Report := ⟨0, 0, 1, 0, 0, false⟩
     let d := { graphed .running with fgs := { (graphed .running).fgs with reports := [r] } }
     d.fgs.reports = r :: []) ∧
    (let x : Finding := ⟨0, 0, 1, 0⟩
     let d := { graphed .running with fgs := { (graphed .running).fgs with findings := [x] } }
     d.fgs.findings = x :: []) ∧
    (let d := graphed .running
     armed d T.FGS 0 0 0 = none ∧ armed d T.FGS 0 0 1 = none ∧
      framesWhere d 0 (fun f => f.stage = .opened && decide (f.time + (tableOf d 0).joinWindow < tick d)) = []) ∧
    (let t : GTable := { noTable with flags := 0x20, deadline := 100, grace := 100 }
     let g : Graph := { stage := .running, table := some t, frames := [(3, { stage := .opened })] }
     let d := atTick 200 { live with fgs := { live.fgs with graphs := [(0, g)] } }
     (tableOf d 0).policy = 2 ∧ (getFrame d 0 3).stage = .opened ∧
      (getFrame d 0 3).time + (tableOf d 0).deadline + (tableOf d 0).grace ≤ tick d) ∧
    (let w : GraphWait := ⟨1, 0, 0⟩
     let d := { live with fgs := { live.fgs with waiting := some w } }
     d.fgs.waiting = some w) := by decide +kernel

/-! ### Integrity, background services, telemetry -/

/-- How a run ended with digests `a` and `b`. -/
def endsWith (status a b : Nat) : RunEnd := ⟨status, a, b⟩

/-- A sample of a waybill of queue 3 that coach 0 ran and coach 1 repeated. -/
def sampled (o r : RunEnd) : Sample :=
  { unit := 0, queue := 3, slot := 0, cmp := 1, image := {}, payload := [], forced := false, orig := some o, shadow := some 1
    shadowEnd := some r }

/-- Sample slot 0 holds it; coaches 0 to 2 serve compartment 1. -/
def sampling (x : Sample) : Dev :=
  { depot with
    cmps := [(1, { mode := .active, coaches := 7 })]
    dpt := { depot.dpt with queues := [(3, { (getQueue depot 3) with w2 := 7 })] }
    integ := { depot.integ with samples := [(0, some x)] } }

theorem witness_SamplingRowsComplete :
    (∀ r ∈ [endsWith 0 5 9, endsWith 0 4 9, endsWith 0 5 8],
      let o := endsWith 0 5 9
      let x := sampled o r
      getSample (sampling x) 0 = some x ∧ x.orig = some o ∧ x.shadowEnd = some r ∧ x.mismatch = false ∧
        isAbort o.status = false ∧ r.status ≠ 0x20) ∧
    (let x := sampled (endsWith 0 5 9) (endsWith 0 5 8)
     let c : Cper := { cls := 0x10, block := (unitPage x.unit).1, inst := (unitPage x.unit).2, cmp := some x.cmp
                       tag := x.image.tag, queue := x.queue, unit := x.unit, unit2 := 1, detail := x.unit }
     x.shadow = some 1 ∧ everEligible (cper c (flag0 T.INT 0 2 x.unit (istat 3 (sampling x)))) x.queue [x.unit, 1] ≠ []) ∧
    (let x := sampled (endsWith 0x20 5 9) (endsWith 0 5 9)
     getSample (sampling x) 0 = some x ∧ x.mismatch = false ∧ isAbort 0x20 = true) ∧
    (∀ t ∈ [endsWith 0 6 9, endsWith 0 5 9, endsWith 0 5 8, endsWith 0 5 7],
      let x := { sampled (endsWith 0 5 9) (endsWith 0 5 8) with mismatch := true, tieEnd := some t }
      getSample (sampling x) 0 = some x ∧ x.tieEnd = some t) ∧
    (let z : Slot := { state := .completing, gated := some 0 }
     ∀ rest ∈ [[], [(0, some (sampled (endsWith 0 5 9) (endsWith 0 5 9)))]],
       let d := atTick 0xFFFFFFFF { depot with
         dpt := { depot.dpt with slots := [(slotKey 3 0, z)] }
         integ := { depot.integ with samples := rest } }
       let e := each (samplesWhere d (fun y => y.queue = 3 && y.slot = 0)) (fun y f => giveVerdict y.1 y.2 f) d
       slotsWhere d (fun _ y => gateOver (rd d (kI 0 0x044)) (tick d) y) = (3, 0, z) :: [] ∧
         decide ((getSlot e 3 0).gated = none) = !rest.isEmpty) := by decide +kernel

/-- One digest entry, VALID, over the 64 bytes at address 0. -/
def entry : DigEntry := { w0 := 2 ^ 63, w2 := 64 }

/-- Digest entry 5 is that one, the check of digests is on, and DIG_SEL names entry 5. -/
def watched : Dev :=
  wr (kI 0 0x200) 5 (wrB (rk T.BGS 0 0 0x040) 1 true (wrB (kCTRL T.BGS 0) 0 true
    { yarded with integ := { yarded.integ with digests := [(5, entry)] } }))

theorem witness_IntegrityRowsComplete :
    (let d := atTick 0xFFFFFFFF live
     d.integ.lastWindow + rd d (kI 1 0x040) ≤ tick d) ∧
    (mayPut watched sup (kI 0 0x204) 1 = true ∧
      bit (rd64 (touched sup (wr64 (kI 0 0x210) (2 ^ 61) watched)) (kI 0 0x210)) 61 = true ∧
      mayPut (wr64 (kI 0 0x210) (2 ^ 61) watched) sup (kI 0 0x204) 1 = true) ∧
    (mayPut watched sup (kI 0 0x204) 2 = true ∧ mayPut watched sup (kI 0 0x204) 3 = true ∧
      bit (getDig (touched sup watched) (digSel (touched sup watched))).w0 63 = true ∧ (touched sup watched).integ.digBusy = none) ∧
    ((touched sup live).integ.xcheck = none ∧ mayPut live sup (kI 0 0x100) (2 ^ 31 + 15 * 65536 + 65535) = true) ∧
    (onChip sup = true ∧ latchOf (touched sup live) sup = none ∧ mayRead (touched sup live) sup (kI 3 0x064) = true ∧
      mayRead (touched sup live) sup (kI 3 0x068) = true) ∧
    (watched.integ.digBusy = none ∧ watched.integ.digAsked = [] ∧ digRuns watched = true ∧
      digFrom (fun e => decide (digDue watched e ≤ tick watched)) watched = some 5) ∧
    (∀ good ∈ [false, true],
      let x : DigEntry := if good then entry else { entry with w0 := 2 ^ 63 + 2 ^ 61, ref := 1 }
      let d := { watched with integ := { watched.integ with digBusy := some (5, x), digRepaired := true } }
      d.integ.digBusy = some (5, x) ∧ d.integ.digAt ≤ tick d ∧ copyOnline d (fld x.w0 47 0) (fld x.w2 31 0) = true ∧
        copyHeld d (fld x.w0 47 0) (fld x.w2 31 0) = false ∧ bit x.w1 63 = false ∧ bit x.w0 62 = false ∧
        watched.integ.digRepaired = false ∧ d.integ.digRepaired = true ∧ digestsAgree x (entryDigests x d).1 = good ∧
        digestsAgree x (entryDigests x { watched with integ := { watched.integ with digBusy := some (5, x) } }).1 = good) ∧
    (let x : XCheck := ⟨3, 0, 7, 0, 15⟩
     let d := { live with integ := { live.integ with xcheck := some x } }
     d.integ.xcheck = some x ∧ x.done + 1 ≠ x.rounds) ∧
    (codeState (setUnitState T.PYR 0 .probation live) 0x48 = .probation ∧ 0x48 / 0x1000 = 0) ∧
    (let d := atTick 0xFFFFFFFF { live with integ := { live.integ with scores := [(0x48, 3)] } }
     scoreOf d 0x48 ≠ 0 ∧ Map.get (fun _ => 0) d.integ.scoreTick 0x48 + rd d (kI 2 0x044) ≤ tick d) := by decide +kernel

/-- Yard scrub and the measurement of aging are on, and a record's time has come. -/
def serving : Dev :=
  atTick 0xFFFFFFFF (wr (kBg 0 0x040) 7 (wrB (kCTRL T.BGS 0) 0 true (wrB (kCTRL T.TLM 0) 0 true live)))

theorem witness_ServiceRowsComplete :
    (rdB serving (kBg 0 0x040) 0 = true ∧ enabled serving T.BGS 0 = true ∧ rowDue serving 63 = true ∧ Map.get (fun _ => 0) serving.tlm.rows 63 = 0 ∧
      rowSkipped serving 63 0 = false ∧ rowSkipped (setUnitState T.YRD 63 .stabled serving) 63 0 = true) ∧
    (let c : Cell39 := goodCell 5 ^^^ 1
     let d := { serving with yard := { serving.yard with scrubbed := [(7, c)], cells := [(7, c)] } }
     c.decode = .corrected 5 ∧ d.yard.scrubbed.filter (fun x => stationAt (4 * x.1) = 0) = [(7, c)] ∧ getCell d 7 = c ∧
      getCell serving 7 ≠ c) ∧
    (marginProbes { serving with pwr := { serving.pwr with boot := .done } } = true ∧ serving.tlm.probeAt ≤ tick serving ∧ fld (rd (wr (kBg 1 0x044) 0 (wr (kBg 1 0x040) 0 serving)) (kBg 1 0x040)) 3 0 ≤ 0 ∧
      0 < fld (rd (wr (kBg 1 0x044) 0 (wr (kBg 1 0x040) 15 serving)) (kBg 1 0x040)) 3 0 ∧
      0 < fld (rd (wr (kBg 1 0x040) 15 serving) (kBg 1 0x040)) 3 0 ∧ rdF serving (kV 1 0x054) 15 0 < 850) ∧
    (rdB serving (kBg 0 0x040) 2 = true ∧ serving.tlm.ageAt ≤ tick serving) ∧
    (serving.tlm.sampled + rd serving (kTl 0 0x040) ≤ tick serving ∧ tlmUp serving = true) ∧
    (serving.tlm.lastAt + rd serving (kTl 1 0x10C) ≤ tick serving ∧ enabled serving T.TLM 0 = true) ∧
    (mayPut serving sup (kTl 0 0x044) (setBit (rd serving (kTl 0 0x044)) 31) = true) ∧
    (let d := { serving with tlm := { serving.tlm with asked := true } }
     d.tlm.asked = true ∧ tlmUp d = true ∧ runsOn (kTl 1 0x040) = false) := by decide +kernel

/-! ### The host link and the drawbar -/

/-- The host link is up; the physical function and VF 15 decode memory and master the bus; map entry 0 lets compartment 0
read and write; queue 5 is a COMPLETION queue of compartment 1. -/
def hosted : Dev :=
  wr (kH 0 0x048) 1 (wr64 (kH 0 0x200) (2 ^ 63 + 2 ^ 62 + 2 ^ 61) (wrB (kH 0 0x044) 16 true
    { depot with
      hst := { depot.hst with vfEnable := true, numVfs := 15, mse := 0xFFFF, bme := 0xFFFF }
      pwr := { depot.pwr with bootDone := true } }))

theorem witness_HostRequestRowsComplete :
    (∀ f ∈ [(0 : Fin 16), 15], pinsCut hosted = false ∧ fnClaims hosted f = true ∧ hosted.hst.inbox = [] ∧
      hostBraked hosted = false ∧ armed hosted T.HST 0 0 4 = none ∧ outstanding hosted (.host f) = 0 ∧
      hosted.yard.held.any (fun x => x.acc.who = .host f && x.acc.write) = false ∧
      (List.replicate 128 (7 : Byte)).length ≤ 128 * 2 ^ hosted.hst.mps) ∧
    (let g : Flight := ⟨.host 1, 1, 9, 0, 0, true, .failed .bounds, 0, false⟩
     takeFlight (hostFailure 1) [flying .pending true, g] = (some g, [flying .pending true])) := by decide +kernel

theorem witness_OutboundRowsComplete :
    (∀ w ∈ [false, true],
      let parts := outParts (readLimit hosted) (4096 + 2) (outBase + 1) 4096
      inOutbound (outBase + 1) = true ∧ (∀ p ∈ parts, outAllowed hosted (cmpOf hosted sup) (outEntry p.1) w = true)) ∧
    (let p := (outBase, 2)
     ∀ ps ∈ [[p], [p, (outBase + 2, 2)]],
       let r : OutRead := { who := sup, cmp := 0, addr := outBase, what := .plain, parts := ps }
       let d := { hosted with hst := { hosted.hst with reads := [r] } }
       pinsCut d = false ∧ d.hst.reads.find? (fun r => r.who = sup && !r.parts.isEmpty) = some r ∧
         (∀ x ∈ d.hst.reads, x.wait = [] ∧ x.parts ≠ []) ∧ [(1 : Byte), 2].length = p.2 ∧ r.parts = ps) ∧
    (let parts := outParts (readLimit hosted) (4 + 2) (outBase + 1) 4
     parts = [(outBase + 1, 4)] ∧ outstandingReads hosted < 256 ∧
       outAllowed hosted (cmpOf hosted sup) (outEntry (outBase + 1)) false = true ∧
       (pumpReads 1 (updHst (fun h => { h with reads := h.reads ++
         [{ who := sup, cmp := cmpOf hosted sup, addr := outBase + 1, what := .plain, wait := parts }] }) hosted)).hst.reads.any
           readOver = false) := by decide +kernel

theorem witness_EndpointRowsComplete :
    (pinsCut hosted = false ∧ fnExists hosted 15 = true ∧ fnExists hosted 0 = true ∧ linkIsUp hosted = true) ∧
    (let e := touched sup hosted
     let k := kVec 1 63
     (getQueue e 5).valid = true ∧ (getQueue e 5).kind = 1 ∧ (getQueue e 5).owner = 1 ∧ boundVector (wr k 0 e) 5 = none ∧
      mayPut hosted sup k (2 ^ 31 + 5) = true ∧ bit (2 ^ 31 + 5) 31 = true ∧ bit (2 ^ 31 + 5) 30 = false ∧
      fld (2 ^ 31 + 5) 15 0 = 5) ∧
    (∀ t ∈ [0, 1],
      let k := kVec 1 63
      let d := wr k (2 ^ 31 + 5) { hosted with dpt := { hosted.dpt with queues := [(5, { (getQueue hosted 5) with tail := t })] } }
      let e := touched sup d
      (getQueue e 5).valid = true ∧ (getQueue e 5).kind = 1 ∧ (getQueue e 5).owner = 1 ∧ boundVector (wr k 0 e) 5 = none ∧
        mayPut d sup k (setBit (rd d k) 30) = true ∧ rdB d k 31 = true ∧ rdF d k 15 0 = 5 ∧
        decide ((getQueue e 5).tail = (getQueue e 5).head) = decide (t = 0)) ∧
    (let d := wrB (kH 0 0x044) 16 false hosted
     linkIsUp d = false ∧ d.pwr.endpoint = true ∧ d.pwr.perstLow = false ∧ d.hst.refclk = true) ∧
    (let d := { hosted with pwr := { hosted.pwr with perstLow := true } }
     d.hst.refclk = true ∧ d.pwr.perstLow = true) := by decide +kernel

/-- A team of two on a pair topology: this is module 1, and drawbar port 0 is in a state. -/
def teamed (st : PortState) : Dev :=
  wr (kB 0 0x040) 0x20000 (wr (kSys 0 0x044) 8 { hosted with
    dbr := { hosted.dbr with ports := [(0, { state := st, replay := [{ seq := 0, body := .echo 5 }], echo := some (5, 3) })] } })

/-- A whole flit with SEQ 0 that acknowledges SEQ 0. -/
def flitHdr : FlitHdr := ⟨true, 0, some 0, 0, 3⟩

/-- The module after what a whole sequenced flit brings in its header. -/
def flitTaken (d : Dev) : Dev :=
  credited 0 flitHdr (acked 0 flitHdr.ack (updDb 0 (fun x => { x with rxSeq := (x.rxSeq + 1) % 4096, heard := true })
    (bump64 (kB 1 0x060) d)))

theorem witness_FlitRowsComplete :
    ((teamed .hello).part.ioDies = 2 ∧ pinsCut (teamed .hello) = false ∧ flitHdr.crcOk = true ∧
      flitHdr.seq.val = (dbPort (teamed .hello) 0).rxSeq ∧ (dbPort (teamed .hello) 0).state = .hello ∧
      helloCheck (flitTaken (teamed .hello)) 0 0 2 0 1 = 0 ∧ helloCheck (flitTaken (teamed .hello)) 0 0 3 0 1 ≠ 0) ∧
    ((teamed .up).part.ioDies = 2 ∧ pinsCut (teamed .up) = false ∧ flitHdr.seq.val = (dbPort (teamed .up) 0).rxSeq ∧
      (dbPort (teamed .up) 0).state = .up ∧ canSend (dbPort (flitTaken (teamed .up)) 0) = true ∧
      (dbPort (flitTaken (teamed .up)) 0).echo = some ((5 : W64).toNat, 3)) ∧
    (let e := flitTaken (wrB (kB 0 0x048) 31 true (teamed .up))
     formed e = true ∧ teamId e ≠ 0 ∧ e.dbr.joining = false) ∧
    (let d := atTick 2 (teamed .up)
     let x := dbPort d 0
     x.replay ≠ [] ∧ x.replays < 8 ∧ x.ackAt + 2 ≤ tick d ∧ canSend x = true ∧ x.echoAt ≤ tick d) := by decide +kernel

theorem witness_TeamRowsComplete :
    (live.part.ioDies = 2 ∧ pinsCut live = false ∧ mayPut live sup (kB 2 0x040) 1 = true ∧
      (dbPort (touched sup live) 1).state = .disabled) ∧
    (mayPut (teamed .up) sup (kB 1 0x040) 0 = true ∧ (dbPort (touched sup (teamed .up)) 0).state ≠ .disabled) ∧
    (∀ st ∈ [PortState.training, .down, .retrain],
      let d := atTick 100000 (teamed st)
      (dbPort d 0).state = st ∧ d.clk.locked = true ∧ (dbPort d 0).retry = false ∧
        tick (atTick 5000 (teamed st)) ≤ (dbPort (atTick 5000 (teamed st)) 0).since + 5000 ∧
        (dbPort d 0).since + (if (dbPort d 0).retry then 100000 else 5000) ≤ tick d ∧ (dbPort d 0).since + 100000 ≤ tick d) ∧
    (mayPut live sup (kB 0 0x044) 1 = true ∧ (∀ n < 16, n ≠ 0 → (getCmp (touched sup live) n).mode = .free)) ∧
    (let d := atTick 1000000 { live with dbr := { live.dbr with forming := some 0 } }
     d.dbr.forming = some 0 ∧ 0 + 1000000 ≤ tick d) ∧
    (let d := wrB (kB 0 0x048) 31 true live
     formed d = true ∧ teamId d = 0 ∧ d.dbr.syncAt ≤ tick d) ∧
    (let d := atTick 0xFFFFFFFF { live with dbr := { live.dbr with gone := [(3, 1)] } }
     Map.get (fun _ => 0) d.dbr.gone 3 = 0 + 1 ∧ 0 + rd d (kB 0 0x050) ≤ tick d) := by decide +kernel

/-! ### The management bus -/

/-- The target is in I3C mode with IBIs enabled, and one waits while an alert is pending. -/
def interrupted : Dev :=
  flag0 T.PYR 0 0 0 (wr (kMt 0x044) 0x16 { live with mgmt := { live.mgmt with dyn := some 9, ibiOn := true, ibis := [T.PYR] } })

theorem witness_ManagementRowsComplete :
    (pinsCut live = false ∧ mgmtAnswers live = true ∧ windowOff 0x4020004C = none ∧ 0x4020004C % 4 = 0 ∧
      armed live T.MTB 0 0 1 = none) ∧
    (let e := bump (kMt 0x050) (mgmtOpen (mgmtPhase live 1 (leBytes 6 0x4020004C ++ leBytes 1 1)) live)
     (mgmtWords 0x4020004C 1 1 0 e).1.2.1 = 0) ∧
    (let e := bump (kMt 0x050) (mgmtOpen (mgmtPhase live 2 (leBytes 6 0x4020004C ++ leBytes 1 1 ++
       [(7 : W32)].flatMap (fun w => leBytes 4 w.toNat))) live)
     (mgmtStores 0x4020004C [7] 0 e).1.1 = 0) ∧
    ({ live with mgmt := { live.mgmt with reply := some .status, bytes := [0, 1, 2] } }.mgmt.reply.isSome = true) ∧
    (i3cMode live = false ∧ rdB (wr (kMt 0x044) 2 live) (kMt 0x044) 1 = true) ∧
    (let d := wr (kMt 0x044) 4 { live with mgmt := { live.mgmt with hjDone := false } }
     d.mgmt.hjDone = false ∧ d.mgmt.hjOn = true ∧ rdB d (kMt 0x044) 2 = true ∧ due d d.mgmt.hjAt = true ∧ d.mgmt.hjNacks < 7) ∧
    (pinsCut interrupted = false ∧ mgmtAnswers interrupted = true ∧ i3cMode interrupted = true ∧ ibiMode interrupted = true ∧
      interrupted.mgmt.ibis = T.PYR :: [] ∧ interrupted.mgmt.nacks < 7) ∧
    (let d := wr (rk T.PYR 0 0 0x014) 1 interrupted
     findBelow 0x1D (fun t => (alertPending d).testBit t) = some T.PYR) ∧
    (let d := { interrupted with mgmt := { interrupted.mgmt with nacks := 7 } }
     7 ≤ d.mgmt.nacks ∧ rdB d (kMt 0x044) 3 = false ∧
      (let e := wr (rk T.SYS 0 1 0x048) 1 (wrB (kMt 0x044) 3 true d)
       ibiMode e = true ∧ rdB e (kMt 0x044) 3 = true ∧ rdB e (rk T.SYS 0 1 0x048) 0 = true)) := by decide +kernel

/-! ### The two-wire controllers -/

/-- A list of two words runs on port 2; its first word is `w`. -/
def listRun : ListRun := { req := ⟨0, .command⟩, start := 0, len := 3, pc := 0 }
def listing (r : ListRun) (w : Nat) : Dev := { live with twc := [(2, { run := some r, ram := [(0, w), (1, 5)] })] }

theorem witness_ListRowsComplete :
    (∀ x ∈ [(2 ^ 28 + 0x100, 2), (2 * 2 ^ 28 + 0x100, 3), (4 * 2 ^ 28 + 0x100 + 3, 2)],
      let d := listing listRun x.1
      (twPort d 2).run = some listRun ∧ listOp d 2 listRun = some x.1 ∧ opWords x.1 = some x.2 ∧ opFits listRun x.2 = true ∧
        listRun.stop = false ∧ (twPort d 2).mode ≠ .stuck ∧ pinsCut d = false ∧ govAhead d 2 = false ∧
        armed d T.TWC 2 0 0 = none ∧ armed d T.TWC 2 0 3 = none ∧ firstTry listRun = true) ∧
    (∀ r ∈ [{ listRun with nacks := 1 }, { listRun with losts := 1 }],
      let d := listing r (2 ^ 28 + 0x100)
      (twPort d 2).run = some r ∧ listOp d 2 r = some (2 ^ 28 + 0x100) ∧ (r.nacks ≠ 0 ∨ r.losts ≠ 0)) ∧
    (∀ r ∈ [listRun, { listRun with till := some 0 }],
      let d := listing r (3 * 2 ^ 28 + 9)
      listOp d 2 r = some (3 * 2 ^ 28 + 9) ∧ opWords (3 * 2 ^ 28 + 9) = some 1 ∧ opFits r 1 = true ∧ (∀ t ∈ r.till, t ≤ tick d)) ∧
    (listOp (listing listRun 0) 2 listRun = some 0 ∧ opWords 0 = some 1) ∧
    (let r := { listRun with stop := true }
     (twPort (listing r 0) 2).run = some r ∧ r.stop = true) ∧
    (let d := wr (kW 2 (0x100 + 4 * 63)) (2 ^ 31 + 1) (wrB (kCTRL T.TWC 2) 0 true live)
     let e := touched sup d
     mayPut d sup (kW 2 0x04C) (256 + 63) = true ∧ enabled e T.TWC 2 = true ∧ (twPort e 2).mode ≠ .stuck ∧
      bit (listDir e 2 63) 31 = true ∧ (twPort e 2).run = none ∧ mayPut d sup (kW 2 0x054) 1 = true ∧
      mayPut d sup (kW 2 (0x100 + 4 * 63)) 5 = true ∧ (activeLists e 2).contains 63 = false ∧
      mayPut d sup (kW 2 0x084) 5 = true ∧ wordBusy e 2 (lramSel e 2) = none) ∧
    ((activeLists (touched sup (listing listRun 0)) 2).contains 0 = true) := by decide +kernel

/-! ### Touch, buttons, lights and hot-plug -/

/-- The interface is enabled, and much AON time has passed; input 22 is in a state. -/
def sensing (x : HmiIn) : Dev :=
  wr64 (kAon 0 0x040) 0xFFFFFFFF (wr (kM 0 0x04C) 0x10000 (wrB (kCTRL T.HMI 0) 0 true
    { live with hmi := { live.hmi with ins := [(22, x)] } }))

theorem witness_InterfaceRowsComplete :
    (let d := sensing { pin := true }
     (hmiIn d 22).pin ≠ (hmiIn d 22).level ∧ (hmiIn d 22).pinAt + inputMs (debounceMs d 22) ≤ aonNow d) ∧
    (let d := wr (kM 0 (0x084 + 8 * 22)) 1 (sensing { level := true })
     stuckDue d 22 = true) ∧
    (∀ ms ∈ [0, 5],
      let d := wr (kM 0 (0x080 + 8 * 22)) (ms * 65536) (sensing {})
      (hmiIn d 22).pin ≠ true ∧ decide (debounceMs d 22 = 0) = decide (ms = 0) ∧ (hmiIn d 22).level ≠ true ∧ d.pwr.state ≠ .off ∧
        { d with pwr := { d.pwr with state := .off } }.pwr.state = .off) ∧
    (∀ lv ∈ [false, true],
      let d := flushWaiting (wr (kM 0 (0x080 + 8 * 22)) 0x80000000 (sensing { gapEnd := 5, pin := lv, level := lv }))
      let e := updIn 22 (fun x => { x with gapEnd := 0 }) d
      (hmiIn d 22).gapEnd ≠ 0 ∧ (hmiIn d 22).gapEnd ≤ aonNow d + 1 ∧ (hmiIn d 22).pin = (hmiIn d 22).level ∧
        (hmiIn e 22).blocked = false ∧ decide (reported e 22 = (hmiIn e 22).posted) = !lv ∧ eventsOn e 22 = true) ∧
    (let d := sensing { masked := true }
     (hmiIn d 22).pin = (hmiIn d 22).level ∧ rearmDue d 22 = true ∧ rearmRuns d 22 = true) ∧
    (mayPut live sup (kM 0 (0x080 + 8 * 22)) 0 = true) ∧
    (let d := sensing {}
     enabled d T.HMI 0 = true ∧ d.pwr.state = .run ∧
      (d.hmi.scanned ≠ 0 → d.hmi.scanned - 1 + inputMs (max 1 (rdF d (kM 0 0x04C) 31 24)) ≤ aonNow d)) ∧
    (let d := { sensing {} with pwr := { live.pwr with state := .dormant } }
     d.pwr.state = .dormant ∧ d.hmi.scanned + quarterSec 1 ≤ aonNow d + 1) ∧
    (mayPut live sup (kM 1 (0x040 + 0x10 * 3)) 5 = true ∧ mayPut live sup (kM 1 0x080) 15 = true) ∧
    (let d := atTick 9 { live with hmi := { live.hmi with leds := [(3, { ends := 9 })] } }
     (getLed d 3).ends ≠ 0 ∧ (getLed d 3).ends ≤ tick d) := by decide +kernel

/-! ### Test access, fuses and the boot flash -/

/-- A line of the console. -/
def spoken (cs : List Nat) : List Byte := cs.map (BitVec.ofNat 8)

theorem witness_DebugRowsComplete :
    (tapOn live = true ∧ serviceClosed live = false ∧ consoleOn live = true ∧ pinsCut live = false ∧
      live.tap.mem % 4 ≠ 1 ∧ (updTap (fun t => { t with mem := 1 }) live).tap.mem % 4 = 1) ∧
    ((Instr.clamp, TapIr.clamp) ∈ [(Instr.highz, TapIr.highz), (.clamp, .clamp)]) ∧
    (let d := updTap (fun t => { t with ir := .memAccess }) live
     isData (tapFetch false 0x4020004C d).1 = true ∧ (tapPut false 0x4020004C 7 d).1 = .ok) ∧
    (live.tap.console = none ∧
      -- 'R 00004020004C 16', 'W 00004020004C 00000007', 'I' and 'R 1'
      consoleCmd (spoken ([82, 32] ++ [48, 48, 48, 48, 52, 48, 50, 48, 48, 48, 52, 67] ++ [32, 49, 54])) = .read 0x4020004C 16 ∧
      consoleCmd (spoken ([87, 32] ++ [48, 48, 48, 48, 52, 48, 50, 48, 48, 48, 52, 67] ++ [32, 48, 48, 48, 48, 48, 48, 48, 55]))
        = .write 0x4020004C 7 ∧
      consoleCmd (spoken [73]) = .ident ∧ consoleCmd (spoken [82, 32, 49]) = .malformed ∧
      (tapPut true 0x4020004C 7 live).1 = .ok ∧ (tapPut true 0x40000000000 7 live).1 = .fail .noRegion) := by
  refine ⟨?_, by simp, ?_, ?_⟩ <;> decide +kernel

/-- An operation on the flash began at tick 0. -/
def flashing (op : FlashOp) : Dev := atTick 10000 { live with xsp := { live.xsp with op := some (op, 0x1234, 0) } }

theorem witness_FlashRowsComplete :
    (let d := wr (kF1 0x040) 5 (wr (kF1 0x044) 1 live)
     let e := touched sup d
     mayPut d sup (kF1 0x048) 0x5F01 = true ∧ e.fus.prog = none ∧ bit 0x5F01 0 = true ∧
      progRefusal (updPwr (fun p => { p with vio18 := true }) e) (fld 0x5F01 15 8) = 0 ∧
      progRefusal (updPwr (fun p => { p with vio18 := false }) e) (fld 0x5F01 15 8) ≠ 0) ∧
    cmpOf live sup = 0 ∧
    ((touched sup live).xsp.op = none ∧ (∀ v ∈ [0, 256, 512, 0xFF * 2 ^ 24 + 3 * 256], mayPut live sup (kX 0x044) v = true)) ∧
    ({ live with fus := { live.fus with prog := some (5, 1) } }.fus.prog = some (5, 1)) ∧
    (∀ op ∈ [FlashOp.program, .erase4, .erase64, .register 5],
      let d := flashing op
      pinsCut d = false ∧ d.xsp.op = some (op, 0x1234, 0) ∧ 0 + 10000 ≤ tick d) := by decide +kernel

/-! ### Steps, flags and rights -/

theorem witness_StepRunsTheFrontCommand :
    ({ State.reset with pending := [.tick] }.pending = .tick :: []) ∧ State.reset.pending = [] := by decide

theorem witness_StepKeepsSettled :
    Settled State.reset.dev ∧ ∃ t, step { State.reset with pending := [.uartIdent []] } = .next t := by
  refine ⟨by unfold Settled; decide, ?_⟩
  exact ⟨_, rfl⟩

theorem witness_ResetIsSettled : atRest live = true := by decide

theorem witness_StepKeepsMemoriesCanonical :
    canonical State.reset.dev = true ∧ (∃ t, step { State.reset with pending := [.tick] } = .next t) ∧
    Instr.tick ≠ .xspCmdDone 0 [] := ⟨by decide, ⟨_, rfl⟩, fun h => by cases h⟩

theorem witness_MemoriesHoldWhatIsWritten :
    (stackBase ≤ stackBase + 60 ∧ (landStack (stackBase + 60) [1, 2, 3, 4, 5] stacked).1 = none ∧
      (landStack (stackBase + 60) [1, 2, 3, 4, 5] live).1 = some .stackOffline) ∧
    (readLram 3 2 (writeLram 3 [7, 8] live)).1 = [(7, false), (8, false)] ∧
    (flashByte (programPage 0x1FF (wr (kX 0x100) 0x0503 live)) 0x1FF, flashByte (programPage 0x1FF (wr (kX 0x100) 0x0503 live)) 0x100)
      = (3, 5) := by decide +kernel

/-- An access of compartment 1 to the yard. -/
def outsider (write : Bool) : Access := { who := .coach 0, cmp := 1, write := write }

/-- Page 0 of the yard belongs to compartment 0 with compartment 1 among its readers; changed by `f`. -/
def guarded (f : Desc → Desc) : Dev :=
  { yarded with yard := { yarded.yard with descs := [(0, f { w0 := 2 ^ 63 + 2 ^ 56 + 2 ^ 55 + 0x10000, w1 := 2 ^ 17 })] } }

theorem witness_AccessChecksDecide :
    (let d := guarded id
     behindHeld d (.coach 0) 0 = false ∧ yardSwitch d (.coach 0) 0 = false ∧ clusterCut d (.coach 0) 0 = false ∧
      clusterOut d 0 = false ∧ enabled d T.YRD 0 = true ∧ regionAt d 0x1000 = none ∧ (regionAt d 0).isSome = true ∧
      yardCheck d (outsider true) 0 4 = .fail .refusedRights (some 0) ∧ yardCheck d (outsider true) 0xFFE 4 = .fail .bounds (some 0) ∧
      yardCheck d { outsider true with cmp := 0 } 0 4 = .ok) := by decide +kernel

theorem witness_StickyFirstCaptures :
    rdB live (kFIRST T.PYR 0 0) 31 = false ∧
    (let d := { flag T.PYR 0 0 1 5 live with firsts := [] }
     rdB d (kFIRST T.PYR 0 0) 31 = true ∧ d.firsts.contains (kFIRST T.PYR 0 0) = false) ∧
    (let d := flag T.PYR 0 0 31 5 (flag T.PYR 0 0 1 5 live)
     rd d (kSTICKY T.PYR 0 0) &&& (0xFFFFFFFF ^^^ 2) ≠ 0 ∧ rd d (kSTICKY T.PYR 0 0) &&& (0xFFFFFFFF ^^^ 0x80000002) = 0) := by
  decide

theorem witness_WritesObeyRights :
    (populated live.part (kOWNER T.PYR 0) = true ∧ kOWNER T.PYR 0 % 4 = 0 ∧ writeMask depot (.host 1) (kOWNER T.PYR 0) = none) ∧
    (let k := 19923480
     k % 4 = 0 ∧ populated live.part k = true ∧ (writeMask live sup k).any (· ≠ 0) = true ∧ 0x040 ≤ keyOff k ∧
      ¬ (keyTy k = T.YRD ∧ keyPage k = 1 ∧ keyOff k = 0x050) ∧ blockRefuses live sup k 7 = false ∧ (accOf k).w1c = 0 ∧
      (accOf k).w1s = 0 ∧ rangesOf k = [] ∧ (∀ m e, blockWrite sup m k (7 % 2 ^ 32) e = none)) ∧
    (cmpOf depot (.host 1) ≠ 0 ∧ ownFunction (cmpOf depot (.host 1)) 19923480 = false ∧
      closedBus depot (.host 1) = false ∧ keyOff (kOWNER T.PYR 0) = 0x024 ∧ 0x040 ≤ keyOff 19923480 ∧ openMask 19923480 = 0) :=
  ⟨by decide, by refine ⟨by decide, by decide, by decide, by decide, by decide, by decide, by decide, by decide, by decide,
    fun _ _ => rfl⟩, by decide⟩

/-! ### Cells, tallies, semaphores and exceptions -/

/-- Cell 7 of the yard holds `c`. -/
def held (c : Cell39) : Dev := putCell 7 c yarded

theorem witness_CellReadActs :
    armed yarded T.YRD (stationAt 28) 0 0 = none ∧ armed yarded T.YRD (stationAt 28) 0 1 = none ∧
    (getCell (held (goodCell 5)) 7).syndrome = 0 ∧
    (∀ i < 7, (getCell (held (goodCell 5 ^^^ BitVec.ofNat 39 (1 <<< (32 + i)))) 7).syndrome = 1 <<< i) ∧
    (∀ i < 32, (getCell (held (goodCell 5 ^^^ BitVec.ofNat 39 (1 <<< i))) 7).syndrome = dataColumn i) ∧
    (getCell (held (poisonCell 5)) 7).syndrome = 0x7F ∧
    (let s := (getCell (held (goodCell 5 ^^^ 3)) 7).syndrome
     s ≠ 0 ∧ (∀ i < 7, s ≠ 1 <<< i) ∧ (∀ i < 32, s ≠ dataColumn i) ∧ s ≠ 0x7F) := by decide +kernel

theorem witness_CellWritesMerge :
    (writeCells 29 [1, 2, 3, 4, 5] (held (goodCell 5))).1 = true ∧
    ([some (1 : Byte), some 2, some 3, some 4].all Option.isSome = true) ∧
    ([some (1 : Byte), none, none, none].all Option.isSome = false ∧ armed (held (poisonCell 5)) T.YRD (stationAt 28) 0 0 = none ∧
      armed (held (poisonCell 5)) T.YRD (stationAt 28) 0 1 = none ∧ armed (held (poisonCell 5)) T.YRD (stationAt 28) 0 3 = none ∧
      (getCell (held (poisonCell 5)) 7).decode.poison = true) ∧
    (let acc : Access := { who := sup, cmp := 0, write := true }
     yardCheck (held (poisonCell 5)) acc 29 1 = .ok ∧ (landYard acc 29 [1] (held (poisonCell 5))).1 = false) ∧
    ((0 : Nat) < cellsTouched 29 1 ∧ (cellPart 29 [1] (29 / 4 + 0)).all Option.isSome = false ∧
      (writeCells 29 [1] (held (poisonCell 5))).1 = false) := by
  decide +kernel

theorem witness_TallyCountsWholeGranules :
    (0 : Nat) < 32 ∧ (getTally yarded 5).value < 2 ^ 32 := by decide

/-- Semaphore 0 of cluster 0 is `x`. -/
def semaphore (x : Sem) : Dev := { yarded with yard := { yarded.yard with sems := [(0, x)] } }

theorem witness_SemaphoreOperations :
    clusterOut yarded (0 / 256) = false ∧ cutOff yarded (homeStation (.ctl 0)) (0 / 256) = false ∧
    (1 ≠ (getSem (semaphore {}) 0).owner ∧ (1 : Nat) ≠ 0) ∧
    (let d := semaphore { kind := .counting, value := 0xFFFFFF }
     let x := getSem d 0
     x.kind = .counting ∧ x.value + 0 ≤ 0xFFFFFF ∧ 0xFFFFFF < x.value + 1 ∧ 0xFFFFFF ≤ x.value ∧ x.value < 0x1000000 ∧
      waitersOf d 0 = [] ∧ waitersUsed d 0 < 128) ∧
    (∀ st ∈ [LockState.free, .broken, .held],
      let x := getSem (semaphore { kind := .lock, state := st, holderId := 5 }) 0
      x.kind = .lock ∧ x.state = st ∧ heldBy (semaphore x) x 64 = false) ∧
    (let d := semaphore (lockTaken yarded 0 64 { kind := .lock })
     heldBy d (getSem d 0) 64 = true ∧ (getSem d 0).state = .held) ∧
    (let w : Waiter := ⟨0, 65, 0, 0, true, 0, none⟩
     let d := { semaphore {} with yard := { (semaphore {}).yard with waiters := List.replicate 128 w } }
     waitersOf d 0 = w :: List.replicate 127 w ∧ 128 ≤ waitersUsed d 0) := by decide +kernel

theorem witness_CountingGrantsInOrder :
    (let d := { semaphore { kind := .counting, value := 5 } with yard := { (semaphore { kind := .counting, value := 5 }).yard with
       waiters := [⟨0, 65, 0, 0, false, 3, none⟩, ⟨0, 66, 0, 0, false, 3, none⟩] } }
     ((waitersOf d 0).map (·.holder)).Nodup ∧ (waitersOf d 0).length = 2 ∧
      (waitersOf (grantCounting 128 0 d) 0).length = 1) := by decide +kernel

/-- Whether an exception of core `h` finds a stack for its frame and the push succeeds, and what then holds of its core. -/
def pushes (d : Dev) (h : Nat) (p : Core → Bool) : Bool :=
  let c := getCore d h
  let s := c.resident || c.super
  let sp := if s then c.ssp else c.csp
  let d0 := if h < 64 then bump (rk T.CCH h 1 0x0A0) d else d
  let r := pushFrame h sp (frameWords d0 h 0x07 0 0 sp 0 false) d0
  pushCheck d h sp s = some 0 && (armed d (coreTy h) (coreInst h) 0 0).isNone && !spParity d h s && r.1 && p (getCore r.2 h)

theorem witness_ExceptionEntry :
    pushes (wr (rk T.CTL 0 0 0x054) 0x3FFFF (ctlRuns {})) 64 (fun x => x.resident) = true ∧
    (∀ v ∈ [0, 0x100],
      pushes (coachRuns { csp := 0x800, stackRgn := some 0, handler := v }) 0
        (fun x => !x.resident && decide (x.handler = v)) = true) := by decide +kernel

end Sys2Proof.Tests
end

/-! ## Register accesses that nothing befalls on their way -/

namespace Sys2Proof.Machine

/-! ### The way to the block -/

/-- A packet that nothing befalls arrives and changes nothing. -/
theorem sendTo_clear {d : Dev} (w : Who) (second : Bool) (src : Option Nat) (t a : Nat) (h : d.net.way = .clear) :
    sendTo w second src t a d = (.arrives, d) := by
  simp only [sendTo, h]

/-- An access that nothing befalls arrives at its block, whichever window it is for. -/
theorem sendBus_clear {d : Dev} (acc : Access) (a : Nat) (h : d.net.way = .clear) : sendBus acc a d = (.arrives, d) := by
  unfold sendBus sendOff
  split
  · split <;> exact sendTo_clear _ _ _ _ _ h
  · split
    · exact sendTo_clear _ _ _ _ _ h
    · rfl

/-- A register access that nothing befalls acts on the module as the command finds it. -/
theorem regWay_clear (s : State) (w : Who) (write : Bool) (a n : Nat) (go : Dev → Dev) :
    regWay w write a n .clear go s.begins = go s.begins := by
  simp only [regWay, onWay_clear, sendBus_clear _ _ (show s.begins.net.way = .clear from rfl)]

section
variable {s : State} {w : Who} {a k : Nat} (hk : regKey (a % 2 ^ 46) = some k) (ht : toward s.begins w a = .here)
  (hw : onChip w = true)
include hk ht hw

/-- A write at an address of this module's pages is a write of the register. -/
theorem addrPut_here (n v : Nat) : addrPut w a n v .clear s.begins = regPut w k n v s.begins := by
  cases w with
  | host f => simp [onChip] at hw
  | _ => simp only [addrPut, hk, ht, regWay_clear]

/-- A read at an address of this module's pages is a read of the register. -/
theorem addrGet_here (n : Nat) : addrGet w a n .clear s.begins = regGet w k n s.begins := by
  cases w with
  | host f => simp [onChip] at hw
  | _ => simp only [addrGet, hk, ht, regWay_clear]

end

/-! ### Plain writes -/

/-- A block register whose block does nothing of its own stores the fields of the mask. -/
theorem storeWord_plain {w : Who} {m k v : Nat} {d : Dev} (ho : 0x040 ≤ keyOff k)
    (hy : ¬ (keyTy k = T.YRD ∧ keyPage k = 1 ∧ keyOff k = 0x050)) (hb : blockWrite w m k v d = none) :
    storeWord w m k v d = wr k (plainValue m (rd d k) k v) d := by
  have hlow : ¬ keyOff k < 0x040 := by omega
  have hrearm : (keyTy k = T.YRD && keyPage k = 1 && keyOff k = 0x050) = false := by simpa [and_assoc] using hy
  unfold storeWord
  split
  case h_6 => simp only [hlow, hrearm, hb, plainWrite, if_false, Bool.false_eq_true]
  all_goals omega

/-- Settles O1: nothing stops the write on its way, the rights and the block let it through, and the block, which does nothing
of its own, stores the open fields. -/
theorem plainRegisterWriteCompletes : Obligations.PlainRegisterWriteCompletes := by
  unfold Obligations.PlainRegisterWriteCompletes
  rintro s d rfl who addr value k hkey hhere hk hoff hrearm hplain hput
  have hchip : onChip who = true := by
    simp only [mayPut, Bool.and_eq_true] at hput
    obtain ⟨⟨⟨hw, -⟩, -⟩, -⟩ := hput
    exact hw
  calc exec (.registerWrite who addr false value .clear) s
      = effect (addrPut who addr.toNat 4 value.toNat .clear) s := rfl
    _ = effect (regCmd who k value.toNat) s := effect_of (addrPut_here hkey hhere hchip 4 value.toNat)
    _ = _ := by rw [effect_regCmd hput hk, storeWord_plain hoff hrearm (hplain _ _)]

/-! ### Reads of a latched high word (R62) -/

/-- A read of the word whose latch the requester holds returns the latched value and ends the latch. -/
theorem regRead_latched {w : Who} {k : Nat} {v : W32} {d : Dev} (hr : mayRead d w k = true)
    (hp : populated d.part k = true) (hl : latchOf d w = some (k, v)) : regRead w k d = (some v.toNat, dropLatch w d) := by
  simp [regRead, hr, hp, hl]

/-- A register page returns data without poison. -/
theorem readAnswer_plainBytes (bs : List Byte) : readAnswer (plainBytes bs) = .data bs false := by
  simp [plainBytes, readAnswer, Function.comp_def]

/-- A requester on the chip that reads the word whose latch it holds is answered the latched value, and the register keeps
what it holds. -/
theorem regGet_latched {w : Who} {k : Nat} {v : W32} {d : Dev} (hw : onChip w = true) (hk : k % 4 = 0)
    (hc : attachCut (pageTouched w d) w (0x40000000 + k) = false) (he : isCtrEntry k = false)
    (hr : mayRead (pageTouched w d) w k = true) (hp : populated (pageTouched w d).part k = true)
    (hl : latchOf (pageTouched w d) w = some (k, v)) :
    regGet w k 4 d = answer w (.data (leBytes 4 v.toNat) false) (touched w d) := by
  have hpage : readPage (pageAcc w false (pageTouched w d)) k 4 (pageTouched w d)
      = (plainBytes (leBytes 4 v.toNat), touched w d) := by
    simp only [readPage, entryWaits, he, pageAcc, hk, regRead_latched hr hp hl]
    rfl
  cases w with
  | host f => simp [onChip] at hw
  | _ => simp only [regGet, hc, hpage, readAnswer_plainBytes]; rfl

/-- CTL0 holds the high word of LAUNCHED (FGS page 1, 0x048) latched as 1, as after a read of the low word of a count of
2^32, which cleared the register. -/
def launchedLatched : State :=
  { State.reset with dev := { Dev.reset with latches := [(.ctl 0, rk T.FGS 0 1 0x04C, 1)] } }

/-- Refutes O3: its guard on latches speaks of the module after the access has ended the requester's latch, where it always
holds. So it admits CTL0 reading the high word of LAUNCHED while it holds that word latched as 1, which is answered 1 (R62);
the statement answers the 0 that the register holds. -/
theorem not_registerReadsComplete : ¬ Obligations.RegisterReadsComplete := by
  unfold Obligations.RegisterReadsComplete
  intro h
  have hkey : regKey ((0x4120104C : Addr).toNat % 2 ^ 46) = some 0x120104C := by decide
  have hhere : toward launchedLatched.begins (.ctl 0) (0x4120104C : Addr).toNat = .here := by decide
  have hcut : attachCut (pageTouched (.ctl 0) launchedLatched.begins) (.ctl 0) (0x40000000 + 0x120104C) = false := by decide
  have hpop : populated (pageTouched (.ctl 0) launchedLatched.begins).part 0x120104C = true := by decide
  have hread : mayRead (pageTouched (.ctl 0) launchedLatched.begins) (.ctl 0) 0x120104C = true := by decide
  obtain ⟨hclaim, -⟩ := h launchedLatched _ rfl (.ctl 0) 0x4120104C 0x120104C hkey hhere (by decide) rfl hcut hpop hread
    (by decide) (by decide) (by decide) (by decide) (by decide) (by decide)
  have hclaimed := hclaim (by decide) (by decide)
  have hanswered : exec (.counterReadClear (.ctl 0) 0x4120104C false .clear) launchedLatched = .next (launchedLatched.ends
      (answer (.ctl 0) (.data (leBytes 4 1) false) (touched (.ctl 0) launchedLatched.begins))) :=
    effect_of ((addrGet_here hkey hhere rfl 4).trans
      (regGet_latched rfl (by decide) hcut (by decide) hread hpop (v := 1) (by decide)))
  have hsame := Host.Outcome.next.inj (hanswered.symm.trans hclaimed)
  exact absurd (congrArg (fun t : State => t.dev.rsp) hsame) (by decide)

end Sys2Proof.Machine

/-! ## Page headers -/

namespace Sys2Proof.Machine

/-! ### Writes of header words (R51 to R56) -/

section
variable {w : Who} {m k v : Nat} {d : Dev}

/-- A write of CTRL makes the requests of its bits. -/
theorem storeWord_ctrl (ho : keyOff k = 0x008) : storeWord w m k v d = ctrlWrite (keyTy k) (keyInst k) v d := by
  simp only [storeWord, ho]

/-- A write of STICKY clears flags where the page has flags of its own. -/
theorem storeWord_sticky (ho : keyOff k = 0x010) (hs : ownSticky (keyTy k) (keyPage k) = true) :
    storeWord w m k v d = clearSticky (keyTy k) (keyInst k) (keyPage k) v d := by
  simp only [storeWord, ho, hs, if_true]

/-- A write of STICKY_FIRST does nothing. -/
theorem storeWord_first (ho : keyOff k = 0x018) : storeWord w m k v d = d := by
  simp [storeWord, ho]

/-- A write of INJECT arms an injection where the page has flags of its own. -/
theorem storeWord_inject (ho : keyOff k = 0x01C) (hs : ownSticky (keyTy k) (keyPage k) = true) :
    storeWord w m k v d = injectWrite (keyTy k) (keyInst k) (keyPage k) v d := by
  simp only [storeWord, ho, hs, if_true]

/-- A write of OWNER of an assignable block names its owner. -/
theorem storeWord_owner (ho : keyOff k = 0x024) (hp : keyPage k = 0) (ha : assignable k = true) :
    storeWord w m k v d = wr k (v % 16) d := by
  simp [storeWord, ho, hp, ha]

end

section
variable {s : State} {w : Who} {ty inst page off v : Nat} (hi : inst < instances s.begins.part ty) (hp : page < pagesPer ty)
include hi hp

/-- A header row of a page that the part has is a write of its word. -/
theorem effect_header (h4 : off % 4 = 0) (hput : mayPut s.begins w (rk ty inst page off) v = true) :
    effect (onPage ty inst page (regCmd w (rk ty inst page off) v)) s = .next (s.ends
      (storeWord w (openFields (pageTouched w s.begins) w (rk ty inst page off)) (rk ty inst page off) (v % 2 ^ 32)
        (touched w s.begins))) :=
  (effect_onPage hi hp).trans (effect_regCmd hput (rk_mod4 ty inst page h4))

end

/-- A row that writes CTRL, with a value that may depend on the module, makes the requests of its bits. -/
theorem effect_ctrl {s : State} {w : Who} {ty inst : Nat} (f : Dev → Nat) (hi : inst < instances s.begins.part ty)
    (hp : 0 < pagesPer ty) (hput : mayPut s.begins w (kCTRL ty inst) (f s.begins) = true) :
    effect (onPage ty inst 0 (fun d => regCmd w (kCTRL ty inst) (f d) d)) s =
      .next (s.ends (ctrlWrite ty inst (f s.begins % 2 ^ 32) (touched w s.begins))) := by
  have hslot := slotOk_of hi hp
  calc effect (onPage ty inst 0 (fun d => regCmd w (kCTRL ty inst) (f d) d)) s
      = effect (fun d => regCmd w (kCTRL ty inst) (f d) d) s := effect_onPage hi hp
    _ = effect (regCmd w (kCTRL ty inst) (f s.begins)) s := by simp only [effect_eq]
    _ = _ := by
      rw [effect_regCmd hput (rk_mod4 ty inst 0 (by decide)), storeWord_ctrl (k := kCTRL ty inst) (rk_off ty inst 0 (by decide)),
        kCTRL, rk_ty hslot (by decide), rk_inst hslot (by decide)]

/-- CTRL with ENABLE as it stands depends on ENABLE alone. -/
theorem ctrlWord_congr {d e : Dev} {ty inst : Nat} (h : enabled e ty inst = enabled d ty inst) (bits : Nat) :
    ctrlWord d ty inst bits = ctrlWord e ty inst bits := by
  simp only [ctrlWord, h]

/-! ### The requests of CTRL (R54, R470, R644) -/

section
variable {ty inst c : Nat} {d : Dev}

/-- A write of CTRL that asks for nothing but the other ENABLE enables or disables the unit. -/
theorem ctrlWrite_enable {on : Bool} (h : enabled d ty inst = !on) :
    ctrlWrite ty inst (b2n on % 2 ^ 32) d = enableUnit ty inst on d := by
  cases on <;> simp [ctrlWrite, b2n, bit, h, Nat.testBit]

/-- A block that has a unit is not the depot. -/
theorem not_depot_of_hasUnit (h : (capBits ty inst).testBit 0 = true) : ty ≠ T.DPT := by
  rintro rfl
  exact absurd h (by simp [capBits, T.DPT])

/-- A page with a unit code has a unit. -/
theorem hasUnit_of_unitCode (h : unitCode ty inst = some c) : (capBits ty inst).testBit 0 = true := by
  unfold unitCode at h
  split at h
  case isTrue => cases h
  case isFalse hn => simpa using hn

/-- With ENABLE as it stands, a write of CTRL of a unit with one request bit makes that request alone. -/
theorem ctrlWrite_request (h : (capBits ty inst).testBit 0 = true) :
    ctrlWrite ty inst (ctrlWord d ty inst 2 % 2 ^ 32) d = unitResetReq ty inst d ∧
    ctrlWrite ty inst (ctrlWord d ty inst 4 % 2 ^ 32) d = unitRequest ty inst true d ∧
    ctrlWrite ty inst (ctrlWord d ty inst 8 % 2 ^ 32) d = unitRequest ty inst false d := by
  have hty := not_depot_of_hasUnit h
  cases he : enabled d ty inst <;> simp [ctrlWrite, ctrlWord, b2n, bit, he, hty, Nat.testBit]

/-- A dispatch target's page has its unit id for a unit code. -/
theorem unitCode_unitPage : ∀ u < 0x52, ¬ (0x44 ≤ u ∧ u < 0x48) → unitCode (unitPage u).1 (unitPage u).2 = some u := by
  decide

/-- A unit reset of a dispatch target that is in none resets it (R112). -/
theorem unitResetReq_target {u : Nat} (hu : u < 0x52) (hgap : ¬ (0x44 ≤ u ∧ u < 0x48)) (hpage : unitPage u = (ty, inst))
    (hidle : rdB d (kCTRL ty inst) 1 = false) : unitResetReq ty inst d = resetUnit u d := by
  have hcode : unitCode ty inst = some u := by simpa only [hpage] using unitCode_unitPage u hu hgap
  have hunit := hasUnit_of_unitCode hcode
  simp only [unitResetReq, hunit, hidle, Bool.not_true, Bool.or_self, Bool.false_eq_true, if_false]
  unfold unitPage at hpage
  split at hpage
  case isTrue hcoach =>
    obtain ⟨rfl, rfl⟩ := Prod.mk.inj hpage
    simp
  case isFalse hcoach =>
    split at hpage
    case isTrue hctl =>
      obtain ⟨rfl, rfl⟩ := Prod.mk.inj hpage
      have hid : 0x40 + (u - 0x40) = u := by omega
      simp [T.CTL, T.CCH, hid]
    case isFalse hctl =>
      obtain ⟨hty, hinst⟩ := Prod.mk.inj hpage
      have hid : 0x48 + 2 * (ty - 0x0D) + inst = u := by omega
      have hengine : ty ≠ T.CCH ∧ ty ≠ T.CTL ∧ ty ≠ T.YRD ∧ ty ≠ T.INK ∧ ty ≠ T.STK := by
        simp only [T.CCH, T.CTL, T.YRD, T.INK, T.STK]; omega
      simp [hengine, hid]

/-- A STABLE_REQ of a unit in service, that is not CTL0, stables it (R470). -/
theorem unitRequest_stable (hc : unitCode ty inst = some c) (h0 : c ≠ 0x40) (hs : codeState d c ≠ .stabled) :
    unitRequest ty inst true d = stableUnit c d := by
  simp [unitRequest, hc, stableReq, h0, hs]

/-- A PROBATION_REQ of a stabled unit that is no link, and no cluster with a region in it, begins the test (R470). -/
theorem unitRequest_probation (hc : unitCode ty inst = some c) (hlink : c / 0x1000 ≠ 2) (hkind : c / 0x1000 < 4)
    (hs : codeState d c = .stabled) (hregion : c / 0x1000 = 1 → regionIn d (c % 0x1000) = false) :
    unitRequest ty inst false d = setUnitState (codePage c).1 (codePage c).2 .probation
      { d with integ := { d.integ with passed := d.integ.passed.filter (· ≠ c) } } := by
  have hk : ¬ 4 ≤ c / 0x1000 := by omega
  have hr : (decide (c / 0x1000 = 1) && regionIn d (c % 0x1000)) = false := by simpa using hregion
  simp [unitRequest, hc, probeReq, hk, hs, hr, hlink]

/-- A reset that completes ends UNIT_RESET, and a unit in RESETTING runs again: what blocks other than stacks, clusters and
cores do (R112). -/
theorem resetDone_unit (hc : ty ≠ T.CCH) (hl : ty ≠ T.CTL) (hy : ty ≠ T.YRD) (hbit : rdB d (kCTRL ty inst) 1 = true)
    (hst : unitState d ty inst = .resetting) :
    resetDone ty inst d = setUnitState ty inst .running (resetBit ty inst false d) := by
  have hkey : kSTATUS ty inst ≠ kCTRL ty inst := by unfold kSTATUS kCTRL rk; omega
  have hstill : unitState (resetBit ty inst false d) ty inst = .resetting := by
    rw [← hst]
    simp only [unitState, rdF, resetBit, wrB, rd_wr_other _ _ hkey]
  simp [resetDone, hbit, hc, hl, hy, hstill]

end

/-- A write of INJECT that arms a flag of the page arms it, where the block is not the human interface (R55). -/
theorem injectWrite_arm {ty inst page flag param : Nat} {d : Dev} (hf : flag < 32) (hp : param < 2 ^ 16)
    (hc : canInject ty page flag = true) (hty : ty ≠ T.HMI) :
    injectWrite ty inst page (2 ^ 31 + flag * 65536 + param) d = arm ty inst page flag param d := by
  have hn : fld (2 ^ 31 + flag * 65536 + param) 20 16 = flag := by
    simp only [fld, Nat.shiftRight_eq_div_pow]; omega
  have hd : fld (2 ^ 31 + flag * 65536 + param) 15 0 = param := by
    simp only [fld, Nat.shiftRight_eq_div_pow]; omega
  have harm : bit (2 ^ 31 + flag * 65536 + param) 31 = true := by
    simp only [bit, Nat.testBit_eq_decide_div_mod_eq, decide_eq_true_eq]; omega
  simp only [injectWrite, hn, hd, harm, hc, hty, Bool.not_true, Bool.or_self, Bool.false_eq_true, if_false]

/-! ### The header rows -/

section
variable {s : State} {w : Who} {ty inst page : Nat} (hi : inst < instances s.begins.part ty) (hp : page < pagesPer ty)
include hi hp

/-- A row that writes STICKY clears the flags that it names. -/
theorem effect_sticky {v : Nat} (hv : v < 2 ^ 32) (hs : ownSticky ty page = true)
    (hput : mayPut s.begins w (rk ty inst page 0x010) v = true) :
    effect (onPage ty inst page (regCmd w (rk ty inst page 0x010) v)) s =
      .next (s.ends (clearSticky ty inst page v (touched w s.begins))) := by
  have hslot := slotOk_of hi hp
  have hty : keyTy (rk ty inst page 0x010) = ty := rk_ty hslot (by decide)
  have hpage : keyPage (rk ty inst page 0x010) = page := rk_page hslot (by decide)
  rw [effect_header hi hp (by decide) hput, storeWord_sticky (rk_off ty inst page (by decide)) (by rw [hty, hpage, hs]),
    hty, hpage, rk_inst hslot (by decide), Nat.mod_eq_of_lt hv]

/-- A row that writes INJECT with ARM arms the flag that it names. -/
theorem effect_inject {flag param : Nat} (hf : flag < 32) (hparam : param < 2 ^ 16) (hs : ownSticky ty page = true)
    (hc : canInject ty page flag = true) (hhmi : ty ≠ T.HMI)
    (hput : mayPut s.begins w (rk ty inst page 0x01C) (2 ^ 31 + flag * 65536 + param) = true) :
    effect (onPage ty inst page (regCmd w (rk ty inst page 0x01C) (2 ^ 31 + flag * 65536 + param))) s =
      .next (s.ends (arm ty inst page flag param (touched w s.begins))) := by
  have hslot := slotOk_of hi hp
  have hty : keyTy (rk ty inst page 0x01C) = ty := rk_ty hslot (by decide)
  have hpage : keyPage (rk ty inst page 0x01C) = page := rk_page hslot (by decide)
  have hv : 2 ^ 31 + flag * 65536 + param < 2 ^ 32 := by omega
  rw [effect_header hi hp (by decide) hput, storeWord_inject (rk_off ty inst page (by decide)) (by rw [hty, hpage, hs]),
    hty, hpage, rk_inst hslot (by decide), Nat.mod_eq_of_lt hv, injectWrite_arm hf hparam hc hhmi]

end

section
variable {s : State} {w : Who} {ty inst : Nat} (hi : inst < instances s.begins.part ty) (hp : 0 < pagesPer ty)
include hi hp

/-- A row that writes OWNER of an assignable block names its owner. -/
theorem effect_owner {owner : Nat} (ho : owner < 16) (ha : (capBits ty inst).testBit 1 = true)
    (hput : mayPut s.begins w (kOWNER ty inst) owner = true) :
    effect (onPage ty inst 0 (regCmd w (kOWNER ty inst) owner)) s =
      .next (s.ends (wr (kOWNER ty inst) owner (touched w s.begins))) := by
  have hslot := slotOk_of hi hp
  have hassign : assignable (kOWNER ty inst) = true := by
    rw [assignable, kOWNER, rk_ty hslot (by decide), rk_inst hslot (by decide), ha]
  have hvalue : owner % 2 ^ 32 % 16 = owner := by omega
  calc effect (onPage ty inst 0 (regCmd w (kOWNER ty inst) owner)) s
      = .next (s.ends (storeWord w (openFields (pageTouched w s.begins) w (kOWNER ty inst)) (kOWNER ty inst)
          (owner % 2 ^ 32) (touched w s.begins))) := effect_header hi hp (by decide) hput
    _ = _ := by
      rw [storeWord_owner (k := kOWNER ty inst) (rk_off ty inst 0 (by decide)) (rk_page hslot (by decide)) hassign, hvalue]

/-- A row that writes the other ENABLE enables or disables the unit. -/
theorem effect_enable {on : Bool} (hput : mayPut s.begins w (kCTRL ty inst) (b2n on) = true)
    (he : enabled (touched w s.begins) ty inst = !on) :
    effect (onPage ty inst 0 (regCmd w (kCTRL ty inst) (b2n on))) s =
      .next (s.ends (enableUnit ty inst on (touched w s.begins))) :=
  (effect_ctrl (fun _ => b2n on) hi hp hput).trans (by rw [ctrlWrite_enable he])

variable (he : enabled (touched w s.begins) ty inst = enabled s.begins ty inst)
include he

/-- A row that writes CTRL with ENABLE as it stands, once the write's access has left ENABLE alone. -/
theorem effect_request {bits : Nat} (hput : mayPut s.begins w (kCTRL ty inst) (ctrlWord s.begins ty inst bits) = true) :
    effect (onPage ty inst 0 (fun d => regCmd w (kCTRL ty inst) (ctrlWord d ty inst bits) d)) s =
      .next (s.ends (ctrlWrite ty inst (ctrlWord (touched w s.begins) ty inst bits % 2 ^ 32) (touched w s.begins))) :=
  (effect_ctrl (fun d => ctrlWord d ty inst bits) hi hp hput).trans (by rw [ctrlWord_congr he])

end

/-- Settles O2: each row is a write of one header word of a page that the part has, whose block's rule is the stated effect;
the completion of a reset acts without a requester. -/
theorem headerRowsComplete : Obligations.HeaderRowsComplete := by
  unfold Obligations.HeaderRowsComplete
  rintro s d rfl who ty inst hinst
  refine ⟨fun page value hpage hown hput => effect_sticky hinst hpage value.isLt hown hput,
    fun page flag param hpage hown hinj hhmi hput =>
      effect_inject hinst hpage flag.isLt param.isLt hown hinj hhmi hput,
    fun hpages => ⟨fun owner hassign hput => effect_owner hinst hpages owner.isLt hassign hput,
      fun on hput hother => effect_enable hinst hpages hput hother, ?unitReset, ?requests, ?resetComplete⟩⟩
  case unitReset =>
    intro u hu hgap hpage hput hsame hidle
    have hcode : unitCode ty.val inst.val = some u := by simpa only [hpage] using unitCode_unitPage u hu hgap
    obtain ⟨hreset, -⟩ := ctrlWrite_request (d := touched who s.begins) (hasUnit_of_unitCode hcode)
    exact (effect_request hinst hpages hsame hput).trans (by rw [hreset, unitResetReq_target hu hgap hpage hidle])
  case requests =>
    intro c hcode hsame
    obtain ⟨-, hstable, hprobation⟩ := ctrlWrite_request (d := touched who s.begins) (hasUnit_of_unitCode hcode)
    constructor
    · intro hput hctl hserves
      exact (effect_request hinst hpages hsame hput).trans (by rw [hstable, unitRequest_stable hcode hctl hserves])
    · intro hput hlink hkind hstabled hregion
      exact (effect_request hinst hpages hsame hput).trans
        (by rw [hprobation, unitRequest_probation hcode hlink hkind hstabled hregion])
  case resetComplete =>
    intro hstk hcch hctl hyrd hbit hstate
    exact (effect_onPage hinst hpages).trans (effect_of (by rw [if_neg hstk, resetDone_unit hcch hctl hyrd hbit hstate]))

end Sys2Proof.Machine

/-! ## STICKY_FIRST (R52) -/

namespace Sys2Proof.Machine

section
variable {ty inst page n x : Nat} {d : Dev}

theorem kFIRST_ne_kSTICKY (ty inst page : Nat) : kFIRST ty inst page ≠ kSTICKY ty inst page := by
  unfold kFIRST kSTICKY rk; omega

/-- The word of STICKY_FIRST that flag `n` with DETAIL `x` leaves: VALID, FLAG and DETAIL. -/
def firstWord (n x : Nat) : Nat := 0x80000000 + n * 65536 + x % 65536

theorem firstWord_lt (hn : n < 32) : firstWord n x < 2 ^ 32 := by unfold firstWord; omega

theorem firstWord_valid (hn : n < 32) : bit (firstWord n x) 31 = true := by
  simp only [bit, firstWord, Nat.testBit_eq_decide_div_mod_eq, decide_eq_true_eq]; omega

theorem firstWord_flag (hn : n < 32) : fld (firstWord n x) 20 16 = n := by
  simp only [fld, firstWord, Nat.shiftRight_eq_div_pow]; omega

/-! ### Captures -/

/-- What a capture does: a flag is captured while VALID is 0, and in the step of the capture a lower-numbered one takes its
place. -/
theorem captureFirst_eq (ty inst page n x : Nat) (d : Dev) : captureFirst ty inst page n x d =
    if rdB d (kFIRST ty inst page) 31 = false then
      wr (kFIRST ty inst page) (firstWord n x) { d with firsts := kFIRST ty inst page :: d.firsts }
    else if d.firsts.contains (kFIRST ty inst page) = true ∧ n < rdF d (kFIRST ty inst page) 20 16 then
      wr (kFIRST ty inst page) (firstWord n x) d
    else d := by
  simp only [captureFirst, firstWord, Bool.not_eq_true', Bool.and_eq_true, decide_eq_true_eq]

/-- A flag is captured while VALID is 0, and the page counts as captured in this step. -/
theorem captureFirst_fresh (hn : n < 32) (hv : rdB d (kFIRST ty inst page) 31 = false) :
    rd (captureFirst ty inst page n x d) (kFIRST ty inst page) = firstWord n x ∧
    (captureFirst ty inst page n x d).firsts = kFIRST ty inst page :: d.firsts := by
  rw [captureFirst_eq, if_pos hv]
  exact ⟨by rw [rd_wr_same, Nat.mod_eq_of_lt (firstWord_lt hn)], rfl⟩

/-- A capture writes no word but STICKY_FIRST. -/
theorem rd_captureFirst_other {k : Nat} (h : k ≠ kFIRST ty inst page) : rd (captureFirst ty inst page n x d) k = rd d k := by
  rw [captureFirst_eq]
  split
  · exact rd_wr_other _ _ h
  · split
    · exact rd_wr_other _ _ h
    · rfl

/-- The module once flag `n` of a page is set and captured, before its alert is noted. -/
def flagSet (ty inst page n x : Nat) (d : Dev) : Dev :=
  captureFirst ty inst page n x (wr (kSTICKY ty inst page) (setBit (rd d (kSTICKY ty inst page)) n) d)

/-- Setting a flag captures it, and notes an alert that rises. -/
theorem flag_eq (ty inst page n x : Nat) (d : Dev) : flag ty inst page n x d =
    if !typeAlert d ty && typeAlert (flagSet ty inst page n x d) ty then push .alert (flagSet ty inst page n x d)
    else flagSet ty inst page n x d := rfl

theorem rd_push (t : Todo) (d : Dev) (k : Nat) : rd (push t d) k = rd d k := rfl

/-- Noting the alert changes no register. -/
theorem rd_flag (k : Nat) : rd (flag ty inst page n x d) k = rd (flagSet ty inst page n x d) k := by
  rw [flag_eq, apply_ite (rd · k), rd_push, ite_self]

/-- Noting the alert captures nothing. -/
theorem flag_firsts : (flag ty inst page n x d).firsts = (flagSet ty inst page n x d).firsts := by
  rw [flag_eq, apply_ite Dev.firsts, push_firsts, ite_self]

/-- A flag that sets reads 1. -/
theorem rdB_flag_same (hn : n < 32) : rdB (flag ty inst page n x d) (kSTICKY ty inst page) n = true := by
  rw [rdB, rd_flag, flagSet, rd_captureFirst_other (kFIRST_ne_kSTICKY ty inst page).symm, rd_wr_same, bit,
    Nat.testBit_mod_two_pow]
  simp [setBit, hn]

/-- A write of STICKY leaves STICKY_FIRST. -/
theorem rd_kFIRST_wr_kSTICKY (v : Nat) : rd (wr (kSTICKY ty inst page) v d) (kFIRST ty inst page) = rd d (kFIRST ty inst page) :=
  rd_wr_other d v (kFIRST_ne_kSTICKY ty inst page)

/-- A flag that sets while VALID is 0 is captured, and the page counts as captured in this step. -/
theorem flag_captures (hn : n < 32) (hv : rdB d (kFIRST ty inst page) 31 = false) :
    rd (flag ty inst page n x d) (kFIRST ty inst page) = firstWord n x ∧
    (flag ty inst page n x d).firsts = kFIRST ty inst page :: d.firsts := by
  have hclear : rdB (wr (kSTICKY ty inst page) (setBit (rd d (kSTICKY ty inst page)) n) d) (kFIRST ty inst page) 31 = false := by
    rwa [rdB, rd_kFIRST_wr_kSTICKY, ← rdB]
  obtain ⟨hword, hstep⟩ := captureFirst_fresh (x := x) hn hclear
  rw [wr_firsts] at hstep
  exact ⟨(rd_flag _).trans hword, flag_firsts.trans hstep⟩

/-- A flag that sets after the capture of the same step takes its place when its number is lower. -/
theorem flag_lowest {m y : Nat} (hm : m < 32) (hn : n < 32) (hfirst : rd d (kFIRST ty inst page) = firstWord n x)
    (hstep : d.firsts.contains (kFIRST ty inst page) = true) :
    rd (flag ty inst page m y d) (kFIRST ty inst page) = if m < n then firstWord m y else firstWord n x := by
  rw [rd_flag, flagSet, captureFirst_eq, rdB, rdF, rd_kFIRST_wr_kSTICKY, hfirst, firstWord_valid hn, firstWord_flag hn, wr_firsts,
    hstep]
  by_cases hlow : m < n
  · simpa [hlow] using firstWord_lt hm
  · simp [hlow, rd_kFIRST_wr_kSTICKY, hfirst]

/-- A flag that sets while VALID is 1, captured in an earlier step, leaves STICKY_FIRST. -/
theorem flag_keeps (hv : rdB d (kFIRST ty inst page) 31 = true)
    (hstep : d.firsts.contains (kFIRST ty inst page) = false) :
    rd (flag ty inst page n x d) (kFIRST ty inst page) = rd d (kFIRST ty inst page) := by
  rw [rd_flag, flagSet, captureFirst_eq, if_neg (by rw [rdB, rd_kFIRST_wr_kSTICKY, ← rdB, hv]; decide), wr_firsts, hstep,
    if_neg (by simp), rd_kFIRST_wr_kSTICKY]

/-! ### Clearing -/

/-- A W1C write leaves the flags that it does not name; with the last of them STICKY_FIRST becomes zero, and it stays while
one is left. -/
theorem rd_clearSticky {v : Nat} (hv : v < 2 ^ 32) :
    let rest := rd d (kSTICKY ty inst page) &&& (0xFFFFFFFF ^^^ v)
    rd (clearSticky ty inst page v d) (kSTICKY ty inst page) = rest ∧
    rd (clearSticky ty inst page v d) (kFIRST ty inst page) = if rest = 0 then 0 else rd d (kFIRST ty inst page) := by
  intro rest
  have hrest : rest % 2 ^ 32 = rest := Nat.mod_eq_of_lt (Nat.lt_of_le_of_lt Nat.and_le_left (rd_lt d _))
  simp only [clearSticky, Nat.mod_eq_of_lt hv, rd_wr_same]
  rw [show (rd d (kSTICKY ty inst page) &&& (0xFFFFFFFF ^^^ v)) = rest from rfl, hrest]
  split
  case isTrue hzero =>
    refine ⟨?_, (rd_wr_same _ _ _).trans (Nat.zero_mod _)⟩
    rw [rd_wr_other _ _ (kFIRST_ne_kSTICKY ty inst page).symm, rd_wr_same, hrest]
  case isFalse hleft => exact ⟨by rw [rd_wr_same, hrest], rd_kFIRST_wr_kSTICKY rest⟩

end

/-- Settles O49: by what a capture does to STICKY_FIRST, what a W1C write leaves of it, and the header word that no write
reaches. -/
theorem stickyFirstCaptures : Obligations.StickyFirstCaptures := by
  unfold Obligations.StickyFirstCaptures
  intro d ty inst page k
  refine ⟨fun n x hn => ⟨rdB_flag_same hn, fun hv => ?captured, flag_keeps⟩, fun v hv => ?cleared,
    fun w m v => storeWord_first (rk_off ty inst page (by decide))⟩
  case captured =>
    obtain ⟨hword, hstep⟩ := flag_captures (x := x) hn hv
    exact ⟨hword, fun m y hm => flag_lowest hm hn hword (by rw [hstep]; simp)⟩
  case cleared =>
    obtain ⟨hsticky, hfirst⟩ := rd_clearSticky (ty := ty) (inst := inst) (page := page) (d := d) hv
    refine ⟨hsticky, fun hzero => ?_, fun hleft => hfirst.trans (if_neg hleft)⟩
    rw [rdB, hfirst.trans (if_pos hzero)]
    rfl

end Sys2Proof.Machine

/-! ## Rights of writes (R646) -/

namespace Sys2Proof.Machine

section
variable {d : Dev} {w : Who} {k v m : Nat}

/-- Ending a latch changes no register. -/
theorem rd_dropLatch (w : Who) (d : Dev) (k : Nat) : rd (dropLatch w d) k = rd d k := rfl

/-! ### Refused writes -/

/-- A write of a word in which the requester may write no field only ends its latch. -/
theorem regWrite_refused (h : writeMask d w k = none) : regWrite w k v d = (false, dropLatch w d) := by
  simp only [regWrite, h]

/-- A 32-bit write of a page in which the requester may write no field is answered as refused. -/
theorem writePage_refused (hk : k % 4 = 0) (h : writeMask d w k = none) :
    (writePage (pageAcc w true d) k (leBytes 4 v) d).1 = .fail .refusedRights := by
  have hrearm : rearmOff d w k (leNat (leBytes 4 v)) = false := by simp [rearmOff, h]
  simp only [writePage, pageAcc, leBytes_length, hk, decide_true, Bool.and_self, if_true, regWrite_refused h, hrearm,
    Bool.false_eq_true, if_false]

/-! ### Writes of open fields -/

/-- A word without ranged, W1C or W1S fields takes the written bits of its open fields and keeps the others. -/
theorem testBit_plainValue {old i : Nat} (hc : (accOf k).w1c = 0) (hs : (accOf k).w1s = 0) (hr : rangesOf k = [])
    (hi : i < 32) : (plainValue m old k v).testBit i =
      if ((accOf k).rw ||| (accOf k).sup).testBit i && m.testBit i then v.testBit i else old.testBit i := by
  have hclamp : ∀ x, clampRanges k x = x := fun x => by simp only [clampRanges, hr, List.foldl_nil]
  have hones : (0xFFFFFFFF : Nat).testBit i = true := (Nat.testBit_two_pow_sub_one 32 i).trans (decide_eq_true hi)
  simp only [plainValue, hclamp, hc, hs, Nat.testBit_or, Nat.testBit_and, Nat.testBit_xor, hones, Nat.zero_testBit]
  cases ((accOf k).rw.testBit i || (accOf k).sup.testBit i) && m.testBit i <;> simp

/-- A write of a word of which the requester may write fields, and which the block takes, stores the word. -/
theorem regWrite_stores (hp : populated d.part k = true) (h : writeMask d w k = some m) (hm : m ≠ 0)
    (hb : blockRefuses d w k v = false) : regWrite w k v d = (true, storeWord w m k (v % 2 ^ 32) (dropLatch w d)) := by
  simp [regWrite, h, hp, hm, hb]

/-! ### Rights of the compartments other than 0 -/

/-- What a requester of a compartment other than 0 may write (R57): nothing of OWNER, or of a page that is not its own;
elsewhere the open fields, where there are some. -/
theorem writeMask_compartment (hp : populated d.part k = true) (hc : cmpOf d w ≠ 0)
    (hf : ownFunction (cmpOf d w) k = false) (hb : closedBus d w = false) :
    (keyOff k = 0x024 → writeMask d w k = none) ∧
    (0x040 ≤ keyOff k → openMask k = 0 → writeMask d w k = none) ∧
    ∀ m, writeMask d w k = some m → m = openMask k ∨ m = 0 := by
  simp only [writeMask, hp, hb, hc, hf, Bool.not_true, Bool.false_eq_true, if_false, decide_false, Bool.or_self]
  split
  case isTrue hforeign => simp
  case isFalse hown =>
    split
    case isTrue hheader => simp
    case isFalse hother =>
      have howner : keyOff k ≠ 0x024 := fun ho => hother (by simp [ho])
      split
      case isTrue hopen =>
        exact ⟨fun ho => absurd ho howner, fun _ h0 => absurd h0 hopen, fun m hm => .inl (Option.some.inj hm).symm⟩
      case isFalse hnone =>
        split
        case isTrue hzero =>
          have hlow : keyOff k < 0x040 := by
            simp only [Bool.or_eq_true, Bool.and_eq_true, decide_eq_true_eq] at hzero; omega
          exact ⟨fun ho => absurd ho howner, fun ho => absurd hlow (by omega), fun m hm => .inr (Option.some.inj hm).symm⟩
        case isFalse => simp

end

/-- Settles O50: a word without open fields is refused before anything is stored; one with open fields is a plain word, whose
bits are merged under the mask; and the mask of a compartment other than 0 holds open fields alone. -/
theorem writesObeyRights : Obligations.WritesObeyRights := by
  unfold Obligations.WritesObeyRights
  intro d w k v hk hp
  refine ⟨fun hnone => ⟨writePage_refused hk hnone, regWrite_refused hnone, rd_dropLatch w d⟩, ?stored,
    fun hc hf hb => writeMask_compartment hp hc hf hb⟩
  intro m hmask hm hoff hrearm hplain hblock hc hs hr
  rw [regWrite_stores hp hmask hm hblock, storeWord_plain hoff hrearm (hplain _), rd_dropLatch]
  refine ⟨rfl, fun i hi => ?_, fun j hj => ?_⟩
  · rw [rd_wr_same, Nat.testBit_mod_two_pow, testBit_plainValue hc hs hr hi, Nat.testBit_mod_two_pow]
    simp [hi]
  · rw [rd_wr_other _ _ hj, rd_dropLatch]

end Sys2Proof.Machine

/-! ## The governor (R87 to R97, R560) -/

namespace Sys2Proof.Machine

section
variable {d e : Dev} {f : Gov → Gov}

/-! ### Words of the GOV pages -/

/-- Two words of the GOV pages are one word when page and offset agree. -/
theorem kV_inj {p q o n : Nat} (ho : o < 0x1000) (hn : n < 0x1000) : kV p o = kV q n ↔ p = q ∧ o = n := by
  unfold kV rk; omega

/-- A write of a GOV word leaves the GOV words of other pages and offsets alone. -/
theorem rd_wr_kV {p q o n v : Nat} (ho : o < 0x1000) (hn : n < 0x1000) (h : ¬ (q = p ∧ n = o)) :
    rd (wr (kV p o) v d) (kV q n) = rd d (kV q n) :=
  rd_wr_other d v (fun heq => h ((kV_inj hn ho).mp heq))

/-- GOV_CTRL takes its bits by the governor's rule. -/
theorem blockWrite_govCtrl (w : Who) (m v : Nat) (d : Dev) : blockWrite w m (kV 0 0x040) v d = some (govCtrl v d) := rfl

/-- MANUAL_TARGET takes its value by the governor's rule. -/
theorem blockWrite_manualTarget (w : Who) (m v : Nat) (d : Dev) :
    blockWrite w m (kV 0 0x05C) v d = some (manualTarget v d) := rfl

/-! ### What the governor's own state leaves alone -/

/-- Two changes of the governor in a row are one. -/
theorem updGov_updGov (g : Gov → Gov) : updGov f (updGov g d) = updGov (fun v => f (g v)) d := rfl

@[simp] theorem govAuto_updGov : govAuto (updGov f d) = govAuto d := rfl
@[simp] theorem enabled_updGov (ty inst : Nat) : enabled (updGov f d) ty inst = enabled d ty inst := rfl
@[simp] theorem rdF_updGov (k hi lo : Nat) : rdF (updGov f d) k hi lo = rdF d k hi lo := rfl

/-- The ceiling depends on the boost budget and on the thermal ceiling alone of what the governor holds (R90). -/
theorem govCeiling_updGov (hb : (f d.gov).boostOut = d.gov.boostOut) (ht : (f d.gov).thermal = d.gov.thermal) :
    govCeiling (updGov f d) = govCeiling d := by
  simp only [govCeiling, updGov_gov, hb, ht]
  rfl

/-- A new target changes what the governor holds and nothing else (R93). -/
theorem setTarget_updGov (mv : Nat) (th : Bool) (a : Nat) (d : Dev) : ∃ f, setTarget mv th a d = updGov f d := by
  unfold setTarget
  split
  case isTrue => exact ⟨id, rfl⟩
  case isFalse =>
    dsimp only
    split
    case h_1 => exact ⟨_, rfl⟩
    case h_2 =>
      split
      · exact ⟨id, rfl⟩
      · exact ⟨_, rfl⟩

/-- A new target keeps the part. -/
theorem setTarget_part (mv : Nat) (th : Bool) (a : Nat) (d : Dev) : (setTarget mv th a d).part = d.part := by
  obtain ⟨f, hf⟩ := setTarget_updGov mv th a d
  rw [hf, updGov_part]

/-! ### Evaluation (R91, R95) -/

/-- In AUTO mode a change of the limits notes whether temperature has moved the ceiling, and commands nothing. -/
theorem limited_auto {th : Bool} {g : Dev → Dev} (h : govAuto (g d) = true) : limited th g d =
    updGov (fun v => { v with cooled := v.cooled || (th && decide (govCeiling (g d) ≠ govCeiling d)) }) (g d) := by
  simp only [limited, h, if_true]

/-- A pressure below the band lifts the target by a step, up to the ceiling (R91). -/
theorem autoEvaluate_below {th : Bool} {p : Int} (hp : pressure d = some p)
    (hlow : p < toSigned 16 (rdF d (kV 0 0x050) 15 0)) : autoEvaluate th d =
      (let n := min (vcmd d + rdF d (kV 0 0x04C) 7 0) (govCeiling d)
       setTarget (govClamp d n) th (if vcmd d < n then 1 else 0) (updGov (fun g => { g with above := 0 }) d)) := by
  simp only [autoEvaluate, hp, if_pos hlow]

/-- A thermal step changes the thermal ceiling of the governor and nothing else (R97). -/
theorem thermalStep_updGov (d : Dev) : ∃ n, thermalStep d = updGov (fun g => { g with thermal := n }) d := ⟨_, rfl⟩

@[simp] theorem thermalStep_part : (thermalStep d).part = d.part := by
  obtain ⟨n, hn⟩ := thermalStep_updGov d
  rw [hn, updGov_part]

@[simp] theorem thermalStep_cooled : (thermalStep d).gov.cooled = d.gov.cooled := by
  obtain ⟨n, hn⟩ := thermalStep_updGov d
  rw [hn, updGov_gov]

@[simp] theorem rdF_thermalStep (k hi lo : Nat) : rdF (thermalStep d) k hi lo = rdF d k hi lo := by
  obtain ⟨n, hn⟩ := thermalStep_updGov d
  rw [hn, rdF_updGov]

@[simp] theorem govAuto_thermalStep : govAuto (thermalStep d) = govAuto d := by
  rw [govAuto, rdF_thermalStep, govAuto]

/-- An evaluation that is due, with the governor enabled in AUTO mode: the thermal ceiling moves first, and whether it moved the
ceiling is what the evaluation hears (R93, R97). -/
theorem govEvaluate_auto (hdue : evalDue d = true) (hon : enabled d T.GOV 0 = true) (hauto : govAuto d = true) :
    govEvaluate d =
      (let u := thermalStep (updGov (fun g => { g with evaled := tick d }) d)
       autoEvaluate (d.gov.cooled || decide (govCeiling u ≠ govCeiling d))
         (updGov (fun g => { g with cooled := false }) u)) := by
  have hbase : govCeiling (updGov (fun g => { g with evaled := tick d }) d) = govCeiling d := govCeiling_updGov rfl rfl
  have hmode : govAuto (thermalStep (updGov (fun g => { g with evaled := tick d }) d)) = true := by
    rw [govAuto_thermalStep, govAuto_updGov, hauto]
  have hmoved := limited_auto (th := true) hmode
  rw [hbase] at hmoved
  rw [govEvaluate, if_neg (by simp [hdue, hon]), hmoved]
  dsimp only
  rw [govAuto_updGov, if_pos hmode, updGov_updGov, updGov_gov, thermalStep_cooled, updGov_gov, Bool.true_and]

/-- GOV_EVALUATE of a part with one I/O die, with the pressure below the band: the governor acts alone (R89, R91). -/
theorem govPeriod_below {p : Int} (hdue : evalDue d = true) (hon : enabled d T.GOV 0 = true) (hdies : d.part.ioDies = 1)
    (hauto : govAuto d = true) :
    (let u := thermalStep (updGov (fun g => { g with evaled := tick d }) d)
     let th := d.gov.cooled || decide (govCeiling u ≠ govCeiling d)
     let e := updGov (fun g => { g with cooled := false }) u
     pressure e = some p → p < toSigned 16 (rdF d (kV 0 0x050) 15 0) → govPeriod d =
      (let n := min (vcmd e + rdF e (kV 0 0x04C) 7 0) (govCeiling e)
       setTarget (govClamp e n) th (if vcmd e < n then 1 else 0) (updGov (fun g => { g with above := 0 }) e))) := by
  intro u th e hp hlow
  have hword : rdF e (kV 0 0x050) 15 0 = rdF d (kV 0 0x050) 15 0 := by
    rw [rdF_updGov, rdF_thermalStep, rdF_updGov]
  have hstep := autoEvaluate_below (th := th) hp (by rw [hword]; exact hlow)
  have heval : govEvaluate d = autoEvaluate th e := govEvaluate_auto hdue hon hauto
  have hpart : (govEvaluate d).part = d.part := by
    rw [heval, hstep, setTarget_part, updGov_part, updGov_part, thermalStep_part, updGov_part]
  have hone : ¬ (govEvaluate d).part.ioDies = 2 := by rw [hpart, hdies]; decide
  rw [govPeriod, if_pos hdue, teamPart, if_neg hone, heval, hstep]

/-- SETTLE_EXPIRE once SETTLE_US has passed (R93, R96). -/
theorem settleExpire_due {t : Nat} (hs : d.gov.settle = some t) (ht : t ≤ tick d) : settleExpire d =
    updGov (fun g => { g with settle := none, reading := true, boosting := if g.vcmd ≤ 850 then none else g.boosting }) d := by
  simp only [settleExpire, hs, if_neg (Nat.not_lt.mpr ht)]

/-! ### Transactions on BUS1 (R94, R552, R560) -/

/-- BUS1 once a START of the governor is counted and the lines are found free. -/
def startOnFreeLines (e : Dev) : Dev :=
  updTw 1 (fun x => { x with scl := true, sda := true }) (twCount 1 5 (twCount 1 0 e))

/-- A governor that may use BUS1 has no transaction under way. -/
theorem txn_of_govFree (h : govFree d = true) : d.gov.txn = none := by
  simp only [govFree, Bool.and_eq_true, Option.isNone_iff_eq_none] at h
  exact h.2

/-- A transaction that begins on free lines puts its bytes on the bus. -/
theorem govOnBus_free {t : GovTxn} {f : Dev → Dev} (hbegun : (f d).gov.txn = some t) (hidle : d.gov.txn = none)
    (hmode : (twPort (f d) 1).mode ≠ .stuck) (harm : armed (f d) T.TWC 1 0 3 = none) :
    govOnBus .free f d = updTw 1 (fun x => { x with wire := (govWire t (startOnFreeLines (f d))).1 })
      (govWire t (startOnFreeLines (f d))).2 := by
  have hcounted : armed (twCount 1 5 (twCount 1 0 (f d))) T.TWC 1 0 3 = none := harm
  simp only [govOnBus, hbegun, hidle, Option.isSome_none, Bool.false_eq_true, if_false, hmode, injectedLines, hcounted,
    lineCheck, if_true]
  rfl

/-- The same of a change of the governor's own state, over pins that are connected. -/
theorem overPins_govOnBus {t : GovTxn} {f : Dev → Dev} {g : Gov → Gov} (hf : f d = updGov g d)
    (hbegun : (g d.gov).txn = some t) (hpins : pinsCut d = false) (hfree : govFree d = true)
    (hmode : (twPort d 1).mode ≠ .stuck) (harm : armed d T.TWC 1 0 3 = none) :
    overPins (govOnBus .free f) d = updTw 1 (fun x => { x with wire := (govWire t (startOnFreeLines (updGov g d))).1 })
      (govWire t (startOnFreeLines (updGov g d))).2 := by
  rw [overPins_open hpins, govOnBus_free (t := t) (by rw [hf]; exact hbegun) (txn_of_govFree hfree) (by rw [hf]; exact hmode)
    (by rw [hf]; exact harm), hf]

/-- PAGE precedes a command that is due (R560). -/
theorem govPage_due (hfree : govFree d = true) (hen : pageEn d = true) (hp : d.gov.paged = false)
    (hdue : (voutDue d || d.gov.reading) = true) : govPage d = updGov (fun g => { g with txn := some .page }) d := by
  simp only [govPage, hfree, hen, hp, hdue, Bool.not_false, Bool.and_self, if_true]

/-- A command goes without PAGE, or after it. -/
theorem paged_or_off (h : pageEn d = true → d.gov.paged = true) : (!pageEn d || d.gov.paged) = true := by
  cases hen : pageEn d with
  | false => rfl
  | true => simp [h hen]

/-- VOUT_COMMAND takes the target that waits (R93). -/
theorem govVout_due {v : Nat} {th : Bool} (hnext : d.gov.next = some (v, th)) (hfree : govFree d = true)
    (hdue : voutDue d = true) (hp : pageEn d = true → d.gov.paged = true) : govVout d = updGov (fun g => { g with
      txn := some (.vout v th), next := g.later.map (fun w => (w, false)), later := none, paged := false }) d := by
  simp only [govVout, hnext, hfree, hdue, paged_or_off hp, Bool.and_self, if_true]

/-- READ_VOUT once it is due (R93). -/
theorem govRead_due (hfree : govFree d = true) (hr : d.gov.reading = true) (hp : pageEn d = true → d.gov.paged = true) :
    govRead d = updGov (fun g => { g with txn := some .read, reading := false, paged := false }) d := by
  simp only [govRead, hfree, hr, paged_or_off hp, Bool.and_self, if_true]

/-- A VOUT_COMMAND that ends well is the last commanded VCORE, and settles (R93, R94, R96). -/
theorem pmbusDone_vout {v word : Nat} {th : Bool} (ht : d.gov.txn = some (.vout v th)) (harm : armed d T.GOV 0 0 0 = none) :
    pmbusDone 0 word d = updGov (fun g => { g with
        vcmd := v, settle := some (tick d + rdF d (kV 0 0x070) 15 0)
        boosting := if 850 < v && g.boosting.isNone then some (tick d) else g.boosting })
      (updGov (fun g => { g with txn := none, fails := 0, pageFails := 0 }) d) := by
  simp [pmbusDone, ht, harm]

/-- A transaction that ends well, with no error armed on the port, frees the port for a list that waits. -/
theorem govOffBus_done {t : GovTxn} {word : Nat} {l : Lines} (ht : d.gov.txn = some t) (harm : armed d T.TWC 1 0 0 = none) :
    govOffBus 0 word l d = startNext 1 (pmbusDone 0 word d) := by
  simp [govOffBus, ht, harm, govFlags]

/-! ### Targets that are written (R95) -/

/-- MANUAL_TARGET in MANUAL mode is commanded at once. -/
theorem manualTarget_manual {v : Nat} (hv : v < 65536) (h : govAuto d = false) : manualTarget v d =
    (let e := wr (kV 0 0x05C) v d
     setTarget (govClamp e (rdF e (kV 0 0x05C) 15 0)) false 0 e) := by
  have hmode : govAuto (wr (kV 0 0x05C) v d) = false := by
    rw [← h, govAuto, rdF, rd_wr_kV (by decide) (by decide) (by decide)]
    rfl
  simp [manualTarget, Nat.mod_eq_of_lt hv, hmode, govApply]

/-! ### Temperature (R97) -/

/-- The highest reading depends on the part and on the sensors' words. -/
theorem tjMax_congr (hp : e.part = d.part) (h : ∀ k, tjOf e k = tjOf d k) : tjMax e = tjMax d := by
  simp only [tjMax, hp, h]

/-- TJ_MAX is no sensor's word. -/
theorem tjMax_wr_tjMax (v : Nat) (d : Dev) : tjMax (wr (kV 1 0x048) v d) = tjMax d := by
  refine tjMax_congr rfl fun k => ?_
  have hkey : kV 1 (0x060 + 4 * k) ≠ kV 1 0x048 := by unfold kV rk; omega
  simp only [tjOf, rd_wr_other d v hkey]

/-- Below THROT_ON no threshold of R97 acts, and the marks of the thresholds that were passed clear. -/
theorem thermalCheck_below (hon : enabled d T.GOV 0 = true) (h : (tjMax d).2 < 16 * throtOn d) :
    thermalCheck d = updGov (fun g => { g with throttle := false, hot := false }) d := by
  have hthrot : throtOn d ≤ 100 := Nat.min_le_left _ _
  have hwarm : ¬ ((16 * throtOn d : Nat) : Int) ≤ (tjMax d).2 := by omega
  have hhot : ¬ (105 * 16 : Int) ≤ (tjMax d).2 := by omega
  simp only [thermalCheck, hon, hwarm, hhot, decide_false, Bool.not_true, Bool.false_and, Bool.false_eq_true, if_false]

/-- A word of GOV page 1 leaves MODE and ENABLE of the governor alone. -/
theorem gov_page1 (o v : Nat) (ho : o < 0x1000) :
    govAuto (wr (kV 1 o) v d) = govAuto d ∧ enabled (wr (kV 1 o) v d) T.GOV 0 = enabled d T.GOV 0 := by
  have hctrl : rd (wr (kV 1 o) v d) (kCTRL T.GOV 0) = rd d (kCTRL T.GOV 0) :=
    rd_wr_kV (p := 1) (q := 0) (n := 0x008) ho (by decide) (by omega)
  have hmode : rd (wr (kV 1 o) v d) (kV 0 0x040) = rd d (kV 0 0x040) := rd_wr_kV ho (by decide) (by omega)
  constructor
  · rw [govAuto, rdF, hmode]
    rfl
  · simp only [enabled, rdB, hctrl]

/-- TJ_SENSOR_UPDATE in AUTO mode, below THROT_ON. -/
theorem tjUpdate_below {k : Nat} {v : BitVec 16} (hk : (tjSensors d.part).contains k = true) (hk18 : k < 18)
    (hauto : govAuto d = true) (hon : enabled d T.GOV 0 = true) :
    (let e := wr (kV 1 (0x060 + 4 * k)) v.toNat d
     let r := wr (kV 1 0x048) ((tjMax e).1 * 65536 + ofSigned 16 (tjMax e).2) e
     (tjMax e).2 < 16 * throtOn e → tjUpdate k v d =
       updGov (fun g => { g with
         throttle := false, hot := false, cooled := g.cooled || decide (govCeiling r ≠ govCeiling d) }) r) := by
  intro e r hlow
  obtain ⟨hauto1, hon1⟩ := gov_page1 (d := d) (0x060 + 4 * k) v.toNat (by omega)
  obtain ⟨hauto2, hon2⟩ := gov_page1 (d := e) 0x048 ((tjMax e).1 * 65536 + ofSigned 16 (tjMax e).2) (by decide)
  have hthrot : throtOn r = throtOn e := by
    simp only [throtOn, rdF, r, rd_wr_kV (q := 1) (n := 0x04C) (p := 1) (o := 0x048) (by decide) (by decide) (by decide)]
  have hcheck : thermalCheck r = updGov (fun g => { g with throttle := false, hot := false }) r :=
    thermalCheck_below (by rw [hon2, hon1, hon]) (by rw [hthrot, tjMax_wr_tjMax]; exact hlow)
  have hceil : govCeiling (thermalCheck r) = govCeiling r := by rw [hcheck]; exact govCeiling_updGov rfl rfl
  have hmode : govAuto (thermalCheck r) = true := by rw [hcheck]; exact (hauto2.trans hauto1).trans hauto
  calc tjUpdate k v d
      = limited true (fun x =>
          let y := wr (kV 1 (0x060 + 4 * k)) v.toNat x
          thermalCheck (wr (kV 1 0x048) ((tjMax y).1 * 65536 + ofSigned 16 (tjMax y).2) y)) d := by
        simp only [tjUpdate, hk, Bool.not_true, Bool.false_eq_true, if_false]
    _ = updGov (fun g => { g with cooled := g.cooled || (true && decide (govCeiling (thermalCheck r) ≠ govCeiling d)) })
          (thermalCheck r) := limited_auto hmode
    _ = _ := by rw [hceil, hcheck]; rfl

end

/-- A row that sets one bit of a register whose block acts: what the block makes of the word with the bit set. -/
theorem effect_setBit {s : State} {e : Dev} {w : Who} {k n : Nat} (h : mayPut s.begins w k (setBit (rd s.begins k) n) = true)
    (hk : k % 4 = 0) (ho : 0x040 ≤ keyOff k) (hy : ¬ (keyTy k = T.YRD ∧ keyPage k = 1 ∧ keyOff k = 0x050))
    (hb : blockWrite w (openFields (pageTouched w s.begins) w k) k (setBit (rd s.begins k) n % 2 ^ 32) (touched w s.begins)
      = some e) : effect (regSetBit w k n) s = .next (s.ends e) :=
  calc effect (regSetBit w k n) s
      = effect (regCmd w k (setBit (rd s.begins k) n)) s := by simp only [effect_eq, regSetBit]
    _ = .next (s.ends e) := effect_block h hk ho hy hb

/-- Settles O5: each row comes to the governor's rule of its name, under the guards with which that rule acts; the rows of
registers are writes that the block takes. -/
theorem governorRowsComplete : Obligations.GovernorRowsComplete := by
  unfold Obligations.GovernorRowsComplete
  rintro s d rfl
  refine ⟨?evaluate, fun t hsettle ht => effect_of (settleExpire_due hsettle ht), ?onBus, ?offBus,
    fun who => ⟨?resume, ?mode, ?manual⟩, effect_eq boostBucket s, ?sensor⟩
  case evaluate =>
    intro p hdue hon hdies hauto u th e hp hlow
    exact effect_of (govPeriod_below hdue hon hdies hauto hp hlow)
  case onBus =>
    intro onLines onBus hpins hfree hmode harm
    refine ⟨fun hen hp hdue => ?_, fun v th hnext hdue hp => ?_, fun hr hp => ?_⟩
    · exact effect_of (overPins_govOnBus (govPage_due hfree hen hp hdue) rfl hpins hfree hmode harm)
    · exact effect_of (overPins_govOnBus (govVout_due hnext hfree hdue hp) rfl hpins hfree hmode harm)
    · exact effect_of (overPins_govOnBus (govRead_due hfree hr hp) rfl hpins hfree hmode harm)
  case offBus =>
    intro v th word l ht hpins hport hgov
    exact effect_of ((overPins_open hpins).trans ((govOffBus_done ht hport).trans (by rw [pmbusDone_vout ht hgov])))
  case resume =>
    intro hput
    exact effect_setBit hput (by decide) (by decide) (by decide) (blockWrite_govCtrl _ _ _ _)
  case mode =>
    intro value hput
    have hvalue : value.toNat % 2 ^ 32 = value.toNat := Nat.mod_eq_of_lt value.isLt
    exact effect_block hput (by decide) (by decide) (by decide) (by rw [hvalue, blockWrite_govCtrl])
  case manual =>
    intro mv hput hmanual
    have hmv : mv.toNat < 65536 := mv.isLt
    have hvalue : mv.toNat % 2 ^ 32 = mv.toNat := Nat.mod_eq_of_lt (by omega)
    exact effect_block hput (by decide) (by decide) (by decide)
      (by rw [hvalue, blockWrite_manualTarget, manualTarget_manual hmv hmanual])
  case sensor =>
    intro sensor value hk hauto hon e hlow
    exact effect_of (tjUpdate_below hk sensor.isLt hauto hon hlow)

end Sys2Proof.Machine

/-! ## The tick under what the module does by itself

An event record, a count and a flag leave the tick alone. So does a write into a ring, which is all that a loss of REF can start
in the yard and the stacks; each operation on that way has its lemma here. -/

namespace Sys2Proof.Machine

section
variable {d : Dev}

/-! ### Register words -/

/-- A register write that is no word of the tick leaves the tick alone. -/
theorem tick_wr {k : Nat} (v : Nat) (h : k ≠ kTick) (h4 : k ≠ kTick + 4) : tick (wr k v d) = tick d := by
  simp only [tick, rd64, rd_wr_other _ _ h.symm, rd_wr_other _ _ h4.symm]

/-- A word at another offset of its page than the tick's is no word of the tick. -/
theorem rk_ne_tick (ty inst page : Nat) {off : Nat} (ho : off < 0x1000) (h : off / 8 ≠ 10) :
    rk ty inst page off ≠ kTick ∧ rk ty inst page off ≠ kTick + 4 := by
  have hoff : keyOff (rk ty inst page off) = off := rk_off ty inst page ho
  have htick : keyOff kTick = 0x050 ∧ keyOff (kTick + 4) = 0x054 := by decide
  exact ⟨fun heq => by rw [heq] at hoff; omega, fun heq => by rw [heq] at hoff; omega⟩

/-- The pages of every block after CLK lie behind the tick. -/
theorem tick_lt_rk {ty : Nat} (h : 2 < ty) (inst page off : Nat) : kTick + 4 < rk ty inst page off := by
  unfold kTick rk T.CLK; omega

theorem tick_lt_kV (p o : Nat) : kTick + 4 < kV p o := tick_lt_rk (by decide) ..
theorem tick_lt_kY (s p o : Nat) : kTick + 4 < kY s p o := tick_lt_rk (by decide) ..
theorem tick_lt_kS (s p o : Nat) : kTick + 4 < kS s p o := tick_lt_rk (by decide) ..
theorem tick_lt_kC (n o : Nat) : kTick + 4 < kC n o := tick_lt_rk (by decide) ..
theorem tick_lt_kB (p o : Nat) : kTick + 4 < kB p o := tick_lt_rk (by decide) ..

section
variable {k : Nat} (h : kTick + 4 < k)
include h

theorem tick_wr_behind (v : Nat) : tick (wr k v d) = tick d := tick_wr v (by omega) (by omega)

theorem tick_wr64_behind (v : Nat) : tick (wr64 k v d) = tick d := by
  rw [wr64, tick_wr_behind (by omega), tick_wr_behind h]

theorem tick_wrF_behind (hi lo v : Nat) : tick (wrF k hi lo v d) = tick d := tick_wr_behind h _

theorem tick_bump_behind : tick (bump k d) = tick d := tick_wr_behind h _

theorem tick_bumpBy_behind (n : Nat) : tick (bumpBy k n d) = tick d := tick_wr_behind h _

theorem tick_bump64_behind : tick (bump64 k d) = tick d := tick_wr64_behind h _

theorem tick_wrap64By_behind (n : Nat) : tick (wrap64By k n d) = tick d := tick_wr64_behind h _

end

/-- No flag's STICKY or STICKY_FIRST is a word of the tick. -/
theorem tick_flag (ty inst page n x : Nat) (d : Dev) : tick (flag ty inst page n x d) = tick d := by
  obtain ⟨hf, hf4⟩ := rk_ne_tick ty inst page (off := 0x018) (by decide) (by decide)
  obtain ⟨hs, hs4⟩ := rk_ne_tick ty inst page (off := 0x010) (by decide) (by decide)
  rw [tick, rd64, rd_flag, rd_flag, flagSet, rd_captureFirst_other hf.symm, rd_captureFirst_other hf4.symm]
  exact tick_wr _ hs hs4

@[simp] theorem tick_flag0 (ty inst n x : Nat) (d : Dev) : tick (flag0 ty inst n x d) = tick d := tick_flag ..

/-- An injection that fires clears a bit of STATUS. -/
@[simp] theorem tick_fired (ty inst page : Nat) (d : Dev) : tick (fired ty inst page d) = tick d := by
  obtain ⟨hk, hk4⟩ := rk_ne_tick ty inst page (off := 0x00C) (by decide) (by decide)
  exact tick_wr _ hk hk4

/-! ### Changes of a block's own state -/

@[simp] theorem tick_updClk (f : Clk → Clk) (d : Dev) : tick (updClk f d) = tick d := rfl
@[simp] theorem tick_updGov (f : Gov → Gov) (d : Dev) : tick (updGov f d) = tick d := rfl
@[simp] theorem tick_updDb (p : Nat) (f : DbPort → DbPort) (d : Dev) : tick (updDb p f d) = tick d := rfl
@[simp] theorem tick_updCmp (n : Nat) (f : Cmp → Cmp) (d : Dev) : tick (updCmp n f d) = tick d := rfl
@[simp] theorem tick_updQueue (q : Nat) (f : Queue → Queue) (d : Dev) : tick (updQueue q f d) = tick d := rfl
@[simp] theorem tick_updStack (p : Nat) (f : Stack → Stack) (d : Dev) : tick (updStack p f d) = tick d := rfl
@[simp] theorem tick_updPage (p : Nat) (f : PageEntry → PageEntry) (d : Dev) : tick (updPage p f d) = tick d := rfl
@[simp] theorem tick_putCell (n : Nat) (c : Cell39) (d : Dev) : tick (putCell n c d) = tick d := rfl
@[simp] theorem tick_putLine (n : Nat) (l : Line) (d : Dev) : tick (putLine n l d) = tick d := rfl
@[simp] theorem tick_push (t : Todo) (d : Dev) : tick (push t d) = tick d := rfl
@[simp] theorem tick_launch (f : Flight) (d : Dev) : tick (launch f d) = tick d := rfl
@[simp] theorem tick_noteAccess (d : Dev) : tick (noteAccess d) = tick d := rfl
@[simp] theorem tick_openRow (o : Nat) (d : Dev) : tick (openRow o d) = tick d := rfl
@[simp] theorem tick_asksLost (ks : List Packet) (d : Dev) : tick (asksLost ks d) = tick d := rfl
theorem tick_withYard (y : YardState) (d : Dev) : tick { d with yard := y } = tick d := rfl
theorem tick_withNet (n : NetState) (d : Dev) : tick { d with net := n } = tick d := rfl
theorem tick_withInteg (i : IntState) (d : Dev) : tick { d with integ := i } = tick d := rfl
theorem tick_withDbr (b : DrawbarState) (d : Dev) : tick { d with dbr := b } = tick d := rfl

theorem tick_ite (c : Prop) [Decidable c] (a b : Dev) : tick (if c then a else b) = if c then tick a else tick b :=
  apply_ite tick c a b

/-- What is done for each of a list leaves the tick alone when it does so for each of them. -/
theorem tick_each {α : Type} {xs : List α} {f : α → Dev → Dev} (h : ∀ x ∈ xs, ∀ d, tick (f x d) = tick d) (d : Dev) :
    tick (each xs f d) = tick d := by
  induction xs generalizing d with
  | nil => rfl
  | cons x xs ih =>
    calc tick (each (x :: xs) f d) = tick (each xs f (f x d)) := rfl
      _ = tick (f x d) := ih (fun y hy => h y (List.mem_cons_of_mem _ hy)) _
      _ = tick d := h x List.mem_cons_self d

/-- The same of a fold that gathers results beside the module. -/
theorem tick_gather {α β : Type} {f : β × Dev → α → β × Dev} (h : ∀ r x, tick (f r x).2 = tick r.2) (xs : List α)
    (r : β × Dev) : tick (xs.foldl f r).2 = tick r.2 := by
  induction xs generalizing r with
  | nil => rfl
  | cons x xs ih => exact (ih (f r x)).trans (h r x)

/-! ### Counts and records of errors -/

@[simp] theorem tick_tcount (i n : Nat) (d : Dev) : tick (tcount i n d) = tick d := by
  unfold tcount
  split
  · exact tick_wrap64By_behind (tick_lt_rk (by decide) ..) n
  · rfl

@[simp] theorem tick_ccount (c i n : Nat) (d : Dev) : tick (ccount c i n d) = tick d := by
  unfold ccount
  split
  · exact tick_wrap64By_behind (tick_lt_rk (by decide) ..) n
  · rfl

@[simp] theorem tick_countY (s off k : Nat) (d : Dev) : tick (countY s off k d) = tick d := by
  have hcount : tick (bumpBy (kY s 3 off) k d) = tick d := tick_bumpBy_behind (tick_lt_kY ..) k
  unfold countY
  dsimp only
  split
  · rw [tick_flag0, hcount]
  · exact hcount

@[simp] theorem tick_ledBytes (off : Nat) (bs : List Byte) (d : Dev) : tick (ledBytes off bs d) = tick d :=
  tick_each (f := fun i => ledWr (off + 4 * i) (leNat ((bs.drop (4 * i)).take 4))) (fun _ _ _ => rfl) d

@[simp] theorem tick_cperWrite (c : Cper) (n : Nat) (b : Bool) (d : Dev) : tick (cperWrite c n b d) = tick d := by
  unfold cperWrite
  extract_lets id bs d1 retained src d2
  have hid : tick d1 = tick d := by
    unfold d1
    rw [tick_tcount, tick_wr64_behind (k := kLogNext) (tick_lt_rk (by decide) ..)]
  have hkept : tick d2 = tick d := by
    unfold d2
    split
    · rw [tick_withInteg, tick_ledBytes, hid]
    · exact hid
  split
  · exact hkept
  · split
    · rw [tick_flag0, tick_bump_behind (tick_lt_rk (by decide) ..), hkept]
    · rw [tick_push, hkept]

@[simp] theorem tick_cper (c : Cper) (d : Dev) : tick (cper c d) = tick d := by
  unfold cper
  extract_lets e id same others note fresh
  have hcount : tick e = tick d := by
    unfold e
    split
    · exact tick_tcount ..
    · split
      · exact tick_tcount ..
      · rfl
  have hnote : ∀ x f, tick (note x f) = tick f := fun _ _ => rfl
  split
  · rw [tick_cperWrite, hcount]
  · split
    · split
      · split
        · rw [hnote, cperRewrite, tick_push, hcount]
        · rw [hnote, tick_cperWrite, hcount]
      · rw [hnote, tick_cperWrite, hcount]
    · rw [hnote, tick_cperWrite, hcount]

@[simp] theorem tick_autoStable (code : Nat) (d : Dev) : tick (autoStable code d) = tick d := by
  unfold autoStable
  extract_lets d1
  have hflag : tick d1 = tick d := tick_flag0 ..
  split
  · rw [tick_push, hflag]
  · rw [tick_cper, hflag]

@[simp] theorem tick_setScore (code v : Nat) (d : Dev) : tick (setScore code v d) = tick d := rfl

@[simp] theorem tick_score (code k : Nat) (d : Dev) : tick (score code k d) = tick d := by
  unfold score
  simp only [tick_ite, tick_autoStable, tick_setScore, ite_self]

@[simp] theorem tick_parityAt (acc : Access) (a tag : Nat) (d : Dev) : tick (parityAt acc a tag d) = tick d := tick_cper ..

/-! ### The way of a write -/

@[simp] theorem tick_headerError (l : Nat) (d : Dev) : tick (headerError l d) = tick d := by
  unfold headerError
  simp only [tick_ite, tick_autoStable, tick_flag0, tick_bump_behind (tick_lt_rk (ty := T.TPK) (by decide) ..), tick_withNet,
    ite_self]

@[simp] theorem tick_hopDrops (h : Hop) (d : Dev) : tick (hopDrops h d) = tick d := by
  cases h with
  | link l => exact tick_headerError ..
  | ring s => exact tick_flag0 ..
  | bundle n =>
    rw [hopDrops, tick_flag0, tick_bump_behind (tick_lt_rk (by decide) ..), tick_bump_behind (tick_lt_rk (by decide) ..)]

@[simp] theorem tick_clusterUpset (s : Nat) (d : Dev) : tick (clusterUpset s d) = tick d := by
  rw [clusterUpset, tick_autoStable, tick_cper, tick_flag0]

@[simp] theorem tick_ringRefused (w : Who) (a n : Nat) (d : Dev) : tick (ringRefused w a n d) = tick d := by
  unfold ringRefused
  split
  · exact tick_bumpBy_behind (tick_lt_rk (by decide) ..) n
  · rfl

@[simp] theorem tick_mishap (m : Mishap) (w : Who) (second : Bool) (src : Option Nat) (t a : Nat) (d : Dev) :
    tick (mishap m w second src t a d).2 = tick d := by
  have hdrop : ∀ (c : Bool) (f g : Fate) (h : Hop), tick (if c then (f, hopDrops h d) else (g, d)).2 = tick d := by
    intro c f g h
    split
    · exact tick_hopDrops h d
    · rfl
  cases m with
  | clear => rfl
  | link l => exact hdrop ..
  | ring s => exact hdrop ..
  | bundle n =>
    unfold mishap
    dsimp only
    split
    · exact hdrop ..
    · split
      · exact tick_hopDrops ..
      · rfl
  | reply h => exact hdrop ..
  | route s t sh two =>
    unfold mishap
    dsimp only
    split
    · rw [tick_push, tick_flag0]
    · rw [tick_cper, tick_bump_behind (tick_lt_rk (by decide) ..)]
  | cluster =>
    unfold mishap
    dsimp only
    split
    · exact tick_clusterUpset ..
    · rfl
  | data => rfl
  | full n =>
    unfold mishap
    dsimp only
    split
    · exact tick_ringRefused ..
    · rfl

@[simp] theorem tick_sendTo (w : Who) (second : Bool) (src : Option Nat) (t a : Nat) (d : Dev) :
    tick (sendTo w second src t a d).2 = tick d := by
  unfold sendTo
  split
  · rfl
  · rw [tick_mishap, tick_withNet]

@[simp] theorem tick_sendOff (acc : Access) (a : Nat) (d : Dev) : tick (sendOff acc a d).2 = tick d := by
  unfold sendOff
  split <;> exact tick_sendTo ..

/-! ### Cells and lines -/

@[simp] theorem tick_readCell (n : Nat) (d : Dev) : tick (readCell n d).2 = tick d := by
  unfold readCell
  extract_lets a s b hit c e res
  have hfired : tick e = tick d := by
    unfold e
    rw [tick_ite, tick_fired, ite_self]
  clear_value res e
  cases res with
  | good w => exact hfired
  | corrected w => rw [tick_cper, tick_flag0, tick_countY, hfired]
  | poisoned w => rw [tick_flag0, tick_countY, hfired]
  | uncorrectable w => rw [tick_score, tick_cper, tick_flag0, tick_countY, tick_putCell, hfired]

@[simp] theorem tick_mergeCell (n : Nat) (bs : List (Option Byte)) (d : Dev) : tick (mergeCell n bs d).2 = tick d := by
  unfold mergeCell
  dsimp only
  split
  · rfl
  · split
    · rw [tick_flag0, tick_fired]
    · split
      · rw [tick_flag0, tick_readCell]
      · exact tick_readCell n d

@[simp] theorem tick_dirty (a : Nat) (d : Dev) : tick (dirty a d) = tick d := tick_updPage ..

/-- The first word goes to the first cell; stated of functions, where the kernel need not look into a cell's code. -/
theorem putWords_cons (n : Nat) (w : W32) (ws : List W32) :
    putWords n (w :: ws) = fun d => putWords (n + 1) ws (putCell n (goodCell w) (dirty (4 * n) d)) := rfl

@[simp] theorem tick_putWords (n : Nat) (ws : List W32) (d : Dev) : tick (putWords n ws d) = tick d := by
  induction ws generalizing n d with
  | nil => rfl
  | cons w ws ih => rw [putWords_cons, ih, tick_putCell, tick_dirty]

@[simp] theorem tick_writeCells (a : Nat) (bs : List Byte) (d : Dev) : tick (writeCells a bs d).2 = tick d := by
  unfold writeCells
  dsimp only
  split
  · rw [tick_putWords, tick_gather]
    exact fun q i => tick_mergeCell ..
  · rw [tick_gather]
    exact fun q i => tick_mergeCell ..

@[simp] theorem tick_countClass (w : Who) (a n : Nat) (d : Dev) : tick (countClass w a n d) = tick d := by
  unfold countClass
  split
  · split
    · exact tick_countY ..
    · rfl
  · rfl

@[simp] theorem tick_countCells (a n : Nat) (d : Dev) : tick (countCells a n d) = tick d := by
  unfold countCells
  split
  · rfl
  · refine tick_each (fun b _ e => ?_) d
    dsimp only
    split
    · rfl
    · rfl

@[simp] theorem tick_landYard (acc : Access) (a : Nat) (bs : List Byte) (d : Dev) : tick (landYard acc a bs d).2 = tick d := by
  unfold landYard
  extract_lets r
  have hwritten : tick r.2 = tick d := by
    unfold r
    rw [tick_writeCells, tick_countClass, tick_tcount]
  split
  · dsimp only
    split
    · exact hwritten
    · rw [tick_countCells, hwritten]
  · exact hwritten

@[simp] theorem tick_offlineAccess (p : Nat) (d : Dev) : tick (offlineAccess p d) = tick d := by
  rw [offlineAccess, tick_flag0, tick_bump_behind (tick_lt_kS ..)]

@[simp] theorem tick_countUe (p pc : Nat) (d : Dev) : tick (countUe p pc d) = tick d := by
  unfold countUe
  extract_lets ts d1
  have hnoted : tick d1 = tick d := tick_updStack ..
  split
  · rw [tick_autoStable, hnoted]
  · exact hnoted

@[simp] theorem tick_readLine (n : Nat) (d : Dev) : tick (readLine n d).2 = tick d := by
  unfold readLine
  extract_lets o m p pc d0 d1 hit d2 l res
  have hfired : tick d2 = tick d := by
    unfold d2
    rw [tick_ite, tick_fired, ite_self, tick_openRow, tick_noteAccess]
  clear_value res d2
  split
  · rw [tick_offlineAccess, tick_noteAccess]
  · cases res with
    | good w => exact hfired
    | corrected w => rw [tick_cper, tick_flag0, tick_bump_behind (tick_lt_kS ..), hfired]
    | poisoned w => rw [tick_flag0, tick_bump_behind (tick_lt_kS ..), hfired]
    | uncorrectable w =>
      rw [tick_countUe, tick_cper, tick_ite, tick_wr64_behind (tick_lt_kS ..), ite_self, tick_flag0,
        tick_bump_behind (tick_lt_kS ..), tick_putLine, hfired]

@[simp] theorem tick_mergeLine (n a : Nat) (bs : List Byte) (d : Dev) : tick (mergeLine n a bs d).2 = tick d := by
  unfold mergeLine
  dsimp only
  split
  · rw [tick_bump_behind (tick_lt_kS ..), tick_noteAccess]
  · split
    · rw [tick_openRow, tick_noteAccess]
    · split
      · rw [tick_flag0, tick_readLine]
      · exact tick_readLine n d

@[simp] theorem tick_putLinesFrom (n : Nat) (ws : List (BitVec 512)) (d : Dev) : tick (putLinesFrom n ws d) = tick d := by
  induction ws generalizing n d with
  | nil => rfl
  | cons w ws ih => rw [putLinesFrom, ih, tick_putLine]

@[simp] theorem tick_landStack (a : Nat) (bs : List Byte) (d : Dev) : tick (landStack a bs d).2 = tick d := by
  unfold landStack
  dsimp only
  split
  · rw [tick_cper, tick_flag0, tick_fired]
  · split
    · rw [tick_gather]
      exact fun q i => tick_mergeLine ..
    · rw [tick_putLinesFrom, tick_gather]
      exact fun q i => tick_mergeLine ..

/-! ### Writes into rings, and events -/

@[simp] theorem tick_ownLand (acc : Access) (a : Nat) (bs : List Byte) (d : Dev) : tick (ownLand acc a bs d).2 = tick d := by
  unfold ownLand
  split
  · split
    · exact tick_landYard ..
    · rfl
  · split
    · split
      · exact tick_offlineAccess ..
      · rw [tick_landStack, tick_ccount, tick_tcount]
    · rfl

@[simp] theorem tick_countWait (w : Who) (a : Nat) (d : Dev) : tick (countWait w a d) = tick d := by
  unfold countWait
  simp only [tick_ite, tick_withYard, ite_self]

@[simp] theorem tick_park (h : HeldAccess) (d : Dev) : tick (park h d) = tick d := by
  unfold park
  simp only [tick_withYard, tick_ite, tick_countWait, ite_self]

@[simp] theorem tick_ownWrite (acc : Access) (a : Nat) (bs : List Byte) (d : Dev) : tick (ownWrite acc a bs d).2 = tick d := by
  unfold ownWrite
  extract_lets on fly r
  have hway : tick on.2 = tick d := tick_sendOff ..
  have hspoiled : tick (doIf (decide (yardEnd ≤ a)) (flag0 T.STK (stackMap d.part (a - stackBase)).1 5 0) on.2) = tick d := by
    unfold doIf
    split
    · rw [tick_flag0, hway]
    · exact hway
  split
  · exact tick_park ..
  · split
    · rw [tick_ownLand, hway]
    · rw [tick_launch, tick_ownLand, hway]
    · rw [tick_launch, hway]
    · rw [tick_parityAt, hspoiled]

@[simp] theorem tick_post (n : Nat) (x : Event) (d : Dev) : tick (post n x d) = tick d := by
  unfold post
  extract_lets drop
  have hdrop : tick drop = tick d := by
    unfold drop
    rw [tick_flag0, tick_bump_behind (tick_lt_kC ..), tick_updCmp]
  split
  · exact hdrop
  · extract_lets q0 qd bs d1
    split
    · exact hdrop
    · rw [tick_push, tick_updQueue]
      exact tick_ownWrite ..

/-! ### The drawbar when REF is lost (R78, R524) -/

@[simp] theorem tick_setPort (p : Nat) (st : PortState) (d : Dev) : tick (setPort p st d) = tick d := by
  rw [setPort, tick_wrF_behind (tick_lt_kB ..), tick_updDb]

@[simp] theorem tick_answer (w : Who) (a : Answer) (d : Dev) : tick (answer w a d) = tick d := by
  have hsent : tick (epSent w a d) = tick d := by
    unfold epSent
    split
    · exact tick_bump_behind (tick_lt_rk (by decide) ..)
    · rfl
  exact hsent

@[simp] theorem tick_creditTold (p : Nat) (c : Nat × Nat) (d : Dev) : tick (creditTold p c d) = tick d := tick_updDb ..

@[simp] theorem tick_flitOut (p type seq : Nat) (c : Nat × Nat) (body : List Byte) (d : Dev) :
    tick (flitOut p type seq c body d) = tick d := by
  unfold flitOut
  extract_lets bad x d1 bs
  have hcounted : tick d1 = tick d := by
    unfold d1
    rw [tick_bump64_behind (tick_lt_kB ..), tick_ite, tick_fired, ite_self]
  rw [tick_answer, hcounted]

@[simp] theorem tick_sendFlit (p : Nat) (b : FlitBody) (d : Dev) : tick (sendFlit p b d) = tick d := by
  rw [sendFlit, tick_flitOut, tick_updDb, tick_creditTold]

@[simp] theorem tick_sendHello (p : Nat) (d : Dev) : tick (sendHello p d) = tick d := by
  rw [sendHello, tick_sendFlit, tick_updDb]

@[simp] theorem tick_tellNeighbours (d : Dev) : tick (tellNeighbours d) = tick d :=
  tick_each (fun p _ e => by rw [tick_ite, tick_sendHello, ite_self]) d

@[simp] theorem tick_dbrEvent (kind sub detail n : Nat) (d : Dev) : tick (dbrEvent kind sub detail n d) = tick d := tick_post ..

@[simp] theorem tick_refreshPresent (d : Dev) : tick (refreshPresent d) = tick d := by
  unfold refreshPresent
  extract_lets seen old d1 d2
  have hpresent : tick d1 = tick d := tick_wrF_behind (tick_lt_kB ..) _ _ _
  have hgone : tick d2 = tick d := (tick_each (fun _ _ e => tick_withDbr _ e) d1).trans hpresent
  rw [tick_each, hgone]
  intro m _ e
  rw [tick_ite, tick_dbrEvent, tick_flag0, ite_self]

@[simp] theorem tick_portDown (p : Nat) (d : Dev) : tick (portDown p d) = tick d := by
  unfold portDown doIf
  rw [tick_tellNeighbours, tick_refreshPresent, tick_dbrEvent, tick_ite, tick_flag0, ite_self, tick_setPort, tick_updDb,
    tick_asksLost]

@[simp] theorem tick_teamPart {f : Dev → Dev} (h : ∀ e, tick (f e) = tick e) (d : Dev) : tick (teamPart f d) = tick d := by
  rw [teamPart, tick_ite, h, ite_self]

@[simp] theorem tick_drawbarRefLost (d : Dev) : tick (drawbarRefLost d) = tick d :=
  tick_teamPart (tick_each fun p _ e => by rw [tick_ite, tick_portDown, ite_self]) d

/-- A loss of REF that is noticed takes the drawbar down; the tick is what the command makes it. -/
theorem tick_refWatched (f : Dev → Dev) (d : Dev) : tick (refWatched f d) = tick (f d) := by
  unfold refWatched
  dsimp only
  rw [tick_ite, tick_drawbarRefLost, ite_self]

@[simp] theorem tick_refLost (edges unlock : Bool) (d : Dev) : tick (refLost edges unlock d) = tick d := by
  unfold refLost
  simp only [tick_ite, tick_flag0, tick_updClk, ite_self]

/-! ### What counts with the tick (R96, R122, R300) -/

@[simp] theorem tick_setTarget (mv : Nat) (th : Bool) (a : Nat) (d : Dev) : tick (setTarget mv th a d) = tick d := by
  obtain ⟨f, hf⟩ := setTarget_updGov mv th a d
  rw [hf, tick_updGov]

@[simp] theorem tick_confine (d : Dev) : tick (confine d) = tick d := tick_updGov ..

@[simp] theorem tick_govApply (th : Bool) (d : Dev) : tick (govApply th d) = tick d := by
  unfold govApply
  simp only [tick_ite, tick_confine, tick_setTarget, ite_self]

theorem tick_limited {th : Bool} {f : Dev → Dev} (h : tick (f d) = tick d) : tick (limited th f d) = tick d := by
  unfold limited
  simp only [tick_ite, tick_updGov, tick_govApply, ite_self, h]

@[simp] theorem tick_boostCheck (d : Dev) : tick (boostCheck d) = tick d := by
  have hused : ∀ v, tick (wr (kV 0 0x06C) v d) = tick d := tick_wr_behind (tick_lt_kV ..)
  have hout : ∀ (v : Nat) (b : Bool),
      tick (limited false (updGov (fun g => { g with boostOut := b })) (wr (kV 0 0x06C) v d)) = tick d :=
    fun v b => (tick_limited (tick_updGov ..)).trans (hused v)
  unfold boostCheck
  simp only [tick_ite, tick_setTarget, tick_confine, tick_flag0, hout, hused, ite_self]

@[simp] theorem tick_boostMs (d : Dev) : tick (boostMs d) = tick d := by
  rw [boostMs, tick_ite, tick_boostCheck, tick_updGov, ite_self]

@[simp] theorem tick_wdtMs (d : Dev) : tick (wdtMs d) = tick d := by
  obtain ⟨hk, hk4⟩ := rk_ne_tick T.SYS 0 0 (off := 0x05C) (by decide) (by decide)
  rw [wdtMs, tick_ite, wrF, tick_wr _ hk hk4, ite_self]

@[simp] theorem tick_engineTick (d : Dev) : tick (engineTick d) = tick d := by
  refine tick_each (fun u _ e => ?_) d
  split
  · rw [tick_updCmp, tick_ccount, tick_bump_behind (tick_lt_kC ..)]
  · rfl

@[simp] theorem tick_slewTick (d : Dev) : tick (slewTick d) = tick d := by
  have hlead : ∀ f e, tick (setLead f e) = tick e := by
    intro f e
    unfold setLead
    dsimp only
    rw [tick_ite, tick_flag0, ite_self]
    rfl
  unfold slewTick
  simp only [tick_ite, hlead, tick_withDbr, ite_self]

@[simp] theorem tick_digLates (d : Dev) : tick (digLates d) = tick d := by
  have hwatch : tick (digWatch d) = tick d := tick_withInteg ..
  unfold digLates
  dsimp only
  rw [tick_each, hwatch]
  exact fun x _ e => (tick_flag0 ..).trans (tick_withInteg ..)

/-! ### The tick itself (R75) -/

/-- A tick counts one, modulo 2^64, from REF and from the holdover oscillator alike. -/
theorem tick_tickCmd (d : Dev) : tick (tickCmd d) = (tick d + 1) % 2 ^ 64 := by
  unfold tickCmd
  extract_lets d1 d2 d3
  have hholdover : tick (if d.clk.holdover then wrap64By (rk T.CLK 0 0 0x058) 1 d else d) = tick d := by
    rw [tick_ite, wrap64By, wr64, tick_wr _ (by decide) (by decide), tick_wr _ (by decide) (by decide), ite_self]
  have hcount : tick d1 = (tick d + 1) % 2 ^ 64 := by
    rw [← hholdover]
    exact rd64_wr64_same ..
  have hinjected : tick d2 = tick d1 := by
    unfold d2
    split
    · rw [tick_updClk, tick_refLost, tick_fired]
    · rfl
  rw [tick_ite, tick_boostMs, tick_wdtMs, ite_self, tick_engineTick, hinjected, hcount]

/-- TICK: beside the count, nothing that a tick starts in the module moves the tick. -/
theorem tick_tickAll (d : Dev) : tick (tickAll d) = (tick d + 1) % 2 ^ 64 := by
  rw [tickAll, tick_digLates, tick_teamPart tick_slewTick, tick_refWatched, tick_tickCmd]

end

end Sys2Proof.Machine

/-! ## The rows of the clocks (R69 to R82) -/

namespace Sys2Proof.Machine

section
variable {d : Dev}

/-- A command that does not lose REF leaves the drawbar alone. -/
theorem refWatched_kept {f : Dev → Dev} (h : (f d).clk.lost = d.clk.lost) : refWatched f d = f d := by
  unfold refWatched
  simp [h]

/-- A command that loses REF takes the drawbar down (R78). -/
theorem refWatched_lost {f : Dev → Dev} (hnow : (f d).clk.lost = true) (h : d.clk.lost = false) :
    refWatched f d = drawbarRefLost (f d) := by
  unfold refWatched
  simp [hnow, h]

@[simp] theorem flag_clk (ty inst page n x : Nat) (d : Dev) : (flag ty inst page n x d).clk = d.clk := by
  rw [flag_eq, apply_ite Dev.clk, push_clk, ite_self, flagSet, captureFirst_eq]
  split
  · rw [wr_clk, wr_clk]
  · split
    · rw [wr_clk, wr_clk]
    · rw [wr_clk]

@[simp] theorem flag0_clk (ty inst n x : Nat) (d : Dev) : (flag0 ty inst n x d).clk = d.clk := flag_clk ..

/-- REF is declared lost, with or without a loss of lock. -/
theorem refLost_fresh (edges unlock : Bool) (h : d.clk.lost = false) : refLost edges unlock d =
    (let d1 := flag0 T.CLK 0 0 0 (updClk (fun c => { c with
       lost := true, locked := false, refPresent := edges, relocking := false, good := 0 }) d)
     if unlock then flag0 T.CLK 0 2 0 d1 else d1) := by
  simp only [refLost, h, Bool.false_eq_true, if_false]

/-- A loss of REF that the module has not known of. -/
theorem refWatched_refLost (edges unlock : Bool) (h : d.clk.lost = false) :
    refWatched (refLost edges unlock) d = drawbarRefLost (refLost edges unlock d) := by
  refine refWatched_lost ?_ h
  rw [refLost_fresh edges unlock h]
  cases unlock <;> simp

theorem refQualified_lost (h : d.clk.lost = true) (hi : d.clk.injectEnd = none) : refQualified d =
    updClk (fun c => { c with
      refPresent := true, injectEnd := none, relocking := c.relocking || rdB d (rk T.CLK 0 0 0x040) 8 }) d := by
  simp only [refQualified, h, hi, Bool.not_false, Bool.and_self, if_true]

/-- REF_PPM and the good measurements, for a REF within 500 ppm (R81). -/
theorem refMeasure_good {cycles : Nat} (h : ((cycles : Int) - 781250).natAbs * 1000000 ≤ 500 * 781250) : refMeasure cycles d =
    updClk (fun c => { c with
        good := c.good + 1, inRange := true, range := c.range && decide (c.good + 1 < 2) })
      (wr (rk T.CLK 0 0 0x048)
        (ofSigned 16 (clampInt (-32768) 32767 (Int.tdiv (((cycles : Int) - 781250) * 128) 100))) d) := by
  simp only [refMeasure, if_pos h]
  rfl

/-- A write of CLK_CTRL stores the fields that keep their value, and restores REF when REF_RESTORE is 1 (R80). -/
theorem blockWrite_clkCtrl (w : Who) (m v : Nat) (d : Dev) : blockWrite w m (rk T.CLK 0 0 0x040) v d =
    some (doIf (bit v 9) refRestore (wr (rk T.CLK 0 0 0x040) (v &&& 0x110) d)) := rfl

/-- A word with a bit set has it set in its 32 bits. -/
theorem bit_setBit_word {x n : Nat} (hn : n < 32) : bit (setBit x n % 2 ^ 32) n = true := by
  rw [bit, Nat.testBit_mod_two_pow, setBit]
  simp [hn]

end

/-- Settles O4: the loss of REF is seen once, when it is declared, and takes the drawbar down; REF_RESTORE is a write that the
block takes; and whatever a tick starts beside its own count leaves the tick alone. -/
theorem clockRowsComplete : Obligations.ClockRowsComplete := by
  unfold Obligations.ClockRowsComplete
  rintro s d rfl
  refine ⟨⟨tickAll s.begins, effect_eq tickAll s, tick_tickAll _⟩, ?refLost, ?refUnlock, ?holdover, ?outputsStop,
    ?qualified, ?restore, ?relocked, ?measure, ?aonLost, effect_eq aonRestored s, ?stepRate,
    fun khz toggled stopped => effect_eq (domainMeasure _ _ _) s⟩
  case refLost => exact fun h => effect_of ((refWatched_refLost false false h).trans (by rw [refLost_fresh _ _ h]; rfl))
  case refUnlock => exact fun h => effect_of ((refWatched_refLost true true h).trans (by rw [refLost_fresh _ _ h]; rfl))
  case holdover => exact fun h => effect_of (if_pos h)
  case outputsStop => exact fun h hs => effect_of (by simp [pllOutputsStop, h, hs])
  case qualified => exact fun h hi => effect_of (refQualified_lost h hi)
  case restore =>
    intro who hput hlost
    refine effect_setBit hput (by decide) (by decide) (by decide) ?_
    rw [blockWrite_clkCtrl, bit_setBit_word (by decide), doIf, if_pos rfl, refRestore, wr_clk, if_pos hlost]
  case relocked => exact fun h => effect_of (by simp [refRelocked, h])
  case measure =>
    intro cycles h
    refine effect_of ((refWatched_kept ?_).trans (refMeasure_good h))
    rw [refMeasure_good h, updClk_clk, wr_clk]
  case aonLost => exact fun h => effect_of (if_pos h)
  case stepRate =>
    intro mhz
    have hmhz : mhz.toNat % 65536 = mhz.toNat := Nat.mod_eq_of_lt mhz.isLt
    exact effect_of (by rw [stepRate, hmhz])

end Sys2Proof.Machine

/-! ## The power sequencer (R101 to R108) -/

namespace Sys2Proof.Machine

/-- A module whose first rail has just become good, one AON cycle after its reset: its straps are to be sampled. -/
def strapsDue : State :=
  { State.reset with dev := aonCycle { Dev.reset with pwr := { Dev.reset.pwr with pg := 1 } } }

/-- Refutes O6: STRAP_SAMPLE also notes the RTC_NOW at which it samples, from which the pull-down of the straps stays on for
1 ms (`strapAt`); the statement keeps the time that stood there. One AON cycle after reset the row notes 1, and the statement
leaves 0. -/
theorem not_powerRowsComplete : ¬ Obligations.PowerRowsComplete := by
  unfold Obligations.PowerRowsComplete
  intro h
  obtain ⟨-, -, -, -, -, -, -, -, -, hstraps, -⟩ := h strapsDue _ rfl
  have hclaimed := hstraps 0 (by decide) (by decide)
  have hanswered : exec (.strapSample 0) strapsDue = .next (strapsDue.ends (strapSample 0 strapsDue.begins)) := effect_eq _ _
  have hsame := Host.Outcome.next.inj (hanswered.symm.trans hclaimed)
  exact absurd (congrArg (fun t : State => t.dev.pwr.strapAt) hsame) (by decide)

end Sys2Proof.Machine

/-! ## Resets and the boot (R109 to R123, R608) -/

namespace Sys2Proof.Machine

section
variable {d : Dev}

/-! ### Reset pins (R109, R125) -/

/-- In RUN a pin starts a warm reset. -/
theorem pinAssert_run (hrun : d.pwr.state = .run) (hidle : d.pwr.warm = .idle) : pinAssert d = warmStart 0x02 0 d := by
  simp only [pinAssert, hrun, hidle, if_true]

/-- While the rails go down RESET_N is latched, and on the way to DORMANT it is a wake event too. -/
theorem resetAssert_seqDown (hdown : d.pwr.state = .seqDown) : resetAssert d =
    (let e := updPwr (fun p => { p with resetLow := true, pinLatched := true }) d
     if d.pwr.goal = .dormant then flag0 T.AON 0 1 0 (wakeBits 4 (updPwr (fun p => { p with wakeLatched := true }) e)) else e) := by
  simp only [resetAssert, pinAssert, updPwr_pwr, hdown]
  rfl

/-- CTL0 may start once neither pin holds it in warm reset. -/
theorem pinRelease_heldLow (hrun : d.pwr.state = .run) (hheld : d.pwr.warm = .heldLow) (hfree : heldInReset d = false) :
    pinRelease d = updPwr (fun p => { p with warm := .idle }) d := by
  simp [pinRelease, hrun, hheld, hfree]

/-- RESET_N rises in RUN with TEST_EN low. -/
theorem resetRelease_heldLow (hrun : d.pwr.state = .run) (hheld : d.pwr.warm = .heldLow) (htest : d.pwr.testEn = false) :
    resetRelease d = updPwr (fun p => { p with resetLow := false, warm := .idle }) d := by
  have hfree : heldInReset (updPwr (fun p => { p with resetLow := false }) d) = false := by simp [heldInReset, htest]
  calc resetRelease d
      = pinRelease (updPwr (fun p => { p with resetLow := false }) d) := by simp [resetRelease, hrun]
    _ = _ := pinRelease_heldLow (d := updPwr (fun p => { p with resetLow := false }) d) hrun hheld hfree

/-- TEST_EN falls in RUN with RESET_N high (R608). -/
theorem testEnLevel_heldLow (hrun : d.pwr.state = .run) (hheld : d.pwr.warm = .heldLow) (hreset : d.pwr.resetLow = false) :
    testEnLevel false d = updPwr (fun p => { p with testEn := false, warm := .idle }) d := by
  have hfree : heldInReset (updPwr (fun p => { p with testEn := false }) d) = false := by simp [heldInReset, hreset]
  exact pinRelease_heldLow (d := updPwr (fun p => { p with testEn := false }) d) hrun hheld hfree

/-- In HOLD a release of RESET_N begins a cold restart. -/
theorem resetRelease_hold (hhold : d.pwr.state = .hold) (hlow : d.pwr.resetLow = true) :
    resetRelease d = coldStart 0x02 0 (updPwr (fun p => { p with resetLow := false }) d) := by
  simp [resetRelease, hhold, hlow]

/-! ### SYS_CTRL and its key (R111, R123) -/

/-- SYS_CTRL acts by its own rule. -/
theorem blockWrite_sysCtrl (w : Who) (m v : Nat) (d : Dev) : blockWrite w m (kSys 0 0x048) v d = some (sysCtrl v d) := rfl

/-- A word of SYS_CTRL: a key above one request bit. -/
def sysCtrlWord (key : BitVec 8) (request : Nat) : Nat := key.toNat * 256 + request

section
variable {key : BitVec 8} {request : Nat} (h : request < 256)
include h

theorem sysCtrlWord_lt : sysCtrlWord key request < 2 ^ 32 := by
  have hkey := key.isLt
  unfold sysCtrlWord
  omega

theorem sysCtrlWord_key : fld (sysCtrlWord key request) 15 8 = key.toNat := by
  have hkey := key.isLt
  rw [fld, sysCtrlWord, Nat.shiftRight_eq_div_pow]
  omega

theorem sysCtrlWord_bit {i : Nat} (hi : i < 8) : bit (sysCtrlWord key request) i = request.testBit i := by
  have hword : sysCtrlWord key request = 2 ^ 8 * key.toNat + request := by unfold sysCtrlWord; omega
  rw [bit, hword, Nat.testBit_two_pow_mul_add _ h, if_pos hi]

end

/-- The key of SYS_CTRL is 0xA5; any other sets BAD_KEY. -/
theorem sysKey_word (key : BitVec 8) (f : Dev → Dev) (d : Dev) :
    sysKey key.toNat f d = if key = 0xA5 then f d else flag0 T.SYS 0 7 0 d := by
  have hkey : key.toNat = 0xA5 ↔ key = 0xA5 := (BitVec.toNat_inj (y := 0xA5#8))
  simp only [sysKey, hkey]

/-- WARM_RESET in SYS_CTRL. -/
theorem sysCtrl_warmReset (key : BitVec 8) (d : Dev) : sysCtrl (sysCtrlWord key 1) d =
    if key = 0xA5 then warmStart 0x03 0 d else flag0 T.SYS 0 7 0 d := by
  have hwarm : bit (sysCtrlWord key 1) 0 = true := sysCtrlWord_bit (by decide) (by decide)
  simp only [sysCtrl, sysCtrlWord_key (request := 1) (by decide), sysKey_word, hwarm, if_true]

/-- DORMANT_REQ in SYS_CTRL. -/
theorem sysCtrl_dormantReq (key : BitVec 8) (d : Dev) : sysCtrl (sysCtrlWord key 2) d =
    if key = 0xA5 then sleepReq d else flag0 T.SYS 0 7 0 d := by
  have hwarm : bit (sysCtrlWord key 2) 0 = false := sysCtrlWord_bit (by decide) (by decide)
  have hdormant : bit (sysCtrlWord key 2) 1 = true := sysCtrlWord_bit (by decide) (by decide)
  simp only [sysCtrl, sysCtrlWord_key (request := 2) (by decide), sysKey_word, hwarm, hdormant, Bool.false_eq_true, if_false,
    if_true]

/-- A write of SYS_CTRL by a requester that may make it. -/
theorem effect_sysCtrl {s : State} {w : Who} {key : BitVec 8} {request : Nat} (h : request < 256)
    (hput : mayPut s.begins w (kSys 0 0x048) (sysCtrlWord key request) = true) :
    effect (regCmd w (kSys 0 0x048) (sysCtrlWord key request)) s =
      .next (s.ends (sysCtrl (sysCtrlWord key request) (touched w s.begins))) :=
  effect_block hput (by decide) (by decide) (by decide) (by rw [Nat.mod_eq_of_lt (sysCtrlWord_lt h), blockWrite_sysCtrl])

/-! ### The steps of a warm reset (R111) -/

/-- The sweep ends: the yard is zero, and VOUT_COMMAND for 0.75 V has gone out or failed. -/
theorem sweepEnded_sweep (status : Nat) (hsweep : d.pwr.warm = .sweep) : sweepEnded status d =
    (let e := updPwr (fun p => { p with warm := .vout }) { d with yard := { d.yard with cells := [] } }
     if status = 0 then updGov (fun g => { g with vcmd := 750 }) e
     else flag0 T.GOV 0 0 status (updGov (fun g => { g with stopped := true, vcmd := 0 }) e)) := by
  simp [sweepEnded, hsweep]

/-- The wait for 0.75 V ends. -/
theorem voutWaited_vout (hvout : d.pwr.warm = .vout) : voutWaited d =
    updPwr (fun p => { p with warm := if heldInReset d then .heldLow else .idle }) (leaveSelfRefresh d) := by
  simp [voutWaited, hvout]

/-- PERST_N falls in RUN (R113). -/
theorem perstAssert_run (hhigh : d.pwr.perstLow = false) (hrun : d.pwr.state = .run) : perstAssert d =
    endpointReset (flag0 T.HST 0 2 0 (updPwr (fun p => { p with perstLow := true }) d)) := by
  simp [perstAssert, hhigh, hrun]

/-! ### The watchdog (R122) -/

/-- WDT_KICK acts by its own rule. -/
theorem blockWrite_wdtKick (w : Who) (m v : Nat) (d : Dev) : blockWrite w m (kSys 0 0x058) v d = some (wdtKick v d) := rfl

/-- The countdown of a watchdog that runs, with CTL0 not halted by the debugger, has ended: the first time it warns, and the
second time it resets. -/
theorem wdtExpire_due (hon : wdtPeriod d ≠ 0) (hend : rdF d (kSys 0 0x05C) 31 16 = 0)
    (hlive : (getCore d 64).mode ≠ .debugHalt) : wdtExpire d =
    if rdB d (kSys 0 0x05C) 0 then warmStart 0x04 0 (flag0 T.SYS 0 4 0 d)
    else wdtReload (updCore 64 (fun c => { c with ipie := setBit c.ipie 4 })
      (wrB (kSys 0 0x05C) 0 true (flag0 T.SYS 0 3 0 d))) := by
  have hdue : ¬ (decide (wdtPeriod d = 0) || decide (rdF d (kSys 0 0x05C) 31 16 ≠ 0) ||
      decide ((getCore d 64).mode = .debugHalt)) = true := by simp [hon, hend, hlive]
  rw [wdtExpire, if_neg hdue]
  cases rdB d (kSys 0 0x05C) 0 <;> rfl

/-! ### The boot ROM (R116 to R121) -/

/-- The boot begins: three warm resets before BOOT_DONE halt it, and otherwise the straps name the first source. -/
theorem bootStart_ready (hrun : d.pwr.state = .run) (hwarm : d.pwr.warm = .idle) (hboot : d.pwr.boot = .idle)
    (hclk : (d.clk.locked || d.clk.holdover) = true) (hlive : (getCore d 64).mode ≠ .debugHalt) : bootStart d =
    (let e := xspMode 0 8 (probeNow (trainStacks d))
     if d.pwr.warmed = true ∧ 3 ≤ d.pwr.bootCount then
       flag0 T.SYS 0 6 0 (bootCode 0x1E (updPwr (fun p => { p with boot := .halted }) e))
     else if bootSrc d = 1 then bootCode 0 (hostWait e)
     else if bootSrc d = 3 then bootCode 0x1F (updPwr (fun p => { p with boot := .halted }) e)
     else bootCode 0 (updPwr (fun p => { p with boot := .primary }) e)) := by
  have hrom : romHeld d = false := decide_eq_false hlive
  simp only [bootStart, hrun, hwarm, hboot, hclk, hrom, ne_eq, not_true, decide_false, Bool.not_true, Bool.or_self,
    Bool.false_eq_true, if_false, Bool.and_eq_true, decide_eq_true_eq]
  split
  case isTrue => rfl
  case isFalse =>
    split
    case h_1 hsrc => rw [if_pos hsrc]
    case h_2 hsrc => rw [if_neg (by omega), if_pos hsrc]
    case h_3 h1 h3 => rw [if_neg h1, if_neg h3]

/-- BOOT_HOST_DOORBELL acts by its own rule. -/
theorem blockWrite_hostDoorbell (w : Who) (m v : Nat) (d : Dev) :
    blockWrite w m (kSys 0 0x060) v d = some (hostDoorbell v d) := rfl

/-- A doorbell with a length in range, while the ROM waits for the host. -/
theorem hostDoorbell_inRange {v : Nat} (hboot : d.pwr.boot = .host) (hpos : 0 < v) (hmax : v ≤ 0x3E100) :
    hostDoorbell v d = updPwr (fun p => { p with loaded := true }) (wr (kSys 0 0x060) v d) := by
  have hlen : (decide (v = 0) || decide (0x3E100 < v)) = false := by simp; omega
  simp only [hostDoorbell, hboot, hlen, ne_eq, not_true, Bool.false_eq_true, if_false]

/-- No doorbell for 10 s. -/
theorem hostTimeout_due (hboot : d.pwr.boot = .host) (hnone : d.pwr.loaded = false) (hperst : d.pwr.perstLow = false)
    (hsrc : bootSrc d = 2) (hdue : d.pwr.hostSince + 10000000 ≤ tick d) : hostTimeout d = bootFailed 0x16 d := by
  simp [hostTimeout, hboot, hnone, hperst, hsrc, hdue]

section
variable (hboot : d.pwr.boot = .primary) (hlive : (getCore d 64).mode ≠ .debugHalt)
include hboot hlive

/-- The flash does not answer at the primary source. -/
theorem bootCheck_silent : bootCheck false none d = bootFailed 0x15 (flag0 T.XSP 0 0 0 d) := by
  have hrom : romHeld d = false := decide_eq_false hlive
  simp only [bootCheck, hboot, hrom, Bool.not_false, Bool.false_eq_true, if_true, if_false]

/-- The image of the primary source is checked, and the ROM leaves for it or fails. -/
theorem bootCheck_primary : bootCheck true none d =
    (let hdr := flashBytes d 0 256
     let payload := flashBytes d 256 (min 0x3E000 (fieldAt hdr 0x08 4))
     let c := imageCheck hdr payload (rdB d (kFuse 0) 1) (keyHash d)
     if c = 0 then bootJump hdr payload 0x01 d else bootFailed c d) := by
  have hrom : romHeld d = false := decide_eq_false hlive
  simp only [bootCheck, hboot, hrom, Bool.not_true, Bool.false_eq_true, if_false, Nat.zero_add]

end

end

/-- Settles O7: each row comes to its rule under the guards with which that rule acts; the rows of SYS_CTRL, of the watchdog's
kick and of the doorbell are writes that the block takes. -/
theorem resetRowsComplete : Obligations.ResetRowsComplete := by
  unfold Obligations.ResetRowsComplete
  rintro s d rfl
  refine ⟨?fall, ?fallDown, ?release, ?releaseHold, fun who key => ⟨?warmReset, ?dormantReq⟩, ?swept, ?sweptFail,
    fun hvout => effect_of (voutWaited_vout hvout), fun hhigh hrun => effect_of (perstAssert_run hhigh hrun),
    effect_eq perstRelease s, ?kick, ?expire, ?bootStart, ?doorbell, ?timeout, ?check⟩
  case fall => exact fun hrun hidle => ⟨effect_of (pinAssert_run hrun hidle),
    effect_of ((if_pos hrun).trans (pinAssert_run hrun hidle))⟩
  case fallDown =>
    intro hdown e
    exact ⟨fun hgoal => effect_of ((resetAssert_seqDown hdown).trans (if_neg hgoal)),
      fun hgoal => effect_of ((resetAssert_seqDown hdown).trans (if_pos hgoal))⟩
  case release => exact fun hrun hheld => ⟨fun htest => effect_of (resetRelease_heldLow hrun hheld htest),
    fun hreset => effect_of (testEnLevel_heldLow hrun hheld hreset)⟩
  case releaseHold => exact fun hhold hlow => effect_of (resetRelease_hold hhold hlow)
  case warmReset => exact fun hput => (effect_sysCtrl (by decide) hput).trans (by rw [sysCtrl_warmReset])
  case dormantReq => exact fun hput => (effect_sysCtrl (by decide) hput).trans (by rw [sysCtrl_dormantReq])
  case swept => exact fun hsweep => effect_of (sweepEnded_sweep 0 hsweep)
  case sweptFail =>
    intro status hfail hsweep
    have hne : status.toNat ≠ 0 := fun h0 => hfail (BitVec.eq_of_toNat_eq h0)
    exact effect_of ((sweepEnded_sweep status.toNat hsweep).trans (if_neg hne))
  case kick => exact fun who hput => effect_block hput (by decide) (by decide) (by decide) (blockWrite_wdtKick _ _ _ _)
  case expire =>
    intro hon hend hlive
    exact ⟨fun hfirst => effect_of ((wdtExpire_due hon hend hlive).trans (if_neg (by simp [hfirst]))),
      fun hsecond => effect_of ((wdtExpire_due hon hend hlive).trans (if_pos hsecond))⟩
  case bootStart =>
    intro hrun hwarm hboot hclk hlive t e
    have hready := bootStart_ready hrun hwarm hboot hclk hlive
    refine ⟨fun hloop => effect_of (hready.trans (if_pos hloop)), fun hfew => ?_⟩
    have hgoes : ¬ (s.begins.pwr.warmed = true ∧ 3 ≤ s.begins.pwr.bootCount) := by
      rcases hfew with hnew | hfew
      · simp [hnew]
      · omega
    have hsource := hready.trans (if_neg hgoes)
    exact ⟨fun h1 => effect_of (hsource.trans (if_pos h1)),
      fun h3 => effect_of (hsource.trans ((if_neg (by omega)).trans (if_pos h3))),
      fun h1 h3 => effect_of (hsource.trans ((if_neg h1).trans (if_neg h3)))⟩
  case doorbell =>
    intro who value hput hpos hmax hboot
    have hvalue : value.toNat % 2 ^ 32 = value.toNat := Nat.mod_eq_of_lt value.isLt
    exact effect_block hput (by decide) (by decide) (by decide)
      (by rw [hvalue, blockWrite_hostDoorbell, hostDoorbell_inRange hboot hpos hmax])
  case timeout => exact fun hboot hnone hperst hsrc hdue => effect_of (hostTimeout_due hboot hnone hperst hsrc hdue)
  case check =>
    intro hboot hlive
    refine ⟨effect_of (bootCheck_silent hboot hlive), ?_⟩
    intro hdr payload c
    exact ⟨fun hpass => effect_of ((bootCheck_primary hboot hlive).trans (if_pos hpass)),
      fun hfail => effect_of ((bootCheck_primary hboot hlive).trans (if_neg hfail))⟩

end Sys2Proof.Machine

/-! ## The endpoint (R109, R503 to R518) -/

namespace Sys2Proof.Machine

/-! ### Registers under a sample that is cancelled (R448)

An access of a core to a register page cancels the sample of its run. Of the register words only the count of cancelled samples
moves: STAT[8] of INT page 0. -/

section
variable {d : Dev} {k : Nat}

/-- What is done for each of a list leaves a register word alone when it does so for each of them. -/
theorem rd_each {α : Type} {xs : List α} {f : α → Dev → Dev} (h : ∀ x d, rd (f x d) k = rd d k) (d : Dev) :
    rd (each xs f d) k = rd d k := by
  induction xs generalizing d with
  | nil => rfl
  | cons x xs ih => exact (ih (f x d)).trans (h x d)

theorem rd_dropRun (u : Nat) (d : Dev) : rd (dropRun u d) k = rd d k := by
  unfold dropRun
  split <;> rfl

theorem rd_unsample (u n : Nat) (d : Dev) : rd (unsample u n d) k = rd d k := by
  unfold unsample
  split
  · split <;> rfl
  · rfl

theorem rd_dropSample (n : Nat) (d : Dev) : rd (dropSample n d) k = rd d k := by
  unfold dropSample
  split
  case h_1 x _ => exact (rd_unsample x.unit n _).trans (rd_each rd_dropRun d)
  case h_2 => rfl

theorem rd_releaseGate (q i : Nat) (suspect : Bool) (d : Dev) : rd (releaseGate q i suspect d) k = rd d k := by
  unfold releaseGate
  dsimp only
  split <;> rfl

section
variable (h : k ≠ kI 0 0x070)
include h

theorem rd_cancelSample (n : Nat) (d : Dev) : rd (cancelSample n d) k = rd d k := by
  unfold cancelSample
  split
  case h_1 => rfl
  case h_2 => exact (rd_releaseGate ..).trans ((rd_dropSample ..).trans (rd_wr_other d _ h))

theorem rd_cancelRun (u : Nat) (d : Dev) : rd (cancelRun u d) k = rd d k := by
  unfold cancelRun
  split
  case h_1 => rfl
  case h_2 r _ =>
    split
    case h_1 =>
      split
      · exact rd_cancelSample h _ d
      · rfl
    case h_2 => exact rd_cancelSample h _ d
    case h_3 => exact rd_cancelSample h _ d

/-- An access to a register page leaves every register word but the count of cancelled samples alone. -/
theorem rd_touched (w : Who) (d : Dev) : rd (touched w d) k = rd d k := by
  rw [touched, rd_dropLatch, pageTouched]
  split
  · exact rd_cancelRun h _ d
  · rfl

end

end

/-! ### Vectors (R513) -/

section
variable {d e : Dev} {f v q val : Nat}

/-- A vector's word is another than the count of cancelled samples. -/
theorem kVec_ne_cancelled (f v : Nat) : kVec f v ≠ kI 0 0x070 := by
  unfold kVec kH kI rk
  have hty : T.HST = 0x16 ∧ T.INT = 0x13 := ⟨rfl, rfl⟩
  omega

/-- Where a vector's word stands: on its function's page, from offset 0x400 on. -/
theorem kVec_place (hf : f < 16) (hv : v < 64) :
    keyTy (kVec f v) = 0x16 ∧ keyPage (kVec f v) = 1 + f ∧ keyOff (kVec f v) = 0x400 + 4 * v := by
  have hpages : slotOk T.HST 0 (1 + f) = true := by
    simp only [slotOk, Bool.and_eq_true, decide_eq_true_eq]
    show 1 + f < 17 ∧ 0 * 17 + (1 + f) < 256
    omega
  have hoff : 0x400 + 4 * v < 0x1000 := by omega
  exact ⟨rk_ty hpages hoff, rk_page hpages hoff, rk_off _ _ _ hoff⟩

/-- VEC_BIND[v] of a function acts by its own rule. -/
theorem blockWrite_vecBind (hf : f < 16) (hv : v < 64) (w : Who) (m val : Nat) (d : Dev) :
    blockWrite w m (kVec f v) val d = some (vecBind f v val d) := by
  obtain ⟨hty, hpage, hoff⟩ := kVec_place hf hv
  have hin : inR (0x400 + 4 * v) 0x400 0x100 = true := by simp [inR]; omega
  have hfn : 1 + f - 1 = f := by omega
  have hvec : (0x400 + 4 * v - 0x400) / 4 = v := by omega
  have hne : 1 + f ≠ 0 := by omega
  simp only [blockWrite, hty, hpage, hoff, hin, hfn, hvec, if_pos hne, if_true]

/-- A row that writes VEC_BIND[v] of a function. -/
theorem effect_vecBind {s : State} {w : Who} (hf : f < 16) (hv : v < 64) (hput : mayPut s.begins w (kVec f v) val = true) :
    effect (regCmd w (kVec f v) val) s = .next (s.ends (vecBind f v (val % 2 ^ 32) (touched w s.begins))) := by
  obtain ⟨hty, -, hoff⟩ := kVec_place hf hv
  exact effect_block hput (rk_mod4 _ _ _ (by omega)) (by omega) (by rw [hty]; exact fun h => absurd h.1 (by decide))
    (blockWrite_vecBind hf hv _ _ _ _)

theorem b2n_le_one (a : Bool) : b2n a ≤ 1 := by cases a <;> decide

/-- The word of a vector that is bound to a queue. -/
def boundWord (armed : Bool) (q : Nat) : Nat := 2 ^ 31 + b2n armed * 2 ^ 30 + q

section
variable {a : Bool} (hq : q < 2 ^ 16)
include hq

theorem boundWord_lt : boundWord a q < 2 ^ 32 := by
  have harmed := b2n_le_one a
  unfold boundWord
  omega

theorem boundWord_valid : bit (boundWord a q) 31 = true := by
  have harmed := b2n_le_one a
  rw [bit, boundWord, Nat.testBit_eq_decide_div_mod_eq, decide_eq_true_eq]
  omega

theorem boundWord_queue : fld (boundWord a q) 15 0 = q := by
  rw [fld, boundWord, Nat.shiftRight_zero]
  omega

end

/-- A field of 16 bits. -/
theorem fld_lt_16 (x : Nat) : fld x 15 0 < 2 ^ 16 := Nat.mod_lt _ (by decide)

/-- Setting ARMED in a vector's word leaves VALID and the queue. -/
theorem armed_word (x : Nat) :
    bit (setBit x 30 % 2 ^ 32) 31 = bit x 31 ∧ fld (setBit x 30 % 2 ^ 32) 15 0 = fld x 15 0 := by
  constructor
  · simp only [bit, setBit, Nat.testBit_mod_two_pow, Nat.testBit_or, Nat.testBit_shiftLeft]
    simp [Nat.testBit_one_eq_true_iff_self_eq_zero]
  · refine Nat.eq_of_testBit_eq fun i => ?_
    simp only [fld, setBit, Nat.shiftRight_zero, Nat.testBit_mod_two_pow, Nat.testBit_or, Nat.testBit_shiftLeft]
    by_cases hi : i < 16
    · simp [hi, show i < 32 by omega, show ¬ 30 ≤ i by omega]
    · simp [hi]

/-- A binding to a completion or event queue of the function's own, bound to no other vector, is stored; with ARMED written as 1
the vector is armed. -/
theorem vecBind_accepted (hvalid : (getQueue e q).valid = true) (hkind : (getQueue e q).kind = 1)
    (howner : (getQueue e q).owner = f ∨ f = 0) (hfree : boundVector (wr (kVec f v) 0 e) q = none)
    (halert : f = 0 → v = 0 → alertToPf e = false) (hset : bit val 31 = true) (hq : fld val 15 0 = q) :
    vecBind f v val e =
      (let e1 := wr (kVec f v) (boundWord (rdB e (kVec f v) 30) q) e
       if bit val 30 then vectorArm f v e1 else e1) := by
  have hmine : (decide ((getQueue e q).owner ≠ f) && decide (f ≠ 0)) = false := by
    rcases howner with h | h <;> simp [h]
  have hroute : (decide (f = 0) && decide (v = 0) && alertToPf e) = false := by
    by_cases h0 : f = 0 ∧ v = 0
    · simp [halert h0.1 h0.2]
    · simp only [Bool.and_eq_false_iff, decide_eq_false_iff_not]; omega
  simp only [vecBind, hq, hfree, hset, hvalid, hkind, hmine, hroute, ne_eq, not_true, decide_false, Bool.not_true, Bool.or_self,
    Bool.and_false, Bool.not_false, Bool.and_self, Bool.false_eq_true, if_false]
  simp only [b2n, if_true, Nat.one_mul, boundWord]

/-- A bound vector that is armed: unread entries of its queue send the message at once. -/
theorem vectorArm_bound (hvalid : rdB d (kVec f v) 31 = true) (hq : rdF d (kVec f v) 15 0 = q) : vectorArm f v d =
    if (getQueue d q).tail = (getQueue d q).head then wrB (kVec f v) 30 true d
    else sendVector f v (wrB (kVec f v) 30 false d) := by
  simp only [vectorArm, hvalid, hq, Bool.true_and, decide_eq_true_eq, ne_eq, ite_not]

/-- The same of a vector that has just been bound. -/
theorem vectorArm_boundWord {a : Bool} (hq : q < 2 ^ 16) : vectorArm f v (wr (kVec f v) (boundWord a q) e) =
    if (getQueue e q).tail = (getQueue e q).head then wrB (kVec f v) 30 true (wr (kVec f v) (boundWord a q) e)
    else sendVector f v (wrB (kVec f v) 30 false (wr (kVec f v) (boundWord a q) e)) := by
  have hword : rd (wr (kVec f v) (boundWord a q) e) (kVec f v) = boundWord a q := by
    rw [rd_wr_same, Nat.mod_eq_of_lt (boundWord_lt hq)]
  have hqueue : getQueue (wr (kVec f v) (boundWord a q) e) q = getQueue e q := by rw [getQueue, wr_dpt, getQueue]
  rw [vectorArm_bound (by rw [rdB, hword, boundWord_valid hq]) (by rw [rdF, hword, boundWord_queue hq]), hqueue]

end

/-! ### Functions, configuration space and the link (R503, R504, R516) -/

section
variable {d e : Dev} {f : Nat}

/-- What the host writes while the link is up. -/
theorem linkUp_ite (hlink : linkIsUp d = true) : (if !linkIsUp d then d else e) = e := if_neg (by simp [hlink])

/-- What the host writes of a function that exists. -/
theorem functionUp_ite (hlink : linkIsUp d = true) (hex : fnExists d f = true) :
    (if !linkIsUp d then d else if fnExists d f then e else d) = e := (linkUp_ite hlink).trans (if_pos hex)

/-- A function-level reset of the PF, which always exists. -/
theorem functionReset_pf (d : Dev) : functionReset 0 d = pfReset d := rfl

/-- A function-level reset of a VF that exists resets its compartment too, where that follows the function and is active. -/
theorem functionReset_vf (hne : f ≠ 0) (hex : fnExists d f = true) : functionReset f d =
    (let e := vfReset f d
     if rdB e (kC f 0x04C) 8 ∧ (getCmp e f).mode = .active then
       cmpResetStart f (wrB (kC f 0x048) 31 true (cutCompartment f false e)) else e) := by
  simp only [functionReset, hex, hne, Bool.not_true, Bool.false_eq_true, if_false, Bool.and_eq_true, decide_eq_true_eq]

/-- The link comes up at a width and rate of R501 once the endpoint has been brought up. -/
theorem hostLinkUp_fits {width rate : Nat} (hdown : linkIsUp d = false) (hend : d.pwr.endpoint = true)
    (hperst : d.pwr.perstLow = false) (hclk : d.hst.refclk = true) (hwidth : width = 1 ∨ width = 2 ∨ width = 4)
    (hmin : 1 ≤ rate) (hmax : rate ≤ 4) :
    hostLinkUp width rate d = hostLinkEvent 1 (wr (kH 0 0x044) (0x10000 + width * 256 + rate) d) := by
  have hrate : inR rate 1 4 = true := by simp [inR]; omega
  have hfits : linkFits width rate = true := by simp [linkFits, hrate, or_assoc, hwidth]
  simp only [hostLinkUp, hdown, hend, hperst, hclk, hfits, Bool.not_true, Bool.or_self, Bool.false_eq_true, if_false]

/-- With PERST_N low no edge of REFCLK is missed. -/
theorem refclkLost_inReset (hperst : d.pwr.perstLow = true) : refclkLost d = d := by simp [refclkLost, hperst]

/-- REFCLK is lost with PERST_N high: the link falls. -/
theorem refclkLost_live (hperst : d.pwr.perstLow = false) (hclk : d.hst.refclk = true) : refclkLost d =
    hostLinkOf 2 (rd d (kH 0 0x044)) (linkFalls (flag0 T.HST 0 1 0 (updHst (fun h => { h with refclk := false }) d))) := by
  simp [refclkLost, hperst, hclk]

end

/-- Settles O36: each row comes to the endpoint's rule of its name, under the guards with which that rule acts; a binding is a
write that the block takes, of a word that the access itself leaves alone. -/
theorem endpointRowsComplete : Obligations.EndpointRowsComplete := by
  unfold Obligations.EndpointRowsComplete
  rintro s d rfl
  refine ⟨fun hpins => ⟨effect_of (overPins_open hpins), ?resetPf, ?resetVf, ?config⟩, ?vectors,
    fun hlink => effect_of (linkUp_ite hlink), ?linkUp, ?refclk, effect_eq refclkRestored s⟩
  case resetPf => exact effect_of ((overPins_open hpins).trans (functionReset_pf _))
  case resetVf =>
    intro f hne hex
    exact effect_of ((overPins_open hpins).trans (functionReset_vf (fun h0 => hne (Fin.ext h0)) hex))
  case config =>
    intro hlink
    refine ⟨fun f b hex => ?_, fun b => effect_of ((overPins_open hpins).trans (linkUp_ite hlink)),
      fun n => effect_of ((overPins_open hpins).trans (linkUp_ite hlink))⟩
    refine ⟨effect_of ?_, effect_of ?_, effect_of ?_, effect_of ?_, effect_of ?_, effect_of ?_⟩ <;>
      exact (overPins_open hpins).trans (functionUp_ite hlink hex)
  case vectors =>
    rintro who f v k q e rfl rfl hvalid hkind howner hfree halert
    have hmine := howner.imp_right (fun h0 : f = 0 => congrArg Fin.val h0)
    have hroute := fun (h0 : f.val = 0) (h1 : v.val = 0) => halert (Fin.ext h0) (Fin.ext h1)
    have haccepted := fun val => vecBind_accepted (val := val) hvalid hkind hmine hfree hroute
    refine ⟨fun value hput hset hclear hq => ?bind, fun hput hset hq => ?arm⟩
    case bind =>
      have hvalue : value.toNat % 2 ^ 32 = value.toNat := Nat.mod_eq_of_lt value.isLt
      have hbound := haccepted value.toNat hset hq
      rw [hclear, if_neg (by decide), boundWord] at hbound
      calc exec (.vecBindWrite who f v value) s
          = effect (regCmd who (kVec f.val v.val) value.toNat) s := rfl
        _ = _ := by rw [effect_vecBind f.isLt v.isLt hput, hvalue, hbound]
    case arm =>
      have hword := rd_touched (kVec_ne_cancelled f.val v.val) who s.begins
      obtain ⟨hkeeps, hqueue⟩ := armed_word (rd s.begins (kVec f.val v.val))
      have hbound := haccepted _ (hkeeps.trans hset) (hqueue.trans hq)
      rw [bit_setBit_word (by decide), if_pos rfl, vectorArm_boundWord (hq ▸ fld_lt_16 _), rdB, hword, ← rdB, boundWord]
        at hbound
      have hrow : exec (.vectorArm who f v) s = .next (s.ends _) :=
        calc exec (.vectorArm who f v) s
            = effect (regSetBit who (kVec f.val v.val) 30) s := rfl
          _ = effect (regCmd who (kVec f.val v.val) (setBit (rd s.begins (kVec f.val v.val)) 30)) s := by
            simp only [effect_eq, regSetBit]
          _ = _ := by rw [effect_vecBind f.isLt v.isLt hput, hbound]
      rintro e1 rfl
      exact ⟨fun hempty => hrow.trans (by rw [if_pos hempty]), fun hunread => hrow.trans (by rw [if_neg hunread])⟩
  case linkUp =>
    intro width rate hdown hend hperst hclk hwidth hmin hmax
    have hlanes : width.val = 1 ∨ width.val = 2 ∨ width.val = 4 :=
      hwidth.imp (congrArg Fin.val) (Or.imp (congrArg Fin.val) (congrArg Fin.val))
    exact effect_of (hostLinkUp_fits hdown hend hperst hclk hlanes hmin hmax)
  case refclk => exact fun hclk => ⟨fun hperst => effect_of (refclkLost_inReset hperst),
    fun hperst => effect_of (refclkLost_live hperst hclk)⟩

end Sys2Proof.Machine

/-! ## The turnpike (R188 to R190, R470) -/

namespace Sys2Proof.Machine

section
variable {d : Dev}

/-! ### Register words of the TPK pages -/

/-- EPOCH_CMD acts by its own rule. -/
theorem blockWrite_epochCmd (w : Who) (m v : Nat) (d : Dev) :
    blockWrite w m (kT 1 0x048) v d = some (if bit v 0 then startSwitch d else d) := rfl

/-- ROUTE_DATA takes its value by its own rule. -/
theorem blockWrite_routeData (w : Who) (m v : Nat) (d : Dev) : blockWrite w m (kT 1 0x044) v d = some (routeData v d) := rfl

/-- LINK_CMD acts by its own rule. -/
theorem blockWrite_linkCmd (w : Who) (m v : Nat) (d : Dev) : blockWrite w m (kT 1 0x054) v d = some (linkCmd v d) := rfl

/-- A SHADOW entry that is selected takes its value while the module does not compute the tables itself (R188). -/
theorem routeData_manual {v : Nat} (hauto : routeAuto d = false) (hsel : rdB d (kT 1 0x040) 12 = true) : routeData v d =
    { d with net := { d.net with shadow := Map.set (fun _ => 0) d.net.shadow (routeSel d) (v % 256) } } := by
  simp [routeData, hauto, hsel]

/-- A row that writes EPOCH_CMD starts a switch. -/
theorem effect_epochCmd {s : State} {w : Who} (hput : mayPut s.begins w (kT 1 0x048) 1 = true)
    (hstart : startSwitch (touched w s.begins) = d) : effect (regCmd w (kT 1 0x048) 1) s = .next (s.ends d) :=
  hstart ▸ effect_block hput (by decide) (by decide) (by decide) (blockWrite_epochCmd _ _ _ _)

/-- The codes of LINK_CMD: 1 stables the selected link, and 2 begins its probation. -/
theorem linkCmd_codes (d : Dev) :
    linkCmd (1 % 2 ^ 32) d = stableLink (linkSel d) d ∧ linkCmd (2 % 2 ^ 32) d = probeLink (linkSel d) d := ⟨rfl, rfl⟩

section
variable {s : State} {w : Who}

/-- A row that writes LINK_CMD with code 1 stables the selected link. -/
theorem effect_linkStable (hput : mayPut s.begins w (kT 1 0x054) 1 = true)
    (hlink : stableLink (linkSel (touched w s.begins)) (touched w s.begins) = d) :
    effect (regCmd w (kT 1 0x054) 1) s = .next (s.ends d) :=
  effect_block hput (by decide) (by decide) (by decide) (by rw [blockWrite_linkCmd, (linkCmd_codes _).1, hlink])

/-- A row that writes LINK_CMD with code 2 begins the probation of the selected link. -/
theorem effect_linkProbation (hput : mayPut s.begins w (kT 1 0x054) 2 = true)
    (hlink : probeLink (linkSel (touched w s.begins)) (touched w s.begins) = d) :
    effect (regCmd w (kT 1 0x054) 2) s = .next (s.ends d) :=
  effect_block hput (by decide) (by decide) (by decide) (by rw [blockWrite_linkCmd, (linkCmd_codes _).2, hlink])

end

/-! ### Links (R190, R470) -/

variable {l : Nat} (hex : linkExists l = true)
include hex

/-- A link on probation that has not passed and that no table uses is stabled at once. -/
theorem stableLink_tested (hprobe : (getLink d l).state = .probation) (hpassed : (getLink d l).passed = false)
    (hunused : linkUsed d l = false) : stableLink l d =
    cper { cls := 0x20, block := T.TPK, detail := 0x2000 + l } (mapBit (0x2000 + l) true
      (flag0 T.TPK 0 4 l (updLink l (fun k => { k with state := .stabled, passed := false }) d))) := by
  have hdown : stableLink l d = linksDown [l] d := by simp [stableLink, hex, hprobe, hpassed, hunused]
  rw [hdown, linksDown, each, List.foldl_cons, List.foldl_nil]

/-- Any other link in service is stabled once the tables avoid it. -/
theorem stableLink_waits (hserves : (getLink d l).state ≠ .stabled)
    (huntested : ¬ ((getLink d l).state = .probation ∧ (getLink d l).passed = false ∧ linkUsed d l = false))
    (hnew : d.net.toStable.contains l = false) : stableLink l d =
    reroute (updLink l (fun k => { k with passed := false }) { d with net := { d.net with toStable := d.net.toStable ++ [l] } }) := by
  have hnow : (decide ((getLink d l).state = .probation) && !(getLink d l).passed && !linkUsed d l) = false := by
    simpa [and_assoc] using huntested
  simp only [stableLink, hex, hserves, hnow, hnew, Bool.not_true, Bool.false_eq_true, if_false]

/-- A stabled link goes to probation. -/
theorem probeLink_stabled (hstabled : (getLink d l).state = .stabled) :
    probeLink l d = reroute (updLink l (fun k => { k with state := .probation, passed := false }) d) := by
  simp [probeLink, hex, hstabled]

end

/-- Settles O20: the rows of EPOCH_CMD, ROUTE_DATA and LINK_CMD are writes that the block takes, and the tables and the links
follow the rule of the row's name; the end and the slowness of a switch act without a requester. -/
theorem turnpikeRowsComplete : Obligations.TurnpikeRowsComplete := by
  unfold Obligations.TurnpikeRowsComplete
  rintro s d rfl
  refine ⟨?epochCmd, effect_eq epochSwitchDone s, fun hbusy => effect_of (if_pos hbusy), ?routeData, ?links⟩
  case epochCmd =>
    intro who hput
    exact ⟨fun hidle => effect_epochCmd hput (by simp only [startSwitch, hidle, Bool.false_eq_true, if_false]),
      fun hbusy => effect_epochCmd hput (if_pos hbusy)⟩
  case routeData =>
    intro who value hput hauto hsel
    have hvalue : value.toNat % 2 ^ 32 = value.toNat := Nat.mod_eq_of_lt value.isLt
    exact effect_block hput (by decide) (by decide) (by decide)
      (by rw [hvalue, blockWrite_routeData, routeData_manual hauto hsel])
  case links =>
    intro who e hex
    refine ⟨fun hput hserves => ?stable, fun hput hstabled => effect_linkProbation hput (probeLink_stabled hex hstabled)⟩
    intro tested
    refine ⟨fun htested => ?now, fun huntested hnew => effect_linkStable hput (stableLink_waits hex hserves huntested hnew)⟩
    obtain ⟨hprobe, hpassed, hunused⟩ := htested
    exact effect_linkStable hput (stableLink_tested hex hprobe hpassed hunused)

end Sys2Proof.Machine

/-! ## Accesses to stack memory that nothing befalls (R200, R201, R203) -/

namespace Sys2Proof.Machine

section
variable {w : Who} {acc : Access} {a : Nat} {bs : List Byte} {d : Dev}

/-- A module whose command meets no mishap is as one for which none is named. -/
theorem onWay_none (h : d.net.way = .clear) : onWay .clear d = d := by
  rw [onWay, ← h]

/-- An access to the yard or to stack memory that nothing befalls arrives there. -/
theorem sendOff_clear (acc : Access) (a : Nat) (h : d.net.way = .clear) : sendOff acc a d = (.arrives, d) := by
  unfold sendOff
  split <;> exact sendTo_clear _ _ _ _ _ h

@[simp] theorem bumpBy_net (k n : Nat) (d : Dev) : (bumpBy k n d).net = d.net := wr_net d _ _

/-- Command parity that never fails counts nothing. -/
theorem caFailures_none (a : Nat) (d : Dev) :
    caFailures a 0 d = bumpBy (kS (stackMap d.part (a - stackBase)).1 1 0x050) 0 d := by
  have hnever : ¬ 3 ≤ 0 := by decide
  simp only [caFailures, if_neg hnever, Nat.zero_min]

/-- Command parity that never fails befalls no packet. -/
theorem caFailures_none_way (a : Nat) (d : Dev) : (caFailures a 0 d).net.way = d.net.way := by
  rw [caFailures_none, bumpBy_net]

/-- A read of stack memory at an address of this module. -/
theorem memGet_here {op : FarOp} {here : Dev → Dev} (h : toward d w a = .here) : memGet w a op here d = here d := by
  simp only [memGet, h]

/-- A posted write of stack memory at an address of this module. -/
theorem memPut_here {here : Dev → Dev} (h : toward d w a = .here) : memPut w a bs here d = here d := by
  simp only [memPut, h]

/-- A posted write beyond the yard that need not wait is one part, under way with what it met at its target. -/
theorem postWrite_lands {tag serial : Nat} (hyard : yardEnd ≤ a) (hnow : (memWrite acc a bs d).1 ≠ .held) :
    (postWrite false acc tag serial a bs d).2 =
      launch ⟨acc.who, acc.cmp, tag, serial, a, true, postedOutcome (memWrite acc a bs d).1, tick d, acc.stream⟩
        (memWrite acc a bs d).2 := by
  have hone : clusterParts a bs.length = [(0, bs.length)] := by simp [clusterParts, hyard]
  have hpart : partWrite false acc a bs d = memWrite acc a bs d := by simp [partWrite]
  -- of the two ways to go on, `hnow` leaves the launch
  simp only [postWrite, hone, List.foldl_cons, List.foldl_nil, Nat.add_zero, List.drop_zero, List.take_length, hpart]

variable (hway : d.net.way = .clear) (hlow : stackBase ≤ a) (hhigh : a < stackBase + usable d)
include hway hlow hhigh

/-- STACK_READ that reaches its stack and need not wait is answered what the lines hold. -/
theorem stackReadCmd_clear {len : Nat} {bar4 : Bool} {upset : BitVec 576} {die : Nat} :
    let r := memRead { who := w, cmp := cmpOf d w, bar4 := bar4, unit := w.unitId } a len
      (dieEcc a die (caFailures a 0 (upsetLine a upset d)))
    r.1 ≠ .held → stackReadCmd w a len bar4 .clear upset 0 die d = answer w (readAnswer r.1) r.2 := by
  intro r hnow
  have hrange : ¬ (a < stackBase ∨ stackBase + usable d ≤ a) := by omega
  have harrived : ¬ Fate.arrives = .lost := by decide
  have hnever (b : Bool) : ¬ (decide (3 ≤ 0) && b) = true := by simp
  simp only [stackReadCmd, if_neg hrange, onWay_none hway, sendOff_clear _ _ hway, if_neg harrived, if_neg (hnever _)]
  split
  case h_1 hheld => exact absurd hheld hnow
  case h_2 => rfl

/-- STACK_WRITE that reaches its stack and need not wait lands in the step that issues it (log entry 5). -/
theorem stackWriteCmd_clear :
    let e := caFailures a 0 d
    let r := memWrite { who := w, cmp := cmpOf d w, write := true, unit := w.unitId } a bs e
    r.1 ≠ .held → stackWriteCmd w a bs .clear false 0 d =
      launch ⟨w, cmpOf d w, tagOf d w.unitId, serialOf e w.unitId, a, true, postedOutcome r.1, tick e, false⟩ r.2 := by
  intro e r hnow
  have hrange : ¬ (a < stackBase ∨ stackBase + usable d ≤ a) := by omega
  have hclear : (caFailures a 0 d).net.way = .clear := (caFailures_none_way a d).trans hway
  have hyard : yardEnd ≤ a := Nat.le_trans (by decide) hlow
  have hnever (b : Bool) : ¬ (decide (3 ≤ 0) && b) = true := by simp
  simp only [stackWriteCmd, if_neg hrange, if_neg (hnever _), if_neg Bool.false_ne_true, onWay_none hclear, sendWrite,
    sendOff_clear _ _ hclear]
  exact postWrite_lands hyard hnow

end

end Sys2Proof.Machine

/-! ## The stack controllers (R205 to R211, R483, R488) -/

namespace Sys2Proof.Machine

section
variable {p : Nat} {d : Dev}

/-! ### Temperature and training (R205, R211) -/

/-- A reading of a stack whose training has started: below 95 °C a stack that has tripped leaves self-refresh, from 95 °C on it
warns, and from 105 °C on it trips. -/
theorem stackTemp_started {t : BitVec 16} (hp : p < d.part.stacks) (hstarted : (stackOf d p).started = true) :
    let e := updStack p (fun c => { c with
        fastRefresh := decide (85 * 16 < t.toInt), halfRate := decide (95 * 16 ≤ t.toInt) })
      (wrF (kS p 0 0x044) 15 0 t.toNat d)
    (t.toInt < 95 * 16 → stackTemp p t d = updStack p (fun c => { c with hot := false }) e) ∧
    (95 * 16 ≤ t.toInt → t.toInt < 105 * 16 → stackTemp p t d = flag0 T.STK p 9 0 e) ∧
    (105 * 16 ≤ t.toInt → stackTemp p t d =
      updStack p (fun c => { c with hot := true, rows := [], recal := none }) (flag0 T.STK p 10 0 (flag0 T.STK p 9 0 e))) := by
  have hread : ¬ (decide (d.part.stacks ≤ p) || !(stackOf d p).started) = true := by simp [hstarted, hp]
  refine ⟨fun hcool => ?_, fun hwarm hbelow => ?_, fun htrip => ?_⟩
  · have hlow : ¬ 95 * 16 ≤ t.toInt := by omega
    have hbelow : ¬ 105 * 16 ≤ t.toInt := by omega
    simp only [stackTemp, if_neg hread, if_neg hlow, if_neg hbelow, if_pos hcool]
  · have huntripped : ¬ 105 * 16 ≤ t.toInt := by omega
    have hhot : ¬ t.toInt < 95 * 16 := by omega
    simp only [stackTemp, if_neg hread, if_pos hwarm, if_neg huntripped, if_neg hhot]
  · have hwarm : 95 * 16 ≤ t.toInt := by omega
    simp only [stackTemp, if_neg hread, if_pos hwarm, if_pos htrip]

/-- A change of a stack's controller is no change of a unit's STATE. -/
theorem unitState_updStack (q ty inst : Nat) (f : Stack → Stack) (d : Dev) :
    unitState (updStack q f d) ty inst = unitState d ty inst := rfl

/-- A bit of CTRL is no part of STATE. -/
theorem unitState_wrB_kCTRL (ty inst i : Nat) (b : Bool) (d : Dev) :
    unitState (wrB (kCTRL ty inst) i b d) ty inst = unitState d ty inst := by
  have hkey : kSTATUS ty inst ≠ kCTRL ty inst := by unfold kSTATUS kCTRL rk; omega
  simp only [unitState, rdF, wrB, rd_wr_other _ _ hkey]

/-- The training of a stack that is in service ends, with it the reset that retrains it; a stack that fails it is stabled. -/
theorem trainingDone_resetting (hp : p < d.part.stacks) (hmode : (stackOf d p).mode = .training)
    (hstate : unitState d T.STK p = .resetting) :
    let e := updStack p (fun c => { c with inReset := false }) (wrB (kCTRL T.STK p) 1 false d)
    (d.clk.lost = false → trainingDone p true d = wakeCheck (setUnitState T.STK p
      (if enabled e T.STK p then .running else .off) (updStack p (fun c => { c with mode := .ready }) e))) ∧
    trainingDone p false d = wakeCheck (stableStack p (flag0 T.STK p 7 0 e)) := by
  intro e
  have htrains : ¬ (decide (d.part.stacks ≤ p) || (stackOf d p).mode != .training && !(stackOf d p).inReset) = true := by
    simp [hp, hmode]
  have hserves : ¬ unitState e T.STK p = .stabled := by
    rw [unitState_updStack, unitState_wrB_kCTRL, hstate]; decide
  constructor
  · intro href
    simp only [trainingDone, if_neg htrains, if_true]
    rw [if_neg hserves, if_neg hserves, href, if_neg Bool.false_ne_true]
  · simp only [trainingDone, if_neg htrains, Bool.false_eq_true, if_false]
    rfl

/-! ### Recalibration (R206, R207, R488) -/

/-- A window that is due on a stack that answers accesses. -/
theorem recalWindow_online {c : Nat} (hp : p < d.part.stacks) (hc : c < 16) (honline : stackOnline d p = true) :
    let r := recalNow (recalOf d p) (tick d)
    let off := c * r.1 / 16 + p * r.1 / 64
    r.2 + off ≤ tick d → (tick d - r.2 - off) % max 1 r.1 = 0 →
      recalWindow p c d = updStack p (fun x => { x with recal := some c }) d := by
  intro r off hfrom hstart
  have hdue : ¬ (decide (d.part.stacks ≤ p) || decide (16 ≤ c) || decide (tick d < r.2 + off) ||
      decide ((tick d - r.2 - off) % max 1 r.1 ≠ 0)) = true := by
    simp [hp, hc, hfrom, hstart]
  rw [recalWindow, if_neg hdue, if_neg (by simp [honline])]

/-- The recalibration of a channel ends. -/
theorem recalChannelDone_ends {failures ch : Nat} (hrecal : (stackOf d p).recal = some ch) : recalChannelDone p failures d =
    (let e := updStack p (fun c => { c with recal := none, rows := c.rows.filter (fun r => r.1 / 64 ≠ ch) }) d
     if 2 ≤ failures then flag0 T.STK p 8 ch e else e) := by
  simp only [recalChannelDone, hrecal]

/-! ### Patrol scrub (R208, R483, R484) -/

/-- While there is debt a patrol read moves SCRUB_PTR behind the place that it reads. -/
theorem rd64_patrolRead {upset : BitVec 576} (hp : p < d.part.stacks) (honline : stackOnline d p = true)
    (hdebt : (stackOf d p).debt ≠ 0) : rd64 (patrolRead p upset d) (kS p 1 0x060) =
      ((patrolPlace d p (patrolTotal d p) (rd64 d (kS p 1 0x060) % patrolTotal d p) + 1) % patrolTotal d p) % 2 ^ 64 := by
  have hreads : ¬ (decide (d.part.stacks ≤ p) || !stackOnline d p || decide ((stackOf d p).debt = 0)) = true := by
    simp [hp, honline, hdebt]
  rw [patrolRead, if_neg hreads, rd64_wr64_same]

/-- What is done for each of a list does nothing when it does nothing for any of them. -/
theorem each_keeps {α : Type} {xs : List α} {f : α → Dev → Dev} (h : ∀ x ∈ xs, f x d = d) : each xs f d = d :=
  List.foldlRecOn xs _ (motive := (· = d)) rfl (fun _ hkept x hx => hkept.symm ▸ h x hx)

/-- What TLM holds is no register word. -/
theorem rd_updTlm (f : TlmState → TlmState) (d : Dev) (k : Nat) : rd (updTlm f d) k = rd d k := rfl

/-- With patrol scrub disabled on every stack no debt is added. -/
theorem patrolDebt_disabled (hdue : d.tlm.debtAt ≤ tick d) (hoff : ∀ p < d.part.stacks, rdB d (kS p 1 0x068) 31 = false) :
    patrolDebt d = updTlm (fun t => { t with debtAt := (tick d / 1000 + 1) * 1000 }) d := by
  have hword := rd_updTlm (fun t => { t with debtAt := (tick d / 1000 + 1) * 1000 }) d
  simp only [patrolDebt, if_neg (Nat.not_lt.mpr hdue)]
  generalize updTlm _ d = e at hword ⊢
  refine each_keeps fun p hp => ?_
  have hdisabled : bit (rd e (kS p 1 0x068)) 31 = false := by rw [hword]; exact hoff p (List.mem_range.mp hp)
  simp only [hdisabled, Bool.not_false, if_true]

/-! ### Pseudo-channels and spares (R209 to R211) -/

section
variable {pc : Nat} (hp : p < d.part.stacks) (hserves : (stackOf d p).pcs.testBit pc = false)
include hp hserves

/-- Without spares a pseudo-channel is stabled at once. -/
theorem stablePc_noSpare (hother : (stackOf d p).migrate ≠ some pc) (hspare : spareEn d = false) : stablePc p pc d = pcStabled p pc d := by
  have hfitted : ¬ d.part.stacks ≤ p := by omega
  simp [stablePc, hfitted, hserves, hother, hspare]

/-- With a free spare a pseudo-channel is migrated first. -/
theorem stablePc_migrates (hspare : spareEn d = true) (hfree : rdB d (kS p 0 0x050) 8 = false)
    (hidle : (stackOf d p).migrate = none) : stablePc p pc d =
    wr (kS p 0 0x054) (0x80000000 + migrateLines) (updStack p (fun c => { c with migrate := some pc, copied := 0 }) d) := by
  have hfitted : ¬ d.part.stacks ≤ p := by omega
  simp [stablePc, hfitted, hserves, hspare, hfree, hidle]

end

section
variable {pc : Nat} {lines : Option Nat} (hmigrates : (stackOf d p).migrate = some pc)
include hmigrates

/-- In a unit reset, or else offline, a stack copies nothing. -/
theorem migrateDone_stopped (hstopped : (stackOf d p).inReset = true ∨ stackOnline d p = false) :
    migrateDone p lines d = d := by
  have hstop : ((stackOf d p).inReset || !stackOnline d p) = true := by simpa using hstopped
  simp only [migrateDone, hmigrates, hstop, if_true]

/-- A stack that answers accesses copies further lines; with the last of them the channel is stabled. -/
theorem migrateDone_online (hreset : (stackOf d p).inReset = false) (honline : stackOnline d p = true) :
    migrateDone p lines d =
      (let copied := (stackOf d p).copied
       let left := migrateLines - copied
       let n := min left (lines.getD left)
       let e := copyLines p pc copied n d
       if n < left then wr (kS p 0 0x054) (0x80000000 + (left - n)) (updStack p (fun x => { x with copied := copied + n }) e)
       else pcStabled p pc (flag0 T.STK p 12 pc (wr (kS p 0 0x054) 0 (wrF (kS p 0 0x050) 8 0 (256 + pc) e)))) := by
  simp only [migrateDone, hmigrates, hreset, honline, Bool.not_true, Bool.or_self, Bool.false_eq_true, if_false]

end

/-! ### Register words of the STK pages -/

/-- Where a word of page 0 of a fitted stack stands. -/
theorem kS_place {part : Part} {off : Nat} (hp : p < part.stacks) (ho : off < 0x1000) :
    keyTy (kS p 0 off) = 0x07 ∧ keyInst (kS p 0 off) = p ∧ keyPage (kS p 0 off) = 0 ∧ keyOff (kS p 0 off) = off := by
  have hslot : slotOk T.STK p 0 = true := slotOk_of (p := part) hp (by decide)
  exact ⟨rk_ty hslot ho, rk_inst hslot ho, rk_page hslot ho, rk_off _ _ _ ho⟩

/-- PC_CMD acts by its own rule. -/
theorem blockWrite_pcCmd {part : Part} (hp : p < part.stacks) (w : Who) (m v : Nat) (d : Dev) :
    blockWrite w m (kS p 0 0x04C) v d = some (if bit v 8 then stablePc p (fld v 4 0) d else d) := by
  obtain ⟨hty, hinst, hpage, hoff⟩ := kS_place (off := 0x04C) hp (by decide)
  simp [blockWrite, hty, hinst, hpage, hoff]

/-- SPARE_CFG of stack 0, which holds SPARE_EN, acts by its own rule. -/
theorem blockWrite_spare (w : Who) (m v : Nat) (d : Dev) :
    blockWrite w m (kS 0 0 0x050) v d = some (spareWrite (bit v 31) d) := rfl

/-- The word of PC_CMD with its command bit names its channel. -/
theorem pcCmdWord_fields (pc : Fin 32) : bit ((256 + pc.val) % 2 ^ 32) 8 = true ∧ fld ((256 + pc.val) % 2 ^ 32) 4 0 = pc.val := by
  revert pc; decide

/-- A row that writes PC_CMD of a fitted stack stables the channel. -/
theorem effect_pcCmd {s : State} {w : Who} {pc : Fin 32} (hp : p < s.begins.part.stacks)
    (hput : mayPut s.begins w (kS p 0 0x04C) (256 + pc.val) = true) :
    effect (onPage T.STK p 0 (regCmd w (kS p 0 0x04C) (256 + pc.val))) s =
      .next (s.ends (stablePc p pc.val (touched w s.begins))) := by
  obtain ⟨hty, -, -, hoff⟩ := kS_place (off := 0x04C) hp (by decide)
  obtain ⟨hcmd, hchannel⟩ := pcCmdWord_fields pc
  refine (effect_onPage hp (by decide)).trans (effect_block hput (rk_mod4 _ _ _ (by decide)) (by rw [hoff]; decide) ?_ ?_)
  · rw [hty]; exact fun h => absurd h.1 (by decide)
  · rw [blockWrite_pcCmd hp, hcmd, if_pos rfl, hchannel]

/-- The word of SPARE_CFG with SPARE_EN as it is written. -/
theorem spareWord_spareEn (on : Bool) : bit (b2n on * 2 ^ 31 % 2 ^ 32) 31 = on := by
  cases on <;> decide

end

/-- Settles O21: an access that nothing befalls reaches its stack, and each other row comes to the controller's rule of its
name under the guards with which that rule acts; PC_CMD and SPARE_CFG are writes that the block takes. -/
theorem stackRowsComplete : Obligations.StackRowsComplete := by
  unfold Obligations.StackRowsComplete
  rintro s d rfl
  refine ⟨?access, ?temp, ?training, fun p hrecal => effect_of (if_pos hrecal), ?window,
    fun p failures ch hrecal => effect_of (recalChannelDone_ends hrecal), fun p channel bank => effect_eq _ s,
    fun p hp honline hdebt => ⟨_, effect_eq _ s, rd64_patrolRead hp honline hdebt⟩,
    fun hdue hoff => effect_of (patrolDebt_disabled hdue hoff), ?pcCmd, ?migrate, ?spare⟩
  case access =>
    intro who addr hhere a hlow hhigh
    have hway : s.begins.net.way = .clear := rfl
    constructor
    · intro len bar4 upset die r hnow
      exact effect_of ((memGet_here hhere).trans (stackReadCmd_clear hway hlow hhigh hnow))
    · intro bytes e r hnow
      exact effect_of ((memPut_here hhere).trans (stackWriteCmd_clear hway hlow hhigh hnow))
  case temp =>
    intro p value hp hstarted e
    obtain ⟨hcool, hwarm, htrip⟩ := stackTemp_started (t := value) hp hstarted
    exact ⟨fun h => effect_of (hcool h), fun h hbelow => effect_of (hwarm h hbelow), fun h => effect_of (htrip h)⟩
  case training =>
    intro p hp hmode hstate e
    obtain ⟨hready, hfailed⟩ := trainingDone_resetting hp hmode hstate
    exact ⟨fun href => effect_of (hready href), effect_of hfailed⟩
  case window =>
    intro p c hp honline r off hfrom hstart
    exact effect_of (recalWindow_online hp c.isLt honline hfrom hstart)
  case pcCmd =>
    intro who p pc hp hput e hpart hserves hother
    have hfitted : p.val < e.part.stacks := by rw [hpart]; exact hp
    exact ⟨fun hspare => (effect_pcCmd hp hput).trans (by rw [stablePc_noSpare hfitted hserves hother hspare]),
      fun hspare hfree hidle =>
        (effect_pcCmd hp hput).trans (by rw [stablePc_migrates hfitted hserves hspare hfree hidle])⟩
  case migrate =>
    intro p pc lines hmigrates
    exact ⟨fun hstopped => effect_of (migrateDone_stopped hmigrates hstopped),
      fun hreset honline => effect_of (migrateDone_online hmigrates hreset honline)⟩
  case spare =>
    intro who on hput hfresh
    exact effect_block hput (by decide) (by decide) (by decide)
      (by rw [blockWrite_spare, spareWord_spareEn, spareWrite, if_neg (by simp [hfresh])])

end Sys2Proof.Machine

/-! ## A command ends with the module settled (R254, R546, R548) -/

namespace Sys2Proof.Machine

section
variable {d : Dev} {h : Nat}

/-- Each row of the table is an effect, after which the module settles. -/
theorem exec_effect (c : Instr) (s : State) : ∃ f, exec c s = effect f s := by
  unfold exec
  cases c <;> exact ⟨_, rfl⟩

/-- A core that waits in `wfi` while a source is pending and enabled. -/
def wfiDue (d : Dev) (h : Nat) : Prop := (getCore d h).wait = .interrupt ∧ pendingEnabled d h ≠ 0

/-- What `wakeCores` does for one core. -/
def wakeCore (h : Nat) (d : Dev) : Dev :=
  if (getCore d h).wait = .interrupt && pendingEnabled d h ≠ 0 then updCore h Core.goes d else d

theorem wakeCores_eq (d : Dev) : wakeCores d = each [64, 65, 66, 67] wakeCore d := rfl

theorem not_wfiDue_wakeCore_same (h : Nat) (d : Dev) : ¬ wfiDue (wakeCore h d) h := by
  unfold wakeCore
  split
  · simp [wfiDue, Core.goes]
  · next hskip => simpa [wfiDue] using hskip

/-- Waking one core makes no core due. -/
theorem not_wfiDue_wakeCore (j : Nat) (hidle : ¬ wfiDue d h) : ¬ wfiDue (wakeCore j d) h := by
  by_cases hj : h = j
  · exact hj ▸ not_wfiDue_wakeCore_same h d
  · unfold wakeCore
    split
    · simpa only [wfiDue, getCore_updCore_other d _ hj, pendingEnabled_updCore_other _ d hj] using hidle
    · exact hidle

theorem not_wfiDue_each (hs : List Nat) (hidle : ¬ wfiDue d h) : ¬ wfiDue (each hs wakeCore d) h := by
  induction hs generalizing d with
  | nil => exact hidle
  | cons j hs ih => exact ih (not_wfiDue_wakeCore j hidle)

/-- Of the cores that are woken one after another none stays due. -/
theorem not_wfiDue_of_mem {hs : List Nat} (hin : h ∈ hs) (d : Dev) : ¬ wfiDue (each hs wakeCore d) h := by
  induction hs generalizing d with
  | nil => cases hin
  | cons j hs ih =>
    cases hin with
    | head => exact not_wfiDue_each hs (not_wfiDue_wakeCore_same h d)
    | tail _ hin => exact ih hin _

end

/-- What is left to do once the actions of a command are carried out and the cores are woken. -/
def rested (d : Dev) : Dev := { onWay .clear (alertsOver d) with firsts := [], todo := [] }

theorem settle_eq (d : Dev) : ∃ e, settle d = rested (wakeCores e) := ⟨_, rfl⟩

section
variable (d : Dev)

theorem alertPending_rested : alertPending (rested d) = alertPending d := rfl

theorem alertOn_rested : alertOn (rested d) = alertOn d := alertOn_of rfl rfl rfl

theorem wfiDue_rested (h : Nat) : wfiDue (rested d) h ↔ wfiDue d h := Iff.rfl

theorem rested_mgmt : (rested d).mgmt = mgmtNow d := rfl

/-- A mask that has been applied changes nothing more. -/
theorem and_mask_twice (a mask : Nat) : a &&& mask &&& mask = a &&& mask := by
  rw [Nat.and_assoc, Nat.and_self]

/-- The management target keeps what alerts that are still pending ask for. -/
theorem settled_rested (hwake : ∀ h ∈ [64, 65, 66, 67], ¬ wfiDue d h) : Settled (rested d) := by
  unfold Settled
  rw [alertPending_rested, alertOn_rested, rested_mgmt]
  refine ⟨rfl, rfl, ?ibis, ?fallback, ?byIbi, ?nacks, ?released, ?cores⟩
  case ibis => simp [mgmtNow]
  case fallback => exact and_mask_twice d.mgmt.fallback (alertPending d)
  case byIbi => exact and_mask_twice d.mgmt.byIbi (alertPending d)
  case nacks =>
    intro hnone
    have hleft : d.mgmt.ibis.filter (fun t => (alertPending d).testBit t) = [] := hnone
    simp [mgmtNow, hleft]
  case released =>
    intro hoff
    simp [mgmtNow, hoff]
  case cores =>
    intro h hh hwait
    exact Decidable.byContradiction fun hdue => hwake h hh ((wfiDue_rested d h).mp ⟨hwait, hdue⟩)

end

/-- A module that has ended a command is settled. -/
theorem settled_settle (d : Dev) : Settled (settle d) := by
  obtain ⟨e, he⟩ := settle_eq d
  rw [he, wakeCores_eq]
  exact settled_rested _ fun h hh => not_wfiDue_of_mem hh e

/-- Settles O46: a step runs one row of the table, which is an effect after which the module settles, or idles. -/
theorem stepKeepsSettled : Obligations.StepKeepsSettled := by
  unfold Obligations.StepKeepsSettled
  intro s t hs hstep
  unfold step at hstep
  split at hstep
  · cases hstep
    exact hs
  · next c rest _ =>
    obtain ⟨f, hf⟩ := exec_effect c { s with pending := rest }
    rw [hf, effect_eq] at hstep
    cases hstep
    exact settled_settle _

end Sys2Proof.Machine

/-! ## Registers and exception frames of a core (R212, R213, R243) -/

namespace Sys2Proof.Machine

section
variable (c : Core) (v : Nat) (poison : Bool)

/-! ### Registers -/

theorem setS_zero : c.setS 0 v poison = c := if_pos rfl

theorem setPred_zero : c.setPred 0 v = c := if_pos rfl

theorem sReg_zero : c.sReg 0 = (0, false) := rfl

theorem pred_zero : c.pred 0 = 2 ^ 256 - 1 := if_pos rfl

/-- A value and its poison bit above it come apart again. -/
theorem packed_value : (v % 2 ^ 64 + b2n poison * 2 ^ 64) % 2 ^ 64 = v % 2 ^ 64 := by omega

theorem packed_poison : bit (v % 2 ^ 64 + b2n poison * 2 ^ 64) 64 = poison := by
  have hlow : v % 2 ^ 64 < 2 ^ 64 := Nat.mod_lt _ (by decide)
  rw [bit, Nat.add_comm, Nat.mul_comm, Nat.testBit_two_pow_mul_add _ hlow]
  cases poison <;> rfl

/-- What a write of a scalar register does to every register. -/
theorem sReg_setS {r q : Nat} (hr : r < 32) (hq : q < 32) (hr0 : r ≠ 0) (hq0 : q ≠ 0) :
    (c.setS r v poison).sReg q = if q = r then (v % 2 ^ 64, poison) else c.sReg q := by
  rw [Core.setS, Nat.mod_eq_of_lt hr, if_neg hr0, Core.sReg, Core.sReg, Nat.mod_eq_of_lt hq, if_neg hq0, if_neg hq0]
  simp only [Map.get_set]
  split
  · rw [packed_value, packed_poison]
  · rfl

/-- What a write of a predicate does to every predicate. -/
theorem pred_setPred {p p' : Nat} (hp : p < 8) (hp' : p' < 8) (h0 : p ≠ 0) (h0' : p' ≠ 0) :
    (c.setPred p v).pred p' = if p' = p then v % 2 ^ 256 else c.pred p' := by
  rw [Core.setPred, Nat.mod_eq_of_lt hp, if_neg h0, Core.pred, Core.pred, Nat.mod_eq_of_lt hp', if_neg h0', if_neg h0',
    Map.get_set]

end

/-- Settles O58: register 0 of each file keeps its value through any write, and a write of another reads back at its own number
alone. -/
theorem zeroRegisterStaysZero : Obligations.ZeroRegisterStaysZero := by
  unfold Obligations.ZeroRegisterStaysZero
  intro c r q v poison hr hq
  refine ⟨?scalar, setS_zero c v poison, setPred_zero c v, pred_zero c, ?predicate⟩
  case scalar =>
    by_cases hq0 : q = 0
    · rw [if_pos hq0, hq0, sReg_zero]
    · rw [if_neg hq0]
      by_cases hr0 : r = 0
      · rw [hr0, setS_zero, if_neg hq0]
      · exact sReg_setS c v poison hr hq hr0 hq0
  case predicate =>
    intro p hp p' hp'
    by_cases hq0 : p' = 0
    · rw [if_pos hq0, hq0, pred_zero]
    · rw [if_neg hq0]
      by_cases hr0 : p = 0
      · rw [hr0, setPred_zero, if_neg hq0]
      · exact pred_setPred c v hp hp' hr0 hq0

/-! ### The check of a frame -/

section
variable {x b : Nat}

theorem crcBit_lt (hx : x < 2 ^ 32) : crcBit 0x82F63B78 x < 2 ^ 32 := by
  have hshift : x >>> 1 < 2 ^ 32 := Nat.lt_of_le_of_lt (Nat.shiftRight_le x 1) hx
  unfold crcBit
  split
  · exact Nat.xor_lt_two_pow hshift (by decide)
  · exact hshift

theorem crcByte_lt (hx : x < 2 ^ 32) (hb : b < 2 ^ 32) : crcByte 0x82F63B78 x b < 2 ^ 32 :=
  List.foldlRecOn (motive := (· < 2 ^ 32)) _ _ (Nat.xor_lt_two_pow hx hb) fun _ hy _ _ => crcBit_lt hy

/-- CRC-32C is a word of 32 bits. -/
theorem crc32c_lt (bs : List Byte) : crc32c bs < 2 ^ 32 := by
  refine Nat.xor_lt_two_pow (List.foldlRecOn (motive := (· < 2 ^ 32)) _ _ (by decide) fun x hx b _ => ?_) (by decide)
  exact crcByte_lt hx (Nat.lt_trans b.isLt (by decide))

end

/-! ### The words of a frame -/

/-- A bit is the one that stands at its place. -/
theorem bit_of_div {x i : Nat} {b : Bool} (h : x / 2 ^ i % 2 = b2n b) : bit x i = b := by
  rw [bit, Nat.testBit_eq_decide_div_mod_eq, h]
  cases b <;> rfl

/-- The status word of a frame (R243). -/
def statusWord (modNo h epoch cmp pushFail : Nat) (boxed nested late super : Bool) (cause : Nat) : Nat :=
  modNo % 4 * 2 ^ 40 + h % 128 * 2 ^ 32 + epoch % 256 * 2 ^ 20 + cmp % 16 * 2 ^ 16 + pushFail % 8 * 2 ^ 12 + b2n boxed * 2 ^ 11
    + b2n nested * 2 ^ 10 + b2n late * 2 ^ 9 + b2n super * 2 ^ 8 + cause % 256

theorem statusWord_fields (modNo h epoch cmp pushFail : Nat) (boxed nested late super : Bool) (cause : Nat) :
    let w := statusWord modNo h epoch cmp pushFail boxed nested late super cause
    fld w 41 40 = modNo % 4 ∧ fld w 38 32 = h % 128 ∧ fld w 27 20 = epoch % 256 ∧ fld w 19 16 = cmp % 16 ∧
    fld w 14 12 = pushFail % 8 ∧ bit w 11 = boxed ∧ bit w 10 = nested ∧ bit w 9 = late ∧ bit w 8 = super ∧
    fld w 7 0 = cause % 256 := by
  intro w
  have hb := b2n_le_one boxed
  have hn := b2n_le_one nested
  have hl := b2n_le_one late
  have hs := b2n_le_one super
  refine ⟨?_, ?_, ?_, ?_, ?_, bit_of_div ?_, bit_of_div ?_, bit_of_div ?_, bit_of_div ?_, ?_⟩ <;>
    simp only [w, fld, Nat.shiftRight_eq_div_pow, statusWord] <;> omega

/-- The check word of a frame over its other bytes (R243). -/
def checkWord (now : Nat) (ws : List Nat) : Nat :=
  (2 ^ 24 + now % 2 ^ 24) * 2 ^ 32 + crc32c (ws.flatMap (leBytes 8) ++ leBytes 4 (2 ^ 24 + now % 2 ^ 24))

theorem checkWord_high (now : Nat) (ws : List Nat) : checkWord now ws / 2 ^ 32 = 2 ^ 24 + now % 2 ^ 24 := by
  have hcrc := crc32c_lt (ws.flatMap (leBytes 8) ++ leBytes 4 (2 ^ 24 + now % 2 ^ 24))
  unfold checkWord; omega

theorem checkWord_fields (now : Nat) (ws : List Nat) : let w := checkWord now ws
    fld w 63 56 = 0x01 ∧ fld w 55 32 = now % 2 ^ 24 ∧
    fld w 31 0 = crc32c (ws.flatMap (leBytes 8) ++ leBytes 4 (w / 2 ^ 32)) := by
  intro w
  have hhigh : w / 2 ^ 32 = 2 ^ 24 + now % 2 ^ 24 := checkWord_high now ws
  have hcrc := crc32c_lt (ws.flatMap (leBytes 8) ++ leBytes 4 (2 ^ 24 + now % 2 ^ 24))
  rw [hhigh]
  refine ⟨?_, ?_, ?_⟩
  · simp only [fld, Nat.shiftRight_eq_div_pow]; omega
  · simp only [fld, Nat.shiftRight_eq_div_pow]; omega
  · simp only [fld, Nat.shiftRight_eq_div_pow, w, checkWord]; omega

/-- The words of a frame, by its status and its check. -/
theorem frameWords_eq (d : Dev) (h cause addr instr sp pushFail : Nat) (boxed : Bool) :
    let c := getCore d h
    let ws := [c.pc, statusWord (moduleNo d) h (epochOf d h) (cmpOf d (coreWho h)) pushFail boxed (c.depth ≠ 0) (cause = 0x05)
        c.super cause,
      addr % 2 ^ 64, instr % 2 ^ 64, sp, (if cause = 0x07 ∨ cause = 0x08 then c.pc + 4 else c.pc), tagOf d h]
    frameWords d h cause addr instr sp pushFail boxed = ws ++ [checkWord (tick d) ws] := by
  simp only [frameWords, statusWord, checkWord, Bool.or_eq_true, decide_eq_true_eq, Nat.one_mul]

/-- Settles O59: a frame's words are its status, its check and what the core and the exception give, and each field stands
alone at its place. -/
theorem exceptionFrameLayout : Obligations.ExceptionFrameLayout := by
  unfold Obligations.ExceptionFrameLayout
  intro d h cause addr instr sp pushFail boxed hh hcause hpush c
  obtain ⟨hmodule, hcore, hepoch, hcmp, hfail, hboxed, hnested, hlate, hsuper, hwhy⟩ := statusWord_fields (moduleNo d) h
    (epochOf d h) (cmpOf d (coreWho h)) pushFail boxed (c.depth ≠ 0) (cause = 0x05) c.super cause
  exact ⟨_, _, frameWords_eq d h cause addr instr sp pushFail boxed, hmodule, hcore.trans (Nat.mod_eq_of_lt hh), hepoch, hcmp,
    hfail.trans (Nat.mod_eq_of_lt (by omega)), hboxed, hnested, hlate, hsuper, hwhy.trans (Nat.mod_eq_of_lt hcause),
    checkWord_fields _ _⟩

end Sys2Proof.Machine

/-! ## Entering an exception handler (R241, R244, R245) -/

namespace Sys2Proof.Machine

section
variable {d e : Dev} {h cause addr instr : Nat}

/-- An exception whose push succeeds goes on to its handler, on the level at which it is taken. -/
theorem takeException_pushed : let c := getCore d h
    let s := c.resident || c.super
    let sp := if s then c.ssp else c.csp
    let d0 := if h < 64 then bump (rk T.CCH h 1 0x0A0) d else d
    pushCheck d h sp s = some 0 → armed d (coreTy h) (coreInst h) 0 0 = none → spParity d h s = false →
    pushFrame h sp (frameWords d0 h cause addr instr sp 0 false) d0 = (true, e) →
    takeException h cause addr instr d = enterHandler h cause s (sp - 64) e := by
  intro c s sp d0 hcheck harmed hparity hpush
  simp only [takeException, hparity, hcheck, harmed, hpush, c, s, sp, d0, Option.isSome_none, Bool.false_eq_true, if_false,
    if_true, ne_eq, not_true_eq_false]

/-- The core once the frame stands below its stack pointer, before it goes to a handler. -/
def Core.pushed (cause : Nat) (s : Bool) (sp : Nat) (c : Core) : Core :=
  { c with
    ssp := if s then sp else c.ssp, csp := if s then c.csp else sp, depth := c.depth + 1, loop := none, queue := []
    pending := if cause = 0x05 then none else c.pending }

/-- Where an exception goes: the handler of a resident program, that of a waybill, or its end when it has none. -/
theorem enterHandler_eq (h cause : Nat) (s : Bool) (sp : Nat) (e : Dev) : enterHandler h cause s sp e =
    if (getCore e h).resident then updCore h (fun c => ({ c with
      super := true, sstatus := b2n c.super
      pc := (if cause = 0x0B then c.ivec else c.xvec) % 2 ^ 48 } : Core).goes) (updCore h (Core.pushed cause s sp) e)
    else if (getCore e h).handler = 0 then endProgram h 0x23 0 (updCore h (Core.pushed cause s sp) e)
    else updCore h (fun c => ({ c with pc := c.handler % 2 ^ 48 } : Core).goes) (updCore h (Core.pushed cause s sp) e) := by
  cases s <;> rfl

section
variable (cause : Nat) (s : Bool) (sp : Nat)

/-- The level at which an exception is taken has the lower stack pointer, and the other keeps its own. -/
theorem pushed_pointers (c : Core) :
    (s = true → (c.pushed cause s sp).ssp = sp ∧ (c.pushed cause s sp).csp = c.csp) ∧
    (s = false → (c.pushed cause s sp).csp = sp ∧ (c.pushed cause s sp).ssp = c.ssp) := by
  constructor <;> rintro rfl <;> exact ⟨rfl, rfl⟩

/-- A resident program enters S level at XVEC, or at IVEC for an interrupt. -/
theorem enterHandler_resident (hres : (getCore e h).resident = true) : let x := getCore e h
    let t := getCore (enterHandler h cause s sp e) h
    t.super = true ∧ t.sstatus = b2n x.super ∧ t.depth = x.depth + 1 ∧
      t.pc = (if cause = 0x0B then x.ivec else x.xvec) % 2 ^ 48 ∧ (s = true → t.ssp = sp ∧ t.csp = x.csp) := by
  intro x t
  have ht : t = _ := congrArg (getCore · h) ((enterHandler_eq h cause s sp e).trans (if_pos hres))
  rw [getCore_updCore_same, getCore_updCore_same] at ht
  rw [ht]
  exact ⟨rfl, rfl, rfl, rfl, (pushed_pointers cause s sp x).1⟩

/-- A waybill goes to its handler at its own level. -/
theorem enterHandler_waybill (hres : (getCore e h).resident = false) (hhandler : (getCore e h).handler ≠ 0) :
    let x := getCore e h
    let t := getCore (enterHandler h cause s sp e) h
    t.super = x.super ∧ t.pc = x.handler % 2 ^ 48 ∧ t.depth = x.depth + 1 ∧
      (s = true → t.ssp = sp ∧ t.csp = x.csp) ∧ (s = false → t.csp = sp ∧ t.ssp = x.ssp) := by
  intro x t
  have ht : t = _ := congrArg (getCore · h)
    ((enterHandler_eq h cause s sp e).trans ((if_neg (by simp [hres])).trans (if_neg hhandler)))
  rw [getCore_updCore_same, getCore_updCore_same] at ht
  rw [ht]
  exact ⟨rfl, rfl, rfl, pushed_pointers cause s sp x⟩

/-- A waybill without a handler ends ABORT_FAULT. -/
theorem enterHandler_ends (hres : (getCore e h).resident = false) (hnone : (getCore e h).handler = 0) :
    enterHandler h cause s sp e = endProgram h 0x23 0 (updCore h (Core.pushed cause s sp) e) :=
  (enterHandler_eq h cause s sp e).trans ((if_neg (by simp [hres])).trans (if_pos hnone))

end

end

/-- Settles O60: a push that succeeds takes the exception on to the handler, whose three cases are those of the statement. -/
theorem exceptionEntry : Obligations.ExceptionEntry := by
  unfold Obligations.ExceptionEntry
  intro d h cause addr instr e c s sp d0 hcheck harmed hparity hpush x t
  have htaken : takeException h cause addr instr d = enterHandler h cause s (sp - 64) e :=
    takeException_pushed hcheck harmed hparity hpush
  have ht : t = getCore (enterHandler h cause s (sp - 64) e) h := congrArg (getCore · h) htaken
  rw [ht, htaken]
  exact ⟨enterHandler_resident cause s (sp - 64), enterHandler_waybill cause s (sp - 64),
    enterHandler_ends cause s (sp - 64)⟩

end Sys2Proof.Machine

/-! ## Scalar instructions and branches (R219 to R221) -/

namespace Sys2Proof.Machine

section
variable {s : State} {d e e2 : Dev} {h len w : Nat} {f : Dev → CoreOut × Dev} {o : CoreOut}

/-! ### Issue -/

/-- The instruction word stays in the fetch queue while its answer is beyond the module. -/
def keptFor (h w : Nat) (o : CoreOut) (d : Dev) : Dev :=
  if o = .waits .far false then updCore h (fun c => c.keep c.pc w false) d else d

/-- An instruction that is fetched whole is concluded, whatever it comes to. -/
theorem issue_concludes (hf : fetched d h len = some (w, e)) (hr : f e = (o, e2)) :
    issue h len f d = conclude h len w o (keptFor h w o e2) := by
  obtain ⟨hissue, hpending, hbreak, ⟨e1, hword, hkept⟩, hreserved, -⟩ := fetched_cases hf
  unfold issue issuing keptFor
  rw [hword, hissue, hpending, hbreak]
  simp only [Bool.not_true, Bool.false_and, Bool.false_eq_true, if_false, hreserved, hkept, hr]

/-- A row that issues an instruction comes to what the instruction comes to. -/
theorem effect_issue (hf : fetched s.begins h len = some (w, e)) (hr : f e = (o, e2)) (ho : o ≠ .waits .far false) :
    effect (issue h len f) s = .next (s.ends (conclude h len w o e2)) := effect_of (issue_fetched hf hr ho)

/-- A row whose instruction changes its core alone. -/
theorem effect_simply {g : Core → Core} (hf : fetched s.begins h len = some (w, e)) (hr : f e = simply h g e) :
    effect (issue h len f) s = .next (s.ends (conclude h len w .next (updCore h g e))) := effect_issue hf hr nofun

/-- Operands without poison let the instruction go on. -/
theorem clean_one {x : PVal} (hx : x.2 = false) : clean [x] f d = f d := by simp [clean, hx]

theorem clean_two {x y : PVal} (hx : x.2 = false) (hy : y.2 = false) : clean [x, y] f d = f d := by simp [clean, hx, hy]

end

section
variable {d e : Dev} {h w : Nat} {rd ra rb : Nat} (hf : fetched d h 4 = some (w, e))
include hf

theorem scalarAlu_fetched {i : Nat} {op : ScalarOp} (hop : [ScalarOp.add, .sub, .and, .or, .xor, .sll, .srl, .sra, .slt, .sltu,
      .mul, .mulh, .mulhu, .div, .divu, .rem, .remu, .min, .max, .minu, .maxu][i]? = some op) :
    let r := scalarOp op ((getCore e h).sReg ra).1 ((getCore e h).sReg rb).1
    scalarAlu h rd ra rb i e = simply h (fun c => (c.setS rd r.1 ((c.sReg ra).2 || (c.sReg rb).2)).raiseFp r.2) e := by
  simp only [scalarAlu, hop, regParity_fetched hf]

theorem scalarImm_fetched {op : ImmOp} {imm : BitVec 16} {r : Nat × Nat}
    (hop : immOp op ((getCore e h).sReg ra).1 imm = some r) :
    scalarImm h op rd ra imm e = simply h (fun c => c.setS rd r.1 ((getCore e h).sReg ra).2) e := by
  simp only [scalarImm, regParity_fetched hf, hop]

theorem branchTo_fetched {op : BranchOp} {off : BitVec 16} (ha : ((getCore e h).sReg ra).2 = false)
    (hb : ((getCore e h).sReg rb).2 = false) : branchTo h op ra rb off e =
      (if branchTaken op ((getCore e h).sReg ra).1 ((getCore e h).sReg rb).1 then .jump (target e h off.toInt)
       else .next, e) := by
  simp only [branchTo, regParity_fetched hf, clean_two ha hb]

theorem jalr_fetched {imm : BitVec 16} (ha : ((getCore e h).sReg ra).2 = false) : jalr h rd ra imm e =
    (.jump (dataAddr ((getCore e h).sReg ra).1 imm / 4 * 4), updCore h (fun c => c.setS rd ((c.pc + 4) % 2 ^ 48) false) e) := by
  simp only [jalr, regParity_fetched hf, clean_one ha]

/-- LOOP outside a loop, with a body of 1 to 32 words: a count of 0 skips the body. -/
theorem loopOp_fetched {off : BitVec 16} (hloop : (getCore e h).loop = none) (hpos : 0 < off.toNat) (hmax : off.toNat ≤ 32)
    (ha : ((getCore e h).sReg ra).2 = false) : loopOp h ra off e =
      (let pc := (getCore e h).pc
       if ((getCore e h).sReg ra).1 = 0 then
         (match skipBody h off.toNat ((pc + 4) % 2 ^ 48) e with
          | (.ok past, e2) => (.jump past, e2)
          | (.error o, e2) => (o, e2))
       else (.next, updCore h (fun c => { c with
         loop := some ((pc + 4) % 2 ^ 48, off.toNat, off.toNat + 1, ((getCore e h).sReg ra).1) }) e)) := by
  have hbody : ((getCore e h).loop.isSome || decide (off.toNat = 0) || decide (32 < off.toNat)) = false := by
    simp [hloop]; omega
  simp only [loopOp, regParity_fetched hf, hbody, clean_one ha, Bool.false_eq_true, if_false]
  rcases skipBody h off.toNat _ e with ⟨_ | _, _⟩ <;> rfl

end

theorem lih_fetched {d e : Dev} {h w rd : Nat} {imm : W32} (hf : fetched d h 8 = some (w, e)) : lih h rd imm e =
    simply h (fun c => c.setS rd ((c.sReg rd).1 % 2 ^ 32 + imm.toNat * 2 ^ 32) (c.sReg rd).2) e := by
  simp only [lih, regParity_fetched hf]

/-- Settles O14: each row issues an instruction whose operands are read without a parity error; LOOP with a count of 0 comes to
what skipping its body comes to. -/
theorem scalarRowsComplete : Obligations.ScalarRowsComplete := by
  unfold Obligations.ScalarRowsComplete
  intro s core rd ra rb h
  refine ⟨fun w e hf => ?short, fun w e imm hf => ?long⟩
  case short =>
    intro a b
    refine ⟨fun i op hop => effect_simply hf (scalarAlu_fetched hf hop),
      fun op imm r hop => effect_simply hf (scalarImm_fetched hf hop),
      fun imm => effect_simply hf rfl, fun op off ha hb => ?branch, fun off => effect_issue hf rfl nofun,
      fun imm ha => effect_issue hf (jalr_fetched hf ha) nofun, fun off hloop hpos hmax ha => ?loop⟩
    case branch => exact effect_issue hf (branchTo_fetched hf ha hb) (by split <;> exact nofun)
    case loop =>
      intro pc
      have hr := loopOp_fetched hf hloop hpos hmax ha
      by_cases hzero : a.1 = 0
      · rw [if_pos hzero] at hr ⊢
        generalize skipBody h off.toNat ((pc + 4) % 2 ^ 48) e = skipped at hr ⊢
        obtain ⟨o | past, e2⟩ := skipped
        · exact effect_of (issue_concludes hf hr)
        · exact effect_issue hf hr nofun
      · rw [if_neg hzero] at hr ⊢
        exact effect_issue hf hr nofun
  case long => exact ⟨effect_simply hf rfl, effect_simply hf (lih_fetched hf)⟩

end Sys2Proof.Machine

/-! ## Vector and matrix instructions of a coach (R221 to R231) -/

namespace Sys2Proof.Machine

section
variable {s : State} {d e e2 : Dev} {w : Nat} {core : Fin 68} {f : Nat → Dev → CoreOut × Dev} {o : CoreOut}

/-- A coach has every unit. -/
theorem coachOnly_coach {h : Nat} {f : Dev → CoreOut × Dev} (hh : h < 64) : coachOnly h f d = f d := if_pos hh

/-- A row of a coach's units comes to what the instruction comes to. -/
theorem effect_coach (hf : fetched s.begins core.val 4 = some (w, e)) (hr : f core.val e = (o, e2))
    (ho : o ≠ .waits .far false) :
    effect (coachInstr core f) s = .next (s.ends (conclude core.val 4 w o e2)) := effect_issue hf hr ho

/-- A row of a coach's units whose instruction changes its core alone. -/
theorem effect_coach_simply {g : Core → Core} (hf : fetched s.begins core.val 4 = some (w, e))
    (hr : f core.val e = simply core.val g e) :
    effect (coachInstr core f) s = .next (s.ends (conclude core.val 4 w .next (updCore core.val g e))) := effect_simply hf hr

end

section
variable {d e : Dev} {h w : Nat} {vd va vb p : Nat} {pz : Bool} (hh : h < 64) (hf : fetched d h 4 = some (w, e))
include hh hf

/-! ### The vector unit -/

theorem vectorInt_fetched {el : Elem} (op : VIntOp) (hel : el.isFloat = false) :
    vectorInt h el op vd va vb p pz e = simply h (Core.vint el op vd va vb p pz) e := by
  simp only [vectorInt, coachOnly_coach hh, hel, regParity_fetched hf, Bool.false_eq_true, if_false]

theorem vectorFloat_fetched {el : Elem} (op : VFltOp) (hel : el.isFloat = true) :
    vectorFloat h el op vd va vb p pz e = simply h (Core.vflt el op vd va vb p pz) e := by
  simp only [vectorFloat, coachOnly_coach hh, hel, regParity_fetched hf, Bool.not_true, Bool.false_eq_true, if_false]

/-- Only the comparisons of floats ask for a class. -/
theorem vectorCompare_fetched {el : Elem} {op : VCmpOp} (hel : op = .isnan ∨ op = .isinvalid → el.isFloat = true) :
    vectorCompare h el op vd va vb p pz e = simply h (Core.vcmp el op vd va vb p pz) e := by
  have hclass : ((decide (op = .isnan) || decide (op = .isinvalid)) && !el.isFloat) = false := by
    simpa [or_imp] using hel
  simp only [vectorCompare, coachOnly_coach hh, hclass, regParity_fetched hf, Bool.false_eq_true, if_false]

theorem vectorPermute_fetched (el : Elem) (op : VPermOp) :
    vectorPermute h el op vd va vb p pz e = simply h (Core.vperm el op vd va vb p pz) e := by
  simp only [vectorPermute, coachOnly_coach hh, regParity_fetched hf]

theorem vectorConvert_fetched (src dst : ConvType) : vectorConvert h src dst vd va p pz e =
    simply h (Core.vconv src dst vd va p pz (fun i => (Config.unreached src.num dst.num i).toNat)) e := by
  simp only [vectorConvert, coachOnly_coach hh, regParity_fetched hf]

theorem vectorMove_fetched (op : VMovOp) : vectorMove h op vd va vb p pz e = simply h (Core.vmove op vd va vb p pz) e := by
  simp only [vectorMove, coachOnly_coach hh, regParity_fetched hf]

/-! ### The matrix unit -/

theorem mwr_fetched {fmt ad row : Nat} {f : MFmt} (hfmt : mfmt fmt = some f) :
    mwr h fmt ad row va e = simply h (Core.mwr ad row va f.isFloat false) e := by
  simp only [mwr, coachOnly_coach hh, hfmt, regParity_fetched hf]

/-- The module once an mma has read its accumulator, unless it starts anew, and its part of the weight buffer. -/
def mmaRead (h ad b x kn : Nat) (f : MFmt) (sp z : Bool) (d : Dev) : Dev :=
  let row := fun k => k * 64 * f.bits / 8 / (if sp then 2 else 1)
  bump64By (rk T.CCH h 1 0x090) 8 (seeBuffer h b (wbufParity h b (row x) (row (x + kn))
    (if z then d else accParity h ((List.range 32).map (32 * ad + ·)) d)))

theorem mma_fetched {fmt ad sa b x : Nat} {f : MFmt} {sp z : Bool} (hfmt : mfmt fmt = some f) (heven : sp = true → va % 2 = 0)
    (htype : z = false → (getCore e h).accFloat.testBit ad = f.isFloat) (hloaded : (getCore e h).loading b = false)
    (hx : (getCore e h).sReg sa = (x, false)) (hk : x % f.k = 0) (hmax : x + (if sp then 2 * f.k else f.k) ≤ f.maxK)
    (hmeta : sp = true → (getCore e h).metaOk b x (if sp then 2 * f.k else f.k) = true) :
    mma h fmt ad va sa b sp z e =
      (.next, updCore h (Core.mma f ad va x b sp z) (mmaRead h ad b x (if sp then 2 * f.k else f.k) f sp z e)) := by
  have hlegal : ((sp && decide (va % 2 = 1)) || (!z && (getCore e h).accFloat.testBit ad != f.isFloat)) = false := by
    cases sp <;> cases z <;> simp_all
  have hrange : (decide (x % f.k ≠ 0) || decide (f.maxK < x + if sp = true then 2 * f.k else f.k) ||
      sp && !(getCore e h).metaOk b x (if sp = true then 2 * f.k else f.k)) = false := by
    cases sp <;> simp_all
  simp only [mma, coachOnly_coach hh, hfmt, hlegal, hloaded, regParity_fetched hf, hx, clean_one, hrange, mmaRead, simply,
    Bool.false_eq_true, if_false]

end

/-- Settles O16: each row issues an instruction of a unit that a coach has, which reads its operands without a parity error and
changes the core alone; MMA also reads its accumulator and its weight buffer. -/
theorem vectorRowsComplete : Obligations.VectorRowsComplete := by
  unfold Obligations.VectorRowsComplete
  intro s core w e vd va vb p pz h hh hf goes
  refine ⟨fun el op hel => effect_coach_simply hf (vectorInt_fetched hh hf op hel),
    fun el op hel => effect_coach_simply hf (vectorFloat_fetched hh hf op hel),
    fun el op hel => effect_coach_simply hf (vectorCompare_fetched hh hf hel),
    fun el op => effect_coach_simply hf (vectorPermute_fetched hh hf el op),
    fun src dst => effect_coach_simply hf (vectorConvert_fetched hh hf src dst),
    fun op => effect_coach_simply hf (vectorMove_fetched hh hf op),
    ?mrd, fun fmt f ad hfmt => ⟨?mwr, ?mclr, ?mma⟩, ?wbwait⟩
  case mrd =>
    intro ad row hrow
    exact effect_coach_simply hf ((coachOnly_coach hh).trans (by rw [hrow]))
  case mwr => exact fun row => effect_coach_simply hf (mwr_fetched hh hf hfmt)
  case mclr => exact effect_coach_simply hf ((coachOnly_coach hh).trans (by rw [hfmt]))
  case mma =>
    intro sa wb sp z x heven htype hloaded hx hk kn row hmax hmeta
    exact effect_coach hf (mma_fetched hh hf hfmt heven htype hloaded hx hk hmax hmeta) nofun
  case wbwait =>
    intro wb hloaded
    exact effect_coach hf ((coachOnly_coach hh).trans (by rw [hloaded]; rfl)) nofun

end Sys2Proof.Machine

/-! ## Loads, stores and enqueues of a core (R219, R237) -/

namespace Sys2Proof.Machine

section
variable {d e e2 : Dev} {h len w : Nat} {f : Dev → CoreOut × Dev}

/-! ### Operations that cancel a sample -/

/-- A run that is plain has no sample to cancel and is no duplicate (R448). -/
theorem unsampled_plain (hplain : plainRun d h = true) : unsampled h f d = f d := by
  unfold plainRun at hplain
  unfold unsampled isDuplicate cancelRun
  split at hplain
  · next hnone => simp only [hnone, Bool.false_eq_true, if_false]
  · next r hrun =>
    obtain ⟨hkind, hsample⟩ : r.kind = .original ∧ r.sample = none := by simpa using hplain
    simp [hrun, hkind, hsample]

theorem checked_plain (a : Nat) (hplain : plainRun d h = true) : checked h a f d = f d := by
  unfold checked
  split
  · exact unsampled_plain hplain
  · rfl

/-! ### Packets that nothing befalls -/

/-- What is said to befall the next packet is no part of an instruction's operands. -/
theorem getCore_onWay (m : Mishap) (d : Dev) : getCore (onWay m d) h = getCore d h := rfl

theorem plainRun_onWay (m : Mishap) (d : Dev) : plainRun (onWay m d) h = plainRun d h := rfl

theorem regParity_unarmed (harmed : armed d (coreTy h) (coreInst h) 0 3 = none) (ss vs : List Nat) :
    regParity h ss vs d = d := by
  simp only [regParity, harmed]

theorem regParity_onWay (m : Mishap) (hf : fetched d h len = some (w, e)) (ss vs : List Nat) :
    regParity h ss vs (onWay m e) = onWay m e := by
  obtain ⟨-, -, -, -, -, harmed⟩ := fetched_cases hf
  exact regParity_unarmed (d := onWay m e) harmed ss vs

/-- No stored bit has flipped. -/
theorem loadUpset_none (ra : Nat) (imm : BitVec 16) : loadUpset h ra imm 0 d = d := by
  unfold loadUpset
  dsimp only
  split
  · simp
  · rfl

end

section
variable {d e e2 : Dev} {h w : Nat} {rd ra rb : Nat} (hf : fetched d h 4 = some (w, e)) (hplain : plainRun e h = true)
include hf hplain

/-- A load of an address that answers with data. -/
theorem loadOp_data {size : Nat} {imm : BitVec 16} {bs : List PByte} (hbase : ((getCore e h).sReg ra).2 = false)
    (halign : dataAddr ((getCore e h).sReg ra).1 imm % 2 ^ size = 0)
    (hread : coreRead h (dataAddr ((getCore e h).sReg ra).1 imm) (2 ^ size) false (.load rd (2 ^ size)) (onWay .clear e) =
      (.data bs, e2)) :
    loadOp h rd ra size imm (onWay .clear e) = (.next, loaded h rd (dataAddr ((getCore e h).sReg ra).1 imm) bs e2) := by
  simp only [loadOp, regParity_onWay .clear hf, getCore_onWay, clean_one hbase, halign, ne_eq, not_true_eq_false, if_false,
    checked_plain _ ((plainRun_onWay .clear e).trans hplain), hread]

/-- A store to an address that takes it. -/
theorem storeOp_taken {size v : Nat} {imm : BitVec 16} (hbase : ((getCore e h).sReg ra).2 = false)
    (halign : dataAddr ((getCore e h).sReg ra).1 imm % 2 ^ size = 0) (hv : (getCore e h).sReg rd = (v, false))
    (hwrite : coreWrite h (dataAddr ((getCore e h).sReg ra).1 imm) (leBytes (2 ^ size) v)
      (foldAccess h 0 (dataAddr ((getCore e h).sReg ra).1 imm) true (leBytes (2 ^ size) v) (onWay .clear e)) = (.ok, e2)) :
    storeOp h rd ra size imm (onWay .clear e) = (.next, e2) := by
  simp only [storeOp, regParity_onWay .clear hf, getCore_onWay, clean_one hbase, halign, ne_eq, not_true_eq_false, if_false, hv,
    clean_one, checked_plain _ ((plainRun_onWay .clear e).trans hplain), hwrite, CoreWrite.out]

/-- The image that is read without poison is offered to its queue. -/
theorem enqOp_offers {q : Nat} {bs : List PByte} (hbase : ((getCore e h).sReg ra).2 = false)
    (hq : (getCore e h).sReg rb = (q, false)) (halign : ((getCore e h).sReg ra).1 % 64 = 0)
    (hread : coreRead h ((getCore e h).sReg ra).1 64 false (.image rd (q % 2 ^ 18)) e = (.data bs, e2))
    (hgood : bs.any (·.2) = false) : enqOp h rd ra rb e = offer h rd (q % 2 ^ 18) (Image.ofBytes (bs.map (·.1)))
      (foldAccess h 0 ((getCore e h).sReg ra).1 false (bs.map (·.1)) e2) := by
  simp only [enqOp, regParity_fetched hf, hq, clean_two hbase, halign, ne_eq, not_true_eq_false, if_false,
    unsampled_plain hplain, hread, offerRead, hgood, Bool.false_eq_true]

end

/-- Settles O15: each row issues an instruction whose operands are read without a parity error and whose run has no sample to
cancel; what the depot answers to an image is what the instruction comes to. -/
theorem loadStoreRowsComplete : Obligations.LoadStoreRowsComplete := by
  unfold Obligations.LoadStoreRowsComplete
  intro s core rd ra rb size imm w e e2 h n hf hplain hbase a sent
  refine ⟨fun bs halign hread => effect_issue hf ?load nofun,
    fun v halign hv hwrite => effect_issue hf (storeOp_taken hf hplain hbase halign hv hwrite) nofun,
    fun bs q hq halign hread hgood => effect_of (issue_concludes hf (enqOp_offers hf hplain hbase hq halign hread hgood))⟩
  case load =>
    rw [loadUpset_none]
    exact loadOp_data hf hplain hbase halign hread

end Sys2Proof.Machine

/-! ## Stream instructions of a coach (R231 to R234) -/

namespace Sys2Proof.Machine

section
variable {d e m e2 : Dev} {h len w i vd : Nat} {f : Dev → CoreOut × Dev}

/-- An instruction goes on after what the streams move meanwhile. -/
theorem pumped_moved (hpump : pumpAll h d = (none, m)) : pumped h f d = f m := by simp only [pumped, hpump]

section
variable (hh : h < 64)
include hh

/-! ### Reading and writing a stream -/

section
variable (hserves : ((getCore d h).stream i).serves 0 = true) (hpump : pumpAll h d = (none, m))
include hserves hpump

/-- VLD takes the oldest entry of the FIFO. -/
theorem vld_takes {x : FifoEntry} {rest : List FifoEntry} (hfifo : ((getCore m h).stream i).fifo = x :: rest) :
    vld h vd i d =
      simply h (fun c => (c.updStream i (fun s => { s with fifo := rest })).setLanes vd (entryLanes x)) m := by
  simp only [vld, coachOnly_coach hh, hserves, Bool.not_true, Bool.false_eq_true, if_false, pumped_moved hpump, hfifo]

/-- VLD of an empty FIFO waits for an entry, or traps when none is to come. -/
theorem vld_empty (hfifo : ((getCore m h).stream i).fifo = []) : vld h vd i d =
    (if ((getCore m h).stream i).mode = .complete then .trap 0x09 0 else .waits .unit false, m) := by
  simp only [vld, coachOnly_coach hh, hserves, Bool.not_true, Bool.false_eq_true, if_false, pumped_moved hpump, hfifo]

end

section
variable (hserves : ((getCore d h).stream i).serves 1 = true) (hpump : pumpAll h d = (none, m))
include hserves hpump

/-- VST puts its entry into a FIFO with room, and the streams move on. -/
theorem vst_puts (hroom : ((getCore m h).stream i).fifo.length < 4) (harmed : armed m (coreTy h) (coreInst h) 0 3 = none)
    (hmoves : pumpAll h (updCore h (fun c =>
      c.updStream i (fun s => { s with fifo := s.fifo ++ [laneEntry c vd] })) m) = (none, e2)) :
    vst h i vd d = (.next, e2) := by
  simp only [vst, coachOnly_coach hh, hserves, Bool.not_true, Bool.false_eq_true, if_false, pumped_moved hpump,
    Nat.not_le.mpr hroom, regParity_unarmed harmed, pumped_moved hmoves]

/-- VST waits for room in a full FIFO. -/
theorem vst_full (hfull : 4 ≤ ((getCore m h).stream i).fifo.length) : vst h i vd d = (.waits .unit false, m) := by
  simp only [vst, coachOnly_coach hh, hserves, Bool.not_true, Bool.false_eq_true, if_false, pumped_moved hpump, hfull, if_true]

end

/-! ### Descriptors and transfers -/

/-- STWAIT waits while the stream runs. -/
theorem stwait_moved (hpump : pumpAll h d = (none, m)) : stwait h i d =
    (if ((getCore m h).stream i).mode = .running then .waits .unit false else .next, m) := by
  simp only [stwait, coachOnly_coach hh, pumped_moved hpump]
  split <;> rfl

/-- STCFG takes a descriptor of this module that is read without poison. -/
theorem stcfg_reads {ra a : Nat} {bs : List PByte} (hf : fetched d h len = some (w, e)) (hplain : plainRun e h = true)
    (ha : (getCore e h).sReg ra = (a, false)) (halign : a % 8 = 0) (hlocal : isLocal e a = true)
    (hinside : inOutbound (a % 2 ^ 46) = false) (hread : readDesc h a e = (.data bs, e2)) (hgood : bs.any (·.2) = false) :
    stcfg h i ra e = (.next, (gotDesc h i a bs e2).2) := by
  have hgot : (gotDesc h i a bs e2).1 = .next := by simp only [gotDesc, hgood, Bool.false_eq_true, if_false, simply]
  rw [← hgot]
  simp only [stcfg, coachOnly_coach hh, regParity_fetched hf, ha, clean_one, halign, ne_eq, not_true_eq_false, if_false,
    checked_plain a hplain, hlocal, hinside, Bool.not_true, Bool.or_false, Bool.and_false, Bool.false_eq_true, hread]

/-- STSTART begins the transfer of a descriptor that obeys the rules, and the streams move on. -/
theorem ststart_begins : let x : Stream :=
      { words := ((getCore d h).stream i).words, run := ((getCore d h).stream i).words, mode := .running }
    badStream d x = false →
    pumpAll h (updCore h (fun c =>
      let c1 := c.updStream i (fun _ => x)
      if x.buffer.isSome then { c1 with wbCmp := cmpOf d (coreWho h) + 1 } else c1) d) = (none, e2) →
    ststart h i d = (.next, e2) := by
  intro x hgood hmoves
  simp only [ststart, coachOnly_coach hh, x, hgood, Bool.false_eq_true, if_false, pumped_moved hmoves]

end

/-! ### The end of a transfer -/

/-- The core once a stream's transfer is over: a buffer that it filled is no longer seen. -/
def Core.completes (i : Nat) (filled : Option Nat) (c : Core) : Core :=
  let c1 := c.updStream i (fun s => { s with mode := .complete })
  match filled with
  | some b => { c1 with wbSeen := clrBit c1.wbSeen b }
  | none => c1

/-- STREAM_COMPLETE of a stream with nothing left to move. -/
theorem streamComplete_finished (hpump : pumpAll h d = (none, m)) (hdone : ((getCore m h).stream i).finished = true) :
    streamComplete h i d = updCore h (Core.completes i ((getCore m h).stream i).buffer) m := by
  simp only [streamComplete, hpump, hdone, Bool.not_true, Bool.false_eq_true, if_false]
  rfl

theorem streamComplete_unfinished (hpump : pumpAll h d = (none, m)) (hmore : ((getCore m h).stream i).finished = false) :
    streamComplete h i d = m := by
  simp only [streamComplete, hpump, hmore, Bool.not_false, if_true]

end

/-- Settles O17: each row issues an instruction of a coach's stream engines, which goes on from what they have moved meanwhile;
the end of a transfer is read off the stream. -/
theorem streamRowsComplete : Obligations.StreamRowsComplete := by
  unfold Obligations.StreamRowsComplete
  refine ⟨?instructions, ?complete⟩
  case instructions =>
    intro s core w e vd i h hh hf st sent
    refine ⟨fun m hpump => ⟨fun hserves => ⟨?takes, ?empty⟩, fun hserves => ⟨?puts, ?full⟩, ?wait⟩,
      ?config, ?start, ?stop, ?stat⟩
    case takes =>
      intro x rest hfifo
      exact effect_coach hf (vld_takes (d := sent) hh hserves hpump hfifo) nofun
    case empty =>
      exact fun hfifo => effect_coach hf (vld_empty hh hserves hpump hfifo) (by split <;> exact nofun)
    case puts =>
      exact fun e2 hroom harmed hmoves =>
        effect_coach hf (vst_puts hh hserves hpump hroom harmed hmoves) nofun
    case full => exact fun hfull => effect_coach hf (vst_full hh hserves hpump hfull) nofun
    case wait => exact effect_coach hf (stwait_moved hh hpump) (by split <;> exact nofun)
    case config =>
      intro ra a bs e2 ha halign _ hlocal hinside hplain hread hgood
      exact effect_coach hf (stcfg_reads hh hf hplain ha halign hlocal hinside hread hgood) nofun
    case start => exact fun e2 hgood hmoves => effect_coach hf (ststart_begins hh hgood hmoves) nofun
    case stop => exact effect_coach_simply hf (coachOnly_coach hh)
    case stat => exact effect_coach_simply hf (coachOnly_coach hh)
  case complete =>
    intro s core i m hpump sm
    have hrow : exec (.streamComplete core i .clear) s = effect (streamComplete core.val i.val) s :=
      (effect_eq (fun d => streamComplete core.val i.val (onWay .clear d)) s)
    rw [hrow]
    exact ⟨fun hdone => effect_of (streamComplete_finished hpump hdone),
      fun hmore => effect_of (streamComplete_unfinished hpump hmore)⟩

end Sys2Proof.Machine

/-! ## Events of a core (R214, R238, R242, R252, R254, R591) -/

namespace Sys2Proof.Machine

section
variable {d : Dev} {h : Nat}

/-! ### Starts, time limits, pending faults and interrupts -/

/-- A waybill starts on an idle core that nothing halts. -/
theorem waybillStart_idle {r : Running} (hrun : runOf d h = some r) (hmode : (getCore d h).mode = .idle)
    (hhalted : (getCore d h).halted = false) (hended : r.ended = none)
    (hreset : unitState d (coreTy h) (coreInst h) ≠ .resetting) :
    waybillStart h d = updCore h (fun c => c.started h r) (forsake h d) := by
  simp [waybillStart, hrun, hmode, hhalted, hended, hreset]

/-- A wait for a tally whose deadline has come ends the waybill. -/
theorem twaitTimeout_due {t : Nat} (hwait : (getCore d h).wait = .tally (some t)) (hdue : t ≤ tick d) :
    twaitTimeout h d = endProgram h 0x26 0 (dropWatches h d) := by
  simp only [twaitTimeout, hwait, hdue, if_true]

/-- A pending access fault is taken by a core that issues. -/
theorem imprecise_issues {a : Nat} (hpending : (getCore d h).pending = some a) (hissue : canIssue d h = true) :
    imprecise h d = takeException h 0x05 a 0 d := by
  simp only [imprecise, hpending, hissue, Bool.true_or, if_true]

/-- A control core that takes interrupts takes a source that is pending and enabled. -/
theorem interrupt_taken (htakes : takesInterrupts d h = true) (hon : bit (getCore d h).sstatus 1 = true)
    (hsource : pendingEnabled d h ≠ 0) :
    interrupt h d = takeException h 0x0B 0 0 (updCore h (fun c => { c with resident := true }) d) := by
  simp [interrupt, htakes, hon, hsource]

/-- The zeroing of a local RAM that runs ends with every word zero. -/
theorem lramCleared_running {n : Nat} (hrun : rdB d (rk T.CTL n 1 0x058) 0 = true) :
    lramCleared n d = wrB (rk T.CTL n 1 0x058) 0 false { d with cores := { d.cores with
      lram := d.cores.lram.filter (fun (x : Nat × Cell39) => x.1 / 65536 ≠ n) } } := by
  simp only [lramCleared, hrun, Bool.not_true, Bool.false_eq_true, if_false]

end

/-! ### Register words of the core pages -/

section
variable {part : Part} {h n page off : Nat}

/-- Where a word of a coach's pages stands. -/
theorem kCch_place (hh : h < 64) (hp : page < 2) (ho : off < 0x1000) : let k := rk T.CCH h page off
    keyTy k = 0x08 ∧ keyInst k = h ∧ keyPage k = page ∧ keyOff k = off := by
  have hslot : slotOk T.CCH h page = true := slotOk_of (p := .vm4_42) hh hp
  exact ⟨rk_ty hslot ho, rk_inst hslot ho, rk_page hslot ho, rk_off _ _ _ ho⟩

/-- Where a word of a control core's pages stands. -/
theorem kCtl_place (hn : n < 4) (hp : page < 2) (ho : off < 0x1000) : let k := rk T.CTL n page off
    keyTy k = 0x09 ∧ keyInst k = n ∧ keyPage k = page ∧ keyOff k = off := by
  have hslot : slotOk T.CTL n page = true := slotOk_of (p := .vm4_42) hn hp
  exact ⟨rk_ty hslot ho, rk_inst hslot ho, rk_page hslot ho, rk_off _ _ _ ho⟩

/-- DBG_CTRL is a block register of a page of no cluster. -/
theorem kDbg_place (hh : h < 68) : kDbg h % 4 = 0 ∧ 0x040 ≤ keyOff (kDbg h) ∧ keyTy (kDbg h) ≠ T.YRD := by
  unfold kDbg
  split
  · next hcoach =>
    obtain ⟨hty, -, -, hoff⟩ := kCch_place (off := 0x040) hcoach (by decide : 1 < 2) (by decide)
    exact ⟨rk_mod4 _ _ _ (by decide), Nat.le_of_eq hoff.symm, by rw [hty]; decide⟩
  · obtain ⟨hty, -, -, hoff⟩ := kCtl_place (n := h - 64) (off := 0x068) (by omega) (by decide : 0 < 2) (by decide)
    exact ⟨rk_mod4 _ _ _ (by decide), by rw [hoff]; decide, by rw [hty]; decide⟩

/-- DBG_CTRL of either kind of core acts by the same rule. -/
theorem blockWrite_dbg (hh : h < 68) (w : Who) (m v : Nat) (d : Dev) : blockWrite w m (kDbg h) v d = some (dbgWrite h v d) := by
  unfold kDbg
  split
  · next hcoach =>
    obtain ⟨hty, hinst, hpage, hoff⟩ := kCch_place (off := 0x040) hcoach (by decide : 1 < 2) (by decide)
    simp [blockWrite, hty, hinst, hpage, hoff]
  · next hctl =>
    obtain ⟨hty, hinst, hpage, hoff⟩ := kCtl_place (n := h - 64) (off := 0x068) (by omega) (by decide : 0 < 2) (by decide)
    simp [blockWrite, hty, hinst, hpage, hoff, show 64 + (h - 64) = h by omega]

/-- A row that writes DBG_CTRL. -/
theorem effect_dbg {s : State} {w : Who} {v : Nat} (hh : h < 68) (hput : mayPut s.begins w (kDbg h) v = true) :
    effect (regCmd w (kDbg h) v) s = .next (s.ends (dbgWrite h (v % 2 ^ 32) (touched w s.begins))) := by
  obtain ⟨halign, hoff, hty⟩ := kDbg_place hh
  exact effect_block hput halign hoff (fun hrearm => hty hrearm.1) (blockWrite_dbg hh ..)

/-- A row that sets one bit of a register word writes the word as it stands, with the bit. -/
theorem effect_regSetBit (s : State) (w : Who) (k n : Nat) :
    effect (regSetBit w k n) s = effect (regCmd w k (setBit (rd s.begins k) n)) s := by
  rw [effect_eq, effect_eq, regSetBit]

/-- A row that sets LRAM_CLEAR of a control core. -/
theorem effect_lramClear {s : State} {w : Who} (hn : n < 4) (hput : mayPut s.begins w (rk T.CTL n 1 0x058) 1 = true) :
    effect (regCmd w (rk T.CTL n 1 0x058) 1) s =
      .next (s.ends (wr (rk T.CTL n 1 0x058) (rd (touched w s.begins) (rk T.CTL n 1 0x058) ||| 1) (touched w s.begins))) := by
  obtain ⟨hty, -, hpage, hoff⟩ := kCtl_place (off := 0x058) hn (by decide : 1 < 2) (by decide)
  refine effect_block hput (rk_mod4 _ _ _ (by decide)) (by rw [hoff]; decide) (fun hrearm => ?_) ?_
  · exact absurd (hty.symm.trans hrearm.1) (by decide)
  · simp [blockWrite, hty, hpage, hoff]

end

/-- Settles O19: each event comes to the core's rule of its name, under the guards with which that rule acts; the rows of
DBG_CTRL and LRAM_CLEAR are writes that the block takes. -/
theorem coreEventRowsComplete : Obligations.CoreEventRowsComplete := by
  unfold Obligations.CoreEventRowsComplete
  rintro s d rfl core h
  refine ⟨fun r hrun hmode hhalted hended hreset => effect_of (waybillStart_idle hrun hmode hhalted hended hreset),
    fun t hwait hdue => effect_of (twaitTimeout_due hwait hdue),
    fun a hpending hissue => effect_of (imprecise_issues hpending hissue),
    fun n htakes hon hsource => effect_of (interrupt_taken htakes hon hsource), ?halt,
    fun who hput => (effect_regSetBit ..).trans (effect_dbg core.isLt hput),
    fun who n => ⟨fun hput => effect_lramClear n.isLt hput, fun hrun => effect_of (lramCleared_running hrun)⟩⟩
  case halt =>
    intro who value hput
    have hsmall : value.val % 2 ^ 32 = value.val := Nat.mod_eq_of_lt (by omega)
    exact (effect_dbg core.isLt hput).trans (by rw [hsmall])

end Sys2Proof.Machine

/-! ## Enqueues and completion queues of the depot (R263, R267, R286) -/

namespace Sys2Proof.Machine

section
variable {d e : Dev} {w : Who} {q : Nat}

section
variable (hw : onChip w = true)
include hw

/-- A requester on the chip offers its image at the enqueue window itself. -/
theorem windowPut_onChip (q : Nat) (img : Image) (d : Dev) : windowPut w q img d = offerWindow w q img d := by
  cases w with
  | host f => exact absurd hw Bool.false_ne_true
  | _ => rfl

/-- A requester on the chip writes HEAD at the window itself. -/
theorem headPut_onChip (q v : Nat) (ep : Bool) (d : Dev) : headPut w q v ep d = cqHead w q v d := by
  cases w with
  | host f => exact absurd hw Bool.false_ne_true
  | _ => rfl

end

/-- An image that the queue takes, with no earlier offer of its requester waiting there, is answered with code 0. -/
theorem offerWindow_taken {img : Image} (hfirst : d.dpt.brakes.any (fun b => b.who = w && b.queue = q) = false)
    (htake : enqueue w (cmpOf d w) q false img d = (.code 0, e)) : offerWindow w q img d = answer w (.code 0) e := by
  have hnone : d.dpt.brakes.find? (fun b => b.who = w && b.queue = q) = none :=
    List.find?_eq_none.mpr fun b hb => by simpa using List.any_eq_false.mp hfirst b hb
  simp only [offerWindow, hnone, htake]

/-- The owner of a completion queue, or compartment 0, advances its HEAD. -/
theorem cqHead_owner {v : Nat} (hvalid : (getQueue d q).valid = true) (hkind : (getQueue d q).kind = 1)
    (howner : cmpOf d w = (getQueue d q).owner ∨ cmpOf d w = 0) : cqHead w q v d = releaseCq q
      (updQueue q (fun x => { x with head := x.head + (v + 65536 - x.head % 65536) % 65536 }) d) :=
  if_pos (by simp [hvalid, hkind, howner])

end

/-- Settles O22: with no error armed in the depot each row is its effect; a requester on the chip reaches the window itself,
where the image or record is taken, and the owner's write of HEAD makes room. -/
theorem enqueueRowsComplete : Obligations.EnqueueRowsComplete := by
  unfold Obligations.EnqueueRowsComplete
  rintro s d rfl hcorrected hfatal who queue hchip
  have hrow : ∀ {f : Dev → Dev} {e : Dev}, f s.begins = e → depotDoes f s = .next (s.ends e) := fun hdoes =>
    (depotDoes_clear hcorrected hfatal).trans (effect_of hdoes)
  constructor
  case left =>
    intro hfirst
    have hoffer : ∀ {img : Image} {e : Dev},
        enqueue who (cmpOf s.begins who) queue.toNat false img s.begins = (.code 0, e) →
        windowPut who queue.toNat img s.begins = answer who (.code 0) e := fun htake =>
      (windowPut_onChip hchip ..).trans (offerWindow_taken hfirst htake)
    exact ⟨fun _ _ htake => hrow (hoffer htake), fun _ _ _ _ _ htake => hrow (hoffer htake),
      fun _ _ _ _ htake => hrow (hoffer htake)⟩
  case right =>
    intro value ep hvalid hkind howner
    exact hrow ((headPut_onChip hchip ..).trans (cqHead_owner hvalid hkind howner))

end Sys2Proof.Machine

/-! ## Queue and counter commands of the depot (R262, R269, R283, R295, R296) -/

namespace Sys2Proof.Machine

section
variable {d e : Dev} {q : Nat} {n : Queue}

/-! ### Commands of a queue whose descriptor is read -/

/-- QCMD COMMIT of a free queue with a sound ring and CQ. -/
theorem qCommit_free (hfree : (getQueue d q).valid = false) (hring : badRing d n = false) (hcq : badCq d n = false) :
    qCommit q n d = qResult 0
      (backQueue q (updQueue q (fun _ => { n with w0 := setBit n.w0 63, tail := 0, occ := 0, head := 0 }) d)) := by
  simp only [qCommit, hfree, hring, hcq, Bool.false_eq_true, if_false]

/-- QCMD MODIFY that keeps the kind, the owner and the ring of the queue. -/
theorem qModify_agrees (hvalid : (getQueue d q).valid = true) (hkind : n.kind = (getQueue d q).kind)
    (howner : n.owner = (getQueue d q).owner) (hlog : n.ringLog2 = (getQueue d q).ringLog2)
    (hbase : n.base = (getQueue d q).base) (hcq : badCq d n = false) :
    qModify q n d = qResult 0
      (backQueue q (updQueue q (fun x => { x with w0 := setBit n.w0 63, w1 := n.w1, w2 := n.w2 }) d)) := by
  simp [qModify, hvalid, hkind, howner, hlog, hbase, hcq]

/-- QCMD RELEASE of a queue that holds no waybill and that no queue names. -/
theorem qRelease_unused (hvalid : (getQueue d q).valid = true) (hempty : (getQueue d q).kind = 0 → (getQueue d q).occ = 0)
    (hunnamed : (getQueue d q).kind = 1 → cqNamed d q = false) :
    qRelease q d = qResult 0 (backQueue q (updQueue q (fun x => { x with w0 := clrBit x.w0 63 }) d)) := by
  have hidle : ¬ ((decide ((getQueue d q).kind = 0) && decide ((getQueue d q).occ ≠ 0)) ||
      (decide ((getQueue d q).kind = 1) && cqNamed d q)) = true := by simpa using ⟨hempty, hunnamed⟩
  simp only [qRelease, hvalid, Bool.not_true, Bool.false_eq_true, if_false]
  exact if_neg hidle

/-- QCMD PURGE of a committed queue. -/
theorem qPurge_valid (hvalid : (getQueue d q).valid = true) : qPurge q d = qResult 0 (unblock (fun _ _ => true)
    (each (slotsWhere d (fun p s => p = q && (s.state = .waiting || s.state = .ready)))
      (fun x d => dropSlot x.1 x.2.1 d) d)) :=
  if_neg (by simp [hvalid])

/-! ### Reads of the backing area (R294 to R296)

Where an operation goes on with what a read of the backing area brings, the operation is unfolded as a constant, before it is
applied: the kernel would otherwise compare the two sides by running that read on a module of which it knows nothing. -/

variable {code : Nat}

/-- A command whose descriptor is read is carried out. -/
theorem queueTry_here (hread : fetchQueue q d = (.here, e)) : queueTry code q n d = queueOp code q n e := by
  conv in queueTry => delta queueTry
  rw [hread]

/-- A command whose descriptor cannot be read yet is held, BUSY. -/
theorem queueTry_waits {why : Backed} (hread : fetchQueue q d = (why, e)) (hwhy : why = .held ∨ why = .offline) :
    queueTry code q n d = holdOp why (.command code q n.w0 n.w1 n.w2) (wr (kD 1 0x048) (2 ^ 31) e) := by
  conv in queueTry => delta queueTry
  rw [hread]
  rcases hwhy with rfl | rfl <;> rfl

/-- While a command is held, a write of QCMD does nothing. -/
theorem queueCmd_busy (v : Nat) (hbusy : rdB d (kD 1 0x048) 31 = true) : queueCmd v d = d :=
  if_pos (by simp [hbusy])

/-- A command code tries its command while none is held and no error is armed in the depot. -/
theorem queueCmd_tries (hcode : code ≤ 4) (hidle : rdB d (kD 1 0x048) 31 = false) (hcorrected : armed d T.DPT 0 0 0 = none)
    (hfatal : armed d T.DPT 0 0 1 = none) : queueCmd code d = queueTry code (queueSel d) (queueOffered d) d := by
  have hfld : fld code 2 0 = code := by unfold fld; omega
  have hacts : ¬ (decide (4 < fld code 2 0) || rdB d (kD 1 0x048) 31) = true := by
    rw [hfld, hidle, decide_eq_false (Nat.not_lt.mpr hcode)]
    exact Bool.false_ne_true
  rw [queueCmd, if_neg hacts, hfld, depotCheck, metaCheck_clear hcorrected hfatal, if_pos rfl]

/-- An operation on a counter that is on chip, or is brought there, is carried out. -/
theorem withCtr_here {c : Nat} {op : DepotOp} {f : Dev → Dev} (hfetch : fetchCtr c d = (.here, e)) :
    withCtr c op f d = f e := by
  conv in withCtr => delta withCtr
  rw [hfetch]

/-- CTR_CMD CLEAR of an unbound counter that is on chip, or is brought there. -/
theorem ctrClear_unbound (hfetch : fetchCtr (rdF d (kD 2 0x040) 19 0) d = (.here, e))
    (hunbound : (getCtr e (rdF d (kD 2 0x040) 19 0)).bound = 0) :
    ctrClear d = updCtr (rdF d (kD 2 0x040) 19 0) (fun _ => {}) e := by
  rw [ctrClear, ctrZero, withCtr_here hfetch, hunbound, if_neg (by decide)]

end

/-! ### Register words of the DPT pages -/

/-- QCMD acts by its own rule. -/
theorem blockWrite_qcmd (w : Who) (m v : Nat) (d : Dev) : blockWrite w m (kD 1 0x044) v d = some (queueCmd v d) := rfl

/-- CTR_CMD acts by its own rule. -/
theorem blockWrite_ctrCmd (w : Who) (m v : Nat) (d : Dev) :
    blockWrite w m (kD 2 0x050) v d = some (doIf (bit v 0) (depotCheck ctrClear) d) := rfl

/-- EPOCH_CMD acts by its own rule. -/
theorem blockWrite_dptEpochCmd (w : Who) (m v : Nat) (d : Dev) :
    blockWrite w m (kD 0 0x054) v d = some (doIf (bit v 0) (depotCheck epochBoundary) d) := rfl

section
variable {s : State} {w : Who} {e : Dev}

/-- A row that writes a command code to QCMD. -/
theorem effect_queueReg {code : Nat} (hcode : code ≤ 4) (hput : mayPut s.begins w (kD 1 0x044) code = true)
    (hcmd : queueCmd code (touched w s.begins) = e) : effect (queueReg w code) s = .next (s.ends e) := by
  have hword : code % 2 ^ 32 = code := Nat.mod_eq_of_lt (by omega)
  exact effect_block hput (by decide) (by decide) (by decide) (by rw [hword, blockWrite_qcmd, hcmd])

section
variable (hcorrected : armed (touched w s.begins) T.DPT 0 0 0 = none) (hfatal : armed (touched w s.begins) T.DPT 0 0 1 = none)
include hcorrected hfatal

/-- A row that writes 1 to CTR_CMD clears the selected counter. -/
theorem effect_ctrCmd (hput : mayPut s.begins w (kD 2 0x050) 1 = true) :
    effect (regCmd w (kD 2 0x050) 1) s = .next (s.ends (ctrClear (touched w s.begins))) :=
  effect_block hput (by decide) (by decide) (by decide) (by
    rw [blockWrite_ctrCmd, doIf, if_pos (by decide), depotCheck, metaCheck_clear hcorrected hfatal, if_pos rfl])

/-- A row that writes 1 to EPOCH_CMD brings a dispatch epoch boundary. -/
theorem effect_dptEpochCmd (hput : mayPut s.begins w (kD 0 0x054) 1 = true) :
    effect (regCmd w (kD 0 0x054) 1) s = .next (s.ends (epochBoundary (touched w s.begins))) :=
  effect_block hput (by decide) (by decide) (by decide) (by
    rw [blockWrite_dptEpochCmd, doIf, if_pos (by decide), depotCheck, metaCheck_clear hcorrected hfatal, if_pos rfl])

end

end

/-- Settles O23: the rows are writes of QCMD, CTR_CMD and EPOCH_CMD that the block takes. A queue command is ignored while one
is held, held while its descriptor cannot be read, and else carried out by the rule of its name on the queue that passes that
rule's checks. -/
theorem queueCommandRowsComplete : Obligations.QueueCommandRowsComplete := by
  unfold Obligations.QueueCommandRowsComplete
  rintro s who d rfl hcorrected hfatal q n
  refine ⟨?held, fun hbusy hput => effect_queueReg (by decide) hput (queueCmd_busy 0 hbusy), ?read, ?clear,
    fun hput => effect_dptEpochCmd hcorrected hfatal hput⟩
  case held =>
    intro why e hidle hread hwhy hput
    exact effect_queueReg (by decide) hput
      ((queueCmd_tries (by decide) hidle hcorrected hfatal).trans (queueTry_waits hread hwhy))
  case read =>
    intro e hidle hread o
    have hrow : ∀ {code : Nat} {e2 : Dev}, code ≤ 4 → mayPut s.begins who (kD 1 0x044) code = true →
        queueOp code q n e = e2 → effect (queueReg who code) s = .next (s.ends e2) := fun hcode hput hop =>
      effect_queueReg hcode hput
        ((queueCmd_tries hcode hidle hcorrected hfatal).trans ((queueTry_here hread).trans hop))
    refine ⟨fun hput => hrow (by decide) hput rfl,
      fun hput hfree hring hcq => hrow (by decide) hput (qCommit_free hfree hring hcq), ?modify,
      fun hput hvalid hempty hunnamed => hrow (by decide) hput (qRelease_unused hvalid hempty hunnamed),
      fun hput hvalid => hrow (by decide) hput (qPurge_valid hvalid)⟩
    case modify =>
      intro hput hvalid hkind howner hlog hbase hcq
      exact hrow (by decide) hput (qModify_agrees hvalid hkind howner hlog hbase hcq)
  case clear =>
    intro e c hput hfetch hunbound
    exact (effect_ctrCmd hcorrected hfatal hput).trans (by rw [ctrClear_unbound hfetch hunbound])

end Sys2Proof.Machine

/-! ## Dispatch of waybills (R263, R273, R274, R278 to R285, R296) -/

namespace Sys2Proof.Machine

section
variable {d e : Dev} {u q i : Nat}

/-- The first waybill that can be placed, or that ends without running, is all that a placement deals with. -/
theorem placement_first (hfirst : placeFirst (readyOrder d) d = (true, e)) : placement d = e := by
  simp only [placement, hfirst, if_true]

/-- A waybill in the step slot of an idle unit starts when its private regions are its compartment's and free. -/
theorem slottedStart_begins (hslot : stepSlot d u = some (q, i)) (hidle : unitIdle d u = true)
    (howned : regionsOwned d (getSlot d q i).image (queueOwner d q) = true)
    (hfree : regionsFree d (getSlot d q i).image = true) : slottedStart u d = startOn u q i (setStep u none d) := by
  simp only [slottedStart, hslot, hidle, howned, hfree, Bool.not_true, Bool.false_eq_true, if_false]

/-- The run of a unit whose compartment does not drain is reported. -/
theorem waybillEnds_served {r : Running} (hrun : runOf d u = some r) (hserves : (getCmp d r.cmp).draining = false) :
    waybillEnds u d = finishRun u d := by
  simp only [waybillEnds, hrun, hserves, Bool.false_eq_true, if_false]

/-- A unit that runs a duplicate abandons it for the waybill in its step slot. -/
theorem duplicateAbandon_slotted {r : Running} (hrun : runOf d u = some r) (hduplicate : r.kind ≠ .original)
    (hslot : (stepSlot d u).isSome = true) : duplicateAbandon u d = push (.abandoned u r) (dropRun u d) := by
  simp [duplicateAbandon, hrun, hduplicate, hslot]

/-! ### The timetable (R274) -/

/-- The first entry of the timetable fires when it is due: it leaves the table, a late one is counted, and a periodic one is
entered again. -/
theorem timetableFire_due {x : TtEntry} {rest : List TtEntry} (htable : d.dpt.table = x :: rest) (hdue : x.due ≤ tick d) :
    let e := { d with dpt := { d.dpt with table := rest } }
    let e2 := if x.due < tick d then bump (kD 4 0x050) e else e
    let again := fun p => if x.period = 0 then e2 else ttAdd (x.due + p) p x.action e2
    timetableFire d = match x.action with
      | .waybill q i => armForm q i (again x.period)
      | .graph g => push (.graphDue g x.due) (again x.period)
      | .fsync n k => push (.fsyncDue k (decide (x.due < tick d))) (again (fsyncPeriod d n k)) := by
  intro e e2 again
  simp only [timetableFire, htable, if_neg (Nat.not_lt.mpr hdue)]
  cases x with
  | mk due seq period action => cases action <;> rfl

/-! ### Producers whose wait is over (R263, R266) -/

/-- A window enqueue waits no longer. -/
def brakeOver (d : Dev) (b : BrakeWait) : Bool :=
  match b.deadline with
  | some t => b.window && decide (t ≤ tick d)
  | none => false

/-- Only a window enqueue with a deadline ever waits no longer, from its deadline on. -/
theorem brakeOver_iff {b : BrakeWait} :
    brakeOver d b = true ↔ b.window = true ∧ ∃ t, b.deadline = some t ∧ t ≤ tick d := by
  unfold brakeOver
  split
  · next t hdeadline => simp [hdeadline]
  · next hnone => simp [hnone]

/-- The first window enqueue that waits no longer is refused; only a wait for a slot is a brake wait that runs out. -/
theorem brakeTimeout_over {b : BrakeWait} (hfirst : d.dpt.brakes.find? (brakeOver d) = some b) : brakeTimeout d =
    (let e := { d with dpt := { d.dpt with brakes := d.dpt.brakes.erase b } }
     refusedRecord b.queue b.image.tag
      (if b.braked then flag0 T.DPT 0 3 b.queue (countRefusal b.queue e) else countRefusal b.queue e)) := by
  simp only [brakeTimeout]
  split
  · next hnone => exact absurd (hnone.symm.trans hfirst) nofun
  · next x hsome =>
    obtain rfl : x = b := Option.some.inj (hsome.symm.trans hfirst)
    rfl

end

/-- Settles O24: with no error armed in the depot each row is its effect, and comes to the depot's rule of its name under the
guards with which that rule acts. -/
theorem dispatchRowsComplete : Obligations.DispatchRowsComplete := by
  unfold Obligations.DispatchRowsComplete
  rintro s d rfl hcorrected hfatal
  have hrow : ∀ {f : Dev → Dev} {e : Dev}, f s.begins = e → depotActs f s = .next (s.ends e) := fun hacts =>
    (depotActs_clear hcorrected hfatal).trans (effect_of hacts)
  refine ⟨fun e hfirst => hrow (placement_first hfirst),
    fun unit q i hslot hidle howned hfree => hrow (slottedStart_begins hslot hidle howned hfree),
    fun unit r x hrun _ hserves _ => hrow (waybillEnds_served hrun hserves), ?timetable,
    fun hdue => hrow (if_pos hdue), fun hwaits => hrow (if_pos hwaits), ?brake,
    fun unit r hrun hduplicate hslot => hrow (duplicateAbandon_slotted hrun hduplicate hslot), hrow rfl⟩
  case timetable =>
    intro x rest htable hdue
    have hfires := timetableFire_due htable hdue
    refine ⟨fun q i haction => hrow ?_, fun g haction => hrow ?_, fun n k haction => hrow ?_⟩ <;>
      simp only [hfires, haction]
  case brake =>
    intro b t pre rest hbrakes hearlier hwindow hdeadline hover
    refine hrow (brakeTimeout_over (List.find?_eq_some_iff_append.mpr
      ⟨brakeOver_iff.mpr ⟨hwindow, t, hdeadline, hover⟩, pre, rest, hbrakes, fun x hx => ?_⟩))
    rw [Bool.not_eq_true', ← Bool.not_eq_true, brakeOver_iff]
    rintro ⟨hw, u, hu, hlate⟩
    exact absurd (hearlier x hx hw u hu) (Nat.not_lt.mpr hlate)

end Sys2Proof.Machine

/-! ## Compartments (R298, R300, R303, R309, R313 to R316) -/

namespace Sys2Proof.Machine

/-! ### Writes of 64 bits -/

/-- A 64-bit register whose two words act as one takes a write of 64 bits by its own rule (R61). -/
theorem effect_regPutWide {s : State} {w : Who} {k v : Nat} {f : Nat → Dev → Dev} (hput : mayPut s.begins w k v = true)
    (hk : k % 8 = 0) (hwide : wideLow k = true) (hacts : actsWide k = some f) :
    effect (regPut w k 8 v) s = .next (s.ends (f (v % 2 ^ 64) (touched w s.begins))) := by
  simp only [mayPut, Bool.and_eq_true, bne_iff_ne, ne_eq, Bool.not_eq_true'] at hput
  obtain ⟨⟨⟨hchip, hopen⟩, -⟩, hcut⟩ := hput
  cases hmask : writeMask (pageTouched w s.begins) w k with
  | none => exact absurd (by rw [openFields, hmask]; rfl) hopen
  | some m =>
    have hpop : populated (pageTouched w s.begins).part k = true := by
      cases hslot : populated (pageTouched w s.begins).part k with
      | true => rfl
      | false =>
        refine absurd ?_ hopen
        rw [openFields, writeMask, hslot]
        rfl
    have hpage : writePage (pageAcc w true (pageTouched w s.begins)) k (leBytes 8 v) (pageTouched w s.begins)
        = (.ok, f (v % 2 ^ 64) (touched w s.begins)) := by
      have hbytes : (256 : Nat) ^ 8 = 2 ^ 64 := by decide
      simp [writePage, pageAcc, regWriteWide, hk, hwide, hpop, hacts, hmask, hbytes, touched]
    refine effect_of ?_
    cases w with
    | host n => exact absurd hchip Bool.false_ne_true
    | _ => simp only [regPut, hcut, hpage, Bool.false_eq_true, if_false]

/-! ### Register words of the CMP pages -/

section
variable {s : State} {w : Who} {n : Nat}

section
variable {off : Nat} (hn : n < 16) (ho : off < 0x1000)
include hn ho

/-- Where a word of a compartment's page stands. -/
theorem kC_place : keyTy (kC n off) = 0x0B ∧ keyInst (kC n off) = n ∧ keyOff (kC n off) = off := by
  have hslot : slotOk T.CMP n 0 = true := slotOk_of (p := .vm4_42) hn (by decide)
  exact ⟨rk_ty hslot ho, rk_inst hslot ho, rk_off _ _ _ ho⟩

/-- A row that writes a block register of a compartment's page. -/
theorem effect_kC {v : Nat} {e : Dev} (hput : mayPut s.begins w (kC n off) v = true) (halign : off % 4 = 0)
    (hblock : 0x040 ≤ off)
    (hacts : ∀ m, blockWrite w m (kC n off) (v % 2 ^ 32) (touched w s.begins) = some e) :
    effect (regCmd w (kC n off) v) s = .next (s.ends e) := by
  obtain ⟨hty, -, hoff⟩ := kC_place hn ho
  exact effect_block hput (rk_mod4 _ _ _ halign) (by rw [hoff]; exact hblock)
    (by rw [hty]; exact fun hrearm => absurd hrearm.1 (by decide)) (hacts _)

end

variable (hn : n < 16)
include hn

/-- CMP_CMD acts by its own rule. -/
theorem blockWrite_cmpCmd (w : Who) (m v : Nat) (d : Dev) : blockWrite w m (kC n 0x044) v d = some (cmpCommand n v d) := by
  obtain ⟨hty, hinst, hoff⟩ := kC_place (off := 0x044) hn (by decide)
  simp [blockWrite, hty, hinst, hoff]

/-- OTHER_MASK acts by its own rule. -/
theorem blockWrite_otherMask (w : Who) (m v : Nat) (d : Dev) : blockWrite w m (kC n 0x058) v d = some (otherMask n v d) := by
  obtain ⟨hty, hinst, hoff⟩ := kC_place (off := 0x058) hn (by decide)
  simp [blockWrite, inR, hty, hinst, hoff]

/-- EVQ acts by its own rule. -/
theorem blockWrite_evq (w : Who) (m v : Nat) (d : Dev) : blockWrite w m (kC n 0x070) v d = some (evqWrite n v d) := by
  obtain ⟨hty, hinst, hoff⟩ := kC_place (off := 0x070) hn (by decide)
  simp [blockWrite, inR, hty, hinst, hoff]

/-- A row that writes COACH_MASK. -/
theorem effect_coachMask {v : Nat} (hput : mayPut s.begins w (kC n 0x050) v = true) :
    effect (regPut w (kC n 0x050) 8 v) s = .next (s.ends (coachMask n (v % 2 ^ 64) (touched w s.begins))) := by
  obtain ⟨hty, hinst, hoff⟩ := kC_place (off := 0x050) hn (by decide)
  have hcmp : T.CMP = 0x0B := rfl
  exact effect_regPutWide hput (by unfold kC rk; omega) (by simp [wideLow, hty, hoff])
    (by simp [actsWide, hcmp, hty, hinst, hoff])

/-- A row that writes STKWIN[k]. -/
theorem effect_stkWin {k v : Nat} (hk : k < 8) (hput : mayPut s.begins w (kC n (0x080 + 8 * k)) v = true) :
    effect (regPut w (kC n (0x080 + 8 * k)) 8 v) s =
      .next (s.ends (stkWinWrite n k (v % 2 ^ 64) (touched w s.begins))) := by
  obtain ⟨hty, hinst, hoff⟩ := kC_place (off := 0x080 + 8 * k) hn (by omega)
  have hcmp : T.CMP = 0x0B := rfl
  have hin : inR (0x080 + 8 * k) 0x080 0x40 = true := by simp [inR]; omega
  have hlow : (0x080 + 8 * k) % 8 = 0 := by omega
  have hnot : 0x080 + 8 * k ≠ 0x050 := by omega
  have hwindow : (0x080 + 8 * k - 0x080) / 8 = k := by omega
  exact effect_regPutWide hput (by unfold kC rk; omega) (by simp [wideLow, hty, hoff, hin, hlow])
    (by simp only [actsWide, hcmp, hty, hinst, hoff, hin, hlow, hnot, hwindow]; rfl)

end

/-! ### Writes of a compartment's configuration (R298, R303, R309) -/

section
variable {d : Dev} {n v : Nat}

/-- The bits that a window word holds include VALID. -/
theorem bit_winBits_valid (hv : v < 2 ^ 64) : bit (winBits v) 63 = bit v 63 := by
  simp only [bit, winBits, fld, Nat.testBit_eq_decide_div_mod_eq, Nat.shiftRight_eq_div_pow, decide_eq_decide]
  omega

section
variable (hidle : cmpBusy d n = false)
include hidle

/-- A configuration write acts while its compartment is neither RESETTING nor KILLING. -/
theorem configure_idle (f : Dev → Dev) : configure n f d = f d := by
  simp only [configure, hidle, Bool.false_eq_true, if_false]

/-- COACH_MASK takes a mask of which no other compartment holds a coach. -/
theorem coachMask_free (hfree : conflict d n 0x050 (v &&& (2 ^ 64 - 1)) = false) :
    coachMask n v d = cResult n 0 (wr64 (kC n 0x050) v d) := by
  simp only [coachMask, configure_idle hidle, maskWrite, hfree, Bool.false_eq_true, if_false, if_true]

/-- OTHER_MASK takes a mask of which no other compartment holds a control core. -/
theorem otherMask_free (hfree : n ≠ 0 → ∀ m < 16, m ≠ 0 → m ≠ n → rd d (kC m 0x058) &&& v &&& 0x1C00 = 0) :
    otherMask n v d = cResult n 0 (wr (kC n 0x058) (v % 0x2000) d) := by
  rw [otherMask, configure_idle hidle]
  exact if_neg (by simpa [and_imp] using hfree)

/-- EVQ takes a completion queue of the compartment that no queue names. -/
theorem evqWrite_sound (hvalid : (getQueue d (fld v 15 0)).valid = true) (hkind : (getQueue d (fld v 15 0)).kind = 1)
    (howner : (getQueue d (fld v 15 0)).owner = n) (hunnamed : cqNamed d (fld v 15 0) = false) :
    evqWrite n v d = cResult n 0 (wr (kC n 0x070) (v &&& 0x8000FFFF) d) := by
  rw [evqWrite, configure_idle hidle]
  exact if_neg (by simp [hvalid, hkind, howner, hunnamed])

/-- STKWIN[k] takes a window that is not VALID or that passes the check. -/
theorem stkWinWrite_sound {k : Nat} (hv : v < 2 ^ 64) (hcheck : bit v 63 = true → winCheck d n (winBits v) = 0) :
    stkWinWrite n k v d = wr64 (kC n (0x080 + 8 * k)) (winBits v) (wr (kC n 0x0C0) (k * 256) d) := by
  have hcode : (if bit (winBits v) 63 then winCheck d n (winBits v) else 0) = 0 := by
    rw [bit_winBits_valid hv]
    split
    · next hvalid => exact hcheck hvalid
    · rfl
  simp only [stkWinWrite, configure_idle hidle, hcode, if_true, Nat.add_zero]

end

/-! ### Commands of a compartment (R313 to R316) -/

/-- The commands of CMP_CMD with its key, on a compartment other than 0: the work that RESET and KILL end is cut first. -/
theorem cmpCommand_keyed (hn : n ≠ 0) :
    cmpCommand n ((0xC5 * 256 + 1) % 2 ^ 32) d = cmpActivate n d ∧
    cmpCommand n ((0xC5 * 256 + 2) % 2 ^ 32) d =
      cmpReset n (if (getCmp d n).mode = .active then cutCompartment n false d else d) ∧
    cmpCommand n ((0xC5 * 256 + 3) % 2 ^ 32) d =
      cmpKill n (if (getCmp d n).mode = .free || (getCmp d n).mode = .killing then d else cutCompartment n true d) :=
  ⟨if_neg hn, if_neg hn, if_neg hn⟩

/-- ACTIVATE of a FREE compartment. -/
theorem cmpActivate_free (hfree : (getCmp d n).mode = .free) : cmpActivate n d = countersZero n (ledgerEpoch n (cResult n 0
    (updCmp n (fun c => { c with mode := .active, quiet := false }) d))) := by
  rw [cmpActivate, hfree]

/-- RESET of an ACTIVE compartment. -/
theorem cmpReset_active (hactive : (getCmp d n).mode = .active) :
    cmpReset n d = cResult n 0 (cmpResetStart n (wrB (kC n 0x048) 31 true d)) := by
  rw [cmpReset, hactive]

/-- KILL of an ACTIVE compartment. -/
theorem cmpKill_active (hactive : (getCmp d n).mode = .active) :
    cmpKill n d = cResult n 0 (cmpKillStart n (wrB (kC n 0x048) 31 true d)) := by
  rw [cmpKill, hactive]

/-- Once a draining compartment has drained, steps 4 and 5 of its reset or kill are done. -/
theorem cmpDrainDone_drained (hdraining : (getCmp d n).draining = true) (hdrained : drained d n = true) :
    let kill := decide ((getCmp d n).mode = .killing)
    let f := payOwed n (cutYard n kill d)
    let mine := (f.yard.descs.filter (fun x => x.2.owner = n && x.2.goal != .commit)).map (·.1)
    let g := if kill then killRegions n (endRuns n kill f) else endRuns n kill f
    cmpDrainDone n d = cmpSwept n (updCmp n (fun x => { x with
      draining := false, sweeps := (sweepsNow g).filter mine.contains }) g) :=
  if_neg (by simp [hdraining, hdrained])

/-- The window that a compartment zeroes first is zeroed and reported. -/
theorem windowZeroed_first {k w : Nat} {rest : List (Nat × Nat)} (hzeroing : (getCmp d n).zeroing = (k, w) :: rest) :
    windowZeroed n d =
      (let f := post 0 { kind := 8, subkind := k, subject := n, addr := stackBase + winBase w }
         (zeroLines (winBase w / 64) (winBytes w / 64) (updCmp n (fun c => { c with zeroing := rest }) d))
       if rest.isEmpty then flag0 T.CMP n 5 0 f else f) := by
  rw [windowZeroed, hzeroing]

end

/-- Settles O25: CMP_CMD, the masks, STKWIN and EVQ are writes that the block takes, and the rule of each name acts on a
compartment in the mode, or with the value, that it asks for; the other rows come to the rule of their name under the guard
with which it acts. -/
theorem compartmentRowsComplete : Obligations.CompartmentRowsComplete := by
  unfold Obligations.CompartmentRowsComplete
  rintro s d rfl who cmp e rfl n
  have hn : n < 16 := cmp.isLt
  refine ⟨?commands, fun hdraining hdrained => effect_of (cmpDrainDone_drained hdraining hdrained),
    fun k w rest hzeroing => effect_of (windowZeroed_first hzeroing), ?configuration, fun hdue => effect_of (if_pos hdue)⟩
  case commands =>
    intro hpos
    obtain ⟨hactivate, hreset, hkill⟩ := cmpCommand_keyed (d := touched who s.begins) hpos
    have hrow : ∀ {v : Nat} {e : Dev}, mayPut s.begins who (kC n 0x044) v = true →
        cmpCommand n (v % 2 ^ 32) (touched who s.begins) = e →
        effect (regCmd who (kC n 0x044) v) s = .next (s.ends e) := fun hput hcmd =>
      effect_kC hn (by decide) hput (by decide) (by decide) fun m => by rw [blockWrite_cmpCmd hn, hcmd]
    refine ⟨fun hput hfree => hrow hput (hactivate.trans (cmpActivate_free hfree)),
      fun hput hactive hstill => hrow hput (hreset.trans ?_), fun hput hactive hstill => hrow hput (hkill.trans ?_)⟩
    · rw [if_pos hactive, cmpReset_active hstill]
    · rw [if_neg (by simp [hactive]), cmpKill_active hstill]
  case configuration =>
    intro hidle
    have hword : ∀ value : W32, value.toNat % 2 ^ 32 = value.toNat := fun value => Nat.mod_eq_of_lt value.isLt
    have hwide : ∀ value : W64, value.toNat % 2 ^ 64 = value.toNat := fun value => Nat.mod_eq_of_lt value.isLt
    refine ⟨fun value hput hfree => effect_kC hn (by decide) hput (by decide) (by decide) fun m => ?_,
      fun value hput hvalid hkind howner hunnamed => effect_kC hn (by decide) hput (by decide) (by decide) fun m => ?_,
      fun value hput hfree => (effect_coachMask hn hput).trans ?_,
      fun win value hput hcheck => (effect_stkWin hn win.isLt hput).trans ?_⟩
    · rw [blockWrite_otherMask hn, hword, otherMask_free hidle hfree]
    · rw [blockWrite_evq hn, hword, evqWrite_sound hidle hvalid hkind howner hunnamed]
    · rw [hwide, coachMask_free hidle hfree]
    · rw [hwide, stkWinWrite_sound hidle value.isLt hcheck]

end Sys2Proof.Machine

/-! ## Camera packets (R341, R348, R350, R351, R353, R355) -/

namespace Sys2Proof.Machine

section
variable {d : Dev} {p vc mhz : Nat}

/-! ### What a packet's way leaves alone -/

@[simp] theorem tcount_ink (i n : Nat) (d : Dev) : (tcount i n d).ink = d.ink := by
  unfold tcount
  split
  · exact wr64_ink d _ _
  · rfl

@[simp] theorem tcount_inj (i n : Nat) (d : Dev) : (tcount i n d).inj = d.inj := by
  unfold tcount
  split
  · exact wr64_inj d _ _
  · rfl

theorem getPort_tcount (i n : Nat) (d : Dev) (p : Nat) : getPort (tcount i n d) p = getPort d p := by
  rw [getPort, getPort, tcount_ink]

theorem getStream_tcount (i n : Nat) (d : Dev) (p b : Nat) : getStream (tcount i n d) p b = getStream d p b := by
  rw [getStream, getStream, tcount_ink]

theorem armed_tcount (i n : Nat) (d : Dev) (ty inst page k : Nat) : armed (tcount i n d) ty inst page k = armed d ty inst page k := by
  rw [armed, armed, tcount_inj]

theorem getPort_updPort_same (p : Nat) (f : CamPort → CamPort) (d : Dev) : getPort (updPort p f d) p = f (getPort d p) := by
  rw [getPort, getPort, updPort, Map.get_upd, if_pos rfl]

/-- A measurement of the byte clock leaves the rest of the port. -/
theorem getPort_measured (p mhz : Nat) (d : Dev) : getPort (measured p mhz d) p = { getPort d p with mhz := mhz } :=
  getPort_updPort_same ..

theorem inWindow_measured (p mhz m : Nat) (d : Dev) : inWindow (measured p mhz d) p m = inWindow d p m := rfl

theorem onChannel_measured (p mhz vc : Nat) (d : Dev) : onChannel (measured p mhz d) p vc = onChannel d p vc := rfl

/-! ### Lanes that are calibrated (R341) -/

/-- At up to 1.5 Gb/s, or after a deskew sequence, nothing is flagged. -/
theorem deskewCheck_calibrated (hlanes : 8 * mhz ≤ 1500 ∨ (getPort d p).deskewed = true) : deskewCheck p mhz d = d := by
  refine if_neg ?_
  rcases hlanes with hslow | hdeskewed
  · simp [Nat.not_lt.mpr hslow]
  · simp [hdeskewed]

/-- The measurement that a short packet brings keeps the deskew sequence. -/
theorem deskewCheck_measured (hlanes : 8 * mhz ≤ 1500 ∨ (getPort d p).deskewed = true) :
    deskewCheck p mhz (measured p mhz d) = measured p mhz d :=
  deskewCheck_calibrated (by rwa [getPort_measured])

/-! ### Packets with a clean header at a port that takes them -/

variable (hexists : portExists d p = true) (hport : rdB d (kPort p 0x040) 31 = true) (hon : inkOn d p = true)
include hexists hport hon

/-- A deskew sequence calibrates the lanes. -/
theorem csiDeskew_taken : csiDeskew p d = updPort p (fun x => { x with deskewed := true }) d := by
  simp only [csiDeskew, hexists, hport, hon, Bool.and_self, if_true]

variable (hheader : armed d T.INK (p / 3) (1 + p % 3) 1 = none)
include hheader

/-- The packet acts. -/
theorem packet_clean (f : Dev → Dev) : packet p 0 f d = f d := by
  simp [packet, header, hexists, hport, hon, hheader]

section
variable (hlanes : 8 * mhz ≤ 1500 ∨ (getPort d p).deskewed = true) (hwindow : inWindow d p mhz = true)
include hlanes hwindow

/-- A frame start in the rate window reaches the streams of its channel, once the measurement has reached the others. -/
theorem csiFrameStart_clean (num : Nat) : csiFrameStart p vc num 0 mhz d =
    each (onChannel d p vc) (frameStartOn p num mhz)
      (each ((List.range 4).filter (fun b => !(onChannel d p vc).contains b)) (rateMoved p mhz)
        (updPort p (fun x => { x with fault := false }) (measured p mhz d))) := by
  rw [csiFrameStart, packet_clean hexists hport hon hheader]
  simp only [deskewCheck_measured hlanes, inWindow_measured, onChannel_measured, hwindow, Bool.not_true, Bool.false_eq_true,
    if_false]

/-- A line start in the rate window, at a port in no RATE_FAULT, reaches the streams of its channel, once the measurement has
reached every stream of the port. -/
theorem csiLineStart_clean (hfault : (getPort d p).fault = false) (line : Nat) : csiLineStart p vc line 0 mhz d =
    each (onChannel d p vc) (lineStartOn p line) (each (List.range 4) (rateMoved p mhz) (measured p mhz d)) := by
  rw [csiLineStart, packet_clean hexists hport hon hheader]
  simp only [deskewCheck_measured hlanes, inWindow_measured, onChannel_measured, getPort_measured, hwindow, hfault, Bool.not_true,
    Bool.false_eq_true, if_false]

end

variable (hfault : (getPort d p).fault = false)
include hfault

/-- A frame end reaches the streams of its channel. -/
theorem csiFrameEnd_clean : csiFrameEnd p vc 0 d = each (onChannel d p vc) (fun b d =>
    let x := getStream d p b
    if discards x then portCount p 12 d
    else if x.state = .inFrame then updStream p b (fun s => { s with state := .waitFs }) (closeCam p b 0 false d)
    else if x.state = .dropping then updStream p b (fun s => { s with state := .waitFs }) d
    else d) d := by
  rw [csiFrameEnd, packet_clean hexists hport hon hheader]
  exact if_neg (by simp [hfault])

/-- A line end reaches the streams of its channel. -/
theorem csiLineEnd_clean : csiLineEnd p vc 0 d = each (onChannel d p vc) (fun b d =>
    if discards (getStream d p b) then portCount p 12 d else updOpen p b (fun f => { f with last := tick d }) d) d := by
  rw [csiLineEnd, packet_clean hexists hport hon hheader]
  exact if_neg (by simp [hfault])

/-- A long packet with a supported data type, in the open frame of the stream that is bound to it, brings its row. -/
theorem csiLongPacket_bound {dt b : Nat} {payload : List Byte} {crcOk parity full : Bool}
    (hcrc : armed d T.INK (p / 3) (1 + p % 3) 2 = none)
    (hlanes : 8 * (getPort d p).mhz ≤ 1500 ∨ (getPort d p).deskewed = true) (hdt : supportedDt dt = true)
    (hbound : (onChannel (tcount 9 payload.length d) p vc).find? (fun b => bindDt (tcount 9 payload.length d) p b = dt) = some b)
    (hopen : (getStream d p b).state = .inFrame) :
    csiLongPacket p vc dt payload crcOk 0 parity full d = lineOn p b payload crcOk parity full (tcount 9 payload.length d) := by
  have hcounted : deskewCheck p (getPort d p).mhz (tcount 9 payload.length d) = tcount 9 payload.length d :=
    deskewCheck_calibrated (by rwa [getPort_tcount])
  have htakes : discards (getStream d p b) = false := by rw [discards, hopen]; decide
  rw [csiLongPacket, packet_clean hexists hport hon hheader]
  simp only [hcounted, getPort_tcount, hfault, hdt, armed_tcount, hcrc, hbound, getStream_tcount, htakes, hopen, Option.isSome_none,
    Bool.not_true, Bool.not_false, Bool.and_true, Bool.false_eq_true, if_true, if_false]

end

/-- Settles O26: with the pins connected, a packet with a clean header acts at a port that takes it, and comes to the rule of
its name under the guards with which that rule reaches the streams of the packet's channel. -/
theorem csiRowsComplete : Obligations.CsiRowsComplete := by
  unfold Obligations.CsiRowsComplete
  rintro s d rfl port vc mhz p hpins hexists hport hon hheader hcrc hfault hlanes hwindow
  have hrow : ∀ {f : Dev → Dev} {e : Dev}, f s.begins = e → effect (overPins f) s = .next (s.ends e) := fun hacts =>
    effect_of ((overPins_open hpins).trans hacts)
  refine ⟨fun number => hrow (csiFrameStart_clean hexists hport hon hheader hlanes hwindow _),
    fun line => hrow (csiLineStart_clean hexists hport hon hheader hlanes hwindow hfault _),
    hrow (csiFrameEnd_clean hexists hport hon hheader hfault), hrow (csiLineEnd_clean hexists hport hon hheader hfault),
    ?longPacket, hrow (csiDeskew_taken hexists hport hon)⟩
  case longPacket =>
    intro dt payload crcOk parity full b hdata hdt hbound hopen
    exact hrow (csiLongPacket_bound hexists hport hon hheader hfault hcrc hdata hdt hbound hopen)

end Sys2Proof.Machine

/-! ## Streams of a camera and frame synchronisation (R342, R348, R351, R353, R357 to R359, R361) -/

namespace Sys2Proof.Machine

/-- A row whose accesses nothing befalls acts on the module as the command finds it. -/
theorem effect_clear {s : State} {f : Dev → Dev} {e : Dev} (h : f s.begins = e) :
    effect (fun d => f (onWay .clear d)) s = .next (s.ends e) :=
  effect_of ((congrArg f (onWay_clear s)).trans h)

section
variable {d : Dev} {p b : Nat}

/-! ### Ends of frames (R351, R353) -/

/-- An open frame without a line end or frame end for LINE_TIMEOUT ticks closes. -/
theorem lineTimeout_due {f : CamFrame} (hframe : (getStream d p b).frame = some f) (hopen : (getStream d p b).state = .inFrame)
    (hdue : f.last + rdF d (kPort p 0x048) 15 0 ≤ tick d) : lineTimeout p b false d = portFlag p 3 b (portCount p 7
      (updStream p b (fun s => { s with state := .waitFs }) (closeCam p b 1 true d))) := by
  simp only [lineTimeout, hframe, hopen, hdue, doIf, decide_true, Bool.and_self, Bool.false_eq_true, if_true, if_false]

section
variable {f : CamFrame} {fs : List CamFrame} (hclosing : (getStream d p b).closing = f :: fs)
  (hdrained : writing d p f.serial = false)
include hclosing hdrained

/-- The record of the first closing frame is written once the frame's writes have landed. -/
theorem closeDrained_first (hnew : f.recorded = false) : closeDrained p b d = writeRecordOf p b f d := by
  simp only [closeDrained, hclosing, hnew, hdrained, Bool.or_self, Bool.false_eq_true, if_false]

/-- A frame whose record has landed closes, and an intake in service sends its event. -/
theorem recordDone_first (hrecorded : f.recorded = true) : recordDone p b d =
    (let e := updStream p b (fun s => { s with closing := fs }) (stampClose p f d)
     if inkOn d p then { e with fgs := { e.fgs with events := e.fgs.events ++
       [if f.absent then .absent p b f.time f.record f.degr else .fin p b ⟨f.buf, f.serial⟩ f.status f.record] } }
     else e) := by
  simp only [recordDone, hclosing, hrecorded, hdrained, Bool.not_true, Bool.or_self, Bool.false_eq_true, if_false]

end

/-! ### Detach and re-plug (R357, R358) -/

section
variable (hplug : hpEn d p b = true)
include hplug

/-- A stream that is in use is detached when its input is low. -/
theorem hotplugFall_low (hlow : hpHigh d p b = false) (hused : (getStream d p b).state ≠ .off)
    (hattached : (getStream d p b).state ≠ .detached) : hotplugFall p b d = portFlag p 8 b (portCount p 11
      (updStream p b (fun s => { s with state := .detached })
        (doIf ((getStream d p b).state = .configuring) (push (.listStop (.replug p b))) (closeCam p b 8 true d)))) := by
  have hfalls : ¬ (!hpEn d p b || hpHigh d p b) = true := by simp [hplug, hlow]
  rw [hotplugFall, if_neg hfalls]
  split
  · next hoff => exact absurd hoff hused
  · next hdetached => exact absurd hdetached hattached
  · rfl

/-- A detached stream waits for its re-plug when its input is high. -/
theorem hotplugRise_high (hhigh : hpHigh d p b = true) (hdetached : (getStream d p b).state = .detached) :
    hotplugRise p b d = updStream p b (fun s => { s with state := .replugWait, rose := tick d }) d := by
  simp only [hotplugRise, hplug, hhigh, hdetached, decide_true, Bool.and_self, if_true]

end

/-- The re-plug of a stream that has been attached for REPLUG_MS goes on: with the binding's command list, or at once. -/
theorem replugExpire_due (hwaits : (getStream d p b).state = .replugWait) (hhigh : hpHigh d p b = true)
    (hdue : (getStream d p b).rose + 1000 * clamp 1 4000 (rdF d (kBind p b 0x1C) 11 0) ≤ tick d) :
    replugExpire p b d = if clEn d p b && !inkStabled d p then startReplug p b d
      else updStream p b (fun s => { s with state := readyState d p }) d := by
  simp only [replugExpire, hwaits, hhigh, hdue, decide_true, Bool.and_self, if_true]

/-! ### Streams without frames (R359) -/

/-- The ABSENT record of a stream that has no frame: that of the next buffer, with the tick of its event. -/
def absentFrame (d : Dev) (p b : Nat) : CamFrame :=
  let f := (getStream d p b).nextBuf % bufCount d p b
  { serial := d.ink.serials + 1, buf := f, time := tick d, degr := degraded d, seq := (getStream d p b).accepted
    absent := true, cmp := bindCmp d p b, record := rd64 d (kBind p b 0x30) % 2 ^ 48 + f * 64 }

/-- A stream that has no frame and nothing to close writes an ABSENT record when it is due. -/
theorem absentExpire_due (hset : rd d (kBind p b 0x3C) ≠ 0) (hused : (getStream d p b).state ≠ .off)
    (hidle : (getStream d p b).state ≠ .inFrame) (hon : inkOn d p = true)
    (hdue : absentSince (getStream d p b) + rd d (kBind p b 0x3C) ≤ tick d) (hclosing : (getStream d p b).closing = []) :
    absentExpire p b d = writeRecordOf p b (absentFrame d p b) (portCount p 10
      (updStream p b (fun s => { s with absent := some (tick d), closing := s.closing ++ [absentFrame d p b] })
        { d with ink := { d.ink with serials := d.ink.serials + 1 } })) := by
  have hacts : ¬ (rd d (kBind p b 0x3C) = 0 || (getStream d p b).state = .off || (getStream d p b).state = .inFrame ||
      !inkOn d p || tick d < absentSince (getStream d p b) + rd d (kBind p b 0x3C)) = true := by
    simp [hset, hused, hidle, hon, hdue]
  rw [absentExpire, if_neg hacts]
  simp only [hclosing, absentFrame]

/-! ### Register words of a port's page -/

section
variable {off : Nat} (hp : p < 6) (ho : off < 0x1000)
include hp ho

/-- Where a word of a port's page stands. -/
theorem kPort_place : keyTy (kPort p off) = 0x0C ∧ keyInst (kPort p off) = p / 3 ∧ keyPage (kPort p off) = 1 + p % 3 ∧
    keyOff (kPort p off) = off := by
  have hslot : slotOk T.INK (p / 3) (1 + p % 3) = true :=
    slotOk_of (p := .vm4_42) (show p / 3 < 2 by omega) (show 1 + p % 3 < 4 by omega)
  exact ⟨rk_ty hslot ho, rk_inst hslot ho, rk_page hslot ho, rk_off _ _ _ ho⟩

/-- A row that writes a block register of a port's page. -/
theorem effect_kPort {s : State} {w : Who} {v : Nat} {e : Dev} (hput : mayPut s.begins w (kPort p off) v = true)
    (halign : off % 4 = 0) (hblock : 0x040 ≤ off)
    (hacts : ∀ m, blockWrite w m (kPort p off) (v % 2 ^ 32) (touched w s.begins) = some e) :
    effect (regCmd w (kPort p off) v) s = .next (s.ends e) := by
  obtain ⟨hty, -, -, hoff⟩ := kPort_place hp ho
  exact effect_block hput (rk_mod4 _ _ _ halign) (by rw [hoff]; exact hblock)
    (by rw [hty]; exact fun hrearm => absurd hrearm.1 (by decide)) (hacts _)

end

section
variable {w : Who} {m v : Nat} (hp : p < 6) (hb : b < 4)
include hp hb

/-- STREAM_CMD of a binding releases buffers, and then starts a re-plug again. -/
theorem blockWrite_streamCmd : blockWrite w m (kPort p (0x090 + 4 * b)) v d =
    some (if bit v 8 then streamReplug p b (streamRelease p b (fld v 3 0) d) else streamRelease p b (fld v 3 0) d) := by
  obtain ⟨hty, hinst, hpage, hoff⟩ := kPort_place (off := 0x090 + 4 * b) hp (by omega)
  have hin : inR (0x090 + 4 * b) 0x090 16 = true := by simp [inR]; omega
  have hpage0 : ¬ 1 + p % 3 = 0 := by omega
  have hctrl : ¬ 0x090 + 4 * b = 0x040 := by omega
  have hport : 3 * (p / 3) + (1 + p % 3 - 1) = p := by omega
  have hbinding : (0x090 + 4 * b - 0x090) / 4 = b := by omega
  simp only [blockWrite, hty, hinst, hpage, hoff, hin, hport, hbinding, if_neg hpage0, if_neg hctrl, if_true]

/-- BIND_CTRL acts by its own rule. -/
theorem blockWrite_bindCtrl : blockWrite w m (kBind p b 0) v d = some (bindWrite p b v d) := by
  obtain ⟨hty, hinst, hpage, hoff⟩ := kPort_place (off := 0x100 + 0x40 * b + 0) hp (by omega)
  have hkey : kBind p b 0 = kPort p (0x100 + 0x40 * b + 0) := rfl
  have hnot : inR (0x100 + 0x40 * b + 0) 0x090 16 = false := by simp [inR]; omega
  have hin : inR (0x100 + 0x40 * b + 0) 0x100 0x100 = true := by simp [inR]; omega
  have hpage0 : ¬ 1 + p % 3 = 0 := by omega
  have hctrl : ¬ 0x100 + 0x40 * b + 0 = 0x040 := by omega
  have hword : (0x100 + 0x40 * b + 0) % 0x40 = 0 := by omega
  have hport : 3 * (p / 3) + (1 + p % 3 - 1) = p := by omega
  have hbinding : (0x100 + 0x40 * b + 0 - 0x100) / 0x40 = b := by omega
  simp only [blockWrite, hkey, hty, hinst, hpage, hoff, hin, hnot, hword, hport, hbinding, if_neg hpage0, if_neg hctrl,
    Bool.false_eq_true, if_false, if_true]

end

/-- RELEASE bits of STREAM_CMD. -/
theorem releaseWord_fields (buffers : Fin 16) :
    fld (buffers.val % 2 ^ 32) 3 0 = buffers.val ∧ bit (buffers.val % 2 ^ 32) 8 = false := by
  revert buffers; decide

/-- A write that sets EN takes the word when the binding's fields let it. -/
theorem bindWrite_enables {v : Nat} (hoff : bindEn d p b = false) (hen : bit v 31 = true)
    (hmay : mayEnable (wrB (kBind p b 0) 31 false (wr (kBind p b 0) v d)) p b = true) :
    bindWrite p b v d = updStream p b (fun s => { s with state := readyState d p, accepted := 0, since := tick d })
      (wrB (kBind p b 0) 31 true (wrB (kBind p b 0) 31 false (wr (kBind p b 0) v d))) := by
  simp only [bindWrite, hoff, hen, hmay, Bool.not_true, Bool.false_eq_true, if_false]

end

/-! ### Frame-sync outputs (R361) -/

section
variable {d : Dev} {k : Nat}

/-- FSYNC_CTRL of an output of intake 0 acts by its own rule, on the value that a plain word would take. -/
theorem blockWrite_fsyncCtrl (hk : k < 6) (w : Who) (m v : Nat) (d : Dev) : let a := kInk 0 (0x100 + 0x20 * k)
    blockWrite w m a v d = some (fsyncCtrl k (plainValue m (rd d a) a v) d) := by
  intro a
  have hslot : slotOk T.INK 0 0 = true := by decide
  have ho : 0x100 + 0x20 * k < 0x1000 := by omega
  have hty : keyTy a = 0x0C := rk_ty hslot ho
  have hinst : keyInst a = 0 := rk_inst hslot ho
  have hpage : keyPage a = 0 := rk_page hslot ho
  have hoff : keyOff a = 0x100 + 0x20 * k := rk_off _ _ _ ho
  have hin : (inR (0x100 + 0x20 * k) 0x100 0xC0 && decide ((0x100 + 0x20 * k) % 0x20 = 0)) = true := by simp [inR]; omega
  have houtput : (0x100 + 0x20 * k - 0x100) / 0x20 = k := by omega
  simp only [blockWrite, hty, hinst, hpage, hoff, hin, houtput, if_true]

/-- A write that sets EN of an output enters its periodic entry while one is free. -/
theorem fsyncCtrl_begins {v : Nat} {e1 : Dev} (hwrite : wr (kInk 0 (0x100 + 0x20 * k)) v
      { d with ink := { d.ink with fsyncSet := setBit d.ink.fsyncSet k } } = e1)
    (hwas : rdB d (kInk 0 (0x100 + 0x20 * k)) 31 = false) (hon : rdB e1 (kInk 0 (0x100 + 0x20 * k)) 31 = true)
    (hfree : ttPeriodic e1 < 256) : fsyncCtrl k v d =
      (let p := fsyncPeriod e1 0 k
       ttAdd (fsyncFirst (rd64 e1 (kInk 0 (0x108 + 0x20 * k))) p (tick e1)) p (.fsync 0 k) e1) := by
  have hen : bit v 31 = true := by
    rw [← hwrite, rdB, rd_wr_same, bit, Nat.testBit_mod_two_pow] at hon
    exact (Bool.and_eq_true_iff.mp hon).2
  simp only [fsyncCtrl, hwas, hen, hwrite, Bool.not_false, Bool.and_self, if_true, if_neg (Nat.not_le.mpr hfree)]

/-- A pulse ends after WIDTH ticks. -/
theorem fsyncEnd_due {t : Nat} (hpulse : Map.get (fun _ => 0) d.ink.pulses k = t + 1) (hdue : t ≤ tick d) :
    fsyncEnd k d = { d with ink := { d.ink with pulses := Map.set (fun _ => 0) d.ink.pulses k 0 } } := by
  rw [fsyncEnd, hpulse]
  exact if_pos ⟨Nat.succ_ne_zero t, hdue⟩

end

/-- Settles O27: each event comes to the rule of its name, under the guards with which that rule acts on the stream or the
output; STREAM_CMD, BIND_CTRL and FSYNC_CTRL are writes that the block takes. -/
theorem streamEventRowsComplete : Obligations.StreamEventRowsComplete := by
  unfold Obligations.StreamEventRowsComplete
  constructor
  case left =>
    rintro s d rfl port binding p b st
    have hp : p < 6 := port.isLt
    have hb : b < 4 := binding.isLt
    refine ⟨fun f hframe hopen hdue => effect_of (lineTimeout_due hframe hopen hdue), ?closing, ?hotplug, ?replug,
      fun hset hused hidle hon hdue hclosing => effect_of (absentExpire_due hset hused hidle hon hdue hclosing), ?commands⟩
    case closing =>
      intro f fs hclosing hdrained
      exact ⟨fun hnew => effect_clear (closeDrained_first hclosing hdrained hnew),
        fun hrecorded => effect_clear (recordDone_first hclosing hdrained hrecorded)⟩
    case hotplug =>
      exact fun hplug => ⟨fun hlow hused hattached => effect_of (hotplugFall_low hplug hlow hused hattached),
        fun hhigh hdetached => effect_of (hotplugRise_high hplug hhigh hdetached)⟩
    case replug =>
      intro hwaits hhigh hdue
      have hexpires := replugExpire_due hwaits hhigh hdue
      refine ⟨fun hlist => effect_of (hexpires.trans (if_pos (by simpa using hlist))),
        fun hnone => effect_of (hexpires.trans (if_neg ?_))⟩
      rcases hnone with hoff | hstabled
      · simp [hoff]
      · simp [hstabled]
    case commands =>
      rintro who e rfl -
      refine ⟨fun buffers hput => ?release, fun hput hfailed => ?again, fun value hput hoff hen hmay => ?enable⟩
      case release =>
        obtain ⟨hbits, hreplug⟩ := releaseWord_fields buffers
        refine effect_kPort hp (by omega) hput (by omega) (by omega) fun m => ?_
        rw [blockWrite_streamCmd hp hb, hbits, hreplug]
        rfl
      case again =>
        refine effect_kPort hp (by omega) hput (by omega) (by omega) fun m => ?_
        rw [blockWrite_streamCmd hp hb]
        exact congrArg some (if_pos hfailed)
      case enable =>
        have hword : value.toNat % 2 ^ 32 = value.toNat := Nat.mod_eq_of_lt value.isLt
        refine effect_kPort (off := 0x100 + 0x40 * b + 0) hp (by omega) hput (by omega) (by omega) fun m => ?_
        rw [hword]
        exact (blockWrite_bindCtrl hp hb).trans (congrArg some (bindWrite_enables hoff hen hmay))
  case right =>
    rintro s d rfl output
    refine ⟨?_, fun t hpulse hdue => effect_of (fsyncEnd_due hpulse hdue)⟩
    rintro who value e rfl - hput k e1 hwas hon hfree
    have hword : value.toNat % 2 ^ 32 = value.toNat := Nat.mod_eq_of_lt value.isLt
    refine effect_block hput (rk_mod4 _ _ _ (by omega)) ?_ ?_ ?_
    · rw [kInk, rk_off _ _ _ (by omega)]; omega
    · rw [kInk, rk_ty (by decide) (by omega)]; exact fun hrearm => absurd hrearm.1 (by decide)
    · rw [hword, blockWrite_fsyncCtrl output.isLt]
      exact congrArg some (fsyncCtrl_begins rfl hwas hon hfree)

end Sys2Proof.Machine

/-! ## Jobs of the vision engines (R364, R366, R372, R375, R390, R398, R403, R409) -/

namespace Sys2Proof.Machine

section
variable {d : Dev} {u : Nat} {r : Running}

/-! ### The start and the end of a job (R364, R366) -/

/-- Reading goes on while no access was refused and none is held. -/
theorem Load.ok_iff {l : Load} : l.ok = true ↔ l.fail = false ∧ l.held = false := by simp [Load.ok]

/-- The 64-bit words of a descriptor of `n` bytes. -/
def jobWords (n : Nat) (bs : List PByte) : List Nat :=
  (List.range (n / 8)).map (fun i => leNat (((bs.map (·.1)).drop (8 * i)).take 8))

/-- A job that is new to its engine, whose descriptor is read whole and passes the check, keeps the words. -/
theorem jobStart_checked {n : Nat} {check : List Nat → Nat} {x : List PByte × Load} (hjob : jobOf d u = some r)
    (hread : loadPieces u (runAccess d u r false) (bytePieces r.image.job n) { d := d } = x)
    (hnew : (getEng d u).serial ≠ r.serial) (haligned : r.image.job % 64 = 0) (hok : x.2.ok = true)
    (hclean : x.1.any (·.2) = false) (hcheck : check (jobWords n x.1) = 0) :
    jobStart u n check d =
      setEng u { serial := r.serial, words := jobWords n x.1 } (setEng u { serial := r.serial } x.2.d) := by
  obtain ⟨hfail, hheld⟩ := Load.ok_iff.mp hok
  rw [jobWords] at hcheck ⊢
  simp only [jobStart, hjob, hnew, haligned, hread, hheld, hfail, hclean, hcheck, ne_eq, not_true_eq_false, Bool.false_eq_true,
    if_false, if_true]

/-- Each engine starts its jobs with the length and the check of its kind. -/
theorem engineStart_kind : ∀ k : Fin 10, ∃ check, [pyrCheck, wrpCheck, strCheck, flwCheck, ftrCheck][k.val / 2]? = some check ∧
    engineStart (0x48 + k.val) = jobStart (0x48 + k.val) (if k.val < 2 then 192 else 128) check
  | 0 | 1 => ⟨pyrCheck, rfl, rfl⟩
  | 2 | 3 => ⟨wrpCheck, rfl, rfl⟩
  | 4 | 5 => ⟨strCheck, rfl, rfl⟩
  | 6 | 7 => ⟨flwCheck, rfl, rfl⟩
  | 8 | 9 => ⟨ftrCheck, rfl, rfl⟩

/-- A job that is done ends its run. -/
theorem jobEnd_done (hjob : jobOf d u = some r) (hserial : (getEng d u).serial = r.serial) (hdone : (getEng d u).done = true) :
    jobEnd u d =
      setRun u (some { r with ended := some { unit := u, poison := (getEng d u).poison } }) (bump (kEng u 0x050) d) := by
  simp only [jobEnd, hjob, hserial, hdone, decide_true, Bool.and_self, if_true]

/-! ### Jobs whose inputs are read -/

variable {ws : List Nat} {parity : List Nat} (hopen : openJob d u = some (r, ws))
include hopen

/-- A pyramid job writes its levels (R372). -/
theorem pyrRun_loaded : let x := pyrLoad u r ws parity d
    x.2.ok = true →
    pyrRun u parity d = jobDone u (pyrSteps (pyrJob ws)) (pyrWrites u r ws x.1 (poisonIn u x.2 x.2.d)) := by
  intro x hok
  simp only [pyrRun, hopen]
  exact afterLoad_ok d _ hok

/-- A warp job writes its rectangle, and counts the tiles that are not fast (R375, R378). -/
theorem wrpRun_loaded : let x := wrpLoad u r ws parity d
    let tiles := wrpTiles (wrpJob ws) x.1.1
    x.2.ok = true →
    wrpRun u parity d = jobDone u (wrpSteps tiles) (bumpBy (kEng u 0x080) (tiles.filter (fun t => !t.2)).length
      (wrpWrites u r ws x.1.1 x.1.2 (poisonIn u x.2 x.2.d))) := by
  intro x tiles hok
  simp only [wrpRun, hopen]
  exact afterLoad_ok d _ hok

/-- A stereo job writes its disparities (R390). -/
theorem strRun_loaded : let x := strLoad u r ws parity d
    x.2.ok = true →
    strRun u parity d = jobDone u (strSteps (strJob ws))
      (strWrites u r ws x.1.1 x.1.2.1 x.1.2.2.1 x.1.2.2.2 (poisonIn u x.2 x.2.d)) := by
  intro x hok
  simp only [strRun, hopen]
  exact afterLoad_ok d _ hok

/-- A flow job writes its vectors (R398). -/
theorem flwRun_loaded : let x := flwLoad u r ws parity d
    x.2.ok = true →
    flwRun u parity d = jobDone u (flwSteps (flwJob ws))
      (flwWrites u r ws x.1.1 x.1.2.1 x.1.2.2 (poisonIn u x.2 x.2.d)) := by
  intro x hok
  simp only [flwRun, hopen]
  exact afterLoad_ok d _ hok

/-- A DETECT job writes its features (R403). -/
theorem detectRun_loaded (hop : (ftrJob ws).op = 0) : let x := detectLoad u r ws parity d
    x.2.ok = true →
    detectRun u parity d = jobDone u (detectSteps (ftrJob ws) (featsOut (ftrJob ws) (featsOf (ftrJob ws) x.1)).1.length)
      (detectWrites u r ws x.1 (poisonIn u x.2 x.2.d)) := by
  intro x hok
  have hdetect : ¬ (ftrJob ws).op ≠ 0 := fun hother => hother hop
  simp only [detectRun, hopen, if_neg hdetect]
  exact afterLoad_ok d _ hok

/-- A MATCH job with counts that it takes writes its matches (R409). -/
theorem matchRun_loaded (hop : (ftrJob ws).op = 1) : let c := matchCounts u r ws parity d
    let x := matchLoad u r ws c.1.1 c.1.2 c.2 d
    c.2.ok = true → c.1.1 ≤ 65536 → c.1.2 ≤ 65536 → x.2.ok = true →
    matchRun u parity d = jobDone u (matchSteps c.1.1 c.1.2)
      (matchWrites u r ws c.1.1 c.1.2 x.1.1 x.1.2 (poisonIn u x.2 x.2.d)) := by
  intro c x hcounted hqueries htrains hok
  obtain ⟨hfail, hheld⟩ := Load.ok_iff.mp hcounted
  have hfew : ¬ (decide (65536 < c.1.1) || decide (65536 < c.1.2)) = true := by simpa using ⟨hqueries, htrains⟩
  have hmatch : ¬ (ftrJob ws).op ≠ 1 := fun hother => hother hop
  simp only [matchRun, hopen, if_neg hmatch, hfail, hheld, Bool.false_eq_true, if_false, if_neg hfew, c]
  exact afterLoad_ok d _ hok

end

/-- Settles O28: a job whose descriptor is read whole and passes its engine's check starts with its words, one whose inputs are
read goes on to its outputs, and one that is done ends its run. -/
theorem engineRowsComplete : Obligations.EngineRowsComplete := by
  unfold Obligations.EngineRowsComplete
  rintro s d rfl
  constructor
  case left =>
    rintro engine r u rfl hjob
    refine ⟨?start, fun hserial hdone => effect_of (jobEnd_done hjob hserial hdone)⟩
    case start =>
      intro n l ws hnew haligned hok hclean hcheck
      obtain ⟨check, hkind, hstart⟩ := engineStart_kind engine
      rw [hkind, Option.map_some, Option.some_inj] at hcheck
      refine effect_clear (f := engineStart (0x48 + engine.val)) ?_
      rw [hstart]
      exact jobStart_checked hjob rfl hnew haligned hok hclean hcheck
  case right =>
    intro inst parity r ws read
    refine ⟨?pyramid, ?warp, ?stereo, ?flow, ?features⟩
    case pyramid => rintro u rfl hopen x hok; exact effect_clear (pyrRun_loaded hopen hok)
    case warp => rintro u rfl hopen x tiles hok; exact effect_clear (wrpRun_loaded hopen hok)
    case stereo => rintro u rfl hopen x hok; exact effect_clear (strRun_loaded hopen hok)
    case flow => rintro u rfl hopen x hok; exact effect_clear (flwRun_loaded hopen hok)
    case features =>
      rintro u rfl hopen
      exact ⟨fun hop hok => effect_clear (detectRun_loaded hopen hop hok),
        fun hop hcounted hqueries htrains hok => effect_clear (matchRun_loaded hopen hop hcounted hqueries htrains hok)⟩

end Sys2Proof.Machine

/-! ## Commands of graphs (R411, R413, R414, R417, R436) -/

namespace Sys2Proof.Machine

section
variable {d e : Dev} {g : Nat}

/-- With no error armed in the sequencer a cached table is used as it stands (R436). -/
theorem useTable_clear (hcorrected : armed d T.FGS 0 0 0 = none) (hfatal : armed d T.FGS 0 0 1 = none) (g : Nat) :
    useTable g d = d := by
  simp only [useTable, hcorrected, hfatal, Option.any_none, Bool.false_eq_true, if_false]

/-! ### LOAD (R413) -/

section
variable {addr base : Nat} (hrunning : (getGraph d g).stage ≠ .running) (hstopping : (getGraph d g).stage ≠ .stopping)
include hrunning hstopping

/-- LOAD waits for a read of the table's header that is held (R171, R189). -/
theorem graphLoad_headerHeld (hbacked : (graphBacking d).isSome = true) (hheld : readLines addr 4 d = (none, e)) :
    graphLoad g addr d = graphHold 1 g addr e := by
  obtain ⟨base, hbase⟩ := Option.isSome_iff_exists.mp hbacked
  simp only [graphLoad, hrunning, hstopping, hbase, hheld, decide_false, Bool.or_self, Bool.false_eq_true, if_false]

section
variable {hdr raw : List Byte} {bad : Bool} {e2 : Dev} (hbase : graphBacking d = some base)
  (hheader : readLines addr 4 d = (some (hdr, false), e)) (hgood : badHeader hdr = false)
  (hlines : readLines addr (fieldAt hdr 8 4 / 64) d = (some (raw, bad), e2)) (hchecked : loadCheck e2 raw bad = (0, 0))
include hbase hheader hgood hlines hchecked

/-- LOAD of a table that passes its checks waits while the backing of its slot is offline (R436). -/
theorem graphLoad_backingDown (hdown : backingUp d g (fieldAt hdr 8 4) = false) :
    graphLoad g addr d = graphWait 1 g addr e2 := by
  simp only [graphLoad, hrunning, hstopping, hbase, hheader, hgood, hlines, hchecked, hdown, decide_false, Bool.or_self,
    Bool.not_false, Bool.false_eq_true, if_false, if_true, ne_eq, not_true]

/-- LOAD of a table that passes its checks copies it to the backing of its slot and caches it there. -/
theorem graphLoad_checked (hup : backingUp d g (fieldAt hdr 8 4) = true) : graphLoad g addr d =
    (let t := parseTable raw
     let f := updGraph g (fun _ => { stage := .loaded, table := some t })
       (ownWrite { who := .fgs, cmp := 0, write := true } (base + g * 0x10000) raw e2).2
     graphResult 0 0 (wr (kG g 0x040) (graphStatus f g) (wr (kG g 0x0A0) t.len (wr (kG g 0x0A4) t.check f)))) := by
  simp only [graphLoad, hrunning, hstopping, hbase, hheader, hgood, hlines, hchecked, hup, decide_false, Bool.or_self,
    Bool.not_true, Bool.false_eq_true, if_false, ne_eq, not_true]

end

end

/-! ### START, STOP, UNLOAD and TRIGGER (R411, R414, R417) -/

/-- START without a handover of a loaded graph that is not periodic, whose table is read whole and without poison. -/
theorem graphStart_loaded {base : Nat} {raw : List Byte} (hloaded : (getGraph d g).stage = .loaded)
    (htrigger : (tableOf d g).trigger ≠ 0) (hbase : graphBacking d = some base)
    (hup : backingUp d g (tableOf d g).len = true)
    (hlines : readLines (base + g * 0x10000) ((tableOf d g).len / 64) d = (some (raw, false), e)) :
    graphStart g none d = graphResult 0 0 (pump g (watchTrigger g (armAhead g (wr64 (kG g 0x048) 0
      (updGraph g (fun y => { y with stage := .running, seq := 0, last := (tableOf d g).maxFrames - 1, source := none }) e))))) := by
  have hstage : ¬ (getGraph d g).stage ≠ .loaded := fun hother => hother hloaded
  have hentry : ¬ (decide ((tableOf d g).trigger = 0) && decide (256 ≤ ttPeriodic d)) = true := by simp [htrigger]
  have honline : ¬ (!backingUp d g (tableOf d g).len) = true := by simp [hup]
  rw [graphStart, if_neg hstage, if_neg (by simp), if_neg hentry, if_neg honline, hbase]
  dsimp only
  rw [hlines]
  dsimp only
  rw [if_neg Bool.false_ne_true, if_neg htrigger]

/-- STOP of a running graph. -/
theorem graphStop_running (hrunning : (getGraph d g).stage = .running) : graphStop g d =
    graphResult 0 0 (pump g (updGraph g (fun x => { x with stage := .stopping, source := none }) d)) :=
  if_pos hrunning

/-- UNLOAD of a loaded graph. -/
theorem graphUnload_loaded (hloaded : (getGraph d g).stage = .loaded) : graphUnload g d = graphResult 0 0
    (wr (kG g 0x0A0) 0 (wr (kG g 0x0A4) 0 (wr (kG g 0x040) 0 (updGraph g (fun _ => {}) d)))) := by
  simp only [graphUnload, hloaded]

/-- TRIGGER of a running graph. -/
theorem graphTrigger_running (hrunning : (getGraph d g).stage = .running) :
    graphTrigger g d = graphResult 0 0 (trigger g (tick d) (degraded d) none d) :=
  if_pos hrunning

/-! ### The command register -/

/-- While no command waits and no error shows in the cached table, each code of GRAPH_CMD is the command of its name on the
graph slot that the command registers select. -/
theorem graphCmd_acts (hidle : rdB d (kF 0 0x050) 31 = false) (hg : rdF d (kF 0 0x048) 5 0 = g) (htable : useTable g d = d) :
    graphCmd 1 d = graphLoad g (rd64 d (kF 0 0x058) % 2 ^ 48) d ∧ graphCmd (startWord none) d = graphStart g none d ∧
    graphCmd 3 d = graphStop g d ∧ graphCmd 4 d = graphUnload g d ∧ graphCmd 5 d = graphTrigger g d := by
  have hbusy : ¬ rdB d (kF 0 0x050) 31 = true := by simp [hidle]
  have hnone : ¬ bit (startWord none) 22 = true := by decide
  simp only [graphCmd, if_neg hbusy, hg, htable, if_neg hnone]
  -- As variables the commands stay closed: the kernel would otherwise compare their bodies with the choice among them.
  generalize graphLoad g _ d = load, graphStart g none d = start, graphStop g d = stop, graphUnload g d = unload,
    graphTrigger g d = trigger
  exact ⟨rfl, rfl, rfl, rfl, rfl⟩

/-- GRAPH_CMD acts by its own rule. -/
theorem blockWrite_graphCmd (w : Who) (m v : Nat) (d : Dev) : blockWrite w m (kF 0 0x04C) v d = some (graphCmd v d) := rfl

end

/-- A row that writes a command to GRAPH_CMD. -/
theorem effect_graphReg {s : State} {w : Who} {v : Nat} {e : Dev} (hv : v < 2 ^ 32)
    (hput : mayPut s.begins w (kF 0 0x04C) v = true) (hcmd : graphCmd v (touched w s.begins) = e) :
    effect (graphReg w v) s = .next (s.ends e) :=
  effect_block hput (by decide) (by decide) (by decide) (by rw [Nat.mod_eq_of_lt hv, blockWrite_graphCmd, hcmd])

/-- A row that writes a command to GRAPH_CMD, where nothing befalls the accesses of the command. -/
theorem effect_clearGraphReg {s : State} {w : Who} {v : Nat} {e : Dev} (hv : v < 2 ^ 32)
    (hput : mayPut s.begins w (kF 0 0x04C) v = true) (hcmd : graphCmd v (touched w s.begins) = e) :
    effect (fun d => graphReg w v (onWay .clear d)) s = .next (s.ends e) :=
  (effect_clear rfl).trans (effect_graphReg hv hput hcmd)

/-- Settles O29: the rows are writes of GRAPH_CMD that the block takes. With no command waiting and no error armed each code is
the command of its name, which acts on a graph in its stage as that command's rule says. -/
theorem graphCommandRowsComplete : Obligations.GraphCommandRowsComplete := by
  unfold Obligations.GraphCommandRowsComplete
  rintro s who d rfl hidle hcorrected hfatal g
  obtain ⟨hload, hstart, hstop, hunload, htrigger⟩ := graphCmd_acts hidle (g := g) rfl (useTable_clear hcorrected hfatal g)
  refine ⟨?load, ?held, ?start,
    fun hput hrunning => effect_graphReg (by decide) hput (hstop.trans (graphStop_running hrunning)),
    fun hput hloaded => effect_graphReg (by decide) hput (hunload.trans (graphUnload_loaded hloaded)),
    fun hput hrunning => effect_graphReg (by decide) hput (htrigger.trans (graphTrigger_running hrunning))⟩
  case load =>
    rintro base hdr raw bad e e2 e3 addr rfl hput hrunning hstopping hbase hheader hgood hlines hchecked
    refine ⟨?stored, fun hdown => effect_clearGraphReg (by decide) hput (hload.trans
      (graphLoad_backingDown hrunning hstopping hbase hheader hgood hlines hchecked hdown))⟩
    case stored =>
      rintro hup rfl
      exact effect_clearGraphReg (by decide) hput (hload.trans
        (graphLoad_checked hrunning hstopping hbase hheader hgood hlines hchecked hup))
  case held =>
    rintro e addr rfl hput hrunning hstopping hbacked hheld
    exact effect_clearGraphReg (by decide) hput (hload.trans (graphLoad_headerHeld hrunning hstopping hbacked hheld))
  case start =>
    intro base raw e hput hloaded htriggered hbase hup hlines
    exact effect_clearGraphReg (by decide) hput (hstart.trans (graphStart_loaded hloaded htriggered hbase hup hlines))

end Sys2Proof.Machine

/-! ## Events of graphs (R417, R419 to R421, R427, R430, R433, R436) -/

namespace Sys2Proof.Machine

section
variable {d : Dev}

/-- The oldest event on its way to the sequencer, when it is of the kind that arrives, reaches the graphs that take an input
from its stream. -/
theorem eventArrives_first {arrives : FgsEvent → Option (Nat → Nat → Dev → Dev)} {e : FgsEvent} {rest : List FgsEvent}
    {f : Nat → Nat → Dev → Dev} (hevents : d.fgs.events = e :: rest) (hkind : arrives e = some f) :
    eventArrives arrives d = each (listeners d e.stream) (fun x d => f x.1 x.2 (useTable x.1 d))
      { d with fgs := { d.fgs with events := rest } } := by
  simp only [eventArrives, hevents, hkind]

/-- The oldest report of the depot is applied. -/
theorem reportArrives_first {r : Report} {rest : List Report} (hreports : d.fgs.reports = r :: rest) :
    reportArrives d = applyReport r { d with fgs := { d.fgs with reports := rest } } := by
  simp only [reportArrives, hreports]

/-- The oldest finding of the integrity block is applied. -/
theorem findingArrives_first {x : Finding} {rest : List Finding} (hfindings : d.fgs.findings = x :: rest) :
    findingArrives d = applyFinding x { d with fgs := { d.fgs with findings := rest } } := by
  simp only [findingArrives, hfindings]

/-- Where no open ticket's window is over, the end of a joining window only gives up the held frames whose time is over. -/
theorem joinExpire_noneOpen {g : Nat} (hcorrected : armed d T.FGS 0 0 0 = none) (hfatal : armed d T.FGS 0 0 1 = none)
    (hopen : framesWhere d g (fun f => f.stage = .opened && decide (f.time + (tableOf d g).joinWindow < tick d)) = []) :
    joinExpire g d = pump g (dropHeld g (fun h => decide (h.till < tick d)) d) := by
  have htable : ∀ b, doIf b (useTable g) d = d := fun b => by rw [doIf, useTable_clear hcorrected hfatal, ite_self]
  simp only [joinExpire, htable, hopen, each, List.foldl_nil]

/-- A ticket under the policy ABANDON that is open at its deadline and grace is abandoned. -/
theorem abandonDue_late {g f : Nat} (hpolicy : (tableOf d g).policy = 2) (hopen : (getFrame d g f).stage = .opened)
    (hlate : (getFrame d g f).time + (tableOf d g).deadline + (tableOf d g).grace ≤ tick d) :
    abandonDue g f d = abandonFrame g f d :=
  if_pos (by simp [hpolicy, hopen, hlate])

/-- A command that waits is tried again, as if it were given anew. -/
theorem graphRetry_waiting {w : GraphWait} (hwaiting : d.fgs.waiting = some w) : graphRetry d =
    (let e := wr (kF 0 0x050) 0 { d with fgs := { d.fgs with waiting := none } }
     if w.cmd = 1 then graphLoad w.graph w.addr e
     else graphStart w.graph (if bit w.cmd 22 then some (fld w.cmd 21 16) else none) e) := by
  simp only [graphRetry, hwaiting]

end

/-- Settles O30: each row comes to the sequencer's rule of its name, under the guards with which that rule acts. -/
theorem graphEventRowsComplete : Obligations.GraphEventRowsComplete := by
  unfold Obligations.GraphEventRowsComplete
  rintro s d rfl
  refine ⟨fun rest p b time num buf degr hevents =>
      effect_of (eventArrives_first (f := fun g k => frameStart g k buf time degr) hevents rfl),
    fun rest p b status record buf hevents =>
      effect_of (eventArrives_first (f := fun g k => frameEnd g k buf status record) hevents rfl),
    fun rest p b time record degr hevents =>
      effect_of (eventArrives_first (f := fun g k => absentTicket g k time degr) hevents rfl),
    fun r rest hreports => effect_of (reportArrives_first hreports),
    fun x rest hfindings => effect_of (findingArrives_first hfindings),
    fun graph hcorrected hfatal hopen => effect_of (joinExpire_noneOpen hcorrected hfatal hopen),
    fun graph frame hpolicy hopen hlate => effect_of (abandonDue_late hpolicy hopen hlate),
    fun w hwaiting => effect_clear (graphRetry_waiting hwaiting)⟩

end Sys2Proof.Machine

/-! ## Steps, the queue and rest -/

namespace Sys2Proof.Machine

/-! ### The queue of commands -/

/-- The effect of a command keeps the queue. -/
theorem exec_keeps_queue (c : Instr) (s : State) : ∃ d, exec c s = .next { s with dev := d } := by
  obtain ⟨f, hf⟩ := exec_effect c s
  exact ⟨settle (f s.begins), hf⟩

/-- A step takes one command from the queue and leaves the others. -/
theorem step_drops_one (s : State) : ∃ d, step s = .next { dev := d, pending := s.pending.drop 1 } := by
  unfold step
  split
  case h_1 hnone =>
    exact ⟨s.dev, by rw [hnone, List.drop_nil, ← hnone]⟩
  case h_2 c rest hfront =>
    obtain ⟨d, hd⟩ := exec_keeps_queue c { s with pending := rest }
    exact ⟨d, by rw [hd, hfront, List.drop_one, List.tail_cons]⟩

/-- A run goes on from the state that a step answers. -/
theorem run_next {M : Host.Core} {s t : M.State} (n : Nat) (h : M.step s = .next t) : M.run (n + 1) s = M.run n t := by
  simp only [Host.Core.run, h]

/-- So many steps take so many commands from the queue. -/
theorem run_drops (n : Nat) (s : State) :
    ∃ d, Host.Core.run Sys2Proof.core n s = .next { dev := d, pending := s.pending.drop n } := by
  induction n generalizing s with
  | zero => exact ⟨s.dev, rfl⟩
  | succ n ih =>
    obtain ⟨d, hd⟩ := step_drops_one s
    obtain ⟨e, he⟩ := ih { dev := d, pending := s.pending.drop 1 }
    rw [List.drop_drop, Nat.add_comm] at he
    exact ⟨e, (run_next (M := Sys2Proof.core) n hd).trans he⟩

/-- Settles O44: the two branches of a step. -/
theorem stepRunsTheFrontCommand : Obligations.StepRunsTheFrontCommand := by
  unfold Obligations.StepRunsTheFrontCommand
  intro s
  exact ⟨fun c rest hfront => by simp only [step, hfront], fun hnone => by simp only [step, hnone]⟩

/-- Settles O45: each row is an effect on the module alone, and by induction on the number of steps. -/
theorem commandsRunInOrder : Obligations.CommandsRunInOrder := by
  unfold Obligations.CommandsRunInOrder
  exact ⟨exec_keeps_queue, run_drops⟩

/-! ### A module at rest -/

section
variable {d : Dev}

/-- A write of another module to the host that is acknowledged or has failed: its answer is relayed (R527). -/
def relayRipe (f : Flight) : Bool := (match f.who with
  | .drawbar _ _ => true
  | _ => false) && f.st ≠ .pending

/-- With no write of another module ended, no answer is relayed. -/
theorem relayEnds_rest (h : ∀ f ∈ d.net.flights, relayRipe f = false) : relayEnds d = d := by
  have hnone : d.net.flights.filter relayRipe = [] := List.filter_eq_nil_iff.mpr fun f hf => by simp [h f hf]
  have hall : d.net.flights.filter (fun f => !relayRipe f) = d.net.flights :=
    List.filter_eq_self.mpr fun f hf => by simp [h f hf]
  show each (d.net.flights.filter relayRipe) _
    { d with net := { d.net with flights := d.net.flights.filter (fun f => !relayRipe f) } } = d
  rw [hnone, hall]
  rfl

/-- With no packet waiting, none is tried again. -/
theorem serveStalled_rest (h : d.dbr.stalled = []) : serveStalled d = d := by
  have hsame : { d with dbr := { d.dbr with stalled := [] } } = d := by rw [← h]
  rw [serveStalled, hsame, h]
  rfl

/-- With no error armed in INT, no sample is lost. -/
theorem sampleUe_rest (h : armed d T.INT 0 0 1 = none) : sampleUe d = d := by
  simp only [sampleUe, h, Option.isNone_none, if_true]

/-- With no action left and nobody waiting, there is nothing to carry out. -/
theorem settleLoop_rest (n : Nat) (htodo : d.todo = []) (hbrakes : d.dpt.brakes = []) (hinbox : d.hst.inbox = []) :
    settleLoop n d = d := by
  cases n with
  | zero => rfl
  | succ n => simp [settleLoop, htodo, brakeReady, firstReady, hbrakes, hostReadyNow, hinbox]

/-- With no core due, none is woken. -/
theorem wakeCores_rest (h : ∀ j ∈ [64, 65, 66, 67], ¬ wfiDue d j) : wakeCores d = d := by
  have hone : ∀ j ∈ [64, 65, 66, 67], wakeCore j d = d := fun j hj => if_neg (by simpa [wfiDue] using h j hj)
  rw [wakeCores_eq]
  simp only [each, List.foldl_cons, List.foldl_nil, hone 64 (by simp), hone 65 (by simp), hone 66 (by simp), hone 67 (by simp)]

/-- A module at rest, taken apart. -/
theorem atRest_parts (h : atRest d = true) :
    d.net.way = .clear ∧ d.todo = [] ∧ d.dpt.brakes = [] ∧ d.hst.inbox = [] ∧ d.dbr.stalled = [] ∧
    (∀ f ∈ d.net.flights, relayRipe f = false) ∧
    armed d T.INT 0 0 1 = none ∧ mgmtNow d = d.mgmt ∧ ∀ j ∈ [64, 65, 66, 67], ¬ wfiDue d j := by
  simp only [atRest, Bool.and_eq_true, decide_eq_true_eq, List.isEmpty_iff, Option.isNone_iff_eq_none, List.all_eq_true] at h
  obtain ⟨⟨⟨⟨⟨⟨⟨⟨hway, htodo⟩, hbrakes⟩, hinbox⟩, hstalled⟩, hflights⟩, harmed⟩, hmgmt⟩, hcores⟩ := h
  refine ⟨hway, htodo, hbrakes, hinbox, hstalled, fun f hf => ?_, harmed, hmgmt, fun j hj hdue => ?_⟩
  · have hfit := hflights f hf
    unfold relayRipe
    cases hwho : f.who <;> cases hst : f.st <;> simp_all
  · have hidle := hcores j hj
    simp [wfiDue] at hdue
    simp [hdue] at hidle

/-- A module at rest changes no further. -/
theorem settle_rest (h : atRest d = true) : settle d = { d with firsts := [], todo := [] } := by
  obtain ⟨hway, htodo, hbrakes, hinbox, hstalled, hflights, harmed, hmgmt, hcores⟩ := atRest_parts h
  have hloop : settleLoop settleFuel (sampleUe (serveStalled (relayEnds d))) = d := by
    rw [relayEnds_rest hflights, serveStalled_rest hstalled, sampleUe_rest harmed, settleLoop_rest _ htodo hbrakes hinbox]
  have halerts : alertsOver (wakeCores d) = d := by rw [wakeCores_rest hcores, alertsOver, hmgmt]
  have hnet : onWay .clear d = d := by rw [onWay, ← hway]
  show { onWay .clear (alertsOver (wakeCores (settleLoop settleFuel (sampleUe (serveStalled (relayEnds d)))))) with
    firsts := [], todo := [] } = _
  rw [hloop, halerts, hnet]

end

/-- Settles O48: the state after reset is evaluated, and at rest each part of settling does nothing. -/
theorem resetIsSettled : Obligations.ResetIsSettled := by
  unfold Obligations.ResetIsSettled
  exact ⟨by unfold Settled; decide, by decide, rfl, fun d => settle_rest⟩

end Sys2Proof.Machine

/-! ## Sampled runs (R450, R451, R453, R473) -/

namespace Sys2Proof.Machine

section
variable {d : Dev} {k : Nat} {x : Sample} {o r t : RunEnd}

/-! ### Verdicts -/

section
variable (hx : getSample d k = some x) (horig : x.orig = some o) (hshadow : x.shadowEnd = some r)
include hx horig hshadow

/-- A run that was aborted, or a shadow that was, cancels the sample. -/
theorem shadowEnd_cancelled (hfirst : x.mismatch = false) (habort : isAbort o.status = true ∨ r.status = 0x20) :
    shadowEnd k d = cancelSample k d := by
  have hends : (isAbort o.status || decide (r.status = 0x20)) = true := by simpa using habort
  simp [shadowEnd, hx, horig, hshadow, hfirst, hends]

section
variable (hfirst : x.mismatch = false) (hgood : isAbort o.status = false) (hran : r.status ≠ 0x20)
include hfirst hgood hran

/-- Runs that have read different data are inconclusive. -/
theorem shadowEnd_inconclusive (hread : o.rd ≠ r.rd) :
    shadowEnd k d = settled k x (ledgerCount x.cmp 0x050 (istat 4 d)) := by
  simp [shadowEnd, hx, horig, hshadow, hfirst, hgood, hran, hread]

/-- Runs that have read and written the same agree. -/
theorem shadowEnd_agrees (hread : o.rd = r.rd) (hwritten : o.wd = r.wd) :
    shadowEnd k d = settled k x (ledgerCount x.cmp 0x028 (istat 2 (conclusive x d))) := by
  simp [shadowEnd, hx, horig, hshadow, hfirst, hgood, hran, hread, hwritten]

/-- Runs that have read the same and written different data mismatch: the sample wants a tiebreak, where a third unit could run
it. -/
theorem shadowEnd_mismatches {v : Nat} (hread : o.rd = r.rd) (hwritten : o.wd ≠ r.wd) (hv : x.shadow = some v)
    (hthird : everEligible d x.queue [x.unit, v] ≠ []) :
    shadowEnd k d = setSample k (some { x with mismatch := true, abandons := 0 })
      (cper { cls := 0x10, block := (unitPage x.unit).1, inst := (unitPage x.unit).2, cmp := some x.cmp, tag := x.image.tag,
              queue := x.queue, unit := x.unit, unit2 := v, detail := x.unit } (flag0 T.INT 0 2 x.unit (istat 3 d))) := by
  have hsome : (everEligible d x.queue ([x.unit] ++ [v])).isEmpty = false := by simpa using hthird
  simp only [shadowEnd, hx, horig, hshadow, hfirst, hgood, hread, hv, hsome, Bool.false_eq_true, if_false, Bool.false_or,
    decide_eq_true_eq, hran, hwritten, ne_eq, not_true, Option.getD_some]

end

section
variable (htie : x.tieEnd = some t)
include htie

/-- The tiebreak has read other data than the original: nobody can be told to be at fault. -/
theorem tiebreakEnd_read (hread : t.rd ≠ o.rd) : tiebreakEnd k d = unresolved k x d := by
  simp [tiebreakEnd, hx, horig, hshadow, htie, hread]

/-- Where the tiebreak has read what the original read, it tells by what it has written who is at fault. -/
theorem tiebreakEnd_written (hread : t.rd = o.rd) : tiebreakEnd k d =
    if t.wd = o.wd then dupAtFault k x d else if t.wd = r.wd then origAtFault k x d else unresolved k x d := by
  simp [tiebreakEnd, hx, horig, hshadow, htie, hread]

end

end

/-! ### An original that is held too long -/

/-- The verdicts that are due on the samples of a queue's slot. -/
def dueVerdicts (q i : Nat) (d : Dev) : Dev :=
  each (samplesWhere d (fun y => y.queue = q && y.slot = i)) (fun y f => giveVerdict y.1 y.2 f) d

/-- The first original that is held too long gets the verdict that is due; where that does not release it, it is released
unchecked. -/
theorem gateExpire_first {q i : Nat} {z : Slot} {rest : List (Nat × Nat × Slot)}
    (hheld : slotsWhere d (fun _ y => gateOver (rd d (kI 0 0x044)) (tick d) y) = (q, i, z) :: rest) :
    gateExpire d =
      (let e := dueVerdicts q i d
       if (getSlot e q i).gated = none then e
       else
        let o := queueOwner e q
        let f := ledgerNote o 0x068 (flag0 T.INT 0 4 o (istat 11 e))
        releaseGate q i false (each (samplesWhere f (fun y => y.queue = q && y.slot = i)) (fun y f => dropSample y.1 f) f)) := by
  simp only [gateExpire, hheld, Option.isNone_iff_eq_none]
  rfl

end

/-- Settles O31: each row is the verdict's rule, in the branch that the two ended runs, or all three, decide. -/
theorem samplingRowsComplete : Obligations.SamplingRowsComplete := by
  unfold Obligations.SamplingRowsComplete
  rintro s d rfl slot x o r hx horig hshadow
  refine ⟨fun hfirst hgood hran => ⟨?inconclusive, ?agrees, ?mismatches⟩, ?cancelled, ?tiebreak, ?gate⟩
  case inconclusive =>
    exact fun hread => effect_of (shadowEnd_inconclusive hx horig hshadow hfirst hgood hran hread)
  case agrees =>
    exact fun hread hwritten => effect_of (shadowEnd_agrees hx horig hshadow hfirst hgood hran hread hwritten)
  case mismatches =>
    rintro hread hwritten v e hv rfl hthird
    exact effect_of (shadowEnd_mismatches hx horig hshadow hfirst hgood hran hread hwritten hv hthird)
  case cancelled => exact fun hfirst habort => effect_of (shadowEnd_cancelled hx horig hshadow hfirst habort)
  case tiebreak =>
    intro t htie
    have hwritten := fun hread => tiebreakEnd_written hx horig hshadow htie hread
    refine ⟨fun hread => effect_of (tiebreakEnd_read hx horig hshadow htie hread), fun hread hsame => effect_of ?_,
      fun hread hother hdup => effect_of ?_, fun hread hother hthird => effect_of ?_⟩
    · rw [hwritten hread, if_pos hsame]
    · rw [hwritten hread, if_neg hother, if_pos hdup]
    · rw [hwritten hread, if_neg hother, if_neg hthird]
  case gate =>
    intro q i z rest hheld
    have hrow := gateExpire_first hheld
    exact ⟨fun hreleased => effect_of (hrow.trans (if_pos hreleased)),
      fun hheldStill => effect_of (hrow.trans (if_neg (Option.isSome_iff_ne_none.mp hheldStill)))⟩

end Sys2Proof.Machine

/-! ## Reads of the retained ring (R477) over a cut route (R191) -/

namespace Sys2Proof.Machine

/-- A read of a register page behind a route that is cut is refused as a decode error (R191). -/
theorem regGet_cut {w : Who} {k n : Nat} {d : Dev} (hw : onChip w = true)
    (hcut : attachCut (pageTouched w d) w (0x40000000 + k) = true) :
    regGet w k n d = answer w (.refused .noRegion)
      (decodeError (pageAcc w false (pageTouched w d)) (0x40000000 + k) (pageTouched w d)) := by
  cases w with
  | host f => simp [onChip] at hw
  | _ => simp only [regGet, hcut, if_true]

/-- The router of CTL0's station has station 6, where INT is reached, as UNREACHABLE. -/
def intUnreachable : State :=
  { State.reset with dev := { Dev.reset with net := { Dev.reset.net with active := [(1 * 64 + 6, 0xC0)] } } }

/-- Refutes O32: RET_STATUS_READ is stated of any requester on the chip that may read the word. CTL0, whose router has the station
of INT as UNREACHABLE, gets a decode error (R191) in place of the count of records. -/
theorem not_integrityRowsComplete : ¬ Obligations.IntegrityRowsComplete := by
  unfold Obligations.IntegrityRowsComplete
  intro h
  obtain ⟨-, hwho, -⟩ := h intUnreachable _ rfl
  obtain ⟨-, -, -, -, hreads⟩ := hwho (.ctl 0) _ rfl
  obtain ⟨hstatus, -⟩ := hreads rfl rfl
  have hclaimed := hstatus (by decide)
  have hanswered : exec (.retStatusRead (.ctl 0)) intUnreachable = .next (intUnreachable.ends
      (answer (.ctl 0) (.refused .noRegion) (decodeError (pageAcc (.ctl 0) false (pageTouched (.ctl 0) intUnreachable.begins))
        (0x40000000 + kI 3 0x064) (pageTouched (.ctl 0) intUnreachable.begins)))) :=
    effect_of (regGet_cut rfl (by decide))
  have hsame := Host.Outcome.next.inj (hanswered.symm.trans hclaimed)
  exact absurd (congrArg (fun t : State => t.dev.rsp) hsame) (by decide)

end Sys2Proof.Machine

/-! ## Background services and telemetry (R481, R482, R491, R493, R495, R497, R499) -/

namespace Sys2Proof.Machine

section
variable {d : Dev}

/-! ### Scrub of the yard (R481, R482) -/

section
variable {c : Nat} (hc : c < 64) (hon : rdB d (kBg 0 0x040) 0 = true) (hen : enabled d T.BGS 0 = true)
  (hdue : rowDue d c = true)
include hc hon hen hdue

/-- The module once a cluster has gone on to its next row. -/
def rowIssued (c row : Nat) (d : Dev) : Dev :=
  let e := updTlm (fun t => { t with
    rows := Map.set (fun _ => 0) t.rows c ((row + 1) % scrubRows)
    paced := Map.set (fun _ => (0, 0)) t.paced c (tick d / 1000, rowsIssued d c + 1) }) d
  if (row + 1) % scrubRows = 0 then bumpWrap (kBg 0 0x048) e else e

/-- A row that is due and is skipped is not read. -/
theorem scrubRow_skipped (hskip : rowSkipped d c (Map.get (fun _ => 0) d.tlm.rows c) = true) :
    scrubRow c d = rowIssued c (Map.get (fun _ => 0) d.tlm.rows c) d := by
  have hno : ¬ 64 ≤ c := by omega
  simp only [scrubRow, rowIssued, hon, hen, hdue, hno, hskip, Bool.not_true, decide_false, Bool.or_self, Bool.false_eq_true,
    if_false, if_true]

/-- A row that is due is read, and its corrected cells wait to be written back. -/
theorem scrubRow_read (hread : rowSkipped d c (Map.get (fun _ => 0) d.tlm.rows c) = false) : scrubRow c d =
    (let row := Map.get (fun _ => 0) d.tlm.rows c
     let first := c * 786432 + row * 32
     let f := (readCells first 32 (rowIssued c row d)).2
     { f with yard := { f.yard with
       scrubbed := f.yard.scrubbed ++ (List.range 32).filterMap (fun i => fixable d (first + i)) } }) := by
  have hno : ¬ 64 ≤ c := by omega
  simp only [scrubRow, rowIssued, hon, hen, hdue, hno, hread, Bool.not_true, decide_false, Bool.or_self, Bool.false_eq_true, if_false]

end

/-- The one cell of a cluster that is to be written back is, unless a write has landed on it since. -/
theorem scrubWrite_one {s i : Nat} {c : Cell39} {w : W32} (hfix : c.decode = .corrected w)
    (hone : d.yard.scrubbed.filter (fun x => stationAt (4 * x.1) = s) = [(i, c)]) :
    scrubWrite s d =
      (let e := { d with yard := { d.yard with scrubbed := d.yard.scrubbed.filter (fun x => stationAt (4 * x.1) ≠ s) } }
       if getCell d i = c then putCell i (goodCell w) e else e) := by
  simp only [scrubWrite, hone, each, List.foldl_cons, List.foldl_nil, hfix, ite_not]
  rfl

/-! ### Margin and aging (R491, R493) -/

/-- The station group with the least of the margins, the lowest-numbered of equals. -/
def leastMargin (ms : List Nat) : Nat :=
  (List.range 16).foldl (fun b i => if min 15 (ms.getD i 0) < min 15 (ms.getD b 0) then i else b) 0

section
variable {ms : List Nat} {g m : Nat} (hprobes : marginProbes d = true) (hdue : d.tlm.probeAt ≤ tick d) (hg : g = leastMargin ms)
  (hm : m = min 15 (ms.getD g 0))
include hprobes hdue hg hm

/-- A margin that is enough: the next probe is an interval away, and a boot that waited for it goes on. -/
theorem marginProbe_enough (henough : fld (rd d (kBg 1 0x040)) 3 0 ≤ m) : marginProbe ms d =
    (let e := wr (kBg 1 0x044) (g * 65536 + m) d
     bootReleased
       (updTlm (fun t => { t with probeAt := tick e + 1000 * fld (rd d (kBg 1 0x040)) 31 16, probing := false }) e)) := by
  subst hm hg
  rw [leastMargin] at *
  simp only [marginProbe, hprobes, if_neg (Nat.not_lt.mpr hdue), Bool.not_true, Bool.false_or, decide_eq_true_eq, henough, if_true]

/-- A short margin raises the floor while that is below its limit, and the next probe is 100 µs away. -/
theorem marginProbe_short (hshort : m < fld (rd d (kBg 1 0x040)) 3 0) (hroom : rdF d (kV 1 0x054) 15 0 < 850) : marginProbe ms d =
    (let e := wr (kBg 1 0x044) (g * 65536 + m) d
     let f := bump (kBg 1 0x048) (flag0 T.GOV 0 7 0 (limited false (wr (kV 1 0x054) (min 850 (rdF d (kV 1 0x054) 15 0 + 5))) e))
     updTlm (fun t => { t with probeAt := tick f + 100 }) f) := by
  subst hm hg
  rw [leastMargin] at *
  simp only [marginProbe, hprobes, if_neg (Nat.not_lt.mpr hdue), Bool.not_true, Bool.false_or, decide_eq_true_eq,
    if_neg (Nat.not_le.mpr hshort), hroom, if_true]

end

/-- The measurement that is due stores the slowdown of each station, and flags those above the limit. -/
theorem agingMeasure_due {ppm : List Nat} (hon : rdB d (kBg 0 0x040) 2 = true) (hdue : d.tlm.ageAt ≤ tick d) :
    agingMeasure ppm d =
      each (List.range 64) (fun t e =>
        let v := min 65535 (ppm.getD t 0)
        let e2 := wr (kBg 1 (0x050 + 4 * t)) v e
        if fld (rd d (kBg 1 0x04C)) 15 0 < v then flag0 T.BGS 0 4 t e2 else e2)
        (updTlm (fun t => { t with ageAt := tick d + 1000000 * fld (rd d (kBg 1 0x04C)) 31 16 }) d) := by
  simp only [agingMeasure, hon, if_neg (Nat.not_lt.mpr hdue), Bool.not_true, Bool.false_or, decide_eq_true_eq]

/-! ### Words stored one after another -/

/-- `n` words are stored one after another, each at its key with its value. -/
def storeWords (n : Nat) (key : Nat → Nat) (val : Nat → Dev → Nat) (d : Dev) : Dev :=
  foldBelow n (fun i d => wr (key i) (val i d) d) d

section
variable {n : Nat} {key : Nat → Nat} {val : Nat → Dev → Nat}

theorem storeWords_zero (d : Dev) : storeWords 0 key val d = d := rfl

theorem storeWords_succ (d : Dev) :
    storeWords (n + 1) key val d = wr (key n) (val n (storeWords n key val d)) (storeWords n key val d) := by
  simp only [storeWords, foldBelow, List.range_succ, List.foldl_append, List.foldl_cons, List.foldl_nil]

/-- Storing words changes registers alone. -/
theorem storeWords_regs (d : Dev) : ∃ r, storeWords n key val d = { d with regs := r } := by
  induction n with
  | zero => exact ⟨d.regs, rfl⟩
  | succ n ih =>
    obtain ⟨r, hr⟩ := ih
    exact ⟨_, by rw [storeWords_succ, hr, wr]⟩

/-- A word at none of the keys stays. -/
theorem rd_storeWords_other {k : Nat} (h : ∀ i < n, k ≠ key i) (d : Dev) : rd (storeWords n key val d) k = rd d k := by
  induction n with
  | zero => rfl
  | succ n ih => rw [storeWords_succ, rd_wr_other _ _ (h n (by omega)), ih fun i hi => h i (by omega)]

/-- What no stored word decides is as it was. -/
theorem storeWords_val {α : Type} {f : Dev → α} (h : ∀ i < n, ∀ v d, f (wr (key i) v d) = f d) (d : Dev) :
    f (storeWords n key val d) = f d := by
  induction n with
  | zero => rfl
  | succ n ih => rw [storeWords_succ, h n (by omega), ih fun i hi => h i (by omega)]

/-- A stored word reads as its value, where the keys differ and no stored word decides another's value. -/
theorem rd_storeWords (hkeys : ∀ i < n, ∀ j < n, key i = key j → i = j)
    (hvals : ∀ i < n, ∀ j < n, ∀ v d, val i (wr (key j) v d) = val i d) {i : Nat} (hi : i < n) (d : Dev) :
    rd (storeWords n key val d) (key i) = val i d % 2 ^ 32 := by
  induction n with
  | zero => omega
  | succ n ih =>
    rw [storeWords_succ]
    by_cases hlast : i = n
    · subst hlast
      rw [rd_wr_same, storeWords_val fun j hj => hvals i hi j (by omega)]
    · rw [rd_wr_other _ _ fun h => hlast (hkeys i hi n (by omega) h),
        ih (fun a ha b hb => hkeys a (by omega) b (by omega)) (fun a ha b hb => hvals a (by omega) b (by omega)) (by omega)]

end

/-! ### Words of the TLM pages -/

theorem kTl_inj {p q o n : Nat} (ho : o < 0x1000) (hn : n < 0x1000) : kTl p o = kTl q n ↔ p = q ∧ o = n := by
  unfold kTl rk; omega

theorem kV_ne_kTl {p q o n : Nat} (hp : p < 2) (ho : o < 0x1000) : kV p o ≠ kTl q n := by
  have hty : T.GOV = 0x03 ∧ T.TLM = 0x15 := ⟨rfl, rfl⟩
  unfold kV kTl rk; omega

theorem kS_ne_kTl {p o q n : Nat} (hp : p < 4) (ho : o < 0x1000) : kS p 0 o ≠ kTl q n := by
  have hty : T.STK = 0x07 ∧ T.TLM = 0x15 ∧ pagesPer T.STK = 2 := ⟨rfl, rfl, rfl⟩
  unfold kS kTl rk
  rw [hty.2.2]
  omega

/-- A 64-bit register is read from its two words. -/
theorem rd64_congr {e : Dev} {k : Nat} (h : rd e k = rd d k) (h4 : rd e (k + 4) = rd d (k + 4)) : rd64 e k = rd64 d k := by
  rw [rd64, h, h4, rd64]

/-! ### Samples (R495) -/

/-- The module once the sample's time and its count are stored. -/
def sampleBegun (d : Dev) : Dev :=
  wr (kTl 0 0x048) (b2n (degraded d) * 2 ^ 31 + (rdF d (kTl 0 0x048) 15 0 + 1) % 65536)
    (wr64 (kTl 0 0x050) (tick d) (updTlm (fun t => { t with sampled := tick d }) d))

/-- The governor's words of a sample. -/
def govWords (d : Dev) : List Nat :=
  [rd d (kV 1 0x048), d.gov.vcmd, rd d (kV 1 0x044), rd d (kV 1 0x058), pressureWord d, rd d (kV 1 0x054)]

/-- The word of a temperature sensor in a sample. -/
def tjWord (k : Nat) (d : Dev) : Nat := if (tjSensors d.part).contains k then rd d (kV 1 (0x060 + 4 * k)) else 0

/-- The word of a stack's temperature in a sample. -/
def stackWord (p : Nat) (d : Dev) : Nat := if p < d.part.stacks then rdF d (kS p 0 0x044) 15 0 else 0

@[simp] theorem updTlm_part (f : TlmState → TlmState) (d : Dev) : (updTlm f d).part = d.part := rfl

theorem sampleBegun_part (d : Dev) : (sampleBegun d).part = d.part :=
  (wr_part _ _ _).trans ((wr64_part _ _ _).trans (updTlm_part _ _))

/-- The words of a sample are those of the governor, of the sensors and of the stacks. -/
def sampleTaken (d : Dev) : Dev :=
  storeWords 4 (fun p => kTl 0 (0x0D0 + 4 * p)) stackWord
    (storeWords 18 (fun k => kTl 0 (0x080 + 4 * k)) tjWord
      (storeWords 6 (fun i => kTl 0 (0x058 + 4 * i)) (fun i _ => (govWords d).getD i 0) (sampleBegun d)))

/-- A sample that is due is taken. -/
theorem tlmSample_due (hdue : d.tlm.sampled + rd d (kTl 0 0x040) ≤ tick d) (hup : tlmUp d = true) :
    tlmSample d = sampleTaken d := by
  simp only [tlmSample, hup, if_neg (Nat.not_lt.mpr hdue), Bool.not_true, Bool.or_false, decide_eq_true_eq]
  rfl

/-- A sample changes registers and what TLM holds, and nothing else. -/
theorem sampleTaken_frame (d : Dev) :
    ∃ r, sampleTaken d = { d with regs := r, tlm := { d.tlm with sampled := tick d } } := by
  obtain ⟨r1, h1⟩ := storeWords_regs (n := 6) (key := fun i => kTl 0 (0x058 + 4 * i))
    (val := fun i _ => (govWords d).getD i 0) (sampleBegun d)
  obtain ⟨r2, h2⟩ := storeWords_regs (n := 18) (key := fun k => kTl 0 (0x080 + 4 * k)) (val := tjWord) { sampleBegun d with regs := r1 }
  obtain ⟨r3, h3⟩ := storeWords_regs (n := 4) (key := fun p => kTl 0 (0x0D0 + 4 * p)) (val := stackWord) { sampleBegun d with regs := r2 }
  exact ⟨r3, by rw [sampleTaken, h1, h2, h3]; rfl⟩

section
variable {o : Nat} (ho : o < 0x1000)
include ho

/-- Words of TLM page 0 outside the stacks' words keep what was stored before these. -/
theorem rd_sampleTaken_tj (h : o < 0x0D0) : rd (sampleTaken d) (kTl 0 o) =
    rd (storeWords 18 (fun k => kTl 0 (0x080 + 4 * k)) tjWord
      (storeWords 6 (fun i => kTl 0 (0x058 + 4 * i)) (fun i _ => (govWords d).getD i 0) (sampleBegun d))) (kTl 0 o) :=
  rd_storeWords_other (fun i hi heq => by have := ((kTl_inj ho (by omega)).mp heq).2; omega) _

/-- Words below the sensors' words keep what was stored before these. -/
theorem rd_sampleTaken_gov (h : o < 0x080) : rd (sampleTaken d) (kTl 0 o) =
    rd (storeWords 6 (fun i => kTl 0 (0x058 + 4 * i)) (fun i _ => (govWords d).getD i 0) (sampleBegun d)) (kTl 0 o) :=
  (rd_sampleTaken_tj ho (by omega)).trans
    (rd_storeWords_other (fun i hi heq => by have := ((kTl_inj ho (by omega)).mp heq).2; omega) _)

/-- Words below the governor's words are those with which the sample begins. -/
theorem rd_sampleTaken_begun (h : o < 0x058) : rd (sampleTaken d) (kTl 0 o) = rd (sampleBegun d) (kTl 0 o) :=
  (rd_sampleTaken_gov ho (by omega)).trans
    (rd_storeWords_other (fun i hi heq => by have := ((kTl_inj ho (by omega)).mp heq).2; omega) _)

end

/-- The tick of a sample. -/
theorem rd64_sampleTaken : rd64 (sampleTaken d) (kTl 0 0x050) = tick d % 2 ^ 64 := by
  have hne : ∀ o, o ≠ 0x048 → o < 0x1000 → rd (sampleBegun d) (kTl 0 o) =
      rd (wr64 (kTl 0 0x050) (tick d) (updTlm (fun t => { t with sampled := tick d }) d)) (kTl 0 o) :=
    fun o ho hlt => rd_wr_other _ _ fun heq => ho ((kTl_inj hlt (by omega)).mp heq).2
  rw [← rd64_wr64_same (updTlm (fun t => { t with sampled := tick d }) d)]
  exact rd64_congr ((rd_sampleTaken_begun (by omega) (by omega)).trans (hne 0x050 (by omega) (by omega)))
    ((rd_sampleTaken_begun (by omega) (by omega)).trans (hne 0x054 (by omega) (by omega)))

/-- The governor's words of a sample. -/
theorem rd_sampleTaken_govWord {i v : Nat} (hi : i < 6) (hv : (govWords d).getD i 0 = v) :
    rd (sampleTaken d) (kTl 0 (0x058 + 4 * i)) = v % 2 ^ 32 := by
  rw [← hv, rd_sampleTaken_gov (by omega) (by omega)]
  exact rd_storeWords (key := fun i => kTl 0 (0x058 + 4 * i)) (val := fun i _ => (govWords d).getD i 0)
    (fun i hi j hj heq => by have := ((kTl_inj (by omega) (by omega)).mp heq).2; omega) (fun _ _ _ _ _ _ => rfl) hi _

/-- What the governor itself holds, and its pressure, in a sample. -/
theorem govWords_held (d : Dev) : (govWords d).getD 1 0 = d.gov.vcmd ∧ (govWords d).getD 4 0 = pressureWord d := by
  simp only [govWords, List.getD_cons_succ, List.getD_cons_zero, and_self]

/-- Words of other blocks than TLM are those of the module that is sampled. -/
theorem rd_sampleBegun {k : Nat} (h : ∀ p o, k ≠ kTl p o) : rd (sampleBegun d) k = rd d k := by
  rw [sampleBegun, rd_wr_other _ _ (h _ _), rd_wr64_other _ _ (h _ _) (h 0 0x054), rd_updTlm]

/-- A sensor's word of a sample. -/
theorem rd_sampleTaken_tjWord {k : Nat} (hk : k < 18) : rd (sampleTaken d) (kTl 0 (0x080 + 4 * k)) = tjWord k d % 2 ^ 32 := by
  have hgov : ∀ p o, kV 1 (0x060 + 4 * k) ≠ kTl p o := fun p o => kV_ne_kTl (by omega) (by omega)
  have hword : ∀ i < 18, ∀ j < 18, ∀ v e, tjWord i (wr (kTl 0 (0x080 + 4 * j)) v e) = tjWord i e := fun i hi j _ v e => by
    rw [tjWord, rd_wr_other _ _ (kV_ne_kTl (by omega) (by omega)), wr_part, tjWord]
  have hbegun : tjWord k (storeWords 6 (fun i => kTl 0 (0x058 + 4 * i)) (fun i _ => (govWords d).getD i 0) (sampleBegun d))
      = tjWord k d := by
    obtain ⟨r, hr⟩ := storeWords_regs (n := 6) (key := fun i => kTl 0 (0x058 + 4 * i))
      (val := fun i _ => (govWords d).getD i 0) (sampleBegun d)
    rw [tjWord, rd_storeWords_other fun i _ => hgov _ _, rd_sampleBegun hgov, hr, sampleBegun_part, tjWord]
  rw [rd_sampleTaken_tj (by omega) (by omega), ← hbegun]
  exact rd_storeWords (key := fun k => kTl 0 (0x080 + 4 * k)) (val := tjWord)
    (fun i hi j hj heq => by have := ((kTl_inj (by omega) (by omega)).mp heq).2; omega) hword hk _

/-- A stack's word of a sample. -/
theorem rd_sampleTaken_stackWord {p : Nat} (hp : p < 4) : rd (sampleTaken d) (kTl 0 (0x0D0 + 4 * p)) = stackWord p d % 2 ^ 32 := by
  have hstk : ∀ q o, kS p 0 0x044 ≠ kTl q o := fun q o => kS_ne_kTl hp (by omega)
  have hword : ∀ i < 4, ∀ j < 4, ∀ v e, stackWord i (wr (kTl 0 (0x0D0 + 4 * j)) v e) = stackWord i e := fun i hi j _ v e => by
    rw [stackWord, rdF, rd_wr_other _ _ (kS_ne_kTl hi (by omega)), wr_part, stackWord, rdF]
  have hbegun : stackWord p (storeWords 18 (fun k => kTl 0 (0x080 + 4 * k)) tjWord
      (storeWords 6 (fun i => kTl 0 (0x058 + 4 * i)) (fun i _ => (govWords d).getD i 0) (sampleBegun d))) = stackWord p d := by
    obtain ⟨r1, h1⟩ := storeWords_regs (n := 6) (key := fun i => kTl 0 (0x058 + 4 * i))
      (val := fun i _ => (govWords d).getD i 0) (sampleBegun d)
    obtain ⟨r2, h2⟩ := storeWords_regs (n := 18) (key := fun k => kTl 0 (0x080 + 4 * k)) (val := tjWord)
      { sampleBegun d with regs := r1 }
    rw [stackWord, rdF, rd_storeWords_other fun i _ => hstk _ _, rd_storeWords_other fun i _ => hstk _ _, rd_sampleBegun hstk,
      h1, h2, sampleBegun_part, stackWord, rdF]
  rw [sampleTaken, ← hbegun]
  exact rd_storeWords (key := fun p => kTl 0 (0x0D0 + 4 * p)) (val := stackWord)
    (fun i hi j hj heq => by have := ((kTl_inj (by omega) (by omega)).mp heq).2; omega) hword hp _

/-! ### Snapshots (R499) -/

section
variable {k w : Nat}

/-- A count that runs on changes its own two words alone. -/
theorem rd_runOn (h : w ≠ k - k % 8) (h4 : w ≠ k - k % 8 + 4) (d : Dev) : rd (runOn k d) w = rd d w := by
  unfold runOn
  split
  · exact rd_wr64_other _ _ h h4
  · rfl

@[simp] theorem wrap64By_tlm (k n : Nat) (d : Dev) : (wrap64By k n d).tlm = d.tlm := wr64_tlm d _ _

@[simp] theorem draw_tlm (d : Dev) : (draw d).2.tlm = d.tlm := rfl

theorem runOn_tlm (k : Nat) (d : Dev) : (runOn k d).tlm = d.tlm := by
  unfold runOn
  split
  · simp only [wrap64By_tlm, draw_tlm]
  · rfl

end

/-- The module once a snapshot is asked for no more, and the counts that run on are brought up to now. -/
def snapBegun (d : Dev) : Dev :=
  runOn (kTl 1 0x078) (runOn (kTl 1 0x058) (wrB (kTl 0 0x044) 31 false (updTlm (fun t => { t with
    snap := d.tlm.snap + 1, asked := false, snapAt := tick d }) d)))

/-- A snapshot's page takes the words of pages 0 and 1, its number and its tick. -/
def snapTaken (page : Nat) (d : Dev) : Dev :=
  wr64 (kTl page 0x040) (d.tlm.snap + 1) (wr64 (kTl page 0x048) (tick d)
    (storeWords 64 (fun i => kTl page (0x200 + 4 * i)) (fun i e => rd e (kTl 1 (0x040 + 4 * i)))
      (storeWords 64 (fun i => kTl page (0x100 + 4 * i)) (fun i e => rd e (kTl 0 (0x040 + 4 * i))) (snapBegun d))))

/-- A snapshot that is asked for is taken, on pages 2 and 3 in turn. -/
theorem tlmSnapshot_asked (hasked : d.tlm.asked = true) (hup : tlmUp d = true) :
    tlmSnapshot d = snapTaken (2 + (d.tlm.snap + 1) % 2) d := by
  simp only [tlmSnapshot, hasked, hup, Bool.not_true, Bool.false_and, Bool.or_self, Bool.false_eq_true, if_false]
  rfl

/-- What TLM holds once a snapshot begins. -/
theorem snapBegun_tlm (d : Dev) : (snapBegun d).tlm = { d.tlm with snap := d.tlm.snap + 1, asked := false, snapAt := tick d } := by
  rw [snapBegun, runOn_tlm, runOn_tlm]
  rfl

/-- What TLM holds once a snapshot is taken. -/
theorem snapTaken_tlm (page : Nat) (d : Dev) : (snapTaken page d).tlm = (snapBegun d).tlm := by
  obtain ⟨r1, h1⟩ := storeWords_regs (n := 64) (key := fun i => kTl page (0x100 + 4 * i))
    (val := fun i e => rd e (kTl 0 (0x040 + 4 * i))) (snapBegun d)
  obtain ⟨r2, h2⟩ := storeWords_regs (n := 64) (key := fun i => kTl page (0x200 + 4 * i))
    (val := fun i e => rd e (kTl 1 (0x040 + 4 * i))) { snapBegun d with regs := r1 }
  rw [snapTaken, wr64_tlm, wr64_tlm, h1, h2]

/-- Words of TLM page 0 but the one that asks for snapshots are not changed as one begins. -/
theorem rd_snapBegun_page0 {o : Nat} (ho : o < 0x1000) (h : o ≠ 0x044) : rd (snapBegun d) (kTl 0 o) = rd d (kTl 0 o) := by
  have hne : ∀ n, n < 0x1000 → kTl 0 o ≠ kTl 1 n := fun n hn heq => absurd ((kTl_inj ho hn).mp heq).1 (by decide)
  have hask : kTl 0 o ≠ kTl 0 0x044 := fun heq => h ((kTl_inj ho (by omega)).mp heq).2
  rw [snapBegun, rd_runOn (hne 0x078 (by omega)) (hne 0x07C (by omega)), rd_runOn (hne 0x058 (by omega)) (hne 0x05C (by omega)), wrB,
    rd_wr_other _ _ hask, rd_updTlm]

/-- Words of TLM page 1 but the counts that run on are not changed as a snapshot begins. -/
theorem rd_snapBegun_page1 {o : Nat} (ho : o < 0x1000) (h : runsOn (kTl 1 o) = false) :
    rd (snapBegun d) (kTl 1 o) = rd d (kTl 1 o) := by
  have hne : ∀ n, runsOn (kTl 1 n) = true → kTl 1 o ≠ kTl 1 n := fun n hn heq => by rw [heq, hn] at h; cases h
  have hask : kTl 1 o ≠ kTl 0 0x044 := fun heq => absurd ((kTl_inj ho (by omega)).mp heq).1 (by decide)
  rw [snapBegun, rd_runOn (hne 0x078 (by decide)) (hne 0x07C (by decide)), rd_runOn (hne 0x058 (by decide)) (hne 0x05C (by decide)),
    wrB, rd_wr_other _ _ hask, rd_updTlm]

/-- Words of a snapshot's page above its number and its tick keep what was stored before these. -/
theorem rd_snapTaken_above {page o : Nat} (ho : o < 0x1000) (h : 0x050 ≤ o) : rd (snapTaken page d) (kTl page o) =
    rd (storeWords 64 (fun i => kTl page (0x200 + 4 * i)) (fun i e => rd e (kTl 1 (0x040 + 4 * i)))
      (storeWords 64 (fun i => kTl page (0x100 + 4 * i)) (fun i e => rd e (kTl 0 (0x040 + 4 * i))) (snapBegun d))) (kTl page o) := by
  have hne : ∀ n, n < 0x050 → kTl page o ≠ kTl page n := fun n hn heq => by
    have := ((kTl_inj ho (by omega)).mp heq).2; omega
  rw [snapTaken, rd_wr64_other _ _ (hne 0x040 (by omega)) (hne 0x044 (by omega)),
    rd_wr64_other _ _ (hne 0x048 (by omega)) (hne 0x04C (by omega))]

section
variable {page : Nat} (hpage : 2 ≤ page)
include hpage

/-- A word of pages 0 and 1 is not at a key of a snapshot's page. -/
theorem rd_wr_snapPage {p o n v : Nat} {e : Dev} (hp : p < 2) (ho : o < 0x1000) (hn : n < 0x1000) :
    rd (wr (kTl page n) v e) (kTl p o) = rd e (kTl p o) :=
  rd_wr_other _ _ fun heq => by have := ((kTl_inj ho hn).mp heq).1; omega

/-- A snapshot's copy of TLM page 0. -/
theorem rd_snapTaken_page0 {i : Nat} (hi : i < 64) (h : i ≠ 1) :
    rd (snapTaken page d) (kTl page (0x100 + 4 * i)) = rd d (kTl 0 (0x040 + 4 * i)) := by
  calc rd (snapTaken page d) (kTl page (0x100 + 4 * i))
      = rd (storeWords 64 (fun i => kTl page (0x100 + 4 * i)) (fun i e => rd e (kTl 0 (0x040 + 4 * i))) (snapBegun d))
          (kTl page (0x100 + 4 * i)) := by
        rw [rd_snapTaken_above (by omega) (by omega)]
        exact rd_storeWords_other (fun j hj heq => by have := ((kTl_inj (by omega) (by omega)).mp heq).2; omega) _
    _ = rd (snapBegun d) (kTl 0 (0x040 + 4 * i)) % 2 ^ 32 :=
        rd_storeWords (key := fun i => kTl page (0x100 + 4 * i)) (val := fun i e => rd e (kTl 0 (0x040 + 4 * i)))
          (fun a ha b hb heq => by have := ((kTl_inj (by omega) (by omega)).mp heq).2; omega)
          (fun a ha b hb v e => rd_wr_snapPage hpage (by omega) (by omega) (by omega)) hi _
    _ = rd d (kTl 0 (0x040 + 4 * i)) := by
        rw [rd_snapBegun_page0 (by omega) (by omega), Nat.mod_eq_of_lt (rd_lt d _)]

/-- A snapshot's copy of TLM page 1. -/
theorem rd_snapTaken_page1 {i : Nat} (hi : i < 64) (h : runsOn (kTl 1 (0x040 + 4 * i)) = false) :
    rd (snapTaken page d) (kTl page (0x200 + 4 * i)) = rd d (kTl 1 (0x040 + 4 * i)) := by
  have hother : ∀ j < 64, kTl 1 (0x040 + 4 * i) ≠ kTl page (0x100 + 4 * j) := fun j hj heq => by
    have := ((kTl_inj (by omega) (by omega)).mp heq).1; omega
  calc rd (snapTaken page d) (kTl page (0x200 + 4 * i))
      = rd (storeWords 64 (fun i => kTl page (0x100 + 4 * i)) (fun i e => rd e (kTl 0 (0x040 + 4 * i))) (snapBegun d))
          (kTl 1 (0x040 + 4 * i)) % 2 ^ 32 := by
        rw [rd_snapTaken_above (by omega) (by omega)]
        exact rd_storeWords (key := fun i => kTl page (0x200 + 4 * i)) (val := fun i e => rd e (kTl 1 (0x040 + 4 * i)))
          (fun a ha b hb heq => by have := ((kTl_inj (by omega) (by omega)).mp heq).2; omega)
          (fun a ha b hb v e => rd_wr_snapPage hpage (by omega) (by omega) (by omega)) hi _
    _ = rd d (kTl 1 (0x040 + 4 * i)) := by
        rw [rd_storeWords_other hother, rd_snapBegun_page1 (by omega) h, Nat.mod_eq_of_lt (rd_lt d _)]

end

/-- A snapshot's number. -/
theorem rd64_snapTaken_number (page : Nat) (d : Dev) : rd64 (snapTaken page d) (kTl page 0x040) = (d.tlm.snap + 1) % 2 ^ 64 :=
  rd64_wr64_same _ _ _

/-- A snapshot's tick. -/
theorem rd64_snapTaken_tick (page : Nat) (d : Dev) : rd64 (snapTaken page d) (kTl page 0x048) = tick d % 2 ^ 64 := by
  have hne : ∀ o n, o < 0x1000 → n < 0x1000 → o ≠ n → kTl page o ≠ kTl page n :=
    fun o n ho hn h heq => h ((kTl_inj ho hn).mp heq).2
  rw [snapTaken, ← rd64_wr64_same (storeWords 64 (fun i => kTl page (0x200 + 4 * i)) (fun i e => rd e (kTl 1 (0x040 + 4 * i)))
    (storeWords 64 (fun i => kTl page (0x100 + 4 * i)) (fun i e => rd e (kTl 0 (0x040 + 4 * i))) (snapBegun d)))
    (kTl page 0x048) (tick d)]
  refine rd64_congr ?_ ?_
  · exact rd_wr64_other _ _ (hne 0x048 0x040 (by omega) (by omega) (by omega)) (hne 0x048 0x044 (by omega) (by omega) (by omega))
  · exact rd_wr64_other _ _ (hne 0x04C 0x040 (by omega) (by omega) (by omega)) (hne 0x04C 0x044 (by omega) (by omega) (by omega))

end

/-- SNAP_TAKE is bit 31 of a word whose other fields are stored with it. -/
theorem blockWrite_snapTake (w : Who) (m v : Nat) (d : Dev) : blockWrite w m (kTl 0 0x044) v d =
    some (doIf (bit v 31) snapTake (wrF (kTl 0 0x044) 15 0 v d)) := rfl

/-- Settles O33: each service that is due does what its rule names; a sample and a snapshot store word after word, each at a key
of its own. -/
theorem serviceRowsComplete : Obligations.ServiceRowsComplete := by
  unfold Obligations.ServiceRowsComplete
  rintro s d rfl
  refine ⟨?scrub, ?writeback, ?margin, ?aging, ?sample, ?record, ?ask, ?snapshot⟩
  case scrub =>
    rintro cluster row hon hen hdue rfl
    have hread := fun h => scrubRow_read cluster.isLt hon hen hdue h
    dsimp only [rowIssued] at hread
    exact ⟨fun hskip => effect_clear (scrubRow_skipped cluster.isLt hon hen hdue hskip), fun h => effect_clear (hread h)⟩
  case writeback =>
    intro cluster i c w hfix hone
    have hrow := scrubWrite_one hfix hone
    exact ⟨fun hsame => effect_of (hrow.trans (if_pos hsame)), fun hother => effect_of (hrow.trans (if_neg hother))⟩
  case margin =>
    intro margins g m hprobes hdue hg hm
    exact ⟨fun henough => effect_of (marginProbe_enough hprobes hdue hg hm henough),
      fun hshort hroom => effect_of (marginProbe_short hprobes hdue hg hm hshort hroom)⟩
  case aging => exact fun ppm hon hdue => effect_of (agingMeasure_due hon hdue)
  case sample =>
    intro hdue hup
    have hword := fun k => Nat.mod_eq_of_lt (rd_lt s.begins k)
    obtain ⟨r, hframe⟩ := sampleTaken_frame s.begins
    refine ⟨_, effect_of (tlmSample_due hdue hup), rd64_sampleTaken,
      (rd_sampleTaken_govWord (i := 0) (by omega) rfl).trans (hword _), rd_sampleTaken_govWord (i := 1) (by omega) (govWords_held _).1,
      (rd_sampleTaken_govWord (i := 2) (by omega) rfl).trans (hword _),
      (rd_sampleTaken_govWord (i := 3) (by omega) rfl).trans (hword _), rd_sampleTaken_govWord (i := 4) (by omega) (govWords_held _).2,
      (rd_sampleTaken_govWord (i := 5) (by omega) rfl).trans (hword _), fun k hk hsensor => ?tj, fun p hp => ?stack, fun k hk hnone => ?none, ?_⟩
    case tj => rw [rd_sampleTaken_tjWord hk, tjWord, if_pos hsensor, hword]
    case none => rw [rd_sampleTaken_tjWord hk, tjWord, hnone]; rfl
    case stack =>
      rw [rd_sampleTaken_stackWord hp, stackWord]
      split
      · exact Nat.mod_eq_of_lt (Nat.lt_trans (fld_lt_16 _) (by decide))
      · rfl
    · rw [hframe]
      exact ⟨rfl, rfl, rfl, rfl, rfl⟩
  case record =>
    intro hdue hen hup
    refine effect_clear ?_
    simp only [tlmRecord, hen, hup, if_neg (Nat.not_lt.mpr hdue), Bool.not_true, Bool.or_false, decide_eq_true_eq]
  case ask =>
    intro who hput
    refine effect_setBit hput (by decide) (by decide) (by decide) ?_
    rw [blockWrite_snapTake, bit_setBit_word (by decide)]
    rfl
  case snapshot =>
    intro hasked hup
    have hpage : 2 ≤ 2 + (s.begins.tlm.snap + 1) % 2 := by omega
    have htlm := (snapTaken_tlm (2 + (s.begins.tlm.snap + 1) % 2) s.begins).trans (snapBegun_tlm s.begins)
    exact ⟨_, effect_clear (tlmSnapshot_asked hasked hup), by rw [htlm], by rw [htlm], rd64_snapTaken_number _ _, rd64_snapTaken_tick _ _,
      fun i hi hother => rd_snapTaken_page0 hpage hi hother, fun i hi hstill => rd_snapTaken_page1 hpage hi hstill⟩

end Sys2Proof.Machine

/-! ## Fuses and the boot flash (R596, R598) -/

namespace Sys2Proof.Machine

section
variable {d : Dev} {w : Who} {k v : Nat}

/-- A latch that ends changes no rights. -/
theorem writeMask_dropLatch (w' : Who) (d : Dev) (w : Who) (k : Nat) : writeMask (dropLatch w' d) w k = writeMask d w k := rfl

/-- A command that is a write of a register acts when the requester may write a field of it. -/
theorem regWith_open {f : Dev → Dev} (h : mayPut d w k v = true) : regWith w k f d = f (touched w d) := by
  simp only [mayPut, Bool.and_eq_true, bne_iff_ne, ne_eq] at h
  obtain ⟨⟨⟨-, hopen⟩, -⟩, -⟩ := h
  unfold regWith guarded
  rw [writeMask_dropLatch]
  cases hm : writeMask (pageTouched w d) w k with
  | none => exact absurd (by rw [openFields, hm]; rfl) hopen
  | some m => rfl

/-! ### Fuses (R596) -/

section
variable (hidle : d.fus.prog = none) (hgo : bit v 0 = true)
include hidle hgo

/-- A PROG_CMD that nothing refuses starts to blow. -/
theorem progCmd_starts (h : progRefusal d (fld v 15 8) = 0) : progCmd v d = wr (kF1 0x04C) (2 ^ 31)
    { d with fus := { d.fus with prog := some (rdF d (kF1 0x040) 6 0, rd d (kF1 0x044)) } } := by
  unfold progCmd
  rw [hidle, hgo, if_neg (by decide)]
  exact if_neg (not_not.mpr h)

/-- A PROG_CMD that is refused leaves its code and a flag. -/
theorem progCmd_refused (h : progRefusal d (fld v 15 8) ≠ 0) : progCmd v d =
    wr (kF1 0x04C) (progRefusal d (fld v 15 8)) (flag0 T.FUS 0 1 (progRefusal d (fld v 15 8)) d) := by
  unfold progCmd
  rw [hidle, hgo, if_neg (by decide)]
  exact if_pos h

end

/-- The blowing that ends, with the bits of each copy that missed. -/
theorem progDone_ends {r bits : Nat} (missA missB : W32) (h : d.fus.prog = some (r, bits)) :
    progDone missA.toNat missB.toNat d =
      (let e := rereadFuse r (blow r (bits &&& (0xFFFFFFFF ^^^ missA.toNat)) (bits &&& (0xFFFFFFFF ^^^ missB.toNat))
         { d with fus := { d.fus with prog := none } })
       wr (kF1 0x04C) 0 (if bits &&& rd e (kFuse r) = bits then e else flag0 T.FUS 0 2 r e)) := by
  simp only [progDone, h, Nat.mod_eq_of_lt missA.isLt, Nat.mod_eq_of_lt missB.isLt]

/-! ### The boot flash (R598) -/

/-- An operation starts while none runs. -/
theorem flashStart_idle {op : FlashOp} (h : d.xsp.op = none) : flashStart op d =
    wrB (kX 0x04C) 31 true { d with xsp := { d.xsp with op := some (op, rdF d (kX 0x048) 27 0, tick d) } } := by
  rw [flashStart, h]
  rfl

/-- What a value of XSP_CMD asks for, as its block takes it. -/
theorem blockWrite_xspCmd (w : Who) (m : Nat) (h : v < 2 ^ 32) : blockWrite w m (kX 0x044) (v % 2 ^ 32) d = some (xspCmd v d) := by
  rw [Nat.mod_eq_of_lt h]
  rfl

/-- An operation that XSP_CMD names. -/
def xspOp (v : Nat) : FlashOp :=
  match fld v 9 8 with
  | 0 => .program
  | 1 => .erase4
  | 2 => .erase64
  | _ => .register (fld v 31 24)

/-- A write of XSP_CMD starts its operation. -/
theorem effect_xspCmd {s : State} {op : FlashOp} (hv : v < 2 ^ 32) (hop : xspOp v = op) (hput : mayPut s.begins w (kX 0x044) v = true)
    (hidle : (touched w s.begins).xsp.op = none) :
    effect (regCmd w (kX 0x044) v) s = .next (s.ends (wrB (kX 0x04C) 31 true
      { touched w s.begins with xsp := { (touched w s.begins).xsp with
        op := some (op, rdF (touched w s.begins) (kX 0x048) 27 0, tick (touched w s.begins)) } })) := by
  refine effect_block hput (by decide) (by decide) (by decide) ((blockWrite_xspCmd w _ hv).trans (congrArg some ?_))
  rw [← flashStart_idle hidle, ← hop]
  rfl

/-- A register read names its opcode in XSP_CMD. -/
theorem xspOp_register (b : Byte) : xspOp (b.toNat * 2 ^ 24 + 3 * 256) = .register b.toNat := by
  have hb := b.isLt
  have h2 : fld (b.toNat * 2 ^ 24 + 3 * 256) 9 8 = 3 := by unfold fld; omega
  have h3 : fld (b.toNat * 2 ^ 24 + 3 * 256) 31 24 = b.toNat := by unfold fld; omega
  rw [xspOp, h2, h3]
  rfl

/-- What an operation of the flash does as it ends. -/
def flashOpEnds (op : FlashOp) (o : Nat) (bs : List Byte) (d : Dev) : Dev :=
  match op with
  | .program => programPage o d
  | .erase4 => eraseFlash (o / 4096 * 4096) 4096 d
  | .erase64 => eraseFlash (o / 65536 * 65536) 65536 d
  | .register _ => fillBuf bs d

/-- The operation that ends, with the flash's status register. -/
theorem flashDone_ends {op : FlashOp} {o t : Nat} (status : Byte) (bs : List Byte) (h : d.xsp.op = some (op, o, t)) :
    flashDone status.toNat bs d =
      flashOpEnds op o bs (wr (kX 0x04C) status.toNat { d with xsp := { d.xsp with op := none } }) := by
  simp only [flashDone, h, Nat.mod_eq_of_lt status.isLt]
  cases op with
  | program => rfl
  | erase4 => rfl
  | erase64 => rfl
  | register n => rfl

end

/-- Settles O43: each row in its one branch. -/
theorem flashRowsComplete : Obligations.FlashRowsComplete := by
  unfold Obligations.FlashRowsComplete
  rintro s d rfl
  refine ⟨fun who e he => ⟨?prog, ?ops, ?register⟩, ?blown, ?done, ?silent, ?late⟩
  case prog =>
    rintro value vio d2 f rfl hput rfl hidle hgo
    have hopen : (regWith who (kF1 0x048) (progCmd value.toNat) ∘ updPwr (fun p => { p with vio18 := vio })) s.begins =
        progCmd value.toNat (touched who (updPwr (fun p => { p with vio18 := vio }) s.begins)) := regWith_open hput
    exact ⟨fun h => effect_of (hopen.trans (progCmd_starts hidle hgo h)), fun h => effect_of (hopen.trans (progCmd_refused hidle hgo h))⟩
  case ops =>
    subst he
    intro hidle row op v hrow hput
    simp only [List.mem_cons, Prod.mk.injEq, List.not_mem_nil, or_false] at hrow
    obtain ⟨rfl, rfl, rfl⟩ | ⟨rfl, rfl, rfl⟩ | ⟨rfl, rfl, rfl⟩ := hrow
    · exact effect_xspCmd (by decide) (by decide) hput hidle
    · exact effect_xspCmd (by decide) (by decide) hput hidle
    · exact effect_xspCmd (by decide) (by decide) hput hidle
  case register =>
    subst he
    intro hidle opcode hput
    have hb := opcode.isLt
    exact effect_xspCmd (by omega) (xspOp_register opcode) hput hidle
  case blown => exact fun r bits missA missB h => effect_of (progDone_ends missA missB h)
  case done =>
    rintro o t status e hpins rfl
    have hends := fun bs op (h : s.begins.xsp.op = some (op, o, t)) =>
      (overPins_open (f := flashDone status.toNat bs) hpins).trans (flashDone_ends status bs h)
    exact ⟨fun h => effect_of ((hends [] _ h).trans (by rw [flashOpEnds])),
      fun h => effect_of ((hends [] _ h).trans (by rw [flashOpEnds])),
      fun h => effect_of ((hends [] _ h).trans (by rw [flashOpEnds])),
      fun n bytes h => effect_of ((hends bytes _ h).trans (by rw [flashOpEnds]))⟩
  case silent =>
    intro w a hlow hhigh hcmp
    refine effect_of ?_
    have hin : inR a.toNat 0x3000000000 0x10000000 = true := by simp only [inR, Bool.and_eq_true, decide_eq_true_eq]; omega
    simp only [flashTimeout, Option.map_some, hin, hcmp, Bool.not_true, Bool.false_eq_true, if_false, ne_eq, not_true_eq_false]
    rfl
  case late =>
    intro op o t h hlate
    refine effect_of ?_
    simp only [flashTimeout, Option.map_none, h, hlate, if_true]
    rfl

end Sys2Proof.Machine

/-! ## The test access port and the console (R582 to R590, R593) -/

namespace Sys2Proof.Machine

section
variable {d : Dev}

/-- The port's own state does not decide whether SERVICE_CLOSE is in force. -/
@[simp] theorem serviceClosed_updTap (f : Tap → Tap) (d : Dev) : serviceClosed (updTap f d) = serviceClosed d := rfl

/-- With the service open the instruction in force is the one that is loaded. -/
theorem tapIr_open (h : serviceClosed d = false) : tapIr d = d.tap.ir := by
  simp only [tapIr, h, Bool.false_and, Bool.false_eq_true, if_false]

/-- After SERVICE_CLOSE every instruction but IDCODE acts as BYPASS. -/
theorem tapIr_closed (h : serviceClosed d = true) (hir : d.tap.ir ≠ .idcode) : tapIr d = .bypass := by
  simp only [tapIr, h, hir, Bool.true_and, ne_eq, not_false_eq_true, decide_true, if_true]

section
variable (hon : tapOn d = true)
include hon

theorem tapLoad_on (i : TapIr) : tapLoad i d = updTap (fun t => { t with ir := i }) d := if_pos hon

theorem tapIdcode_on : tapIdcode d = answer .tap (.code (idcode d)) (updTap (fun t => { t with ir := .idcode }) d) := by
  rw [tapIdcode, if_pos hon, tapLoad_on hon]

/-- With the service closed a scan loads its instruction and does nothing else. -/
theorem tapScan_closed {i : TapIr} (hi : i ≠ .idcode ∧ i ≠ .bypass) (h : serviceClosed d = true) (pins load : List Nat) :
    tapScan i pins load d = updTap (fun t => { t with ir := i }) d := by
  have hir : tapIr (updTap (fun t => { t with ir := i }) d) = .bypass := tapIr_closed h hi.1
  simp only [tapScan, tapLoad_on hon, hir, Ne.symm hi.2, ne_eq, not_false_eq_true, decide_true, Bool.true_or, if_true]

/-- With the service open a scan shifts the captured cells out and takes what is shifted in. -/
theorem tapScan_open (h : serviceClosed d = false) (i : TapIr) (pins load : List Nat) : tapScan i pins load d =
    answer .tap (.cells ((scanOf d).zipIdx.map (fun x => scanCell d x.1 (pins.getD x.2 0))))
      (updTap (fun t => { t with boundary := (scanOf d).zipIdx.map (fun x => load.getD x.2 0) })
        (updTap (fun t => { t with ir := i }) d)) := by
  have hir : tapIr (updTap (fun t => { t with ir := i }) d) = i := tapIr_open h
  simp only [tapScan, tapLoad_on hon, hir, hon, ne_eq, not_true_eq_false, decide_false, Bool.not_true, Bool.or_self,
    Bool.false_eq_true, if_false]

/-- An access while one is busy is ignored. -/
theorem memAccess_busy (hbusy : d.tap.mem % 4 = 1) (op a v : Nat) :
    memAccess op a v d = updTap (fun t => { t with ir := .memAccess }) d := by
  simp only [memAccess, tapLoad_on hon, hbusy, decide_true, Bool.or_true, if_true]

section
variable (h : serviceClosed d = false)
include h

/-- The result of a read of the port. -/
def tapReadDone (r : ReadOut) (d : Dev) : Dev := match r with
  | .data bs => memResult 0 (leNat (bs.map (·.1))) d
  | .fail _ => memResult 2 0 d
  | .held => memResult 1 0 d

/-- The result of a write of the port. -/
def tapWriteDone (r : WriteOut) (d : Dev) : Dev := match r with
  | .ok => memResult 0 0 d
  | .fail _ => memResult 2 0 d
  | .held => memResult 1 0 d

section
variable {e f : Dev} {a v : Nat} (hfree : d.tap.mem % 4 ≠ 1) (he : e = updTap (fun t => { t with ir := .memAccess }) d)
include hfree he

/-- A read over the port, by what it meets. -/
theorem memAccess_read {r : ReadOut} (hfetch : tapFetch false a e = (r, f)) : memAccess 1 a v d = tapReadDone r f := by
  subst he
  have hir : tapIr (updTap (fun t => { t with ir := .memAccess }) d) = .memAccess := tapIr_open h
  simp only [memAccess, tapLoad_on hon, hir, hon, hfree, ne_eq, not_true_eq_false, decide_false, Bool.not_true, Bool.or_self,
    Bool.false_eq_true, if_false, hfetch]
  rfl

/-- A write over the port, by what it meets. -/
theorem memAccess_write {r : WriteOut} (hput : tapPut false a v e = (r, f)) : memAccess 2 a v d = tapWriteDone r f := by
  subst he
  have hir : tapIr (updTap (fun t => { t with ir := .memAccess }) d) = .memAccess := tapIr_open h
  simp only [memAccess, tapLoad_on hon, hir, hon, hfree, ne_eq, not_true_eq_false, decide_false, Bool.not_true, Bool.or_self,
    Bool.false_eq_true, if_false, hput]
  rfl

end

/-- A word of a strongbox is read, and its frame freed where that is asked for. -/
theorem tapBox_open {holder i : Nat} (hholder : holder < 68) (clear : Bool) : tapBox holder i clear d =
    (let w := (getCore d holder).box.frame.getD i 0
     let e := updTap (fun t => { t with ir := .strongbox, box := holder + i * 2 ^ 7 + w * 2 ^ 10 }) d
     answer .tap (.code w) (if clear then updCore holder (fun c => { c with box := { c.box with full := false } }) e else e)) := by
  have hir : tapIr (updTap (fun t => { t with ir := .strongbox }) d) = .strongbox := tapIr_open h
  have hno : ¬ 67 < holder := by omega
  simp only [tapBox, tapLoad_on hon, hir, hon, hno, ne_eq, not_true_eq_false, decide_false, Bool.not_true, Bool.or_self,
    Bool.false_eq_true, if_false]
  rfl

end

end

/-! ### The console (R593) -/

section
variable {line : List Byte} (hon : consoleOn d = true)
include hon

/-- A line is kept while the console waits. -/
theorem uartCommand_waits (hbusy : d.tap.console.isSome = true) :
    uartCommand line d = updTap (fun t => { t with lines := t.lines ++ [line] }) d := by
  rw [uartCommand, hon, if_neg (by decide), if_pos hbusy]

/-- A free console carries out its line. -/
theorem uartCommand_runs (hfree : d.tap.console = none) : uartCommand line d = consoleRun line d := by
  rw [uartCommand, hon, if_neg (by decide), hfree, if_neg (by decide)]

end

end

/-- The console's rows are one. -/
theorem exec_uart {row : List Byte → Instr} (hrow : row ∈ [Instr.uartRead, .uartWrite, .uartIdent]) (line : List Byte) (s : State) :
    exec (row line) s = effect (overPins (uartCommand line)) s := by
  simp only [List.mem_cons, List.not_mem_nil, or_false] at hrow
  obtain rfl | rfl | rfl := hrow
  · rfl
  · rfl
  · rfl

/-- The rows that select the boundary register scan it. -/
theorem exec_scan {row : List Nat → List Nat → Instr} {ir : TapIr}
    (hrow : (row, ir) ∈ [(Instr.samplePreload, TapIr.sample), (.extest, .extest), (.extestPulse, .pulse), (.extestTrain, .train)])
    (pins load : List Nat) (s : State) :
    exec (row pins load) s = effect (tapScan ir pins load) s ∧ ir ≠ .idcode ∧ ir ≠ .bypass := by
  simp only [List.mem_cons, Prod.mk.injEq, List.not_mem_nil, or_false] at hrow
  obtain ⟨rfl, rfl⟩ | ⟨rfl, rfl⟩ | ⟨rfl, rfl⟩ | ⟨rfl, rfl⟩ := hrow
  · exact ⟨rfl, by decide⟩
  · exact ⟨rfl, by decide⟩
  · exact ⟨rfl, by decide⟩
  · exact ⟨rfl, by decide⟩

/-- Settles O42: an instruction acts by whether the service is open, and a line by whether the console is free. -/
theorem debugRowsComplete : Obligations.DebugRowsComplete := by
  unfold Obligations.DebugRowsComplete
  rintro s d rfl
  refine ⟨fun hon => ⟨effect_of (if_pos hon), effect_of (tapIdcode_on hon), ?load, fun op => effect_of (tapLoad_on hon _), ?scan,
    fun hopen => ⟨?mem, ?box⟩⟩, ?console⟩
  case load =>
    intro row ir hrow
    simp only [List.mem_cons, Prod.mk.injEq, List.not_mem_nil, or_false] at hrow
    obtain ⟨rfl, rfl⟩ | ⟨rfl, rfl⟩ := hrow
    · exact effect_of (tapLoad_on hon _)
    · exact effect_of (tapLoad_on hon _)
  case scan =>
    intro row ir hrow pins load
    obtain ⟨hexec, hir⟩ := exec_scan hrow pins load s
    rw [hexec]
    dsimp only
    split
    · next hclosed => exact effect_of (tapScan_closed hon hir hclosed pins load)
    · next hopen => exact effect_of (tapScan_open hon (by simpa using hopen) ir pins load)
  case mem =>
    intro op addr value e he
    refine ⟨fun hbusy => effect_of ((memAccess_busy hon hbusy _ _ _).trans he.symm), fun hfree => ⟨?_, ?_⟩⟩
    · rintro r f rfl hfetch
      refine effect_of ((memAccess_read hon hopen hfree he hfetch).trans ?_)
      cases r with
      | data bs => rfl
      | fail k => rfl
      | held => rfl
    · rintro r f rfl hput
      refine effect_of ((memAccess_write hon hopen hfree he hput).trans ?_)
      cases r with
      | ok => rfl
      | fail k => rfl
      | held => rfl
  case box =>
    intro holder word hholder
    exact ⟨effect_of (tapBox_open hon hopen hholder false), effect_of (tapBox_open hon hopen hholder true)⟩
  case console =>
    intro hon hpins row hrow line
    rw [exec_uart hrow]
    have hline : overPins (uartCommand line) s.begins = uartCommand line s.begins := overPins_open hpins
    refine ⟨fun hbusy => effect_of (hline.trans (uartCommand_waits hon hbusy)), fun hfree => ?_⟩
    have hrun := hline.trans (uartCommand_runs hon hfree)
    refine ⟨fun a n hcmd => effect_of (hrun.trans ?_), fun a v e => ⟨fun hcmd hput => effect_of (hrun.trans ?_),
      fun k hcmd hput => effect_of (hrun.trans ?_)⟩, fun hcmd => effect_of (hrun.trans ?_), fun hcmd => effect_of (hrun.trans ?_)⟩
    · rw [consoleRun, hcmd]
    · rw [consoleRun, hcmd]
      simp only [hput, uartDone]
    · rw [consoleRun, hcmd]
      simp only [hput, uartDone]
    · rw [consoleRun, hcmd]
    · rw [consoleRun, hcmd]

end Sys2Proof.Machine

/-! ## Ports and the team (R523 to R526, R529, R530) -/

namespace Sys2Proof.Machine

section
variable {d : Dev} {p : Nat}

/-- PORT_CTRL of a port is its enable bit. -/
theorem blockWrite_portCtrl (hp : p < 2) (w : Who) (m v : Nat) (d : Dev) :
    blockWrite w m (kB (1 + p) 0x040) v d = some (portEnable p (bit v 0) d) := by
  obtain rfl | rfl : p = 0 ∨ p = 1 := by omega
  · rfl
  · rfl

/-- TEAM_CMD carries out FORM. -/
theorem blockWrite_teamCmd (w : Who) (m v : Nat) (d : Dev) :
    blockWrite w m (kB 0 0x044) v d = some (if bit v 0 then formCmd d else d) := rfl

/-- A write of a port's enable bit. -/
theorem effect_portEnable {s : State} {w : Who} {on : Bool} (hdies : s.begins.part.ioDies = 2) (hp : p < 2)
    (hput : mayPut s.begins w (kB (1 + p) 0x040) (b2n on) = true) :
    effect (onPage T.DBR 0 (1 + p) (regCmd w (kB (1 + p) 0x040) (b2n on))) s = .next (s.ends (portEnable p on (touched w s.begins))) := by
  have hone : instances s.begins.part T.DBR = s.begins.part.ioDies - 1 := rfl
  have hpages : pagesPer T.DBR = 3 := rfl
  have hbit : bit (b2n on % 2 ^ 32) 0 = on := by cases on <;> rfl
  have hbk := blockWrite_portCtrl hp w (openFields (pageTouched w s.begins) w (kB (1 + p) 0x040)) (b2n on % 2 ^ 32) (touched w s.begins)
  rw [hbit] at hbk
  rw [effect_onPage (by omega) (by omega)]
  obtain rfl | rfl : p = 0 ∨ p = 1 := by omega
  · exact effect_block hput (by decide) (by decide) (by decide) hbk
  · exact effect_block hput (by decide) (by decide) (by decide) hbk

/-- A disabled port that is enabled starts to train. -/
theorem portEnable_on (h : (dbPort d p).state = .disabled) :
    portEnable p true d = setPort p .training (updDb p (fun _ => {}) (wrB (kB (1 + p) 0x040) 0 true d)) := by
  rw [portEnable, if_pos rfl, if_pos h, startTraining]

/-- A port that is disabled goes down. -/
theorem portEnable_off (h : (dbPort d p).state ≠ .disabled) :
    portEnable p false d = setPort p .disabled (portDown p (wrB (kB (1 + p) 0x040) 0 false d)) := by
  rw [portEnable, if_neg (by decide), if_neg h]

/-- A port whose lanes lock in time says HELLO. -/
theorem portLocked_inTime (hstate : (dbPort d p).state = .training) (hlocked : d.clk.locked = true) (hfirst : (dbPort d p).retry = false)
    (htime : tick d ≤ (dbPort d p).since + 5000) : portLocked p d =
      sendHello p (updDb p (fun x => { x with freed := [0, 1, 2].map Config.drawbarBuffers }) (setPort p .hello d)) := by
  simp only [portLocked, hstate, hlocked, hfirst, htime, decide_true, Bool.not_false, Bool.and_self, if_true]

/-- Training that lasts too long pauses, or is tried again. -/
theorem trainingTimeout_due (hstate : (dbPort d p).state = .training)
    (hdue : (dbPort d p).since + (if (dbPort d p).retry then 100000 else 5000) ≤ tick d) :
    trainingTimeout p d = updDb p (fun x => { x with since := tick d, retry := !x.retry }) d := by
  simp only [trainingTimeout, hstate, hdue, decide_true, Bool.and_self, if_true]

/-- A port that has been down long enough starts to train. -/
theorem downExpire_due (hstate : (dbPort d p).state = .down) (hdue : (dbPort d p).since + 100000 ≤ tick d) :
    downExpire p d = setPort p .training (updDb p (fun _ => {}) d) := by
  simp only [downExpire, startTraining, hstate, hdue, decide_true, Bool.and_self, if_true]

/-- Retraining that fails starts over. -/
theorem retrainDone_failed (hstate : (dbPort d p).state = .retrain) : retrainDone p false d = startRetrain p d := by
  rw [retrainDone, if_neg (not_not.mpr hstate), if_pos (by decide)]

/-- Retraining that succeeds sends every unacknowledged flit again. -/
theorem retrainDone_ok (hstate : (dbPort d p).state = .retrain) : retrainDone p true d =
    (let e := updDb p (fun x => { x with ackAt := tick d }) (dbrEvent 0x41 1 p 0 (setPort p .up d))
     tellNeighbours (refreshPresent (pumpPort p (sendAgain p e)))) := by
  rw [retrainDone, if_neg (not_not.mpr hstate), if_neg (by decide)]

/-- FORM enables both ports when every compartment but 0 is free. -/
theorem formCmd_free (h : ∀ n < 16, n ≠ 0 → (getCmp d n).mode = .free) : formCmd d =
    tryForm (refreshPresent (portEnable 1 true (portEnable 0 true
      { d with dbr := { d.dbr with forming := some (tick d), removed := 0 } }))) := by
  have hfree : (List.range 16).any (fun n => n ≠ 0 && (getCmp d n).mode ≠ .free) = false := by
    simp only [List.any_eq_false, List.mem_range, Bool.and_eq_true, decide_eq_true_eq, not_and, not_not]
    exact h
  rw [formCmd, hfree, if_neg (by decide)]
  rfl

/-- Without module 0 for a second the team does not form. -/
theorem formNoPath_due {t : Nat} (hforming : d.dbr.forming = some t) (hdue : t + 1000000 ≤ tick d) : formNoPath d =
    flag0 T.DBR 0 3 7 (wrF (kB 0 0x048) 7 0 7 { d with dbr := { d.dbr with forming := none } }) := by
  simp only [formNoPath, hforming, hdue, if_true, formResult, OfNat.ofNat_ne_zero, if_false]

/-- Module 0 of a formed team tells its tick when it is time. -/
theorem syncSend_due {cycle : Nat} (hformed : formed d = true) (hzero : teamId d = 0) (hdue : d.dbr.syncAt ≤ tick d) :
    syncSend cycle d = each ([0, 1].filter (fun p => canSend (dbPort d p))) (fun p f => sendFlit p (.tickSync (tick f) cycle 0) f)
      { d with dbr := { d.dbr with syncAt := tick d + rd d (kB 0 0x04C) } } := by
  simp only [syncSend, hformed, hzero, if_neg (Nat.not_lt.mpr hdue), Bool.not_true, Bool.false_or, ne_eq, not_true_eq_false,
    decide_false, decide_eq_true_eq]

/-- A member that has been out of reach long enough is removed. -/
theorem memberTimeout_due {m g : Nat} (hgone : Map.get (fun _ => 0) d.dbr.gone m = g + 1) (hdue : g + rd d (kB 0 0x050) ≤ tick d) :
    memberTimeout m d = memberLost m d := by
  have hlate : ¬ tick d < g + rd d (kB 0 0x050) := Nat.not_lt.mpr hdue
  simp only [memberTimeout, hgone, Nat.succ_ne_zero, Nat.add_sub_cancel, hlate, decide_false, Bool.or_self, Bool.false_eq_true, if_false]

end

/-- Settles O38: each row in its one branch, of a part with a drawbar whose pins are connected. -/
theorem teamRowsComplete : Obligations.TeamRowsComplete := by
  unfold Obligations.TeamRowsComplete
  rintro s d rfl hdies hpins
  have hteam : ∀ f, teamPart f s.begins = f s.begins := fun f => teamPart_two hdies
  have hwire : ∀ f, overPins (teamPart f) s.begins = f s.begins := fun f => (overPins_open hpins).trans (hteam f)
  refine ⟨?ports, ?form, fun t hforming hdue => effect_of ((hteam _).trans (formNoPath_due hforming hdue)),
    fun cycle hformed hzero hdue => effect_of ((hteam _).trans (syncSend_due hformed hzero hdue)), ?gone⟩
  case ports =>
    rintro port p rfl
    refine ⟨?enable, fun hstate => ⟨fun hlocked hfirst htime => effect_of ((hwire _).trans (portLocked_inTime hstate hlocked hfirst htime)),
      fun hdue => effect_of ((hteam _).trans (trainingTimeout_due hstate hdue))⟩,
      fun hstate hdue => effect_of ((hteam _).trans (downExpire_due hstate hdue)),
      fun hstate => ⟨effect_of ((hwire _).trans (retrainDone_ok hstate)), effect_of ((hwire _).trans (retrainDone_failed hstate))⟩⟩
    case enable =>
      rintro who e rfl
      exact ⟨fun hput hstate => (effect_portEnable (on := true) hdies port.isLt hput).trans (by rw [portEnable_on hstate]),
        fun hput hstate => (effect_portEnable (on := false) hdies port.isLt hput).trans (by rw [portEnable_off hstate])⟩
  case form =>
    rintro who e rfl hput hfree
    have hone : instances s.begins.part T.DBR = s.begins.part.ioDies - 1 := rfl
    refine (effect_onPage (by omega) (by decide)).trans (effect_block hput (by decide) (by decide) (by decide) ?_)
    rw [blockWrite_teamCmd, ← formCmd_free hfree]
    rfl
  case gone =>
    rintro member m g rfl hgone hdue
    exact effect_of ((hteam _).trans (memberTimeout_due hgone hdue))

end Sys2Proof.Machine

/-! ## The management bus (R535, R536, R538, R541, R545, R547 to R549) -/

namespace Sys2Proof.Machine

section
variable {d : Dev} (hans : mgmtAnswers d = true)
include hans

/-! ### Framed commands (R538, R541, R545) -/

section
variable {a count : Nat} (hcount : count ≠ 0) (hmost : count ≤ 64) (halign : a % 4 = 0)

omit hans in
include hcount hmost halign in
/-- A whole frame with a count and an address that are served is carried out. -/
theorem frameStatus_whole (write : Bool) : frameStatus d write .whole count a = none := by
  simp only [frameStatus, Option.orElse_none, hcount, Nat.not_lt.mpr hmost, halign, decide_false, Bool.or_self, Bool.false_eq_true,
    if_false, ne_eq, not_true_eq_false]

section
variable (hwin : windowOff a = none)
include hcount hmost halign hwin

/-- A READ whose words are all read leaves its reply. -/
theorem mgmtRead_whole (hok : (mgmtWords a count count 0
      (bump (kMt 0x050) (mgmtOpen (mgmtPhase d 1 (leBytes 6 a ++ leBytes 1 count)) d))).1.2.1 = 0) :
    mgmtRead a count .whole d =
      (let r := mgmtWords a count count 0 (bump (kMt 0x050) (mgmtOpen (mgmtPhase d 1 (leBytes 6 a ++ leBytes 1 count)) d))
       mgmtReply 0 r.1.1 (mgmtRecord 0 1 count r.2)) := by
  simp only [mgmtRead, hans, frameStatus_whole hcount hmost halign, hwin, hok, Bool.not_true, Bool.false_eq_true, if_false, if_true]

/-- A WRITE whose words are all written is recorded. -/
theorem mgmtWrite_whole {ws : List W32} (hlen : ws.length = count) (hinj : armed d T.MTB 0 0 1 = none)
    (hok : (mgmtStores a ws 0 (bump (kMt 0x050) (mgmtOpen (mgmtPhase d 2 (leBytes 6 a ++ leBytes 1 count ++
      ws.flatMap (fun w => leBytes 4 w.toNat))) d))).1.1 = 0) :
    mgmtWrite a count ws .whole d =
      (let r := mgmtStores a ws 0 (bump (kMt 0x050) (mgmtOpen (mgmtPhase d 2 (leBytes 6 a ++ leBytes 1 count ++
        ws.flatMap (fun w => leBytes 4 w.toNat))) d))
       mgmtRecord 0 2 r.1.2 r.2) := by
  have htake : ws.take count = ws := List.take_of_length_le (by omega)
  have hshort : ¬ ws.length < count := by omega
  simp only [mgmtWrite, mgmtWriteActs, hans, hinj, hshort, htake, frameStatus_whole hcount hmost halign, hwin, hok, Option.isSome_none,
    Bool.not_true, Bool.false_and, Bool.false_eq_true, if_false, if_true]

end

end

/-- A STATUS leaves the last command's status as its reply. -/
theorem mgmtStatus_whole : mgmtStatus .whole d =
    (let l := d.mgmt.last
     updMgmt (fun m => { m with reply := some .status, bytes := leBytes 1 l.1 ++ leBytes 1 l.2.1 ++ leBytes 1 l.2.2 })
      (bump (kMt 0x050) (mgmtOpen (mgmtPhase d 3 []) d))) := by
  simp only [mgmtStatus, hans, frameStatus_whole (count := 1) (a := 0) (by decide) (by decide) (by decide), Bool.not_true,
    Bool.false_eq_true, if_false]

/-- The pending reply is returned, with its PEC in I²C mode. -/
theorem mgmtReadPhase_pending {again : Bool} (h : d.mgmt.reply.isSome = true) : mgmtReadPhase again d =
    (let pec := crc8 ((if again then d.mgmt.sent else []) ++ addrByte d true :: d.mgmt.bytes)
     answer .mgmt (.data (if i3cMode d then d.mgmt.bytes else d.mgmt.bytes ++ [pec]) false)
      (updMgmt (fun m => { m with reply := none, bytes := [] }) d)) := by
  have hnone : d.mgmt.reply.isNone = false := by rw [← Option.not_isSome, h]; rfl
  simp only [mgmtReadPhase, hans, hnone, Bool.not_true, Bool.false_eq_true, if_false]

/-- A stretched clock abandons the transaction in I²C mode, where that is enabled. -/
theorem sclTimeout_enabled (hi2c : i3cMode d = false) (hen : rdB d (kMt 0x044) 1 = true) :
    sclTimeout d = flag0 T.MTB 0 0 0 (bump (kMt 0x058) d) := by
  simp only [sclTimeout, hans, hi2c, hen, Bool.not_true, Bool.or_self, Bool.false_eq_true, if_false]

/-! ### CCCs (R535, R536) -/

/-- A CCC acts in I3C mode. -/
theorem ccc_i3c {f : Dev → Dev} (hi3c : i3cMode d = true) : ccc f d = f d := if_pos (by rw [hans, hi3c]; rfl)

/-- DISEC acts in I3C mode. -/
theorem disec_i3c (hi3c : i3cMode d = true) (int hj : Bool) : disec int hj d = updMgmt (fun m =>
    { m with ibiOn := m.ibiOn && !int, ibis := if int then [] else m.ibis, nacks := if int then 0 else m.nacks
             byIbi := if int then m.ibis.foldl clrBit m.byIbi else m.byIbi
             hjOn := m.hjOn && !hj, hjDone := m.hjDone || hj }) d := by
  simp only [disec, hans, hi3c, Bool.true_or, Bool.and_self, if_true]

section
variable (hi2c : i3cMode d = false)
include hi2c

/-- A target without a dynamic address takes one. -/
theorem entDaa_i2c (addr : Nat) : entDaa addr d = assignDyn addr d := by
  have hnone : d.mgmt.dyn.isNone = true := by rw [← Option.not_isSome, show d.mgmt.dyn.isSome = false from hi2c]; rfl
  simp only [entDaa, hans, hnone, Bool.and_self, if_true]

/-! ### Alerts and Hot-Join (R547 to R549) -/

/-- An alert response that the target wins returns its address. -/
theorem alertRead_wins : alertRead true d =
    (let b : Byte := BitVec.ofNat 8 (2 * staticAddr d)
     answer .mgmt (.data [b, crc8 [0x19, b]] false)
      (if rdB d (kMt 0x044) 5 then updMgmt (fun m => { m with released := true, fallback := 0 }) d else d)) := by
  simp only [alertRead, hans, hi2c, Bool.not_true, Bool.or_self, Bool.false_eq_true, if_false]

/-- An alert response that the target loses is flagged. -/
theorem alertRead_loses : alertRead false d = flag0 T.MTB 0 6 0 d := by
  simp only [alertRead, hans, hi2c, Bool.not_true, Bool.not_false, Bool.or_self, Bool.false_eq_true, if_false, if_true]

/-- A Hot-Join request that is due is acknowledged, or tried again later. -/
theorem hotJoin_due {ack : Bool} (hwaits : d.mgmt.hjDone = false) (hon : d.mgmt.hjOn = true) (hen : rdB d (kMt 0x044) 2 = true)
    (hdue : due d d.mgmt.hjAt = true) (hnacks : d.mgmt.hjNacks < 7) :
    hotJoin ack d = (if ack then updMgmt (fun m => { m with hjDone := true }) d
      else updMgmt (fun m => { m with hjNacks := m.hjNacks + 1, hjAt := tick d + 100000 }) d) := by
  have hdyn : d.mgmt.dyn.isSome = false := hi2c
  have hmore : d.mgmt.hjNacks + 1 < 8 := by omega
  simp only [hotJoin, hans, hwaits, hon, hen, hdue, hdyn, hmore, Bool.not_true, Bool.or_self, Bool.false_eq_true, if_false, if_true]

end

section
variable {t0 : Nat} {rest : List Nat} (hmode : ibiMode d = true) (hibis : d.mgmt.ibis = t0 :: rest)

omit hans in
include hibis in
/-- The oldest alert that waits is over. -/
theorem ibiOver_cons : ibiOver d = updMgmt (fun m => { m with ibis := rest, nacks := 0 }) d := by
  simp only [ibiOver, updMgmt, hibis, List.drop_one, List.tail_cons]

include hmode hibis

/-- An interrupt that is taken tells the lowest alert. -/
theorem ibiRetry_ack {t : Nat} (hlow : findBelow 0x1D (fun t => (alertPending d).testBit t) = some t) : ibiRetry true d =
    answer .mgmt (.data [0, BitVec.ofNat 8 t] false) (updMgmt (fun m => { m with ibis := rest, nacks := 0 }) d) := by
  simp only [ibiRetry, hans, hmode, hlow, ibiOver_cons hibis, hibis, Option.getD_some, Bool.not_true, Bool.or_self, Bool.false_eq_true,
    if_false, if_true]

/-- An interrupt that is refused is tried again. -/
theorem ibiRetry_nack (hnacks : d.mgmt.nacks < 7) : ibiRetry false d = updMgmt (fun m => { m with nacks := m.nacks + 1 }) d := by
  have hmore : d.mgmt.nacks + 1 < 8 := by omega
  simp only [ibiRetry, hans, hmode, hibis, hmore, Bool.not_true, Bool.or_self, Bool.false_eq_true, if_false, if_true]

/-- After eight refusals the interrupt is given up, and falls back to ALERT_N where that is enabled. -/
theorem ibiRetry_last (hnacks : 7 ≤ d.mgmt.nacks) : ibiRetry false d =
    (let e := bumpBy (kMt 0x05C) 8 (updMgmt (fun m => { m with ibis := rest, nacks := 0 }) d)
     if rdB e (kMt 0x044) 3 && rdB e (rk T.SYS 0 1 0x048) 0 then ibiFallback t0 e else e) := by
  have hlast : ¬ d.mgmt.nacks + 1 < 8 := by omega
  simp only [ibiRetry, hans, hmode, hlast, ibiOver_cons hibis, hibis, Bool.not_true, Bool.or_self, Bool.false_eq_true, if_false]

end

end

/-- Settles O39: a frame that is whole is served, a CCC acts in its mode, and an interrupt goes by its refusals. -/
theorem managementRowsComplete : Obligations.ManagementRowsComplete := by
  unfold Obligations.ManagementRowsComplete
  constructor
  · rintro s d rfl hpins hans
    have hbus : ∀ f, overPins f s.begins = f s.begins := fun f => overPins_open hpins
    refine ⟨?read, ?write, effect_of ((hbus _).trans (mgmtStatus_whole hans)),
      fun again h => effect_of ((hbus _).trans (mgmtReadPhase_pending hans h)),
      fun hi2c hen => effect_of ((hbus _).trans (sclTimeout_enabled hans hi2c hen))⟩
    case read =>
      intro addr count hcount hmost halign hwin e r hok
      exact effect_of ((hbus _).trans (mgmtRead_whole hans hcount hmost halign hwin hok))
    case write =>
      intro addr count words hlen hcount hmost halign hwin hinj e r hok
      exact effect_of ((hbus _).trans (mgmtWrite_whole hans hcount hmost halign hwin hlen hinj hok))
  · rintro s d rfl hpins hans
    have hbus : ∀ f, overPins f s.begins = f s.begins := fun f => overPins_open hpins
    refine ⟨fun hi2c => ⟨fun addr => ⟨effect_of ((hbus _).trans (entDaa_i2c hans hi2c _)),
        effect_of ((hbus _).trans (entDaa_i2c hans hi2c _))⟩, effect_of ((hbus _).trans (alertRead_wins hans hi2c)),
        effect_of ((hbus _).trans (alertRead_loses hans hi2c)),
        fun ack hwaits hon hen hdue hnacks => effect_of ((hbus _).trans (hotJoin_due hans hi2c hwaits hon hen hdue hnacks))⟩, ?i3c, ?ibi⟩
    case i3c =>
      intro hi3c
      have hccc : ∀ f, overPins (ccc f) s.begins = f s.begins := fun f => (hbus _).trans (ccc_i3c hans hi3c)
      exact ⟨fun addr => effect_of (hccc _), effect_of (hccc _), fun int hj => ⟨effect_of (hccc _),
        effect_of ((hbus _).trans (disec_i3c hans hi3c int hj))⟩, effect_of (hccc _), effect_of (hccc _), effect_of (hccc _),
        effect_of (hccc _), fun len => ⟨effect_of (hccc _), effect_of (hccc _)⟩, effect_of (hccc _), effect_of (hccc _)⟩
    case ibi =>
      intro t0 rest hmode hibis
      refine ⟨fun t hlow => effect_of ((hbus _).trans (ibiRetry_ack hans hmode hibis hlow)),
        fun hnacks => effect_of ((hbus _).trans (ibiRetry_nack hans hmode hibis hnacks)), fun hnacks => ?_⟩
      have hlast := (hbus _).trans (ibiRetry_last hans hmode hibis hnacks)
      refine ⟨fun hoff => effect_of (hlast.trans (if_neg ?_)), fun hfall hsys => effect_of (hlast.trans (if_pos ?_))⟩
      · obtain hfall | hsys := hoff
        · rw [hfall, Bool.false_and]; decide
        · rw [hsys, Bool.and_false]; decide
      · rw [hfall, hsys]; rfl

end Sys2Proof.Machine

/-! ## Lists of a controller port (R552 to R559) -/

namespace Sys2Proof.Machine

section
variable {d : Dev} {p : Nat} {r : ListRun} {w n : Nat}

/-! ### Transactions (R552 to R554, R556) -/

/-- The module once the lines are found free and the command's bytes are on the bus. -/
def onWire (p : Nat) (r : ListRun) (w : Nat) (d : Dev) : Dev :=
  let f := updTw p (fun x => { x with scl := true, sda := true }) d
  updTw p (fun x => { x with wire := listWire f p r w }) f

section
variable (hrun : (twPort d p).run = some r) (hop : listOp d p r = some w) (hwords : opWords w = some n)
  (hfits : opFits r n = true) (hgoes : r.stop = false) (hmode : (twPort d p).mode ≠ .stuck)

section
variable (hgov : govAhead d p = false) (hnack : armed d T.TWC p 0 0 = none) (hlines : armed d T.TWC p 0 3 = none)
include hrun hop hwords hfits hgoes hmode hgov hnack hlines

/-- A transaction over free lines that is acknowledged goes on to what it does when it is done; its first attempt is counted. -/
theorem transaction_done {op : Nat} {retry : ListRun → Bool} {done : ListRun → Nat → Dev → Dev} (hcode : fld w 31 28 = op)
    (hretry : retry r = true) : transaction p op retry .free .done done d =
      done r w (nextOp p n ((if firstTry r = true then twCount p 0 else id) (onWire p r w d))) := by
  have hwire : armed (updTw p (fun x => { x with scl := true, sda := true }) d) T.TWC p 0 0 = none := hnack
  simp only [transaction, hrun, hop, hwords, hcode, hfits, hgoes, hgov, hmode, hretry, injectedLines, hlines, lineCheck, attempt, hwire,
    Option.isSome_none, ne_eq, not_true_eq_false, decide_false, Bool.not_true, Bool.or_self, Bool.false_and, Bool.false_eq_true,
    if_false, if_true]
  rfl

/-- The first attempt of a list's transaction that is acknowledged. -/
theorem listTxn_done {op : Nat} {bs : List Byte} (hcode : fld w 31 28 = op) (hfirst : firstTry r = true) :
    listTxn p op .free .done bs d = opDone p op bs r w (nextOp p n (twCount p 0 (onWire p r w d))) := by
  rw [listTxn, transaction_done hrun hop hwords hfits hgoes hmode hgov hnack hlines hcode hfirst, if_pos hfirst]

omit hwords hfits hgoes hmode hgov hnack hlines in
/-- The opcode at the running list's place. -/
theorem runOp_eq : runOp d p = fld w 31 28 := by
  simp only [runOp, hrun, hop, Option.getD_some]

/-- A transaction whose address was not acknowledged is tried again, and is acknowledged. -/
theorem addrRetry_done (hcode : fld w 31 28 = 1) (hnacks : r.nacks ≠ 0) :
    addrRetry p .free .done [] d = nextOp p n (onWire p r w d) := by
  have hnext : firstTry r ≠ true := by simp only [firstTry, hnacks, decide_false, Bool.false_and, Bool.false_eq_true, not_false_eq_true, ne_eq]
  rw [addrRetry, runOp_eq hrun hop, transaction_done hrun hop hwords hfits hgoes hmode hgov hnack hlines rfl (decide_eq_true hnacks),
    if_neg hnext, hcode]
  rfl

/-- A transaction that lost arbitration is tried again, and is acknowledged. -/
theorem arbRetry_done (hcode : fld w 31 28 = 1) (hlosts : r.losts ≠ 0) :
    arbRetry p .free .done [] d = nextOp p n (onWire p r w d) := by
  have hnext : firstTry r ≠ true := by simp only [firstTry, hlosts, decide_false, Bool.and_false, Bool.false_eq_true, not_false_eq_true, ne_eq]
  rw [arbRetry, runOp_eq hrun hop, transaction_done hrun hop hwords hfits hgoes hmode hgov hnack hlines rfl (decide_eq_true hlosts),
    if_neg hnext, hcode]
  rfl

end

include hrun hop hgoes

/-- A clock that is stretched too long ends the list, once the lines are free. -/
theorem stretchTimeout_free (hmode : (twPort d p).mode ≠ .stuck) (hcode : fld w 31 28 = 1 ∨ fld w 31 28 = 2 ∨ fld w 31 28 = 4)
    (hfirst : firstTry r = true) : stretchTimeout p .free d =
      endRun p 0x05 r.pc (fld w 26 20) (updTw p (fun x => { x with scl := true, sda := true }) (twCount p 0 d)) := by
  have hop3 : (fld w 31 28 = 1 || fld w 31 28 = 2 || fld w 31 28 = 4) = true := by simpa [or_assoc] using hcode
  simp only [stretchTimeout, hrun, hop, hop3, hgoes, hmode, hfirst, lineCheck, decide_false, Bool.not_true, Bool.or_self,
    Bool.false_eq_true, if_false, if_true]

section
variable (hcode : fld w 31 28 = 3)
include hcode

/-- A DELAY begins. -/
theorem listDelay_begins (htill : r.till = none) : listDelay p d =
    updTw p (fun x => { x with run := some { r with till := some (tick d + fld w 15 0) } }) d := by
  simp only [listDelay, hrun, hop, hcode, hgoes, htill, ne_eq, not_true_eq_false, decide_false, Bool.or_self, Bool.false_eq_true, if_false]

/-- A DELAY whose time is over ends. -/
theorem listDelay_ends {t : Nat} (htill : r.till = some t) (hdue : t ≤ tick d) : listDelay p d = nextOp p 1 d := by
  simp only [listDelay, hrun, hop, hcode, hgoes, htill, hdue, ne_eq, not_true_eq_false, decide_false, Bool.or_self, Bool.false_eq_true,
    if_false, if_true]

end

include hwords hfits in
/-- A list completes at END. -/
theorem listEnd_completes (hcode : fld w 31 28 = 0) : listEnd p d = endRun p 0 0 0 d := by
  simp only [listEnd, hrun, hop, hgoes, hwords, hfits, hcode, Bool.not_true, Bool.false_eq_true, if_false, if_true]

omit hop hgoes in
/-- A list that is to stop ends at a boundary. -/
theorem listEnd_stops (hstop : r.stop = true) : listEnd p d = endRun p 0x08 0 0 d := by
  simp only [listEnd, hrun, hstop, if_true]

end

/-- The bytes of a READ that is answered in full go to READ_BUF. -/
theorem opDone_read {bs : List Byte} (hlen : bs.length = fld w 7 0) : opDone p 4 bs r w d = readBuf p bs d := by
  rw [opDone, ← hlen, List.take_left]

/-! ### Registers of a controller port (R552, R555, R557) -/

section
variable {k v : Nat} {who : Who}

/-- A list that a command asks for and may have waits, and starts when none runs. -/
theorem listAsked_command (hk : k < 64) (hen : enabled d T.TWC p = true) (hmode : (twPort d p).mode ≠ .stuck)
    (hvalid : bit (listDir d p k) 31 = true) (hroom : (twPort d p).run.isSome = true → (twPort d p).queue.length < 8) :
    listAsked p k .command d = startNext p (updTw p (fun x => { x with queue := x.queue ++ [⟨k, .command⟩] }) d) := by
  have hno : ¬ 64 ≤ k := by omega
  have hfull : ((twPort d p).run.isSome && decide (8 ≤ (twPort d p).queue.length)) = false := by
    cases h : (twPort d p).run.isSome with
    | false => rfl
    | true => exact decide_eq_false (Nat.not_le.mpr (hroom h))
  simp only [listAsked, hen, hmode, Nat.mod_eq_of_lt hk, hvalid, hno, hfull, Bool.not_true, ne_eq, not_true_eq_false, decide_false,
    Bool.false_and, Bool.or_self, Bool.false_eq_true, if_false]

/-- A bus that is asked to recover while its lines are free is idle. -/
theorem recoverBus_free : recoverBus p .free d = startNext p
    (updTw p (fun x => { x with mode := .idle }) (updTw p (fun x => { x with scl := true, sda := true }) d)) := rfl

/-- An entry of the directory whose list is not in use is written. -/
theorem listDirWrite_free (h : (activeLists d p).contains k = false) :
    listDirWrite p k v d = wr (kW p (0x100 + 4 * k)) (v &&& 0x8F3FF3FF) d := by
  rw [listDirWrite, if_neg (by rw [h]; decide)]

/-- An entry of the directory whose list is in use is not written. -/
theorem listDirWrite_used (h : (activeLists d p).contains k = true) : listDirWrite p k v d = flag0 T.TWC p 10 k d := if_pos h

/-- A word of list RAM that no active list holds is written. -/
theorem lramWrite_free (h : wordBusy d p (lramSel d p) = none) : lramWrite p v d = lramNext p
    (updTw p (fun x => { x with ram := Map.set (fun _ => 0) x.ram (lramSel d p) (v % 2 ^ 32) }) d) := by
  rw [lramWrite, h]

section
variable {off : Nat} (hp : p < 4) (ho : off < 0x1000)
include hp ho

/-- Where a word of a controller port's page stands. -/
theorem kW_place : keyTy (kW p off) = 0x19 ∧ keyInst (kW p off) = p ∧ keyOff (kW p off) = off := by
  have hslot : slotOk T.TWC p 0 = true := slotOk_of (p := .vm4_42) hp (by decide)
  exact ⟨rk_ty hslot ho, rk_inst hslot ho, rk_off _ _ _ ho⟩

/-- A row that writes a block register of a controller port's page. -/
theorem effect_kW {s : State} {e : Dev} (hput : mayPut s.begins who (kW p off) v = true) (halign : off % 4 = 0) (hblock : 0x040 ≤ off)
    (hacts : ∀ m, blockWrite who m (kW p off) (v % 2 ^ 32) (touched who s.begins) = some e) :
    effect (regCmd who (kW p off) v) s = .next (s.ends e) := by
  obtain ⟨hty, -, hoff⟩ := kW_place hp ho
  exact effect_block hput (rk_mod4 _ _ _ halign) (by rw [hoff]; exact hblock)
    (by rw [hty]; exact fun hrearm => absurd hrearm.1 (by decide)) (hacts _)

end

section
variable {m : Nat} (hp : p < 4)
include hp

/-- LIST_CMD with RUN asks for its list. -/
theorem blockWrite_listCmd : blockWrite who m (kW p 0x04C) v d = some (if bit v 8 then listAsked p (fld v 5 0) .command d else d) := by
  obtain ⟨hty, hinst, hoff⟩ := kW_place (off := 0x04C) hp (by decide)
  simp only [blockWrite, hty, hinst, hoff, if_true]

/-- LRAM_DATA is a word of list RAM. -/
theorem blockWrite_lramData : blockWrite who m (kW p 0x084) v d = some (lramWrite p v d) := by
  obtain ⟨hty, hinst, hoff⟩ := kW_place (off := 0x084) hp (by decide)
  simp only [blockWrite, hty, hinst, hoff, if_true, if_neg (show ¬ 0x084 = 0x04C by decide), if_neg (show ¬ 0x084 = 0x054 by decide)]

/-- LIST_DIR acts by its own rule. -/
theorem blockWrite_listDir {k : Nat} (hk : k < 64) : blockWrite who m (kW p (0x100 + 4 * k)) v d = some (listDirWrite p k v d) := by
  obtain ⟨hty, hinst, hoff⟩ := kW_place (off := 0x100 + 4 * k) hp (by omega)
  have hin : inR (0x100 + 4 * k) 0x100 0x100 = true := by simp only [inR, Bool.and_eq_true, decide_eq_true_eq]; omega
  have hlist : (0x100 + 4 * k - 0x100) / 4 = k := by omega
  have hcmd : ¬ 0x100 + 4 * k = 0x04C := by omega
  have hrecover : ¬ 0x100 + 4 * k = 0x054 := by omega
  have hdata : ¬ 0x100 + 4 * k = 0x084 := by omega
  simp only [blockWrite, hty, hinst, hoff, hin, hlist, if_neg hcmd, if_neg hrecover, if_neg hdata, if_true]

end

end

end

/-- What LIST_CMD asks for with RUN. -/
theorem listCmd_fields (list : Fin 64) : bit ((256 + list.val) % 2 ^ 32) 8 = true ∧ fld ((256 + list.val) % 2 ^ 32) 5 0 = list.val := by
  revert list; decide

/-- Settles O40: a transaction goes by its lines and its answer, a delay and an end by the list's place, and a register by its own
rule. -/
theorem listRowsComplete : Obligations.ListRowsComplete := by
  unfold Obligations.ListRowsComplete
  rintro s d rfl bus p rfl
  have hp := bus.isLt
  refine ⟨fun r w n hrun hop hwords hfits hgoes hmode => ⟨?transactions, ?stretch, ?delay, ?ends⟩,
    fun r hrun hstop => effect_of (listEnd_stops hrun hstop), ?registers⟩
  case transactions =>
    rintro hpins hgov hnack hlines e rfl
    have hbus : ∀ f, overPins f s.begins = f s.begins := fun f => overPins_open hpins
    have hdone := fun op bs hcode hfirst => (hbus _).trans
      (listTxn_done (op := op) (bs := bs) hrun hop hwords hfits hgoes hmode hgov hnack hlines hcode hfirst)
    refine ⟨fun hfirst => ⟨fun hcode => effect_of (hdone 1 [] hcode hfirst), fun byte hcode => effect_of (hdone 2 [byte] hcode hfirst),
      fun bytes hcode hlen => effect_of ((hdone 4 bytes hcode hfirst).trans (opDone_read hlen))⟩, fun hcode => ⟨fun hnacks => ?_, fun hlosts => ?_⟩⟩
    · exact effect_of ((hbus _).trans (addrRetry_done hrun hop hwords hfits hgoes hmode hgov hnack hlines hcode hnacks))
    · exact effect_of ((hbus _).trans (arbRetry_done hrun hop hwords hfits hgoes hmode hgov hnack hlines hcode hlosts))
  case stretch =>
    exact fun hpins hcode hfirst => effect_of ((overPins_open hpins).trans (stretchTimeout_free hrun hop hgoes hmode hcode hfirst))
  case delay =>
    exact fun hcode => ⟨fun htill => effect_of (listDelay_begins hrun hop hgoes hcode htill),
      fun t htill hdue => effect_of (listDelay_ends hrun hop hgoes hcode htill hdue)⟩
  case ends => exact fun hcode => effect_of (listEnd_completes hrun hop hwords hfits hgoes hcode)
  case registers =>
    rintro who e rfl
    refine ⟨fun list hput hen hmode hvalid hroom => ?run, fun hput => effect_of (regWith_open hput), fun list value hput => ?dir,
      fun value hput hfree => ?ram⟩
    case run =>
      obtain ⟨hcmd, hlist⟩ := listCmd_fields list
      refine effect_kW hp (by decide) hput (by decide) (by decide) fun m => ?_
      rw [blockWrite_listCmd hp, hcmd, hlist, if_pos rfl, listAsked_command list.isLt hen hmode hvalid hroom]
    case dir =>
      have hacts := fun e he => effect_kW (e := e) hp (show 0x100 + 4 * list.val < 0x1000 by omega) hput (by omega) (by omega)
        fun m => (blockWrite_listDir hp list.isLt).trans (congrArg some he)
      rw [Nat.mod_eq_of_lt value.isLt] at hacts
      exact ⟨fun hfree => hacts _ (listDirWrite_free hfree), fun hused => hacts _ (listDirWrite_used hused)⟩
    case ram =>
      refine effect_kW hp (by decide) hput (by decide) (by decide) fun m => ?_
      rw [blockWrite_lramData hp, lramWrite_free hfree, Nat.mod_mod, Nat.mod_eq_of_lt value.isLt]

end Sys2Proof.Machine

/-! ## Touch, buttons, lights and hot-plug inputs (R566 to R570, R576, R579, R580) -/

namespace Sys2Proof.Machine

section
variable {d : Dev} {i : Nat}

/-! ### Words of the input half -/

theorem hmiIn_updIn (f : HmiIn → HmiIn) (d : Dev) (i : Nat) : hmiIn (updIn i f d) i = f (hmiIn d i) :=
  (Map.get_upd _ _ _ _ _).trans (if_pos rfl)

/-- Showing an input changes no input. -/
theorem hmiIn_showInput (j : Nat) (d : Dev) (i : Nat) : hmiIn (showInput j d) i = hmiIn d i := by
  simp only [showInput, hmiIn, wrB_hmi]

/-- Showing an input changes the words of the levels alone. -/
theorem rd_showInput {k : Nat} (hlevels : k ≠ kM 0 0x040) (hmasked : k ≠ kM 0 0x044) (hraw : k ≠ kM 0 0x048) (j : Nat) (d : Dev) :
    rd (showInput j d) k = rd d k := by
  rw [showInput, wrB, wrB, wrB, rd_wr_other _ _ hraw, rd_wr_other _ _ hmasked, rd_wr_other _ _ hlevels]

/-- A word of the AON pages is none of the HMI pages. -/
theorem kAon_ne_kM (a o n : Nat) (ha : a < 2) (ho : o < 0x1000) : kAon a o ≠ kM 0 n := by
  have hty : T.AON = 0x04 ∧ T.HMI = 0x1A ∧ pagesPer T.AON = 2 := ⟨rfl, rfl, rfl⟩
  unfold kAon kM rk
  omega

section
variable {v : Bool}

/-- The module once a pin has a new level. -/
def pinMoved (i : Nat) (v : Bool) (d : Dev) : Dev := showInput i (updIn i (fun x => { x with pin := v, pinAt := aonNow d }) d)

theorem hmiIn_pinMoved : (hmiIn (pinMoved i v d) i).pin = v ∧ (hmiIn (pinMoved i v d) i).pinAt = aonNow d ∧
    (hmiIn (pinMoved i v d) i).level = (hmiIn d i).level := by
  rw [pinMoved, hmiIn_showInput, hmiIn_updIn]
  exact ⟨rfl, rfl, rfl⟩

/-- A pin's level does not change the time. -/
theorem aonNow_pinMoved : aonNow (pinMoved i v d) = aonNow d := by
  have hrd : ∀ o, o < 0x1000 → rd (pinMoved i v d) (kAon 0 o) = rd d (kAon 0 o) := fun o ho =>
    rd_showInput (kAon_ne_kM 0 o _ (by decide) ho) (kAon_ne_kM 0 o _ (by decide) ho) (kAon_ne_kM 0 o _ (by decide) ho) _ _
  exact rd64_congr (hrd 0x040 (by decide)) (hrd 0x044 (by decide))

/-- A pin's level does not change its debounce time. -/
theorem debounceMs_pinMoved : debounceMs (pinMoved i v d) i = debounceMs d i := by
  have hne : ∀ n, n < 0x080 → kM 0 (0x080 + 8 * i) ≠ kM 0 n := fun n hn => by unfold kM rk; omega
  rw [debounceMs, rdF, pinMoved, rd_showInput (hne _ (by decide)) (hne _ (by decide)) (hne _ (by decide))]
  rfl

end

/-! ### Pins, gaps and masks (R566 to R569) -/

/-- A debounce that is not over, or of a level that stands, changes nothing. -/
theorem debounceEnds_still {full : Bool} (h : (hmiIn d i).pin = (hmiIn d i).level ∨ i < 8 ∨ aonNow d < (hmiIn d i).pinAt + inputMs (debounceMs d i)) :
    debounceEnds i full d = d := by
  rw [debounceEnds, if_pos]
  simp only [Bool.or_eq_true, decide_eq_true_eq]
  obtain h | h | h := h
  · exact Or.inl (Or.inr h)
  · exact Or.inl (Or.inl (Or.inl h))
  · exact Or.inr h

section
variable {full : Bool} (hpin : 8 ≤ i) (hlast : i < 23)
include hpin hlast

/-- A debounce that is over moves the level. -/
theorem debounceEnds_over (hmoved : (hmiIn d i).pin ≠ (hmiIn d i).level) (hdue : (hmiIn d i).pinAt + inputMs (debounceMs d i) ≤ aonNow d) :
    debounceEnds i full d = setLevel i (hmiIn d i).pin full d := by
  simp only [debounceEnds, Nat.not_lt.mpr hpin, Nat.not_lt.mpr (Nat.le_of_lt_succ hlast), hmoved, Nat.not_lt.mpr hdue, decide_false,
    Bool.or_self, Bool.false_eq_true, if_false]

/-- What a pin's debounce comes to. -/
theorem debounceEnds_pin : debounceEnds i full d =
    if (hmiIn d i).pin ≠ (hmiIn d i).level ∧ (hmiIn d i).pinAt + inputMs (debounceMs d i) ≤ aonNow d
    then setLevel i (hmiIn d i).pin full d else d := by
  split
  · next h => exact debounceEnds_over hpin hlast h.1 h.2
  · next h =>
    refine debounceEnds_still ?_
    by_cases hsame : (hmiIn d i).pin = (hmiIn d i).level
    · exact Or.inl hsame
    · exact Or.inr (Or.inr (Nat.not_le.mp fun hdue => h ⟨hsame, hdue⟩))

/-- A pin that has been stuck long enough is masked, once its debounce has acted. -/
theorem stuckEnds_pin : stuckEnds i full d =
    (let e := debounceEnds i full d; if stuckDue e i then maskInput i full e else e) := by
  have htouch : ¬ i < 8 := Nat.not_lt.mpr hpin
  have hid : ¬ 22 < i := by omega
  dsimp only
  rw [stuckEnds]
  simp only [htouch, hid, decide_false, Bool.false_or, Bool.false_and, Bool.or_false]
  cases stuckDue (debounceEnds i full d) i with
  | false => rfl
  | true => rfl

section
variable {v : Bool} (hmoves : (hmiIn d i).pin ≠ v)
include hmoves

/-- Without VAON a pin has its level. -/
theorem pinChanges_off (hoff : d.pwr.state = .off) : pinChanges i v full d = updIn i (fun x => { x with pin := v, level := v }) d := by
  simp only [pinChanges, Nat.not_lt.mpr hpin, Nat.not_lt.mpr (Nat.le_of_lt_succ hlast), hmoves, hoff, decide_false, Bool.or_self,
    Bool.false_eq_true, if_false, if_true]

variable (hon : d.pwr.state ≠ .off)
include hon

/-- With VAON a pin that moves starts its debounce. -/
theorem pinChanges_on : pinChanges i v full d = debounceEnds i full (pinMoved i v d) := by
  simp only [pinChanges, Nat.not_lt.mpr hpin, Nat.not_lt.mpr (Nat.le_of_lt_succ hlast), hmoves, hon, decide_false, Bool.or_self,
    Bool.false_eq_true, if_false]
  rfl

/-- A debounce time that is not 0 has just begun. -/
theorem pinChanges_debounced (hms : debounceMs d i ≠ 0) : pinChanges i v full d = pinMoved i v d := by
  obtain ⟨-, hpinAt, -⟩ := hmiIn_pinMoved (d := d) (i := i) (v := v)
  rw [pinChanges_on hpin hlast hmoves hon, debounceEnds_still]
  rw [hpinAt, aonNow_pinMoved, debounceMs_pinMoved, inputMs]
  exact Or.inr (Or.inr (by omega))

/-- With a debounce time of 0 the level follows. -/
theorem pinChanges_follows (hms : debounceMs d i = 0) (hlevel : (hmiIn d i).level ≠ v) :
    pinChanges i v full d = setLevel i v full (pinMoved i v d) := by
  obtain ⟨hpinNow, hpinAt, hlevelNow⟩ := hmiIn_pinMoved (d := d) (i := i) (v := v)
  rw [pinChanges_on hpin hlast hmoves hon, debounceEnds_over hpin hlast, hpinNow]
  · rw [hpinNow, hlevelNow]
    exact Ne.symm hlevel
  · rw [hpinAt, aonNow_pinMoved, debounceMs_pinMoved, hms, inputMs]
    omega

end

end

/-- A gap that is over posts a level that is not the one last posted, once what waits has gone. -/
theorem gapEnds_over {e : Dev} (he : e = flushWaiting d) (hstill : (hmiIn e i).pin = (hmiIn e i).level ∨ i < 8)
    (hgap : (hmiIn e i).gapEnd ≠ 0) (hdue : (hmiIn e i).gapEnd ≤ aonNow e + 1) : gapEnds i false d = gapOver i false e := by
  have hdeb : debounceEnds i false e = e := debounceEnds_still (hstill.imp_right Or.inl)
  have hroom : hmiRoom false d = e := he.symm
  simp only [gapEnds, hroom, hdeb, hgap, Nat.not_lt.mpr hdue, decide_false, Bool.or_self, Bool.false_eq_true, if_false]

/-- What the end of a gap posts. -/
theorem gapOver_room {f : Dev} (hf : f = updIn i (fun x => { x with gapEnd := 0 }) d) : gapOver i false d =
    if (hmiIn f i).blocked = false ∧ reported f i ≠ (hmiIn f i).posted ∧ eventsOn f i = true then postLevel i f else f := by
  subst hf
  by_cases hposts : (hmiIn (updIn i (fun x => { x with gapEnd := 0 }) d) i).blocked = false ∧
      reported (updIn i (fun x => { x with gapEnd := 0 }) d) i ≠ (hmiIn (updIn i (fun x => { x with gapEnd := 0 }) d) i).posted ∧
      eventsOn (updIn i (fun x => { x with gapEnd := 0 }) d) i = true
  · obtain ⟨hfree, hlevel, hon⟩ := hposts
    rw [if_pos ⟨hfree, hlevel, hon⟩]
    simp only [gapOver, hfree, hlevel, hon, decide_false, Bool.not_true, Bool.or_self, Bool.false_eq_true, if_false]
  · rw [if_neg hposts, gapOver, if_pos]
    by_contra hnone
    simp only [Bool.or_eq_true, Bool.not_eq_true', decide_eq_true_eq, not_or, Bool.not_eq_true, Bool.not_eq_false] at hnone
    exact hposts ⟨hnone.1.1, hnone.1.2, hnone.2⟩

/-- A masked input that has been inactive long enough is masked no longer. -/
theorem rearmEnds_due {full : Bool} (hlast : i < 23) (hstill : (hmiIn d i).pin = (hmiIn d i).level ∨ i < 8) (hdue : rearmDue d i = true)
    (hruns : rearmRuns d i = true) : rearmEnds i full d = maskEvent i 3 full (flag0 T.HMI 0 2 i (showInput i
      (updIn i (fun x => { x with masked := false, posted := false, unscanned := false }) d))) := by
  have hid : ¬ 22 < i := by omega
  simp only [rearmEnds, debounceEnds_still (full := full) (hstill.imp_right Or.inl), hid, hdue, hruns, Bool.not_true, decide_false,
    Bool.or_self, Bool.false_eq_true, if_false]

/-! ### Scans (R570, R576) -/

/-- A scan that is due and in time measures the enabled channels. -/
theorem touchScan_due {raws : List Nat} {full : Bool} (hen : enabled d T.HMI 0 = true) (hrun : d.pwr.state = .run)
    (hdue : d.hmi.scanned ≠ 0 → d.hmi.scanned - 1 + inputMs (max 1 (rdF d (kM 0 0x04C) 31 24)) ≤ aonNow d) :
    touchScan raws false full d =
      each ((List.range 8).filter (fun c => rdB d (kM 0 0x04C) (16 + c))) (fun c e => scanChannel c (raws.getD c 0 % 65536) full e)
        (updHmi (fun h => { h with scanned := aonNow d + 1 }) d) := by
  have htime : ¬ aonNow d < (if d.hmi.scanned = 0 then 0 else d.hmi.scanned - 1 + inputMs (max 1 (rdF d (kM 0 0x04C) 31 24))) := by
    split
    · omega
    · next h => exact Nat.not_lt.mpr (hdue h)
  simp only [touchScan, hen, hrun, htime, Bool.not_true, ne_eq, not_true_eq_false, decide_false, Bool.or_self, Bool.false_eq_true, if_false]

/-- A quarter-second scan that is due measures the Dormant channels. -/
theorem dormantScan_due {a b : Nat} (hstate : d.pwr.state = .dormant) (hdue : d.hmi.scanned + quarterSec 1 ≤ aonNow d + 1) :
    dormantScan a b d =
      (let e := updHmi (fun h => { h with scanned := aonNow d + 1 }) d
       each d.hmi.dormant (fun x f => dormantChannel x.1 x.2.1 x.2.2
        ((if x.1 = fld (rd e (kAon 0 0x05C)) 2 0 && rdB f (kAon 0 0x05C) 8 then a else b) % 65536) f) e) := by
  simp only [dormantScan, hstate, Nat.not_lt.mpr hdue, ne_eq, not_true_eq_false, decide_false, Bool.and_false, Bool.or_self,
    Bool.false_eq_true, if_false]
  rfl

/-! ### Lights (R579, R580) -/

/-- LED_CTRL acts by its own rule, on the value that a plain word would take. -/
theorem blockWrite_ledCtrl {k : Nat} (hk : k < 4) (w : Who) (m v : Nat) (d : Dev) : let a := kM 1 (0x040 + 0x10 * k)
    blockWrite w m a v d = some (ledCtrl k (plainValue m (rd d a) a v) d) := by
  obtain rfl | rfl | rfl | rfl : k = 0 ∨ k = 1 ∨ k = 2 ∨ k = 3 := by omega
  · rfl
  · rfl
  · rfl
  · rfl

/-- LED_RESTART restarts the patterns it names. -/
theorem blockWrite_ledRestart (w : Who) (m v : Nat) (d : Dev) : blockWrite w m (kM 1 0x080) v d = some (ledRestarts (fld v 3 0) d) := rfl

/-- A slot whose time is over gives way to the next one. -/
theorem ledAdvance_due (hends : (getLed d i).ends ≠ 0) (hdue : (getLed d i).ends ≤ tick d) : ledAdvance i d =
    updLed i (fun x => { x with
      slot := if x.slot + 1 < ledLen d i then x.slot + 1 else 0, ends := x.ends + 1000 * ledSlotMs d i }) d := by
  simp only [ledAdvance, hends, Nat.not_lt.mpr hdue, decide_false, Bool.or_self, Bool.false_eq_true, if_false]

end

/-- The patterns that LED_RESTART names. -/
theorem ledRestart_fields (leds : Fin 16) : fld (leds.val % 2 ^ 32) 3 0 = leds.val := by
  revert leds; decide

/-- Settles O41: an input goes by its debounce, its gap and its mask, a scan by its time, and a light by its pattern. -/
theorem interfaceRowsComplete : Obligations.InterfaceRowsComplete := by
  unfold Obligations.InterfaceRowsComplete
  rintro s d rfl
  refine ⟨?inputs, fun raws full hen hrun hdue => effect_of (touchScan_due hen hrun hdue),
    fun first second hstate hdue => effect_of (dormantScan_due hstate hdue), ?lights, ?patterns⟩
  case inputs =>
    rintro input full i rfl
    have hlast := input.isLt
    refine ⟨fun hpin => ⟨fun hmoved hdue => effect_of (debounceEnds_over hpin hlast hmoved hdue), ?stuck,
      fun level hmoves hoff => effect_of (pinChanges_off hpin hlast hmoves hoff), ?moves⟩, ?gap,
      fun hstill hdue hruns => effect_of (rearmEnds_due hlast hstill hdue hruns), ?config⟩
    case stuck =>
      rintro e rfl
      refine effect_of ((stuckEnds_pin hpin hlast).trans ?_)
      dsimp only
      rw [debounceEnds_pin hpin hlast]
    case moves =>
      rintro level e hmoves hon rfl
      exact ⟨fun hms => effect_of (pinChanges_debounced hpin hlast hmoves hon hms),
        fun hms hlevel => effect_of (pinChanges_follows hpin hlast hmoves hon hms hlevel)⟩
    case gap =>
      intro e f he hstill hgap hdue hf
      exact effect_of ((gapEnds_over he hstill hgap hdue).trans (gapOver_room hf))
    case config =>
      rintro who value e rfl hput
      exact effect_of (regWith_open hput)
  case lights =>
    rintro who e rfl
    refine ⟨?_, fun leds hput => ?_⟩
    · rintro led value k rfl hput
      refine effect_block hput (rk_mod4 _ _ _ (by omega)) ?_ ?_ ((blockWrite_ledCtrl led.isLt _ _ _ _).trans ?_)
      · rw [kM, rk_off _ _ _ (by omega)]; omega
      · exact fun hrearm => absurd hrearm.1 (by rw [kM, rk_ty (by decide) (by omega)]; decide)
      · rw [Nat.mod_eq_of_lt value.isLt]
        rfl
    · refine effect_block hput (by decide) (by decide) (by decide) ?_
      rw [blockWrite_ledRestart, ledRestart_fields]
      rfl
  case patterns =>
    rintro led k x rfl rfl
    exact ⟨fun hends hdue => effect_of (ledAdvance_due hends hdue), effect_of rfl⟩

end Sys2Proof.Machine

/-! ## Requests of the host (R505, R507, R508, R514) -/

namespace Sys2Proof.Machine

section
variable {d e : Dev} {f : Fin 16} {h : HostHeld}

/-- Naming again what befalls the next packet changes nothing. -/
theorem onWay_same {m : Mishap} (hway : d.net.way = m) : onWay m d = d := by
  subst hway
  rfl

/-- A header that is kept changes the endpoint's headers alone. -/
theorem keepHeader_frame {g a n id : Nat} (hkeep : keepHeader g a n d = (id, e)) :
    e.hst.inbox = d.hst.inbox ∧ e.net = d.net ∧ e.yard = d.yard ∧ e.dpt = d.dpt := by
  obtain ⟨-, rfl⟩ := Prod.mk.inj hkeep
  exact ⟨rfl, rfl, rfl, rfl⟩

/-- A request that arrives while none is held, and may take effect, does so. -/
theorem hostArrives_ready (hempty : d.hst.inbox = []) (hready : hostReady d h = true) : hostArrives h d = hostEffect h d := by
  have hkept : ({ d with hst := { d.hst with inbox := [] } } : Dev) = d := by rw [← hempty]
  have hnow : hostReady { d with hst := { d.hst with inbox := [h] } } h = true := hready
  simp only [hostArrives, hempty, List.nil_append, List.isEmpty_nil, hready, Bool.and_self, if_true, List.length_singleton, drainHost,
    hnow, hkept]

/-- A write that is neither poisoned nor hit by an injection arrives with its header kept. -/
theorem inboundWrite_clean {addr len id : Nat} {req : Nat → HostReq} (hinj : armed d T.HST 0 0 4 = none)
    (hkeep : keepHeader f.val addr len (bump (kH 0 0x050) d) = (id, e)) :
    inboundWrite f addr len false .clear req d = hostArrives ⟨f, req id, .clear⟩ e := by
  simp only [inboundWrite, hinj, hkeep, Option.isSome_none, Bool.or_self, Bool.false_eq_true, if_false]

/-- With no posted write outstanding and none held a function is not writing. -/
theorem hostWriting_none (hnone : outstanding d (.host f) = 0)
    (hheld : d.yard.held.any (fun x => x.acc.who = .host f && x.acc.write) = false) : hostWriting d f = false := by
  have hflights : d.net.flights.any (fun x => x.who = .host f && x.posted && isMemory x.addr) = false := by
    have hlen := (Nat.add_eq_zero_iff.mp hnone).1
    rw [List.length_eq_zero_iff, List.filter_eq_nil_iff] at hlen
    refine List.any_eq_false.mpr fun x hx hmine => hlen x hx ?_
    simp only [Bool.and_eq_true] at hmine
    simp only [Bool.and_eq_true, hmine.1, and_self]
  rw [hostWriting, hflights, hheld, Bool.or_self]

/-- The oldest failure notice of a function's write arrives. -/
theorem hostWriteFailed_oldest {g : Flight} {k : Kind} {rest : List Flight} (hst : g.st = .failed k)
    (htake : takeFlight (hostFailure f) d.net.flights = (some g, rest)) : hostWriteFailed f d =
      hostFailed f.val g.addr g.tag k { d with net := { d.net with flights := rest } } := by
  simp only [hostWriteFailed, htake, hst]

end

section
variable {s : State} {f : Fin 16} (hclaims : fnClaims s.begins f = true) (hempty : s.begins.hst.inbox = [])
  (hbraked : hostBraked s.begins = false)
include hclaims hempty hbraked

/-! ### Reads -/

section
variable (hheld : s.begins.yard.held.any (fun x => x.acc.who = .host f && x.acc.write) = false)
include hheld

/-- A BAR0 read of a function whose writes have taken effect. -/
theorem hostBar0_read (o : Nat) (wide : Bool) :
    hostBar0 f o wide none false .clear s.begins = bar0Read f o wide (bump (kH 0 0x050) s.begins) := by
  have hready : hostReady (bump (kH 0 0x050) s.begins) ⟨f, .bar0Read o wide, .clear⟩ = true := by
    simp only [hostReady, show hostBraked (bump (kH 0 0x050) s.begins) = false from hbraked, bump_yard, hheld, Bool.not_false, Bool.and_self]
  rw [hostBar0]
  exact (if_pos hclaims).trans (hostArrives_ready hempty hready)

/-- A BAR2 read of a function whose writes have taken effect. -/
theorem hostBar2_read (q : Nat) :
    hostBar2 f q none false .clear s.begins = bar2Read f q (bump (kH 0 0x050) s.begins) := by
  have hready : hostReady (bump (kH 0 0x050) s.begins) ⟨f, .windowRead q, .clear⟩ = true := by
    simp only [hostReady, show hostBraked (bump (kH 0 0x050) s.begins) = false from hbraked, bump_yard, hheld, Bool.not_false, Bool.and_self]
  rw [hostBar2]
  exact (if_pos hclaims).trans (hostArrives_ready hempty hready)

end

/-- A BAR4 read. -/
theorem hostBar4Read_clear {a len : Nat} (hlen : len ≠ 0) (hmost : len ≤ 4096) :
    hostBar4Read f a len .clear s.begins = bar4Read f a len (bump (kH 0 0x050) s.begins) := by
  have hready : hostReady (bump (kH 0 0x050) s.begins) ⟨f, .bar4Read a len, .clear⟩ = true := by
    simp only [hostReady, show hostBraked (bump (kH 0 0x050) s.begins) = false from hbraked, Bool.not_false, Bool.and_self]
  have hserved : ¬ ((decide (len = 0) || decide (4096 < len)) = true) := by simp only [Bool.or_eq_true, decide_eq_true_eq]; omega
  rw [hostBar4Read, if_neg hserved, if_pos hclaims]
  exact hostArrives_ready hempty hready

/-! ### Writes -/

section
variable {e : Dev} {id a n : Nat} (hinj : armed s.begins T.HST 0 0 4 = none)
  (hkeep : keepHeader f.val a n (bump (kH 0 0x050) s.begins) = (id, e))
include hinj hkeep

omit hclaims hbraked in
/-- A clean write whose request may take effect does so. -/
theorem inboundWrite_ready {req : Nat → HostReq} (hready : hostReady e ⟨f, req id, .clear⟩ = true) :
    inboundWrite f a n false .clear req s.begins = hostEffect ⟨f, req id, .clear⟩ e ∧ onWay .clear e = e := by
  obtain ⟨hinbox, hnet, -, -⟩ := keepHeader_frame hkeep
  exact ⟨(inboundWrite_clean hinj hkeep).trans (hostArrives_ready (hinbox.trans hempty) hready), onWay_same (by rw [hnet]; rfl)⟩

omit hclaims hempty hinj in
/-- A header that is kept holds no producer. -/
theorem hostBraked_kept : hostBraked e = false := by
  obtain ⟨-, -, -, hdpt⟩ := keepHeader_frame hkeep
  rw [hostBraked, hdpt]
  exact hbraked

end

section
variable {e : Dev} {id : Nat} (hinj : armed s.begins T.HST 0 0 4 = none)
include hinj

/-- A BAR0 write. -/
theorem hostBar0_write {o : Nat} {wide : Bool} {v : W64}
    (hkeep : keepHeader f.val (0x40000000 + o) (if wide then 8 else 4) (bump (kH 0 0x050) s.begins) = (id, e)) :
    hostBar0 f o wide (some v) false .clear s.begins = bar0Write f o v.toNat wide id e := by
  obtain ⟨hruns, hway⟩ := inboundWrite_ready (req := fun id => .bar0 o v.toNat wide id) hempty hinj hkeep
    (by simp only [hostReady, hostBraked_kept hbraked hkeep, Bool.not_false, Bool.and_self])
  rw [hostBar0]
  exact ((if_pos hclaims).trans hruns).trans (congrArg (bar0Write f o v.toNat wide id) hway)

/-- An enqueue of a function whose writes are done. -/
theorem hostBar2_enqueue {q : Nat} {img : Image}
    (hkeep : keepHeader f.val (0x60000000 + 0x40 * q) 64 (bump (kH 0 0x050) s.begins) = (id, e))
    (hnone : outstanding s.begins (.host f) = 0)
    (hheld : s.begins.yard.held.any (fun x => x.acc.who = .host f && x.acc.write) = false) :
    hostBar2 f q (some img) false .clear s.begins = bar2Enqueue f q img id e := by
  obtain ⟨-, hnet, hyard, -⟩ := keepHeader_frame hkeep
  have hquiet : hostWriting e f = false := by
    rw [hostWriting, hnet, hyard]
    exact hostWriting_none hnone hheld
  obtain ⟨hruns, hway⟩ := inboundWrite_ready (req := fun id => .enqueue q img id) hempty hinj hkeep
    (by simp only [hostReady, hostBraked_kept hbraked hkeep, hquiet, Bool.not_false, Bool.and_self])
  rw [hostBar2]
  exact ((if_pos hclaims).trans hruns).trans (congrArg (bar2Enqueue f q img id) hway)

/-- A BAR4 write. -/
theorem hostBar4Write_clear {a : Nat} {bs : List Byte} (hsome : bs ≠ []) (hmost : bs.length ≤ 128 * 2 ^ s.begins.hst.mps)
    (hkeep : keepHeader f.val a bs.length (bump (kH 0 0x050) s.begins) = (id, e)) :
    hostBar4Write f a bs false .clear s.begins = bar4Write f a bs id e := by
  obtain ⟨hruns, hway⟩ := inboundWrite_ready (req := fun id => .bar4 a bs id) hempty hinj hkeep
    (by simp only [hostReady, hostBraked_kept hbraked hkeep, Bool.not_false, Bool.and_self])
  have hserved : ¬ ((bs.isEmpty || decide (128 * 2 ^ s.begins.hst.mps < bs.length)) = true) := by
    simp only [Bool.or_eq_true, List.isEmpty_iff, decide_eq_true_eq, not_or, not_lt]
    exact ⟨hsome, hmost⟩
  rw [hostBar4Write, if_neg hserved, if_pos hclaims]
  exact hruns.trans (congrArg (bar4Write f a bs id) hway)

end

end

/-- Settles O34: a claimed request that waits for nothing takes effect as it arrives. -/
theorem hostRequestRowsComplete : Obligations.HostRequestRowsComplete := by
  unfold Obligations.HostRequestRowsComplete
  rintro s d rfl f
  refine ⟨fun hpins hclaims hempty hbraked => ?_, fun g k rest hst htake => effect_of (hostWriteFailed_oldest hst htake)⟩
  have hlanes : ∀ g, overPins g s.begins = g s.begins := fun g => overPins_open hpins
  refine ⟨fun hheld off wide => effect_of ((hlanes _).trans (hostBar0_read hclaims hempty hbraked hheld _ _)),
    fun hheld queue => effect_of ((hlanes _).trans (hostBar2_read hclaims hempty hbraked hheld _)),
    fun addr len hlen => effect_of ((hlanes _).trans (hostBar4Read_clear hclaims hempty hbraked hlen (by omega))), fun hinj => ⟨?_, ?_, ?_⟩⟩
  · exact fun off wide v id e hkeep => effect_of ((hlanes _).trans (hostBar0_write hclaims hempty hbraked hinj hkeep))
  · exact fun queue image id e hkeep hnone hheld =>
      effect_of ((hlanes _).trans (hostBar2_enqueue hclaims hempty hbraked hinj hkeep hnone hheld))
  · exact fun addr bytes id e hsome hmost hkeep =>
      effect_of ((hlanes _).trans (hostBar4Write_clear hclaims hempty hbraked hinj hsome hmost hkeep))

end Sys2Proof.Machine

/-! ## The outbound window (R501, R509 to R511) -/

namespace Sys2Proof.Machine

/-! ### The first element that satisfies a condition -/

section
variable {α : Type} {p ends : α → Bool} {y : α} {xs : List α}

/-- Past elements that do not satisfy it the condition is met by the last. -/
theorem changeFirst_append {f : α → Option α} (hno : ∀ x ∈ xs, p x = false) (ys : List α) :
    changeFirst p f (xs ++ ys) = xs ++ changeFirst p f ys := by
  induction xs with
  | nil => rfl
  | cons x xs ih =>
    rw [List.cons_append, changeFirst, hno x List.mem_cons_self, if_neg (by decide),
      ih fun z hz => hno z (List.mem_cons_of_mem _ hz), List.cons_append]

/-- What is put in the place of the first is new, and everything else was there. -/
theorem mem_changeFirst {x : α} (hx : x ∈ changeFirst p (fun _ => some y) xs) : x ∈ xs ∨ x = y := by
  induction xs with
  | nil => exact Or.inl hx
  | cons z zs ih =>
    rw [changeFirst] at hx
    split at hx
    · obtain rfl | hx := List.mem_cons.mp hx
      · exact Or.inr rfl
      · exact Or.inl (List.mem_cons_of_mem _ hx)
    · obtain rfl | hx := List.mem_cons.mp hx
      · exact Or.inl List.mem_cons_self
      · exact (ih hx).imp_left (List.mem_cons_of_mem _)

section
variable (hno : ∀ x ∈ xs, ends x = false) (hends : ends y = true)
include hno hends

/-- Where only the new element ends, dropping what ends takes the first out. -/
theorem filter_changeFirst_left : (changeFirst p (fun _ => some y) xs).filter (fun x => !ends x) = changeFirst p (fun _ => none) xs := by
  have hkeeps : ∀ zs : List α, (∀ z ∈ zs, ends z = false) → zs.filter (fun x => !ends x) = zs := fun zs hzs =>
    List.filter_eq_self.mpr fun z hz => by rw [hzs z hz]; rfl
  induction xs with
  | nil => rfl
  | cons x xs ih =>
    have hrest := fun z hz => hno z (List.mem_cons_of_mem x hz)
    rw [changeFirst, changeFirst]
    split
    · simp only [List.filter_cons, hends, Bool.not_true, Bool.false_eq_true, if_false, hkeeps xs hrest]
    · simp only [List.filter_cons, hno x List.mem_cons_self, Bool.not_false, if_true, ih hrest]

/-- Where only the new element ends, it is all that is. -/
theorem filter_changeFirst_over {r : α} (hfind : xs.find? p = some r) : (changeFirst p (fun _ => some y) xs).filter ends = [y] := by
  have hnone : ∀ zs : List α, (∀ z ∈ zs, ends z = false) → zs.filter ends = [] := fun zs hzs =>
    List.filter_eq_nil_iff.mpr fun z hz => by rw [hzs z hz]; decide
  induction xs with
  | nil => cases hfind
  | cons x xs ih =>
    have hrest := fun z hz => hno z (List.mem_cons_of_mem x hz)
    rw [changeFirst]
    split
    · simp only [List.filter_cons, hends, if_true, hnone xs hrest]
    · next hx =>
      rw [List.find?_cons_of_neg hx] at hfind
      simp only [List.filter_cons, hno x List.mem_cons_self, Bool.false_eq_true, if_false, ih hrest hfind]

end

end

/-! ### What leaves the endpoint's reads alone -/

@[simp] theorem flag_hst (ty inst page n x : Nat) (d : Dev) : (flag ty inst page n x d).hst = d.hst := by
  rw [flag_eq, apply_ite Dev.hst, push_hst, ite_self, flagSet, captureFirst_eq]
  split
  · rw [wr_hst, wr_hst]
  · split
    · rw [wr_hst, wr_hst]
    · rw [wr_hst]

@[simp] theorem outReadFail_hst (e : Nat) (d : Dev) : (outReadFail e d).hst = d.hst := by
  rw [outReadFail, flag0, flag_hst, bump_hst]

@[simp] theorem answer_hst (w : Who) (a : Answer) (d : Dev) : (answer w a d).hst = d.hst := by
  show (epSent w a d).hst = d.hst
  unfold epSent
  split
  · exact bump_hst d _
  · rfl

@[simp] theorem tcount_hst (i n : Nat) (d : Dev) : (tcount i n d).hst = d.hst := by
  unfold tcount
  split
  · exact wr64_hst d _ _
  · rfl

section
variable {d : Dev} {who : Who}

/-! ### Reads (R509, R511) -/

/-- A read of the outbound window that asks for parts. -/
def asked (r : OutRead) (d : Dev) : Dev := updHst (fun h => { h with reads := h.reads ++ [r] }) d

section
variable {a len : Nat} (hin : inOutbound a = true) (hlen : len ≠ 0)
include hin hlen

/-- A read none of whose parts is a decode error waits for its parts. -/
theorem outGet_waits {e : Dev} (he : e = pumpReads (outParts (readLimit d) (len + 2) a len).length
      (asked { who := who, cmp := cmpOf d who, addr := a, what := .plain, wait := outParts (readLimit d) (len + 2) a len } d))
    (hover : e.hst.reads.any readOver = false) : outGet who a len d = e := by
  subst he
  rw [asked] at *
  simp only [outGet, hin, hlen, outRead, hover, Bool.not_true, decide_false, Bool.or_self, Bool.false_eq_true, if_false, if_true]

end

/-- A part that the map lets through is issued. -/
theorem issuePart_allowed {r : OutRead} {p : Nat × Nat} {rest : List (Nat × Nat)} (h : outAllowed d r.cmp (outEntry p.1) false = true) :
    issuePart r p rest d = answer r.who (.outbound (outOwner d (outEntry p.1)) false (hostAddr d p.1) p.2)
      (tcount 8 p.2 (bump (kH 0 0x054) (updHst (fun h =>
        { h with reads := changeFirst readWaits (fun _ => some { r with parts := r.parts ++ [p], wait := rest }) h.reads }) d))) := by
  rw [issuePart, if_pos h]

/-- A read of one part that the map lets through, while no other part waits. -/
theorem pumpReads_one {r : OutRead} {p : Nat × Nat} (hwait : r.wait = [p]) (hparts : r.parts = [])
    (hothers : ∀ x ∈ d.hst.reads, x.wait = []) (hroom : outstandingReads d < 256) (hmap : outAllowed d r.cmp (outEntry p.1) false = true) :
    pumpReads 1 (asked r d) = answer r.who (.outbound (outOwner d (outEntry p.1)) false (hostAddr d p.1) p.2)
      (tcount 8 p.2 (bump (kH 0 0x054) (asked { r with parts := [p], wait := [] } d))) := by
  have hno : ∀ x ∈ d.hst.reads, readWaits x = false := fun x hx => by rw [readWaits, hothers x hx]; rfl
  have hwaits : readWaits r = true := by rw [readWaits, hwait]; rfl
  have hfind : (asked r d).hst.reads.find? readWaits = some r := by
    have hnone : d.hst.reads.find? readWaits = none := List.find?_eq_none.mpr fun x hx => by rw [hno x hx]; decide
    exact List.find?_append.trans (by rw [hnone, Option.none_or, List.find?_cons_of_pos hwaits])
  have hcount : outstandingReads (asked r d) = outstandingReads d := by
    show (d.hst.reads ++ [r]).foldl _ 0 = _
    rw [List.foldl_append, List.foldl_cons, List.foldl_nil, hparts, List.length_nil, Nat.add_zero]
    rfl
  have hchange : changeFirst readWaits (fun _ => some { r with parts := [p], wait := [] }) (d.hst.reads ++ [r]) =
      d.hst.reads ++ [{ r with parts := [p], wait := [] }] := by
    rw [changeFirst_append hno, changeFirst, if_pos hwaits]
  rw [pumpReads, hfind]
  simp only [hwait, hcount, if_neg (Nat.not_le.mpr hroom), pumpReads]
  rw [issuePart_allowed (show outAllowed (asked r d) r.cmp (outEntry p.1) false = true from hmap), hparts, List.nil_append]
  have hreads : updHst (fun h => { h with reads := changeFirst readWaits (fun _ => some { r with parts := [p], wait := [] }) h.reads })
      (asked r d) = asked { r with parts := [p], wait := [] } d := by
    rw [asked, asked, updHst, updHst, updHst]
    simp only [hchange]
  rw [hreads]
  rfl

/-! ### Completions (R511) -/

/-- A read of a requester that has parts still to come. -/
def awaitsPart (who : Who) (r : OutRead) : Bool := decide (r.who = who) && !r.parts.isEmpty

/-- A read once its first part has come back. -/
def partBack (r : OutRead) (rest : List (Nat × Nat)) (bytes : List Byte) (ok : Bool) : OutRead :=
  { r with parts := rest, got := r.got ++ bytes, bad := r.bad || !ok }

/-- The oldest read of a requester is changed, or taken out. -/
def changeRead (who : Who) (y : Option OutRead) (d : Dev) : Dev :=
  updHst (fun h => { h with reads := changeFirst (awaitsPart who) (fun _ => y) h.reads }) d

/-- Where no read is over none ends. -/
theorem endReads_none (h : ∀ x ∈ d.hst.reads, readOver x = false) : endReads d = d := by
  have hkeeps : d.hst.reads.filter (fun x => !readOver x) = d.hst.reads := List.filter_eq_self.mpr fun x hx => by rw [h x hx]; rfl
  have hends : d.hst.reads.filter readOver = [] := List.filter_eq_nil_iff.mpr fun x hx => by rw [h x hx]; decide
  rw [endReads, hends, updHst, hkeeps]
  rfl

section
variable {r : OutRead} {p : Nat × Nat} {rest : List (Nat × Nat)} {bytes : List Byte} {ok : Bool}
  (hfind : d.hst.reads.find? (awaitsPart who) = some r) (hothers : ∀ x ∈ d.hst.reads, x.wait = [] ∧ x.parts ≠ [])

omit hothers in
include hfind in
/-- Whose bytes have come back. -/
theorem outReadDone_first (hlen : bytes.length = p.2) (hparts : r.parts = p :: rest) : outReadDone who ok bytes d =
    (let e := changeRead who (some (partBack r rest bytes ok)) (if ok then d else outReadFail (outEntry p.1) d)
     endReads (pumpReads (e.hst.reads.foldl (fun n r => n + r.wait.length) 0) e)) := by
  have htake : (bytes ++ List.replicate p.2 0).take p.2 = bytes := by rw [← hlen, List.take_left]
  have hfirst : d.hst.reads.find? (fun r => decide (r.who = who) && !r.parts.isEmpty) = some r := hfind
  simp only [outReadDone, hfirst, hparts, htake]
  rfl

/-- With no part that waits nothing more is issued. -/
theorem pumpReads_still (h : ∀ x ∈ d.hst.reads, x.wait = []) :
    pumpReads (d.hst.reads.foldl (fun n r => n + r.wait.length) 0) d = d := by
  have hzero : ∀ xs : List OutRead, (∀ x ∈ xs, x.wait = []) → xs.foldl (fun n r => n + r.wait.length) 0 = 0 := fun xs hxs => by
    induction xs with
    | nil => rfl
    | cons x xs ih =>
      rw [List.foldl_cons, hxs x List.mem_cons_self, List.length_nil, Nat.add_zero, ih fun z hz => hxs z (List.mem_cons_of_mem _ hz)]
  rw [hzero _ h, pumpReads]

include hfind hothers

/-- A part that has come back, where nothing waits to be issued. -/
theorem outReadDone_still (hlen : bytes.length = p.2) (hparts : r.parts = p :: rest) : outReadDone who ok bytes d =
    endReads (changeRead who (some (partBack r rest bytes ok)) (if ok then d else outReadFail (outEntry p.1) d)) := by
  rw [outReadDone_first hfind hlen hparts]
  refine congrArg endReads (pumpReads_still fun x hx => ?_)
  have hreads : (if ok then d else outReadFail (outEntry p.1) d).hst.reads = d.hst.reads := by
    rw [apply_ite Dev.hst, outReadFail_hst, ite_self]
  obtain hx | rfl := mem_changeFirst hx
  · exact (hothers x (hreads ▸ hx)).1
  · exact (hothers r (List.mem_of_find?_eq_some hfind)).1

/-- A part that is not the last leaves the read with the others. -/
theorem outReadDone_more {q : Nat × Nat} (hlen : bytes.length = p.2) (hparts : r.parts = p :: q :: rest) : outReadDone who ok bytes d =
    changeRead who (some (partBack r (q :: rest) bytes ok)) (if ok then d else outReadFail (outEntry p.1) d) := by
  rw [outReadDone_still hfind hothers hlen hparts]
  refine endReads_none fun x hx => ?_
  have hreads : (if ok then d else outReadFail (outEntry p.1) d).hst.reads = d.hst.reads := by
    rw [apply_ite Dev.hst, outReadFail_hst, ite_self]
  obtain hx | rfl := mem_changeFirst hx
  · rw [readOver, List.isEmpty_eq_false_iff.mpr (hothers x (hreads ▸ hx)).2, Bool.false_and]
  · rfl

/-- The last part ends the read, which brings what has come. -/
theorem outReadDone_last (hlen : bytes.length = p.2) (hparts : r.parts = [p]) : outReadDone who ok bytes d =
    push (.back r.who r.addr r.what (if r.fault then .fail .noRegion else .data (marked (r.got ++ bytes) (r.bad || !ok))))
      (changeRead who none (if ok then d else outReadFail (outEntry p.1) d)) := by
  have hreads : (if ok then d else outReadFail (outEntry p.1) d).hst.reads = d.hst.reads := by
    rw [apply_ite Dev.hst, outReadFail_hst, ite_self]
  rw [outReadDone_still hfind hothers hlen hparts]
  generalize (if ok then d else outReadFail (outEntry p.1) d) = e at hreads
  have hgoes : ∀ x ∈ e.hst.reads, readOver x = false := fun x hx => by
    rw [readOver, List.isEmpty_eq_false_iff.mpr (hothers x (hreads ▸ hx)).2, Bool.false_and]
  have hends : readOver (partBack r [] bytes ok) = true := by
    rw [readOver, show (partBack r [] bytes ok).wait = [] from (hothers r (List.mem_of_find?_eq_some hfind)).1]
    rfl
  have hover : (changeRead who (some (partBack r [] bytes ok)) e).hst.reads.filter readOver = [partBack r [] bytes ok] :=
    filter_changeFirst_over hgoes hends (hreads ▸ hfind)
  have hleft : (changeRead who (some (partBack r [] bytes ok)) e).hst.reads.filter (fun x => !readOver x) =
      changeFirst (awaitsPart who) (fun _ => none) e.hst.reads := filter_changeFirst_left hgoes hends
  rw [endReads, hover, updHst, hleft]
  rfl

end

/-! ### Writes (R509, R510) -/

/-- A posted write whose every part the map lets through goes to the host. -/
theorem outPut_allowed {a : Nat} {bytes : List Byte} (hin : inOutbound a = true) (hsome : bytes ≠ [])
    (hmap : ∀ p ∈ outParts (128 * 2 ^ d.hst.mps) (bytes.length + 2) a bytes.length, outAllowed d (cmpOf d who) (outEntry p.1) true = true) :
    outPut who a bytes d =
      launch ⟨who, cmpOf d who, tagOf d who.unitId, ((runOf d who.unitId).map (·.serial)).getD 0, a, true, .pending, tick d, false⟩
        (each (outParts (128 * 2 ^ d.hst.mps) (bytes.length + 2) a bytes.length) (fun p e =>
          answer who (.outbound (outOwner e (outEntry p.1)) true (hostAddr e p.1) p.2) (tcount 8 p.2 (bump (kH 0 0x054) e))) d) := by
  have hnone : (outParts (128 * 2 ^ d.hst.mps) (bytes.length + 2) a bytes.length).find?
      (fun p => !outAllowed d (cmpOf d who) (outEntry p.1) true) = none :=
    List.find?_eq_none.mpr fun p hp => by rw [hmap p hp]; decide
  have hbytes : bytes.isEmpty = false := List.isEmpty_eq_false_iff.mpr hsome
  simp only [outPut, hin, hbytes, outWrite, hnone, Bool.not_true, Bool.or_self, Bool.false_eq_true, if_false]

end

/-- Settles O35: a part goes to the host where the map lets it through, and the read ends with its last part. -/
theorem outboundRowsComplete : Obligations.OutboundRowsComplete := by
  unfold Obligations.OutboundRowsComplete
  rintro s d rfl who
  refine ⟨fun addr len hin hlen => ⟨fun hover => effect_of (outGet_waits hin hlen rfl hover), ?one⟩, fun hpins => ⟨?back, ?ack⟩,
    fun addr bytes hin hsome hmap => effect_of (outPut_allowed hin hsome hmap)⟩
  case one =>
    intro p hparts hothers hroom hmap
    have hone := pumpReads_one (r := { who := who, cmp := cmpOf s.begins who, addr := addr.toNat, what := .plain, wait := [p] }) rfl rfl
      (fun x hx => (hothers x hx).1) hroom hmap
    refine effect_of (outGet_waits hin hlen ?_ ?_)
    · rw [hparts]
      exact hone.symm
    · refine List.any_eq_false.mpr fun x hx => ?_
      simp only [answer_hst, tcount_hst, bump_hst] at hx
      obtain hx | hx := List.mem_append.mp hx
      · rw [readOver, List.isEmpty_eq_false_iff.mpr (hothers x hx).2, Bool.false_and]
        exact Bool.false_ne_true
      · rw [List.mem_singleton.mp hx]
        exact Bool.false_ne_true
  case back =>
    intro mine r p ok bytes hfind hothers hlen
    exact ⟨fun hparts => effect_of ((overPins_open hpins).trans (outReadDone_last hfind hothers hlen hparts)),
      fun q rest hparts => effect_of ((overPins_open hpins).trans (outReadDone_more hfind hothers hlen hparts))⟩
  case ack => exact effect_of (overPins_open hpins)

end Sys2Proof.Machine

/-! ## Flits of a drawbar port (R523, R526, R529) -/

namespace Sys2Proof.Machine

section
variable {d : Dev} {p : Nat} {h : FlitHdr}

/-! ### Flits that are whole and in order (R523) -/

theorem dbPort_updDb (f : DbPort → DbPort) (d : Dev) (p : Nat) : dbPort (updDb p f d) p = f (dbPort d p) :=
  (Map.get_upd _ _ _ _ _).trans (if_pos rfl)

/-- An acknowledgement does not change a port's state. -/
theorem dbPort_acked_state (ack : Option (Fin 4096)) (d : Dev) : (dbPort (acked p ack d) p).state = (dbPort d p).state := by
  unfold acked
  split
  · rfl
  · dsimp only
    split
    · rw [dbPort_updDb]
    · rfl

/-- The module once a flit with SEQ is accepted. -/
def flitTaken (p : Nat) (h : FlitHdr) (d : Dev) : Dev :=
  credited p h (acked p h.ack (updDb p (fun x => { x with rxSeq := (x.rxSeq + 1) % 4096, heard := true }) (bump64 (kB (1 + p) 0x060) d)))

/-- A flit that is accepted does not change its port's state. -/
theorem dbPort_flitTaken_state (p : Nat) (h : FlitHdr) (d : Dev) : (dbPort (flitTaken p h d) p).state = (dbPort d p).state := by
  rw [flitTaken, credited, dbPort_updDb]
  dsimp only
  rw [dbPort_acked_state, dbPort_updDb, dbPort, bump64_dbr, dbPort]

section
variable (hcrc : h.crcOk = true) (hstate : (dbPort d p).state = .hello ∨ (dbPort d p).state = .up)
include hcrc hstate

omit hcrc in
/-- A port in HELLO or UP takes flits. -/
theorem flit_heard : ((dbPort d p).state ≠ .hello && (dbPort d p).state ≠ .up) = false := by
  obtain hs | hs := hstate
  · rw [hs]; rfl
  · rw [hs]; rfl

/-- A flit in order acts, and what waits follows it. -/
theorem flitIn_inOrder {f : Dev → Dev} (hseq : h.seq.val = (dbPort d p).rxSeq) :
    flitIn p h f d = idleOut p (dbPort d p).nextSeq (pumpPort p (f (flitTaken p h d))) := by
  simp only [flitIn, flit_heard hstate, hcrc, hseq, Bool.not_true, ne_eq, not_true_eq_false, decide_false, Bool.or_self,
    Bool.false_eq_true, if_false]
  rfl

/-- A whole flit without SEQ acts, and what waits follows it. -/
theorem plainFlit_whole {f : Dev → Dev} :
    plainFlit p h f d = pumpPort p (f (credited p h (acked p h.ack (bump64 (kB (1 + p) 0x060) d)))) := by
  simp only [plainFlit, flit_heard hstate, hcrc, Bool.not_true, Bool.false_eq_true, if_false]

section
variable (hseq : h.seq.val = (dbPort d p).rxSeq)
include hseq

/-- A HELLO that fails its checks takes the port down. -/
theorem helloFlit_refused {id size topo port present anew : Nat} (hcode : helloCheck (flitTaken p h d) p id size topo port ≠ 0) :
    helloFlit p h id size topo port present anew d = idleOut p (dbPort d p).nextSeq (pumpPort p
      (portDown p (formResult (helloCheck (flitTaken p h d) p id size topo port) (flitTaken p h d)))) := by
  rw [helloFlit, flitIn_inOrder hcrc hstate hseq]
  dsimp only
  rw [if_pos hcode]

/-- The module once an accepted HELLO has told of its sender; in HELLO the port is UP then. -/
def helloHeard (p id port present : Nat) (d : Dev) : Dev :=
  let f := wrF (kB (1 + p) 0x044) 12 12 port (wrF (kB (1 + p) 0x044) 9 8 id (updDb p (fun x => { x with present := present % 16 ||| 2 ^ id }) d))
  if (dbPort d p).state = .hello then dbrEvent 0x41 1 p 0 (setPort p .up f) else f

/-- A HELLO that passes its checks tells of its sender. -/
theorem helloFlit_accepted {id size topo port present anew : Nat} (hcode : helloCheck (flitTaken p h d) p id size topo port = 0) :
    helloFlit p h id size topo port present anew d = idleOut p (dbPort d p).nextSeq (pumpPort p
      (let g := helloHeard p id port present (flitTaken p h d)
       tryForm (tellNeighbours (refreshPresent
         { g with dbr := { g.dbr with removed := g.dbr.removed ^^^ (g.dbr.removed &&& anew) } })))) := by
  rw [helloFlit, flitIn_inOrder hcrc hstate hseq]
  simp only [hcode, ne_eq, not_true_eq_false, if_false, helloHeard]

/-- The packets of a flit reach an UP port. -/
theorem dataFlit_up {packets : List Packet} (hup : (dbPort d p).state = .up) : dataFlit p h packets d =
    idleOut p (dbPort d p).nextSeq (pumpPort p (each packets (takePacket p) (flitTaken p h d))) := by
  rw [dataFlit, flitIn_inOrder hcrc hstate hseq, if_pos ((dbPort_flitTaken_state p h d).trans hup)]

/-- The cookie of an ECHO returns. -/
theorem echoReceive_sends {cookie : Nat} (hsend : canSend (dbPort (flitTaken p h d) p) = true) : echoReceive p h cookie d =
    idleOut p (dbPort d p).nextSeq (pumpPort p (sendFlit p (.echoReply cookie) (flitTaken p h d))) := by
  rw [echoReceive, flitIn_inOrder hcrc hstate hseq, if_pos hsend]

/-- The cookie that returns measures the link delay. -/
theorem echoReplied_matches {cookie cycle at_ : Nat} (hecho : (dbPort (flitTaken p h d) p).echo = some (cookie, at_)) :
    echoReplied p h cookie cycle d = idleOut p (dbPort d p).nextSeq (pumpPort p
      (wrF (kB (1 + p) 0x044) 31 16 ((refCount (flitTaken p h d) cycle - at_) / 2)
        (updDb p (fun x => { x with echo := none }) (flitTaken p h d)))) := by
  rw [echoReplied, flitIn_inOrder hcrc hstate hseq]
  simp only [hecho, if_true]

/-- An aligned follower takes its offset, and tells the module behind it. -/
theorem tickSync_follows {t cycle delay here transit : Nat} {locked : Bool} (hformed : formed (flitTaken p h d) = true)
    (hfollows : teamId (flitTaken p h d) ≠ 0) (haligned : (flitTaken p h d).dbr.joining = false) :
    tickSync p h t cycle delay here transit locked d = idleOut p (dbPort d p).nextSeq (pumpPort p
      (let e := flitTaken p h d
       let f := setOffset ((refCount e here : Int) - (t * 200 + cycle + delay + linkDelay e p : Nat)) locked e
       if canSend (dbPort f (1 - p)) ∧ topology e ≠ 0 then sendFlit (1 - p) (.tickSync t cycle (delay + linkDelay e p + transit)) f else f)) := by
  rw [tickSync, flitIn_inOrder hcrc hstate hseq]
  simp only [hformed, hfollows, haligned, Bool.not_true, decide_false, Bool.or_self, Bool.false_eq_true, if_false, Bool.and_eq_true,
    decide_eq_true_eq]

end

end

/-! ### What a port sends by itself (R523, R529) -/

/-- Without an acknowledgement in time every flit is sent again. -/
theorem replayTimeout_due (hstate : (dbPort d p).state = .hello ∨ (dbPort d p).state = .up ∧ (dbPort d p).replays < 8)
    (hsome : (dbPort d p).replay ≠ []) (hdue : (dbPort d p).ackAt + 2 ≤ tick d) : replayTimeout p d = bump (kB (1 + p) 0x04C)
      (updDb p (fun x => { x with replays := x.replays + 1, ackAt := tick d }) (sendAgain p d)) := by
  have hreplay : (dbPort d p).replay.isEmpty = false := List.isEmpty_eq_false_iff.mpr hsome
  rw [replayTimeout, if_pos hdue, replayFlits]
  obtain hs | ⟨hs, hfew⟩ := hstate
  · simp only [hs, hreplay, ne_eq, reduceCtorEq, not_false_eq_true, not_true_eq_false, decide_true, decide_false, Bool.and_false,
      Bool.or_self, Bool.false_eq_true, if_false]
  · simp only [hs, hreplay, Nat.not_le.mpr hfew, ne_eq, reduceCtorEq, not_true_eq_false, decide_false, Bool.false_and, Bool.or_self,
      Bool.false_eq_true, if_false]

/-- A cookie leaves when it is due. -/
theorem echoSend_due {cycle : Nat} (hsend : canSend (dbPort d p) = true) (hdue : (dbPort d p).echoAt ≤ tick d) : echoSend p cycle d =
    sendFlit p (.echo (refCount d cycle)) (updDb p (fun x => { x with
      echo := some (refCount d cycle, refCount d cycle), echoAt := tick d + 1000000 }) d) := by
  simp only [echoSend, hsend, Nat.not_lt.mpr hdue, Bool.not_true, decide_false, Bool.or_self, Bool.false_eq_true, if_false]

end

/-- Settles O37: a flit that is whole and in order acts on the module that has taken it. -/
theorem flitRowsComplete : Obligations.FlitRowsComplete := by
  unfold Obligations.FlitRowsComplete
  rintro s d rfl hdies hpins port hdr p x rfl rfl hcrc
  have hteam : ∀ f, teamPart f s.begins = f s.begins := fun f => teamPart_two hdies
  have hwire : ∀ f, overPins (teamPart f) s.begins = f s.begins := fun f => (overPins_open hpins).trans (hteam f)
  refine ⟨fun hseq hstate e he => ?ordered, fun hstate e he => ?plain,
    fun hstate hsome hdue => effect_of ((hteam _).trans (replayTimeout_due hstate hsome hdue)),
    fun cycle hsend hdue => effect_of ((hteam _).trans (echoSend_due hsend hdue))⟩
  case ordered =>
    obtain rfl : e = flitTaken port.val hdr s.begins := he
    refine ⟨?hello, fun packets hup => effect_of ((hwire _).trans (dataFlit_up hcrc hstate hseq hup)),
      fun cookie hsend => effect_of ((hwire _).trans (echoReceive_sends hcrc hstate hseq hsend)),
      fun cookie cycle at_ hecho => effect_of ((hwire _).trans (echoReplied_matches hcrc hstate hseq hecho)),
      fun time cycle delay here transit locked hformed hfollows haligned =>
        effect_of ((hwire _).trans (tickSync_follows hcrc hstate hseq hformed hfollows haligned))⟩
    rintro id size topo sender present anew c rfl
    exact ⟨fun hcode => effect_of ((hwire _).trans (helloFlit_accepted hcrc hstate hseq hcode)),
      fun hcode => effect_of ((hwire _).trans (helloFlit_refused hcrc hstate hseq hcode))⟩
  case plain =>
    subst he
    exact ⟨effect_of ((hwire _).trans (plainFlit_whole hcrc hstate)), effect_of ((hwire _).trans (plainFlit_whole hcrc hstate))⟩

end Sys2Proof.Machine

/-! ## What every step keeps (R594, R595, R598) -/

namespace Sys2Proof.Machine

/-! ### Chains of operations -/

/-- `e` is reached from `d` by operations that keep what every step keeps. -/
def Kept (d e : Dev) : Prop := Keeps d e

section
variable {d e f : Dev}

theorem Kept.refl (d : Dev) : Kept d d := Keeps.refl d

/-- What an operation keeps of any module it keeps here. -/
theorem Kept.next (h : Kept d e) (g : Keeps e f) : Kept d f := Keeps.trans h g

/-- What changes neither the part nor a sparse content. -/
theorem Kept.same (h : Kept d e) (hsame : (f.part, f.regs, f.ledger, f.yard.cells, f.yard.tallies, f.stk.lines, f.cores.lram,
      f.xsp.flash, f.fus.rows) =
    (e.part, e.regs, e.ledger, e.yard.cells, e.yard.tallies, e.stk.lines, e.cores.lram, e.xsp.flash, e.fus.rows)) : Kept d f := by
  simp only [Prod.mk.injEq] at hsame
  obtain ⟨hpart, hregs, hledger, hcells, htallies, hlines, hlram, hflash, hrows⟩ := hsame
  exact h.next (Keeps.of_eq hpart hregs hledger hcells htallies hlines hlram hflash hrows)

theorem Kept.ite {c : Prop} [Decidable c] (h : Kept d e) (g : Kept d f) : Kept d (if c then e else f) := by
  split
  · exact h
  · exact g

section
variable {α : Type}

/-- Operations done one after another. -/
theorem Kept.foldl {g : Dev → α → Dev} {xs : List α} (hg : ∀ e x, Kept d e → Kept d (g e x)) (h : Kept d e) :
    Kept d (xs.foldl g e) := by
  induction xs generalizing e with
  | nil => exact h
  | cons x xs ih => exact ih (hg e x h)

theorem Kept.each {g : α → Dev → Dev} {xs : List α} (hg : ∀ x e, Kept d e → Kept d (g x e)) (h : Kept d e) :
    Kept d (each xs g e) := Kept.foldl (fun e x => hg x e) h

theorem Kept.foldBelow {g : Nat → Dev → Dev} {n : Nat} (hg : ∀ i e, Kept d e → Kept d (g i e)) (h : Kept d e) :
    Kept d (foldBelow n g e) := Kept.foldl (fun e i => hg i e) h

/-- The module beside a value. -/
theorem Kept.beside {β : Type} {b : β} (h : Kept d e) : Kept d (b, e).2 := h

theorem Kept.ofPair {β : Type} {r : β × Dev} {b : β} (h : Kept d r.2) (hr : r = (b, e)) : Kept d e := by
  subst hr
  exact h

/-- A module that a fold carries in what it gathers. -/
theorem Kept.foldlBy {β : Type} (m : β → Dev) {g : β → α → β} {xs : List α} {r : β}
    (hg : ∀ r x, Kept d (m r) → Kept d (m (g r x))) (h : Kept d (m r)) : Kept d (m (xs.foldl g r)) := by
  induction xs generalizing r with
  | nil => exact h
  | cons x xs ih => exact ih (hg r x h)

/-- A module that a fold carries beside a value. -/
theorem Kept.foldlBeside {β : Type} {g : β × Dev → α → β × Dev} {xs : List α} {r : β × Dev}
    (hg : ∀ r x, Kept d r.2 → Kept d (g r x).2) (h : Kept d r.2) : Kept d (xs.foldl g r).2 := Kept.foldlBy Prod.snd hg h

end

/-! ### The operations that write sparse contents -/

theorem Kept.wr {k v : Nat} (h : Kept d e) : Kept d (wr k v e) := h.next (Keeps.wr k v e)

theorem Kept.forget {p : Nat × W32 → Bool} (h : Kept d e) : Kept d { e with regs := e.regs.filter p } := h.next (Keeps.forget p e)

/-- Sparse contents that stay canonical, with the part, the flash and the fuses as they were. -/
theorem Kept.stores (h : Kept d e) (hwf : canonical e = true → canonical f = true)
    (hrest : (f.part, f.xsp.flash, f.fus.rows) = (e.part, e.xsp.flash, e.fus.rows)) : Kept d f := by
  simp only [Prod.mk.injEq] at hrest
  obtain ⟨hpart, hflash, hrows⟩ := hrest
  refine h.next ⟨hwf, hpart, fun r => ?_, hflash⟩
  rw [fuseCopies, fuseCopies, hrows]
  exact ⟨Nat.and_self _, Nat.and_self _⟩

theorem Kept.forgetLedger {p : Nat × W32 → Bool} (h : Kept d e) : Kept d { e with ledger := e.ledger.filter p } := by
  refine h.stores (fun hc => ?_) rfl
  obtain ⟨hregs, hledger, hrest⟩ := canonical_parts.mp hc
  exact canonical_parts.mpr ⟨hregs, Map.wf_filter p hledger, hrest⟩

theorem Kept.forgetCells {p : Nat × Cell39 → Bool} (h : Kept d e) :
    Kept d { e with yard := { e.yard with cells := e.yard.cells.filter p } } := by
  refine h.stores (fun hc => ?_) rfl
  obtain ⟨hregs, hledger, hcells, hrest⟩ := canonical_parts.mp hc
  exact canonical_parts.mpr ⟨hregs, hledger, Map.wf_filter p hcells, hrest⟩

theorem Kept.noCells (h : Kept d e) : Kept d { e with yard := { e.yard with cells := [] } } := by
  refine h.stores (fun hc => ?_) rfl
  obtain ⟨hregs, hledger, -, hrest⟩ := canonical_parts.mp hc
  exact canonical_parts.mpr ⟨hregs, hledger, rfl, hrest⟩

theorem Kept.forgetLines {p : Nat × Line → Bool} (h : Kept d e) :
    Kept d { e with stk := { e.stk with lines := e.stk.lines.filter p } } := by
  refine h.stores (fun hc => ?_) rfl
  obtain ⟨hregs, hledger, hcells, htallies, hlines, hrest⟩ := canonical_parts.mp hc
  exact canonical_parts.mpr ⟨hregs, hledger, hcells, htallies, Map.wf_filter p hlines, hrest⟩

theorem Kept.forgetLram {p : Nat × Cell39 → Bool} (h : Kept d e) :
    Kept d { e with cores := { e.cores with lram := e.cores.lram.filter p } } := by
  refine h.stores (fun hc => ?_) rfl
  obtain ⟨hregs, hledger, hcells, htallies, hlines, hlram, hrest⟩ := canonical_parts.mp hc
  exact canonical_parts.mpr ⟨hregs, hledger, hcells, htallies, hlines, Map.wf_filter p hlram, hrest⟩

theorem Kept.setLram {k : Nat} {c : Cell39} (h : Kept d e) :
    Kept d { e with cores := { e.cores with lram := Map.set (fun _ => goodCell 0) e.cores.lram k c } } := by
  refine h.stores (fun hc => ?_) rfl
  obtain ⟨hregs, hledger, hcells, htallies, hlines, hlram, hrest⟩ := canonical_parts.mp hc
  exact canonical_parts.mpr ⟨hregs, hledger, hcells, htallies, hlines, Map.wf_set k c hlram, hrest⟩

theorem Kept.ledWr {o v : Nat} (h : Kept d e) : Kept d (ledWr o v e) := h.next (Keeps.ledWr o v e)

theorem Kept.putCell {n : Nat} {c : Cell39} (h : Kept d e) : Kept d (putCell n c e) := h.next (Keeps.putCell n c e)

theorem Kept.updTally {t : Nat} {g : Tally → Tally} (h : Kept d e) : Kept d (updTally t g e) := h.next (Keeps.updTally t g e)

theorem Kept.putLine {n : Nat} {l : Line} (h : Kept d e) : Kept d (putLine n l e) := h.next (Keeps.putLine n l e)

theorem Kept.putLramCell {n : Nat} {c : Cell39} (h : Kept d e) : Kept d (putLramCell n c e) := h.next (Keeps.putLramCell n c e)

theorem Kept.blow {r a b : Nat} (h : Kept d e) : Kept d (blow r a b e) := h.next (Keeps.blow r a b e)

/-! ### Modules that may not be there -/

/-- Where there is a next module, it keeps what every step keeps. -/
def KeptIf (d : Dev) (o : Option Dev) : Prop := ∀ e, o = some e → Kept d e

theorem KeptIf.none : KeptIf d none := fun _ h => nomatch h

theorem KeptIf.some (h : Kept d e) : KeptIf d (some e) := fun _ he => Option.some.inj he ▸ h

theorem KeptIf.ite {c : Prop} [Decidable c] {x y : Option Dev} (h : KeptIf d x) (g : KeptIf d y) :
    KeptIf d (if c then x else y) := by
  split
  · exact h
  · exact g

end

section
variable {d e : Dev}

/-! ### Register words, flags and the ledger -/

theorem Kept.wr64 {k v} (h : Kept d e) : Kept d (wr64 k v e) := h.wr.wr

theorem Kept.wrF {k hi lo v} (h : Kept d e) : Kept d (wrF k hi lo v e) := h.wr

theorem Kept.wrB {k i b} (h : Kept d e) : Kept d (wrB k i b e) := h.wr

theorem Kept.bump {k} (h : Kept d e) : Kept d (bump k e) := h.wr

theorem Kept.bumpBy {k n} (h : Kept d e) : Kept d (bumpBy k n e) := h.wr

theorem Kept.bumpWrap {k} (h : Kept d e) : Kept d (bumpWrap k e) := h.wr

theorem Kept.bump64 {k} (h : Kept d e) : Kept d (bump64 k e) := h.wr64

theorem Kept.bump64By {k n} (h : Kept d e) : Kept d (bump64By k n e) := h.wr64

theorem Kept.wrap64By {k n} (h : Kept d e) : Kept d (wrap64By k n e) := h.wr64

theorem Kept.tcount {i n} (h : Kept d e) : Kept d (tcount i n e) := .ite h.wrap64By h

theorem Kept.ccount {c i n} (h : Kept d e) : Kept d (ccount c i n e) := .ite h.wrap64By h

theorem Kept.doIf {b} {f : Dev → Dev} (hf : ∀ e, Kept d e → Kept d (f e)) (h : Kept d e) :
    Kept d (doIf b f e) :=
  .ite (hf _ h) h

theorem Kept.setUnitState {ty inst u} (h : Kept d e) : Kept d (setUnitState ty inst u e) := h.wrF

theorem Kept.push {t} (h : Kept d e) : Kept d (push t e) := .same h rfl

theorem Kept.captureFirst {ty inst page n detail} (h : Kept d e) :
    Kept d (captureFirst ty inst page n detail e) := by
  rw [captureFirst_eq]
  exact .ite (.wr (.same h rfl)) (.ite h.wr h)

theorem Kept.flagSet {ty inst page n detail} (h : Kept d e) : Kept d (flagSet ty inst page n detail e) :=
  h.wr.captureFirst

theorem Kept.flag {ty inst page n detail} (h : Kept d e) : Kept d (flag ty inst page n detail e) := by
  rw [flag_eq]
  exact .ite h.flagSet.push h.flagSet

theorem Kept.flag0 {ty inst n detail} (h : Kept d e) : Kept d (flag0 ty inst n detail e) := h.flag

theorem Kept.clearSticky {ty inst page v} (h : Kept d e) : Kept d (clearSticky ty inst page v e) :=
  .ite h.wr.wr h.wr

theorem Kept.fired {ty inst page} (h : Kept d e) : Kept d (fired ty inst page e) :=
  .wrB (.same h rfl)

theorem Kept.arm {ty inst page n param} (h : Kept d e) : Kept d (arm ty inst page n param e) :=
  .wrB (.same h rfl)

theorem Kept.ledgerSeen {off len} (h : Kept d e) : Kept d (ledgerSeen off len e).2 := by
  unfold Machine.ledgerSeen
  exact .same (h.foldl (fun _ _ h => .ite h.flag0 h.flag0)) rfl

theorem Kept.ledgerMended {off len} (h : Kept d e) : Kept d (ledgerMended off len e) := .same h rfl

theorem Kept.ledWr64 {off v} (h : Kept d e) : Kept d (ledWr64 off v e) := h.ledWr.ledWr

theorem Kept.ledPut {off v} (h : Kept d e) : Kept d (ledPut off v e) := h.ledWr.ledgerMended

theorem Kept.ledBytes {off bs} (h : Kept d e) : Kept d (ledBytes off bs e) :=
  (h.foldBelow (fun _ _ h => h.ledWr)).ledgerMended

theorem Kept.draw (h : Kept d e) : Kept d (draw e).2 := by
  unfold Machine.draw
  exact .same h rfl

theorem Kept.drawOf {codes} (h : Kept d e) : Kept d (drawOf codes e).2 := by
  unfold Machine.drawOf
  exact h.draw

theorem Kept.epSent {who a} (h : Kept d e) : Kept d (epSent who a e) := by
  unfold Machine.epSent
  split
  · exact h.bump
  · exact h

theorem Kept.answer {who a} (h : Kept d e) : Kept d (answer who a e) := .same h.epSent rfl

/-! ### Error records and scores -/

theorem Kept.updStack {p f} (h : Kept d e) : Kept d (updStack p f e) := .same h rfl

theorem Kept.cperWrite {c count coalesced} (h : Kept d e) : Kept d (cperWrite c count coalesced e) := by
  unfold Machine.cperWrite
  extract_lets id bs e₁ _ _ e₂
  have h₁ : Kept d e₁ := h.wr64.tcount
  clear_value e₁
  have h₂ : Kept d e₂ := .ite (.same h₁.ledBytes rfl) h₁
  exact .ite h₂ (.ite h₂.bump.flag0 h₂.push)

theorem Kept.cperRewrite {id count} (h : Kept d e) : Kept d (cperRewrite id count e) := h.push

theorem Kept.cper {c} (h : Kept d e) : Kept d (cper c e) := by
  unfold Machine.cper
  extract_lets f id same others note fresh
  have hf : Kept d f := .ite h.tcount (.ite h.tcount h)
  have hnote {x f} (h : Kept d f) : Kept d (note x f) := .same h rfl
  clear_value f note
  refine .ite hf.cperWrite ?_
  split
  · exact .ite (.ite (hnote hf.cperRewrite) (hnote hf.cperWrite)) (hnote hf.cperWrite)
  · exact hnote hf.cperWrite

theorem Kept.ledgerRead {off len} (h : Kept d e) : Kept d (ledgerRead off len e).2 := by
  unfold Machine.ledgerRead
  exact h.ledgerSeen.foldl (fun _ _ h => h.cper)

theorem Kept.setScore {code v} (h : Kept d e) : Kept d (setScore code v e) := .same h rfl

theorem Kept.autoStable {code} (h : Kept d e) : Kept d (autoStable code e) :=
  .ite h.flag0.push h.flag0.cper

theorem Kept.score {code k} (h : Kept d e) : Kept d (score code k e) :=
  .ite h.setScore.autoStable h.setScore

/-! ### The yard -/

theorem Kept.countY {s off k} (h : Kept d e) : Kept d (countY s off k e) :=
  .ite h.bumpBy.flag0 h.bumpBy

theorem Kept.noteCut {t} (h : Kept d e) : Kept d (noteCut t e) :=
  have h₂ := .ite h.flag0 h.flag0.push
  .ite h₂ h₂.push

theorem Kept.updPage {p f} (h : Kept d e) : Kept d (updPage p f e) := .same h rfl

theorem Kept.updDesc {id f} (h : Kept d e) : Kept d (updDesc id f e) := .same h rfl

theorem Kept.countWait {w a} (h : Kept d e) : Kept d (countWait w a e) := .ite (.same h rfl) h

theorem Kept.noteWait {w a} (h : Kept d e) : Kept d (noteWait w a e) := .ite h h.countWait

theorem Kept.dirty {a} (h : Kept d e) : Kept d (dirty a e) := h.updPage

theorem Kept.readCell {n} (h : Kept d e) : Kept d (readCell n e).2 := by
  unfold Machine.readCell
  extract_lets a s b hit c f res
  have hf : Kept d f := .ite h.fired h
  clear_value res f
  cases res <;> dsimp only
  case good => exact hf
  case corrected => exact hf.countY.flag0.cper
  case poisoned => exact hf.countY.flag0
  case uncorrectable => exact hf.putCell.countY.flag0.cper.score

theorem Kept.readCells {n k} (h : Kept d e) : Kept d (readCells n k e).2 := by
  induction k generalizing n e with
  | zero => exact h
  | succ k ih =>
    rw [Machine.readCells]
    exact ih h.readCell

theorem Kept.readYard {a len} (h : Kept d e) : Kept d (readYard a len e).2 := by
  unfold Machine.readYard
  exact h.tcount.readCells

theorem Kept.mergeCell {n bs} (h : Kept d e) : Kept d (mergeCell n bs e).2 := by
  unfold Machine.mergeCell
  dsimp only
  split
  · exact h
  split
  · exact h.fired.flag0
  split
  · exact h.readCell.flag0
  · exact h.readCell

theorem Kept.putWords {n ws} (h : Kept d e) : Kept d (putWords n ws e) := by
  induction ws generalizing n e with
  | nil => exact h
  | cons w ws ih =>
    rw [putWords_cons]
    exact ih h.dirty.putCell

theorem Kept.writeCells {a bs} (h : Kept d e) : Kept d (writeCells a bs e).2 := by
  unfold Machine.writeCells
  extract_lets r
  have hr : Kept d r.2 := .foldlBeside (fun _ _ h => h.mergeCell) h
  split
  · exact hr.putWords
  · exact hr

theorem Kept.fireWatches {t reached} (h : Kept d e) : Kept d (fireWatches t reached e) :=
  .same (.same h rfl) rfl

theorem Kept.tallyAdd {t cells granule} (h : Kept d e) : Kept d (tallyAdd t cells granule e) :=
  have h₂ := .ite h.updTally.flag0 h.updTally
  .ite h₂ h₂.fireWatches

theorem Kept.countCells {a n} (h : Kept d e) : Kept d (countCells a n e) := by
  unfold Machine.countCells
  split
  · exact h
  · exact h.each (fun _ _ h => .ite h (.same h rfl))

theorem Kept.rearm {t} (h : Kept d e) : Kept d (rearm t e) := h.updTally

theorem Kept.watchTally {w} (h : Kept d e) : Kept d (watchTally w e).2 := by
  unfold Machine.watchTally
  split
  · exact h
  split
  · exact .same h rfl
  · exact h.flag0

theorem Kept.countClass {who a cells} (h : Kept d e) : Kept d (countClass who a cells e) := by
  unfold Machine.countClass
  split
  · exact .ite h.countY h
  · exact h

theorem Kept.landYard {acc a bs} (h : Kept d e) : Kept d (landYard acc a bs e).2 := by
  unfold Machine.landYard
  extract_lets r
  have hr : Kept d r.2 := h.tcount.countClass.writeCells
  split
  · exact .ite hr hr.countCells
  · exact hr

/-! ### The memory stacks -/

theorem Kept.openRow {o} (h : Kept d e) : Kept d (openRow o e) := h.updStack

theorem Kept.noteAccess (h : Kept d e) : Kept d (noteAccess e) := .same h rfl

theorem Kept.countUe {p pc} (h : Kept d e) : Kept d (countUe p pc e) :=
  .ite h.updStack.autoStable h.updStack

theorem Kept.offlineAccess {p} (h : Kept d e) : Kept d (offlineAccess p e) := h.bump.flag0

theorem Kept.readLine {n} (h : Kept d e) : Kept d (readLine n e).2 := by
  unfold Machine.readLine
  extract_lets o m p pc e₁ e₂ hit e₃ l res
  have h₁ : Kept d e₁ := h.noteAccess
  have h₃ : Kept d e₃ := .ite h₁.openRow.fired h₁.openRow
  clear_value res e₁ e₃
  split
  · exact h₁.offlineAccess
  · cases res <;> dsimp only
    case good => exact h₃
    case corrected => exact h₃.bump.flag0.cper
    case poisoned => exact h₃.bump.flag0
    case uncorrectable => exact .countUe (.cper (.ite h₃.putLine.bump.flag0 h₃.putLine.bump.flag0.wr64))

theorem Kept.readStack {a len} (h : Kept d e) : Kept d (readStack a len e).2 := by
  unfold Machine.readStack
  exact .foldlBeside (fun _ _ h => h.readLine) h

theorem Kept.mergeLine {n a bs} (h : Kept d e) : Kept d (mergeLine n a bs e).2 := by
  unfold Machine.mergeLine
  dsimp only
  split
  · exact h.noteAccess.bump
  split
  · exact h.noteAccess.openRow
  split
  · exact h.readLine.flag0
  · exact h.readLine

theorem Kept.putLinesFrom {n ws} (h : Kept d e) : Kept d (putLinesFrom n ws e) := by
  induction ws generalizing n e with
  | nil => exact h
  | cons w ws ih =>
    rw [Machine.putLinesFrom]
    exact ih h.putLine

theorem Kept.landStack {a bs} (h : Kept d e) : Kept d (landStack a bs e).2 := by
  unfold Machine.landStack
  extract_lets o m lines r
  have hr : Kept d r.2 := h.foldlBeside fun _ _ h => h.mergeLine
  clear_value r
  split
  · dsimp only
    exact h.fired.flag0.cper
  · split
    · exact hr
    · exact hr.putLinesFrom

/-! ### Packets on their way -/

theorem Kept.headerError {link} (h : Kept d e) : Kept d (headerError link e) := by
  unfold Machine.headerError
  extract_lets l ts l₂ _ e₁ e₂
  have h₁ : Kept d e₁ := h.same rfl
  have h₂ : Kept d e₂ := h₁.bump.flag0
  exact .ite h₂.autoStable h₂

theorem Kept.clusterUpset {s} (h : Kept d e) : Kept d (clusterUpset s e) := h.flag0.cper.autoStable

theorem Kept.hopDrops {hh} (h : Kept d e) : Kept d (hopDrops hh e) := by
  unfold Machine.hopDrops
  split
  · exact h.headerError
  · exact h.flag0
  · exact h.bump.bump.flag0

theorem Kept.ringRefused {w a n} (h : Kept d e) : Kept d (ringRefused w a n e) := by
  unfold Machine.ringRefused
  split
  · exact h.bumpBy
  · exact h

theorem Kept.mishap {m w second src t a} (h : Kept d e) : Kept d (mishap m w second src t a e).2 := by
  unfold Machine.mishap
  extract_lets drop
  have hdrop x : Kept d (drop x).2 := by
    dsimp only [drop]
    split
    · exact h.hopDrops
    · exact h
  clear_value drop
  cases m with
  | clear | data => exact h
  | link | ring => exact hdrop _
  | bundle =>
    dsimp only
    split
    · exact hdrop _
    · exact .ite h.hopDrops h
  | reply =>
    dsimp only
    split
    · exact h.hopDrops
    · exact h
  | route =>
    dsimp only
    split
    · exact h.flag0.push
    · dsimp only
      exact h.bump.cper
  | cluster => exact .ite h.clusterUpset h
  | full => exact .ite h.ringRefused h

theorem Kept.sendTo {w second src t a} (h : Kept d e) : Kept d (sendTo w second src t a e).2 := by
  unfold Machine.sendTo
  split
  · exact h
  · exact .mishap (.same h rfl)

theorem Kept.sendOff {acc a} (h : Kept d e) : Kept d (sendOff acc a e).2 := by
  unfold Machine.sendOff
  split
  · exact h.sendTo
  · exact h.sendTo

theorem Kept.onWay {m} (h : Kept d e) : Kept d (onWay m e) := .same h rfl

theorem Kept.parityAt {acc a tag} (h : Kept d e) : Kept d (parityAt acc a tag e) := by
  unfold Machine.parityAt
  exact h.cper

theorem Kept.park {hh} (h : Kept d e) : Kept d (park hh e) := .same (.ite h.countWait h) rfl

theorem Kept.launch {f} (h : Kept d e) : Kept d (launch f e) := .same h rfl

theorem Kept.timedOut {w} (h : Kept d e) : Kept d (timedOut w e) := .same h.bump.flag0 rfl

/-! ### Events, refusals and accesses -/

theorem Kept.updCmp {n f} (h : Kept d e) : Kept d (updCmp n f e) := .same h rfl

theorem Kept.updQueue {q f} (h : Kept d e) : Kept d (updQueue q f e) := .same h rfl

theorem Kept.ownLand {acc a bs} (h : Kept d e) : Kept d (ownLand acc a bs e).2 := by
  unfold Machine.ownLand
  split
  · split
    · exact h.landYard
    · exact h
  · split
    · split
      · exact h.offlineAccess
      · exact h.tcount.ccount.landStack
    · exact h

theorem Kept.ownWrite {acc a bs} (h : Kept d e) : Kept d (ownWrite acc a bs e).2 := by
  unfold Machine.ownWrite
  dsimp only
  split
  · exact h.park
  split
  · exact h.sendOff.ownLand
  · exact h.sendOff.ownLand.launch
  · exact h.sendOff.launch
  · exact (h.sendOff.doIf (fun _ h => h.flag0)).parityAt

theorem Kept.ringWrite {a bs} (h : Kept d e) : Kept d (ringWrite a bs e) := h.ownWrite

theorem Kept.post {n ev} (h : Kept d e) : Kept d (post n ev e) := by
  unfold Machine.post
  split
  · exact h.updCmp.bump.flag0
  · exact .ite h.updCmp.bump.flag0 h.ringWrite.updCmp.updQueue.push

theorem Kept.postBoth {ev} (h : Kept d e) : Kept d (postBoth ev e) := .post (.ite h h.post)

theorem Kept.setRun {u r} (h : Kept d e) : Kept d (setRun u r e) := .same h rfl

theorem Kept.refused {acc k owner shared a} (h : Kept d e) : Kept d (refused acc k owner shared a e) :=
  .ite h.bump.ccount.flag0 h.bump.ccount.flag0.updCmp.post

theorem Kept.decodeError {acc a} (h : Kept d e) : Kept d (decodeError acc a e) := h.refused

theorem Kept.clusterRefused {acc k a} (h : Kept d e) : Kept d (clusterRefused acc k a e) := h.flag0

theorem Kept.yardRead {acc a len} (h : Kept d e) : Kept d (yardRead acc a len e).2 := by
  unfold Machine.yardRead
  split
  · exact h.countClass.readYard
  · exact h
  · exact h
  · exact h.clusterRefused.refused

theorem Kept.stackRead {acc a len} (h : Kept d e) : Kept d (stackRead acc a len e).2 := by
  unfold Machine.stackRead
  split
  · exact h
  split
  · exact h.offlineAccess
  split
  · exact h.refused
  · exact h.tcount.ccount.readStack

theorem Kept.noteWaits {acc a len} (h : Kept d e) : Kept d (noteWaits acc a len e) :=
  h.each (fun _ _ h => h.noteWait)

theorem Kept.memRead {acc a len} (h : Kept d e) : Kept d (memRead acc a len e).2 := by
  unfold Machine.memRead
  dsimp only
  split
  · split
    · exact h.noteWaits
    · exact .foldlBeside (fun _ _ h => h.yardRead) h
  · split
    · exact h.stackRead
    · exact h.decodeError

theorem Kept.pathParity {acc a} (h : Kept d e) : Kept d (pathParity acc a e) := h.parityAt

theorem Kept.readPiece {acc a n} (h : Kept d e) : Kept d (readPiece acc a n e).2 := by
  unfold Machine.readPiece
  dsimp only
  split
  · exact h.sendOff.timedOut
  split
  · exact h.sendOff.memRead.timedOut
  · exact h.sendOff.memRead.pathParity
  · exact h.sendOff.memRead

theorem Kept.yardWrite {acc a bs} (h : Kept d e) : Kept d (yardWrite acc a bs e).2 := by
  unfold Machine.yardWrite
  split
  · exact h.landYard
  · exact h
  · exact h
  · exact .ite h.clusterRefused.refused h

theorem Kept.stackWrite {acc a bs} (h : Kept d e) : Kept d (stackWrite acc a bs e).2 := by
  unfold Machine.stackWrite
  split
  · exact h
  split
  · exact h.offlineAccess
  split
  · exact h.refused
  · exact h.tcount.ccount.landStack

theorem Kept.memWrite {acc a bs} (h : Kept d e) : Kept d (memWrite acc a bs e).2 := by
  unfold Machine.memWrite
  dsimp only
  split
  · split
    · exact h.noteWaits
    · exact .foldlBeside (fun _ _ h => h.yardWrite) h
  · split
    · exact h.stackWrite
    · exact h.decodeError

theorem Kept.spoiledPart {acc a len} (h : Kept d e) : Kept d (spoiledPart acc a len e).2 := by
  unfold Machine.spoiledPart
  split
  · split
    · exact h.pathParity
    · exact h.yardWrite
  · split
    · exact h
    split
    · exact h.stackWrite
    · exact h.pathParity.flag0

theorem Kept.partWrite {spoiled acc a bs} (h : Kept d e) : Kept d (partWrite spoiled acc a bs e).2 := by
  unfold Machine.partWrite
  split
  · exact h.spoiledPart
  · exact h.memWrite

theorem Kept.postWrite {spoiled acc tag serial a bs} (h : Kept d e) :
    Kept d (postWrite spoiled acc tag serial a bs e).2 := by
  unfold Machine.postWrite
  dsimp only
  refine .foldlBeside (fun _ _ h => ?_) h
  split
  · exact h.park
  · exact h.partWrite.launch

theorem Kept.countLost {who cmp a k} (h : Kept d e) : Kept d (countLost who cmp a k e) := by
  unfold Machine.countLost
  split
  · exact h
  · extract_lets f low
    have hf : Kept d f := by
      dsimp only [f]
      split
      · exact h.countY
      · exact h.bump
    clear_value f
    exact .flag0 (.ccount (.ite hf hf.wr64))

theorem Kept.updCore {core f} (h : Kept d e) : Kept d (updCore core f e) := .same h rfl

theorem Kept.lateFailure {f k} (h : Kept d e) : Kept d (lateFailure f k e) := by
  unfold Machine.lateFailure
  split
  · exact h.push
  · exact .ite h h.post

theorem Kept.refuseJob {u serial} (h : Kept d e) : Kept d (refuseJob u serial e) := by
  unfold Machine.refuseJob
  split
  · exact .ite h.setRun h
  · exact h

theorem Kept.refuseWrite {core f} (h : Kept d e) : Kept d (refuseWrite core f e) := by
  unfold Machine.refuseWrite
  split
  · exact .ite h (.ite h.refuseJob (.ite h.refuseJob.updCore h.updCore))
  · exact .ite h.updCore h

theorem Kept.failureNotice {f k} (h : Kept d e) : Kept d (failureNotice f k e) := by
  unfold Machine.failureNotice
  extract_lets e₁ e₂
  have h₁ : Kept d e₁ := h.countLost.cper
  have h₂ : Kept d e₂ := by
    unfold e₂
    split
    · exact h₁.updCore
    · exact h₁
  split
  · split
    · exact h₂.push
    · exact h₂.refuseJob
    · split
      · exact h₂.refuseWrite
      · exact h₂
  · split
    · exact .ite h₂.setRun h₂.lateFailure
    · exact h₂.lateFailure

/-! ### Semaphores and locks -/

theorem Kept.updSem {k f} (h : Kept d e) : Kept d (updSem k f e) := .same h rfl

theorem Kept.dropWaiter {k core} (h : Kept d e) : Kept d (dropWaiter k core e) := .same h rfl

theorem Kept.answerSem {core code} (h : Kept d e) : Kept d (answerSem core code e) := by
  unfold Machine.answerSem
  split
  · exact h.push
  split
  · exact h.updCore
  · exact h

theorem Kept.grantCounting {n k} (h : Kept d e) : Kept d (grantCounting n k e) := by
  induction n generalizing e with
  | zero => exact h
  | succ n ih =>
    unfold Machine.grantCounting
    split
    · exact h
    · exact .ite (ih h.updSem.dropWaiter.answerSem) h

theorem Kept.handLock {k code} (h : Kept d e) : Kept d (handLock k code e) := by
  unfold Machine.handLock
  split
  · exact h.updSem
  · exact h.updSem.dropWaiter.answerSem

theorem Kept.resetWaiters {k} (h : Kept d e) : Kept d (resetWaiters k e) :=
  h.each (fun _ _ h => h.dropWaiter.answerSem)

theorem Kept.semQueue {k cmp core amount timeout acquire} (h : Kept d e) :
    Kept d (semQueue k cmp core amount timeout acquire e).2 := by
  unfold Machine.semQueue
  split
  · exact h
  split
  · exact h.flag0
  · exact .same h rfl

theorem Kept.semSignal {k cmp core n} (h : Kept d e) : Kept d (semSignal k cmp core n e).2 := by
  unfold Machine.semSignal
  split
  · exact h
  split
  · exact h.flag0
  · exact h.updSem.grantCounting

theorem Kept.semWait {k cmp core n timeout} (h : Kept d e) : Kept d (semWait k cmp core n timeout e).2 := by
  unfold Machine.semWait
  split
  · exact h
  split
  · exact h.updSem
  · exact h.semQueue

theorem Kept.semAcquire {k cmp core timeout} (h : Kept d e) : Kept d (semAcquire k cmp core timeout e).2 := by
  unfold Machine.semAcquire
  dsimp only
  split
  · exact h
  split
  · exact h.updSem
  · exact h.updSem
  · split
    · exact h
    · exact h.semQueue

theorem Kept.semRelease {k cmp core} (h : Kept d e) : Kept d (semRelease k cmp core e).2 := by
  unfold Machine.semRelease
  split
  · exact h
  split
  · exact h.handLock
  · exact h

theorem Kept.semKind {k kind} (h : Kept d e) : Kept d (semKind k kind e) := h.updSem.resetWaiters

theorem Kept.semValue {k v} (h : Kept d e) : Kept d (semValue k v e) := by
  unfold Machine.semValue
  split
  · exact h
  · exact h.updSem.grantCounting
  · exact h.updSem

theorem Kept.semOwned {k owner kind value} (h : Kept d e) : Kept d (semOwned k owner kind value e) := by
  unfold Machine.semOwned
  split
  · exact h.updSem.semKind.semValue
  · exact h.updSem.semKind

theorem Kept.semClusterReset {s} (h : Kept d e) : Kept d (semClusterReset s e) :=
  h.each (fun _ _ h => h.updSem.resetWaiters)

theorem Kept.epochAdvance {core} (h : Kept d e) : Kept d (epochAdvance core e) := .same h rfl

theorem Kept.reapAt {r s} (h : Kept d e) : Kept d (reapAt r s e) :=
  h.each (fun _ _ h => .ite h.updSem.bump.flag0 h.updSem.bump.flag0.handLock)

/-! ### The depot -/

theorem Kept.stat {i} (h : Kept d e) : Kept d (stat i e) := h.bump

theorem Kept.cstat {c i} (h : Kept d e) : Kept d (cstat c i e) := h.bump

theorem Kept.told {c i} (h : Kept d e) : Kept d (told c i e) := h.tcount.ccount

theorem Kept.stepSeq (h : Kept d e) : Kept d (stepSeq e) := .same h rfl

theorem Kept.updSlot {q i f} (h : Kept d e) : Kept d (updSlot q i f e) := .same h rfl

theorem Kept.freeSlot {q i} (h : Kept d e) : Kept d (freeSlot q i e) := .updQueue (.same h rfl)

theorem Kept.fillPool (h : Kept d e) : Kept d (fillPool e) := by
  unfold Machine.fillPool
  split
  · split
    · exact h.updSlot
    · exact h
  · exact h

theorem Kept.makeReady {q i back} (h : Kept d e) : Kept d (makeReady q i back e) :=
  .ite h.stepSeq.updSlot.flag0 h.stepSeq.updSlot

theorem Kept.endUnrun {q i status} (h : Kept d e) : Kept d (endUnrun q i status e) := h.updSlot.push

theorem Kept.metaLost {code entry} (h : Kept d e) : Kept d (metaLost code entry e) := h.flag0.push

theorem Kept.backingWaits (h : Kept d e) : Kept d (backingWaits e) := .wrB (.flag0 (.same h rfl))

theorem Kept.holdOp {why op} (h : Kept d e) : Kept d (holdOp why op e) :=
  .ite (.same h rfl) (.backingWaits (.same h rfl))

theorem Kept.readBacking {o len code entry} (h : Kept d e) : Kept d (readBacking o len code entry e).2.2 := by
  unfold Machine.readBacking
  dsimp only
  split
  · exact h.offlineAccess
  split
  · exact h.readPiece
  · split
    · exact h.readPiece.metaLost
    · exact h.readPiece
  · exact h.readPiece.metaLost

theorem Kept.writeBacking {o bs} (h : Kept d e) : Kept d (writeBacking o bs e) := h.ringWrite

theorem Kept.backQueue {q} (h : Kept d e) : Kept d (backQueue q e) := by
  conv in Machine.backQueue => delta Machine.backQueue
  cases backing e with
  | none => exact h
  | some b => exact h.writeBacking

theorem Kept.fetchQueue {q} (h : Kept d e) : Kept d (fetchQueue q e).2 := by
  conv in Machine.fetchQueue => delta Machine.fetchQueue
  obtain ⟨fetch, hfetch⟩ := exists_eq' (a' := Machine.readBacking)
  have hr {b} := h.readBacking (o := b + 32 * q) (len := 32) (code := 1) (entry := q)
  rw [hfetch] at hr ⊢
  split
  · exact hr
  · exact h

theorem Kept.updCtr {c f} (h : Kept d e) : Kept d (updCtr c f e) := .same h rfl

theorem Kept.evictCtr {b c} (h : Kept d e) : Kept d (evictCtr b c e) :=
  .updCtr (.writeBacking (.same h rfl))

theorem Kept.fetchCtr {c} (h : Kept d e) : Kept d (fetchCtr c e).2 := by
  conv in Machine.fetchCtr => delta Machine.fetchCtr
  obtain ⟨fetch, hfetch⟩ := exists_eq' (a' := Machine.readBacking)
  obtain ⟨back, hback⟩ := exists_eq' (a' := Machine.backing)
  have hr {b} := h.readBacking (o := counterAt b c) (len := 8) (code := 2) (entry := c)
  rw [hfetch] at hr ⊢
  rw [hback]
  extract_lets first
  have hfirst {f} (h : Kept d f) : Kept d (first f) := .same h rfl
  clear_value first
  split
  · exact h
  split
  · exact hfirst h
  · extract_lets r
    split
    · refine hfirst (.updCtr (.ite hr ?_))
      split
      · exact hr.evictCtr
      · exact hr
    · exact hr

theorem Kept.withCtr {c op} {f : Dev → Dev} (hf : ∀ e, Kept d e → Kept d (f e)) (h : Kept d e) :
    Kept d (withCtr c op f e) := by
  conv in Machine.withCtr => delta Machine.withCtr
  obtain ⟨fetch, hfetch⟩ := exists_eq' (a' := Machine.fetchCtr)
  have hr := h.fetchCtr (c := c)
  rw [hfetch] at hr ⊢
  extract_lets r
  split
  · exact hf _ hr
  · exact hr
  · exact hr.holdOp

theorem Kept.ctrAdd {c k} (h : Kept d e) : Kept d (ctrAdd c k e) := .ite h.updCtr h.updCtr.flag0

theorem Kept.ctrFire {c void} (h : Kept d e) : Kept d (ctrFire c void e) := h.updCtr.push

theorem Kept.ctrCheck {c bind} (h : Kept d e) : Kept d (ctrCheck c bind e) :=
  have h₁ := .ite h.flag0 h
  .ite h (.ite h₁.ctrFire (.ite h₁.ctrFire h₁))

theorem Kept.ctrDec {c} (h : Kept d e) : Kept d (ctrDec c e) :=
  h.withCtr (fun _ h => h.ctrAdd.ctrCheck)

theorem Kept.ctrVoid {c} (h : Kept d e) : Kept d (ctrVoid c e) :=
  h.withCtr (fun _ h => h.updCtr.ctrCheck)

theorem Kept.ctrVoidBound {key c} (h : Kept d e) : Kept d (ctrVoidBound key c e) :=
  h.withCtr (fun _ h => .ite h h.updCtr.ctrCheck)

theorem Kept.ctrBind {c q i init} (h : Kept d e) : Kept d (ctrBind c q i init e) :=
  h.updCtr.ctrAdd.ctrCheck

theorem Kept.ctrZero {c} (h : Kept d e) : Kept d (ctrZero c e) :=
  h.withCtr (fun _ h => .ite h h.updCtr)

theorem Kept.ctrUnbind {c key} (h : Kept d e) : Kept d (ctrUnbind c key e) :=
  h.withCtr (fun _ h => .ite h.updCtr h)

theorem Kept.ctrAction {cmp c} {f : ℕ → Dev → Dev} (hf : ∀ i e, Kept d e → Kept d (f i e)) (h : Kept d e) :
    Kept d (ctrAction cmp c f e) :=
  .ite (hf _ _ h) h.flag0

theorem Kept.putMatch {ev} (h : Kept d e) : Kept d (putMatch ev e) := .same h rfl

theorem Kept.dropMatch {cmp key} (h : Kept d e) : Kept d (dropMatch cmp key e) := .same h rfl

theorem Kept.makeRoom (h : Kept d e) : Kept d (makeRoom e) := by
  unfold Machine.makeRoom
  split
  · exact h
  split
  · refine .putMatch ?_
    split
    · exact h.writeBacking
    · exact h
  · exact h

theorem Kept.bringBack {ev} (h : Kept d e) : Kept d (bringBack ev e) :=
  h.dropMatch.makeRoom.putMatch

theorem Kept.fetchSpill {i} (h : Kept d e) : Kept d (fetchSpill i e).2 := by
  conv in Machine.fetchSpill => delta Machine.fetchSpill
  obtain ⟨fetch, hfetch⟩ := exists_eq' (a' := Machine.readBacking)
  have hr {b} := h.readBacking (o := spillAt b i) (len := 64) (code := 3) (entry := i)
  rw [hfetch] at hr ⊢
  split
  · exact hr
  · exact h

theorem Kept.matchCheck {cmp key} (h : Kept d e) : Kept d (matchCheck cmp key e) := by
  unfold Machine.matchCheck
  split
  · exact h
  split
  · exact h
  · exact .ite h.dropMatch.updSlot.push h

theorem Kept.tokenPut {ev slot payload void} (h : Kept d e) : Kept d (tokenPut ev slot payload void e) :=
  .ite h.flag0 h.putMatch.stepSeq.matchCheck

theorem Kept.tokenLost (h : Kept d e) : Kept d (tokenLost e) := h.bump.flag0

theorem Kept.deliverToken {cmp key slot payload void} (h : Kept d e) :
    Kept d (deliverToken cmp key slot payload void e) := by
  conv in Machine.deliverToken => delta Machine.deliverToken
  obtain ⟨fetch, hfetch⟩ := exists_eq' (a' := Machine.fetchSpill)
  have hr {i} := h.fetchSpill (i := i)
  rw [hfetch] at hr ⊢
  split
  · split
    · exact h.tokenPut
    · extract_lets r
      split
      · exact hr.holdOp
      · exact hr.holdOp
      · exact hr
      · exact .ite hr.bringBack.tokenPut hr.tokenLost
  · exact .ite h.makeRoom.tokenPut h.tokenLost

theorem Kept.joinMatch {cmp key q i} (h : Kept d e) : Kept d (joinMatch cmp key q i e) := by
  conv in Machine.joinMatch => delta Machine.joinMatch
  obtain ⟨fetch, hfetch⟩ := exists_eq' (a' := Machine.fetchSpill)
  have hr {i} := h.fetchSpill (i := i)
  rw [hfetch] at hr ⊢
  extract_lets n join wait
  have hjoin {x f} (h : Kept d f) : Kept d (join x f) := h.putMatch.stepSeq.matchCheck
  have hwait {f} (h : Kept d f) : Kept d (wait f) := h.updSlot
  clear_value join wait
  split
  · split
    · exact hjoin h
    · extract_lets r
      split
      · exact hr.holdOp
      · exact hr.holdOp
      · exact hr
      · exact .ite (hjoin hr.bringBack) (hwait hr)
  · exact .ite h.makeRoom.putMatch.stepSeq (hwait h)

theorem Kept.ttAdd {dueTick period a} (h : Kept d e) : Kept d (ttAdd dueTick period a e) :=
  .stepSeq (.same h rfl)

theorem Kept.ttDrop {p} (h : Kept d e) : Kept d (ttDrop p e) := .same h rfl

theorem Kept.armTally {q i} (h : Kept d e) : Kept d (armTally q i e) := by
  unfold Machine.armTally
  dsimp only
  split
  · exact h.updSlot.makeReady
  split
  · exact h.updSlot.endUnrun
  split
  · exact h.updSlot.endUnrun
  split
  · exact h.updSlot.watchTally.makeReady
  · exact h.updSlot.watchTally
  · exact .same h.updSlot.watchTally.flag0 rfl

theorem Kept.armForm {q i} (h : Kept d e) : Kept d (armForm q i e) := by
  unfold Machine.armForm
  dsimp only
  split
  · exact h.updSlot.withCtr (fun _ h => .ite h.updSlot h.ctrBind)
  split
  · split
    · exact .ite h.updSlot h.updSlot.joinMatch
    · exact h.updSlot.joinMatch
  · exact h.updSlot.armTally

theorem Kept.armRelease {q i} (h : Kept d e) : Kept d (armRelease q i e) := .ite h.ttAdd h.armForm

theorem Kept.unblock {p} (h : Kept d e) : Kept d (unblock p e) := by
  unfold Machine.unblock
  split
  · exact h
  · exact h.armForm

theorem Kept.slotFired {q i void} (h : Kept d e) : Kept d (slotFired q i void e) :=
  .ite h (.unblock (.unblock (.ite h.endUnrun.stat h.armTally)))

theorem Kept.enqCheck {cmp q seq img} (h : Kept d e) : Kept d (enqCheck e cmp q seq img).2 := by
  unfold Machine.enqCheck
  split
  · exact h
  · extract_lets r
    have hr : Kept d r.2 := by
      dsimp only [r]
      split
      · exact h.fetchCtr
      · exact h
    clear_value r
    split <;> exact hr

theorem Kept.enqFlags {q c} (h : Kept d e) : Kept d (enqFlags q c e) :=
  .ite h.flag0 (.ite h.flag0 h)

theorem Kept.accept {q img} (h : Kept d e) : Kept d (accept q img e) :=
  h.ringWrite.updQueue.updSlot.stat.cstat.armRelease

theorem Kept.countRefusal {q} (h : Kept d e) : Kept d (countRefusal q e) := h.flag0.stat.cstat

theorem Kept.recordAct {q img} (h : Kept d e) : Kept d (recordAct q img e) :=
  have h₁ := h.foldBelow fun _ _ h => h.ctrDec
  .ite h.deliverToken (.ite h₁.ctrVoid h₁)

theorem Kept.notOwner {w cmp q c} (h : Kept d e) : Kept d (notOwner w cmp q c e) := .ite h.refused h

theorem Kept.metaCheck (h : Kept d e) : Kept d (metaCheck e).2 := by
  unfold Machine.metaCheck
  extract_lets known
  split
  · dsimp only
    exact h.fired.flag0.cper
  · exact h.fired.flag0.draw.push
  · exact h

theorem Kept.depotCheck {f : Dev → Dev} (hf : ∀ e, Kept d e → Kept d (f e)) (h : Kept d e) :
    Kept d (depotCheck f e) :=
  .ite (hf _ h.metaCheck) h.metaCheck

theorem Kept.enqueue {w cmp q seq img} (h : Kept d e) : Kept d (enqueue w cmp q seq img e).2 := by
  conv in Machine.enqueue => delta Machine.enqueue
  obtain ⟨check, hcheck⟩ := exists_eq' (a' := Machine.enqCheck)
  extract_lets m f c
  have hf : Kept d f := h.metaCheck
  have hx := hf.enqCheck (cmp := cmp) (q := q) (seq := seq) (img := img)
  clear_value f
  rw [hcheck] at hx ⊢
  split
  · exact hf
  split
  · exact .ite hf.recordAct hf.countRefusal.notOwner
  · generalize check f cmp q seq img = x at hx
    split
    · exact hx.accept
    · exact hx.countRefusal.enqFlags.notOwner
    · exact hx

theorem Kept.awaits {o b} (h : Kept d e) : Kept d (awaits o b e) := by
  unfold Machine.awaits
  split
  · exact .doIf (fun _ h => h.backingWaits) (.same h rfl)
  · exact .same h.stat rfl

theorem Kept.writeRecord {cq tag status user unit late replayed ticket q slot dn} (h : Kept d e) :
    Kept d (writeRecord cq tag status user unit late replayed ticket q slot dn e) :=
  h.ringWrite.updQueue.push

theorem Kept.refusedRecord {q tag} (h : Kept d e) : Kept d (refusedRecord q tag e) :=
  .ite h.writeRecord h

theorem Kept.suspectRecord {q tag unit ticket} (h : Kept d e) : Kept d (suspectRecord q tag unit ticket e) :=
  .ite h (.ite h.writeRecord (.same h rfl))

theorem Kept.finishSlot {q i} (h : Kept d e) : Kept d (finishSlot q i e) :=
  .ite h.updSlot (.freeSlot (.ite h.writeRecord h))

theorem Kept.ctrEdge {void : Bool} {c : Nat} (h : Kept d e) :
    Kept d ((if void then Machine.ctrVoid else Machine.ctrDec) c e) := by
  rw [ite_apply, ite_apply]
  exact .ite h.ctrVoid h.ctrDec

theorem Kept.completeSlot {q i} (h : Kept d e) : Kept d (completeSlot q i e) := by
  unfold Machine.completeSlot
  extract_lets s img x o void here e₁ e₂ e₃ e₄ e₅
  have h₁ : Kept d e₁ := by
    dsimp only [e₁]
    refine .ite h (.ite h.push (.foldBelow (fun _ _ h => ?_) h))
    exact h.ctrAction fun _ _ h => h.ctrEdge
  clear_value e₁
  have h₂ : Kept d e₂ := .ite h₁ (.ite h₁.push h₁.deliverToken)
  clear_value e₂
  have h₃ : Kept d e₃ := .ite h₂.push h₂
  clear_value e₃
  have h₄ : Kept d e₄ := h₃.stat.cstat.told
  clear_value e₄
  have h₅ : Kept d e₅ := .ite h₄.cstat.told h₄
  clear_value e₅
  exact .ite h (.finishSlot (.ite h₅.cstat h₅))

theorem Kept.releaseCq {cq} (h : Kept d e) : Kept d (releaseCq cq e) :=
  .each (fun _ _ h => h.suspectRecord) (.same (h.each (fun _ _ h => .ite h.updSlot.finishSlot h)) rfl)

/-! ### Units and runs -/

theorem Kept.startSweep {id g} (h : Kept d e) : Kept d (startSweep id g e) :=
  h.updDesc.each (fun _ _ h => h.updPage)

theorem Kept.claimRegions {u img} (h : Kept d e) : Kept d (claimRegions u img e) :=
  h.each (fun _ _ h => .ite h h.updDesc)

theorem Kept.releaseRegions {u status} (h : Kept d e) : Kept d (releaseRegions u status e) :=
  h.each (fun _ _ h => .ite h.updDesc.startSweep h.updDesc)

theorem Kept.setStep {u x} (h : Kept d e) : Kept d (setStep u x e) := .same h rfl

theorem Kept.unslot {u} (h : Kept d e) : Kept d (unslot u e) := by
  unfold Machine.unslot
  split
  · exact h.setStep.makeReady
  · exact h

theorem Kept.mapBit {code on} (h : Kept d e) : Kept d (mapBit code on e) := by
  unfold Machine.mapBit
  split
  · exact .ite h.wr64 (.ite h.wr64 h.wr64)
  · exact h.wr64
  · exact .ite h.wr64 h.wr64
  · exact h.wr64
  · exact h

theorem Kept.admitUnit {code} (h : Kept d e) : Kept d (admitUnit code e) :=
  .same h.setUnitState.mapBit rfl

theorem Kept.boundary (h : Kept d e) : Kept d (boundary e) :=
  (((h.each (fun _ _ h => h.admitUnit)).each (fun _ _ h => h.updCmp)).each
    (fun _ _ h => h.unslot)).wr64.wr.wrF.wr

theorem Kept.startRun {u q i} (h : Kept d e) : Kept d (startRun u q i e) :=
  h.stepSeq.setRun.updSlot.claimRegions

theorem Kept.setEnding {u status user s1} (h : Kept d e) : Kept d (setEnding u status user s1 e) := by
  unfold Machine.setEnding
  split
  · exact .ite h h.setRun
  · exact h

theorem Kept.finishRun {u} (h : Kept d e) : Kept d (finishRun u e) := by
  unfold Machine.finishRun
  split
  case h_1 => exact h
  split
  case h_1 => exact h
  extract_lets st p e₁ e₂ e₃ e₄ idle e₅ held e₆
  have h₂ : Kept d e₂ := .ite h.releaseRegions.epochAdvance h.releaseRegions
  have h₃ : Kept d e₃ := .ite h₂.cper h₂
  have h₄ : Kept d e₄ := h₃.setRun.push
  have h₅ : Kept d e₅ := .ite (h₄.updCore.doIf fun _ h => h.bump64) h₄
  refine .ite h ?_
  split
  · exact .ite h₅.updSlot h₅.updSlot.push
  · exact h₅

theorem Kept.cutRun {u status} (h : Kept d e) : Kept d (cutRun u status e) := by
  unfold Machine.cutRun
  split
  · exact h
  split
  · exact .ite h h.setRun
  · exact h.setRun.push

theorem Kept.replay {u r} (h : Kept d e) : Kept d (replay u r e) :=
  h.setRun.releaseRegions.makeReady.updSlot.stat

theorem Kept.forgetWaits {u} (h : Kept d e) : Kept d (forgetWaits u e) := .same h rfl

theorem Kept.loseRun {u} (h : Kept d e) : Kept d (loseRun u e) := by
  unfold Machine.loseRun
  dsimp only
  split
  · exact h.forgetWaits.unslot
  · exact .ite h.forgetWaits.unslot.replay h.forgetWaits.unslot.cutRun

theorem Kept.resetRun {u} (h : Kept d e) : Kept d (resetRun u e) := h.forgetWaits.unslot.cutRun

/-! ### Rights at register pages -/

theorem Kept.refusedReg {w k write} (h : Kept d e) : Kept d (refusedReg w k write e) := by
  unfold Machine.refusedReg
  exact h.refused

theorem Kept.guarded {w k} {f : Dev → Dev} (hf : ∀ e, Kept d e → Kept d (f e)) (h : Kept d e) :
    Kept d (guarded w k f e) := by
  unfold Machine.guarded
  split
  · exact hf _ h
  · exact h.refusedReg.answer

/-! ### Commands of the yard -/

theorem Kept.readAt {as} (h : Kept d e) : Kept d (readAt as e).2 := by
  induction as generalizing e with
  | nil => exact h
  | cons a as ih =>
    rw [Machine.readAt]
    exact ih h.readCell

theorem Kept.readPart {acc p} (h : Kept d e) : Kept d (readPart acc p e).2 := by
  unfold Machine.readPart
  exact h.tcount.countClass.readAt

theorem Kept.ttRead {acc a m n elem stride} (h : Kept d e) : Kept d (ttRead acc a m n elem stride e).2 := by
  unfold Machine.ttRead
  dsimp only
  split
  · exact h.each (fun _ _ h => h.noteWait)
  · refine .foldlBeside (fun _ _ h => ?_) h
    split
    · exact h.clusterRefused.refused
    · exact h.readPart
    · exact h

theorem Kept.upsetCell {a bits} (h : Kept d e) : Kept d (upsetCell a bits e) := .ite h h.putCell

theorem Kept.hold {hh} (h : Kept d e) : Kept d (hold hh e) := h.answer.park

theorem Kept.unanswered {f : Dev} (_ : Kept d e) (h : Kept d f) : Kept d (unanswered e f) := .same h rfl

theorem Kept.unheardRead {acc a} (h : Kept d e) : Kept d (unheardRead acc a e) := h.launch

theorem Kept.endRead {acc a f o} (h : Kept d e) : Kept d (endRead acc a f o e) := by
  unfold Machine.endRead
  split
  · exact h.unheardRead
  · exact h.pathParity.answer
  · exact h.answer

theorem Kept.sendWrite {acc tag a bs} (h : Kept d e) : Kept d (sendWrite acc tag a bs e) := by
  unfold Machine.sendWrite
  dsimp only
  split
  · exact h.sendOff.launch
  · exact h.sendOff.postWrite
  · exact h.sendOff.postWrite
  · exact h.sendOff.unanswered h.sendOff.postWrite

theorem Kept.yardReadCmd {w a m n elem stride m0 upset} (h : Kept d e) :
    Kept d (yardReadCmd w a m n elem stride m0 upset e) := by
  unfold Machine.yardReadCmd
  extract_lets acc on r
  have hon : Kept d on.2 := h.onWay.sendOff
  have hr : Kept d r.2 := hon.upsetCell.ttRead
  refine .ite h.decodeError.answer (.ite h (.ite hon.unheardRead ?_))
  split
  · exact hr.hold
  · exact hr.endRead

theorem Kept.yardWriteCmd {w a bs m0 parity rounds} (h : Kept d e) :
    Kept d (yardWriteCmd w a bs m0 parity rounds e) :=
  .ite h.decodeError.launch h.onWay.ringRefused.sendWrite

theorem Kept.ttWritePart {spoiled acc p m elem bs} (h : Kept d e) :
    Kept d (ttWritePart spoiled acc p m elem bs e).2 := by
  unfold Machine.ttWritePart
  split
  · split
    · exact h.pathParity
    · exact (h.tcount.countClass.each (fun _ _ h => h.writeCells)).countCells
  · exact h
  · exact h
  · exact .ite h.clusterRefused.refused h

theorem Kept.turnWrite {acc a m elem stride bs} (h : Kept d e) :
    Kept d (turnWrite acc a m elem stride bs e).2 := by
  unfold Machine.turnWrite
  dsimp only
  split
  · exact h.each (fun _ _ h => h.noteWait)
  · exact .foldlBeside (fun _ _ h => h.ttWritePart) h

theorem Kept.landTurn {spoiled acc tag serial a m elem stride bs} (h : Kept d e) :
    Kept d (landTurn spoiled acc tag serial a m elem stride bs e) := by
  unfold Machine.landTurn
  dsimp only
  refine .each (fun _ _ h => ?_) h
  split
  · exact h.park
  · exact h.ttWritePart.launch

theorem Kept.sendTurn {acc tag a m elem stride bs} (h : Kept d e) :
    Kept d (sendTurn acc tag a m elem stride bs e) := by
  unfold Machine.sendTurn
  dsimp only
  split
  · exact h.sendOff.launch
  · exact h.sendOff.landTurn
  · exact h.sendOff.landTurn
  · exact h.sendOff.unanswered h.sendOff.landTurn

theorem Kept.retryWrite {hh} (h : Kept d e) : Kept d (retryWrite hh e) := by
  unfold Machine.retryWrite
  dsimp only
  split
  · exact h.ownWrite
  split
  · exact h.park
  split
  · split
    · exact h.partWrite
    · exact h.ttWritePart
  · refine .push ?_
    split
    · exact h.partWrite
    · exact h.ttWritePart
  · refine .launch ?_
    split
    · exact h.partWrite
    · exact h.ttWritePart

theorem Kept.retryRead {hh} (h : Kept d e) : Kept d (retryRead hh e) := by
  unfold Machine.retryRead
  dsimp only
  split
  · exact h.park
  · refine .push ?_
    split
    · exact h.memRead
    · exact h.ttRead
  · refine .push ?_
    split
    · exact h.memRead
    · exact h.ttRead
  · refine .answer ?_
    split
    · exact h.memRead
    · exact h.ttRead

theorem Kept.releaseHeld (h : Kept d e) : Kept d (releaseHeld e) :=
  .push (.each (fun _ _ h => .ite h.retryWrite h.retryRead) (.same h rfl))

theorem Kept.fenceCheck {w} (h : Kept d e) : Kept d (fenceCheck w e) := by
  unfold Machine.fenceCheck
  split
  · exact h
  split
  · exact .ite h.updCore h
  · exact h

theorem Kept.ackCmd {w} (h : Kept d e) : Kept d (ackCmd w e) := .fenceCheck (.same h rfl)

theorem Kept.noticeCmd {w} (h : Kept d e) : Kept d (noticeCmd w e) := by
  unfold Machine.noticeCmd
  dsimp only
  split
  · exact h
  split
  · split
    · exact .fenceCheck (.failureNotice (.same h rfl))
    · exact h
  · exact h

theorem Kept.lateRspCmd {w} (h : Kept d e) : Kept d (lateRspCmd w e) :=
  .ite (.flag0 (.bump (.same h rfl))) h

theorem Kept.amo {acc a bytes op src cmp} (h : Kept d e) : Kept d (amo acc a bytes op src cmp e).2 := by
  unfold Machine.amo
  dsimp only
  split
  · exact h.decodeError
  split
  · exact h
  · exact h
  · exact h.clusterRefused.refused
  · split
    · split
      · exact h.countClass.readYard
      · exact h.countClass.readYard.writeCells
    · exact h.clusterRefused.refused
    · exact h

theorem Kept.descResult {s r} (h : Kept d e) : Kept d (descResult s r e) := .wr (.same h rfl)

theorem Kept.descRuns {s id} (h : Kept d e) : Kept d (descRuns s id e) := .same h rfl

theorem Kept.descRead {s} (h : Kept d e) : Kept d (descRead s e) :=
  .ite h h.wr64.wr64.wr64.wr64.descResult

theorem Kept.orphan {id} (h : Kept d e) : Kept d (orphan id e) := .ite (.same h rfl) h

theorem Kept.descCommit {s} (h : Kept d e) : Kept d (descCommit s e) := by
  unfold Machine.descCommit
  extract_lets r c id any e₁ e₂
  have h₂ : Kept d e₂ := (h.each fun _ _ h => h.updPage).orphan.updDesc
  exact .ite h (.ite h.descResult (.ite h₂.descRuns h₂.descResult))

theorem Kept.freePages {r} (h : Kept d e) : Kept d (freePages r e) :=
  h.each (fun _ _ h => h.updPage)

theorem Kept.descRelease {s} (h : Kept d e) : Kept d (descRelease s e) :=
  .ite h (.ite h.descResult (.ite h.updDesc.startSweep.descRuns h.freePages.updDesc.descResult))

theorem Kept.descModify {s} (h : Kept d e) : Kept d (descModify s e) :=
  .ite h (.ite h.descResult h.updDesc.descResult)

theorem Kept.zeroPages {p} (h : Kept d e) : Kept d (zeroPages p e) := h.forgetCells

theorem Kept.sweepPages {r} (h : Kept d e) : Kept d (sweepPages r e) :=
  (h.zeroPages.each (fun _ _ h => h.updPage)).each (fun _ _ h => h.countY)

theorem Kept.sweptFor {id} (h : Kept d e) : Kept d (sweptFor id e) :=
  h.foldBelow (fun _ _ h => .ite h.updCmp.push h)

theorem Kept.sweepDone {id} (h : Kept d e) : Kept d (sweepDone id e) := by
  unfold Machine.sweepDone
  split
  · exact .sweptFor (.releaseHeld (.freePages (.sweepPages (h.same rfl))))
  · extract_lets r e₂ s mine e₃
    have h₂ : Kept d e₂ := h.sweepPages
    have h₃ : Kept d e₃ := by
      unfold e₃
      split
      · exact h₂.freePages.updDesc
      · exact h₂.updDesc
    exact .ite h (Kept.ite h₃.descResult h₃).releaseHeld.sweptFor

theorem Kept.tallyIncrement (h : Kept d e) : Kept d (tallyIncrement e) := by
  unfold Machine.tallyIncrement
  split
  · exact h
  · exact .ite (.sendTo (.same h rfl)) (.tallyAdd (.sendTo (.same h rfl)))

theorem Kept.watchRefused {w} (h : Kept d e) : Kept d (watchRefused w e) := by
  unfold Machine.watchRefused
  split
  · exact .ite h.endUnrun h
  · exact h.updCore
  · exact h

theorem Kept.watchRegister {w} (h : Kept d e) : Kept d (watchRegister w e) := by
  unfold Machine.watchRegister
  dsimp only
  split
  · exact h.watchRefused
  split
  · exact h.watchTally.push
  · exact h.watchTally
  · split
    · exact h.watchTally
    · exact .same h.watchTally rfl

theorem Kept.semTimeout {core} (h : Kept d e) : Kept d (semTimeout core e) := by
  unfold Machine.semTimeout
  split
  · exact h.dropWaiter.answerSem
  · exact h

theorem Kept.lockReap {core s} (h : Kept d e) : Kept d (lockReap core s e) := by
  unfold Machine.lockReap
  split
  · exact h
  · exact .ite h.sendTo (.same (.ite h.sendTo h.sendTo.reapAt) rfl)

theorem Kept.lockReapDone {core} (h : Kept d e) : Kept d (lockReapDone core e) := .same h rfl

/-! ### The turnpike and commands of the stacks -/

theorem Kept.updLink {l f} (h : Kept d e) : Kept d (updLink l f e) := .same h rfl

theorem Kept.computeShadow (h : Kept d e) : Kept d (computeShadow e) := by
  unfold Machine.computeShadow
  exact .same h rfl

theorem Kept.startSwitch (h : Kept d e) : Kept d (startSwitch e) := .ite (.same h rfl) (.same h rfl)

theorem Kept.reroute (h : Kept d e) : Kept d (reroute e) := .ite h.computeShadow.startSwitch h

theorem Kept.linksDown {ls} (h : Kept d e) : Kept d (linksDown ls e) :=
  h.each (fun _ _ h => h.updLink.flag0.mapBit.cper)

theorem Kept.switchDone (h : Kept d e) : Kept d (switchDone e) := by
  unfold Machine.switchDone
  extract_lets _ e₀ down up _ e₁ e₂ e₃
  have h₀ : Kept d e₀ := h.same rfl
  have h₁ : Kept d e₁ := h₀.same rfl
  have h₃ : Kept d e₃ := h₁.linksDown.each fun _ _ h => h.updLink.mapBit
  exact .ite h (h₃.each fun _ _ h => h.noteCut).releaseHeld

theorem Kept.epochSlow (h : Kept d e) : Kept d (epochSlow e) := .ite h.flag0 h

theorem Kept.routeData {v} (h : Kept d e) : Kept d (routeData v e) := .ite h (.same h rfl)

theorem Kept.decline {code reason} (h : Kept d e) : Kept d (decline code reason e) := h.flag0.wr

theorem Kept.stableLink {l} (h : Kept d e) : Kept d (stableLink l e) :=
  .ite h (.ite h.decline (.ite h.linksDown (.ite h (.reroute (.updLink (.same h rfl))))))

theorem Kept.probeLink {l} (h : Kept d e) : Kept d (probeLink l e) :=
  .ite h (.ite h.updLink.reroute h.decline)

theorem Kept.upsetLine {a bits} (h : Kept d e) : Kept d (upsetLine a bits e) := .ite h h.putLine

theorem Kept.caFailures {a k} (h : Kept d e) : Kept d (caFailures a k e) :=
  .ite h.bumpBy.flag0 h.bumpBy

theorem Kept.dieEcc {a k} (h : Kept d e) : Kept d (dieEcc a k e) := h.bumpBy

theorem Kept.stackReadCmd {w a len bar4 m0 upset ca die} (h : Kept d e) :
    Kept d (stackReadCmd w a len bar4 m0 upset ca die e) := by
  unfold Machine.stackReadCmd
  extract_lets acc on e₁ r
  have hon : Kept d on.2 := h.onWay.sendOff
  have h₁ : Kept d e₁ := hon.upsetLine.caFailures.dieEcc
  refine .ite h.decodeError.answer (.ite hon.unheardRead (.ite h₁.endRead ?_))
  split
  · exact h₁.hold
  · exact h₁.memRead.endRead

theorem Kept.stackWriteCmd {w a bs m0 parity ca} (h : Kept d e) :
    Kept d (stackWriteCmd w a bs m0 parity ca e) :=
  .ite h.decodeError.launch
    (.ite (.ite h.onWay.sendOff.launch h.onWay.sendOff.caFailures.launch) h.caFailures.onWay.sendWrite)

theorem Kept.stableStack {p} (h : Kept d e) : Kept d (stableStack p e) :=
  h.updStack.setUnitState.cper

theorem Kept.wakeCheck (h : Kept d e) : Kept d (wakeCheck e) := by
  unfold Machine.wakeCheck
  split
  · split
    · exact .wr (.same h rfl)
    · exact .same h rfl
  · exact h

theorem Kept.stackTemp {p t} (h : Kept d e) : Kept d (stackTemp p t e) := by
  unfold Machine.stackTemp
  extract_lets x e₁ e₂ e₃
  have h₃ : Kept d e₃ := .ite h.wrF.updStack.flag0 h.wrF.updStack
  exact .ite h (.ite h₃.flag0.updStack (.ite h₃.updStack h₃))

theorem Kept.trainingDone {p ok} (h : Kept d e) : Kept d (trainingDone p ok e) :=
  .ite h (.wakeCheck (.ite h.wrB.updStack.updStack.setUnitState h.wrB.updStack.flag0.stableStack))

theorem Kept.trainStacks (h : Kept d e) : Kept d (trainStacks e) := h.each (fun _ _ h => h.updStack)

theorem Kept.recalDone {p} (h : Kept d e) : Kept d (recalDone p e) := .ite h.updStack h

theorem Kept.stackReset {p} (h : Kept d e) : Kept d (stackReset p e) := h.updStack

theorem Kept.patrolRead {p upset} (h : Kept d e) : Kept d (patrolRead p upset e) := by
  unfold Machine.patrolRead
  extract_lets old ptr n e₁ fixed e₂ e₃ e₄ next e₅
  have h₂ : Kept d e₂ := h.upsetLine.readLine
  have h₃ : Kept d e₃ := by
    unfold e₃
    clear_value fixed
    cases fixed with
    | none => exact h₂
    | some l => exact h₂.putLine
  have h₅ : Kept d e₅ := .ite h₃.updStack.bumpWrap h₃.updStack
  exact .ite h h₅.wr64

theorem Kept.pcStabled {p pc} (h : Kept d e) : Kept d (pcStabled p pc e) := h.updStack.flag0.cper

theorem Kept.stablePc {p pc} (h : Kept d e) : Kept d (stablePc p pc e) :=
  .ite h (.ite h.decline (.ite h (.ite h.updStack.wr h.pcStabled)))

theorem Kept.copyLines {p pc first count} (h : Kept d e) : Kept d (copyLines p pc first count e) := by
  unfold Machine.copyLines
  refine .each (fun _ _ h => ?_) h
  refine .openRow ?_
  split
  · exact h.putLine
  · exact h.putLine
  · exact h

theorem Kept.migrateDone {p lines} (h : Kept d e) : Kept d (migrateDone p lines e) := by
  unfold Machine.migrateDone
  dsimp only
  split
  · exact h
  · exact .ite h (.ite h.copyLines.updStack.wr h.copyLines.wrF.wr.flag0.pcStabled)

theorem Kept.spareWrite {on} (h : Kept d e) : Kept d (spareWrite on e) := .ite h.flag0 h.wrB

theorem Kept.stackRefresh {p pc bank} (h : Kept d e) : Kept d (stackRefresh p pc bank e) :=
  h.updStack

theorem Kept.recalChannelDone {p failures} (h : Kept d e) : Kept d (recalChannelDone p failures e) := by
  unfold Machine.recalChannelDone
  split
  · exact h
  · exact .ite h.updStack.flag0 h.updStack

/-! ### Unit resets -/

theorem Kept.dropWatches {core} (h : Kept d e) : Kept d (dropWatches core e) := .same h rfl

theorem Kept.blankCore {u} (h : Kept d e) : Kept d (blankCore u e) := h.updCore.dropWatches

theorem Kept.startResident {n} (h : Kept d e) : Kept d (startResident n e) := h.updCore

theorem Kept.resetBit {ty inst on} (h : Kept d e) : Kept d (resetBit ty inst on e) := h.wrB

theorem Kept.enterReset {ty inst} (h : Kept d e) : Kept d (enterReset ty inst e) :=
  .resetBit (.ite h h.setUnitState)

theorem Kept.resetUnit {u} (h : Kept d e) : Kept d (resetUnit u e) := by
  unfold Machine.resetUnit
  extract_lets p e₁ e₂
  have h₁ : Kept d e₁ := .ite h.epochAdvance h
  have h₂ : Kept d e₂ := h₁.enterReset.resetRun
  exact .ite h₂.blankCore h₂

theorem Kept.resetCluster {s} (h : Kept d e) : Kept d (resetCluster s e) :=
  h.enterReset.semClusterReset.each (fun _ _ h => h.rearm)

theorem Kept.sweepCluster {s} (h : Kept d e) : Kept d (sweepCluster s e) := by
  unfold Machine.sweepCluster
  extract_lets f clean ps
  have hf : Kept d f := h.zeroPages
  clear_value f
  exact .countY (.same hf rfl)

theorem Kept.resetDone {ty inst} (h : Kept d e) : Kept d (resetDone ty inst e) := by
  unfold Machine.resetDone
  extract_lets u e₁ e₂ e₃
  have h₂ : Kept d e₂ := .ite h.resetBit.setUnitState h.resetBit
  have h₃ : Kept d e₃ := .ite h₂.sweepCluster.releaseHeld h₂
  exact .ite h (.ite h (.ite h₃.startResident h₃))

theorem Kept.setSample {k x} (h : Kept d e) : Kept d (setSample k x e) := .same h rfl

theorem Kept.dropRun {u} (h : Kept d e) : Kept d (dropRun u e) :=
  .ite h.forgetWaits.setRun.blankCore h.forgetWaits.setRun

theorem Kept.stopDuplicates {k} (h : Kept d e) : Kept d (stopDuplicates k e) :=
  h.each (fun _ _ h => h.dropRun)

theorem Kept.unsample {u k} (h : Kept d e) : Kept d (unsample u k e) := by
  unfold Machine.unsample
  split
  · exact .ite h.setRun h
  · exact h

theorem Kept.dropSample {k} (h : Kept d e) : Kept d (dropSample k e) := by
  unfold Machine.dropSample
  split
  · exact h.stopDuplicates.unsample.setSample
  · exact h

/-! ### Sampled runs -/

theorem Kept.istat {i} (h : Kept d e) : Kept d (istat i e) := h.bump

theorem Kept.ledgerCount {n off} (h : Kept d e) : Kept d (ledgerCount n off e) := h.ledWr64

theorem Kept.ledgerNote {n off} (h : Kept d e) : Kept d (ledgerNote n off e) := .same h rfl

theorem Kept.setAttrib {n u v} (h : Kept d e) : Kept d (setAttrib n u v e) := h.ledWr

theorem Kept.blame {n u} (h : Kept d e) : Kept d (blame n u e) := by
  unfold Machine.blame
  extract_lets f
  have hf : Kept d f := h.ledgerCount.setAttrib
  clear_value f
  exact .same hf rfl

theorem Kept.retire {u} (h : Kept d e) : Kept d (retire u e) :=
  h.each (fun _ _ h => .ite h h.ledWr64.ledWr64.setAttrib)

theorem Kept.setK {u n v} (h : Kept d e) : Kept d (setK u n v e) := .wr (.same h rfl)

theorem Kept.countK {u n} (h : Kept d e) : Kept d (countK u n e) :=
  .ite h (.ite h.setK.flag0 h.setK)

theorem Kept.conclusive {x} (h : Kept d e) : Kept d (conclusive x e) :=
  .ite (.setK (.same h.istat.ledgerCount rfl)) (.same h.istat.ledgerCount rfl)

theorem Kept.sampleStart {u} (h : Kept d e) : Kept d (sampleStart u e) := by
  unfold Machine.sampleStart
  extract_lets _
  split
  · exact h
  · extract_lets n e₁ forced e₂
    have h₁ : Kept d e₁ := .setRun (.same h rfl)
    clear_value e₁
    have h₂ : Kept d e₂ := h₁.istat
    clear_value e₂
    refine .ite h (.ite h₁ ?_)
    split
    · exact h₂.istat.flag0.ledgerNote
    · extract_lets e₃
      have h₃ : Kept d e₃ := h₂.setSample
      clear_value e₃
      exact .ite h₂.istat.ledgerNote (.setRun (.same h₃ rfl))

theorem Kept.startDuplicate {k v x} (h : Kept d e) : Kept d (startDuplicate k v x e) :=
  .setSample (.ite (.istat (.same h rfl)) (.same h rfl))

theorem Kept.releaseGate {q i suspect} (h : Kept d e) : Kept d (releaseGate q i suspect e) :=
  .ite h.updSlot.push h

theorem Kept.suspectSample {x} (h : Kept d e) : Kept d (suspectSample x e) :=
  .ite h.releaseGate h.push

theorem Kept.cancelSample {k} (h : Kept d e) : Kept d (cancelSample k e) := by
  unfold Machine.cancelSample
  split
  · exact h
  · exact h.istat.ledgerNote.dropSample.releaseGate

theorem Kept.settled {k x} (h : Kept d e) : Kept d (settled k x e) := h.dropSample.releaseGate

theorem Kept.verdictRecord {x v} (h : Kept d e) : Kept d (verdictRecord x v e) := by
  unfold Machine.verdictRecord
  exact h.cper

theorem Kept.unresolved {k x} (h : Kept d e) : Kept d (unresolved k x e) := by
  unfold Machine.unresolved
  extract_lets e₁ e₂ e₃ e₄
  have h₃ : Kept d e₃ := h.verdictRecord.flag0.istat.ledgerCount.conclusive.blame.score
  have h₄ : Kept d e₄ := by
    unfold e₄
    split
    · exact h₃.score
    · exact h₃
  exact h₄.dropSample.suspectSample

theorem Kept.origAtFault {k x} (h : Kept d e) : Kept d (origAtFault k x e) :=
  h.verdictRecord.conclusive.blame.score.dropSample.suspectSample

theorem Kept.dupAtFault {k x} (h : Kept d e) : Kept d (dupAtFault k x e) := by
  unfold Machine.dupAtFault
  refine .settled ?_
  split
  · exact h.verdictRecord.conclusive.ledgerCount.score
  · exact h.verdictRecord.conclusive.ledgerCount

theorem Kept.shadowEnd {k} (h : Kept d e) : Kept d (shadowEnd k e) := by
  unfold Machine.shadowEnd
  split
  · exact h
  split
  · extract_lets p e₁ y but
    have h₁ : Kept d e₁ := h.istat.flag0.cper
    refine .ite h (.ite h.cancelSample (.ite h.istat.ledgerCount.settled (.ite ?_ ?_)))
    · exact h.conclusive.istat.ledgerCount.settled
    · exact .ite h₁.unresolved h₁.setSample
  · exact h

theorem Kept.tiebreakEnd {k} (h : Kept d e) : Kept d (tiebreakEnd k e) := by
  unfold Machine.tiebreakEnd
  split
  · exact h
  split
  · exact .ite h.unresolved (.ite h.dupAtFault (.ite h.origAtFault h.unresolved))
  · exact h

theorem Kept.giveVerdict {k x} (h : Kept d e) : Kept d (giveVerdict k x e) :=
  .ite (.ite h.tiebreakEnd h) (.ite h.shadowEnd h)

theorem Kept.gateExpire (h : Kept d e) : Kept d (gateExpire e) := by
  unfold Machine.gateExpire
  extract_lets lim
  split
  · exact h
  · extract_lets mine e₀ o e₁
    have h₀ : Kept d e₀ := h.each fun _ _ h => h.giveVerdict
    have h₁ : Kept d e₁ := h₀.istat.flag0.ledgerNote
    exact .ite h₀ (h₁.each fun _ _ h => h.dropSample).releaseGate

theorem Kept.setDigests {u x} (h : Kept d e) : Kept d (setDigests u x e) := .same h rfl

theorem Kept.foldAccess {u source addr write bs} (h : Kept d e) :
    Kept d (foldAccess u source addr write bs e) := by
  unfold Machine.foldAccess
  split
  · exact h
  · exact .ite h h.setDigests

theorem Kept.cancelRun {u} (h : Kept d e) : Kept d (cancelRun u e) := by
  unfold Machine.cancelRun
  split
  · exact h
  split
  · split
    · exact h.cancelSample
    · exact h
  · exact h.cancelSample
  · exact h.cancelSample

theorem Kept.countTile {u r} (h : Kept d e) : Kept d (countTile u r e) :=
  have h₂ := .ite (.same h rfl) h.ledgerNote
  .ite h₂.countK h₂

theorem Kept.runEnded {u r end_} (h : Kept d e) : Kept d (runEnded u r end_ e) := by
  unfold Machine.runEnded
  extract_lets x fin e₀
  have h₀ : Kept d e₀ := h.setDigests
  split
  · split
    · split
      · exact .ite h₀.countTile.setSample h₀.countTile
      · exact h₀.countTile
    · exact h₀.countTile
  · split
    · exact .ite h₀.fired.setSample h₀.setSample
    · exact h₀
  · split
    · exact h₀.setSample
    · exact h₀

theorem Kept.abandoned {u r} (h : Kept d e) : Kept d (abandoned u r e) := by
  unfold Machine.abandoned
  extract_lets e₀
  have h₀ : Kept d e₀ := h.setDigests.istat
  split
  · exact h₀
  · split
    · exact .ite h₀.ledgerNote.dropSample h₀.setSample
    · exact h₀
  · split
    · exact .ite h₀.unresolved h₀.setSample
    · exact h₀

/-! ### Commands of the depot -/

theorem Kept.offerWindow {w q img} (h : Kept d e) : Kept d (offerWindow w q img e) := by
  unfold Machine.offerWindow
  dsimp only
  split
  · exact .answer (.ite h.awaits (.same h rfl))
  split
  · exact h.enqueue.answer
  · exact h.enqueue.refusedRecord.answer
  · exact h.enqueue.awaits.answer

theorem Kept.refusedWindow {w q off write} (h : Kept d e) : Kept d (refusedWindow w q off write e) :=
  h.refused.answer

theorem Kept.brakeFlag {b} (h : Kept d e) : Kept d (brakeFlag b e) := h.doIf (fun _ h => h.flag0)

theorem Kept.brakeRefused {b} (h : Kept d e) : Kept d (brakeRefused b e) :=
  h.brakeFlag.refusedRecord

theorem Kept.brakeTimeout (h : Kept d e) : Kept d (brakeTimeout e) := by
  unfold Machine.brakeTimeout
  dsimp only
  split
  · exact h
  · exact .brakeRefused (.countRefusal (.same h rfl))

theorem Kept.cqHead {w q v} (h : Kept d e) : Kept d (cqHead w q v e) :=
  .ite h.updQueue.releaseCq h.refusedWindow

theorem Kept.qResult {c} (h : Kept d e) : Kept d (qResult c e) := h.wr

theorem Kept.qRead {q} (h : Kept d e) : Kept d (qRead q e) := h.wr64.wr64.wr64.wr64.qResult

theorem Kept.qCommit {q n} (h : Kept d e) : Kept d (qCommit q n e) :=
  .ite h.qResult (.ite h.qResult (.ite h.qResult h.updQueue.backQueue.qResult))

theorem Kept.qModify {q n} (h : Kept d e) : Kept d (qModify q n e) :=
  .ite h.qResult (.ite h.qResult (.ite h.qResult h.updQueue.backQueue.qResult))

theorem Kept.qRelease {q} (h : Kept d e) : Kept d (qRelease q e) :=
  .ite h.qResult (.ite h.qResult h.updQueue.backQueue.qResult)

theorem Kept.dropSlot {q i} (h : Kept d e) : Kept d (dropSlot q i e) :=
  .fillPool (.freeSlot (.ite (.ctrUnbind (.same h rfl)) (.same h rfl)))

theorem Kept.qPurge {q} (h : Kept d e) : Kept d (qPurge q e) :=
  .ite h.qResult (h.each (fun _ _ h => h.dropSlot)).unblock.qResult

theorem Kept.queueOp {code q n} (h : Kept d e) : Kept d (queueOp code q n e) := by
  unfold Machine.queueOp
  split
  · exact h.qRead
  · exact h.qCommit
  · exact h.qModify
  · exact h.qRelease
  · exact h.qPurge

theorem Kept.queueTry {code q n} (h : Kept d e) : Kept d (queueTry code q n e) := by
  conv in Machine.queueTry => delta Machine.queueTry
  obtain ⟨fetch, hfetch⟩ := exists_eq' (a' := Machine.fetchQueue)
  have hr := h.fetchQueue (q := q)
  rw [hfetch] at hr ⊢
  extract_lets r
  split
  · exact hr.queueOp
  · exact hr
  · exact hr.wr.holdOp

theorem Kept.queueCmd {v} (h : Kept d e) : Kept d (queueCmd v e) :=
  .ite h (h.depotCheck (fun _ h => h.queueTry))

theorem Kept.retryOp {op} (h : Kept d e) : Kept d (retryOp op e) := by
  unfold Machine.retryOp
  split
  · exact h.ctrDec
  · exact h.ctrVoid
  · exact h.ctrVoidBound
  · exact h.ctrZero
  · exact h.ctrUnbind
  · exact .ite h.armForm h
  · exact h.deliverToken
  · exact h.queueTry

theorem Kept.retryOps (h : Kept d e) : Kept d (retryOps e) :=
  .each (fun _ _ h => h.retryOp) (.same h rfl)

theorem Kept.ctrClear (h : Kept d e) : Kept d (ctrClear e) := h.ctrZero

theorem Kept.ctrLook (h : Kept d e) : Kept d (ctrLook e) := .ite h.fetchCtr.flag0 h.fetchCtr

theorem Kept.timetableFire (h : Kept d e) : Kept d (timetableFire e) := by
  unfold Machine.timetableFire
  split
  · exact h
  · extract_lets _ e₁ e₂ period e₃
    have h₁ : Kept d e₁ := h.same rfl
    have h₂ : Kept d e₂ := .ite h₁.bump h₁
    have h₃ : Kept d e₃ := .ite h₂ h₂.ttAdd
    refine .ite h ?_
    split
    · exact h₃.armForm
    · exact h₃.push
    · exact h₃.push

theorem Kept.readRing {q i} (h : Kept d e) : Kept d (readRing q i e).2 := by
  unfold Machine.readRing
  dsimp only
  split
  · exact h.offlineAccess
  split
  · exact h.readPiece
  · exact h.readPiece
  · exact h.readPiece

theorem Kept.poisonWaybill {q i} (h : Kept d e) : Kept d (poisonWaybill q i e) :=
  h.stat.flag0.updSlot.finishSlot.fillPool

theorem Kept.startOn {u q i} (h : Kept d e) : Kept d (startOn u q i e) :=
  h.startRun.sampleStart.stat.cstat.told

theorem Kept.placeAt {q i s} (h : Kept d e) : Kept d (placeAt q i s e) := by
  unfold Machine.placeAt
  extract_lets slotIn f
  have hslot {u f} (h : Kept d f) : Kept d (slotIn u f) := h.updSlot.setStep.stat
  clear_value slotIn
  have hf : Kept d f := by
    dsimp only [f]
    split
    · exact h.startOn
    · exact hslot h
    · exact hslot h.unslot.stat
  clear_value f
  exact .fillPool (.same hf rfl)

theorem Kept.placeFirst {xs} (h : Kept d e) : Kept d (placeFirst xs e).2 := by
  induction xs generalizing e with
  | nil => exact h
  | cons x xs ih =>
    obtain ⟨q, i, s⟩ := x
    have hr := h.readRing (q := q) (i := i)
    unfold Machine.placeFirst
    split
    · exact h.endUnrun.fillPool
    split
    · apply ih
      split
      · exact h.flag0
      · exact h
    · split
      · exact h.endUnrun.fillPool
      split
      · exact ih h
      · generalize Machine.readRing q i e = r at hr ⊢
        obtain ⟨_ | _ | _ | _, f⟩ := r
        · exact hr.placeAt
        · exact hr.poisonWaybill
        · exact ih hr.backingWaits
        · exact ih hr

theorem Kept.placement (h : Kept d e) : Kept d (placement e) := by
  unfold Machine.placement
  dsimp only
  split
  · exact h.placeFirst
  split
  · exact h.placeFirst.startDuplicate
  · exact h.placeFirst

theorem Kept.slottedStart {u} (h : Kept d e) : Kept d (slottedStart u e) := by
  unfold Machine.slottedStart
  split
  · exact h
  · exact .ite h (.ite h.setStep.endUnrun (.ite h.unslot h.setStep.startOn))

theorem Kept.backingRetry (h : Kept d e) : Kept d (backingRetry e) :=
  .ite (.placement (.retryOps (.same (.wrB (.same h rfl)) rfl))) h

theorem Kept.duplicateAbandon {u} (h : Kept d e) : Kept d (duplicateAbandon u e) := by
  unfold Machine.duplicateAbandon
  split
  · exact .ite h.dropRun.push h
  · exact h

theorem Kept.watchRetry (h : Kept d e) : Kept d (watchRetry e) :=
  .each (fun _ _ h => h.stat.watchRegister) (.same h rfl)

theorem Kept.applyDispatchEn (h : Kept d e) : Kept d (applyDispatchEn e) :=
  h.each (fun _ _ h => .ite h (.ite h.updCore (.ite h.updCore h.updCore.startResident)))

theorem Kept.epochBoundary (h : Kept d e) : Kept d (epochBoundary e) := h.applyDispatchEn.boundary

theorem Kept.periodicBoundary (h : Kept d e) : Kept d (periodicBoundary e) :=
  .ite (.epochBoundary (.same h rfl)) h

/-! ### Compartments -/

theorem Kept.cResult {n c} (h : Kept d e) : Kept d (cResult n c e) := h.wrF

theorem Kept.rejected {n c} (h : Kept d e) : Kept d (rejected n c e) := h.flag0

theorem Kept.configure {n} {f : Dev → Dev} (hf : ∀ e, Kept d e → Kept d (f e)) (h : Kept d e) :
    Kept d (configure n f e) :=
  .ite h.cResult (hf _ h)

theorem Kept.maskWrite {n off v sole} (h : Kept d e) : Kept d (maskWrite n off v sole e) :=
  .ite h.cResult.rejected (.ite h.wr64.cResult h.wr.cResult)

theorem Kept.coachMask {n v} (h : Kept d e) : Kept d (coachMask n v e) :=
  h.configure (fun _ h => h.maskWrite)

theorem Kept.otherMask {n v} (h : Kept d e) : Kept d (otherMask n v e) :=
  h.configure (fun _ h => .ite h.cResult.rejected h.wr.cResult)

theorem Kept.stkWinWrite {n k w0} (h : Kept d e) : Kept d (stkWinWrite n k w0 e) := by
  unfold Machine.stkWinWrite
  exact h.configure (fun _ h => .ite h.wr.wr64 h.wr.wr64.rejected)

theorem Kept.evqWrite {n v} (h : Kept d e) : Kept d (evqWrite n v e) :=
  h.configure (fun _ h => .ite h.wr.cResult.rejected h.wr.cResult)

theorem Kept.sharePeriodEnd (h : Kept d e) : Kept d (sharePeriodEnd e) :=
  .ite (h.each (fun _ _ h => h.updCmp)) h

theorem Kept.cmpCmd {n key} {f : Dev → Dev} (hf : ∀ e, Kept d e → Kept d (f e)) (h : Kept d e) :
    Kept d (cmpCmd n key f e) :=
  .ite h.cResult (.ite h.cResult (hf _ h))

theorem Kept.ledgerEpoch {n} (h : Kept d e) : Kept d (ledgerEpoch n e) := by
  unfold Machine.ledgerEpoch
  exact .ledWr64 (.same h.forgetLedger rfl)

theorem Kept.countersZero {n} (h : Kept d e) : Kept d (countersZero n e) :=
  .each (fun _ _ h => h.wr64) (.same h rfl)

theorem Kept.cmpActivate {n} (h : Kept d e) : Kept d (cmpActivate n e) := by
  unfold Machine.cmpActivate
  split
  · exact h.updCmp.cResult.ledgerEpoch.countersZero
  · exact h.drawOf.cResult
  · exact h.cResult

theorem Kept.zeroLines {first count} (h : Kept d e) : Kept d (zeroLines first count e) := h.forgetLines

theorem Kept.cutCounters {n} (h : Kept d e) : Kept d (cutCounters n e) := by
  conv in Machine.cutCounters => delta Machine.cutCounters
  obtain ⟨back, hback⟩ := exists_eq' (a' := Machine.backing)
  rw [hback]
  extract_lets _ f
  have hf : Kept d f := .same h rfl
  split
  · exact hf.each fun _ _ h => h.zeroLines
  · exact hf

theorem Kept.cutWork {n} (h : Kept d e) : Kept d (cutWork n e) := by
  unfold Machine.cutWork
  extract_lets e₀ e₁ e₂ _ e₃
  have h₀ : Kept d e₀ := h.each fun _ _ h => h.dropSample
  have h₁ : Kept d e₁ := h₀.each fun _ _ h => h.resetUnit
  have h₂ : Kept d e₂ := h₁.each fun _ _ h => .dropSlot (.ite (h.each fun _ _ h => h.setStep) h)
  have h₃ : Kept d e₃ := .cutCounters (h₂.same rfl)
  exact h₃.unblock

theorem Kept.cmpResetStart {n} (h : Kept d e) : Kept d (cmpResetStart n e) := h.updCmp.cutWork

theorem Kept.cmpReset {n} (h : Kept d e) : Kept d (cmpReset n e) := by
  unfold Machine.cmpReset
  split
  · exact h.wrB.cmpResetStart.cResult
  · exact h.cResult

theorem Kept.newDig {elem x} (h : Kept d e) : Kept d (newDig elem x e) := .same h rfl

theorem Kept.digCount (h : Kept d e) : Kept d (digCount e) := h.wrF.wr

theorem Kept.endChecks {p} (h : Kept d e) : Kept d (endChecks p e) := by
  unfold Machine.endChecks
  split
  · exact .ite (.wrB (.same (.same h rfl) rfl)) (.same h rfl)
  · exact .same h rfl

theorem Kept.killDigests {n} (h : Kept d e) : Kept d (killDigests n e) :=
  .digCount (.same h.endChecks rfl)

theorem Kept.cmpKillStart {n} (h : Kept d e) : Kept d (cmpKillStart n e) :=
  (h.killDigests.updCmp.cutWork.each (fun _ _ h => .wrF (.updCore (.ite h h.resetUnit)))).each
    (fun _ _ h => h.updQueue)

theorem Kept.cmpKill {n} (h : Kept d e) : Kept d (cmpKill n e) := by
  unfold Machine.cmpKill
  split
  · exact h.cResult
  · exact h.cResult
  · exact h.wrB.cmpKillStart.cResult

theorem Kept.endRuns {n kill} (h : Kept d e) : Kept d (endRuns n kill e) :=
  h.each (fun _ _ h => .setDigests (.setRun (.ite h h.releaseRegions)))

theorem Kept.cutSems {n locks} (h : Kept d e) : Kept d (cutSems n locks e) :=
  h.each (fun _ _ h => .ite h.updSem.resetWaiters (.ite h.updSem.resetWaiters h))

theorem Kept.cmpDone {n kind fl detail m} (h : Kept d e) : Kept d (cmpDone n kind fl detail m e) :=
  .wrB (.wr (.flag0 (.updCmp (.ite h.postBoth h.post))))

theorem Kept.payOwed {n} (h : Kept d e) : Kept d (payOwed n e) := by
  unfold Machine.payOwed
  refine .each (fun _ _ h => ?_) h.updCmp
  split
  · exact h.semOwned
  · exact h.updTally

theorem Kept.owe {n o} {f : Dev → Dev} (hf : ∀ e, Kept d e → Kept d (f e)) (h : Kept d e) :
    Kept d (owe n o f e) :=
  .ite h.updCmp (hf _ h)

theorem Kept.resetFinish {n} (h : Kept d e) : Kept d (resetFinish n e) :=
  (h.each (fun _ _ h => h.startResident)).cmpDone

theorem Kept.killRegions {n} (h : Kept d e) : Kept d (killRegions n e) :=
  h.each (fun _ _ h => .ite h.updDesc h.updDesc.startSweep)

theorem Kept.killWeights {n} (h : Kept d e) : Kept d (killWeights n e) :=
  h.each (fun _ _ h => h.updCore)

theorem Kept.killWindows {n} (h : Kept d e) : Kept d (killWindows n e) :=
  (h.each (fun _ _ h => h.wr64)).updCmp

theorem Kept.killOwners {n} (h : Kept d e) : Kept d (killOwners n e) := by
  unfold Machine.killOwners
  extract_lets e₁ e₂ e₃ e₄
  have h₂ : Kept d e₂ := h.wr64.wr.wr64.each fun _ _ h => .ite h.wrF h
  have h₃ : Kept d e₃ := h₂.each fun _ _ h => h.updSem
  have h₄ : Kept d e₄ := h₃.each fun _ _ h => h.updTally
  exact h₄.each fun _ _ h => .ite h.wrF h

theorem Kept.killFinish {n} (h : Kept d e) : Kept d (killFinish n e) :=
  h.killWeights.killWindows.killOwners.killDigests.epochBoundary.cmpDone

theorem Kept.cmpSwept {n} (h : Kept d e) : Kept d (cmpSwept n e) := by
  unfold Machine.cmpSwept
  dsimp only
  split
  · exact h
  split
  · exact h.killFinish
  · exact h.resetFinish
  · exact h

theorem Kept.cutYard {n kill} (h : Kept d e) : Kept d (cutYard n kill e) := by
  unfold Machine.cutYard
  extract_lets e₁ mine
  have h₁ : Kept d e₁ := h.cutSems.each fun _ _ h => h.rearm
  exact .ite (h₁.same rfl) h₁

theorem Kept.cmpDrainDone {n} (h : Kept d e) : Kept d (cmpDrainDone n e) :=
  .ite h (.cmpSwept (.updCmp (.ite h.cutYard.payOwed.endRuns.killRegions h.cutYard.payOwed.endRuns)))

theorem Kept.windowZeroed {n} (h : Kept d e) : Kept d (windowZeroed n e) := by
  unfold Machine.windowZeroed
  split
  · exact h
  · exact .ite h.updCmp.zeroLines.post.flag0 h.updCmp.zeroLines.post

/-! ### Frame graphs -/

theorem Kept.updGraph {g f} (h : Kept d e) : Kept d (updGraph g f e) := .same h rfl

theorem Kept.updFrame {g f u} (h : Kept d e) : Kept d (updFrame g f u e) := h.updGraph

theorem Kept.updNode {g f n u} (h : Kept d e) : Kept d (updNode g f n u e) := h.updFrame

theorem Kept.updInput {g f k u} (h : Kept d e) : Kept d (updInput g f k u e) := h.updFrame

theorem Kept.readLines {a n} (h : Kept d e) : Kept d (readLines a n e).2 := by
  induction n generalizing a e with
  | zero => exact h
  | succ n ih =>
    have hr := h.readPiece (acc := { who := .fgs, cmp := 0 }) (a := a) (n := 64)
    have hrest := ih hr (a := a + 64)
    unfold Machine.readLines
    generalize Machine.readPiece { who := .fgs, cmp := 0 } a 64 e = r at hr hrest ⊢
    obtain ⟨_ | _ | _, f⟩ := r
    · exact hrest
    · exact hrest
    · exact hr

theorem Kept.tableLost {g} (h : Kept d e) : Kept d (tableLost g e) := h.flag0.push

theorem Kept.useTable {g} (h : Kept d e) : Kept d (useTable g e) :=
  .ite h.fired.flag0.cper (.ite h.fired.tableLost h)

theorem Kept.graphEvent {g kind subkind tag addr seq f} (h : Kept d e) :
    Kept d (graphEvent g kind subkind tag addr seq f e) :=
  h.post

theorem Kept.releaseInput {g f k} (h : Kept d e) : Kept d (releaseInput g f k e) := by
  unfold Machine.releaseInput
  dsimp only
  split
  · exact .ite h.updInput.push h
  · exact h

theorem Kept.releaseInputs {g f} (h : Kept d e) : Kept d (releaseInputs g f e) :=
  h.each (fun _ _ h => h.releaseInput)

theorem Kept.markTicket {g f n status poison} (h : Kept d e) : Kept d (markTicket g f n status poison e) :=
  h.updFrame

theorem Kept.applyEdge {g f x bad} (h : Kept d e) : Kept d (applyEdge g f x bad e) := by
  unfold Machine.applyEdge
  extract_lets t
  split
  · exact h
  · extract_lets void
    split
    · exact h
    · refine .ite (.depotCheck (fun _ h => h.ctrAction fun _ _ h => ?_) h) h.updNode
      split
      · exact h.ctrVoid
      · exact h.ctrDec

theorem Kept.nodeReported {g f n stage} (h : Kept d e) : Kept d (nodeReported g f n stage e) := by
  unfold Machine.nodeReported
  extract_lets r e₁
  split
  · exact h
  · extract_lets e₂
    have h₂ : Kept d e₂ := .ite h.updNode (h.updNode.foldl fun _ _ h => h.applyEdge)
    exact .ite (h₂.each fun _ _ h => h.releaseInput) h₂

theorem Kept.nodeSkipped {g f n} (h : Kept d e) : Kept d (nodeSkipped g f n e) :=
  h.updNode.markTicket.nodeReported

theorem Kept.launchOne {again g f n i x} (h : Kept d e) : Kept d (launchOne again g f n i x e).2 := by
  conv in Machine.launchOne => delta Machine.launchOne
  obtain ⟨offer, hoffer⟩ := exists_eq' (a' := Machine.enqueue)
  have hr {w cmp q seq img} := h.enqueue (w := w) (cmp := cmp) (q := q) (seq := seq) (img := img)
  rw [hoffer] at hr ⊢
  extract_lets t fr seq img q s r mine f₁ _ f₂
  have hr : Kept d r.2 := hr
  have hf : Kept d f₁ := hr.updNode.bump64
  clear_value r f₁
  split
  · exact .beside (.same hf rfl)
  · exact (Kept.flag0 (hr.doIf fun _ h => h.flag0).bump64).updNode.markTicket
  · exact hr

theorem Kept.launchFrom {g f n x again k i} (h : Kept d e) : Kept d (launchFrom g f n x again k i e) := by
  induction k generalizing again i e with
  | zero => exact h.updNode
  | succ k ih =>
    have hx := h.launchOne (again := again) (g := g) (f := f) (n := n) (i := i) (x := x)
    unfold Machine.launchFrom
    generalize Machine.launchOne again g f n i x e = r at hx ⊢
    obtain ⟨_ | o, e⟩ := r
    · exact ih hx
    · exact hx.updGraph.awaits

theorem Kept.launchNode {g f n x} (h : Kept d e) : Kept d (launchNode g f n x e) := by
  unfold Machine.launchNode
  extract_lets c e₁
  have h₁ : Kept d e₁ := h.each fun _ _ h => .ite h.rearm h
  exact .ite h₁.updNode.launchFrom h₁.updNode

theorem KeptIf.nodeStep {g f n} (h : Kept d e) : KeptIf d (nodeStep g f n e) := by
  unfold Machine.nodeStep
  extract_lets t r fr
  split
  · exact .none
  split
  · exact .ite (.some h.nodeSkipped) (.ite (.some h.launchNode) .none)
  · exact .ite (.ite (.some h.nodeReported) .none) (.ite (.some h.updNode.markTicket.nodeReported)
      (.ite (.ite (.some h.markTicket.nodeReported) (.some h.updNode.push)) .none))
  · exact .none

theorem Kept.writeTicket {g addr bs} (h : Kept d e) : Kept d (writeTicket g addr bs e) :=
  h.sendWrite

theorem Kept.closeTicket {g f fr completion abandoned noSlot} (h : Kept d e) :
    Kept d (closeTicket g f fr completion abandoned noSlot e) := by
  unfold Machine.closeTicket
  extract_lets t q st addr bs told e₁ e₂ e₃ e₄ e₅ e₆
  have h₁ : Kept d e₁ :=
    have h₀ := h.bump.bump.ccount.tcount
    .ite h₀.ccount.tcount (.ite h₀.ccount.tcount (.ite h₀.ccount h₀))
  have h₂ : Kept d e₂ := h₁.wr.wr
  have h₃ : Kept d e₃ := .ite h₂.wr h₂
  have h₄ : Kept d e₄ := .ite h₃.flag0 h₃
  have h₅ : Kept d e₅ := h₄.push.writeTicket
  have h₆ : Kept d e₆ := .ite h₅ h₅.updGraph
  exact .ite h₆.graphEvent h₆

theorem Kept.resetCounters {g f} (h : Kept d e) : Kept d (resetCounters g f e) :=
  h.each (fun _ _ h => .ite (h.depotCheck (fun _ h => h.ctrZero)) h)

theorem Kept.freeFrame {g f} (h : Kept d e) : Kept d (freeFrame g f e) := h.updGraph.updFrame

theorem Kept.armFrame {g f} (h : Kept d e) : Kept d (armFrame g f e) := h.updGraph.updFrame

theorem Kept.armAhead {g} (h : Kept d e) : Kept d (armAhead g e) := by
  unfold Machine.armAhead
  dsimp only
  split
  · split
    · exact h.armFrame
    · exact h
  · exact h

theorem Kept.closeFrame {g f} (h : Kept d e) : Kept d (closeFrame g f e) :=
  have h₂ := h.closeTicket.releaseInputs.resetCounters.freeFrame
  .ite h₂.armAhead h₂

theorem Kept.freeDrained {g f} (h : Kept d e) : Kept d (freeDrained g f e) :=
  h.releaseInputs.freeFrame

theorem Kept.dropHeld {g p} (h : Kept d e) : Kept d (dropHeld g p e) := by
  unfold Machine.dropHeld
  refine .each (fun _ _ h => ?_) h.updGraph
  split
  · exact .ite h.bump.push h.bump
  · exact h.bump

theorem Kept.dropTriggers {g} (h : Kept d e) : Kept d (dropTriggers g e) := .same h rfl

theorem KeptIf.graphStep {g} (h : Kept d e) : KeptIf d (graphStep g e) := by
  unfold Machine.graphStep
  extract_lets x nodes fs
  split
  · rename_i e' hstep
    obtain ⟨f, -, hf⟩ := List.exists_of_findSome?_eq_some hstep
    obtain ⟨n, -, hn⟩ := List.exists_of_findSome?_eq_some hf
    exact .some (KeptIf.nodeStep h _ hn)
  · split
    · exact .some h.closeFrame
    split
    · exact .some h.freeDrained
    · refine .ite (.some h.dropHeld.updGraph.dropTriggers) ?_
      split
      · exact .ite (.some h.updGraph.armAhead) .none
      · exact .none

theorem Kept.pumpGraph {k g} (h : Kept d e) : Kept d (pumpGraph k g e) := by
  induction k generalizing e with
  | zero => exact h
  | succ k ih =>
    unfold Machine.pumpGraph
    split
    · exact ih (KeptIf.graphStep h _ ‹_›)
    · exact h

theorem Kept.pump {g} (h : Kept d e) : Kept d (pump g e) :=
  h.pumpGraph.wr.each (fun _ _ h => h.pumpGraph.wr)

theorem Kept.dropTrigger {g why} (h : Kept d e) : Kept d (dropTrigger g why e) := by
  unfold Machine.dropTrigger
  extract_lets e₁
  have h₁ : Kept d e₁ := .ite h.bump (.ite h.bump.flag0 h.bump)
  exact .ite h₁.graphEvent h₁

theorem Kept.dropLast {g} (h : Kept d e) : Kept d (dropLast g e) := h.doIf (fun _ h => h.graphEvent)

theorem Kept.bindInput {g f k buf} (h : Kept d e) : Kept d (bindInput g f k buf e) := h.updInput

theorem Kept.bindHeld {g f} (h : Kept d e) : Kept d (bindHeld g f e) := by
  unfold Machine.bindHeld
  refine .each (fun _ _ h => ?_) h
  split
  · exact h.updGraph.bindInput.updInput
  · exact h

theorem Kept.openFrame {g f time degr bound} (h : Kept d e) : Kept d (openFrame g f time degr bound e) := by
  unfold Machine.openFrame
  refine .bindHeld ?_
  split
  · exact h.updGraph.bump.wr64.updFrame.bindInput
  · exact h.updGraph.bump.wr64.updFrame

theorem Kept.trigger {g time degr bound} (h : Kept d e) : Kept d (trigger g time degr bound e) := by
  unfold Machine.trigger
  dsimp only
  split
  · split
    · exact h.useTable.dropTrigger
    split
    · exact h.useTable.dropTrigger
    split
    · exact h.useTable.openFrame.pump
    split
    · exact h.useTable.armFrame.openFrame.pump
    · exact h.useTable.dropTrigger
  · split
    · exact .ite h.useTable.dropTrigger h.useTable.openFrame.pump
    · exact h.useTable.dropLast
  · exact h.useTable

theorem Kept.watchTrigger {g} (h : Kept d e) : Kept d (watchTrigger g e) := .ite h.watchRegister h

theorem Kept.tallyTrigger {g} (h : Kept d e) : Kept d (tallyTrigger g e) :=
  .ite h.rearm.watchTrigger.trigger h

theorem Kept.periodicTrigger {g due} (h : Kept d e) : Kept d (periodicTrigger g due e) := h.trigger

theorem Kept.frameStart {g k buf time degr} (h : Kept d e) : Kept d (frameStart g k buf time degr e) := by
  unfold Machine.frameStart
  dsimp only
  split
  · exact h.trigger
  split
  · exact h.bindInput.pump
  · exact h.updGraph

theorem Kept.voidNodes {g f own p} (h : Kept d e) : Kept d (voidNodes g f own p e) := by
  unfold Machine.voidNodes
  refine .each (fun _ _ h => ?_) h
  split
  · exact .ite (h.depotCheck (fun _ h => h.ctrAction (fun _ _ h => h.ctrVoidBound))) h
  · exact h

theorem Kept.frameEnd {g k buf status record} (h : Kept d e) : Kept d (frameEnd g k buf status record e) := by
  unfold Machine.frameEnd
  dsimp only
  split
  · exact h
  split
  · exact h.updGraph
  split
  · split
    · exact h.updInput
    · refine .pump ?_
      split
      · refine .each (fun _ _ h => ?_) h.updInput.voidNodes
        split
        · exact h
        · exact .ite h.updNode h
      · exact h.updInput
  · exact .ite h.updGraph.push h.updGraph

theorem Kept.absentTicket {g k time degr} (h : Kept d e) : Kept d (absentTicket g k time degr e) :=
  .ite (.ite h.updGraph.wr64.closeTicket.armAhead.pump h.updGraph.wr64.closeTicket) h

theorem Kept.joinExpire {g} (h : Kept d e) : Kept d (joinExpire g e) :=
  ((h.doIf (fun _ h => h.useTable)).each
    (fun _ _ h => h.each (fun _ _ h => .ite h.updInput.bump h))).dropHeld.pump

theorem Kept.abandonFrame {g f} (h : Kept d e) : Kept d (abandonFrame g f e) := by
  unfold Machine.abandonFrame
  extract_lets e₀ t fr since others e₁ e₂ e₃ _ e₄
  have h₃ : Kept d e₃ := h.useTable.closeTicket.bump.resetCounters.voidNodes.updFrame
  clear_value e₃
  have h₄ : Kept d e₄ := by
    dsimp only [e₄]
    split
    · exact .ite (.updGraph (.same h₃ rfl)) h₃
    · exact h₃
  clear_value e₄
  exact .pump (.ite h₄.armAhead h₄)

theorem Kept.reportOf {q i status poison} (h : Kept d e) : Kept d (reportOf q i status poison e) := by
  unfold Machine.reportOf
  split
  · exact h
  · exact .same h rfl

theorem Kept.applyReport {r} (h : Kept d e) : Kept d (applyReport r e) :=
  .ite h.useTable.bump64 (.pump (.ite h.useTable.bump64.updNode h.useTable.bump64.updNode.markTicket))

theorem Kept.listReport {g f turn n ok} (h : Kept d e) : Kept d (listReport g f turn n ok e) := by
  unfold Machine.listReport
  extract_lets e₀ fr e₁ e₂
  have h₀ : Kept d e₀ := .ite h h.flag0
  have h₁ : Kept d e₁ := .ite h₀ h₀.updNode
  have h₂ : Kept d e₂ := .ite h₁ h₁.markTicket
  exact .ite h₀ h₂.nodeReported.pump

theorem Kept.applyFinding {x} (h : Kept d e) : Kept d (applyFinding x e) := by
  unfold Machine.applyFinding
  dsimp only
  split
  · exact h.updFrame
  split
  · exact h
  · exact h.updGraph.writeTicket.bump.flag0.graphEvent

theorem Kept.graphResult {code idx} (h : Kept d e) : Kept d (graphResult code idx e) := h.wr

theorem Kept.graphHold {cmd g addr} (h : Kept d e) : Kept d (graphHold cmd g addr e) := by
  unfold Machine.graphHold
  extract_lets f
  have hf : Kept d f := h.wr
  clear_value f
  exact .same hf rfl

theorem Kept.graphWait {cmd g addr} (h : Kept d e) : Kept d (graphWait cmd g addr e) :=
  h.flag0.graphHold

theorem Kept.graphLoad {g addr} (h : Kept d e) : Kept d (graphLoad g addr e) := by
  unfold Machine.graphLoad
  obtain ⟨read, hread⟩ := exists_eq' (a' := Machine.readLines)
  have hr {a k} := h.readLines (a := a) (n := k)
  rw [hread] at hr ⊢
  extract_lets x
  refine .ite h.graphResult ?_
  split
  · exact h.graphResult
  · have hx := hr (a := addr) (k := 4)
    generalize read addr 4 e = r at hx ⊢
    obtain ⟨_ | hdr, f⟩ := r
    · exact hx.graphHold
    · refine .ite hx.graphResult ?_
      have hy := hr (a := addr) (k := fieldAt hdr.1 8 4 / 64)
      generalize read addr (fieldAt hdr.1 8 4 / 64) e = r at hy ⊢
      obtain ⟨_ | table, f⟩ := r
      · exact hy.graphHold
      · exact .ite hy.graphResult (.ite hy.graphWait hy.ownWrite.updGraph.wr.wr.wr.graphResult)

theorem Kept.graphStart {g o} (h : Kept d e) : Kept d (graphStart g o e) := by
  unfold Machine.graphStart
  obtain ⟨read, hread⟩ := exists_eq' (a' := Machine.readLines)
  have hr {b} := h.readLines (a := b + g * 0x10000) (n := (tableOf e g).len / 64)
  rw [hread] at hr ⊢
  extract_lets x t
  refine .ite h.graphResult (.ite h.graphResult (.ite h.flag0.graphResult (.ite h.graphWait ?_)))
  split <;> rename_i heq
  · refine (Kept.ofPair ?_ heq).graphHold
    split
    · exact hr
    · exact h
  · have hx := Kept.ofPair (d := d) ?_ heq
    · refine .ite hx.tableLost ?_
      extract_lets e₁ e₂ e₃ e₄ e₅ e₆
      have h₁ : Kept d e₁ := by
        dsimp only [e₁]
        split
        · exact hx.updGraph
        · exact hx
      clear_value e₁
      have h₃ : Kept d e₃ := h₁.updGraph.wr64
      clear_value e₃
      have h₅ : Kept d e₅ := .watchTrigger (.armAhead (.ite h₃.ttAdd h₃))
      clear_value e₅
      have h₆ : Kept d e₆ := by
        dsimp only [e₆]
        split
        · exact h₅.pump
        · exact h₅
      exact h₆.pump.graphResult
    · split
      · exact hr
      · exact h

theorem Kept.graphStop {g} (h : Kept d e) : Kept d (graphStop g e) :=
  .ite h.updGraph.pump.graphResult h.graphResult

theorem Kept.graphUnload {g} (h : Kept d e) : Kept d (graphUnload g e) := by
  unfold Machine.graphUnload
  split
  · exact h.updGraph.wr.wr.wr.graphResult
  · exact h.graphResult
  · exact h.graphResult

theorem Kept.graphTrigger {g} (h : Kept d e) : Kept d (graphTrigger g e) :=
  .ite h.trigger.graphResult h.graphResult

theorem Kept.graphCmd {v} (h : Kept d e) : Kept d (graphCmd v e) := by
  unfold Machine.graphCmd
  split
  · exact h
  split
  · exact h.useTable.graphLoad
  · exact h.useTable.graphStart
  · exact h.useTable.graphStop
  · exact h.useTable.graphUnload
  · exact h.useTable.graphTrigger
  · exact h

theorem Kept.graphRetry (h : Kept d e) : Kept d (graphRetry e) := by
  unfold Machine.graphRetry
  split
  · exact h
  · exact .ite (.graphLoad (.wr (.same h rfl))) (.graphStart (.wr (.same h rfl)))

theorem Kept.stopGraphs {n kill} (h : Kept d e) : Kept d (stopGraphs n kill e) := by
  unfold Machine.stopGraphs
  refine h.each fun g e h => ?_
  extract_lets x e₁ _ _ e₂ e₃ e₄
  have h₂ : Kept d e₂ := h.dropTriggers.same rfl
  have h₄ : Kept d e₄ := .ite h₂.updGraph.wr.wr h₂.updGraph
  exact h₄.wr

theorem Kept.unbrake {again g} (h : Kept d e) : Kept d (unbrake again g e) := by
  unfold Machine.unbrake
  split
  · exact h
  split
  · exact .pump (.launchFrom (.updGraph (.same h rfl)))
  · exact .updGraph (.same h rfl)

/-! ### Clocks and the governor -/

theorem Kept.updClk {f} (h : Kept d e) : Kept d (updClk f e) := .same h rfl

theorem Kept.refLost {edges unlock} (h : Kept d e) : Kept d (refLost edges unlock e) :=
  .ite (.ite h h.updClk) (.ite h.updClk.flag0.flag0 h.updClk.flag0)

theorem Kept.selfRefresh (h : Kept d e) : Kept d (selfRefresh e) :=
  h.each (fun _ _ h => .ite h.updStack h)

theorem Kept.holdoverSwitch (h : Kept d e) : Kept d (holdoverSwitch e) :=
  .ite h.updClk.selfRefresh h

theorem Kept.refQualified (h : Kept d e) : Kept d (refQualified e) := .ite h.updClk h

theorem Kept.refRestore (h : Kept d e) : Kept d (refRestore e) := .ite h.updClk h

theorem Kept.refMeasure {cycles} (h : Kept d e) : Kept d (refMeasure cycles e) := by
  unfold Machine.refMeasure
  extract_lets dev ppm off aonOff e₁ n e₂ e₃
  have h₂ : Kept d e₂ := h.wr.updClk.flag0
  have h₃ : Kept d e₃ := .ite h₂.updClk.flag0 h₂
  exact .ite h.wr.updClk (.ite h₃.refLost h₃)

theorem Kept.aonLost (h : Kept d e) : Kept d (aonLost e) := .ite h.updClk.flag0 h

theorem Kept.aonRestored (h : Kept d e) : Kept d (aonRestored e) := h.updClk

theorem Kept.domainMeasure {khz toggled stopped} (h : Kept d e) :
    Kept d (domainMeasure khz toggled stopped e) :=
  (h.foldBelow (fun _ _ h => h.wr)).wr.wr

theorem Kept.stepRate {mhz} (h : Kept d e) : Kept d (stepRate mhz e) := h.wr

theorem Kept.updGov {f} (h : Kept d e) : Kept d (updGov f e) := .same h rfl

theorem Kept.setTarget {mv thermal action} (h : Kept d e) : Kept d (setTarget mv thermal action e) := by
  unfold Machine.setTarget
  dsimp only
  split
  · exact h
  split
  · exact h.updGov
  · exact .ite h h.updGov

theorem Kept.confine (h : Kept d e) : Kept d (confine e) := h.updGov

theorem Kept.govApply {thermal} (h : Kept d e) : Kept d (govApply thermal e) :=
  .ite (.ite h.confine h.setTarget) h.setTarget

theorem Kept.limited {thermal} {f : Dev → Dev} (hf : ∀ e, Kept d e → Kept d (f e)) (h : Kept d e) :
    Kept d (limited thermal f e) :=
  .ite (hf _ h).updGov (.ite (hf _ h) (hf _ h).govApply)

theorem Kept.thermalStep (h : Kept d e) : Kept d (thermalStep e) := by
  unfold Machine.thermalStep
  exact h.updGov

theorem Kept.autoEvaluate {thermal} (h : Kept d e) : Kept d (autoEvaluate thermal e) := by
  unfold Machine.autoEvaluate
  split
  · exact h.govApply
  · exact .ite h.updGov.setTarget (.ite (.ite h.updGov.setTarget h.updGov.govApply) h.updGov.govApply)

theorem Kept.govEvaluate (h : Kept d e) : Kept d (govEvaluate e) := by
  unfold Machine.govEvaluate
  extract_lets e₁
  have h₁ : Kept d e₁ := h.updGov.limited fun _ h => h.thermalStep
  exact .ite h (.ite h₁.updGov.autoEvaluate h₁)

theorem Kept.windowWrite {v} (h : Kept d e) : Kept d (windowWrite v e) := by
  unfold Machine.windowWrite
  exact h.wr.updGov

theorem Kept.enrollKept (h : Kept d e) : Kept d (enrollKept e) := h.updGov

theorem Kept.lateFast {g} (h : Kept d e) : Kept d (lateFast g e) :=
  .ite h (.ite h.flag0 (.ite h h.updGov.setTarget))

theorem Kept.govSlack {g q} (h : Kept d e) : Kept d (govSlack g q e) :=
  .ite h (.ite h.updGov.lateFast h.updGov)

theorem Kept.govPage (h : Kept d e) : Kept d (govPage e) := .ite h.updGov h

theorem Kept.govVout (h : Kept d e) : Kept d (govVout e) := by
  unfold Machine.govVout
  split
  · exact .ite h.updGov h
  · exact h

theorem Kept.govRead (h : Kept d e) : Kept d (govRead e) := .ite h.updGov h

theorem Kept.settleExpire (h : Kept d e) : Kept d (settleExpire e) := by
  unfold Machine.settleExpire
  split
  · exact h
  · exact .ite h h.updGov

theorem Kept.govFailed {status} (h : Kept d e) : Kept d (govFailed status e) :=
  .ite h.updGov.flag0 h.updGov

theorem Kept.pmbusDone {status word} (h : Kept d e) : Kept d (pmbusDone status word e) := by
  unfold Machine.pmbusDone
  dsimp only
  split
  · exact h
  split
  · exact h.fired.drawOf.govFailed
  split
  · exact h.govFailed
  split
  · exact h.updGov.updGov
  · exact h.updGov.updGov
  · exact .ite h.updGov.wr.flag0 h.updGov.wr

theorem Kept.govResume (h : Kept d e) : Kept d (govResume e) := .ite h.updGov.govApply h

theorem Kept.manualTarget {v} (h : Kept d e) : Kept d (manualTarget v e) := .ite h.wr h.wr.govApply

theorem Kept.govCtrl {v} (h : Kept d e) : Kept d (govCtrl v e) := by
  unfold Machine.govCtrl
  extract_lets write e₁ e₂
  have h₁ : Kept d e₁ := h.limited fun _ h => h.wr
  have h₂ : Kept d e₂ := .ite h₁.govResume h₁
  exact .ite h₂ h₂.govApply

theorem Kept.boostCheck (h : Kept d e) : Kept d (boostCheck e) := by
  unfold Machine.boostCheck
  extract_lets used e₁ e₂
  have h₂ : Kept d e₂ := (h.wr.limited fun _ h => h.updGov).flag0
  exact .ite (.ite h₂.setTarget h₂.confine) (.ite (h.wr.limited fun _ h => h.updGov) h.wr)

theorem Kept.boostMs (h : Kept d e) : Kept d (boostMs e) := .ite h.updGov.boostCheck h

theorem Kept.boostBucket (h : Kept d e) : Kept d (boostBucket e) := h.updGov.boostCheck

theorem Kept.thermalCheck (h : Kept d e) : Kept d (thermalCheck e) :=
  .ite h (.updGov (.ite (.flag0 (.ite h.flag0 h)) (.ite h.flag0 h)))

theorem Kept.tjUpdate {k v} (h : Kept d e) : Kept d (tjUpdate k v e) :=
  .ite h (h.limited (fun _ h => h.wr.wr.thermalCheck))

theorem Kept.threshWrite {v} (h : Kept d e) : Kept d (threshWrite v e) :=
  h.wr.limited (fun _ h => h.thermalCheck)

theorem Kept.wdtMs (h : Kept d e) : Kept d (wdtMs e) := .ite h h.wrF

theorem Kept.engineTick (h : Kept d e) : Kept d (engineTick e) := by
  unfold Machine.engineTick
  refine .each (fun _ _ h => ?_) h
  split
  · exact h.bump.ccount.updCmp
  · exact h

theorem Kept.tickCmd (h : Kept d e) : Kept d (tickCmd e) := by
  unfold Machine.tickCmd
  extract_lets e₁ e₂ e₃
  have h₁ : Kept d e₁ := .wrap64By (.ite h.wrap64By h)
  clear_value e₁
  have h₂ : Kept d e₂ := by
    dsimp only [e₂]
    split
    · exact h₁.fired.refLost.updClk
    · exact h₁
  clear_value e₂
  have h₃ : Kept d e₃ := h₂.engineTick
  clear_value e₃
  exact .ite h₃.wdtMs.boostMs h₃

/-! ### Power, reset and boot -/

theorem Kept.updPwr {f} (h : Kept d e) : Kept d (updPwr f e) := .same h rfl

theorem Kept.readFuse {r} (h : Kept d e) : Kept d (readFuse r e) := .ite h.wr.flag0 h.wr

theorem Kept.readFuses (h : Kept d e) : Kept d (readFuses e) :=
  (h.each (fun _ _ h => h.readFuse)).wr.wr

theorem Kept.writeCause {cause source detail} (h : Kept d e) : Kept d (writeCause cause source detail e) :=
  h.ledPut.ledBytes.ledPut.wr.wr

theorem Kept.absorbed (h : Kept d e) : Kept d (absorbed e) := h.ledPut

theorem Kept.ledCount {off} (h : Kept d e) : Kept d (ledCount off e) := h.ledPut

theorem Kept.restable (h : Kept d e) : Kept d (restable e) := by
  unfold Machine.restable
  extract_lets e₁ e₂ e₃ links
  have h₁ : Kept d e₁ := h.each fun _ _ h => .ite h.setUnitState h
  have h₂ : Kept d e₂ := h₁.each fun _ _ h => .ite h.setUnitState h
  have h₃ : Kept d e₃ := h₂.each fun _ _ h => .ite h.setUnitState h
  exact .ite h₃ (h₃.each fun _ _ h => h.updLink).computeShadow.startSwitch.switchDone

theorem Kept.portsFall {before} (h : Kept d e) : Kept d (portsFall before e) :=
  .ite h (.doIf (fun _ h => h.flag0) (.each (fun _ _ h => h.wrF) (.same h rfl)))

theorem Kept.logicReset {warm} (h : Kept d e) : Kept d (logicReset warm e) := by
  unfold Machine.logicReset
  extract_lets boxes keep _ _ _ f
  have hf : Kept d f := by
    refine h.stores (fun hc => ?_) rfl
    obtain ⟨hregs, hledger, hcells, htallies, hlines, hlram, hflash, hrows⟩ := canonical_parts.mp hc
    refine canonical_parts.mpr ⟨Map.wf_filter _ hregs, hledger, ?_, rfl, ?_, ?_, hflash, hrows⟩ <;> cases warm
    · rfl
    · exact hcells
    · rfl
    · exact hlines
    · rfl
    · exact hlram
  clear_value f
  exact hf.portsFall.readFuses.restable

theorem Kept.progCut (h : Kept d e) : Kept d (progCut e) := by
  unfold Machine.progCut
  split
  · exact h
  · exact .same h.draw.blow rfl

theorem Kept.showPins (h : Kept d e) : Kept d (showPins e) := h.wr.wr

theorem Kept.powerOn (h : Kept d e) : Kept d (powerOn e) := by
  unfold Machine.powerOn
  extract_lets _ f
  have hf : Kept d f := by
    refine h.stores (fun hc => ?_) rfl
    obtain ⟨-, -, -, -, -, -, hflash, hrows⟩ := canonical_parts.mp hc
    exact canonical_parts.mpr ⟨rfl, rfl, rfl, rfl, rfl, rfl, hflash, hrows⟩
  clear_value f
  exact hf.readFuses.showPins.writeCause

theorem Kept.warmStart {cause detail} (h : Kept d e) : Kept d (warmStart cause detail e) :=
  .ite h (.ite h.absorbed h.writeCause.logicReset.bump.ledCount.updPwr)

theorem Kept.forcedReset {cause detail} (h : Kept d e) : Kept d (forcedReset cause detail e) :=
  .ite h.flag0.warmStart (.ite h.flag0.warmStart h.flag0.cper.warmStart)

theorem Kept.sweepEnded {status} (h : Kept d e) : Kept d (sweepEnded status e) := by
  unfold Machine.sweepEnded
  extract_lets _ f
  have hf : Kept d f := h.noCells.updPwr
  clear_value f
  exact .ite h (.ite hf.updGov hf.updGov.flag0)

theorem Kept.leaveSelfRefresh (h : Kept d e) : Kept d (leaveSelfRefresh e) :=
  .ite h (h.each (fun _ _ h => .ite h.updStack h))

theorem Kept.voutWaited (h : Kept d e) : Kept d (voutWaited e) := .ite h h.leaveSelfRefresh.updPwr

theorem Kept.sysKey {key} {f : Dev → Dev} (hf : ∀ e, Kept d e → Kept d (f e)) (h : Kept d e) :
    Kept d (sysKey key f e) :=
  .ite (hf _ h) h.flag0

theorem Kept.seqUp (h : Kept d e) : Kept d (seqUp e) := h.updPwr

theorem Kept.coldStart {cause detail} (h : Kept d e) : Kept d (coldStart cause detail e) :=
  h.updPwr.writeCause.bump.ledCount.seqUp

theorem Kept.seqDown {goal long} (h : Kept d e) : Kept d (seqDown goal long e) :=
  h.logicReset.updPwr

theorem Kept.pgRise {k} (h : Kept d e) : Kept d (pgRise k e) := by
  unfold Machine.pgRise
  extract_lets up _ e₀ e₁
  have h₁ : Kept d e₁ := .updPwr (.ite (h.same rfl) h)
  exact .ite h (.ite h₁.updPwr h₁)

theorem Kept.railWaited (h : Kept d e) : Kept d (railWaited e) := .ite h (.ite h.updPwr h.updPwr)

theorem Kept.pgTimeoutOf {k} (h : Kept d e) : Kept d (pgTimeoutOf k e) := h.flag0.updPwr.seqDown

theorem Kept.pgTimeout (h : Kept d e) : Kept d (pgTimeout e) := .ite h.pgTimeoutOf h

theorem Kept.powerFault {k} (h : Kept d e) : Kept d (powerFault k e) := by
  unfold Machine.powerFault
  split
  · exact h
  split
  · exact h.updPwr.flag0.writeCause.seqDown.updPwr
  · exact h.updPwr.pgTimeoutOf
  · exact h.updPwr

theorem Kept.wake (h : Kept d e) : Kept d (wake e) := h.coldStart

theorem Kept.wakeBits {mask} (h : Kept d e) : Kept d (wakeBits mask e) := .ite h.wr h.wr.updPwr.wr

theorem Kept.wakeJoin {mask} (h : Kept d e) : Kept d (wakeJoin mask e) :=
  h.wakeBits.updPwr.ledPut.wr

theorem Kept.seqDownEnd (h : Kept d e) : Kept d (seqDownEnd e) := by
  unfold Machine.seqDownEnd
  extract_lets e₁ e₂
  have h₂ : Kept d e₂ := .ite h.updPwr.bump.ledCount h.updPwr
  exact .ite h (.ite h₂.coldStart (.ite h₂.wake h₂))

theorem Kept.retryExpire (h : Kept d e) : Kept d (retryExpire e) :=
  .ite h (.ite h.seqUp h.bump.ledCount.seqUp)

theorem Kept.thermalTrip {k} (h : Kept d e) : Kept d (thermalTrip k e) :=
  .ite h h.flag0.writeCause.seqDown

theorem Kept.vaonLoss (h : Kept d e) : Kept d (vaonLoss e) := by
  unfold Machine.vaonLoss
  extract_lets f
  have hf : Kept d f := h.progCut
  clear_value f
  refine .updPwr (hf.stores (fun hc => ?_) rfl)
  obtain ⟨-, -, -, -, -, -, hflash, hrows⟩ := canonical_parts.mp hc
  exact canonical_parts.mpr ⟨rfl, rfl, rfl, rfl, rfl, rfl, hflash, hrows⟩

theorem Kept.powerOnReset (h : Kept d e) : Kept d (powerOnReset e) := .ite h.powerOn h

theorem Kept.strapSample {straps} (h : Kept d e) : Kept d (strapSample straps e) :=
  .ite h h.updPwr.wr

theorem Kept.refBootTimeout (h : Kept d e) : Kept d (refBootTimeout e) :=
  .ite h.refLost.holdoverSwitch h

theorem Kept.pinAssert (h : Kept d e) : Kept d (pinAssert e) := by
  unfold Machine.pinAssert
  split
  · exact .ite h.warmStart (.ite h h.absorbed)
  · exact .ite h.updPwr.updPwr.wakeBits.flag0 h.updPwr
  · exact h.coldStart
  · exact h.wakeBits.wake
  · exact .ite h.wakeJoin h
  · exact h

theorem Kept.resetAssert (h : Kept d e) : Kept d (resetAssert e) := h.updPwr.pinAssert

theorem Kept.pinRelease (h : Kept d e) : Kept d (pinRelease e) := .ite h (.ite h.updPwr h)

theorem Kept.resetRelease (h : Kept d e) : Kept d (resetRelease e) :=
  .ite h.updPwr.coldStart h.updPwr.pinRelease

theorem Kept.testEnLevel {high} (h : Kept d e) : Kept d (testEnLevel high e) :=
  .ite (.ite h.updPwr.pinAssert h.updPwr) h.updPwr.pinRelease

theorem Kept.bootCode {c} (h : Kept d e) : Kept d (bootCode c e) := h.wrF.wrF

theorem Kept.putLram {core off bs} (h : Kept d e) :
    Kept d (putLram core off bs e) := h.foldBelow fun _ _ h => h.setLram

theorem Kept.clearLram0 (h : Kept d e) : Kept d (clearLram0 e) := h.forgetLram

theorem Kept.bootHalt {c} (h : Kept d e) : Kept d (bootHalt c e) := h.updPwr.bootCode.flag0.push

theorem Kept.hostBootCommit (h : Kept d e) : Kept d (hostBootCommit e) :=
  (h.setUnitState.wrB.each (fun _ _ h => h.updPage)).updDesc

theorem Kept.hostBootRelease (h : Kept d e) : Kept d (hostBootRelease e) :=
  .ite h.updDesc.startSweep h

theorem Kept.hostWait (h : Kept d e) : Kept d (hostWait e) := h.hostBootCommit.updPwr

theorem Kept.updTlm {f} (h : Kept d e) : Kept d (updTlm f e) := .same h rfl

theorem Kept.probeNow (h : Kept d e) : Kept d (probeNow e) := h.updTlm

theorem Kept.xspMode {mode divider} (h : Kept d e) : Kept d (xspMode mode divider e) := h.draw.wr

theorem Kept.bootStart (h : Kept d e) : Kept d (bootStart e) := by
  unfold Machine.bootStart
  extract_lets e₁
  have h₁ : Kept d e₁ := h.trainStacks.probeNow.xspMode
  refine .ite h (.ite h₁.updPwr.bootCode.flag0 ?_)
  split
  · exact h₁.hostWait.bootCode
  · exact h₁.updPwr.bootCode
  · exact h₁.updPwr.bootCode

theorem Kept.bootFailed {c} (h : Kept d e) : Kept d (bootFailed c e) := by
  unfold Machine.bootFailed
  split
  · exact h.clearLram0.bootCode.updPwr
  · exact .ite h.clearLram0.bootCode.hostWait h.clearLram0.bootCode.bootHalt
  · exact h.clearLram0.bootCode.hostBootRelease.bootHalt
  · exact h.clearLram0.bootCode

theorem Kept.bootGo {code entry} (h : Kept d e) : Kept d (bootGo code entry e) :=
  (h.each (fun _ _ h => .ite h.wrB.setUnitState h.wrB)).wr.wr.updPwr.updCore.bootCode.wakeCheck

theorem Kept.bootJump {hdr payload code} (h : Kept d e) : Kept d (bootJump hdr payload code e) := by
  unfold Machine.bootJump
  extract_lets entry e₁ e₂
  have h₂ : Kept d e₂ := .ite h.putLram.hostBootRelease h.putLram
  exact .ite h₂.updPwr h₂.bootGo

theorem Kept.bootReleased (h : Kept d e) : Kept d (bootReleased e) := by
  unfold Machine.bootReleased
  split
  · exact .ite h h.bootGo
  · exact h

theorem Kept.bootCheck {flash octal} (h : Kept d e) : Kept d (bootCheck flash octal e) := by
  unfold Machine.bootCheck
  extract_lets f signed judge ofFlash
  have hf : Kept d f := by
    dsimp only [f]
    split
    · exact .ite h.xspMode h
    · exact h
  have hjudge {hdr payload code} : Kept d (judge hdr payload code) := .ite hf.bootJump hf.bootFailed
  have hflash {base code} : Kept d (ofFlash base code) := .ite hf.flag0.bootFailed hjudge
  clear_value f judge ofFlash
  refine .ite hf ?_
  split
  · exact hflash
  · exact hflash
  · exact .ite hf hjudge
  · exact hf

theorem Kept.hostDoorbell {v} (h : Kept d e) : Kept d (hostDoorbell v e) :=
  .ite h.wr (.ite h.wr.bootFailed h.wr.updPwr)

theorem Kept.hostTimeout (h : Kept d e) : Kept d (hostTimeout e) := .ite h.bootFailed h

theorem Kept.wdtReload (h : Kept d e) : Kept d (wdtReload e) := h.wrF

theorem Kept.wdtKick {v} (h : Kept d e) : Kept d (wdtKick v e) := .ite h.wdtReload.wrB h

theorem Kept.wdtPeriodWrite {v} (h : Kept d e) : Kept d (wdtPeriodWrite v e) := h.wr.wdtReload.wrB

theorem Kept.wdtExpire (h : Kept d e) : Kept d (wdtExpire e) :=
  .ite h (.ite h.flag0.wrB.updCore.wdtReload h.flag0.warmStart)

theorem Kept.dormantReq (h : Kept d e) : Kept d (dormantReq e) :=
  .ite h.flag0 (.ite h h.wr.wr.updPwr.seqDown)

theorem Kept.wakeSources {mask} (h : Kept d e) : Kept d (wakeSources mask e) := by
  unfold Machine.wakeSources
  dsimp only
  split
  · exact h
  split
  · exact h.wakeBits.wake
  · exact .ite h.updPwr.wakeBits.flag0 h
  · exact .ite h.wakeJoin h
  · exact h

theorem Kept.rtcAlarm (h : Kept d e) : Kept d (rtcAlarm e) := .ite h.wakeSources h

/-! ### Intakes -/

theorem Kept.updPort {p f} (h : Kept d e) : Kept d (updPort p f e) := .same h rfl

theorem Kept.updStream {p b f} (h : Kept d e) : Kept d (updStream p b f e) := .same h rfl

theorem Kept.portCount {p j} (h : Kept d e) : Kept d (portCount p j e) := h.bump

theorem Kept.portFlag {p n detail} (h : Kept d e) : Kept d (portFlag p n detail e) := h.flag

theorem Kept.sendPieces {p cmp tag ps} (h : Kept d e) : Kept d (sendPieces p cmp tag ps e) :=
  h.each (fun _ _ h => h.sendWrite)

theorem Kept.writeRow {p b r f xs} (h : Kept d e) : Kept d (writeRow p b r f xs e) := h.sendPieces

theorem Kept.updOpen {p b g} (h : Kept d e) : Kept d (updOpen p b g e) := h.updStream

theorem Kept.closeCam {p b reason early} (h : Kept d e) : Kept d (closeCam p b reason early e) := by
  unfold Machine.closeCam
  split
  · exact h
  · extract_lets short r rows fill f₂ e₁ e₂
    have h₂ : Kept d e₂ := .ite (h.updStream.each fun _ _ h => h.writeRow) h.updStream
    exact .ite h₂.portFlag h₂

theorem Kept.writeRecordOf {p b f} (h : Kept d e) : Kept d (writeRecordOf p b f e) :=
  h.updStream.sendPieces.sendPieces

theorem Kept.closeDrained {p b} (h : Kept d e) : Kept d (closeDrained p b e) := by
  unfold Machine.closeDrained
  split
  · exact .ite h h.writeRecordOf
  · exact h

theorem Kept.stampClose {p f} (h : Kept d e) : Kept d (stampClose p f e) := by
  unfold Machine.stampClose
  dsimp only
  split
  · exact h
  split
  · split
    · exact h.writeCells
    · exact h
  · split
    · exact .ite h h.landStack
    · exact h

theorem Kept.recordDone {p b} (h : Kept d e) : Kept d (recordDone p b e) := by
  unfold Machine.recordDone
  split
  · exact .ite h (.ite (.same h.stampClose rfl) h.stampClose.updStream)
  · exact h

theorem Kept.rowLost {tag} (h : Kept d e) : Kept d (rowLost tag e) := .same h rfl

theorem KeptIf.header {p hdr} (h : Kept d e) : KeptIf d (header p hdr e) :=
  .ite .none (.ite (.some h) (.ite (.some h.portCount.portFlag) (.some h)))

theorem Kept.headerLost {p} (h : Kept d e) : Kept d (headerLost p e) :=
  h.portCount.portFlag.each (fun _ _ h => h.updOpen)

theorem Kept.packet {p hdr} {f : Dev → Dev} (hf : ∀ e, Kept d e → Kept d (f e)) (h : Kept d e) :
    Kept d (packet p hdr f e) := by
  unfold Machine.packet
  split
  · exact h
  · extract_lets inj e₂
    have h₁ := KeptIf.header h _ ‹_›
    have h₂ : Kept d e₂ := .ite h₁.fired h₁
    clear_value e₂
    exact .ite h₁.portCount (.ite h₂.headerLost (hf _ h₂))

theorem Kept.deskewCheck {p mhz} (h : Kept d e) : Kept d (deskewCheck p mhz e) := .ite h.portFlag h

theorem Kept.rateFault {p mhz} (h : Kept d e) : Kept d (rateFault p mhz e) :=
  .ite h (h.updPort.portFlag.each (fun _ _ h => .ite h.closeCam.updStream h))

theorem Kept.measured {p mhz} (h : Kept d e) : Kept d (measured p mhz e) := h.updPort

theorem Kept.frameStartOn {p num mhz b} (h : Kept d e) : Kept d (frameStartOn p num mhz b e) := by
  unfold Machine.frameStartOn
  extract_lets e₀ s minP storm f fr _ e₁ e₂
  have h₀ : Kept d e₀ := .ite h.closeCam h
  clear_value e₀
  have h₂ : Kept d e₂ := .portCount (.updStream (.same h₀ rfl))
  clear_value e₂
  split
  case h_1 => exact h₀
  case h_5 => exact h₀.portCount
  all_goals exact .ite h₀.updStream.portCount.portFlag (.ite h₀.updStream.portCount.portFlag (.same h₂ rfl))

theorem Kept.rateMoved {p mhz b} (h : Kept d e) : Kept d (rateMoved p mhz b e) := by
  unfold Machine.rateMoved
  split
  · exact .ite h.closeCam.updStream h
  · exact h

theorem Kept.csiFrameStart {p vc num hdr mhz} (h : Kept d e) : Kept d (csiFrameStart p vc num hdr mhz e) :=
  h.packet fun _ h =>
    have h₁ := h.measured.deskewCheck
    have hmoved := h₁.updPort.each fun _ _ h => h.rateMoved
    .ite h₁.rateFault (hmoved.each fun _ _ h => h.frameStartOn)

theorem Kept.csiFrameEnd {p vc hdr} (h : Kept d e) : Kept d (csiFrameEnd p vc hdr e) :=
  h.packet (fun _ h => .ite h
    (h.each (fun _ _ h => .ite h.portCount (.ite h.closeCam.updStream (.ite h.updStream h)))))

theorem Kept.lineStartOn {p line b} (h : Kept d e) : Kept d (lineStartOn p line b e) := by
  unfold Machine.lineStartOn
  dsimp only
  split
  · exact h.portCount
  split
  · exact h
  · exact h.updOpen

theorem Kept.csiLineStart {p vc line hdr mhz} (h : Kept d e) : Kept d (csiLineStart p vc line hdr mhz e) :=
  h.packet fun _ h =>
    have h₁ := h.measured.deskewCheck
    have hmoved := h₁.each fun _ _ h => h.rateMoved
    .ite h₁.rateFault (.ite h₁ (hmoved.each fun _ _ h => h.lineStartOn))

theorem Kept.csiLineEnd {p vc hdr} (h : Kept d e) : Kept d (csiLineEnd p vc hdr e) :=
  h.packet (fun _ h => .ite h (h.each (fun _ _ h => .ite h.portCount h.updOpen)))

theorem Kept.csiDeskew {p} (h : Kept d e) : Kept d (csiDeskew p e) :=
  .ite (.ite h.updPort h.portCount) h

theorem Kept.lineOn {p b payload crcOk parity full} (h : Kept d e) :
    Kept d (lineOn p b payload crcOk parity full e) := by
  unfold Machine.lineOn
  split
  · exact h
  · extract_lets i bad e₁ r w px reasons row e₂ e₃
    have h₁ : Kept d e₁ := (h.doIf fun _ h => h.portCount.portFlag).updOpen
    have h₃ : Kept d e₃ := h₁.updOpen.doIf fun _ h => h.flag0
    exact .ite h₁ (.ite h₃.portCount.portFlag h₃.writeRow)

theorem Kept.csiLongPacket {p vc dt payload crcOk hdr parity full} (h : Kept d e) :
    Kept d (csiLongPacket p vc dt payload crcOk hdr parity full e) := by
  unfold Machine.csiLongPacket
  refine .packet (fun _ h => ?_) h
  extract_lets e₀ inj e₁
  have h₀ : Kept d e₀ := h.tcount.deskewCheck
  have h₁ : Kept d e₁ := .ite h₀.fired h₀
  refine .ite h₀ (.ite h₀.portCount.portFlag ?_)
  split
  · exact h₁.portCount
  · exact .ite h₁.portCount (.ite h₁.lineOn h₁)

theorem Kept.lineTimeout {p b clockAbsent} (h : Kept d e) : Kept d (lineTimeout p b clockAbsent e) := by
  unfold Machine.lineTimeout
  dsimp only
  split
  · exact h
  · exact .ite (h.closeCam.updStream.portCount.portFlag.doIf (fun _ h => h.portFlag)) h

theorem Kept.releaseBuf {p b f} (h : Kept d e) : Kept d (releaseBuf p b f e) := h.updStream

theorem Kept.streamRelease {p b mask} (h : Kept d e) : Kept d (streamRelease p b mask e) :=
  h.each (fun _ _ h => h.releaseBuf)

theorem Kept.startReplug {p b} (h : Kept d e) : Kept d (startReplug p b e) := h.updStream.push

theorem Kept.streamReplug {p b} (h : Kept d e) : Kept d (streamReplug p b e) := .ite h.startReplug h

theorem Kept.replugEnded {p b ok} (h : Kept d e) : Kept d (replugEnded p b ok e) :=
  have h₁ := .ite h h.portFlag
  .ite h₁ (.ite h₁.updStream.portFlag h₁.updStream)

theorem Kept.hotplugFall {p b} (h : Kept d e) : Kept d (hotplugFall p b e) := by
  unfold Machine.hotplugFall
  dsimp only
  split
  · exact h
  split
  · exact h
  · exact h
  · exact (h.closeCam.doIf (fun _ h => h.push)).updStream.portCount.portFlag

theorem Kept.hotplugRise {p b} (h : Kept d e) : Kept d (hotplugRise p b e) := .ite h.updStream h

theorem Kept.replugExpire {p b} (h : Kept d e) : Kept d (replugExpire p b e) :=
  .ite (.ite h.startReplug h.updStream) h

theorem Kept.absentExpire {p b} (h : Kept d e) : Kept d (absentExpire p b e) := by
  unfold Machine.absentExpire
  dsimp only
  split
  · exact h
  split
  · exact .writeRecordOf (.portCount (.updStream (.same h rfl)))
  · exact .portCount (.updStream (.same h rfl))

theorem Kept.bindWrite {p b v} (h : Kept d e) : Kept d (bindWrite p b v e) := by
  unfold Machine.bindWrite
  extract_lets k e₁ stop on
  have h₁ : Kept d e₁ := .ite h h.portFlag
  have hstop : Kept d stop := h₁.wrB.doIf fun _ h => h.push
  have hon : Kept d on := h.wr.wrB
  exact .ite (.ite (.ite h₁.portFlag h₁) hstop.updStream) (.ite hon (.ite hon.portFlag hon.wrB.updStream))

theorem Kept.bindField {p b k v} (h : Kept d e) : Kept d (bindField p b k v e) :=
  .ite h.portFlag h.wr

theorem Kept.portCtrl {p v} (h : Kept d e) : Kept d (portCtrl p v e) :=
  h.wr.doIf (fun _ h => h.updPort)

theorem Kept.restartStreams {n clearBusy st} (h : Kept d e) : Kept d (restartStreams n clearBusy st e) :=
  h.each (fun _ _ h => .ite h.updStream (h.doIf (fun _ h => h.push)).updStream)

theorem Kept.resetIntake {n} (h : Kept d e) : Kept d (resetIntake n e) :=
  h.restartStreams.each (fun _ _ h => h.updPort)

theorem Kept.stableIntake {n} (h : Kept d e) : Kept d (stableIntake n e) := h.restartStreams

theorem Kept.admitIntake {n} (h : Kept d e) : Kept d (admitIntake n e) := h.restartStreams

theorem Kept.fsyncCtrl {k v} (h : Kept d e) : Kept d (fsyncCtrl k v e) := by
  unfold Machine.fsyncCtrl
  extract_lets a was _ e₁ p
  have h₁ : Kept d e₁ := .wr (h.same rfl)
  exact .ite (.ite h₁.wrB.flag0 h₁.ttAdd) (.ite h₁.ttDrop h₁)

theorem Kept.fsyncPulse {k late} (h : Kept d e) : Kept d (fsyncPulse k late e) := by
  unfold Machine.fsyncPulse
  extract_lets w f
  have hf : Kept d f := h.wr64
  clear_value f
  exact .doIf (fun _ h => h.flag0) (.same hf rfl)

theorem Kept.fsyncEnd {k} (h : Kept d e) : Kept d (fsyncEnd k e) := .ite (.same h rfl) h

/-! ### Stabled units -/

theorem Kept.loseTallies {s} (h : Kept d e) : Kept d (loseTallies s e) :=
  .each (fun _ _ h => h.endUnrun) (.same h rfl)

theorem Kept.reissueTwaits {s} (h : Kept d e) : Kept d (reissueTwaits s e) :=
  .each (fun _ _ h => h.updCore) (.same h rfl)

theorem Kept.stableCluster {s} (h : Kept d e) : Kept d (stableCluster s e) := by
  unfold Machine.stableCluster
  exact (h.setUnitState.mapBit.loseTallies.reissueTwaits.each (fun _ _ h => h.resetWaiters)).releaseHeld.cper

theorem Kept.announceStabled {u} (h : Kept d e) : Kept d (announceStabled u e) :=
  h.each (fun _ _ h => h.post)

theorem Kept.stableTarget {u} (h : Kept d e) : Kept d (stableTarget u e) := by
  unfold Machine.stableTarget
  extract_lets p e₁ e₂ e₃ e₄ e₅
  have h₁ : Kept d e₁ := .ite h.epochAdvance h
  have h₃ : Kept d e₃ := h₁.loseRun.each fun _ _ h => h.cancelSample
  have h₄ : Kept d e₄ := .ite h₃.blankCore h₃
  exact h₄.setUnitState.mapBit.retire.epochBoundary.cper.announceStabled

theorem Kept.stableUnit {code} (h : Kept d e) : Kept d (stableUnit code e) := by
  unfold Machine.stableUnit
  split
  · exact .stableTarget (.same h rfl)
  · exact .stableCluster (.same h rfl)
  · exact .stableLink (.same h rfl)
  · exact .cper (.stableIntake (.mapBit (.setUnitState (.same h rfl))))
  · exact .stablePc (.same h rfl)
  · exact .stableStack (.same h rfl)

theorem Kept.stableReq {code} (h : Kept d e) : Kept d (stableReq code e) :=
  .ite h.decline (.ite h.decline h.stableUnit)

theorem Kept.stableAuto {code} (h : Kept d e) : Kept d (stableAuto code e) := .ite h h.stableReq

theorem Kept.probeReq {code} (h : Kept d e) : Kept d (probeReq code e) :=
  .ite h.decline (.ite h.decline (.ite h.decline (.ite h.probeLink (.setUnitState (.same h rfl)))))

theorem Kept.probeReport {code pass} (h : Kept d e) : Kept d (probeReport code pass e) :=
  h.cper.post

theorem Kept.probeDone {code pass} (h : Kept d e) : Kept d (probeDone code pass e) := by
  unfold Machine.probeDone
  split
  · exact h
  split
  · exact .probeReport (.flag0 (.same (.ite h.updLink.reroute h.setUnitState) rfl))
  split
  · exact .probeReport (.same h rfl)
  · exact h.updLink.reroute.probeReport
  · exact h.admitUnit.semClusterReset.sweepCluster.releaseHeld.probeReport
  · exact h.admitUnit.admitIntake.probeReport

theorem Kept.epochSwitchDone (h : Kept d e) : Kept d (epochSwitchDone e) :=
  h.switchDone.each (fun _ _ h => h.loseTallies)

theorem Kept.unitRequest {ty inst stable} (h : Kept d e) : Kept d (unitRequest ty inst stable e) := by
  unfold Machine.unitRequest
  split
  · exact .ite h.stableReq h.probeReq
  · exact h.decline

/-! ### The drawbar -/

theorem Kept.teamPart {f : Dev → Dev} (hf : ∀ e, Kept d e → Kept d (f e)) (h : Kept d e) :
    Kept d (teamPart f e) :=
  .ite (hf _ h) h

theorem Kept.updDb {p f} (h : Kept d e) : Kept d (updDb p f e) := .same h rfl

theorem Kept.setPort {p st} (h : Kept d e) : Kept d (setPort p st e) := h.updDb.wrF

theorem Kept.formResult {code} (h : Kept d e) : Kept d (formResult code e) := .ite h.wrF h.wrF.flag0

theorem Kept.creditTold {p c} (h : Kept d e) : Kept d (creditTold p c e) := h.updDb

theorem Kept.flitOut {p type seq c body} (h : Kept d e) : Kept d (flitOut p type seq c body e) :=
  .answer (.bump64 (.ite h.fired h))

theorem Kept.sendFlit {p b} (h : Kept d e) : Kept d (sendFlit p b e) := h.creditTold.updDb.flitOut

theorem Kept.sendAgain {p} (h : Kept d e) : Kept d (sendAgain p e) :=
  h.each (fun _ _ h => h.flitOut)

theorem Kept.sendPlain {p type} (h : Kept d e) : Kept d (sendPlain p type e) := h.creditTold.flitOut

theorem Kept.packetOut {p k} (h : Kept d e) : Kept d (packetOut p k e) :=
  (h.each (fun _ _ h => h.sendFlit)).sendFlit

theorem Kept.pumpPort {p} (h : Kept d e) : Kept d (pumpPort p e) := by
  unfold Machine.pumpPort
  extract_lets r
  have hr : Kept d r.2.2 := by
    refine Kept.foldlBy (fun r : List Packet × List Nat × Dev => r.2.2) (fun r k hr => ?_) h
    dsimp only
    split
    · exact hr
    split
    · exact hr.updDb.packetOut
    · exact hr
  clear_value r
  exact hr.updDb

theorem Kept.asksLost {ks} (h : Kept d e) : Kept d (asksLost ks e) := .same h rfl

theorem Kept.sendBy {port k} (h : Kept d e) : Kept d (sendBy port k e) := by
  unfold Machine.sendBy
  split
  · exact h.updDb.pumpPort
  · exact h.asksLost

theorem Kept.sendPacket {k} (h : Kept d e) : Kept d (sendPacket k e) := h.sendBy

theorem Kept.farAsk {who cmp wtag dst addr op what posted} (h : Kept d e) :
    Kept d (farAsk who cmp wtag dst addr op what posted e) :=
  .sendPacket (.same h rfl)

theorem Kept.farWrite {acc tag serial a bs} (h : Kept d e) : Kept d (farWrite acc tag serial a bs e) :=
  h.launch.farAsk

theorem Kept.farPost {dst cmp op} (h : Kept d e) : Kept d (farPost dst cmp op e) := h.sendPacket

theorem Kept.farReply {k r} (h : Kept d e) : Kept d (farReply k r e) := .ite h h.sendPacket

theorem Kept.farTold {k r} (h : Kept d e) : Kept d (farTold k r e) := by
  unfold Machine.farTold
  split
  · exact h
  · exact .ite (.same (.same h rfl) rfl) (.push (.same h rfl))

theorem Kept.takePacket {p k} (h : Kept d e) : Kept d (takePacket p k e) := by
  unfold Machine.takePacket
  split
  · exact h.updDb.sendBy
  split
  · exact h.updDb.farTold
  · exact .same h rfl
  · exact h.updDb.push

theorem Kept.setLead {f} (h : Kept d e) : Kept d (setLead f e) :=
  .ite (.flag0 (.same h rfl)) (.same h rfl)

theorem Kept.setUnled {b} (h : Kept d e) : Kept d (setUnled b e) := h.setLead

theorem Kept.dbrEvent {kind sub detail n} (h : Kept d e) : Kept d (dbrEvent kind sub detail n e) :=
  h.post

theorem Kept.refreshPresent (h : Kept d e) : Kept d (refreshPresent e) := by
  unfold Machine.refreshPresent
  extract_lets seen old e₁ e₂
  have h₁ : Kept d e₁ := h.wrF
  clear_value e₁
  have h₂ : Kept d e₂ := h₁.each fun _ _ h => .same h rfl
  clear_value e₂
  exact h₂.each fun _ _ h => .ite h.flag0.dbrEvent h

theorem Kept.tryForm (h : Kept d e) : Kept d (tryForm e) := by
  unfold Machine.tryForm
  split
  · exact h
  · extract_lets e₁ _ e₂
    have h₁ : Kept d e₁ := h.wrB.wrF.formResult
    clear_value e₁
    have h₂ : Kept d e₂ := .same h₁ rfl
    clear_value e₂
    exact .ite (.dbrEvent (.ite h₂ h₂.setUnled)) h

theorem Kept.reapModule {m} (h : Kept d e) : Kept d (reapModule m e) :=
  h.each (fun _ _ h => h.reapAt)

theorem Kept.memberLost {m} (h : Kept d e) : Kept d (memberLost m e) := by
  unfold Machine.memberLost
  extract_lets lost there writes _ _ _ _ e₁ e₂ e₃ e₄
  have h₁ : Kept d e₁ := .wrF (h.same rfl)
  have h₂ : Kept d e₂ := h₁.each fun _ _ h => h.push
  have h₄ : Kept d e₄ := h₂.reapModule.flag0.each fun _ _ h => h.dbrEvent
  exact .ite h₄.setUnled h₄

theorem Kept.memberTimeout {m} (h : Kept d e) : Kept d (memberTimeout m e) := .ite h h.memberLost

theorem Kept.sendHello {p} (h : Kept d e) : Kept d (sendHello p e) := h.updDb.sendFlit

theorem Kept.tellNeighbours (h : Kept d e) : Kept d (tellNeighbours e) :=
  h.each (fun _ _ h => .ite h.sendHello h)

theorem Kept.portDown {p} (h : Kept d e) : Kept d (portDown p e) :=
  (h.asksLost.updDb.setPort.doIf (fun _ h => h.flag0)).dbrEvent.refreshPresent.tellNeighbours

theorem Kept.startTraining {p} (h : Kept d e) : Kept d (startTraining p e) := h.updDb.setPort

theorem Kept.portEnable {p on} (h : Kept d e) : Kept d (portEnable p on e) :=
  .ite (.ite h.wrB.startTraining h.wrB) (.ite h.wrB h.wrB.portDown.setPort)

theorem Kept.portLocked {p} (h : Kept d e) : Kept d (portLocked p e) :=
  .ite h.setPort.updDb.sendHello h

theorem Kept.trainingTimeout {p} (h : Kept d e) : Kept d (trainingTimeout p e) := .ite h.updDb h

theorem Kept.downExpire {p} (h : Kept d e) : Kept d (downExpire p e) := .ite h.startTraining h

theorem Kept.drawbarRefLost (h : Kept d e) : Kept d (drawbarRefLost e) :=
  h.teamPart (fun _ h => h.each (fun _ _ h => .ite h h.portDown))

theorem Kept.startRetrain {p} (h : Kept d e) : Kept d (startRetrain p e) :=
  .ite h.flag0.portDown h.updDb.setPort.bump.flag0.dbrEvent

theorem Kept.replayFlits {p} (h : Kept d e) : Kept d (replayFlits p e) :=
  .ite h (.ite h.startRetrain h.sendAgain.updDb.bump)

theorem Kept.acked {p ack} (h : Kept d e) : Kept d (acked p ack e) := by
  unfold Machine.acked
  split
  · exact h
  · exact .ite h.updDb h

theorem Kept.credited {p hdr} (h : Kept d e) : Kept d (credited p hdr e) := h.updDb

theorem Kept.sendNak {p} (h : Kept d e) : Kept d (sendNak p e) := h.sendPlain

theorem Kept.idleOut {p before} (h : Kept d e) : Kept d (idleOut p before e) := .ite h.sendPlain h

theorem Kept.flitIn {p hdr} {f : Dev → Dev} (hf : ∀ e, Kept d e → Kept d (f e)) (h : Kept d e) :
    Kept d (flitIn p hdr f e) :=
  .ite h (.ite h.bump64.bump.flag0.sendNak (hf _ h.bump64.updDb.acked.credited).pumpPort.idleOut)

theorem Kept.plainFlit {p hdr} {f : Dev → Dev} (hf : ∀ e, Kept d e → Kept d (f e)) (h : Kept d e) :
    Kept d (plainFlit p hdr f e) :=
  .ite h (.ite h.bump64.bump.flag0.sendNak (hf _ h.bump64.acked.credited).pumpPort)

theorem Kept.dataFlit {p hdr ks} (h : Kept d e) : Kept d (dataFlit p hdr ks e) :=
  h.flitIn (fun _ h => .ite (h.each (fun _ _ h => h.takePacket)) h)

theorem Kept.nakFlit {p hdr} (h : Kept d e) : Kept d (nakFlit p hdr e) :=
  h.plainFlit (fun _ h => h.replayFlits)

theorem Kept.idleFlit {p hdr} (h : Kept d e) : Kept d (idleFlit p hdr e) :=
  h.plainFlit (fun _ h => h)

theorem Kept.replayTimeout {p} (h : Kept d e) : Kept d (replayTimeout p e) := .ite h.replayFlits h

theorem Kept.retrainDone {p ok} (h : Kept d e) : Kept d (retrainDone p ok e) :=
  .ite h (.ite h.startRetrain h.setPort.dbrEvent.updDb.sendAgain.pumpPort.refreshPresent.tellNeighbours)

theorem Kept.helloFlit {p hdr id size topo port present anew} (h : Kept d e) :
    Kept d (helloFlit p hdr id size topo port present anew e) := by
  unfold Machine.helloFlit
  refine h.flitIn fun _ h => ?_
  extract_lets c fresh e₁ e₂ _ e₃
  have h₁ : Kept d e₁ := h.updDb.wrF.wrF
  have h₂ : Kept d e₂ := .ite h₁.setPort.dbrEvent h₁
  have h₃ : Kept d e₃ := h₂.same rfl
  exact .ite h.formResult.portDown h₃.refreshPresent.tellNeighbours.tryForm

theorem Kept.formCmd (h : Kept d e) : Kept d (formCmd e) :=
  .ite h.formResult (.tryForm (.refreshPresent (.each (fun _ _ h => h.portEnable) (.same h rfl))))

theorem Kept.formNoPath (h : Kept d e) : Kept d (formNoPath e) := by
  unfold Machine.formNoPath
  split
  · exact .ite (.formResult (.same h rfl)) h
  · exact h

theorem Kept.echoSend {p cycle} (h : Kept d e) : Kept d (echoSend p cycle e) :=
  .ite h h.updDb.sendFlit

theorem Kept.echoReceive {p hdr cookie} (h : Kept d e) : Kept d (echoReceive p hdr cookie e) :=
  h.flitIn (fun _ h => .ite h.sendFlit h)

theorem Kept.echoReplied {p hdr cookie cycle} (h : Kept d e) : Kept d (echoReplied p hdr cookie cycle e) := by
  unfold Machine.echoReplied
  refine .flitIn (fun _ h => ?_) h
  split
  · exact .ite h.updDb.wrF h
  · exact h

theorem Kept.syncSend {cycle} (h : Kept d e) : Kept d (syncSend cycle e) :=
  .ite h (.each (fun _ _ h => h.sendFlit) (.same h rfl))

theorem Kept.setOffset {off locked} (h : Kept d e) : Kept d (setOffset off locked e) := by
  unfold Machine.setOffset
  exact .setLead (.wr (.same h rfl))

theorem Kept.firstSync {p at_ here locked} (h : Kept d e) : Kept d (firstSync p at_ here locked e) := by
  unfold Machine.firstSync
  extract_lets _ e₁ off e₂
  have h₁ : Kept d e₁ := h.same rfl
  exact .ite h₁.wr64.setOffset (.ite h₁.setUnled.wrB.wrF.formResult.portDown (.setOffset (h₁.same rfl)))

theorem Kept.tickSync {p hdr t cycle delay here transit locked} (h : Kept d e) :
    Kept d (tickSync p hdr t cycle delay here transit locked e) :=
  h.flitIn fun _ h =>
    have h₁ := .ite h.firstSync h.setOffset
    .ite h (.ite h₁.sendFlit h₁)

theorem Kept.slewTick (h : Kept d e) : Kept d (slewTick e) :=
  .ite (.ite h.setLead h) (.same (.ite h.setLead h) rfl)

theorem Kept.sendPressure (h : Kept d e) : Kept d (sendPressure e) :=
  .ite h (h.each (fun _ _ h => h.farPost))

/-! ### Holdover -/

theorem Kept.pllOutputsStop (h : Kept d e) : Kept d (pllOutputsStop e) :=
  .ite h h.updClk.selfRefresh.drawbarRefLost

theorem Kept.drawbarRefBack (h : Kept d e) : Kept d (drawbarRefBack e) :=
  h.teamPart (fun _ h => h.each (fun _ _ h => .ite h.startTraining h))

theorem Kept.refRelocked (h : Kept d e) : Kept d (refRelocked e) :=
  .ite h (h.updClk.each (fun _ _ h => .ite h.updStack h)).drawbarRefBack

/-! ### The host link -/

theorem Kept.updHst {f} (h : Kept d e) : Kept d (updHst f e) := .same h rfl

theorem Kept.hostLinkOf {sub status} (h : Kept d e) : Kept d (hostLinkOf sub status e) := h.post

theorem Kept.hostLinkEvent {sub} (h : Kept d e) : Kept d (hostLinkEvent sub e) := h.hostLinkOf

theorem Kept.outReadFail {elem} (h : Kept d e) : Kept d (outReadFail elem e) := h.bump.flag0

theorem Kept.issuePart {r p rest} (h : Kept d e) : Kept d (issuePart r p rest e) :=
  .ite h.updHst.bump.tcount.answer h.updHst.refused

theorem Kept.pumpReads {n} (h : Kept d e) : Kept d (pumpReads n e) := by
  induction n generalizing e with
  | zero => exact h
  | succ n ih =>
    unfold Machine.pumpReads
    split
    · exact h
    split
    · exact h
    · exact .ite h (ih h.issuePart)

theorem Kept.endReads (h : Kept d e) : Kept d (endReads e) := h.updHst.each (fun _ _ h => h.push)

theorem Kept.outRead {who cmp a len what} (h : Kept d e) : Kept d (outRead who cmp a len what e).2 := by
  unfold Machine.outRead
  extract_lets parts r f
  have hf : Kept d f := h.updHst.pumpReads
  clear_value f
  split
  · exact hf.updHst.beside
  · exact hf

theorem Kept.outReadDone {who ok bs} (h : Kept d e) : Kept d (outReadDone who ok bs e) := by
  unfold Machine.outReadDone
  dsimp only
  split
  · exact h
  split
  · exact h
  · exact .endReads (.pumpReads (.updHst (.ite h h.outReadFail)))

theorem Kept.outWrite {acc tag serial a bs} (h : Kept d e) : Kept d (outWrite acc tag serial a bs e) := by
  unfold Machine.outWrite
  dsimp only
  split
  · exact h.refused.launch
  · exact (h.each (fun _ _ h => h.bump.tcount.answer)).launch

theorem Kept.outWriteAck {who} (h : Kept d e) : Kept d (outWriteAck who e) := .same h rfl

theorem Kept.outLost (h : Kept d e) : Kept d (outLost e) :=
  .each (fun _ _ h => ((h.each (fun _ _ h => h.outReadFail)).each (fun _ _ h => h.refused)).push)
    (.updHst (.same h rfl))

theorem Kept.dropInbound {p} (h : Kept d e) : Kept d (dropInbound p e).2 := by
  unfold Machine.dropInbound
  exact .same h rfl

theorem Kept.linkFalls (h : Kept d e) : Kept d (linkFalls e) :=
  .ite h h.dropInbound.outLost.wrB.bump.flag0.hostLinkEvent.wr

theorem Kept.hostLinkDown (h : Kept d e) : Kept d (hostLinkDown e) := h.linkFalls

theorem Kept.hostLinkUp {width rate} (h : Kept d e) : Kept d (hostLinkUp width rate e) :=
  .ite h h.wr.hostLinkEvent

theorem Kept.refclkLost (h : Kept d e) : Kept d (refclkLost e) :=
  .ite h h.updHst.flag0.linkFalls.hostLinkOf

theorem Kept.refclkRestored (h : Kept d e) : Kept d (refclkRestored e) := h.updHst

theorem Kept.endpointReset (h : Kept d e) : Kept d (endpointReset e) := by
  unfold Machine.endpointReset
  extract_lets r _ _ f
  have hr : Kept d r.2 := h.outLost.dropInbound
  clear_value r
  have hf : Kept d f := .same hr.forget rfl
  clear_value f
  exact hf.post

theorem Kept.perstAssert (h : Kept d e) : Kept d (perstAssert e) :=
  .ite h (.ite h.updPwr.flag0.endpointReset h.updPwr)

theorem Kept.perstRelease (h : Kept d e) : Kept d (perstRelease e) := h.updPwr

theorem Kept.inBandReset (h : Kept d e) : Kept d (inBandReset e) := h.endpointReset

theorem Kept.fnConfigReset {f} (h : Kept d e) : Kept d (fnConfigReset f e) := .same h rfl

theorem Kept.vfReset {f} (h : Kept d e) : Kept d (vfReset f e) := by
  unfold Machine.vfReset
  exact h.dropInbound.forget.fnConfigReset

theorem Kept.vfsGone (h : Kept d e) : Kept d (vfsGone e) := .same h.dropInbound rfl

theorem Kept.pfReset (h : Kept d e) : Kept d (pfReset e) := by
  unfold Machine.pfReset
  exact h.dropInbound.forget.fnConfigReset.vfsGone.post

theorem Kept.setPending {f v on} (h : Kept d e) : Kept d (setPending f v on e) := h.wrB

theorem Kept.sendVector {f v} (h : Kept d e) : Kept d (sendVector f v e) :=
  .ite h (.ite h.setPending (.ite h.setPending.answer h))

theorem Kept.sendPending {f} (h : Kept d e) : Kept d (sendPending f e) :=
  h.each (fun _ _ h => h.sendVector)

theorem Kept.queueWritten {q} (h : Kept d e) : Kept d (queueWritten q e) := by
  unfold Machine.queueWritten
  split
  · exact .ite h.wrB.sendVector h
  · exact h

theorem Kept.vectorArm {f v} (h : Kept d e) : Kept d (vectorArm f v e) :=
  .ite h.wrB.sendVector h.wrB

theorem Kept.vecBind {f v val} (h : Kept d e) : Kept d (vecBind f v val e) :=
  .ite (.vectorArm (.ite h.wr.flag0 h.wr)) (.ite h.wr.flag0 h.wr)

theorem Kept.msixWrite {f off val} (h : Kept d e) : Kept d (msixWrite f off val e) :=
  h.wr.sendPending

theorem Kept.updAer {f g} (h : Kept d e) : Kept d (updAer f g e) := .same h rfl

theorem Kept.dropVfs (h : Kept d e) : Kept d (dropVfs e) := h.dropInbound

theorem Kept.configWrite {x} (h : Kept d e) : Kept d (configWrite x e) := by
  unfold Machine.configWrite
  split
  · exact h
  split
  · exact .ite h.updHst h
  · exact .ite h.updHst h
  · exact .ite h.updHst h
  · exact h.updHst.dropVfs
  · exact h.updHst.dropVfs
  · exact .ite h.updHst.sendPending h
  · exact .ite h.updHst h
  · exact .ite h.updHst.sendPending h
  · exact h.updHst
  · exact h.updHst
  · exact .ite h.updAer h

theorem Kept.aerLog {f b hdr} (h : Kept d e) : Kept d (aerLog f b hdr e) := h.updAer

theorem Kept.urLogged {f hdr} (h : Kept d e) : Kept d (urLogged f hdr e) := h.aerLog.bump

theorem Kept.keepHeader {f addr len} (h : Kept d e) : Kept d (keepHeader f addr len e).2 := by
  unfold Machine.keepHeader
  exact .same h rfl

theorem Kept.signalUr {f} (h : Kept d e) : Kept d (signalUr f e) := .ite h.answer h

theorem Kept.hostFailed {f addr id k} (h : Kept d e) : Kept d (hostFailed f addr id k e) := by
  unfold Machine.hostFailed
  extract_lets e₁ hdr e₂ e₃
  have h₁ : Kept d e₁ := h.countLost
  clear_value e₁ hdr
  have h₂ : Kept d e₂ := by
    unfold e₂
    cases hdr with
    | none => exact h₁.urLogged.flag0
    | some x => exact h₁.urLogged
  clear_value e₂
  exact .ite h₂.signalUr.cper h₂.signalUr.cper.postBoth

theorem Kept.hostWriteFailed {f} (h : Kept d e) : Kept d (hostWriteFailed f e) := by
  unfold Machine.hostWriteFailed
  dsimp only
  split
  · split
    · exact .hostFailed (.same h rfl)
    · exact h
  · exact h

theorem Kept.hostFails {f addr k id} (h : Kept d e) : Kept d (hostFails f addr k id e) := h.launch

/-! ### Controller ports -/

theorem Kept.updTw {p f} (h : Kept d e) : Kept d (updTw p f e) := .same h rfl

theorem Kept.twCount {p j} (h : Kept d e) : Kept d (twCount p j e) := h.bump

theorem Kept.listEnds {p q status word detail} (h : Kept d e) : Kept d (listEnds p q status word detail e) := by
  unfold Machine.listEnds
  refine .push ?_
  split
  · exact h.wr.flag0
  · exact h.wr

theorem Kept.startNext {p} (h : Kept d e) : Kept d (startNext p e) := by
  unfold Machine.startNext
  dsimp only
  split
  · exact .ite h h.updTw.wr.twCount
  · exact h

theorem Kept.endRun {p status word detail} (h : Kept d e) : Kept d (endRun p status word detail e) := by
  unfold Machine.endRun
  split
  · exact h
  · exact .startNext (.ite h.updTw.listEnds h.updTw.listEnds.twCount)

theorem Kept.listAsked {p k a} (h : Kept d e) : Kept d (listAsked p k a e) :=
  .ite h.listEnds (.ite h.listEnds (.ite h.listEnds (.ite h.listEnds h.updTw.startNext)))

theorem Kept.listStopped {p who} (h : Kept d e) : Kept d (listStopped p who e) := by
  unfold Machine.listStopped
  extract_lets x e₁
  have h₁ : Kept d e₁ := h.updTw.each fun _ _ h => h.listEnds
  split
  · exact .ite h₁ (.ite h₁.endRun h₁.updTw)
  · exact h₁

theorem Kept.portDisabled {p} (h : Kept d e) : Kept d (portDisabled p e) := by
  unfold Machine.portDisabled
  exact (h.updTw.each (fun _ _ h => h.listEnds)).listStopped

theorem Kept.portStuck {p detail} (h : Kept d e) : Kept d (portStuck p detail e) :=
  h.updTw.flag0.endRun.each (fun _ _ h => h.listEnds)

theorem Kept.lineCheck {p l} (h : Kept d e) : Kept d (lineCheck p l e).2 := by
  unfold Machine.lineCheck
  split
  · exact h.updTw
  · split
    · exact h.twCount.updTw.flag0
    · exact h.twCount.portStuck
  · exact h.portStuck
  · exact h.portStuck

theorem Kept.injectedLines {p l} (h : Kept d e) : Kept d (injectedLines p l e).2 := by
  unfold Machine.injectedLines
  split
  · exact h.fired
  · exact h

theorem Kept.recoverBus {p l} (h : Kept d e) : Kept d (recoverBus p l e) :=
  .ite h.lineCheck.updTw.startNext h.lineCheck

theorem Kept.nextOp {p n} (h : Kept d e) : Kept d (nextOp p n e) := h.updTw

theorem Kept.attempt {p n r w out} {done : Dev → Dev} (hdone : ∀ e, Kept d e → Kept d (done e)) (h : Kept d e) :
    Kept d (attempt p n r w out done e) := by
  unfold Machine.attempt
  extract_lets target first inj e₀ e₁ put ends
  have h₀ : Kept d e₀ := h.updTw
  clear_value e₀
  have h₁ : Kept d e₁ := by
    dsimp only [e₁]
    rw [ite_apply]
    exact .ite (.twCount (.ite h₀.fired h₀)) (.ite h₀.fired h₀)
  have hput {r f} (h : Kept d f) : Kept d (put r f) := h.updTw
  have hends {s x f} (h : Kept d f) : Kept d (ends s x f) := h.endRun
  clear_value e₁ put ends
  split
  · exact .ite (hends h₁.twCount) (hput h₁.twCount)
  · exact .ite (hends h₁) (hput h₁)
  · exact hends h₁
  · exact .ite (hends h₁) (hdone _ h₁.nextOp)
  · exact hdone _ h₁.nextOp

theorem Kept.transaction {p op retry l out} {done : ListRun → ℕ → Dev → Dev}
    (hdone : ∀ r w e, Kept d e → Kept d (done r w e)) (h : Kept d e) :
    Kept d (transaction p op retry l out done e) := by
  unfold Machine.transaction
  extract_lets i c
  have hc : Kept d c.2 := h.injectedLines.lineCheck
  split
  · exact h
  split
  · exact h
  split
  · exact h
  · exact .ite h (.ite (hc.attempt fun _ h => hdone _ _ _ h) hc)

theorem Kept.readBuf {p bs} (h : Kept d e) : Kept d (readBuf p bs e) :=
  (h.foldBelow (fun _ _ h => h.wrF)).wr

theorem Kept.opDone {p op bs r w} (h : Kept d e) : Kept d (opDone p op bs r w e) := by
  unfold Machine.opDone
  split
  · exact .ite h h.endRun
  · exact h.readBuf
  · exact h

theorem Kept.listTxn {p op l out bs} (h : Kept d e) : Kept d (listTxn p op l out bs e) :=
  h.transaction (fun _ _ _ h => h.opDone)

theorem Kept.addrRetry {p l out bs} (h : Kept d e) : Kept d (addrRetry p l out bs e) :=
  h.transaction (fun _ _ _ h => h.opDone)

theorem Kept.arbRetry {p l out bs} (h : Kept d e) : Kept d (arbRetry p l out bs e) :=
  h.transaction (fun _ _ _ h => h.opDone)

theorem Kept.stretchTimeout {p l} (h : Kept d e) : Kept d (stretchTimeout p l e) := by
  unfold Machine.stretchTimeout
  split
  · exact h
  split
  · exact h
  · extract_lets op e₀ c
    have h₀ : Kept d e₀ := .ite h.twCount h
    have hc : Kept d c.2 := h₀.lineCheck
    exact .ite h (.ite hc.endRun hc)

theorem Kept.listDelay {p} (h : Kept d e) : Kept d (listDelay p e) := by
  unfold Machine.listDelay
  split
  · exact h
  split
  · exact h
  split
  · exact h
  split
  · exact h.updTw
  · exact .ite h.nextOp h

theorem Kept.listEnd {p} (h : Kept d e) : Kept d (listEnd p e) := by
  unfold Machine.listEnd
  split
  · exact h
  split
  · exact h.endRun
  split
  · exact h.endRun
  split
  · exact h.endRun
  · exact .ite h.endRun (.ite h.endRun h)

theorem Kept.listDirWrite {p k v} (h : Kept d e) : Kept d (listDirWrite p k v e) :=
  .ite h.flag0 h.wr

theorem Kept.lramNext {p} (h : Kept d e) : Kept d (lramNext p e) := h.wr

theorem Kept.lramWrite {p v} (h : Kept d e) : Kept d (lramWrite p v e) := by
  unfold Machine.lramWrite
  refine .lramNext ?_
  split
  · exact h.flag0
  · exact h.updTw

theorem Kept.voutWord {mv} (h : Kept d e) : Kept d (voutWord mv e).2 := by
  unfold Machine.voutWord
  extract_lets x n m v
  split
  · exact h
  · exact h.draw

theorem Kept.govWire {t} (h : Kept d e) : Kept d (govWire t e).2 := by
  unfold Machine.govWire
  split
  · exact h
  · exact h.voutWord
  · exact h

theorem Kept.govOnBus {l} {f : Dev → Dev} (hf : ∀ e, Kept d e → Kept d (f e)) (h : Kept d e) :
    Kept d (govOnBus l f e) := by
  unfold Machine.govOnBus
  extract_lets e₁ i c
  have h₁ : Kept d e₁ := hf _ h
  have hc : Kept d c.2 := h₁.twCount.twCount.injectedLines.lineCheck
  split
  · exact h
  · exact .ite h (.ite h₁.govFailed (.ite hc.govWire.updTw hc.govFailed))

theorem Kept.govFlags {status} (h : Kept d e) : Kept d (govFlags status e) := by
  unfold Machine.govFlags
  split
  · exact h.flag0.twCount
  · exact h.flag0
  · exact h.flag0
  · exact h.flag0
  · exact h.flag0
  · exact h

theorem Kept.govOffBus {status word l} (h : Kept d e) : Kept d (govOffBus status word l e) := by
  unfold Machine.govOffBus
  extract_lets inj e₀ st c
  have h₀ : Kept d e₀ := .ite h.fired h
  have hc : Kept d c.2 := h₀.lineCheck
  refine .ite h (.ite ?_ h₀.govFlags.pmbusDone.startNext)
  exact .ite hc.pmbusDone.startNext (.ite hc hc.govFlags.pmbusDone.startNext)

/-! ### The human interface -/

theorem Kept.updHmi {f} (h : Kept d e) : Kept d (updHmi f e) := .same h rfl

theorem Kept.updIn {i f} (h : Kept d e) : Kept d (updIn i f e) := .same h rfl

theorem Kept.showInput {i} (h : Kept d e) : Kept d (showInput i e) := h.wrB.wrB.wrB

theorem Kept.bump16 {k} (h : Kept d e) : Kept d (bump16 k e) := h.wr

theorem Kept.postLevel {i} (h : Kept d e) : Kept d (postLevel i e) := h.post.updIn

theorem Kept.hmiWaits {ev} (h : Kept d e) : Kept d (hmiWaits ev e) := h.updHmi.flag0

theorem Kept.hmiGoes {ev} (h : Kept d e) : Kept d (hmiGoes ev e) :=
  .ite h.updHmi (.ite h.postBoth (.ite h.updIn h.postLevel))

theorem Kept.flushWaiting (h : Kept d e) : Kept d (flushWaiting e) :=
  h.updHmi.each (fun _ _ h => h.hmiGoes)

theorem Kept.hmiRoom {full} (h : Kept d e) : Kept d (hmiRoom full e) := .ite h h.flushWaiting

theorem Kept.maskEvent {i sub full} (h : Kept d e) : Kept d (maskEvent i sub full e) :=
  .ite h (.ite h.hmiWaits h.hmiRoom.postBoth)

theorem Kept.levelWaits {i} (h : Kept d e) : Kept d (levelWaits i e) := .ite h h.updIn.hmiWaits

theorem Kept.gapOver {i full} (h : Kept d e) : Kept d (gapOver i full e) :=
  .ite h.updIn (.ite h.updIn.levelWaits h.updIn.postLevel)

theorem Kept.levelEvent {i full} (h : Kept d e) : Kept d (levelEvent i full e) := by
  unfold Machine.levelEvent
  extract_lets e₁ e₂ x inGap e₃
  have h₂ : Kept d e₂ := h.updIn.hmiRoom
  have h₃ : Kept d e₃ := h₂.updIn.bump16.flag0
  exact .ite h.updIn (.ite h₂.postLevel (.ite h₃.levelWaits (.ite h₃.gapOver h₃)))

theorem Kept.baseIs {c} (h : Kept d e) : Kept d (baseIs c e) := h.updIn.wr

theorem Kept.maskInput {i full} (h : Kept d e) : Kept d (maskInput i full e) :=
  .ite h (.ite h.updIn.showInput.flag0.maskEvent.baseIs h.updIn.showInput.flag0.maskEvent)

theorem Kept.injectStuck {i full} (h : Kept d e) : Kept d (injectStuck i full e) := by
  unfold Machine.injectStuck
  split
  · exact .ite h.fired.maskInput h
  · exact h

theorem Kept.levelChanged {i before full} (h : Kept d e) : Kept d (levelChanged i before full e) :=
  .ite h.showInput (.ite h.updIn.showInput (.ite h.updIn.showInput.injectStuck h.updIn.showInput.levelEvent))

theorem Kept.setLevel {i v full} (h : Kept d e) : Kept d (setLevel i v full e) :=
  h.updIn.levelChanged

theorem Kept.debounceEnds {i full} (h : Kept d e) : Kept d (debounceEnds i full e) :=
  .ite h h.setLevel

theorem Kept.pinChanges {i v full} (h : Kept d e) : Kept d (pinChanges i v full e) :=
  .ite h (.ite h.updIn h.updIn.showInput.debounceEnds)

theorem Kept.stuckEnds {i full} (h : Kept d e) : Kept d (stuckEnds i full e) :=
  .ite h.debounceEnds h.debounceEnds.maskInput

theorem Kept.rearmEnds {i full} (h : Kept d e) : Kept d (rearmEnds i full e) :=
  .ite h.debounceEnds h.debounceEnds.updIn.showInput.flag0.maskEvent

theorem Kept.gapEnds {i full} (h : Kept d e) : Kept d (gapEnds i full e) :=
  .ite h.hmiRoom.debounceEnds h.hmiRoom.debounceEnds.gapOver

theorem Kept.inputCfg {i v full} (h : Kept d e) : Kept d (inputCfg i v full e) := h.wr.levelChanged

theorem Kept.showTouch {c delta} (h : Kept d e) : Kept d (showTouch c delta e) := h.wr.wr

theorem Kept.setCandidate {c v} (h : Kept d e) : Kept d (setCandidate c v e) :=
  .ite h h.updIn.showInput

theorem Kept.moveBase {c delta} (h : Kept d e) : Kept d (moveBase c delta e) :=
  .ite h.baseIs.bump16.flag0 (.ite h.updIn h)

theorem Kept.scanChannel {c raw full} (h : Kept d e) : Kept d (scanChannel c raw full e) := by
  unfold Machine.scanChannel
  extract_lets e₁ first e₂ delta e₃ th e₄ x e₅ e₆
  have h₂ : Kept d e₂ := .ite h.updIn.baseIs h.updIn
  have h₃ : Kept d e₃ := .ite h₂ h₂.moveBase
  have h₄ : Kept d e₄ := .ite (.ite h₃ h₃.setCandidate) (.ite h₃.setCandidate h₃)
  have h₅ : Kept d e₅ := .ite h₄.setLevel h₄
  have h₆ : Kept d e₆ := .ite h₅.maskInput h₅
  exact h₆.rearmEnds.showTouch

theorem Kept.touchScan {raws slow full} (h : Kept d e) : Kept d (touchScan raws slow full e) := by
  unfold Machine.touchScan
  extract_lets next chans e₁ e₂
  have h₂ : Kept d e₂ := h.updHmi.each fun _ _ h => h.scanChannel
  exact .ite h (.ite h₂.flag0 h₂)

theorem Kept.rebase {cs} (h : Kept d e) : Kept d (rebase cs e) := h.each (fun _ _ h => h.updIn)

theorem Kept.scanCfg {v} (h : Kept d e) : Kept d (scanCfg v e) := h.wr.rebase

theorem Kept.hmiSleep (h : Kept d e) : Kept d (hmiSleep e) := by
  unfold Machine.hmiSleep
  exact ((h.each (fun _ _ h => .ite h.updIn h)).each (fun _ _ h => h.updIn)).updHmi

theorem Kept.dormantChannel {c th neg raw} (h : Kept d e) : Kept d (dormantChannel c th neg raw e) := by
  unfold Machine.dormantChannel
  extract_lets e₁ first e₂ x delta e₃ hit hitLevel miss missLevel e₆
  have h₂ : Kept d e₂ := .ite h.updIn.baseIs h.updIn
  have h₃ : Kept d e₃ := .ite h₂ (.ite h₂.baseIs.bump16.flag0 (.ite h₂.updIn h₂))
  have hhit : Kept d hitLevel := .ite h₃.updIn.setCandidate.setLevel h₃.updIn.setCandidate
  have hmiss : Kept d missLevel := h₃.updIn.setCandidate
  have h₆ : Kept d e₆ := .ite (.ite hhit.maskInput hhit) (.ite (.ite hmiss.setLevel hmiss) h₃.updIn)
  exact .ite h.rearmEnds h₆.rearmEnds

theorem Kept.dormantScan {rawA rawB} (h : Kept d e) : Kept d (dormantScan rawA rawB e) :=
  .ite h (h.updHmi.each (fun _ _ h => h.dormantChannel))

theorem Kept.wakeEvent {mgmt} (h : Kept d e) : Kept d (wakeEvent mgmt e) :=
  (((h.each (fun _ _ h => .ite h.updIn h)).each (fun _ _ h => .ite h.bump16.flag0 h)).each
    (fun _ _ h => h.updIn)).wakeSources

theorem Kept.aonCycle (h : Kept d e) : Kept d (aonCycle e) := h.wrap64By

theorem Kept.showInputs (h : Kept d e) : Kept d (showInputs e) := h.each (fun _ _ h => h.showInput)

theorem Kept.updLed {k f} (h : Kept d e) : Kept d (updLed k f e) := .wr (.same h rfl)

theorem Kept.ledRestart {k} (h : Kept d e) : Kept d (ledRestart k e) := h.updLed

theorem Kept.ledCtrl {k v} (h : Kept d e) : Kept d (ledCtrl k v e) := h.wr.ledRestart

theorem Kept.ledRestarts {mask} (h : Kept d e) : Kept d (ledRestarts mask e) :=
  h.each (fun _ _ h => h.ledRestart)

theorem Kept.ledAdvance {k} (h : Kept d e) : Kept d (ledAdvance k e) := .ite h h.updLed

theorem Kept.pwmBoundary {k} (h : Kept d e) : Kept d (pwmBoundary k e) := by
  unfold Machine.pwmBoundary
  exact h.updLed

/-! ### Background services and telemetry -/

theorem Kept.scrubRow {s} (h : Kept d e) : Kept d (scrubRow s e) := by
  unfold Machine.scrubRow
  extract_lets row next e₁ e₂ first bad e₃
  have h₁ : Kept d e₁ := h.updTlm
  clear_value e₁
  have h₂ : Kept d e₂ := .ite h₁.bumpWrap h₁
  clear_value e₂
  have h₃ : Kept d e₃ := h₂.readCells
  clear_value e₃
  exact .ite h (.ite h₂ (.same h₃ rfl))

theorem Kept.scrubWrite {s} (h : Kept d e) : Kept d (scrubWrite s e) := by
  unfold Machine.scrubWrite
  refine .each (fun _ _ h => ?_) (.same h rfl)
  split
  · exact h
  split
  · exact h.putCell
  · exact h

theorem Kept.patrolDebt (h : Kept d e) : Kept d (patrolDebt e) :=
  .ite h (h.updTlm.each (fun _ _ h => .ite h (.ite h.updStack.flag0 h.updStack)))

theorem Kept.recalPeriod {p v} (h : Kept d e) : Kept d (recalPeriod p v e) := by
  unfold Machine.recalPeriod
  exact h.wr.updTlm

theorem Kept.recalWindow {p c} (h : Kept d e) : Kept d (recalWindow p c e) :=
  .ite h (.ite h.flag0 h.updStack)

theorem Kept.marginProbe {ms} (h : Kept d e) : Kept d (marginProbe ms e) :=
  .ite h (.ite h.wr.updTlm.bootReleased
    (.ite (h.wr.limited (fun _ h => h.wr)).flag0.bump.updTlm h.wr.flag0.updTlm.bootReleased))

theorem Kept.agingMeasure {ppm} (h : Kept d e) : Kept d (agingMeasure ppm e) :=
  .ite h (h.updTlm.each (fun _ _ h => .ite h.wr.flag0 h.wr))

theorem Kept.tlmSample (h : Kept d e) : Kept d (tlmSample e) :=
  .ite h (((h.updTlm.wr64.wr.foldBelow (fun _ _ h => h.wr)).foldBelow (fun _ _ h => h.wr)).foldBelow
    (fun _ _ h => h.wr))

theorem Kept.runOn {k} (h : Kept d e) : Kept d (runOn k e) := .ite h.draw.wrap64By h

theorem Kept.tlmWrite {cmp a bs} (h : Kept d e) : Kept d (tlmWrite cmp a bs e).2 := by
  unfold Machine.tlmWrite
  exact h.ownWrite

theorem Kept.tlmModule (h : Kept d e) : Kept d (tlmModule e) := by
  unfold Machine.tlmModule
  exact .updTlm (.wr64 (.ite (h.draw.doIf (fun _ h => h.offlineAccess)).bumpWrap h.draw.tlmWrite))

theorem Kept.tlmCmp {n} (h : Kept d e) : Kept d (tlmCmp n e) :=
  .ite h (.updTlm (.wr64 (.ite h.runOn.tlmWrite h.runOn.tlmWrite.bumpWrap)))

theorem Kept.tlmRecord (h : Kept d e) : Kept d (tlmRecord e) :=
  .ite h (.each (fun _ _ h => h.tlmCmp) (.ite h.updTlm.tlmModule h.updTlm))

theorem Kept.snapTake (h : Kept d e) : Kept d (snapTake e) := h.updTlm.wrB

theorem Kept.tlmSnapshot (h : Kept d e) : Kept d (tlmSnapshot e) :=
  .ite h (((h.updTlm.wrB.each (fun _ _ h => h.runOn)).foldBelow (fun _ _ h => h.wr)).foldBelow
    (fun _ _ h => h.wr)).wr64.wr64

/-! ### Fuses and the boot flash -/

theorem Kept.progCmd {v} (h : Kept d e) : Kept d (progCmd v e) :=
  .ite h (.ite h.flag0.wr (.wr (.same h rfl)))

theorem Kept.rereadFuse {r} (h : Kept d e) : Kept d (rereadFuse r e) :=
  .ite h.readFuse.wr (.ite h.readFuse.wr h.readFuse)

theorem Kept.progDone {missA missB} (h : Kept d e) : Kept d (progDone missA missB e) := by
  unfold Machine.progDone
  split
  · exact h
  · extract_lets keep _ e₁ e₂
    have h₁ : Kept d e₁ := .rereadFuse (.blow (h.same rfl))
    have h₂ : Kept d e₂ := .ite h₁ h₁.flag0
    exact h₂.wr

theorem Kept.flashStart {op} (h : Kept d e) : Kept d (flashStart op e) :=
  .ite h (.wrB (.same h rfl))

theorem Kept.fillBuf {bs} (h : Kept d e) : Kept d (fillBuf bs e) := h.foldBelow (fun _ _ h => h.wrF)

theorem Kept.flashSilent (h : Kept d e) : Kept d (flashSilent e) := h.flag0

theorem Kept.flashTimeout {reader} (h : Kept d e) : Kept d (flashTimeout reader e) := by
  unfold Machine.flashTimeout
  split
  · exact .ite h (.ite h.refused.answer h.flashSilent.answer)
  split
  · exact .ite (.flashSilent (.wrB (.same h rfl))) h
  · exact h

/-! ### The integrity block -/

theorem Kept.setRate {n rate why} (h : Kept d e) : Kept d (setRate n rate why e) :=
  .ite h.wrF h.wrF.cper.post

theorem Kept.escalate {n u} (h : Kept d e) : Kept d (escalate n u e) :=
  .ite h (.ite h.setRate (.ite h.setRate (.ite h.flag0.cper.postBoth (.ite h.setRate h))))

theorem Kept.ledgerTake {n} (h : Kept d e) : Kept d (ledgerTake n e) :=
  h.each (fun _ _ h => h.ledWr64)

theorem Kept.ledgerClose {n} (h : Kept d e) : Kept d (ledgerClose n e) := by
  unfold Machine.ledgerClose
  extract_lets f p u low run _ e₁ bad e₂ a flags peak e₃ e₄
  have h₀ : Kept d f := h.ledgerTake
  clear_value f
  have h₁ : Kept d e₁ := .same h₀ rfl
  clear_value e₁
  have h₂ : Kept d e₂ := h₁.wr.escalate
  clear_value e₂
  have h₃ : Kept d e₃ := h₂.ledWr.ledWr
  clear_value e₃
  have h₄ : Kept d e₄ := h₃.ledWr64.ledWr.ledWr.ledWr
  clear_value e₄
  exact h₄.ledWr.ledWr.ledWr.ledWr

theorem Kept.ledgerUpset {word double} (h : Kept d e) : Kept d (ledgerUpset word double e) := by
  unfold Machine.ledgerUpset
  extract_lets n _ f
  have hf : Kept d f := h.flag0.cper
  clear_value f
  exact .ite (.same h rfl) (.ite h.flag0.cper hf.forgetLedger.ledWr)

theorem Kept.windowClosed (h : Kept d e) : Kept d (windowClosed e) := by
  have hf : Kept d (Machine.each (List.range 16) Machine.ledgerClose e) := h.each fun _ _ h => h.ledgerClose
  unfold Machine.windowClosed
  obtain ⟨close, hclose⟩ := exists_eq' (a' := Machine.ledgerClose)
  rw [hclose] at hf ⊢
  exact .same hf rfl

theorem Kept.ledgerWindowEnd {upset} (h : Kept d e) : Kept d (ledgerWindowEnd upset e) := by
  unfold Machine.ledgerWindowEnd
  split
  · exact h
  · refine .windowClosed ?_
    split
    · exact h.ledgerUpset
    · exact h

theorem Kept.lcfgWritten {n} (h : Kept d e) : Kept d (lcfgWritten n e) := .ite h h.setRate

theorem Kept.readCopy {n a} (h : Kept d e) : Kept d (readCopy n a e).2 := by
  induction n generalizing a e with
  | zero => exact h
  | succ n ih =>
    have hr := ih (h.readPiece (acc := digAcc) (a := a) (n := 64)) (a := a + 64)
    unfold Machine.readCopy
    generalize Machine.readPiece digAcc a 64 e = r at hr ⊢
    obtain ⟨_ | _ | _, f⟩ := r
    all_goals exact hr

theorem Kept.copyDigest {a len} (h : Kept d e) : Kept d (copyDigest a len e).2 := by
  unfold Machine.copyDigest
  exact h.readCopy

theorem Kept.copyOver {n src dst} (h : Kept d e) : Kept d (copyOver n src dst e) := by
  induction n generalizing src dst e with
  | zero => exact h
  | succ n ih =>
    have hr := h.readPiece (acc := digAcc) (a := src) (n := 64)
    unfold Machine.copyOver
    generalize Machine.readPiece digAcc src 64 e = r at hr ⊢
    obtain ⟨_ | _ | _, f⟩ := r
    · exact ih (Kept.ownWrite (e := f) hr)
    · exact ih hr
    · exact ih hr

theorem Kept.entryDigests {x} (h : Kept d e) : Kept d (entryDigests x e).2 := by
  unfold Machine.entryDigests
  split
  · exact .copyDigest (.ite h.copyDigest.fired h.copyDigest)
  · exact .ite h.copyDigest.fired h.copyDigest

theorem Kept.digestResult {r} (h : Kept d e) : Kept d (digestResult r e) :=
  .wrB (.wrF (.same h rfl))

theorem Kept.digestReport {elem sub x} (h : Kept d e) : Kept d (digestReport elem sub x e) :=
  h.flag0.cper.postBoth

theorem Kept.digPlan {bytes} (h : Kept d e) : Kept d (digPlan bytes e) := by
  unfold Machine.digPlan
  exact .same h rfl

theorem Kept.digestRepair {x goodA} (h : Kept d e) : Kept d (digestRepair x goodA e) := by
  unfold Machine.digestRepair
  extract_lets len a b f
  have hf : Kept d f := .digPlan (.ite h.copyOver h.copyOver)
  clear_value f
  exact .same hf rfl

theorem Kept.digestDone (h : Kept d e) : Kept d (digestDone e) := by
  unfold Machine.digestDone
  split
  · exact h
  · extract_lets len a b _ r _ _ e₁ goodA goodB
    have hr : Kept d r.2 := h.entryDigests
    have h₁ : Kept d e₁ := hr.same rfl
    refine .ite h (.ite (h.same rfl) (.ite h (.ite ?_ (.ite hr.digestResult ?_))))
    · exact .ite h₁.digestReport.digestResult h₁.digestReport.digestResult
    · exact .ite hr.digestRepair hr.digestReport.digestResult

theorem Kept.digRegister (h : Kept d e) : Kept d (digRegister e) := by
  conv in Machine.digRegister => delta Machine.digRegister
  obtain ⟨copy, hcopy⟩ := exists_eq' (a' := Machine.copyDigest)
  have hr {a n} := h.copyDigest (a := a) (len := n)
  rw [hcopy] at hr ⊢
  extract_lets a x r f v
  have hr : Kept d r.2 := hr
  have hv : Kept d v.2 := by
    dsimp only [v]
    split
    · exact hr
    · exact hr.draw
  exact .ite h.newDig.digCount hv.wr64.wr64.newDig.digCount

theorem Kept.digestBegin {scheduled a} (h : Kept d e) : Kept d (digestBegin scheduled a e) := by
  unfold Machine.digestBegin
  extract_lets x f
  have hf : Kept d f := h.digPlan
  clear_value f
  exact .digCount (.wrB (.same hf rfl))

theorem Kept.digCheckNow (h : Kept d e) : Kept d (digCheckNow e) := by
  unfold Machine.digCheckNow
  dsimp only
  split
  · exact h
  split
  · exact h.digestBegin
  · exact .same h rfl

theorem Kept.digRemove (h : Kept d e) : Kept d (digRemove e) := h.endChecks.newDig.digCount

theorem Kept.digestStart (h : Kept d e) : Kept d (digestStart e) := by
  unfold Machine.digestStart
  split
  · exact h
  · exact h.digestBegin
  · split
    · exact .ite h.digestBegin h
    · exact h

theorem Kept.digWatch (h : Kept d e) : Kept d (digWatch e) := .same h rfl

theorem Kept.digLates (h : Kept d e) : Kept d (digLates e) :=
  h.digWatch.each (fun _ _ h => .flag0 (.same h rfl))

theorem Kept.xcFinish {x} (h : Kept d e) : Kept d (xcFinish x e) := .post (.wrB (.same h rfl))

theorem Kept.xcStart {v} (h : Kept d e) : Kept d (xcStart v e) := by
  unfold Machine.xcStart
  extract_lets x _ e₁
  have h₁ : Kept d e₁ := .wr (.wr64 (h.same rfl))
  exact .ite h (.ite h₁.xcFinish h₁)

theorem Kept.xcRound {odd} (h : Kept d e) : Kept d (xcRound odd e) := by
  unfold Machine.xcRound
  split
  · exact h
  · extract_lets cs maj bad points y e₁ _ e₂
    have h₁ : Kept d e₁ := h.each fun _ _ h => h.flag0.cper.score
    have h₂ : Kept d e₂ := .wr (.wr64 (h₁.same rfl))
    exact .ite h₂.xcFinish h₂

theorem Kept.scoreDecay {code} (h : Kept d e) : Kept d (scoreDecay code e) := .ite h.setScore h

theorem Kept.setRetCursor {w v} (h : Kept d e) : Kept d (setRetCursor w v e) := .same h rfl

theorem Kept.retStatus {w} (h : Kept d e) : Kept d (retStatus w e).2 := by
  unfold Machine.retStatus
  exact h.setRetCursor

theorem Kept.retData {w} (h : Kept d e) : Kept d (retData w e).2 := by
  unfold Machine.retData
  exact h.ledgerRead.setRetCursor

/-! ### What registers show -/

theorem Kept.wordValue {k} (h : Kept d e) : Kept d (wordValue k e).2 := by
  unfold Machine.wordValue
  dsimp only
  split
  · exact h
  · exact h.draw

/-! ### Register reads and writes -/

theorem Kept.dropLatch {w} (h : Kept d e) : Kept d (dropLatch w e) := .same h rfl

theorem Kept.setLatch {w k v} (h : Kept d e) : Kept d (setLatch w k v e) := .same h rfl

theorem Kept.readClears {k} (h : Kept d e) : Kept d (readClears k e) := by
  unfold Machine.readClears
  dsimp only
  split
  · exact h
  split
  · refine .wr64 ?_
    split
    · exact h.wr64
    · exact h.wr
  · split
    · exact h.wr64
    · exact h.wr

theorem Kept.readActs {w k} (h : Kept d e) : Kept d (readActs w k e) :=
  .ite h.retStatus (.ite h.retData (.ite h.lramNext h.readClears))

theorem Kept.valueFor {w k} (h : Kept d e) : Kept d (valueFor w k e).2 := by
  unfold Machine.valueFor
  split
  · exact h.runOn.wordValue
  split
  · exact h.ctrLook.wordValue
  split
  · exact h
  · exact h.wordValue

theorem Kept.regRead_now {w k} (h : Kept d e) : Kept d (regRead.now w k e).2 := by
  unfold Machine.regRead.now
  extract_lets v x f
  have hf : Kept d f := .ite h.valueFor.wordValue.setLatch h.valueFor
  clear_value f
  exact hf.readActs

theorem Kept.regRead {w k} (h : Kept d e) : Kept d (regRead w k e).2 := by
  unfold Machine.regRead
  split
  · exact h.dropLatch
  split
  · exact h.dropLatch
  split
  · split
    · exact h.dropLatch
    · exact h.dropLatch.regRead_now
  · exact h.dropLatch.regRead_now

theorem Kept.regReadWide {w k} (h : Kept d e) : Kept d (regReadWide w k e).2 := by
  unfold Machine.regReadWide
  split
  · exact h.dropLatch.valueFor.wordValue.readActs
  · exact h.regRead.regRead.dropLatch

theorem Kept.unitResetReq {ty inst} (h : Kept d e) : Kept d (unitResetReq ty inst e) :=
  .ite h (.ite h.resetUnit
    (.ite h.resetUnit
    (.ite h.resetCluster (.ite h.enterReset.resetIntake (.ite h.enterReset.stackReset h.resetUnit)))))

theorem Kept.enableUnit {ty inst on} (h : Kept d e) : Kept d (enableUnit ty inst on e) := by
  unfold Machine.enableUnit
  extract_lets was st e₁ e₂
  have h₂ : Kept d e₂ := .ite h.wrB.setUnitState h.wrB
  exact .ite h (.ite h.flag0 (.ite h₂.portDisabled (.ite h₂.rebase h₂)))

theorem Kept.ctrlWrite {ty inst v} (h : Kept d e) : Kept d (ctrlWrite ty inst v e) := by
  unfold Machine.ctrlWrite
  extract_lets e₁ e₂
  have h₁ : Kept d e₁ := .ite h h.enableUnit
  have h₂ : Kept d e₂ := .ite h₁.unitResetReq h₁
  exact .ite h (.ite h₂.unitRequest (.ite h₂.unitRequest h₂))

theorem Kept.injectWrite {ty inst page v} (h : Kept d e) : Kept d (injectWrite ty inst page v e) :=
  .ite h (.ite h.arm.injectStuck h.arm)

theorem Kept.alertEdge {ty before} (h : Kept d e) : Kept d (alertEdge ty before e) := .ite h.push h

theorem Kept.maskWord {ty inst page v} (h : Kept d e) : Kept d (maskWord ty inst page v e) :=
  h.wr.alertEdge

theorem Kept.dbgWrite {core v} (h : Kept d e) : Kept d (dbgWrite core v e) :=
  .ite h.wr (.ite h.wr.updCore (.ite (.ite h.wr.updCore h.wr.updCore) h.wr))

theorem Kept.seenLines {p} (h : Kept d e) : Kept d (seenLines p e).2 := by
  unfold Machine.seenLines
  dsimp only
  split
  · exact h
  split
  · exact h.draw
  · exact h

theorem Kept.plainWrite {m k v} (h : Kept d e) : Kept d (plainWrite m k v e) := h.wr

theorem Kept.semOwnerWrite {s owner kind value} (h : Kept d e) : Kept d (semOwnerWrite s owner kind value e) :=
  h.owe (fun _ h => h.semOwned)

theorem Kept.semWrite {s hi v} (h : Kept d e) : Kept d (semWrite s hi v e) :=
  .ite h.semOwnerWrite h.semValue

theorem Kept.descCmd {s v} (h : Kept d e) : Kept d (descCmd s v e) := by
  unfold Machine.descCmd
  split
  · exact h.descRead
  · exact h.descCommit
  · exact h.descRelease
  · exact h.descModify

theorem Kept.cutCompartment {n kill} (h : Kept d e) : Kept d (cutCompartment n kill e) :=
  (h.each (fun _ _ h => h.listStopped)).stopGraphs

theorem Kept.cmpCommand {n v} (h : Kept d e) : Kept d (cmpCommand n v e) := by
  unfold Machine.cmpCommand
  refine .cmpCmd (fun _ h => ?_) h
  split
  · exact h.cmpActivate
  · exact .cmpReset (.ite h.cutCompartment h)
  · exact .cmpKill (.ite h h.cutCompartment)
  · exact h

theorem Kept.digCmd {v} (h : Kept d e) : Kept d (digCmd v e) := by
  unfold Machine.digCmd
  split
  · exact h.digRegister
  · exact h.digCheckNow
  · exact h.digRemove
  · exact h

theorem Kept.linkCmd {v} (h : Kept d e) : Kept d (linkCmd v e) := by
  unfold Machine.linkCmd
  split
  · exact h.stableLink
  · exact h.probeLink
  · exact h

theorem Kept.xspCmd {v} (h : Kept d e) : Kept d (xspCmd v e) := h.flashStart

theorem Kept.sleepReq (h : Kept d e) : Kept d (sleepReq e) :=
  .ite h.hmiSleep.linkFalls.dormantReq h.dormantReq

theorem Kept.sysCtrl {v} (h : Kept d e) : Kept d (sysCtrl v e) :=
  h.sysKey (fun _ h => .ite h.warmStart (.ite h.sleepReq h))

theorem KeptIf.blockWrite {w m k v} (h : Kept d e) : KeptIf d (blockWrite w m k v e) := by
  unfold Machine.blockWrite
  extract_lets i page off x
  clear_value i page off x
  split
  · exact .ite
      (.ite (.some h.sysCtrl)
      (.ite (.some h.wdtPeriodWrite) (.ite (.some h.wdtKick) (.ite (.some h.hostDoorbell) .none))))
      (.ite (.some (.ite h.wr h.wr.push)) .none)
  · exact .ite (.some (.doIf (fun _ h => h.refRestore) h.wr)) .none
  · exact .ite (.ite (.some h.govCtrl) (.ite (.some h.manualTarget) (.ite (.some (h.limited fun _ h => h.wr))
      (.ite (.some h.windowWrite) (.ite (.some h.wr.enrollKept) .none))))) (.ite (.some h.threshWrite) .none)
  · split
    · exact .ite (.some h.descCmd) .none
    · exact .ite (.some (h.owe fun _ h => h.updTally)) .none
    · exact .ite (.some h.semWrite) .none
    · exact .none
  · exact .ite (.ite (.some h.routeData) (.ite (.some (.ite h.startSwitch h)) (.ite (.some h.linkCmd) .none)))
      .none
  · exact .ite
      (.ite (.some (.ite h.stablePc h)) (.ite (.some (.ite h.spareWrite h)) (.ite (.some h.recalPeriod) .none)))
      .none
  · exact .ite (.ite (.some h.dbgWrite) (.ite (.some h.updCore) .none)) .none
  · exact .ite (.ite (.some (.ite h h.wr.updCore)) (.ite (.some h.dbgWrite) .none)) (.ite (.some h.wr) .none)
  · split
    · exact .ite (.some (h.doIf fun _ h => h.depotCheck fun _ h => h.epochBoundary)) .none
    · exact .ite (.some h.queueCmd) (.ite (.some h) .none)
    · exact .ite (.some (h.doIf fun _ h => h.depotCheck fun _ h => h.ctrClear)) .none
    · exact .none
  · exact .ite (.some h.cmpCommand)
      (.ite (.some h.coachMask) (.ite (.some h.otherMask) (.ite (.some (h.configure fun _ h => h.wr))
      (.ite (.some h.evqWrite) (.ite (.some h.stkWinWrite) (.ite (.some h) .none))))))
  · exact .ite (.ite (.some (.ite h.fsyncCtrl h)) (.ite (.some h) .none)) (.ite (.some h.portCtrl)
      (.ite (.some (.ite h.streamRelease.streamReplug h.streamRelease))
        (.ite (.some (.ite h.bindWrite h.bindField)) .none)))
  · exact .ite (.some h.graphCmd) .none
  · split
    · exact .ite (.some h.xcStart) (.ite (.some h.digCmd) .none)
    · exact .ite (.some h.wr.lcfgWritten) .none
    · exact .none
  · exact .ite (.some (.doIf (fun _ h => h.snapTake) h.wrF)) .none
  · exact .ite (.ite (.some h.vecBind) (.ite (.some h.msixWrite) .none)) .none
  · exact .ite (.ite (.some (.ite h.formCmd h)) .none) (.ite (.some h.portEnable) .none)
  · exact .ite (.some (.ite h.listAsked h))
      (.ite (.some (.ite h.seenLines.recoverBus h)) (.ite (.some h.lramWrite)
      (.ite (.some h.listDirWrite) (.ite (.some h.wr) .none))))
  · exact .ite (.ite (.some h.scanCfg) (.ite (.some h.inputCfg) .none))
      (.ite (.some h.ledCtrl) (.ite (.some h.ledRestarts) .none))
  · exact .ite (.some h.progCmd) .none
  · exact .ite (.some h.xspCmd) .none
  · exact .none

theorem Kept.storeWord {w m k v} (h : Kept d e) : Kept d (storeWord w m k v e) := by
  unfold Machine.storeWord
  extract_lets ty i page
  split
  · exact h.ctrlWrite
  · exact .ite h.clearSticky h
  · exact .ite h.maskWord h
  · exact .ite h.injectWrite h
  · exact .ite h.wr h
  · refine .ite h (.ite (.ite h.rearm h) ?_)
    split
    · exact KeptIf.blockWrite h _ ‹_›
    · exact h.plainWrite

theorem Kept.regWrite {w k v} (h : Kept d e) : Kept d (regWrite w k v e).2 := by
  unfold Machine.regWrite
  split
  · exact h.dropLatch
  split
  · exact h.dropLatch
  split
  · exact h.dropLatch
  · exact h.dropLatch.storeWord

theorem Kept.actsWide {k v} {f : Nat → Dev → Dev} (hf : actsWide k = some f) (h : Kept d e) :
    Kept d (f v e) := by
  unfold Machine.actsWide at hf
  extract_lets i off at hf
  split at hf
  · cases hf
    exact h.coachMask
  · split at hf
    · cases hf
      exact h.stkWinWrite
    · split at hf
      · cases hf
        exact h.semOwnerWrite
      · split at hf
        · cases hf
          exact h.updCore
        · cases hf

theorem Kept.regWriteWide {w k v} (h : Kept d e) : Kept d (regWriteWide w k v e).2 := by
  unfold Machine.regWriteWide
  split
  · next heq _ =>
    split at heq
    · exact Kept.actsWide heq h.dropLatch
    · cases heq
  · exact h.regWrite.regWrite

/-! ### Accesses of units -/

theorem Kept.readLramCell {n} (h : Kept d e) : Kept d (readLramCell n e).2 := by
  unfold Machine.readLramCell
  extract_lets core off k place
  split
  · exact h
  · exact h
  · exact h.bump.flag0.cper.beside
  · extract_lets e₁ e₂
    have h₁ : Kept d e₁ := h.putLramCell.bump
    clear_value e₁
    have h₂ : Kept d e₂ := .ite h₁ h₁.wr64
    clear_value e₂
    exact h₂.flag0.cper.score.beside

theorem Kept.readLramCells {n k} (h : Kept d e) : Kept d (readLramCells n k e).2 := by
  induction k generalizing n e with
  | zero => exact h
  | succ k ih =>
    rw [Machine.readLramCells]
    exact ih h.readLramCell

theorem Kept.readLram {o len} (h : Kept d e) : Kept d (readLram o len e).2 := by
  unfold Machine.readLram
  exact h.readLramCells

theorem Kept.mergeLram {n bs} (h : Kept d e) : Kept d (mergeLram n bs e) := by
  unfold Machine.mergeLram
  refine .putLramCell ?_
  split
  · exact h
  · exact h.readLramCell

theorem Kept.writeLram {o bs} (h : Kept d e) : Kept d (writeLram o bs e) :=
  h.foldBelow (fun _ _ h => h.mergeLram)

theorem Kept.upsetLram {o bits} (h : Kept d e) : Kept d (upsetLram o bits e) := h.putLramCell

theorem Kept.writeLedgerByte {o b} (h : Kept d e) : Kept d (writeLedgerByte o b e) := h.ledWr

theorem Kept.writeLedger {o bs} (h : Kept d e) : Kept d (writeLedger o bs e) :=
  h.foldBelow (fun _ _ h => h.writeLedgerByte)

theorem Kept.refusedAt {acc a} (h : Kept d e) : Kept d (refusedAt acc a e) := h.refused

theorem Kept.keepRead {hh} (h : Kept d e) : Kept d (keepRead hh e) := .same h rfl

theorem Kept.pageHold {acc k n tag} (h : Kept d e) : Kept d (pageHold acc k n tag e) := h.keepRead

theorem Kept.readPage {acc k len} (h : Kept d e) : Kept d (readPage acc k len e).2 := by
  unfold Machine.readPage
  dsimp only
  split
  · exact h.ctrLook
  split
  · split
    · exact h.regRead
    split
    · exact h.regReadWide
    · exact h.dropLatch
  · refine .refusedReg ?_
    split
    · exact h.regRead
    split
    · exact h.regReadWide
    · exact h.dropLatch

theorem Kept.writePage {acc k bs} (h : Kept d e) : Kept d (writePage acc k bs e).2 := by
  unfold Machine.writePage
  extract_lets r
  have hr : Kept d r.2 := by
    dsimp only [r]
    split
    · exact h.regWrite
    split
    · exact h.regWriteWide
    · exact h.dropLatch
  clear_value r
  split
  · exact hr
  split
  · exact hr.refused.beside
  · exact hr.refusedReg.beside

theorem Kept.windowRefused {acc q off} (h : Kept d e) : Kept d (windowRefused acc q off e) :=
  h.refused

theorem Kept.readWindow {acc q off len} (h : Kept d e) : Kept d (readWindow acc q off len e).2 := by
  unfold Machine.readWindow
  split
  · exact h
  · exact h.windowRefused

theorem Kept.writeWindow {acc q off bs} (h : Kept d e) : Kept d (writeWindow acc q off bs e).2 := by
  unfold Machine.writeWindow
  dsimp only
  split
  · exact h.offerWindow
  split
  · split
    · exact h.cqHead
    · exact h.windowRefused
  · exact h.windowRefused

theorem Kept.busRead {acc a len} (h : Kept d e) : Kept d (busRead acc a len e).2 := by
  unfold Machine.busRead
  split
  · exact h.decodeError
  split
  · exact h.memRead
  · split
    · exact h.readLram
    · exact h.refusedAt
  · split
    · exact h
    · exact h.refusedAt
  · split
    · exact h.ledgerRead
    · exact h.refusedAt
  · exact h.readPage
  · exact h.readWindow
  · split
    · exact h
    · exact h.refusedAt
  · exact h.decodeError
  · exact h.decodeError

theorem Kept.directWrite {acc a bs} (h : Kept d e) : Kept d (directWrite acc a bs e).2 := by
  unfold Machine.directWrite
  split
  · exact h.decodeError
  split
  · split
    · exact h.writeLram
    · exact h.refusedAt
  · split
    · exact h.writeLedger.ledgerMended
    · exact h.refusedAt
  · exact h.writePage
  · exact h.writeWindow
  · exact h.decodeError

theorem Kept.sendBus {acc a} (h : Kept d e) : Kept d (sendBus acc a e).2 := by
  unfold Machine.sendBus
  split
  · exact h.sendOff
  split
  · exact h.sendTo
  · exact h

theorem Kept.wayParity {acc a} (h : Kept d e) : Kept d (wayParity acc a e) := by
  unfold Machine.wayParity
  split
  · exact h.pathParity
  · exact h.cper
  · exact h.cper

theorem Kept.lostAsk {acc a what} (h : Kept d e) : Kept d (lostAsk acc a what e) := .same h rfl

/-! ### Engines -/

theorem Kept.engFlag {u n detail} (h : Kept d e) : Kept d (engFlag u n detail e) := h.flag0

theorem Kept.setEng {u x} (h : Kept d e) : Kept d (setEng u x e) := .same h rfl

theorem Kept.jobEnds {u status} (h : Kept d e) : Kept d (jobEnds u status e) := h.setEnding

theorem Kept.badJob {u code} (h : Kept d e) : Kept d (badJob u code e) := h.engFlag.jobEnds

theorem Kept.engPiece {u acc a n} (h : Kept d e) : Kept d (engPiece u acc a n e).2 := by
  unfold Machine.engPiece
  dsimp only
  split
  · exact h
  split
  · split
    · exact h.readPiece
    split
    · exact h.sendBus.timedOut
    split
    · exact h.sendBus.busRead.timedOut
    · exact h.sendBus.busRead.wayParity
    · exact h.sendBus.busRead
  · exact h.decodeError

theorem Kept.loadPieces {u acc ps l} (h : Kept d l.d) : Kept d (loadPieces u acc ps l).2.d := by
  induction ps generalizing l with
  | nil => exact h
  | cons p ps ih =>
    obtain ⟨a, n⟩ := p
    have hr := h.engPiece (u := u) (acc := acc) (a := a) (n := n)
    unfold Machine.loadPieces
    split
    · exact h
    · generalize Machine.engPiece u acc a n l.d = r at hr ⊢
      obtain ⟨_ | _ | _, f⟩ := r
      · exact ih (Kept.foldAccess (e := f) hr)
      · exact hr
      · exact h

theorem Kept.askPiece {u acc p} (h : Kept d e) : Kept d (askPiece u acc p e) := by
  unfold Machine.askPiece
  split
  · exact h
  split
  · exact h
  split
  · exact h.farAsk.setEng
  · exact h.outRead.setEng

theorem Kept.jobHolds {u acc l} (h : Kept d e) : Kept d (jobHolds u acc l e) :=
  .each (fun _ _ h => h.askPiece) (.same h rfl)

theorem Kept.pieceBack {u a x} (h : Kept d e) : Kept d (pieceBack u a x e) := h.setEng

theorem Kept.loadRow {u acc x r l} (h : Kept d l.d) : Kept d (loadRow u acc x r l).2.d := by
  unfold Machine.loadRow
  extract_lets p q
  have hp : Kept d p.2.d := h.loadPieces
  clear_value p
  have hq : Kept d q.2.d := by
    dsimp only [q]
    split
    · exact hp
    · exact hp.loadPieces
  clear_value q
  split
  · exact hq
  · exact hq

theorem Kept.loadGrid {u acc x lo hi l} (h : Kept d l.d) : Kept d (loadGrid u acc x lo hi l).2.d := by
  refine Kept.foldlBy (fun g : Grid × Load => g.2.d) (fun g r hg => ?_) h
  dsimp only
  split
  · exact hg
  · exact hg.loadRow

theorem Kept.engSend {acc tag a bs} (h : Kept d e) : Kept d (engSend acc tag a bs e) := by
  unfold Machine.engSend
  dsimp only
  split
  · exact h.decodeError.launch
  · exact h.farWrite
  · split
    · exact h.outWrite
    split
    · exact h.sendWrite
    split
    · exact h.sendBus.launch
    · exact h.sendBus.wayParity.launch
    · exact h.sendBus.directWrite.launch
    · exact h.sendBus.directWrite.launch

theorem Kept.engWrite {u r ps} (h : Kept d e) : Kept d (engWrite u r ps e) :=
  h.each (fun _ _ h => .ite h.foldAccess.engSend h.foldAccess)

theorem Kept.emitRow {u run o r x0 vs} (h : Kept d e) : Kept d (emitRow u run o r x0 vs e) := by
  unfold Machine.emitRow
  refine .bump64By ?_
  refine .bump64By ?_
  split
  · exact h.engWrite
  · exact h.engWrite.engWrite

theorem Kept.jobInjected {u l} (h : Kept d e) : Kept d (jobInjected u l e) := by
  unfold Machine.jobInjected
  split
  · exact .ite h h.fired
  · exact h

theorem Kept.stateSpoilt {u l} (h : Kept d e) : Kept d (stateSpoilt u l e) :=
  .each (fun _ _ h => h.bumpBy.bumpBy.engFlag) (.ite h.fired h)

theorem Kept.poisonIn {u l} (h : Kept d e) : Kept d (poisonIn u l e) :=
  .stateSpoilt (.ite h.jobInjected h.jobInjected.bumpBy.engFlag.setEng)

theorem Kept.jobDone {u steps} (h : Kept d e) : Kept d (jobDone u steps e) :=
  h.tcount.bump64By.setEng

theorem Kept.afterLoad {u l} {f : Dev → Dev} (hf : ∀ e, Kept d e → Kept d (f e)) (hl : Kept d l.d)
  (h : Kept d e) :
    Kept d (afterLoad u l e f) := by
  unfold Machine.afterLoad
  refine .ite ?_ (.ite hl.poisonIn.jobEnds (hf _ hl.poisonIn))
  split
  · exact h.jobHolds
  · exact h

theorem Kept.jobStart {u n check} (h : Kept d e) : Kept d (jobStart u n check e) := by
  unfold Machine.jobStart
  split
  · exact h
  · refine .ite h (.ite h.setEng.badJob ?_)
    extract_lets l f ws c
    have hl : Kept d l.2.d := Kept.loadPieces (l := { d := e }) h
    clear_value l
    have hf : Kept d f := hl.setEng
    clear_value f
    exact .ite h.jobHolds (.ite hf.badJob (.ite hf.engFlag.jobEnds (.ite hf.setEng hf.badJob)))

theorem Kept.jobEnd {u} (h : Kept d e) : Kept d (jobEnd u e) := by
  unfold Machine.jobEnd
  split
  · exact h
  · exact .ite h.bump.setRun h

/-! ### Pyramids -/

theorem Kept.pyrLevels {u acc ws j l} (h : Kept d l.d) : Kept d (pyrLevels u acc ws j l).2.d := by
  unfold Machine.pyrLevels
  extract_lets exact ns g₀
  have h₀ : Kept d g₀.2.d := h.loadGrid
  clear_value g₀
  refine Kept.foldlBy (fun s : List Grid × Load => s.2.d) (fun s k hs => ?_) h₀
  extract_lets hi from_ old g
  show Kept d old.2.d
  dsimp only [old]
  split
  · exact hs.loadGrid
  · exact hs

theorem Kept.eachRow {lo hi} {f : ℕ → Dev → Dev} (hf : ∀ i e, Kept d e → Kept d (f i e)) (h : Kept d e) :
    Kept d (eachRow lo hi f e) :=
  h.each hf

theorem Kept.pyrLoad {u r ws parity} (h : Kept d e) : Kept d (pyrLoad u r ws parity e).2.d :=
  Kept.pyrLevels (l := { d := e, marks := jobMarks e u parity }) h

theorem Kept.pyrWrites {u r ws levels} (h : Kept d e) : Kept d (pyrWrites u r ws levels e) := by
  unfold Machine.pyrWrites
  extract_lets j grid out e₁ e₂
  have h₁ : Kept d e₁ := h.each fun _ _ h => h.eachRow fun _ _ h => h.emitRow
  have h₂ : Kept d e₂ := h₁.doIf fun _ h => h.each fun _ _ h => h.eachRow fun _ _ h => h.emitRow
  exact h₂.doIf fun _ h => h.eachRow fun _ _ h => h.emitRow

theorem Kept.pyrRun {u parity} (h : Kept d e) : Kept d (pyrRun u parity e) := by
  unfold Machine.pyrRun
  split
  · exact h
  · exact .afterLoad (fun _ h => h.pyrWrites.jobDone) h.pyrLoad h

/-! ### Stereo -/

theorem Kept.loadState {u acc j mark l} (h : Kept d l.d) : Kept d (loadState u acc j mark l).2.d := by
  refine Kept.foldlBy (fun s : Below × Load => s.2.d) (fun s x hs => ?_) h
  dsimp only
  split
  · exact hs
  · exact hs.loadPieces

theorem Kept.emitBits {u run base wb w r es} (h : Kept d e) : Kept d (emitBits u run base wb w r es e) :=
  h.engWrite

theorem Kept.strLoad {u r ws parity} (h : Kept d e) : Kept d (strLoad u r ws parity e).2.d := by
  unfold Machine.strLoad
  extract_lets j acc hh lo hi gl gr parr gp st
  have hl : Kept d gl.2.d := Kept.loadGrid (l := { d := e, marks := jobMarks e u parity }) h
  clear_value gl
  have hr : Kept d gr.2.d := hl.loadGrid
  clear_value gr
  have hp : Kept d gp.2.d := by
    dsimp only [gp]
    split
    · exact hr.loadGrid
    · exact hr
  clear_value gp
  dsimp only [st]
  split
  · exact hp.loadState
  · exact hp

theorem Kept.strWrites {u r ws left right prior below} (h : Kept d e) :
    Kept d (strWrites u r ws left right prior below e) := by
  unfold Machine.strWrites
  extract_lets j cl cr rows scale offset arr e₁
  have h₁ : Kept d e₁ :=
    h.each fun _ _ h => (Kept.ite h.emitBits h.emitBits.emitBits).bump64By.bump64By.bumpBy.bumpBy
  split
  · exact .ite h₁.engWrite h₁
  · exact h₁

theorem Kept.strRun {u parity} (h : Kept d e) : Kept d (strRun u parity e) := by
  unfold Machine.strRun
  split
  · exact h
  · exact .afterLoad (fun _ h => h.strWrites.jobDone) h.strLoad h

/-! ### Flow -/

theorem Kept.flwLoad {u r ws parity} (h : Kept d e) : Kept d (flwLoad u r ws parity e).2.d := by
  unfold Machine.flwLoad
  extract_lets j acc parr l₀ gp reach gc pr gq
  have h₀ : Kept d l₀.d := h
  clear_value l₀
  have hp : Kept d gp.2.d := by
    dsimp only [gp]
    split
    · exact h₀.loadGrid
    · exact h₀
  clear_value gp
  have hc : Kept d gc.2.d := hp.loadGrid
  clear_value gc
  exact hc.loadGrid

theorem Kept.flwWrites {u r ws prior current previous} (h : Kept d e) :
    Kept d (flwWrites u r ws prior current previous e) :=
  h.eachRow (fun _ _ h => .bumpBy (.bumpBy (.bump64By (.bump64By (.ite h.emitBits h.emitBits.emitBits)))))

theorem Kept.flwRun {u parity} (h : Kept d e) : Kept d (flwRun u parity e) := by
  unfold Machine.flwRun
  split
  · exact h
  · exact .afterLoad (fun _ h => h.flwWrites.jobDone) h.flwLoad h

/-! ### Warps -/

theorem Kept.loadMesh {u acc j base m0 m1 n0 n1 l} (h : Kept d l.d) :
    Kept d (loadMesh u acc j base m0 m1 n0 n1 l).2.d := by
  refine Kept.foldlBy (fun g : Grid × Load => g.2.d) (fun g k hg => ?_) h
  dsimp only
  split
  · exact hg.loadPieces
  · exact hg.loadPieces

theorem Kept.wrpLoad {u r ws parity} (h : Kept d e) : Kept d (wrpLoad u r ws parity e).2.d := by
  unfold Machine.wrpLoad
  extract_lets j acc m0 n0 m1 n1 l₀ nodes pos rows taken span arr img l₁
  have h₀ : Kept d l₀.d := h
  clear_value l₀
  have hn : Kept d nodes.2.d := by
    dsimp only [nodes]
    split
    · exact h₀.loadMesh
    · exact h₀
  have himg : Kept d img.2.d := by
    dsimp only [img]
    split
    · exact hn
    · exact hn.loadGrid
  exact himg

theorem Kept.wrpWrites {u r ws taps img} (h : Kept d e) : Kept d (wrpWrites u r ws taps img e) :=
  h.each (fun _ _ h => h.emitRow)

theorem Kept.wrpRun {u parity} (h : Kept d e) : Kept d (wrpRun u parity e) := by
  unfold Machine.wrpRun
  split
  · exact h
  · exact .afterLoad (fun _ h => h.wrpWrites.bumpBy.jobDone) h.wrpLoad h

/-! ### Features -/

theorem Kept.detectLoad {u r ws parity} (h : Kept d e) : Kept d (detectLoad u r ws parity e).2.d :=
  Kept.foldlBy (fun s : List Grid × Load => s.2.d) (fun _ _ hs => hs.loadGrid) h

theorem Kept.detectWrites {u r ws levels} (h : Kept d e) : Kept d (detectWrites u r ws levels e) := by
  unfold Machine.detectWrites
  extract_lets j grid fs out dropped desc recs e₁ e₂ sum e₃ e₄
  have h₁ : Kept d e₁ := h.engWrite
  have h₂ : Kept d e₂ := .ite h₁ h₁.engWrite
  have h₃ : Kept d e₃ := h₂.engWrite
  have h₄ : Kept d e₄ := by
    unfold e₄ dropped
    split
    · exact h₃.bumpBy.engFlag
    · exact h₃
  exact h₄.bump64By.bump64By

theorem Kept.detectRun {u parity} (h : Kept d e) : Kept d (detectRun u parity e) := by
  unfold Machine.detectRun
  split
  · exact h
  · exact .ite h (.afterLoad (fun _ h => h.detectWrites.jobDone) h.detectLoad h)

theorem Kept.loadCount {u acc a l} (h : Kept d l.d) : Kept d (loadCount u acc a l).2.d := by
  unfold Machine.loadCount
  extract_lets p
  have hp : Kept d p.2.d := h.loadPieces
  clear_value p
  split
  · exact hp
  · exact hp

theorem Kept.loadFeats {u acc feat desc n l} (h : Kept d l.d) : Kept d (loadFeats u acc feat desc n l).2.d := by
  refine Kept.foldlBy (fun s : Array MFeat × Load => s.2.d) (fun s i hs => ?_) h
  extract_lets p c b x idx q y
  have hp : Kept d p.2.d := hs.loadPieces
  clear_value p
  have hc : Kept d c.2.d := hp
  clear_value c
  have hq : Kept d q.2.d := hc.loadPieces
  clear_value q
  split
  · exact hp
  split
  · exact hc
  · exact hq

theorem Kept.matchCounts {u r ws parity} (h : Kept d e) : Kept d (matchCounts u r ws parity e).2.d :=
  Kept.loadCount (Kept.loadCount (l := { d := e, marks := jobMarks e u parity }) h)

theorem Kept.matchLoad {u r ws nq nt l} (h : Kept d l.d) :
    Kept d (matchLoad u r ws nq nt l e).2.d := h.loadFeats.loadFeats

theorem Kept.matchWrites {u r ws nq nt qs ts} (h : Kept d e) : Kept d (matchWrites u r ws nq nt qs ts e) :=
  h.engWrite.engWrite.bump64By.bump64By

theorem Kept.matchRun {u parity} (h : Kept d e) : Kept d (matchRun u parity e) := by
  unfold Machine.matchRun
  split
  · exact h
  · extract_lets n nq nt fs
    have hn : Kept d n.2.d := h.matchCounts
    clear_value n
    exact .ite h (.ite h.jobHolds (.ite hn.poisonIn.jobEnds (.ite hn.poisonIn.badJob
      (.afterLoad (fun _ h => h.matchWrites.jobDone) hn.matchLoad h))))

theorem Kept.engineStart {u} (h : Kept d e) : Kept d (engineStart u e) := by
  unfold Machine.engineStart
  split
  · exact h.jobStart
  · exact h.jobStart
  · exact h.jobStart
  · exact h.jobStart
  · exact h.jobStart

/-! ### Host requests -/

theorem Kept.hostReadRefused {f k} (h : Kept d e) : Kept d (hostReadRefused f k e) :=
  h.urLogged.answer

theorem Kept.functionReset {f} (h : Kept d e) : Kept d (functionReset f e) :=
  .ite h (.ite h.pfReset (.ite h.vfReset.cutCompartment.wrB.cmpResetStart h.vfReset))

theorem Kept.hostWay {f write bar4 a id} {fails : Dev → Dev} {go : Bool → Dev → Dev}
    (hfails : ∀ e, Kept d e → Kept d (fails e)) (hgo : ∀ late e, Kept d e → Kept d (go late e)) (h : Kept d e) :
    Kept d (hostWay f write bar4 a id fails go e) := by
  unfold Machine.hostWay
  dsimp only
  split
  · exact hfails _ h.decodeError
  · have hbus := h.sendBus (acc := hostAcc f write bar4) (a := a)
    split
    · exact hbus.launch
    · exact hgo _ _ hbus
    · exact hgo _ _ hbus
    · have hgone := hgo false _ hbus
      exact .ite (hbus.unanswered (hgone.same rfl)) (.launch (hgone.same rfl))

theorem Kept.hostPoisoned {f len} (h : Kept d e) : Kept d (hostPoisoned f len e) := h.answer

theorem Kept.hostData {spoiled acc f a n o} (h : Kept d e) : Kept d (hostData spoiled acc f a n o e) :=
  .ite h.wayParity.hostPoisoned h.tcount.answer

theorem Kept.hostSpoiled {f a id} (h : Kept d e) : Kept d (hostSpoiled f a id e) :=
  h.wayParity.hostFails

theorem Kept.bar0Read {f o wide} (h : Kept d e) : Kept d (bar0Read f o wide e) := by
  unfold Machine.bar0Read
  dsimp only
  refine .hostWay (fun _ h => h.hostReadRefused) (fun _ _ h => ?_) h
  split
  · exact h.readPage.hostData
  · exact h.readPage.hostReadRefused
  · exact h.readPage.answer.pageHold

theorem Kept.bar0Write {f o v wide id} (h : Kept d e) : Kept d (bar0Write f o v wide id e) := by
  unfold Machine.bar0Write
  dsimp only
  refine .hostWay (fun _ h => h.hostFails) (fun _ _ h => ?_) h
  split
  · exact h.hostSpoiled
  split
  · exact h.tcount.writePage.hostFails
  · exact h.tcount.writePage

theorem Kept.bar2Enqueue {f q img id} (h : Kept d e) : Kept d (bar2Enqueue f q img id e) := by
  unfold Machine.bar2Enqueue
  refine h.hostWay (fun _ h => h.hostFails) fun _ _ h => ?_
  exact .ite h.hostSpoiled (.ite h.tcount.offerWindow h.windowRefused.hostFails)

theorem Kept.bar2Read {f q} (h : Kept d e) : Kept d (bar2Read f q e) := by
  unfold Machine.bar2Read
  dsimp only
  refine .hostWay (fun _ h => h.hostReadRefused) (fun _ _ h => ?_) h
  split
  · refine .hostData ?_
    split
    · exact h.readWindow
    · exact h.windowRefused
  · refine .hostReadRefused ?_
    split
    · exact h.readWindow
    · exact h.windowRefused
  · split
    · exact h.readWindow
    · exact h.windowRefused

theorem Kept.bar2Head {f q v id} (h : Kept d e) : Kept d (bar2Head f q v id e) := by
  unfold Machine.bar2Head
  dsimp only
  refine .hostWay (fun _ h => h.hostFails) (fun _ _ h => ?_) h
  split
  · exact h.hostSpoiled
  split
  · refine .hostFails ?_
    split
    · exact h.tcount.writeWindow
    · exact h.windowRefused
  · split
    · exact h.tcount.writeWindow
    · exact h.windowRefused

theorem Kept.bar4Read {f a len} (h : Kept d e) : Kept d (bar4Read f a len e) := by
  unfold Machine.bar4Read
  dsimp only
  split
  · exact h.refused.hostReadRefused
  split
  · exact h.decodeError.hostReadRefused
  · refine .hostWay (fun _ h => h.hostReadRefused) (fun _ _ h => ?_) h
    split
    · exact h.memRead.hostData
    · exact .ite h.memRead.hostReadRefused h.memRead.hostPoisoned
    · exact h.memRead.hold

theorem Kept.bar4Write {f a bs id} (h : Kept d e) : Kept d (bar4Write f a bs id e) :=
  .ite h.refused.hostFails
    (.ite h.decodeError.hostFails (h.hostWay (fun _ h => h.hostFails) (fun _ _ h => h.tcount.postWrite)))

theorem Kept.hostEffect {hh} (h : Kept d e) : Kept d (hostEffect hh e) := by
  unfold Machine.hostEffect
  split
  · exact h.onWay.bar0Write
  · exact h.onWay.bar0Read
  · exact h.onWay.bar2Enqueue
  · exact h.onWay.bar2Head
  · exact h.onWay.bar2Read
  · exact h.onWay.bar4Write
  · exact h.onWay.bar4Read

theorem Kept.drainHost {n} (h : Kept d e) : Kept d (drainHost n e) := by
  induction n generalizing e with
  | zero => exact h
  | succ n ih =>
    unfold Machine.drainHost
    split
    · exact h
    · exact .ite (ih (.hostEffect (.same h rfl))) h

theorem Kept.hostArrives {hh} (h : Kept d e) : Kept d (hostArrives hh e) := by
  unfold Machine.hostArrives
  refine .drainHost ?_
  split
  · exact .same h rfl
  split
  · exact .answer (.same h rfl)
  · exact .answer (.same h rfl)
  · exact .answer (.same h rfl)
  · exact .same h rfl

theorem Kept.inboundWrite {f addr len ep m req} (h : Kept d e) :
    Kept d (inboundWrite f addr len ep m req e) := by
  unfold Machine.inboundWrite
  extract_lets inj e₀ kept hdr
  have h₀ : Kept d e₀ := .ite h.fired h
  have hkept : Kept d kept.2 := h₀.bump.keepHeader
  exact .ite hkept.aerLog.flag0.hostFails hkept.hostArrives

theorem Kept.unclaimed {f read addr len} (h : Kept d e) : Kept d (unclaimed f read addr len e) :=
  .ite h (.ite (.answer (.ite h.bump.urLogged h.bump)) (.ite h.bump.keepHeader.urLogged h))

theorem Kept.hostBar0 {f o wide write ep m} (h : Kept d e) : Kept d (hostBar0 f o wide write ep m e) := by
  unfold Machine.hostBar0
  dsimp only
  split
  · exact .ite h.bump.hostArrives h.unclaimed
  · exact .ite h.inboundWrite h.unclaimed

theorem Kept.hostBar2 {f q img ep m} (h : Kept d e) : Kept d (hostBar2 f q img ep m e) := by
  unfold Machine.hostBar2
  split
  · exact .ite h.inboundWrite h.unclaimed
  · exact .ite h.bump.hostArrives h.unclaimed

theorem Kept.hostHead {f q v ep} (h : Kept d e) : Kept d (hostHead f q v ep e) :=
  .ite h.inboundWrite h.unclaimed

theorem Kept.hostBar4Read {f a len m} (h : Kept d e) : Kept d (hostBar4Read f a len m e) :=
  .ite h (.ite h.bump.hostArrives h.unclaimed)

theorem Kept.hostBar4Write {f a bs ep m} (h : Kept d e) : Kept d (hostBar4Write f a bs ep m e) :=
  .ite h (.ite h.inboundWrite h.unclaimed)

/-! ### The management target -/

theorem Kept.updMgmt {f} (h : Kept d e) : Kept d (updMgmt f e) := .same h rfl

theorem Kept.mgmtRecord {status cmd words} (h : Kept d e) : Kept d (mgmtRecord status cmd words e) :=
  h.updMgmt

theorem Kept.mgmtDiscard {status cmd} (h : Kept d e) : Kept d (mgmtDiscard status cmd e) :=
  .ite h.mgmtRecord.bump.flag0 h.mgmtRecord.flag0

theorem Kept.mgmtFail {status cmd words addr} (h : Kept d e) : Kept d (mgmtFail status cmd words addr e) :=
  h.bump.flag0.mgmtRecord

theorem Kept.mgmtRefuse {code write a} (h : Kept d e) : Kept d (mgmtRefuse code write a e) :=
  .ite h.decodeError h.refusedAt

theorem Kept.mgmtFetch {a len} (h : Kept d e) : Kept d (mgmtFetch a len e).2 := by
  unfold Machine.mgmtFetch
  dsimp only
  split
  · exact h.mgmtRefuse
  split
  · exact h.busRead
  · exact h.busRead
  · exact h.busRead

theorem Kept.mgmtPut {a bs} (h : Kept d e) : Kept d (mgmtPut a bs e).2 := by
  unfold Machine.mgmtPut
  dsimp only
  split
  · exact h.mgmtRefuse
  split
  · exact h.directWrite
  · exact h.directWrite

theorem Kept.mgmtWords {a count n i} (h : Kept d e) : Kept d (mgmtWords a count n i e).2 := by
  induction n generalizing i e with
  | zero => exact h
  | succ n ih =>
    have hr := h.mgmtFetch (a := a + 4 * i) (len := 4)
    have hrest := ih hr (i := i + 1)
    unfold Machine.mgmtWords
    generalize Machine.mgmtFetch (a + 4 * i) 4 e = r at hr hrest ⊢
    obtain ⟨_ | _, f⟩ := r
    · exact hr
    · exact hrest

theorem Kept.mgmtStores {a ws i} (h : Kept d e) : Kept d (mgmtStores a ws i e).2 := by
  induction ws generalizing i e with
  | nil => exact h
  | cons w ws ih =>
    have hr := h.mgmtPut (a := a + 4 * i) (bs := leBytes 4 w.toNat)
    unfold Machine.mgmtStores
    generalize Machine.mgmtPut (a + 4 * i) (leBytes 4 w.toNat) e = r at hr ⊢
    obtain ⟨_ | _, f⟩ := r
    · exact ih hr
    · exact hr

theorem Kept.mgmtOpen {sent} (h : Kept d e) : Kept d (mgmtOpen sent e) := h.updMgmt

theorem Kept.mgmtReply {status bs} (h : Kept d e) : Kept d (mgmtReply status bs e) := h.updMgmt

theorem Kept.mgmtRead {a count f} (h : Kept d e) : Kept d (mgmtRead a count f e) := by
  unfold Machine.mgmtRead
  extract_lets e₀ e₁
  have h₀ : Kept d e₀ := h.mgmtOpen
  have h₁ : Kept d e₁ := h₀.bump
  refine .ite h ?_
  split
  · exact h₀.mgmtDiscard
  split
  · extract_lets r
    have hr : Kept d r.2 := by
      unfold r
      split
      · exact h₁.mgmtFetch
      · exact h₁.refusedAt
    split
    · exact hr.mgmtRecord.mgmtReply
    · exact hr.mgmtFail.mgmtReply
  · exact .mgmtReply (.ite h₁.mgmtWords.mgmtRecord h₁.mgmtWords.mgmtFail)

theorem Kept.mgmtWriteActs {a ws} (h : Kept d e) : Kept d (mgmtWriteActs a ws e).2 := by
  unfold Machine.mgmtWriteActs
  dsimp only
  split
  · split
    · split
      · exact h.mgmtPut
      · exact h.mgmtPut
    · exact h.refusedAt
  · exact h.mgmtStores

theorem Kept.mgmtWrite {a count ws f} (h : Kept d e) : Kept d (mgmtWrite a count ws f e) := by
  unfold Machine.mgmtWrite
  extract_lets e₀ inj e₁ g r
  have h₁ : Kept d e₁ := .ite h.mgmtOpen.fired h.mgmtOpen
  have hr : Kept d r.2 := h₁.bump.mgmtWriteActs
  refine .ite h ?_
  split
  · exact h₁.mgmtDiscard
  · exact .ite hr.mgmtRecord hr.mgmtFail

theorem Kept.mgmtStatus {f} (h : Kept d e) : Kept d (mgmtStatus f e) := by
  unfold Machine.mgmtStatus
  split
  · exact h
  split
  · exact h.mgmtOpen.mgmtDiscard
  · exact h.mgmtOpen.bump.updMgmt

theorem Kept.mgmtReadPhase {again} (h : Kept d e) : Kept d (mgmtReadPhase again e) :=
  .ite h (.ite h.mgmtDiscard.answer h.updMgmt.answer)

theorem Kept.mgmtAlert (h : Kept d e) : Kept d (mgmtAlert e) :=
  .ite h.updMgmt.updMgmt h.updMgmt.updMgmt

theorem Kept.alertsOver (h : Kept d e) : Kept d (alertsOver e) := .same h rfl

theorem Kept.alertRead {win} (h : Kept d e) : Kept d (alertRead win e) :=
  .ite h (.ite h.flag0 (.answer (.ite h.updMgmt h)))

theorem Kept.ibiOver (h : Kept d e) : Kept d (ibiOver e) := h.updMgmt

theorem Kept.ibiFallback {t} (h : Kept d e) : Kept d (ibiFallback t e) := h.updMgmt.flag0

theorem Kept.ibiRetry {ack} (h : Kept d e) : Kept d (ibiRetry ack e) := by
  unfold Machine.ibiRetry
  split
  · exact h
  · exact .ite h (.ite h.ibiOver.answer (.ite h.updMgmt (.ite h.ibiOver.bumpBy.ibiFallback h.ibiOver.bumpBy)))

theorem Kept.hotJoin {ack} (h : Kept d e) : Kept d (hotJoin ack e) :=
  .ite h (.ite h.updMgmt (.ite h.updMgmt h.updMgmt.flag0))

theorem Kept.sclTimeout (h : Kept d e) : Kept d (sclTimeout e) := .ite h h.bump.flag0

theorem Kept.assignDyn {a} (h : Kept d e) : Kept d (assignDyn a e) := h.updMgmt

theorem Kept.entDaa {a} (h : Kept d e) : Kept d (entDaa a e) := .ite h.assignDyn h

theorem Kept.ccc {f : Dev → Dev} (hf : ∀ e, Kept d e → Kept d (f e)) (h : Kept d e) : Kept d (ccc f e) :=
  .ite (hf _ h) h

theorem Kept.rstDaa (h : Kept d e) : Kept d (rstDaa e) := h.ccc (fun _ h => h.updMgmt)

theorem Kept.enec {int hj} (h : Kept d e) : Kept d (enec int hj e) := h.ccc (fun _ h => h.updMgmt)

theorem Kept.disec {int hj} (h : Kept d e) : Kept d (disec int hj e) := .ite h.updMgmt h

theorem Kept.getCcc {v} (h : Kept d e) : Kept d (getCcc v e) := h.ccc (fun _ h => h.answer)

theorem Kept.getStatus (h : Kept d e) : Kept d (getStatus e) := h.ccc (fun _ h => h.draw.answer)

/-! ### The test access port and the console -/

theorem Kept.updTap {f} (h : Kept d e) : Kept d (updTap f e) := .same h rfl

theorem Kept.tapLoad {i} (h : Kept d e) : Kept d (tapLoad i e) := .ite h.updTap h

theorem Kept.tapReset (h : Kept d e) : Kept d (tapReset e) := .ite h.updTap h

theorem Kept.tapIdcode (h : Kept d e) : Kept d (tapIdcode e) := .ite h.tapLoad.answer h

theorem Kept.tapScan {i pins load} (h : Kept d e) : Kept d (tapScan i pins load e) :=
  .ite h.tapLoad h.tapLoad.updTap.answer

theorem Kept.overPins {f : Dev → Dev} (hf : ∀ e, Kept d e → Kept d (f e)) (h : Kept d e) :
    Kept d (overPins f e) :=
  .ite h (hf _ h)

theorem Kept.tapFetch {con a} (h : Kept d e) : Kept d (tapFetch con a e).2 := by
  conv in Machine.tapFetch => delta Machine.tapFetch
  obtain ⟨read, hread⟩ := exists_eq' (a' := Machine.busRead)
  obtain ⟨out, hout⟩ := exists_eq' (a' := Machine.outRead)
  have hr := h.busRead (acc := tapAcc false) (a := a) (len := 4)
  have ho {what} := h.outRead (who := .tap) (cmp := 0) (a := a) (len := 4) (what := what)
  rw [hread] at hr ⊢
  rw [hout] at ho ⊢
  split
  · exact h.decodeError.beside
  split
  · extract_lets r
    split
    · exact ho
    · exact ho
  · extract_lets r
    split
    · exact h.park.beside
    · exact hr
  · exact (Kept.doIf (fun _ h => h.pageHold) hr).beside
  · exact hr

theorem Kept.tapPut {con a v} (h : Kept d e) : Kept d (tapPut con a v e).2 := by
  unfold Machine.tapPut
  dsimp only
  split
  · exact h.decodeError
  split
  · exact h.outWrite
  · split
    · exact h.decodeError
    split
    · exact h.memWrite.park
    · exact h.memWrite
  · exact h.directWrite

theorem Kept.memResult {status data} (h : Kept d e) : Kept d (memResult status data e) := h.updTap

theorem Kept.memAccess {op a v} (h : Kept d e) : Kept d (memAccess op a v e) := by
  unfold Machine.memAccess
  dsimp only
  split
  · exact h.tapLoad
  split
  · split
    · exact h.tapLoad.tapFetch.memResult
    · exact h.tapLoad.tapFetch.memResult
    · exact h.tapLoad.tapFetch.memResult
  · split
    · exact h.tapLoad.tapPut.memResult
    · exact h.tapLoad.tapPut.memResult
    · exact h.tapLoad.tapPut.memResult
  · exact h.tapLoad

theorem Kept.tapBox {core i clear} (h : Kept d e) : Kept d (tapBox core i clear e) :=
  .ite h.tapLoad (.answer (.ite h.tapLoad.updTap.updCore h.tapLoad.updTap))

theorem Kept.uartLine {cs} (h : Kept d e) : Kept d (uartLine cs e) := .ite h.answer h

theorem Kept.uartWords {n a t} (h : Kept d e) : Kept d (uartWords n a t e) := by
  induction n generalizing a t e with
  | zero => exact h.uartLine
  | succ n ih =>
    have hr := h.tapFetch (con := true) (a := a)
    unfold Machine.uartWords
    generalize Machine.tapFetch true a e = r at hr ⊢
    obtain ⟨_ | _ | _, f⟩ := r
    · exact ih hr
    · exact Kept.uartLine (e := f) hr
    · exact Kept.updTap (e := f) hr

theorem Kept.uartDone {o a} (h : Kept d e) : Kept d (uartDone o a e) := by
  unfold Machine.uartDone
  split
  · exact h.uartLine
  · exact h.uartLine
  · exact h.updTap

theorem Kept.consoleRun {line} (h : Kept d e) : Kept d (consoleRun line e) := by
  unfold Machine.consoleRun
  split
  · exact h.uartWords
  · exact h.tapPut.uartDone
  · exact h.uartLine
  · exact h.uartLine

theorem Kept.uartCommand {line} (h : Kept d e) : Kept d (uartCommand line e) :=
  .ite h (.ite h.updTap h.consoleRun)

theorem Kept.consoleNext (h : Kept d e) : Kept d (consoleNext e) := by
  unfold Machine.consoleNext
  split
  · exact h
  · exact .ite h (.ite h.updTap.consoleRun.push h.updTap)

theorem Kept.consoleBack {r} (h : Kept d e) : Kept d (consoleBack r e) := by
  unfold Machine.consoleBack
  dsimp only
  split
  · exact h
  split
  · exact h.updTap.push
  split
  · exact h.updTap.push.uartLine
  · exact h.updTap.push.uartWords
  · exact h.updTap.push.uartLine
  · exact h.updTap.push.uartDone

theorem Kept.tapBack {con r} (h : Kept d e) : Kept d (tapBack con r e) := by
  unfold Machine.tapBack
  split
  · exact h.consoleBack
  split
  · exact h
  split
  · exact h.memResult
  · exact h.memResult
  · exact h.memResult
  · exact h.memResult

/-! ### Programs and exceptions -/

theorem Kept.coreFlag {core n detail} (h : Kept d e) : Kept d (coreFlag core n detail e) := h.flag0

theorem Kept.parityFound {core n detail} (h : Kept d e) : Kept d (parityFound core n detail e) :=
  h.fired.coreFlag.cper.score

theorem Kept.regParity {core ss vs} (h : Kept d e) : Kept d (regParity core ss vs e) := by
  unfold Machine.regParity
  split
  · exact h
  · exact .ite h.updCore.parityFound (.ite h.updCore.parityFound h)

theorem Kept.accParity {core rows} (h : Kept d e) : Kept d (accParity core rows e) := by
  unfold Machine.accParity
  split
  · exact h
  · exact .ite h.updCore.parityFound h

theorem Kept.wbufParity {core b lo hi} (h : Kept d e) : Kept d (wbufParity core b lo hi e) := by
  unfold Machine.wbufParity
  split
  · exact h
  · exact .ite h.updCore.parityFound h

theorem Kept.endProgram {core status user} (h : Kept d e) : Kept d (endProgram core status user e) := by
  unfold Machine.endProgram
  split
  · exact h.regParity.setEnding.updCore
  · exact .ite h.updCore.cper h.updCore

theorem Kept.coreRead {core a len fetch what} (h : Kept d e) : Kept d (coreRead core a len fetch what e).2 := by
  unfold Machine.coreRead
  dsimp only
  split
  · exact h.decodeError
  · exact h.farAsk
  · split
    · exact h.outRead
    split
    · exact h.refusedAt
    split
    · exact h.sendBus.lostAsk
    split
    · split
      · exact h.sendBus.busRead.lostAsk
      split
      · exact h.sendBus.busRead.wayParity
      · exact h.sendBus.busRead
    · split
      · exact h.sendBus.busRead.lostAsk
      · exact h.sendBus.busRead
    · exact h.sendBus.busRead

theorem Kept.coreWrite {core a bs} (h : Kept d e) : Kept d (coreWrite core a bs e).2 := by
  unfold Machine.coreWrite
  dsimp only
  split
  · exact h
  split
  · exact h.decodeError
  · split
    · exact h.farWrite
    · exact h.farAsk
  · split
    · exact h.outWrite
    split
    · exact h.refusedAt
    split
    · exact h.sendWrite
    split
    · exact h.sendBus.lostAsk
    · exact h.sendBus.wayParity
    · exact h.sendBus.directWrite
    · exact h.sendBus.directWrite.lostAsk

theorem Kept.fetchWord {core len} (h : Kept d e) : Kept d (fetchWord core len e).2 := by
  unfold Machine.fetchWord
  dsimp only
  split
  · exact h
  split
  · exact h
  split
  · exact h.coreRead
  · exact h.coreRead
  · exact h.coreRead
  · exact h.coreRead

theorem Kept.pushFrame {core sp ws} (h : Kept d e) : Kept d (pushFrame core sp ws e).2 := by
  unfold Machine.pushFrame
  dsimp only
  split
  · exact h.foldAccess
  split
  · exact h.foldAccess.writeLram
  · exact h.foldAccess.memWrite

theorem Kept.frameEvent {core cause pushFail overflowed} (h : Kept d e) :
    Kept d (frameEvent core cause pushFail overflowed e) :=
  h.postBoth

theorem Kept.faultOutcome {core cause pushFail overflowed} (h : Kept d e) :
    Kept d (faultOutcome core cause pushFail overflowed e) :=
  .ite h.coreFlag.frameEvent.cutRun.resetUnit
    (.ite h.coreFlag.setEnding.updCore.push h.coreFlag.setEnding.updCore)

theorem Kept.frameFault {core cause addr instr sp pushFail} (h : Kept d e) :
    Kept d (frameFault core cause addr instr sp pushFail e) :=
  .faultOutcome (.ite h.coreFlag h.updCore)

theorem Kept.enterHandler {core cause s sp} (h : Kept d e) : Kept d (enterHandler core cause s sp e) :=
  .ite h.updCore.updCore (.ite h.updCore.endProgram h.updCore.updCore)

theorem Kept.takeException {u cause addr instr} (h : Kept d e) :
    Kept d (takeException u cause addr instr e) := by
  unfold Machine.takeException
  extract_lets c s sp e₀ e₁ r
  have h₀ : Kept d e₀ := .ite h.bump h
  have h₁ : Kept d e₁ := .ite h₀.fired h₀
  have hr : Kept d r.2 := h₁.pushFrame
  refine .ite h.parityFound.endProgram ?_
  split
  · exact h.noteWait
  · exact .ite h₁.frameFault (.ite hr.enterHandler hr.frameFault)

theorem Kept.conclude {core len instr o} (h : Kept d e) : Kept d (conclude core len instr o e) := by
  unfold Machine.conclude
  split
  · exact h.updCore.updCore
  · exact h.updCore.updCore
  · exact h.updCore.takeException
  · exact h.updCore.endProgram
  · exact h.updCore.updCore
  · exact h.updCore.drawOf.faultOutcome
  · exact h
  · exact h.updCore

theorem Kept.imprecise {core} (h : Kept d e) : Kept d (imprecise core e) := by
  unfold Machine.imprecise
  split
  · exact .ite h.takeException h
  · exact h

theorem Kept.issuing {u len} {f : Dev → CoreOut × Dev} (hf : ∀ e, Kept d e → Kept d (f e).2) (h : Kept d e) :
    Kept d (issuing u len f e).2 := by
  unfold Machine.issuing
  extract_lets w
  have hw : Kept d w.2 := h.fetchWord
  split
  · exact hw
  · extract_lets e₁ r
    have h₁ : Kept d e₁ := .ite hw.updCore hw
    have hr : Kept d r.2 := hf _ h₁
    split
    · exact hw
    split
    · split
      · exact hw.updCore
      · exact hw
    split
    · exact hw
    · exact .ite hr.updCore hr

theorem Kept.issue {core len} {f : Dev → CoreOut × Dev} (hf : ∀ e, Kept d e → Kept d (f e).2) (h : Kept d e) :
    Kept d (issue core len f e) :=
  .ite h (.ite h.imprecise (h.issuing hf).conclude)

theorem Kept.coachOnly {core} {f : Dev → CoreOut × Dev} (hf : ∀ e, Kept d e → Kept d (f e).2) (h : Kept d e) :
    Kept d (coachOnly core f e).2 := by
  unfold Machine.coachOnly
  split
  · exact hf _ h
  · exact h

theorem Kept.superOnly {core} {f : Dev → CoreOut × Dev} (hf : ∀ e, Kept d e → Kept d (f e).2) (h : Kept d e) :
    Kept d (superOnly core f e).2 := by
  unfold Machine.superOnly
  split
  · exact h
  split
  · exact h
  · exact hf _ h

theorem Kept.simply {core f} (h : Kept d e) : Kept d (simply core f e).2 := by
  unfold Machine.simply
  exact h.updCore

theorem Kept.unsampled {core} {f : Dev → CoreOut × Dev} (hf : ∀ e, Kept d e → Kept d (f e).2) (h : Kept d e) :
    Kept d (unsampled core f e).2 := by
  unfold Machine.unsampled
  dsimp only
  split
  · exact h.cancelRun
  · exact hf _ h.cancelRun

theorem Kept.clean {ps} {f : Dev → CoreOut × Dev} (hf : ∀ e, Kept d e → Kept d (f e).2) (h : Kept d e) :
    Kept d (clean ps f e).2 := by
  unfold Machine.clean
  split
  · exact h
  · exact hf _ h

/-! ### Core instructions -/

theorem Kept.forsake {core} (h : Kept d e) : Kept d (forsake core e) := .same h rfl

theorem Kept.waybillStart {core} (h : Kept d e) : Kept d (waybillStart core e) := by
  unfold Machine.waybillStart
  split
  · exact h
  · exact .ite h h.forsake.updCore

theorem Kept.scalarAlu {core rd ra rb func} (h : Kept d e) : Kept d (scalarAlu core rd ra rb func e).2 := by
  unfold Machine.scalarAlu
  dsimp only
  split
  · exact h
  · exact h.regParity.simply

theorem Kept.scalarImm {core op rd ra i} (h : Kept d e) : Kept d (scalarImm core op rd ra i e).2 := by
  unfold Machine.scalarImm
  dsimp only
  split
  · exact h
  · exact h.regParity.simply

theorem Kept.lui {core rd i} (h : Kept d e) : Kept d (lui core rd i e).2 := by
  unfold Machine.lui
  exact h.simply

theorem Kept.li {core rd i} (h : Kept d e) : Kept d (li core rd i e).2 := by
  unfold Machine.li
  exact h.simply

theorem Kept.lih {core rd i} (h : Kept d e) : Kept d (lih core rd i e).2 := by
  unfold Machine.lih
  exact h.regParity.simply

theorem Kept.loaded {core rd a bs} (h : Kept d e) : Kept d (loaded core rd a bs e) :=
  h.foldAccess.updCore

theorem Kept.checked {core a} {f : Dev → CoreOut × Dev} (hf : ∀ e, Kept d e → Kept d (f e).2) (h : Kept d e) :
    Kept d (checked core a f e).2 := by
  unfold Machine.checked
  split
  · exact h.unsampled hf
  · exact hf _ h

theorem Kept.loadOp {core rd ra size i} (h : Kept d e) : Kept d (loadOp core rd ra size i e).2 := by
  unfold Machine.loadOp
  dsimp only
  refine .clean (fun _ h => ?_) h.regParity
  split
  · exact h
  · refine .checked (fun _ h => ?_) h
    split
    · exact h.coreRead.loaded
    · exact h.coreRead
    · exact h.coreRead
    · exact h.coreRead

theorem Kept.storeOp {core rd ra size i} (h : Kept d e) : Kept d (storeOp core rd ra size i e).2 := by
  unfold Machine.storeOp
  refine .clean (fun _ h => ?_) h.regParity
  split
  · exact h
  · exact h.clean (fun _ h => h.checked (fun _ h => h.foldAccess.coreWrite))

theorem Kept.branchTo {core op ra rb off} (h : Kept d e) : Kept d (branchTo core op ra rb off e).2 := by
  unfold Machine.branchTo
  exact h.regParity.clean (fun _ h => h)

theorem Kept.jal {core off} (h : Kept d e) : Kept d (jal core off e).2 := by
  unfold Machine.jal
  exact h.updCore

theorem Kept.jalr {core rd ra i} (h : Kept d e) : Kept d (jalr core rd ra i e).2 := by
  unfold Machine.jalr
  exact h.regParity.clean (fun _ h => h.updCore)

theorem Kept.skipBody {c n a} (h : Kept d e) : Kept d (skipBody c n a e).2 := by
  induction n generalizing a e with
  | zero => exact h
  | succ n ih =>
    have hr := h.coreRead (core := c) (a := a) (len := 4) (fetch := true) (what := .fetch)
    unfold Machine.skipBody
    generalize Machine.coreRead c a 4 true .fetch e = r at hr ⊢
    obtain ⟨x, f⟩ := r
    extract_lets q past r
    split
    · exact ih h
    · cases x
      case data => exact ih hr
      all_goals exact hr

theorem Kept.loopOp {core ra off} (h : Kept d e) : Kept d (loopOp core ra off e).2 := by
  unfold Machine.loopOp
  dsimp only
  split
  · exact h
  · refine .clean (fun _ h => ?_) h.regParity
    split
    · split
      · exact h.skipBody
      · exact h.skipBody
    · exact h.updCore

theorem Kept.amoOp {c op rd ra rb wide} (h : Kept d e) : Kept d (amoOp c op rd ra rb wide e).2 := by
  unfold Machine.amoOp
  extract_lets n f x y a v old b
  refine .clean (fun e h => ?_) h.regParity
  split
  · exact h
  · refine .unsampled (fun e h => ?_) h
    extract_lets acc on r
    have hon : Kept d on.2 := h.sendBus
    clear_value on
    have hr : Kept d r.2 := hon.amo
    clear_value r
    split
    · exact h.decodeError.beside
    · exact h.farAsk.beside
    · split
      · exact hon.lostAsk.beside
      split
      · exact hon.wayParity.simply
      split
      · exact hon.noteWait.beside
      split
      · exact hr.lostAsk.beside
      split
      · exact hr.simply
      · exact hr

theorem Kept.codeTo {c rd w} {r : Option Nat × Dev} (h : Kept d r.2) : Kept d (codeTo c rd w r).2 := by
  unfold Machine.codeTo
  split
  · exact h.simply
  · exact h

theorem Kept.semDo {op k cmp holder n timeout} (h : Kept d e) :
    Kept d (semDo op k cmp holder n timeout e).2 := by
  unfold Machine.semDo
  split
  · exact h.semSignal
  · exact h.semWait
  · exact h.semAcquire
  · exact h.semRelease

theorem Kept.semOp {c op rd ra rb count} (h : Kept d e) : Kept d (semOp c op rd ra rb count e).2 := by
  unfold Machine.semOp
  extract_lets f x t a timeout b
  split
  · exact h
  · refine .clean (fun e h => .unsampled (fun e h => ?_) h) h.regParity
    extract_lets acc
    split
    · exact h.decodeError.beside
    · exact h.farAsk.beside
    · split
      · exact h.decodeError.beside
      split
      · exact h
      split
      · exact h.refused.beside
      · extract_lets on r
        have hon : Kept d on.2 := h.sendTo
        clear_value on
        split
        · exact hon.lostAsk.beside
        · have hr : Kept d r.2 := hon.semDo
          clear_value r
          split
          · exact hr.lostAsk.beside
          · exact hr.codeTo

theorem Kept.tallyRefused {core t} (h : Kept d e) : Kept d (tallyRefused core t e).2 := by
  unfold Machine.tallyRefused
  exact .ite h.refused h.decodeError

theorem Kept.trearm {core ra} (h : Kept d e) : Kept d (trearm core ra e).2 := by
  unfold Machine.trearm
  refine .clean (fun _ h => ?_) h.regParity
  refine .unsampled (fun _ h => ?_) h
  split
  · exact h
  split
  · exact h.rearm
  · exact h.tallyRefused

theorem Kept.watchFor {core t thresh deadline} (h : Kept d e) :
    Kept d (watchFor core t thresh deadline e).2 := by
  unfold Machine.watchFor
  dsimp only
  split
  · exact h.watchTally
  · exact h.watchTally

theorem Kept.twaitOp {core rd ra rb} (h : Kept d e) : Kept d (twaitOp core rd ra rb e).2 := by
  unfold Machine.twaitOp
  refine .clean (fun _ h => ?_) h.regParity
  refine .unsampled (fun _ h => ?_) h
  split
  · exact h
  split
  · exact h.watchFor
  · exact h.tallyRefused

theorem Kept.twait {core rd ra rb} (h : Kept d e) : Kept d (twait core rd ra rb e) := by
  unfold Machine.twait
  split
  · split
    · exact h
    · refine .conclude ?_
      split
      · exact h.watchFor
      · exact h.tallyRefused
  · exact h.issue (fun _ h => h.twaitOp)

theorem Kept.twaitTimeout {core} (h : Kept d e) : Kept d (twaitTimeout core e) := by
  unfold Machine.twaitTimeout
  split
  · exact .ite h.dropWatches.endProgram h
  · exact h

theorem Kept.fenceOp {core rd} (h : Kept d e) : Kept d (fenceOp core rd e).2 := by
  unfold Machine.fenceOp
  split
  · exact h.simply
  split
  · exact h.simply
  · exact h

theorem Kept.offer {core rd q img} (h : Kept d e) : Kept d (offer core rd q img e).2 := by
  unfold Machine.offer
  dsimp only
  split
  · split
    · exact h.farAsk
    · exact h.simply
  · split
    · exact h.simply
    split
    · exact h.enqueue.simply
    · exact h.enqueue.awaits

theorem Kept.offerRead {core rd q a bs} (h : Kept d e) : Kept d (offerRead core rd q a bs e).2 := by
  unfold Machine.offerRead
  split
  · exact h
  · exact h.foldAccess.offer

theorem Kept.enqOp {core rd ra rb} (h : Kept d e) : Kept d (enqOp core rd ra rb e).2 := by
  unfold Machine.enqOp
  dsimp only
  refine .clean (fun _ h => ?_) h.regParity
  split
  · exact h
  · refine .unsampled (fun _ h => ?_) h
    split
    · exact h.coreRead.offerRead
    · exact h.coreRead
    · exact h.coreRead
    · exact h.coreRead

theorem Kept.csrValue {core n} (h : Kept d e) : Kept d (csrValue core n e).2 := by
  unfold Machine.csrValue
  split
  · exact h
  · exact h
  · exact h
  · exact h
  · exact h.draw
  · exact h
  · exact h
  · exact h
  · exact h
  · exact h
  · exact h
  · exact h
  · exact h
  · exact h
  · exact h
  · exact h
  · exact h
  · exact h
  · exact h

theorem Kept.csrRead {core rd n} (h : Kept d e) : Kept d (csrRead core rd n e).2 := by
  unfold Machine.csrRead
  split
  · exact h
  split
  · exact h.unsampled (fun _ h => h.csrValue.simply)
  · exact h.csrValue.simply

theorem Kept.csrWrite {core ra n} (h : Kept d e) : Kept d (csrWrite core ra n e).2 := by
  unfold Machine.csrWrite
  split
  · exact h
  · exact h.regParity.clean (fun _ h => h.simply)

theorem Kept.returns {core ie bs} (h : Kept d e) : Kept d (returns core ie bs e).2 := by
  unfold Machine.returns
  exact h.updCore

theorem Kept.badFrame {core} (h : Kept d e) : Kept d (badFrame core e).2 := by
  unfold Machine.badFrame
  exact h

theorem Kept.frameRead {core ie a bs} (h : Kept d e) : Kept d (frameRead core ie a bs e).2 := by
  unfold Machine.frameRead
  split
  · exact h.badFrame
  · exact h.foldAccess.returns

theorem Kept.xretOp {core ie} (h : Kept d e) : Kept d (xretOp core ie e).2 := by
  unfold Machine.xretOp
  dsimp only
  split
  · exact h.coreRead.frameRead
  · exact h.coreRead.badFrame
  · exact h.coreRead
  · exact h.coreRead

theorem Kept.trapOp {code} (h : Kept d e) : Kept d (trapOp code e).2 := by
  unfold Machine.trapOp
  exact h

theorem Kept.brk {core} (h : Kept d e) : Kept d (brk core e) := by
  unfold Machine.brk
  refine .issue (fun _ h => ?_) h
  split
  · exact h.updCore
  · exact h

theorem Kept.doneOp (h : Kept d e) : Kept d (doneOp e).2 := by
  unfold Machine.doneOp
  exact h

theorem Kept.abortOp {core rb} (h : Kept d e) : Kept d (abortOp core rb e).2 := by
  unfold Machine.abortOp
  exact h.regParity.clean (fun _ h => h)

theorem Kept.sbrdOp {core rd ra word} (h : Kept d e) : Kept d (sbrdOp core rd ra word e).2 := by
  unfold Machine.sbrdOp
  split
  · exact h
  · refine .superOnly (fun _ h => ?_) h
    refine .clean (fun _ h => ?_) h.regParity
    split
    · exact h.draw.simply
    · exact .simply (.ite h.updCore h)

theorem Kept.sretOp {core} (h : Kept d e) : Kept d (sretOp core e).2 := by
  unfold Machine.sretOp
  exact h.superOnly (fun _ h => h.xretOp)

theorem Kept.wfiOp {core} (h : Kept d e) : Kept d (wfiOp core e).2 := by
  unfold Machine.wfiOp
  refine .superOnly (fun _ h => ?_) h
  split
  · exact h
  · exact h

theorem Kept.wakeCores (h : Kept d e) : Kept d (wakeCores e) :=
  h.each (fun _ _ h => .ite h.updCore h)

theorem Kept.interrupt {core} (h : Kept d e) : Kept d (interrupt core e) :=
  .ite h.updCore.takeException h

theorem Kept.lramCleared {n} (h : Kept d e) : Kept d (lramCleared n e) := .ite h h.forgetLram.wrB

/-! ### Coach instructions -/

theorem Kept.vectorInt {core ev op vd va vb p pz} (h : Kept d e) :
    Kept d (vectorInt core ev op vd va vb p pz e).2 := by
  unfold Machine.vectorInt
  refine .coachOnly (fun _ h => ?_) h
  split
  · exact h
  · exact h.regParity.simply

theorem Kept.vectorFloat {core ev op vd va vb p pz} (h : Kept d e) :
    Kept d (vectorFloat core ev op vd va vb p pz e).2 := by
  unfold Machine.vectorFloat
  refine .coachOnly (fun _ h => ?_) h
  split
  · exact h
  · exact h.regParity.simply

theorem Kept.vectorCompare {core ev op pd va vb p pz} (h : Kept d e) :
    Kept d (vectorCompare core ev op pd va vb p pz e).2 := by
  unfold Machine.vectorCompare
  refine .coachOnly (fun _ h => ?_) h
  split
  · exact h
  · exact h.regParity.simply

theorem Kept.vectorPermute {core ev op vd va vb p pz} (h : Kept d e) :
    Kept d (vectorPermute core ev op vd va vb p pz e).2 := by
  unfold Machine.vectorPermute
  exact h.coachOnly (fun _ h => h.regParity.simply)

theorem Kept.vectorConvert {core src dst vd va p pz} (h : Kept d e) :
    Kept d (vectorConvert core src dst vd va p pz e).2 := by
  unfold Machine.vectorConvert
  exact h.coachOnly (fun _ h => h.regParity.simply)

theorem Kept.vectorMove {core op vd va vb p pz} (h : Kept d e) :
    Kept d (vectorMove core op vd va vb p pz e).2 := by
  unfold Machine.vectorMove
  exact h.coachOnly (fun _ h => h.regParity.simply)

theorem Kept.streamArrives {core i a n bs} (h : Kept d e) : Kept d (streamArrives core i a n bs e) :=
  .updCore (.ite h h.foldAccess)

theorem Kept.streamRead {core i a n} (h : Kept d e) : Kept d (streamRead core i a n e).2 := by
  unfold Machine.streamRead
  dsimp only
  split
  · exact h
  split
  · exact h.decodeError
  · split
    · exact h.decodeError
    · exact h.updCore.farAsk
  · split
    · exact h.decodeError
    split
    · exact h.sendOff.updCore.lostAsk
    split
    · split
      · refine .lostAsk ?_
        refine .updCore ?_
        split
        · exact h.sendOff.memRead
        · exact h.sendOff.ttRead
      · split
        · refine .streamArrives ?_
          refine .pathParity ?_
          split
          · exact h.sendOff.memRead
          · exact h.sendOff.ttRead
        · refine .streamArrives ?_
          split
          · exact h.sendOff.memRead
          · exact h.sendOff.ttRead
    · split
      · exact h.sendOff.memRead
      · exact h.sendOff.ttRead
    · split
      · exact h.sendOff.memRead
      · exact h.sendOff.ttRead

theorem Kept.streamSend {core a s bs} (h : Kept d e) : Kept d (streamSend core a s bs e).2 := by
  unfold Machine.streamSend
  dsimp only
  split
  · exact h.decodeError
  · split
    · exact h.farWrite
    split
    · exact h.launch.farAsk
    · exact h.decodeError
  · split
    · exact h.sendWrite
    split
    · exact h.sendTurn
    split
    · exact h.directWrite
    · exact h.decodeError

theorem Kept.streamWrite {c i a n} (h : Kept d e) : Kept d (streamWrite c i a n e).2 := by
  unfold Machine.streamWrite
  extract_lets s₀ s bs f
  have hf : Kept d f := h.foldAccess.updCore
  clear_value f
  split
  · exact h
  split
  · exact h
  split
  · exact hf
  · exact hf.streamSend

theorem Kept.streamStep {core i} (h : Kept d e) : Kept d (streamStep core i e).2 := by
  unfold Machine.streamStep
  dsimp only
  split
  · exact h
  split
  · split
    · exact h.updCore
    · exact h
  · split
    · exact h.streamWrite
    · exact h.streamRead

theorem Kept.grantStream {c is} (h : Kept d e) : Kept d (grantStream c e is).2 := by
  induction is generalizing e with
  | nil => exact h
  | cons i is ih =>
    have hr := h.streamStep (core := c) (i := i)
    unfold Machine.grantStream
    generalize Machine.streamStep c i e = r at hr ⊢
    obtain ⟨p, f⟩ := r
    cases p
    case blocked => exact ih hr
    all_goals exact hr

theorem Kept.streamPump {fuel c last} (h : Kept d e) : Kept d (streamPump fuel c last e).2 := by
  induction fuel generalizing last e with
  | zero => exact h
  | succ fuel ih =>
    have hr := h.grantStream (c := c) (is := (List.range 8).filter (· ≠ last))
    unfold Machine.streamPump
    generalize Machine.grantStream c e ((List.range 8).filter (· ≠ last)) = r at hr ⊢
    obtain ⟨_ | ⟨i, p⟩, f⟩ := r
    · have hs := Kept.grantStream (e := f) (c := c) (is := [last]) hr
      dsimp only
      generalize Machine.grantStream c f [last] = s at hs ⊢
      obtain ⟨_ | ⟨i, p⟩, f⟩ := s
      · exact hs
      · cases p
        case ends => exact hs
        all_goals exact ih hs
    · cases p
      case ends => exact hr
      all_goals exact ih hr

theorem Kept.pumpAll {core} (h : Kept d e) : Kept d (pumpAll core e).2 := by
  unfold Machine.pumpAll
  exact h.streamPump

theorem Kept.pumped {core} {f : Dev → CoreOut × Dev} (hf : ∀ e, Kept d e → Kept d (f e).2) (h : Kept d e) :
    Kept d (pumped core f e).2 := by
  unfold Machine.pumped
  dsimp only
  split
  · exact h.pumpAll
  · exact hf _ h.pumpAll

theorem Kept.streamComplete {core i} (h : Kept d e) : Kept d (streamComplete core i e) := by
  unfold Machine.streamComplete
  dsimp only
  split
  · exact h.pumpAll.endProgram
  · exact .ite h.pumpAll h.pumpAll.updCore

theorem Kept.streamBack {core i a bs} (h : Kept d e) : Kept d (streamBack core i a bs e) := by
  unfold Machine.streamBack
  dsimp only
  split
  · exact h
  split
  · split
    · exact h.updCore.streamArrives.pumpAll.endProgram
    · exact h.updCore.streamArrives.pumpAll
  · exact h.updCore.endProgram

theorem Kept.readDesc {c a} (h : Kept d e) : Kept d (readDesc c a e).2 := by
  unfold Machine.readDesc
  refine h.foldlBeside fun r o hr => ?_
  split
  · have hx := hr.coreRead (core := c) (a := a + o) (len := 8) (fetch := false) (what := .plain)
    dsimp only
    generalize Machine.coreRead c (a + o) 8 false .plain r.2 = x at hx ⊢
    obtain ⟨_ | _ | _ | _, f⟩ := x
    case held => exact h
    all_goals exact hx
  · exact hr

theorem Kept.gotDesc {core i a bs} (h : Kept d e) : Kept d (gotDesc core i a bs e).2 := by
  unfold Machine.gotDesc
  split
  · exact h
  · exact (h.each (fun _ _ h => h.foldAccess)).simply

theorem Kept.stcfg {core i ra} (h : Kept d e) : Kept d (stcfg core i ra e).2 := by
  unfold Machine.stcfg
  dsimp only
  refine .coachOnly (fun _ h => ?_) h
  refine .clean (fun _ h => ?_) h.regParity
  split
  · exact h
  · refine .checked (fun _ h => ?_) h
    split
    · refine .gotDesc ?_
      split
      · exact h.coreRead
      · exact h.readDesc
    · split
      · exact h.coreRead
      · exact h.readDesc
    · split
      · exact h.coreRead
      · exact h.readDesc
    · split
      · exact h.coreRead
      · exact h.readDesc

theorem Kept.ststart {core i} (h : Kept d e) : Kept d (ststart core i e).2 := by
  unfold Machine.ststart
  dsimp only
  refine .coachOnly (fun _ h => ?_) h
  split
  · exact h
  · exact h.updCore.pumped (fun _ h => h)

theorem Kept.ststop {core i} (h : Kept d e) : Kept d (ststop core i e).2 := by
  unfold Machine.ststop
  exact h.coachOnly (fun _ h => h.simply)

theorem Kept.stwait {core i} (h : Kept d e) : Kept d (stwait core i e).2 := by
  unfold Machine.stwait
  refine .coachOnly (fun _ h => ?_) h
  refine .pumped (fun _ h => ?_) h
  split
  · exact h
  · exact h

theorem Kept.ststat {core i rd} (h : Kept d e) : Kept d (ststat core i rd e).2 := by
  unfold Machine.ststat
  exact h.coachOnly (fun _ h => h.simply)

theorem Kept.vld {core vd i} (h : Kept d e) : Kept d (vld core vd i e).2 := by
  unfold Machine.vld
  dsimp only
  refine .coachOnly (fun _ h => ?_) h
  split
  · exact h
  · refine .pumped (fun _ h => ?_) h
    split
    · exact h.simply
    · exact h

theorem Kept.vst {core i va} (h : Kept d e) : Kept d (vst core i va e).2 := by
  unfold Machine.vst
  refine .coachOnly (fun _ h => ?_) h
  split
  · exact h
  · refine .pumped (fun _ h => ?_) h
    split
    · exact h
    · exact h.regParity.updCore.pumped (fun _ h => h)

theorem Kept.seeBuffer {core b} (h : Kept d e) : Kept d (seeBuffer core b e) := by
  unfold Machine.seeBuffer
  dsimp only
  split
  · exact h
  split
  · exact .ite h.updCore h.updCore.setDigests
  · exact h.updCore

theorem Kept.mma {c fmt ad va sa b sp z} (h : Kept d e) : Kept d (mma c fmt ad va sa b sp z e).2 := by
  unfold Machine.mma
  refine .coachOnly (fun e h => ?_) h
  split
  · exact h
  split
  · exact h
  split
  · exact h
  · extract_lets f x kn
    have hf : Kept d f := h.regParity
    clear_value f
    refine .clean (fun e h => ?_) hf
    split
    · exact h
    · exact .simply (.bump64By (.seeBuffer (.wbufParity (.ite h h.accParity))))

theorem Kept.mrd {core vd ad row} (h : Kept d e) : Kept d (mrd core vd ad row e).2 := by
  unfold Machine.mrd
  exact h.coachOnly (fun _ h => h.accParity.simply)

theorem Kept.mwr {core fmt ad row va} (h : Kept d e) : Kept d (mwr core fmt ad row va e).2 := by
  unfold Machine.mwr
  refine .coachOnly (fun _ h => ?_) h
  split
  · exact h
  · exact h.regParity.simply

theorem Kept.mclr {core fmt ad} (h : Kept d e) : Kept d (mclr core fmt ad e).2 := by
  unfold Machine.mclr
  refine .coachOnly (fun _ h => ?_) h
  split
  · exact h
  · exact h.simply

theorem Kept.wbwait {core b} (h : Kept d e) : Kept d (wbwait core b e).2 := by
  unfold Machine.wbwait
  exact h.coachOnly (fun _ h => h)

/-! ### What settles before a step ends -/

theorem Kept.resumes {core} {f : Dev → CoreOut × Dev} (hf : ∀ e, Kept d e → Kept d (f e).2) (h : Kept d e) :
    Kept d (resumes core f e) :=
  .ite h (hf _ h).conclude

theorem Kept.coreBack {core a what r} (h : Kept d e) : Kept d (coreBack core a what r e) := by
  unfold Machine.coreBack
  dsimp only
  split
  · exact h
  · exact h
  · exact h
  · exact h
  · exact h
  · refine .resumes (fun _ h => ?_) h
    split
    · exact h
    · exact h
  · exact h.streamBack
  · refine .resumes (fun _ h => ?_) h
    split
    · exact .ite h.updCore h.loaded
    · exact h
  · refine .resumes (fun _ h => ?_) h
    split
    · exact h.simply
    · exact h
  · refine .resumes (fun _ h => ?_) h
    split
    · exact h.simply
    split
    · exact h.simply
    · exact h
  · refine .resumes (fun _ h => ?_) h
    split
    · split
      · exact h
      · exact h.offerRead
    · exact h
  · split
    · exact h
    split
    · exact h.updCore
    · exact h.conclude
  · refine .resumes (fun _ h => ?_) h
    split
    · split
      · exact h
      · exact h.gotDesc
    · exact h
  · refine .resumes (fun _ h => ?_) h
    split
    · split
      · exact h.badFrame
      · exact h.frameRead
    · exact h.badFrame

theorem Kept.relayAnswer {p r} (h : Kept d e) : Kept d (relayAnswer p r e) := by
  unfold Machine.relayAnswer
  split
  · exact .farReply (.same h rfl)
  · exact h

theorem Kept.relayEnds (h : Kept d e) : Kept d (relayEnds e) :=
  .each (fun _ _ h => h.relayAnswer) (.same h rfl)

theorem KeptIf.relay {acc k} (h : Kept d e) : KeptIf d (relay acc k e) := by
  unfold Machine.relay
  extract_lets _ kept
  have hk : Kept d kept := .same h rfl
  clear_value kept
  split
  · extract_lets r
    have hr : Kept d r.2 := hk.outRead
    clear_value r
    exact .ite (.some (.ite hr (.farReply (.same hr rfl)))) .none
  · exact .ite (.some hk.outWrite.relayEnds) .none
  · exact .none

theorem Kept.comesBack {who a what r} (h : Kept d e) : Kept d (comesBack who a what r e) := by
  unfold Machine.comesBack
  split
  · exact h.relayAnswer
  split
  · exact .ite h.pieceBack h
  · exact h.coreBack
  · exact h.tapBack
  · exact h.answer
  · exact h.answer
  · exact h

theorem Kept.pageAgain {a} (h : Kept d e) : Kept d (pageAgain a e) := by
  conv in Machine.pageAgain => delta Machine.pageAgain
  have hr := h.readPage (acc := a.acc) (k := a.addr - 0x40000000) (len := a.len)
  obtain ⟨read, hread⟩ := exists_eq' (a' := Machine.readPage)
  rw [hread] at hr ⊢
  extract_lets r
  split
  · exact hr.keepRead
  · exact hr.hostData
  · exact hr.hostReadRefused
  · exact hr.push
  · exact hr.push
  · exact hr.answer

theorem Kept.stall {p k braked} (h : Kept d e) : Kept d (stall p k braked e) := .same h rfl

theorem Kept.serveSem {k p op a n timeout holder epoch} (h : Kept d e) :
    Kept d (serveSem k p op a n timeout holder epoch e) := by
  unfold Machine.serveSem
  extract_lets w acc _ f
  have hf : Kept d f := .same h rfl
  clear_value f
  split
  · exact h.decodeError.farReply
  · refine .ite h.stall (.ite h.farReply (.ite h.refused.farReply ?_))
    extract_lets r
    have hr : Kept d r.2 := hf.semDo
    clear_value r
    split
    · exact hr.farReply
    · exact .same hr rfl

theorem Kept.serve {again p k} (h : Kept d e) : Kept d (serve again p k e) := by
  conv in Machine.serve => delta Machine.serve
  obtain ⟨through, hthrough⟩ := exists_eq' (a' := Machine.relay)
  have hrelay {acc} := KeptIf.relay (acc := acc) (k := k) h
  rw [hthrough] at hrelay ⊢
  extract_lets acc
  split
  · exact h
  split
  · exact hrelay _ ‹_›
  split
  · extract_lets r
    have hr : Kept d r.2 := h.busRead
    clear_value r
    obtain ⟨_ | _ | _, f⟩ := r <;> change Kept d f at hr
    · exact hr.farReply
    · exact hr.farReply
    · exact hr.stall
  · extract_lets r
    have hr : Kept d r.2 := h.ttRead
    clear_value r
    obtain ⟨_ | _ | _, f⟩ := r <;> change Kept d f at hr
    · exact hr.farReply
    · exact hr.farReply
    · exact hr.stall
  · extract_lets r
    have hr : Kept d r.2 := h.turnWrite
    clear_value r
    obtain ⟨_ | _ | _, f⟩ := r <;> change Kept d f at hr
    · exact hr.farReply
    · exact hr.farReply
    · exact hr.stall
  · extract_lets b r
    have hr : Kept d r.2 := by
      dsimp only [r]
      split
      · exact h.memWrite
      · exact h.directWrite
    clear_value r
    obtain ⟨_ | _ | _, f⟩ := r <;> change Kept d f at hr
    · exact hr.farReply
    · exact hr.farReply
    · exact hr.stall
  · refine .ite h.noteWait.stall ?_
    extract_lets r
    have hr : Kept d r.2 := h.amo
    clear_value r
    obtain ⟨_ | _, f⟩ := r <;> change Kept d f at hr
    · exact hr.farReply
    · exact hr.farReply
  · extract_lets r
    have hr : Kept d r.2 := h.enqueue
    clear_value r
    obtain ⟨_ | _ | _, f⟩ := r <;> change Kept d f at hr
    · exact (hr.doIf fun _ h => h.flag0).farReply
    · exact hr.stall
    · exact (hr.doIf fun _ h => h.backingWaits).stall
  · exact h.serveSem
  · exact h.depotCheck fun _ h => h.foldBelow fun _ _ h => h.ctrAction fun _ _ h => h.ctrEdge
  · exact h.depotCheck fun _ h => h.deliverToken
  · exact h

theorem Kept.serveStalled (h : Kept d e) : Kept d (serveStalled e) :=
  .each (fun _ _ h => h.serve) (.same h rfl)

theorem Kept.semAnswered {w code} (h : Kept d e) : Kept d (semAnswered w code e) := by
  unfold Machine.semAnswered
  split
  · exact h
  · exact .farReply (.same h rfl)

theorem Kept.farSend {dst cmp op} (h : Kept d e) : Kept d (farSend dst cmp op e) :=
  .ite h.farPost h.flag0

theorem Kept.watchFired {w} (h : Kept d e) : Kept d (watchFired w e) := by
  unfold Machine.watchFired
  split
  · exact .ite h.makeReady h
  · split
    · exact h.updCore
    · exact h
  · exact h.tallyTrigger

theorem Kept.alertRises (h : Kept d e) : Kept d (alertRises e) :=
  .ite h.mgmtAlert.sendVector h.mgmtAlert

theorem Kept.suspectFound {img q unit turn} (h : Kept d e) : Kept d (suspectFound img q unit turn e) :=
  .ite (.same h.suspectRecord rfl) h.suspectRecord

theorem Kept.listDone {a ok} (h : Kept d e) : Kept d (listDone a ok e) := by
  unfold Machine.listDone
  split
  · exact h
  · exact h.listReport
  · exact h.replugEnded

theorem Kept.restarted (h : Kept d e) : Kept d (restarted e) :=
  .showInputs (.same h.progCut.readFuses rfl)

theorem Kept.settleOne {t} (h : Kept d e) : Kept d (settleOne t e) := by
  unfold Machine.settleOne
  split
  · exact h.watchFired
  · exact h.periodicTrigger
  · exact h.fsyncPulse
  · exact h.restarted
  · exact h.stableAuto
  · exact h.forcedReset
  · exact h.alertRises
  · exact h.queueWritten
  · exact h.slotFired
  · exact h.completeSlot
  · exact h.reportOf
  · exact h.runEnded
  · exact h.cmpSwept
  · exact h.suspectFound
  · exact h.abandoned
  · exact h.releaseBuf
  · exact h.govSlack
  · exact h.listAsked
  · exact h.each (fun _ _ h => h.listStopped)
  · exact h.rowLost
  · exact h.listDone
  · exact h.ownWrite
  · exact h.backingRetry.graphRetry
  · exact h.pageAgain
  · exact h.consoleNext
  · exact h.farSend
  · exact h.farSend
  · exact h.comesBack
  · exact h.serve
  · exact h.semAnswered

theorem Kept.waitsOn {b o} (h : Kept d e) : Kept d (waitsOn b o e) := by
  unfold Machine.waitsOn
  dsimp only
  split
  · exact .doIf (fun _ h => h.backingWaits) (.same h rfl)
  · exact .doIf (fun _ h => h.stat) (.same h rfl)

theorem Kept.resumeBrake {b} (h : Kept d e) : Kept d (resumeBrake b e) := by
  unfold Machine.resumeBrake
  dsimp only
  split
  · exact .unbrake (.same h rfl)
  split
  · split
    · split
      · exact .doIf (fun _ h => h.brakeFlag) (.updCore (.enqueue (.same h rfl)))
      · exact h.waitsOn
    · exact .same h rfl
  · split
    · exact .answer (.enqueue (.same h rfl))
    · exact .answer (.brakeRefused (.enqueue (.same h rfl)))
    · exact h.waitsOn

theorem Kept.sampleUe (h : Kept d e) : Kept d (sampleUe e) := by
  unfold Machine.sampleUe
  split
  · exact h
  split
  · exact h
  · exact h.fired.flag0.dropSample.releaseGate

theorem Kept.settleLoop {n} (h : Kept d e) : Kept d (settleLoop n e) := by
  induction n generalizing e with
  | zero => exact h
  | succ n ih =>
    unfold Machine.settleLoop
    split
    · exact ih (.settleOne (.same h rfl))
    split
    · exact ih h.resumeBrake
    · exact .ite (ih h.drainHost) h

theorem Kept.settle (h : Kept d e) : Kept d (settle e) := by
  unfold Machine.settle
  extract_lets e₁ e₂ e₃
  have h₁ : Kept d e₁ := h.relayEnds.serveStalled.sampleUe.settleLoop
  clear_value e₁
  have h₃ : Kept d e₃ := h₁.wakeCores.alertsOver.onWay
  clear_value e₃
  exact .same h₃ rfl

theorem Kept.rspTimeout {w beyond} (h : Kept d e) : Kept d (rspTimeout w beyond e) := by
  unfold Machine.rspTimeout
  extract_lets lim late t _ _ e₁
  have h₁ : Kept d e₁ := .timedOut (.same h rfl)
  clear_value t e₁
  split
  · exact h
  · exact .push (.timedOut (.same h rfl))
  · extract_lets mine e₂ kind
    have h₂ : Kept d e₂ := .same h₁ rfl
    clear_value e₂
    refine .ite h₁.answer ?_
    split
    · exact h₂.hostFailed
    · exact .relayEnds (.same h₂ rfl)
    · exact h₂.failureNotice.fenceCheck

/-! ### Register commands -/

theorem Kept.pageTouched {w} (h : Kept d e) : Kept d (pageTouched w e) := by
  unfold Machine.pageTouched
  split
  · exact h.cancelRun
  · exact h

theorem Kept.regPut {w k n v} (h : Kept d e) : Kept d (regPut w k n v e) := by
  unfold Machine.regPut
  dsimp only
  split
  · exact h.hostBar0
  split
  · exact h.pageTouched.decodeError.answer
  split
  · exact h.pageTouched.writePage.answer
  · exact h.pageTouched.writePage

theorem Kept.regGet {w k n} (h : Kept d e) : Kept d (regGet w k n e) := by
  unfold Machine.regGet
  split
  · exact h.hostBar0
  · exact .ite h.pageTouched.decodeError.answer (h.pageTouched.readPage.doIf (fun _ h => h.pageHold)).answer

theorem Kept.regCmd {w k v} (h : Kept d e) : Kept d (regCmd w k v e) := h.regPut

theorem Kept.regSetBit {w k n} (h : Kept d e) : Kept d (regSetBit w k n e) := h.regCmd

theorem Kept.regWay {w write a n m} {go : Dev → Dev} (hgo : ∀ e, Kept d e → Kept d (go e)) (h : Kept d e) :
    Kept d (regWay w write a n m go e) := by
  unfold Machine.regWay
  extract_lets acc on
  have hon : Kept d on.2 := h.onWay.sendBus
  have htouched := hon.pageTouched (w := w)
  split
  · exact hgo _ hon
  · exact htouched.lostAsk
  · exact .lostAsk (.same (hgo _ hon) rfl)
  · exact .ite htouched.wayParity.answer htouched.readPage.wayParity.answer

theorem Kept.addrPut {w a n v m} (h : Kept d e) : Kept d (addrPut w a n v m e) := by
  unfold Machine.addrPut
  split
  · exact h
  split
  · exact h.hostBar0
  · exact h.regWay (fun _ h => h.regPut)
  · exact h.pageTouched.farAsk
  · exact h.decodeError.answer

theorem Kept.addrGet {w a n m} (h : Kept d e) : Kept d (addrGet w a n m e) := by
  unfold Machine.addrGet
  split
  · exact h
  split
  · exact h.hostBar0
  · exact h.regWay (fun _ h => h.regGet)
  · exact h.pageTouched.farAsk
  · exact h.decodeError.answer

theorem Kept.onPage {ty inst page} {f : Dev → Dev} (hf : ∀ e, Kept d e → Kept d (f e)) (h : Kept d e) :
    Kept d (onPage ty inst page f e) :=
  .ite (hf _ h) h

/-! ### Clock commands -/

theorem Kept.refWatched {f : Dev → Dev} (hf : ∀ e, Kept d e → Kept d (f e)) (h : Kept d e) :
    Kept d (refWatched f e) :=
  .ite (hf _ h).drawbarRefLost (hf _ h)

theorem Kept.govReg {who off v} (h : Kept d e) : Kept d (govReg who off v e) := h.regCmd

theorem Kept.tickAll (h : Kept d e) : Kept d (tickAll e) :=
  ((h.refWatched (fun _ h => h.tickCmd)).teamPart (fun _ h => h.slewTick)).digLates

theorem Kept.govPeriod (h : Kept d e) : Kept d (govPeriod e) :=
  .ite (h.govEvaluate.teamPart (fun _ h => h.sendPressure)) h

/-! ### Requesters at the yard -/

theorem Kept.memGet {w a op} {here : Dev → Dev} (hhere : ∀ e, Kept d e → Kept d (here e)) (h : Kept d e) :
    Kept d (memGet w a op here e) := by
  unfold Machine.memGet
  split
  · exact hhere _ h
  · exact h.farAsk
  · exact h.decodeError.answer

theorem Kept.memPut {w a bs} {here : Dev → Dev} (hhere : ∀ e, Kept d e → Kept d (here e)) (h : Kept d e) :
    Kept d (memPut w a bs here e) := by
  unfold Machine.memPut
  split
  · exact hhere _ h
  · exact h.farWrite
  · exact h.decodeError.launch

theorem Kept.yardGet {w a m n elem stride m0 upset} (h : Kept d e) :
    Kept d (yardGet w a m n elem stride m0 upset e) :=
  .ite h (h.memGet (fun _ h => h.yardReadCmd))

theorem Kept.noticeReaches {who} (h : Kept d e) : Kept d (noticeReaches who e) := by
  unfold Machine.noticeReaches
  split
  · exact h.hostWriteFailed
  · exact h.noticeCmd

theorem Kept.atomic {op core rd ra rb wide m} (h : Kept d e) : Kept d (atomic op core rd ra rb wide m e) :=
  h.issue (fun _ h => h.onWay.amoOp)

theorem Kept.descReg {who cluster code} (h : Kept d e) : Kept d (descReg who cluster code e) :=
  h.regCmd

theorem Kept.semInstr {op core rd ra rb count m} (h : Kept d e) :
    Kept d (semInstr op core rd ra rb count m e) :=
  h.issue (fun _ h => h.onWay.semOp)

/-! ### Program ends -/

theorem Kept.loadUpset {core ra imm upset} (h : Kept d e) : Kept d (loadUpset core ra imm upset e) := by
  unfold Machine.loadUpset
  dsimp only
  split
  · exact .ite h.upsetLram h
  · exact h

theorem Kept.coachInstr {core} {f : ℕ → Dev → CoreOut × Dev} (hf : ∀ i e, Kept d e → Kept d (f i e).2)
    (h : Kept d e) :
    Kept d (coachInstr core f e) :=
  h.issue (fun _ h => hf _ _ h)

/-! ### Enqueues -/

theorem Kept.depotTurn {f : Dev → Dev} (hf : ∀ e, Kept d e → Kept d (f e)) (h : Kept d e) :
    Kept d (depotTurn f e) :=
  .ite h (h.depotCheck hf)

theorem Kept.windowPut {who q img} (h : Kept d e) : Kept d (windowPut who q img e) := by
  unfold Machine.windowPut
  split
  · exact h.hostBar2
  · exact h.offerWindow

theorem Kept.headPut {who q v ep} (h : Kept d e) : Kept d (headPut who q v ep e) := by
  unfold Machine.headPut
  split
  · exact h.hostHead
  · exact h.cqHead

theorem Kept.queueReg {who code} (h : Kept d e) : Kept d (queueReg who code e) := h.regCmd

theorem Kept.waybillEnds {u} (h : Kept d e) : Kept d (waybillEnds u e) := by
  unfold Machine.waybillEnds
  split
  · exact .ite h h.finishRun
  · exact h

theorem Kept.cmpReg {who cmp key code} (h : Kept d e) : Kept d (cmpReg who cmp key code e) :=
  h.regCmd

/-! ### Graph commands -/

theorem Kept.graphReg {who v} (h : Kept d e) : Kept d (graphReg who v e) := h.regCmd

theorem Kept.eventArrives {arrives : FgsEvent → Option (Nat → Nat → Dev → Dev)}
    (harrives : ∀ x f, arrives x = some f → ∀ g i e, Kept d e → Kept d (f g i e)) (h : Kept d e) :
    Kept d (eventArrives arrives e) := by
  unfold Machine.eventArrives
  split
  · exact h
  split
  · exact h
  · exact .each (fun _ _ h => harrives _ _ ‹_› _ _ _ h.useTable) (.same h rfl)

theorem Kept.reportArrives (h : Kept d e) : Kept d (reportArrives e) := by
  unfold Machine.reportArrives
  split
  · exact h
  · exact .applyReport (.same h rfl)

theorem Kept.abandonDue {g f} (h : Kept d e) : Kept d (abandonDue g f e) := .ite h.abandonFrame h

theorem Kept.findingArrives (h : Kept d e) : Kept d (findingArrives e) := by
  unfold Machine.findingArrives
  split
  · exact h
  · exact .applyFinding (.same h rfl)

/-! ### Integrity commands -/

theorem Kept.digReg {who code} (h : Kept d e) : Kept d (digReg who code e) := h.regCmd

/-! ### Host commands -/

theorem Kept.outGet {who a len} (h : Kept d e) : Kept d (outGet who a len e) :=
  .ite h (.ite h.outRead h.outRead.answer)

theorem Kept.outPut {who a bs} (h : Kept d e) : Kept d (outPut who a bs e) := .ite h h.outWrite

/-! ### List commands -/

theorem Kept.regWith {who k} {f : Dev → Dev} (hf : ∀ e, Kept d e → Kept d (f e)) (h : Kept d e) :
    Kept d (regWith who k f e) :=
  h.pageTouched.dropLatch.guarded hf

theorem Kept.regEither {who k x} (h : Kept d e) : Kept d (regEither who k x e) := by
  cases x with
  | none => exact h.regGet
  | some v => exact h.regCmd

/-! ### Debug commands -/

theorem Kept.flashReg {who op opcode} (h : Kept d e) : Kept d (flashReg who op opcode e) := h.regCmd

end

/-! ### Every row but XSP_CMD_DONE -/

/-- Each row but XSP_CMD_DONE is an effect that keeps what every step keeps. -/
theorem exec_keeps (c : Instr) (s : State) (hc : ∀ status bs, c ≠ .xspCmdDone status bs) :
    ∃ f, exec c s = effect f s ∧ ∀ d e, Kept d e → Kept d (f e) := by
  unfold exec
  cases c with
  | registerWrite => exact ⟨_, rfl, fun _ _ h => h.addrPut⟩
  | counterReadClear => exact ⟨_, rfl, fun _ _ h => h.addrGet⟩
  | highWordLatch => exact ⟨_, rfl, fun _ _ h => h.addrGet⟩
  | stickyClear => exact ⟨_, rfl, fun _ _ h => h.onPage (fun _ h => h.regCmd)⟩
  | unitReset => exact ⟨_, rfl, fun _ _ h => h.onPage (fun _ h => h.regCmd)⟩
  | unitResetComplete => exact ⟨_, rfl, fun _ _ h => h.onPage (fun _ h => .ite h h.resetDone)⟩
  | stableReq => exact ⟨_, rfl, fun _ _ h => h.onPage (fun _ h => h.regCmd)⟩
  | probationReq => exact ⟨_, rfl, fun _ _ h => h.onPage (fun _ h => h.regCmd)⟩
  | enableWrite => exact ⟨_, rfl, fun _ _ h => h.onPage (fun _ h => h.regCmd)⟩
  | injectArm => exact ⟨_, rfl, fun _ _ h => h.onPage (fun _ h => h.regCmd)⟩
  | ownerWrite => exact ⟨_, rfl, fun _ _ h => h.onPage (fun _ h => h.regCmd)⟩
  | tick => exact ⟨_, rfl, fun _ _ h => h.tickAll⟩
  | refLost => exact ⟨_, rfl, fun _ _ h => h.refWatched (fun _ h => h.refLost)⟩
  | refUnlock => exact ⟨_, rfl, fun _ _ h => h.refWatched (fun _ h => h.refLost)⟩
  | holdoverSwitch => exact ⟨_, rfl, fun _ _ h => h.holdoverSwitch⟩
  | pllOutputsStop => exact ⟨_, rfl, fun _ _ h => h.pllOutputsStop⟩
  | refQualified => exact ⟨_, rfl, fun _ _ h => h.refQualified⟩
  | refRestore => exact ⟨_, rfl, fun _ _ h => h.regSetBit⟩
  | refRelocked => exact ⟨_, rfl, fun _ _ h => h.refRelocked⟩
  | refMeasure => exact ⟨_, rfl, fun _ _ h => h.refWatched (fun _ h => h.refMeasure)⟩
  | aonLost => exact ⟨_, rfl, fun _ _ h => h.aonLost⟩
  | stepRateMeasure => exact ⟨_, rfl, fun _ _ h => h.stepRate⟩
  | govEvaluate => exact ⟨_, rfl, fun _ _ h => h.govPeriod⟩
  | settleExpire => exact ⟨_, rfl, fun _ _ h => h.settleExpire⟩
  | pmbusTransactionDone => exact ⟨_, rfl, fun _ _ h => h.overPins (fun _ h => h.govOffBus)⟩
  | resume => exact ⟨_, rfl, fun _ _ h => h.regSetBit⟩
  | manualTargetWrite => exact ⟨_, rfl, fun _ _ h => h.govReg⟩
  | govModeWrite => exact ⟨_, rfl, fun _ _ h => h.govReg⟩
  | boostBucket => exact ⟨_, rfl, fun _ _ h => h.boostBucket⟩
  | tjSensorUpdate => exact ⟨_, rfl, fun _ _ h => h.tjUpdate⟩
  | thermalTrip => exact ⟨_, rfl, fun _ _ h => h.thermalTrip⟩
  | powerOnReset => exact ⟨_, rfl, fun _ _ h => h.powerOnReset⟩
  | vaonLoss => exact ⟨_, rfl, fun _ _ h => h.vaonLoss⟩
  | pgRise => exact ⟨_, rfl, fun _ _ h => h.pgRise⟩
  | railWaitExpire => exact ⟨_, rfl, fun _ _ h => h.railWaited⟩
  | pgTimeout => exact ⟨_, rfl, fun _ _ h => h.pgTimeout⟩
  | powerFault => exact ⟨_, rfl, fun _ _ h => h.powerFault⟩
  | seqDownEnd => exact ⟨_, rfl, fun _ _ h => h.seqDownEnd⟩
  | retryExpire => exact ⟨_, rfl, fun _ _ h => h.retryExpire⟩
  | strapSample => exact ⟨_, rfl, fun _ _ h => h.strapSample⟩
  | refBootTimeout => exact ⟨_, rfl, fun _ _ h => h.refWatched (fun _ h => h.refBootTimeout)⟩
  | resetNAssert => exact ⟨_, rfl, fun _ _ h => h.resetAssert⟩
  | resetNRelease => exact ⟨_, rfl, fun _ _ h => h.resetRelease⟩
  | testEnAssert => exact ⟨_, rfl, fun _ _ h => h.testEnLevel⟩
  | warmReset => exact ⟨_, rfl, fun _ _ h => h.regCmd⟩
  | warmResetSweepDone => exact ⟨_, rfl, fun _ _ h => h.sweepEnded⟩
  | warmResetVoutWaitExpire => exact ⟨_, rfl, fun _ _ h => h.voutWaited⟩
  | perstNAssert => exact ⟨_, rfl, fun _ _ h => h.perstAssert⟩
  | perstNRelease => exact ⟨_, rfl, fun _ _ h => h.perstRelease⟩
  | bootRomStart => exact ⟨_, rfl, fun _ _ h => h.bootStart⟩
  | bootHostDoorbell => exact ⟨_, rfl, fun _ _ h => h.regCmd⟩
  | hostBootTimeout => exact ⟨_, rfl, fun _ _ h => h.hostTimeout⟩
  | bootImageCheck => exact ⟨_, rfl, fun _ _ h => h.bootCheck⟩
  | wdtKick => exact ⟨_, rfl, fun _ _ h => h.regCmd⟩
  | wdtExpire => exact ⟨_, rfl, fun _ _ h => h.wdtExpire⟩
  | dormantReq => exact ⟨_, rfl, fun _ _ h => h.regCmd⟩
  | wakeEvent => exact ⟨_, rfl, fun _ _ h => h.wakeEvent⟩
  | rtcAlarm => exact ⟨_, rfl, fun _ _ h => h.rtcAlarm⟩
  | yardRead => exact ⟨_, rfl, fun _ _ h => h.yardGet⟩
  | yardWrite => exact ⟨_, rfl, fun _ _ h => h.memPut (fun _ h => h.yardWriteCmd)⟩
  | postedWriteAck => exact ⟨_, rfl, fun _ _ h => h.ackCmd⟩
  | failureNotice => exact ⟨_, rfl, fun _ _ h => h.noticeReaches⟩
  | amoAdd => exact ⟨_, rfl, fun _ _ h => h.atomic⟩
  | amoAnd => exact ⟨_, rfl, fun _ _ h => h.atomic⟩
  | amoOr => exact ⟨_, rfl, fun _ _ h => h.atomic⟩
  | amoSwap => exact ⟨_, rfl, fun _ _ h => h.atomic⟩
  | amoCas => exact ⟨_, rfl, fun _ _ h => h.atomic⟩
  | amoMin => exact ⟨_, rfl, fun _ _ h => h.atomic⟩
  | amoMax => exact ⟨_, rfl, fun _ _ h => h.atomic⟩
  | amoMinu => exact ⟨_, rfl, fun _ _ h => h.atomic⟩
  | amoMaxu => exact ⟨_, rfl, fun _ _ h => h.atomic⟩
  | descRead => exact ⟨_, rfl, fun _ _ h => h.descReg⟩
  | descCommit => exact ⟨_, rfl, fun _ _ h => h.descReg⟩
  | descRelease => exact ⟨_, rfl, fun _ _ h => h.descReg⟩
  | descModify => exact ⟨_, rfl, fun _ _ h => h.descReg⟩
  | sweepDone => exact ⟨_, rfl, fun _ _ h => h.sweepDone.bootReleased⟩
  | tallyIncrement => exact ⟨_, rfl, fun _ _ h => h.onWay.tallyIncrement⟩
  | tallyRearm => exact ⟨_, rfl, fun _ _ h => h.regCmd⟩
  | tallyWatchRegister => exact ⟨_, rfl, fun _ _ h => h.watchRegister⟩
  | semSignal => exact ⟨_, rfl, fun _ _ h => h.semInstr⟩
  | semWait => exact ⟨_, rfl, fun _ _ h => h.semInstr⟩
  | semAcquire => exact ⟨_, rfl, fun _ _ h => h.semInstr⟩
  | semRelease => exact ⟨_, rfl, fun _ _ h => h.semInstr⟩
  | semTimeout => exact ⟨_, rfl, fun _ _ h => h.semTimeout⟩
  | semKindWrite => exact ⟨_, rfl, fun _ _ h => h.regCmd⟩
  | semValueWrite => exact ⟨_, rfl, fun _ _ h => h.regCmd⟩
  | lockReap => exact ⟨_, rfl, fun _ _ h => h.onWay.lockReap⟩
  | lockReapDone => exact ⟨_, rfl, fun _ _ h => h.lockReapDone⟩
  | fence => exact ⟨_, rfl, fun _ _ h => h.issue (fun _ h => h.fenceOp)⟩
  | rspTimeout => exact ⟨_, rfl, fun _ _ h => h.rspTimeout⟩
  | lateRsp => exact ⟨_, rfl, fun _ _ h => h.lateRspCmd⟩
  | epochCmd => exact ⟨_, rfl, fun _ _ h => h.regCmd⟩
  | epochSwitchDone => exact ⟨_, rfl, fun _ _ h => h.epochSwitchDone⟩
  | epochSlow => exact ⟨_, rfl, fun _ _ h => h.epochSlow⟩
  | routeDataWrite => exact ⟨_, rfl, fun _ _ h => h.regCmd⟩
  | linkStable => exact ⟨_, rfl, fun _ _ h => h.regCmd⟩
  | linkProbation => exact ⟨_, rfl, fun _ _ h => h.regCmd⟩
  | stackRead => exact ⟨_, rfl, fun _ _ h => h.memGet (fun _ h => h.stackReadCmd)⟩
  | stackWrite => exact ⟨_, rfl, fun _ _ h => h.memPut (fun _ h => h.stackWriteCmd)⟩
  | stackTempRead => exact ⟨_, rfl, fun _ _ h => h.stackTemp⟩
  | stackTrainingDone => exact ⟨_, rfl, fun _ _ h => h.trainingDone⟩
  | stackRecalDone => exact ⟨_, rfl, fun _ _ h => h.recalDone⟩
  | recalWindow => exact ⟨_, rfl, fun _ _ h => h.recalWindow⟩
  | patrolRead => exact ⟨_, rfl, fun _ _ h => h.patrolRead⟩
  | patrolDebtTick => exact ⟨_, rfl, fun _ _ h => h.patrolDebt⟩
  | pcCmdStable => exact ⟨_, rfl, fun _ _ h => h.onPage (fun _ h => h.regCmd)⟩
  | migrateDone => exact ⟨_, rfl, fun _ _ h => h.migrateDone⟩
  | spareEnWrite => exact ⟨_, rfl, fun _ _ h => h.regCmd⟩
  | waybillStart => exact ⟨_, rfl, fun _ _ h => h.waybillStart⟩
  | scalarAlu => exact ⟨_, rfl, fun _ _ h => h.issue (fun _ h => h.scalarAlu)⟩
  | scalarImmediate => exact ⟨_, rfl, fun _ _ h => h.issue (fun _ h => h.scalarImm)⟩
  | lui => exact ⟨_, rfl, fun _ _ h => h.issue (fun _ h => h.lui)⟩
  | load => exact ⟨_, rfl, fun _ _ h => h.issue (fun _ h => h.loadUpset.onWay.loadOp)⟩
  | store => exact ⟨_, rfl, fun _ _ h => h.issue (fun _ h => h.onWay.storeOp)⟩
  | branch => exact ⟨_, rfl, fun _ _ h => h.issue (fun _ h => h.branchTo)⟩
  | jal => exact ⟨_, rfl, fun _ _ h => h.issue (fun _ h => h.jal)⟩
  | jalr => exact ⟨_, rfl, fun _ _ h => h.issue (fun _ h => h.jalr)⟩
  | loop => exact ⟨_, rfl, fun _ _ h => h.issue (fun _ h => h.loopOp)⟩
  | vectorInteger => exact ⟨_, rfl, fun _ _ h => h.coachInstr (fun _ _ h => h.vectorInt)⟩
  | vectorFloat => exact ⟨_, rfl, fun _ _ h => h.coachInstr (fun _ _ h => h.vectorFloat)⟩
  | vectorCompare => exact ⟨_, rfl, fun _ _ h => h.coachInstr (fun _ _ h => h.vectorCompare)⟩
  | vectorPermute => exact ⟨_, rfl, fun _ _ h => h.coachInstr (fun _ _ h => h.vectorPermute)⟩
  | vectorConvert => exact ⟨_, rfl, fun _ _ h => h.coachInstr (fun _ _ h => h.vectorConvert)⟩
  | vectorMove => exact ⟨_, rfl, fun _ _ h => h.coachInstr (fun _ _ h => h.vectorMove)⟩
  | vld => exact ⟨_, rfl, fun _ _ h => h.coachInstr (fun _ _ h => h.onWay.vld)⟩
  | vst => exact ⟨_, rfl, fun _ _ h => h.coachInstr (fun _ _ h => h.onWay.vst)⟩
  | mma => exact ⟨_, rfl, fun _ _ h => h.coachInstr (fun _ _ h => h.mma)⟩
  | mrd => exact ⟨_, rfl, fun _ _ h => h.coachInstr (fun _ _ h => h.mrd)⟩
  | mwr => exact ⟨_, rfl, fun _ _ h => h.coachInstr (fun _ _ h => h.mwr)⟩
  | mclr => exact ⟨_, rfl, fun _ _ h => h.coachInstr (fun _ _ h => h.mclr)⟩
  | wbwait => exact ⟨_, rfl, fun _ _ h => h.coachInstr (fun _ _ h => h.wbwait)⟩
  | stcfg => exact ⟨_, rfl, fun _ _ h => h.coachInstr (fun _ _ h => h.stcfg)⟩
  | ststart => exact ⟨_, rfl, fun _ _ h => h.coachInstr (fun _ _ h => h.onWay.ststart)⟩
  | ststop => exact ⟨_, rfl, fun _ _ h => h.coachInstr (fun _ _ h => h.ststop)⟩
  | stwait => exact ⟨_, rfl, fun _ _ h => h.coachInstr (fun _ _ h => h.onWay.stwait)⟩
  | ststat => exact ⟨_, rfl, fun _ _ h => h.coachInstr (fun _ _ h => h.ststat)⟩
  | streamComplete => exact ⟨_, rfl, fun _ _ h => h.onWay.streamComplete⟩
  | twait => exact ⟨_, rfl, fun _ _ h => h.twait⟩
  | twaitTimeout => exact ⟨_, rfl, fun _ _ h => h.twaitTimeout⟩
  | watchRetry => exact ⟨_, rfl, fun _ _ h => h.depotTurn fun _ h => h.watchRetry⟩
  | trearm => exact ⟨_, rfl, fun _ _ h => h.issue (fun _ h => h.trearm)⟩
  | enq => exact ⟨_, rfl, fun _ _ h => h.issue (fun _ h => h.enqOp)⟩
  | csrr => exact ⟨_, rfl, fun _ _ h => h.issue (fun _ h => h.csrRead)⟩
  | csrw => exact ⟨_, rfl, fun _ _ h => h.issue (fun _ h => h.csrWrite)⟩
  | trap => exact ⟨_, rfl, fun _ _ h => h.issue (fun _ h => h.trapOp)⟩
  | brk => exact ⟨_, rfl, fun _ _ h => h.brk⟩
  | xret => exact ⟨_, rfl, fun _ _ h => h.issue (fun _ h => h.xretOp)⟩
  | done => exact ⟨_, rfl, fun _ _ h => h.issue (fun _ h => h.doneOp)⟩
  | abort => exact ⟨_, rfl, fun _ _ h => h.issue (fun _ h => h.abortOp)⟩
  | scsrr => exact ⟨_, rfl, fun _ _ h => h.issue (fun _ h => h.superOnly (fun _ h => h.csrRead))⟩
  | scsrw => exact ⟨_, rfl, fun _ _ h => h.issue (fun _ h => h.superOnly (fun _ h => h.csrWrite))⟩
  | sbrd => exact ⟨_, rfl, fun _ _ h => h.issue (fun _ h => h.sbrdOp)⟩
  | sret => exact ⟨_, rfl, fun _ _ h => h.issue (fun _ h => h.sretOp)⟩
  | wfi => exact ⟨_, rfl, fun _ _ h => h.issue (fun _ h => h.wfiOp)⟩
  | li => exact ⟨_, rfl, fun _ _ h => h.issue (fun _ h => h.li)⟩
  | lih => exact ⟨_, rfl, fun _ _ h => h.issue (fun _ h => h.lih)⟩
  | accessImprecise => exact ⟨_, rfl, fun _ _ h => h.imprecise⟩
  | interrupt => exact ⟨_, rfl, fun _ _ h => h.interrupt⟩
  | dbgHaltReq => exact ⟨_, rfl, fun _ _ h => h.regCmd⟩
  | dbgStep => exact ⟨_, rfl, fun _ _ h => h.regSetBit⟩
  | lramClear => exact ⟨_, rfl, fun _ _ h => h.regCmd⟩
  | lramClearDone => exact ⟨_, rfl, fun _ _ h => h.lramCleared⟩
  | enqueueWindowWrite => exact ⟨_, rfl, fun _ _ h => h.depotCheck fun _ h => h.onWay.windowPut⟩
  | brakeTimeout => exact ⟨_, rfl, fun _ _ h => h.depotTurn fun _ h => h.brakeTimeout⟩
  | recordToken => exact ⟨_, rfl, fun _ _ h => h.depotCheck fun _ h => h.windowPut⟩
  | recordDecrement => exact ⟨_, rfl, fun _ _ h => h.depotCheck fun _ h => h.windowPut⟩
  | qcmdRead => exact ⟨_, rfl, fun _ _ h => h.queueReg⟩
  | qcmdCommit => exact ⟨_, rfl, fun _ _ h => h.queueReg⟩
  | qcmdModify => exact ⟨_, rfl, fun _ _ h => h.queueReg⟩
  | qcmdRelease => exact ⟨_, rfl, fun _ _ h => h.queueReg⟩
  | qcmdPurge => exact ⟨_, rfl, fun _ _ h => h.queueReg⟩
  | ctrClear => exact ⟨_, rfl, fun _ _ h => h.regCmd⟩
  | timetableFire => exact ⟨_, rfl, fun _ _ h => h.depotTurn fun _ h => h.timetableFire⟩
  | placement => exact ⟨_, rfl, fun _ _ h => h.depotTurn fun _ h => h.onWay.placement⟩
  | slottedStart => exact ⟨_, rfl, fun _ _ h => h.depotTurn fun _ h => h.slottedStart⟩
  | waybillEnd => exact ⟨_, rfl, fun _ _ h => h.depotTurn fun _ h => h.onWay.waybillEnds⟩
  | cqHeadWrite => exact ⟨_, rfl, fun _ _ h => h.depotCheck fun _ h => h.headPut⟩
  | dispatchEpochBoundary => exact ⟨_, rfl, fun _ _ h => h.depotTurn fun _ h => h.periodicBoundary⟩
  | dptEpochCmd => exact ⟨_, rfl, fun _ _ h => h.regCmd⟩
  | backingRetry => exact ⟨_, rfl, fun _ _ h => h.depotTurn fun _ h => h.onWay.backingRetry⟩
  | duplicateAbandon => exact ⟨_, rfl, fun _ _ h => h.depotTurn fun _ h => h.duplicateAbandon⟩
  | cmpActivate => exact ⟨_, rfl, fun _ _ h => h.cmpReg⟩
  | cmpReset => exact ⟨_, rfl, fun _ _ h => h.cmpReg⟩
  | cmpKill => exact ⟨_, rfl, fun _ _ h => h.cmpReg⟩
  | cmpDrainDone => exact ⟨_, rfl, fun _ _ h => h.cmpDrainDone⟩
  | stackWindowZeroed => exact ⟨_, rfl, fun _ _ h => h.windowZeroed⟩
  | coachMaskWrite => exact ⟨_, rfl, fun _ _ h => h.regPut⟩
  | otherMaskWrite => exact ⟨_, rfl, fun _ _ h => h.regCmd⟩
  | stkwinWrite => exact ⟨_, rfl, fun _ _ h => h.regPut⟩
  | evqWrite => exact ⟨_, rfl, fun _ _ h => h.regCmd⟩
  | sharePeriodEnd => exact ⟨_, rfl, fun _ _ h => h.sharePeriodEnd⟩
  | csiFrameStart => exact ⟨_, rfl, fun _ _ h => h.overPins (fun _ h => h.csiFrameStart)⟩
  | csiFrameEnd => exact ⟨_, rfl, fun _ _ h => h.overPins (fun _ h => h.csiFrameEnd)⟩
  | csiLineStart => exact ⟨_, rfl, fun _ _ h => h.overPins (fun _ h => h.csiLineStart)⟩
  | csiLineEnd => exact ⟨_, rfl, fun _ _ h => h.overPins (fun _ h => h.csiLineEnd)⟩
  | csiLongPacket => exact ⟨_, rfl, fun _ _ h => h.overPins (fun _ h => h.onWay.csiLongPacket)⟩
  | csiDeskew => exact ⟨_, rfl, fun _ _ h => h.overPins (fun _ h => h.csiDeskew)⟩
  | lineTimeout => exact ⟨_, rfl, fun _ _ h => h.lineTimeout⟩
  | frameCloseDrained => exact ⟨_, rfl, fun _ _ h => h.onWay.closeDrained⟩
  | frameRecordDone => exact ⟨_, rfl, fun _ _ h => h.onWay.recordDone⟩
  | streamRelease => exact ⟨_, rfl, fun _ _ h => h.regCmd⟩
  | streamReplug => exact ⟨_, rfl, fun _ _ h => h.regCmd⟩
  | bindEnable => exact ⟨_, rfl, fun _ _ h => h.regCmd⟩
  | hotplugFall => exact ⟨_, rfl, fun _ _ h => h.hotplugFall⟩
  | hotplugRise => exact ⟨_, rfl, fun _ _ h => h.hotplugRise⟩
  | replugHoldExpire => exact ⟨_, rfl, fun _ _ h => h.replugExpire⟩
  | absentTicksExpire => exact ⟨_, rfl, fun _ _ h => h.absentExpire⟩
  | fsyncEnable => exact ⟨_, rfl, fun _ _ h => h.regCmd⟩
  | fsyncWidthExpire => exact ⟨_, rfl, fun _ _ h => h.fsyncEnd⟩
  | engineJobStart => exact ⟨_, rfl, fun _ _ h => h.onWay.engineStart⟩
  | pyrJob => exact ⟨_, rfl, fun _ _ h => h.onWay.pyrRun⟩
  | wrpJob => exact ⟨_, rfl, fun _ _ h => h.onWay.wrpRun⟩
  | strJob => exact ⟨_, rfl, fun _ _ h => h.onWay.strRun⟩
  | flwJob => exact ⟨_, rfl, fun _ _ h => h.onWay.flwRun⟩
  | ftrDetect => exact ⟨_, rfl, fun _ _ h => h.onWay.detectRun⟩
  | ftrMatch => exact ⟨_, rfl, fun _ _ h => h.onWay.matchRun⟩
  | engineJobEnd => exact ⟨_, rfl, fun _ _ h => h.jobEnd⟩
  | graphLoad => exact ⟨_, rfl, fun _ _ h => h.onWay.graphReg⟩
  | graphStart => exact ⟨_, rfl, fun _ _ h => h.onWay.graphReg⟩
  | graphStop => exact ⟨_, rfl, fun _ _ h => h.graphReg⟩
  | graphUnload => exact ⟨_, rfl, fun _ _ h => h.graphReg⟩
  | graphTrigger => exact ⟨_, rfl, fun _ _ h => h.graphReg⟩
  | fgsFrameStart =>
    refine ⟨_, rfl, fun _ _ h => h.eventArrives fun x f hf _ _ _ h => ?_⟩
    split at hf <;> cases hf
    exact h.frameStart
  | joinWindowExpire => exact ⟨_, rfl, fun _ _ h => h.joinExpire⟩
  | fgsFrameEnd =>
    refine ⟨_, rfl, fun _ _ h => h.eventArrives fun x f hf _ _ _ h => ?_⟩
    split at hf <;> cases hf
    exact h.frameEnd
  | fgsAbsentEvent =>
    refine ⟨_, rfl, fun _ _ h => h.eventArrives fun x f hf _ _ _ h => ?_⟩
    split at hf <;> cases hf
    exact h.absentTicket
  | nodeReport => exact ⟨_, rfl, fun _ _ h => h.reportArrives⟩
  | abandonDeadline => exact ⟨_, rfl, fun _ _ h => h.abandonDue⟩
  | suspectFinding => exact ⟨_, rfl, fun _ _ h => h.findingArrives⟩
  | fgsBackingRetry => exact ⟨_, rfl, fun _ _ h => h.onWay.graphRetry⟩
  | shadowEnd => exact ⟨_, rfl, fun _ _ h => h.shadowEnd⟩
  | tiebreakEnd => exact ⟨_, rfl, fun _ _ h => h.tiebreakEnd⟩
  | gateWaitExpire => exact ⟨_, rfl, fun _ _ h => h.gateExpire⟩
  | ledgerWindowEnd => exact ⟨_, rfl, fun _ _ h => h.ledgerWindowEnd⟩
  | digRegister => exact ⟨_, rfl, fun _ _ h => h.digReg⟩
  | digCheckNow => exact ⟨_, rfl, fun _ _ h => h.digReg⟩
  | digRemove => exact ⟨_, rfl, fun _ _ h => h.digReg⟩
  | digestCheckStart => exact ⟨_, rfl, fun _ _ h => h.digestStart⟩
  | digestCheckDone => exact ⟨_, rfl, fun _ _ h => h.onWay.digestDone⟩
  | xcStart => exact ⟨_, rfl, fun _ _ h => h.regCmd⟩
  | xcheckRoundDone => exact ⟨_, rfl, fun _ _ h => h.xcRound⟩
  | probationTestDone => exact ⟨_, rfl, fun _ _ h => h.probeDone⟩
  | scoreDecay => exact ⟨_, rfl, fun _ _ h => h.scoreDecay⟩
  | retStatusRead => exact ⟨_, rfl, fun _ _ h => h.regGet⟩
  | retDataRead => exact ⟨_, rfl, fun _ _ h => h.regGet⟩
  | yardScrubRow => exact ⟨_, rfl, fun _ _ h => h.onWay.scrubRow⟩
  | scrubWriteback => exact ⟨_, rfl, fun _ _ h => h.scrubWrite⟩
  | marginProbe => exact ⟨_, rfl, fun _ _ h => h.marginProbe⟩
  | agingMeasure => exact ⟨_, rfl, fun _ _ h => h.agingMeasure⟩
  | tlmSample => exact ⟨_, rfl, fun _ _ h => h.tlmSample⟩
  | tlmRecord => exact ⟨_, rfl, fun _ _ h => h.onWay.tlmRecord⟩
  | snapTake => exact ⟨_, rfl, fun _ _ h => h.regSetBit⟩
  | tlmSnapshot => exact ⟨_, rfl, fun _ _ h => h.onWay.tlmSnapshot⟩
  | hostBar0Access => exact ⟨_, rfl, fun _ _ h => h.overPins (fun _ h => h.hostBar0)⟩
  | hostBar2Enqueue => exact ⟨_, rfl, fun _ _ h => h.overPins (fun _ h => h.hostBar2)⟩
  | hostBar4Read => exact ⟨_, rfl, fun _ _ h => h.overPins (fun _ h => h.hostBar4Read)⟩
  | hostBar4Write => exact ⟨_, rfl, fun _ _ h => h.overPins (fun _ h => h.hostBar4Write)⟩
  | hostWriteFailed => exact ⟨_, rfl, fun _ _ h => h.hostWriteFailed⟩
  | outboundRead => exact ⟨_, rfl, fun _ _ h => h.outGet⟩
  | outboundReadComplete => exact ⟨_, rfl, fun _ _ h => h.overPins (fun _ h => h.outReadDone)⟩
  | outboundWrite => exact ⟨_, rfl, fun _ _ h => h.outPut⟩
  | outboundWriteAck => exact ⟨_, rfl, fun _ _ h => h.overPins (fun _ h => h.outWriteAck)⟩
  | functionLevelReset => exact ⟨_, rfl, fun _ _ h => h.overPins (fun _ h => h.functionReset)⟩
  | configWrite => exact ⟨_, rfl, fun _ _ h => h.overPins (fun _ h => h.configWrite)⟩
  | vecBindWrite => exact ⟨_, rfl, fun _ _ h => h.regCmd⟩
  | vectorArm => exact ⟨_, rfl, fun _ _ h => h.regSetBit⟩
  | hostLinkDown => exact ⟨_, rfl, fun _ _ h => h.hostLinkDown⟩
  | hostLinkUp => exact ⟨_, rfl, fun _ _ h => h.hostLinkUp⟩
  | refclkLost => exact ⟨_, rfl, fun _ _ h => h.refclkLost⟩
  | refclkRestored => exact ⟨_, rfl, fun _ _ h => h.refclkRestored⟩
  | portEnable => exact ⟨_, rfl, fun _ _ h => h.onPage (fun _ h => h.regCmd)⟩
  | portLocked => exact ⟨_, rfl, fun _ _ h => h.overPins (fun _ h => h.teamPart (fun _ h => h.portLocked))⟩
  | portTrainingTimeout => exact ⟨_, rfl, fun _ _ h => h.teamPart (fun _ h => h.trainingTimeout)⟩
  | portDownExpire => exact ⟨_, rfl, fun _ _ h => h.teamPart (fun _ h => h.downExpire)⟩
  | hello => exact ⟨_, rfl, fun _ _ h => h.overPins (fun _ h => h.teamPart (fun _ h => h.helloFlit))⟩
  | dataFlit => exact ⟨_, rfl, fun _ _ h => h.overPins (fun _ h => h.teamPart (fun _ h => h.dataFlit))⟩
  | nak => exact ⟨_, rfl, fun _ _ h => h.overPins (fun _ h => h.teamPart (fun _ h => h.nakFlit))⟩
  | replayTimeout => exact ⟨_, rfl, fun _ _ h => h.teamPart (fun _ h => h.replayTimeout)⟩
  | retrainDone => exact ⟨_, rfl, fun _ _ h => h.overPins (fun _ h => h.teamPart (fun _ h => h.retrainDone))⟩
  | form => exact ⟨_, rfl, fun _ _ h => h.onPage (fun _ h => h.regCmd)⟩
  | formNoPath => exact ⟨_, rfl, fun _ _ h => h.teamPart (fun _ h => h.formNoPath)⟩
  | echo => exact ⟨_, rfl, fun _ _ h => h.teamPart (fun _ h => h.echoSend)⟩
  | echoReply => exact ⟨_, rfl, fun _ _ h => h.overPins (fun _ h => h.teamPart (fun _ h => h.echoReplied))⟩
  | tickSyncSend => exact ⟨_, rfl, fun _ _ h => h.teamPart (fun _ h => h.syncSend)⟩
  | tickSync => exact ⟨_, rfl, fun _ _ h => h.overPins (fun _ h => h.teamPart (fun _ h => h.tickSync))⟩
  | memberTimeout => exact ⟨_, rfl, fun _ _ h => h.teamPart (fun _ h => h.memberTimeout)⟩
  | mgmtRead => exact ⟨_, rfl, fun _ _ h => h.overPins (fun _ h => h.mgmtRead)⟩
  | mgmtWrite => exact ⟨_, rfl, fun _ _ h => h.overPins (fun _ h => h.mgmtWrite)⟩
  | mgmtStatus => exact ⟨_, rfl, fun _ _ h => h.overPins (fun _ h => h.mgmtStatus)⟩
  | mgmtReadPhase => exact ⟨_, rfl, fun _ _ h => h.overPins (fun _ h => h.mgmtReadPhase)⟩
  | alertResponseRead => exact ⟨_, rfl, fun _ _ h => h.overPins (fun _ h => h.alertRead)⟩
  | entdaa => exact ⟨_, rfl, fun _ _ h => h.overPins (fun _ h => h.entDaa)⟩
  | setdasa => exact ⟨_, rfl, fun _ _ h => h.overPins (fun _ h => h.entDaa)⟩
  | setnewda => exact ⟨_, rfl, fun _ _ h => h.overPins (fun _ h => h.ccc (fun _ h => h.assignDyn))⟩
  | rstdaa => exact ⟨_, rfl, fun _ _ h => h.overPins (fun _ h => h.rstDaa)⟩
  | enec => exact ⟨_, rfl, fun _ _ h => h.overPins (fun _ h => h.enec)⟩
  | disec => exact ⟨_, rfl, fun _ _ h => h.overPins (fun _ h => h.disec)⟩
  | getpid => exact ⟨_, rfl, fun _ _ h => h.overPins (fun _ h => h.getCcc)⟩
  | getbcr => exact ⟨_, rfl, fun _ _ h => h.overPins (fun _ h => h.getCcc)⟩
  | getdcr => exact ⟨_, rfl, fun _ _ h => h.overPins (fun _ h => h.getCcc)⟩
  | getstatus => exact ⟨_, rfl, fun _ _ h => h.overPins (fun _ h => h.getStatus)⟩
  | setmwl => exact ⟨_, rfl, fun _ _ h => h.overPins (fun _ h => h.ccc (fun _ h => h.updMgmt))⟩
  | setmrl => exact ⟨_, rfl, fun _ _ h => h.overPins (fun _ h => h.ccc (fun _ h => h.updMgmt))⟩
  | getmwl => exact ⟨_, rfl, fun _ _ h => h.overPins (fun _ h => h.getCcc)⟩
  | getmrl => exact ⟨_, rfl, fun _ _ h => h.overPins (fun _ h => h.getCcc)⟩
  | mgmtSclTimeout => exact ⟨_, rfl, fun _ _ h => h.overPins (fun _ h => h.sclTimeout)⟩
  | ibiRetry => exact ⟨_, rfl, fun _ _ h => h.overPins (fun _ h => h.ibiRetry)⟩
  | hotJoin => exact ⟨_, rfl, fun _ _ h => h.overPins (fun _ h => h.hotJoin)⟩
  | listRun => exact ⟨_, rfl, fun _ _ h => h.regCmd⟩
  | listWrite => exact ⟨_, rfl, fun _ _ h => h.overPins (fun _ h => h.listTxn)⟩
  | listCheck => exact ⟨_, rfl, fun _ _ h => h.overPins (fun _ h => h.listTxn)⟩
  | listDelay => exact ⟨_, rfl, fun _ _ h => h.listDelay⟩
  | listRead => exact ⟨_, rfl, fun _ _ h => h.overPins (fun _ h => h.listTxn)⟩
  | listEnd => exact ⟨_, rfl, fun _ _ h => h.listEnd⟩
  | addrRetry => exact ⟨_, rfl, fun _ _ h => h.overPins (fun _ h => h.addrRetry)⟩
  | arbLostRetry => exact ⟨_, rfl, fun _ _ h => h.overPins (fun _ h => h.arbRetry)⟩
  | stretchTimeout => exact ⟨_, rfl, fun _ _ h => h.overPins (fun _ h => h.stretchTimeout)⟩
  | recover => exact ⟨_, rfl, fun _ _ h => h.regWith (fun _ h => h.recoverBus)⟩
  | listDirWrite => exact ⟨_, rfl, fun _ _ h => h.regCmd⟩
  | lramDataAccess => exact ⟨_, rfl, fun _ _ h => h.regEither⟩
  | govPage => exact ⟨_, rfl, fun _ _ h => h.overPins (fun _ h => h.govOnBus (fun _ h => h.govPage))⟩
  | govVoutCommand => exact ⟨_, rfl, fun _ _ h => h.overPins (fun _ h => h.govOnBus (fun _ h => h.govVout))⟩
  | govReadVout => exact ⟨_, rfl, fun _ _ h => h.overPins (fun _ h => h.govOnBus (fun _ h => h.govRead))⟩
  | debounceExpire => exact ⟨_, rfl, fun _ _ h => h.debounceEnds⟩
  | eventGapEnd => exact ⟨_, rfl, fun _ _ h => h.gapEnds⟩
  | stuckExpire => exact ⟨_, rfl, fun _ _ h => h.stuckEnds⟩
  | rearmExpire => exact ⟨_, rfl, fun _ _ h => h.rearmEnds⟩
  | touchScan => exact ⟨_, rfl, fun _ _ h => h.touchScan⟩
  | dormantTouchScan => exact ⟨_, rfl, fun _ _ h => h.dormantScan⟩
  | inputCfgWrite => exact ⟨_, rfl, fun _ _ h => h.regWith (fun _ h => h.inputCfg)⟩
  | ledCtrlWrite => exact ⟨_, rfl, fun _ _ h => h.regCmd⟩
  | ledRestart => exact ⟨_, rfl, fun _ _ h => h.regCmd⟩
  | ledSlotAdvance => exact ⟨_, rfl, fun _ _ h => h.ledAdvance⟩
  | tapReset => exact ⟨_, rfl, fun _ _ h => h.tapReset⟩
  | idcode => exact ⟨_, rfl, fun _ _ h => h.tapIdcode⟩
  | samplePreload => exact ⟨_, rfl, fun _ _ h => h.tapScan⟩
  | extest => exact ⟨_, rfl, fun _ _ h => h.tapScan⟩
  | highz => exact ⟨_, rfl, fun _ _ h => h.tapLoad⟩
  | clamp => exact ⟨_, rfl, fun _ _ h => h.tapLoad⟩
  | extestPulse => exact ⟨_, rfl, fun _ _ h => h.tapScan⟩
  | extestTrain => exact ⟨_, rfl, fun _ _ h => h.tapScan⟩
  | bypass => exact ⟨_, rfl, fun _ _ h => h.tapLoad⟩
  | memAccess => exact ⟨_, rfl, fun _ _ h => h.memAccess⟩
  | strongbox => exact ⟨_, rfl, fun _ _ h => h.tapBox⟩
  | uartRead => exact ⟨_, rfl, fun _ _ h => h.overPins (fun _ h => h.uartCommand)⟩
  | uartWrite => exact ⟨_, rfl, fun _ _ h => h.overPins (fun _ h => h.uartCommand)⟩
  | uartIdent => exact ⟨_, rfl, fun _ _ h => h.overPins (fun _ h => h.uartCommand)⟩
  | progCmd => exact ⟨_, rfl, fun _ _ h => h.updPwr.regWith (fun _ h => h.progCmd)⟩
  | fuseProgDone => exact ⟨_, rfl, fun _ _ h => h.progDone⟩
  | xspPageProgram => exact ⟨_, rfl, fun _ _ h => h.flashReg⟩
  | xspErase4k => exact ⟨_, rfl, fun _ _ h => h.flashReg⟩
  | xspErase64k => exact ⟨_, rfl, fun _ _ h => h.flashReg⟩
  | xspRegisterRead => exact ⟨_, rfl, fun _ _ h => h.flashReg⟩
  | xspCmdDone status bs => exact absurd rfl (hc status bs)
  | flashTimeout => exact ⟨_, rfl, fun _ _ h => h.flashTimeout⟩
  | aonRestored => exact ⟨_, rfl, fun _ _ h => h.aonRestored⟩
  | aonCycle => exact ⟨_, rfl, fun _ _ h => h.aonCycle⟩
  | stackRefresh => exact ⟨_, rfl, fun _ _ h => h.stackRefresh⟩
  | recalChannelDone => exact ⟨_, rfl, fun _ _ h => h.recalChannelDone⟩
  | inBandLinkReset => exact ⟨_, rfl, fun _ _ h => h.overPins (fun _ h => h.inBandReset)⟩
  | idleFlit => exact ⟨_, rfl, fun _ _ h => h.overPins (fun _ h => h.teamPart (fun _ h => h.idleFlit))⟩
  | echoReceive => exact ⟨_, rfl, fun _ _ h => h.overPins (fun _ h => h.teamPart (fun _ h => h.echoReceive))⟩
  | pinLevelChange => exact ⟨_, rfl, fun _ _ h => h.pinChanges⟩
  | pwmPeriodBoundary => exact ⟨_, rfl, fun _ _ h => h.pwmBoundary⟩
  | domainMeasure => exact ⟨_, rfl, fun _ _ h => h.domainMeasure⟩

/-! ### The boot flash (R598) -/

/-- Sparse contents that stay canonical, the part, and blown fuse bits, whatever the flash holds. -/
structure KeptButFlash (d e : Dev) : Prop where
  wf    : canonical d = true → canonical e = true
  part  : e.part = d.part
  fuses : ∀ r, (fuseCopies d r).1 &&& (fuseCopies e r).1 = (fuseCopies d r).1 ∧
    (fuseCopies d r).2 &&& (fuseCopies e r).2 = (fuseCopies d r).2

section
variable {d e f : Dev}

theorem Kept.butFlash (h : Kept d e) : KeptButFlash d e := ⟨h.wf, h.part, h.fuses⟩

theorem KeptButFlash.next (h : KeptButFlash d e) (g : Kept e f) : KeptButFlash d f :=
  ⟨fun x => g.wf (h.wf x), g.part.trans h.part,
    fun r => ⟨and_kept (h.fuses r).1 (g.fuses r).1, and_kept (h.fuses r).2 (g.fuses r).2⟩⟩

/-- A flash that stays canonical, with all else as it was. -/
theorem KeptButFlash.flash {m : Map Nat} (h : KeptButFlash d e)
    (hm : Map.wf (fun _ => 0xFF) e.xsp.flash = true → Map.wf (fun _ => 0xFF) m = true) :
    KeptButFlash d { e with xsp := { e.xsp with flash := m } } := by
  refine ⟨fun x => ?_, h.part, h.fuses⟩
  obtain ⟨hregs, hledger, hcells, htallies, hlines, hlram, hflash, hrows⟩ := canonical_parts.mp (h.wf x)
  exact canonical_parts.mpr ⟨hregs, hledger, hcells, htallies, hlines, hlram, hm hflash, hrows⟩

theorem KeptButFlash.setFlash {o v} (h : KeptButFlash d e) : KeptButFlash d (setFlash o v e) := h.flash (Map.wf_set o v)

theorem KeptButFlash.eraseFlash {first count} (h : KeptButFlash d e) : KeptButFlash d (eraseFlash first count e) :=
  h.flash (Map.wf_filter _)

theorem KeptButFlash.programPage {o} (h : KeptButFlash d e) : KeptButFlash d (programPage o e) := by
  unfold Machine.programPage foldBelow
  generalize List.range 256 = xs
  induction xs generalizing e with
  | nil => exact h
  | cons x xs ih => exact ih h.setFlash

theorem KeptButFlash.flashDone {status bs} (h : Kept d e) : KeptButFlash d (flashDone status bs e) := by
  unfold Machine.flashDone
  split
  · exact h.butFlash
  · next op o _ _ =>
    have hf : Kept d (Machine.wr (kX 0x04C) (status % 256) { e with xsp := { e.xsp with op := none } }) := .wr
      (.same h rfl)
    cases op with
    | program => exact hf.butFlash.programPage
    | erase4 | erase64 => exact hf.butFlash.eraseFlash
    | register => exact hf.fillBuf.butFlash

end

/-! ### The step -/

section
variable {s t : State}

theorem Kept.begins (s : State) : Kept s.dev s.begins := (Kept.refl _).same rfl

/-- The module after a row whose effect is `f`. -/
theorem effect_next {f : Dev → Dev} (h : effect f s = .next t) : t.dev = settle (f s.begins) := by
  rw [effect_eq] at h
  cases h
  rfl

/-- XSP_CMD_DONE keeps all but the flash. -/
theorem keptButFlash_xspCmdDone {status bs} (hstep : exec (.xspCmdDone status bs) s = .next t) :
    KeptButFlash s.dev t.dev := by
  have hdev : t.dev = settle (overPins (flashDone status.toNat bs) s.begins) := effect_next hstep
  have hend : KeptButFlash s.dev (overPins (flashDone status.toNat bs) s.begins) := by
    unfold overPins
    split
    · exact (Kept.begins s).butFlash
    · exact .flashDone (Kept.begins s)
  rw [hdev]
  exact hend.next (Kept.refl _).settle

/-- Each other row keeps the flash too. -/
theorem kept_exec {c : Instr} (hc : ∀ status bs, c ≠ .xspCmdDone status bs) (hstep : exec c s = .next t) :
    Kept s.dev t.dev := by
  obtain ⟨f, heffect, hf⟩ := exec_keeps c s hc
  rw [effect_next (heffect.symm.trans hstep)]
  exact (hf _ _ (Kept.begins s)).settle

end

/-- Settles O53: each row is an effect that keeps what every step keeps, but for the flash under XSP_CMD_DONE, and
the module keeps it as it settles. -/
theorem stepKeepsMemoriesCanonical : Obligations.StepKeepsMemoriesCanonical := by
  unfold Obligations.StepKeepsMemoriesCanonical
  intro s t hstep
  unfold step at hstep
  split at hstep
  case h_1 =>
    cases hstep
    exact ⟨id, rfl, (Kept.refl s.dev).fuses, fun _ => rfl⟩
  case h_2 c rest hfront =>
    by_cases hc : ∃ status bs, c = .xspCmdDone status bs
    · obtain ⟨status, bs, rfl⟩ := hc
      have h := keptButFlash_xspCmdDone hstep
      exact ⟨h.wf, h.part, h.fuses, fun hno => absurd rfl (hno _ _ status bs hfront)⟩
    · have h := kept_exec (fun status bs he => hc ⟨status, bs, he⟩) hstep
      exact ⟨h.wf, h.part, h.fuses, fun _ => h.flash⟩

end Sys2Proof.Machine

/-! ## The SECDED code of a cell (R132) -/

namespace Sys2Proof.Machine

/-- The column of bit `i` of a stored cell: the data columns, and above them the columns of weight one (R132). -/
def cellColumn (i : Nat) : Nat := if i < 32 then dataColumn i else 1 <<< (i - 32)

/-- A stored cell with bit `i` flipped. -/
def Cell39.flip (i : Nat) (c : Cell39) : Cell39 := c ^^^ BitVec.ofNat 39 (1 <<< i)

/-- The sum of columns over one more bit. -/
theorem columnSum_succ (col : Nat → Nat) (n x : Nat) :
    columnSum col (n + 1) x = if x.testBit n then columnSum col n x ^^^ col n else columnSum col n x := by
  simp only [columnSum, foldBelow, List.range_succ, List.foldl_append, List.foldl_cons, List.foldl_nil]

/-- The sum of columns is linear. -/
theorem columnSum_xor (col : Nat → Nat) (n x y : Nat) :
    columnSum col n (x ^^^ y) = columnSum col n x ^^^ columnSum col n y := by
  induction n with
  | zero => exact (Nat.xor_self 0).symm
  | succ n ih =>
    simp only [columnSum_succ, Nat.testBit_xor, ih]
    cases x.testBit n <;> cases y.testBit n <;> simp [Nat.xor_assoc, Nat.xor_comm, Nat.xor_left_comm]

/-- A column is seven bits wide. -/
theorem dataColumn_lt (i : Nat) : dataColumn i < 2 ^ 7 := by
  by_cases hi : i < 32
  · have : ∀ i < 32, dataColumn i < 2 ^ 7 := by decide
    exact this i hi
  · have hlen : weight3.length ≤ i := Nat.le_of_not_lt hi
    rw [dataColumn, List.getD_eq_default _ _ hlen]
    decide

theorem columnSum_lt (n x : Nat) : columnSum dataColumn n x < 128 := by
  induction n with
  | zero => exact Nat.two_pow_pos 7
  | succ n ih =>
    rw [columnSum_succ]
    split
    · exact Nat.xor_lt_two_pow (n := 7) ih (dataColumn_lt n)
    · exact ih

/-- The check bits of a word with one bit set are the bit's column. -/
theorem cellCheck_bit : ∀ i < 32, cellCheck (1 <<< i) = dataColumn i := by decide

theorem cellCheck_xor (x y : Nat) : cellCheck (x ^^^ y) = cellCheck x ^^^ cellCheck y := columnSum_xor dataColumn 32 x y

/-! ### The parts of a cell -/

section
variable (w : W32) {check : Nat}

theorem mkCell_toNat (hc : check < 128) : (mkCell w check).toNat = w.toNat + check * 2 ^ 32 := by
  have := w.isLt
  simp only [mkCell, BitVec.toNat_ofNat]
  omega

theorem mkCell_data (hc : check < 128) : (mkCell w check).data = w := by
  apply BitVec.eq_of_toNat_eq
  have := w.isLt
  simp only [Cell39.data, BitVec.toNat_setWidth, mkCell_toNat w hc]
  omega

theorem mkCell_check (hc : check < 128) : (mkCell w check).check = check := by
  have := w.isLt
  simp only [Cell39.check, mkCell_toNat w hc]
  omega

theorem cellCheck_lt (x : Nat) : cellCheck x < 128 := columnSum_lt 32 x

theorem poisonCheck_lt (x : Nat) : cellCheck x ^^^ poisonSyndrome < 128 :=
  Nat.xor_lt_two_pow (n := 7) (cellCheck_lt x) (by decide)

@[simp] theorem goodCell_data : (goodCell w).data = w := mkCell_data w (cellCheck_lt _)

@[simp] theorem poisonCell_data : (poisonCell w).data = w := mkCell_data w (poisonCheck_lt _)

@[simp] theorem goodCell_syndrome : (goodCell w).syndrome = 0 := by
  have hcheck : (goodCell w).check = cellCheck w.toNat := mkCell_check w (cellCheck_lt _)
  rw [Cell39.syndrome, goodCell_data, hcheck, Nat.xor_self]

@[simp] theorem poisonCell_syndrome : (poisonCell w).syndrome = poisonSyndrome := by
  have hcheck : (poisonCell w).check = cellCheck w.toNat ^^^ poisonSyndrome := mkCell_check w (poisonCheck_lt _)
  rw [Cell39.syndrome, poisonCell_data, hcheck, ← Nat.xor_assoc, Nat.xor_self, Nat.zero_xor]

@[simp] theorem goodCell_decode : (goodCell w).decode = .good w := by simp [Cell39.decode]

@[simp] theorem poisonCell_decode : (poisonCell w).decode = .poisoned w := by
  simp [Cell39.decode, poisonSyndrome]

end

/-! ### Flipped bits -/

section
variable {i : Nat} (c : Cell39)

/-- A flipped data bit shows in the data. -/
theorem flip_data : (c.flip i).data = c.data ^^^ BitVec.ofNat 32 (1 <<< i) := by
  simp only [Cell39.flip, Cell39.data, BitVec.setWidth_xor]
  rw [BitVec.setWidth_ofNat_of_le (by decide)]

theorem flip_data_low (hi : i < 32) : (c.flip i).data.toNat = c.data.toNat ^^^ 1 <<< i := by
  rw [flip_data, BitVec.toNat_xor, BitVec.toNat_ofNat, Nat.mod_eq_of_lt]
  rw [Nat.one_shiftLeft]
  exact Nat.pow_lt_pow_right (by decide) hi

theorem flip_data_high (h32 : 32 ≤ i) : (c.flip i).data = c.data := by
  rw [flip_data]
  have : BitVec.ofNat 32 (1 <<< i) = 0 := by
    apply BitVec.eq_of_toNat_eq
    rw [BitVec.toNat_ofNat, Nat.one_shiftLeft, ← Nat.sub_add_cancel h32, Nat.pow_add, Nat.mul_mod_left]
    rfl
  simp [this]

/-- A flipped check bit shows in the check bits. -/
theorem flip_check (hi : i < 39) : (c.flip i).check = c.check ^^^ 1 <<< i / 2 ^ 32 := by
  have hbit : 1 <<< i < 2 ^ 39 := by
    rw [Nat.one_shiftLeft]
    exact Nat.pow_lt_pow_right (by decide) hi
  simp only [Cell39.flip, Cell39.check, BitVec.toNat_xor, BitVec.toNat_ofNat, Nat.mod_eq_of_lt hbit,
    ← Nat.shiftRight_eq_div_pow, Nat.shiftRight_xor_distrib]

/-- A flipped bit adds its column to the syndrome. -/
theorem flip_syndrome (hi : i < 39) : (c.flip i).syndrome = c.syndrome ^^^ cellColumn i := by
  unfold cellColumn
  split
  · next hlow =>
    have hnone : 1 <<< i / 2 ^ 32 = 0 := by
      rw [Nat.one_shiftLeft, Nat.div_eq_of_lt]
      exact Nat.pow_lt_pow_right (by decide) hlow
    simp only [Cell39.syndrome, flip_check c hi, flip_data_low c hlow, hnone, cellCheck_xor, cellCheck_bit i hlow, Nat.xor_zero]
    rw [Nat.xor_assoc, Nat.xor_comm (dataColumn i), Nat.xor_assoc]
  · next hhigh =>
    have hone : 1 <<< i / 2 ^ 32 = 1 <<< (i - 32) := by
      rw [Nat.one_shiftLeft, Nat.one_shiftLeft, Nat.pow_div (by omega) (by decide)]
    rw [Cell39.syndrome, flip_check c hi, flip_data_high c (by omega), hone, ← Nat.xor_assoc]
    rfl

end

/-! ### Decoding -/

/-- A syndrome that is a check column is a flipped check bit. -/
theorem decode_of_checkColumn {c : Cell39} {b : Nat} (hb : b < 7) (hs : c.syndrome = 1 <<< b) :
    c.decode = .corrected c.data := by
  have hcolumn : ∀ b < 7, 1 <<< b ≠ 0 ∧ 1 <<< b ≠ poisonSyndrome ∧
      (List.range 7).any (fun b' => 1 <<< b == 1 <<< b') = true := by decide
  obtain ⟨hzero, hpoison, hany⟩ := hcolumn b hb
  simp only [Cell39.decode, hs, hzero, hpoison, hany, if_false, if_true]

/-- A syndrome that is a data column is that flipped data bit. -/
theorem decode_of_dataColumn {c : Cell39} {i : Nat} (hi : i < 32) (hs : c.syndrome = dataColumn i) :
    c.decode = .corrected (c.data ^^^ BitVec.ofNat 32 (1 <<< i)) := by
  have hcolumn : ∀ i < 32, dataColumn i ≠ 0 ∧ dataColumn i ≠ poisonSyndrome ∧
      (List.range 7).any (fun b => dataColumn i == 1 <<< b) = false ∧
      findBelow 32 (fun k => dataColumn k == dataColumn i) = some i := by decide
  obtain ⟨hzero, hpoison, hnone, hfind⟩ := hcolumn i hi
  simp only [Cell39.decode, hs, hzero, hpoison, hnone, hfind, if_false, Bool.false_eq_true]

/-- Any other syndrome is uncorrectable. -/
theorem decode_of_noColumn {c : Cell39} (hzero : c.syndrome ≠ 0) (hpoison : c.syndrome ≠ poisonSyndrome)
    (hcheck : ∀ b < 7, c.syndrome ≠ 1 <<< b) (hdata : ∀ i < 32, c.syndrome ≠ dataColumn i) :
    c.decode = .uncorrectable c.data := by
  have hnone : (List.range 7).any (fun b => c.syndrome == 1 <<< b) = false := by simpa using hcheck
  have hfind : findBelow 32 (fun k => dataColumn k == c.syndrome) = none := by
    simpa [findBelow, List.find?_eq_none] using fun i hi => Ne.symm (hdata i hi)
  simp only [Cell39.decode, hzero, hpoison, hnone, hfind, if_false, Bool.false_eq_true]

/-- Two columns together have an even number of ones, and so are no column and no poison. -/
theorem cellColumn_pair : ∀ i < 39, ∀ j < i, let s := cellColumn i ^^^ cellColumn j
    s ≠ 0 ∧ s ≠ poisonSyndrome ∧ (∀ b < 7, s ≠ 1 <<< b) ∧ ∀ k < 32, s ≠ dataColumn k := by decide +kernel

/-- One flipped bit of a good cell is corrected. -/
theorem decode_flip (w : W32) {i : Nat} (hi : i < 39) : ((goodCell w).flip i).decode = .corrected w := by
  have hs : ((goodCell w).flip i).syndrome = cellColumn i := by
    rw [flip_syndrome _ hi, goodCell_syndrome, Nat.zero_xor]
  by_cases hlow : i < 32
  · rw [decode_of_dataColumn hlow (hs.trans (if_pos hlow)), flip_data, goodCell_data, BitVec.xor_assoc, BitVec.xor_self,
      BitVec.xor_zero]
  · rw [decode_of_checkColumn (by omega) (hs.trans (if_neg hlow)), flip_data_high _ (by omega), goodCell_data]

/-- Two flipped bits of a good cell are detected. -/
theorem decode_flip_flip (w : W32) {i j : Nat} (hi : i < 39) (hj : j < i) :
    (((goodCell w).flip i).flip j).decode = .uncorrectable (((goodCell w).flip i).flip j).data := by
  have hs : (((goodCell w).flip i).flip j).syndrome = cellColumn i ^^^ cellColumn j := by
    rw [flip_syndrome _ (by omega), flip_syndrome _ hi, goodCell_syndrome, Nat.zero_xor]
  obtain ⟨hzero, hpoison, hcheck, hdata⟩ := cellColumn_pair i hi j hj
  rw [← hs] at hzero hpoison hcheck hdata
  exact decode_of_noColumn hzero hpoison hcheck hdata

/-- Settles O51: the code is linear, and no column is zero, another's or the sum of two others. -/
theorem secdedCode : Obligations.SecdedCode := by
  unfold Obligations.SecdedCode
  refine ⟨by decide +kernel, fun c => ⟨fun b hb => ?check, fun i hi => ?data⟩,
    fun w => ⟨goodCell_data w, goodCell_syndrome w, poisonCell_data w, poisonCell_syndrome w⟩,
    fun w => ⟨goodCell_decode w, poisonCell_decode w, fun i hi => decode_flip w hi,
      fun i hi j hj => ⟨_, decode_flip_flip w hi hj⟩⟩⟩
  case check =>
    have h := flip_syndrome c (i := 32 + b) (by omega)
    rwa [cellColumn, if_neg (by omega), Nat.add_sub_cancel_left] at h
  case data =>
    have h := flip_syndrome c (i := i) (by omega)
    rwa [cellColumn, if_pos hi] at h

end Sys2Proof.Machine

/-! ## Reads of cells (R133) -/

namespace Sys2Proof.Machine

/-! ### What a report leaves alone -/

/-- `e` is reached from `d` by counting and reporting: registers, captured flags, actions of the step, the integrity block and
the ledger RAM may differ, and nothing else. -/
def Reported (d e : Dev) : Prop := ∃ regs firsts todo integ ledger,
  e = { d with regs := regs, firsts := firsts, todo := todo, integ := integ, ledger := ledger }

section
variable {d e f : Dev}

theorem Reported.refl (d : Dev) : Reported d d := ⟨_, _, _, _, _, rfl⟩

theorem Reported.trans (h : Reported d e) (g : Reported e f) : Reported d f := by
  obtain ⟨_, _, _, _, _, rfl⟩ := h
  obtain ⟨_, _, _, _, _, rfl⟩ := g
  exact ⟨_, _, _, _, _, rfl⟩

theorem Reported.ite {c : Prop} [Decidable c] (h : Reported d e) (g : Reported d f) : Reported d (if c then e else f) := by
  split
  · exact h
  · exact g

theorem Reported.yard (h : Reported d e) : e.yard = d.yard := by obtain ⟨_, _, _, _, _, rfl⟩ := h; rfl

theorem Reported.inj (h : Reported d e) : e.inj = d.inj := by obtain ⟨_, _, _, _, _, rfl⟩ := h; rfl

theorem Reported.cores (h : Reported d e) : e.cores = d.cores := by obtain ⟨_, _, _, _, _, rfl⟩ := h; rfl

theorem Reported.net (h : Reported d e) : e.net = d.net := by obtain ⟨_, _, _, _, _, rfl⟩ := h; rfl

theorem Reported.part (h : Reported d e) : e.part = d.part := by obtain ⟨_, _, _, _, _, rfl⟩ := h; rfl

theorem Reported.wr {k v} (h : Reported d e) : Reported d (wr k v e) := h.trans ⟨_, _, _, _, _, rfl⟩

theorem Reported.push {t} (h : Reported d e) : Reported d (push t e) := h.trans ⟨_, _, _, _, _, rfl⟩

theorem Reported.bumpBy {k n} (h : Reported d e) : Reported d (bumpBy k n e) := h.wr

theorem Reported.tcount {i n} (h : Reported d e) : Reported d (tcount i n e) := .ite h.wr.wr h

theorem Reported.captureFirst {ty inst page n x} (h : Reported d e) : Reported d (captureFirst ty inst page n x e) := by
  rw [captureFirst_eq]
  exact .ite (.wr (h.trans ⟨_, _, _, _, _, rfl⟩)) (.ite h.wr h)

theorem Reported.flag0 {ty inst n x} (h : Reported d e) : Reported d (flag0 ty inst n x e) := by
  have hset : Reported d (flagSet ty inst 0 n x e) := h.wr.captureFirst
  rw [Machine.flag0, flag_eq]
  exact .ite hset.push hset

theorem Reported.countY {s off k} (h : Reported d e) : Reported d (countY s off k e) := .ite h.bumpBy.flag0 h.bumpBy

theorem Reported.ledBytes {o bs} (h : Reported d e) : Reported d (ledBytes o bs e) := by
  have hfold : ∀ (is : List Nat) (e : Dev), Reported d e →
      Reported d (is.foldl (fun e i => ledWr (o + 4 * i) (leNat ((bs.drop (4 * i)).take 4)) e) e) := by
    intro is
    induction is with
    | nil => exact fun _ h => h
    | cons i is ih => exact fun e h => ih _ (h.trans ⟨_, _, _, _, _, rfl⟩)
  exact (hfold _ e h).trans ⟨_, _, _, _, _, rfl⟩

theorem Reported.cperWrite {c n b} (h : Reported d e) : Reported d (cperWrite c n b e) := by
  unfold Machine.cperWrite
  extract_lets id bs e₁ _ _ e₂
  have h₁ : Reported d e₁ := h.wr.wr.tcount
  clear_value e₁
  have h₂ : Reported d e₂ := .ite (h₁.ledBytes.trans ⟨_, _, _, _, _, rfl⟩) h₁
  exact .ite h₂ (.ite h₂.wr.flag0 h₂.push)

theorem Reported.cper {c} (h : Reported d e) : Reported d (cper c e) := by
  unfold Machine.cper
  extract_lets f id same others note fresh
  have hf : Reported d f := .ite h.tcount (.ite h.tcount h)
  have hnote {x f} (h : Reported d f) : Reported d (note x f) := h.trans ⟨_, _, _, _, _, rfl⟩
  clear_value f note
  refine .ite hf.cperWrite ?_
  split
  · exact .ite (.ite (hnote hf.push) (hnote hf.cperWrite)) (hnote hf.cperWrite)
  · exact hnote hf.cperWrite

theorem Reported.autoStable {code} (h : Reported d e) : Reported d (autoStable code e) := .ite h.flag0.push h.flag0.cper

theorem Reported.setScore {code v} (h : Reported d e) : Reported d (setScore code v e) := h.trans ⟨_, _, _, _, _, rfl⟩

theorem Reported.score {code k} (h : Reported d e) : Reported d (score code k e) := .ite h.setScore.autoStable h.setScore

end

/-! ### Cells depend on the yard alone -/

section
variable {d e : Dev}

theorem regionAt_congr (h : e.yard = d.yard) (a : Nat) : regionAt e a = regionAt d a := by
  unfold regionAt getPage getDesc
  rw [h]

theorem pageTurned_congr (h : e.yard = d.yard) (p : Nat) : pageTurned e p = pageTurned d p := by
  unfold pageTurned
  rw [regionAt_congr h]

theorem cellPlace_congr (h : e.yard = d.yard) (n : Nat) : cellPlace e n = cellPlace d n := by
  unfold cellPlace
  rw [pageTurned_congr h]

theorem getCell_congr (h : e.yard = d.yard) (n : Nat) : getCell e n = getCell d n := by
  rw [getCell, getCell, cellPlace_congr h, h]

end

/-! ### Counters -/

/-- A saturating counter on YRD page 3 rises by one; COUNTER_SAT is on another page. -/
theorem rd_countY_one (d : Dev) (s : Nat) {off : Nat} (ho : 0x040 ≤ off) (hoff : off < 0x1000) :
    rd (countY s off 1 d) (kY s 3 off) = min 0xFFFFFFFF (rd d (kY s 3 off) + 1) := by
  have hlt := rd_lt d (kY s 3 off)
  have hbump : rd (bumpBy (kY s 3 off) 1 d) (kY s 3 off) = min 0xFFFFFFFF (rd d (kY s 3 off) + 1) := by
    rw [bumpBy, rd_wr_same, satAdd]
    split <;> omega
  have hother : ∀ j < 0x040, kY s 3 off ≠ rk T.YRD s 0 j := by
    intro j hj he
    have hsame : keyOff (kY s 3 off) = keyOff (rk T.YRD s 0 j) := by rw [he]
    rw [kY, rk_off _ _ _ hoff, rk_off _ _ _ (by omega)] at hsame
    omega
  unfold countY
  dsimp only
  split
  · rw [flag0, rd_flag, flagSet, rd_captureFirst_other (hother 0x018 (by decide)),
      rd_wr_other (k := kSTICKY T.YRD s 0) _ _ (hother 0x010 (by decide)), hbump]
  · exact hbump

/-! ### One cell -/

section
variable {d : Dev} {n : Nat}

/-- With no error armed in its cluster a read acts on what the stored cell decodes as. -/
theorem readCell_unarmed (h0 : armed d T.YRD (stationAt (4 * n)) 0 0 = none)
    (h1 : armed d T.YRD (stationAt (4 * n)) 0 1 = none) :
    readCell n d = match (getCell d n).decode with
      | .good w => ((w, false), d)
      | .corrected w => ((w, false),
          cper { cls := 0x01, block := T.YRD, inst := stationAt (4 * n), addr := 4 * n, detail := bankOf d (4 * n) }
          (flag0 T.YRD (stationAt (4 * n)) 0 (bankOf d (4 * n)) (countY (stationAt (4 * n)) 0x040 1 d)))
      | .poisoned w => ((w, true), flag0 T.YRD (stationAt (4 * n)) 2 (bankOf d (4 * n)) (countY (stationAt (4 * n)) 0x048 1 d))
      | .uncorrectable w => ((w, true), score (0x1000 + stationAt (4 * n)) 1
          (cper { cls := 0x02, block := T.YRD, inst := stationAt (4 * n), addr := 4 * n, detail := bankOf d (4 * n) }
            (flag0 T.YRD (stationAt (4 * n)) 1 (bankOf d (4 * n))
              (countY (stationAt (4 * n)) 0x044 1 (putCell n (poisonCell w) d))))) := by
  unfold readCell
  simp only [h0, h1, reduceCtorEq, decide_false, Bool.or_self, Bool.false_eq_true, if_false] <;> rfl

end

/-- Settles O52: the syndrome names what the cell decodes as, and the reports on the way touch no cell. -/
theorem cellReadActs : Obligations.CellReadActs := by
  unfold Obligations.CellReadActs
  intro d n s b c h0 h1
  have hread := readCell_unarmed h0 h1
  have hgood (hs : c.syndrome = 0) : readCell n d = ((c.data, false), d) := by
    have hdecode : c.decode = .good c.data := by simp [Cell39.decode, hs]
    rw [hread, hdecode]
  have hpoison (hs : c.syndrome = 0x7F) : readCell n d = ((c.data, true), flag0 T.YRD s 2 b (countY s 0x048 1 d)) := by
    have hdecode : c.decode = .poisoned c.data := by simp [Cell39.decode, hs, poisonSyndrome]
    rw [hread, hdecode]
  have hcheck : ∀ i < 7, c.syndrome = 1 <<< i → readCell n d = ((c.data, false),
      cper { cls := 0x01, block := T.YRD, inst := s, addr := 4 * n, detail := b }
        (flag0 T.YRD s 0 b (countY s 0x040 1 d))) := by
    intro i hi hs
    rw [hread, show (getCell d n).decode = .corrected c.data from decode_of_checkColumn hi hs]
  have hdata : ∀ i < 32, c.syndrome = dataColumn i → readCell n d = ((c.data ^^^ BitVec.ofNat 32 (1 <<< i), false),
      cper { cls := 0x01, block := T.YRD, inst := s, addr := 4 * n, detail := b }
        (flag0 T.YRD s 0 b (countY s 0x040 1 d))) := by
    intro i hi hs
    rw [hread, show (getCell d n).decode = .corrected (c.data ^^^ BitVec.ofNat 32 (1 <<< i)) from decode_of_dataColumn hi hs]
  refine ⟨hgood, hcheck, hdata, hpoison, fun hzero hnocheck hnodata hnopoison => ?uncorrectable, ?kept, ?counted⟩
  case uncorrectable =>
    have hdecode : (getCell d n).decode = .uncorrectable c.data := decode_of_noColumn hzero hnopoison hnocheck hnodata
    rw [hread, hdecode]
    refine ⟨rfl, ?_⟩
    rw [getCell_congr (((Reported.refl _).countY.flag0.cper.score).yard), getCell_putCell, if_pos rfl, poisonCell_syndrome]
    rfl
  case kept =>
    have hrep : Reported d (countY s 0x040 1 d) := (Reported.refl d).countY
    rintro (hs | hs | ⟨i, hi, hs⟩ | ⟨i, hi, hs⟩)
    · rw [hgood hs]
    · rw [hpoison hs]
      exact getCell_congr (Reported.refl d).countY.flag0.yard n
    · rw [hcheck i hi hs]
      exact getCell_congr hrep.flag0.cper.yard n
    · rw [hdata i hi hs]
      exact getCell_congr hrep.flag0.cper.yard n
  case counted =>
    intro off hoff
    have hrange : 0x040 ≤ off ∧ off < 0x1000 := by
      revert off
      decide
    exact rd_countY_one d s hrange.1 hrange.2

end Sys2Proof.Machine

/-! ## Writes of cells (R134) -/

namespace Sys2Proof.Machine

/-! ### Bytes of words -/

/-- Byte `j` of a little-endian number. -/
theorem leNat_byte (bs : List Byte) (j : Nat) : leNat bs / 256 ^ j % 256 = (bs.getD j 0).toNat := by
  induction bs generalizing j with
  | nil => simp [leNat]
  | cons b bs ih =>
    have hb : b.toNat < 256 := b.isLt
    cases j with
    | zero => simp only [leNat, pow_zero, Nat.div_one, List.getD_cons_zero]; omega
    | succ j =>
      rw [List.getD_cons_succ, ← ih j, pow_succ', ← Nat.div_div_eq_div_mul, leNat]
      congr 2
      omega

theorem wordByte_ofNat (x : Nat) {j : Nat} (hj : j < 4) : (wordByte (BitVec.ofNat 32 x) j).toNat = x / 256 ^ j % 256 := by
  simp only [wordByte, BitVec.extractLsb'_toNat, BitVec.toNat_ofNat, Nat.shiftRight_eq_div_pow]
  interval_cases j <;> omega

/-- A word made of bytes holds those bytes. -/
theorem wordByte_leNat (bs : List Byte) {j : Nat} (hj : j < 4) : wordByte (BitVec.ofNat 32 (leNat bs)) j = bs.getD j 0 :=
  BitVec.eq_of_toNat_eq ((wordByte_ofNat _ hj).trans (leNat_byte bs j))

/-- The bytes of a word, least significant first. -/
theorem leBytes_word (w : W32) {j : Nat} (hj : j < 4) : (leBytes 4 w.toNat).getD j 0 = wordByte w j := by
  have hw : BitVec.ofNat 32 (leNat (leBytes 4 w.toNat)) = w := by
    rw [leNat_leBytes, Nat.mod_eq_of_lt (by have := w.isLt; omega), BitVec.ofNat_toNat, BitVec.setWidth_eq]
  rw [← wordByte_leNat _ hj, hw]

/-! ### A read of a cell on the way of a write -/

section
variable {d e f : Dev}

/-- A cell that decodes with the poison marker delivers its data bits as they are stored. -/
theorem decode_data_of_poison {c : Cell39} (h : c.decode.poison = true) : c.decode.data = c.data := by
  revert h
  unfold Cell39.decode
  dsimp only
  split_ifs
  · simp [CellRead.poison]
  · exact fun _ => rfl
  · simp [CellRead.poison]
  · split
    · simp [CellRead.poison]
    · exact fun _ => rfl

/-- What reads of cells leave of the cells, whatever errors are armed: the stored data and the poison, and in a cluster with
no error armed what every cell reads as. No read arms an error. -/
structure CellsRead (d e : Dev) : Prop where
  data : ∀ n, (getCell e n).data = (getCell d n).data
  poison : ∀ n, (getCell d n).decode.poison = true → (getCell e n).decode.poison = true
  unarmed : ∀ n, armed d T.YRD (stationAt (4 * n)) 0 0 = none → armed d T.YRD (stationAt (4 * n)) 0 1 = none →
    (getCell e n).decode.data = (getCell d n).decode.data ∧ (getCell e n).decode.poison = (getCell d n).decode.poison
  disarmed : ∀ s k, armed d T.YRD s 0 k = none → armed e T.YRD s 0 k = none

/-- Cells and armed errors as they were. -/
theorem CellsRead.of_same (hcells : ∀ n, getCell e n = getCell d n)
    (harmed : ∀ s k, armed d T.YRD s 0 k = none → armed e T.YRD s 0 k = none) : CellsRead d e :=
  ⟨fun n => by rw [hcells], fun n h => by rwa [hcells], fun n _ _ => by rw [hcells]; exact ⟨rfl, rfl⟩, harmed⟩

theorem CellsRead.refl (d : Dev) : CellsRead d d := .of_same (fun _ => rfl) (fun _ _ h => h)

theorem CellsRead.trans (h : CellsRead d e) (g : CellsRead e f) : CellsRead d f where
  data n := (g.data n).trans (h.data n)
  poison n hp := g.poison n (h.poison n hp)
  unarmed n h0 h1 := by
    obtain ⟨hdata, hpoison⟩ := h.unarmed n h0 h1
    obtain ⟨gdata, gpoison⟩ := g.unarmed n (h.disarmed _ _ h0) (h.disarmed _ _ h1)
    exact ⟨gdata.trans hdata, gpoison.trans hpoison⟩
  disarmed s k h0 := g.disarmed s k (h.disarmed s k h0)

/-- What an injection page holds decides what is armed. -/
theorem armed_congr (h : e.inj = d.inj) (ty inst page n : Nat) : armed e ty inst page n = armed d ty inst page n := by
  simp only [armed, h]

theorem CellsRead.reported (h : CellsRead d e) (hrep : Reported e f) : CellsRead d f :=
  h.trans (.of_same (getCell_congr hrep.yard) (fun s k h0 => by rwa [armed_congr hrep.inj]))

/-- An injection that fires is no longer armed, and the others are armed as they were. -/
theorem armed_fired {s k : Nat} (s' : Nat) (h : armed d T.YRD s 0 k = none) :
    armed (fired T.YRD s' 0 d) T.YRD s 0 k = none := by
  have hinj : (fired T.YRD s' 0 d).inj = Map.set (fun _ => 0) d.inj (injPage T.YRD s' 0) 0 := rfl
  unfold armed at h ⊢
  rw [hinj, Map.get_set]
  split
  · rfl
  · exact h

theorem CellsRead.fired (s : Nat) (h : CellsRead d e) : CellsRead d (fired T.YRD s 0 e) :=
  h.trans (.of_same (getCell_congr rfl) (fun _ _ h0 => armed_fired s h0))

/-- A cell may be rewritten as poisoned where it was, or where an error is armed. -/
theorem CellsRead.poisoned {n : Nat} (h : (getCell d n).decode.poison = true ∨
      armed d T.YRD (stationAt (4 * n)) 0 0 ≠ none ∨ armed d T.YRD (stationAt (4 * n)) 0 1 ≠ none) :
    CellsRead d (putCell n (poisonCell (getCell d n).data) d) where
  data m := by
    rw [getCell_putCell]
    split
    · next he => rw [he, poisonCell_data]
    · rfl
  poison m hm := by
    rw [getCell_putCell]
    split
    · rw [poisonCell_decode]; rfl
    · exact hm
  unarmed m h0 h1 := by
    rw [getCell_putCell]
    split
    · next he =>
      subst he
      have hp : (getCell d m).decode.poison = true := by simpa [h0, h1] using h
      rw [poisonCell_decode, hp, decode_data_of_poison hp]
      exact ⟨rfl, rfl⟩
    · exact ⟨rfl, rfl⟩
  disarmed s k h0 := (armed_congr (putCell_inj ..) ..).trans h0

end

section
variable (n : Nat) (d : Dev)

/-- What a read of a cell finds, with the injections of its cluster (R133, R55). -/
def cellFound : CellRead :=
  let c := getCell d n
  if armed d T.YRD (stationAt (4 * n)) 0 1 = some (bankOf d (4 * n)) then .uncorrectable c.data
  else if armed d T.YRD (stationAt (4 * n)) 0 0 = some (bankOf d (4 * n)) then c.decode.noisy else c.decode

/-- The module once an injection that the read of a cell meets has fired. -/
def cellMet : Dev :=
  if armed d T.YRD (stationAt (4 * n)) 0 0 = some (bankOf d (4 * n)) ∨
    armed d T.YRD (stationAt (4 * n)) 0 1 = some (bankOf d (4 * n))
  then fired T.YRD (stationAt (4 * n)) 0 d else d

theorem cellMet_yard : (cellMet n d).yard = d.yard := by
  unfold cellMet
  split <;> rfl

theorem CellsRead.met : CellsRead d (cellMet n d) := by
  unfold cellMet
  split
  · exact (CellsRead.refl d).fired _
  · exact .refl d

/-- A read delivers what it finds, and reports it; an uncorrectable cell is rewritten as poisoned first. -/
theorem readCell_found : ∃ e, readCell n d = (((cellFound n d).data, (cellFound n d).poison), e) ∧
    match cellFound n d with
    | .uncorrectable w => Reported (putCell n (poisonCell w) (cellMet n d)) e
    | _ => Reported (cellMet n d) e := by
  unfold readCell
  extract_lets a s b hit c d0 res
  have hres : res = cellFound n d := by simp only [res, hit, decide_eq_true_eq]; rfl
  have hmet : d0 = cellMet n d := by simp only [d0, hit, Bool.or_eq_true, decide_eq_true_eq]; rfl
  rw [← hres, ← hmet]
  clear_value res d0
  cases res with
  | good w => exact ⟨_, rfl, .refl _⟩
  | corrected w => exact ⟨_, rfl, (Reported.refl _).countY.flag0.cper⟩
  | poisoned w => exact ⟨_, rfl, (Reported.refl _).countY.flag0⟩
  | uncorrectable w => exact ⟨_, rfl, (Reported.refl _).countY.flag0.cper.score⟩

/-- An injected correctable error changes neither the data nor the poison of a read. -/
theorem noisy_data (r : CellRead) : r.noisy.data = r.data := by cases r <;> rfl
theorem noisy_poison (r : CellRead) : r.noisy.poison = r.poison := by cases r <;> rfl

/-- Without an armed error a read finds what the stored cell decodes as. -/
theorem cellFound_unarmed {n : Nat} {d : Dev} (h0 : armed d T.YRD (stationAt (4 * n)) 0 0 = none)
    (h1 : armed d T.YRD (stationAt (4 * n)) 0 1 = none) : cellFound n d = (getCell d n).decode := by
  simp only [cellFound, h0, h1, reduceCtorEq, if_false]

/-- A read that finds no poison finds the data that the cell decodes as, which is not poisoned. -/
theorem cellFound_clean {n : Nat} {d : Dev} (h : (cellFound n d).poison = false) :
    (cellFound n d).data = (getCell d n).decode.data ∧ (getCell d n).decode.poison = false := by
  revert h
  unfold cellFound
  dsimp only
  split_ifs
  · simp [CellRead.poison]
  · rw [noisy_data, noisy_poison]
    exact fun h => ⟨rfl, h⟩
  · exact fun h => ⟨rfl, h⟩

/-- A read that finds an uncorrectable cell delivers its data bits, and either the cell is so or an error is armed. -/
theorem cellFound_uncorrectable {n : Nat} {d : Dev} {w : W32} (h : cellFound n d = .uncorrectable w) :
    w = (getCell d n).data ∧ ((getCell d n).decode.poison = true ∨
      armed d T.YRD (stationAt (4 * n)) 0 0 ≠ none ∨ armed d T.YRD (stationAt (4 * n)) 0 1 ≠ none) := by
  have hstored {c : Cell39} (hc : c.decode = .uncorrectable w) : w = c.data ∧ c.decode.poison = true := by
    have hp : c.decode.poison = true := by rw [hc]; rfl
    have hdata := decode_data_of_poison hp
    rw [hc] at hdata
    exact ⟨hdata, hp⟩
  unfold cellFound at h
  dsimp only at h
  split_ifs at h with h1 h0
  · exact ⟨(CellRead.uncorrectable.inj h).symm, .inr (.inr (by simp [h1]))⟩
  · have hc : (getCell d n).decode = .uncorrectable w := by
      revert h
      cases (getCell d n).decode <;> simp [CellRead.noisy]
    exact ⟨(hstored hc).1, .inl (hstored hc).2⟩
  · exact ⟨(hstored h).1, .inl (hstored h).2⟩

/-- A read without poison changes nothing of the yard and delivers the corrected data of a cell that is not poisoned. -/
theorem readCell_clean {n : Nat} {d : Dev} (h : (readCell n d).1.2 = false) : (readCell n d).2.yard = d.yard ∧
    (readCell n d).1.1 = (getCell d n).decode.data ∧ (getCell d n).decode.poison = false := by
  obtain ⟨e, hread, hrep⟩ := readCell_found n d
  rw [hread] at h ⊢
  have hclean := cellFound_clean h
  refine ⟨?_, hclean⟩
  revert h hrep
  cases cellFound n d with
  | good w => exact fun h hrep => hrep.yard.trans (cellMet_yard n d)
  | corrected w => exact fun h hrep => hrep.yard.trans (cellMet_yard n d)
  | poisoned w => exact fun h hrep => hrep.yard.trans (cellMet_yard n d)
  | uncorrectable w => simp [CellRead.poison]

/-- A read of a cell leaves what reads leave. -/
theorem CellsRead.readCell : CellsRead d (readCell n d).2 := by
  obtain ⟨e, hread, hrep⟩ := readCell_found n d
  rw [hread]
  cases hfound : cellFound n d with
  | uncorrectable w =>
    obtain ⟨hw, hpoison⟩ := cellFound_uncorrectable hfound
    rw [hfound, hw] at hrep
    have hput : CellsRead d (putCell n (poisonCell (getCell d n).data) (cellMet n d)) := by
      have hcells : ∀ m, getCell (putCell n (poisonCell (getCell d n).data) (cellMet n d)) m =
          getCell (putCell n (poisonCell (getCell d n).data) d) m := by
        intro m
        rw [getCell_putCell, getCell_putCell, getCell_congr (cellMet_yard n d)]
      have hdisarmed : ∀ s k, armed (putCell n (poisonCell (getCell d n).data) d) T.YRD s 0 k = none →
          armed (putCell n (poisonCell (getCell d n).data) (cellMet n d)) T.YRD s 0 k = none := by
        intro s k h0
        rw [armed_congr (putCell_inj ..)] at h0 ⊢
        exact (CellsRead.met n d).disarmed s k h0
      exact (CellsRead.poisoned hpoison).trans (.of_same hcells hdisarmed)
    exact hput.reported hrep
  | good w => rw [hfound] at hrep; exact (CellsRead.met n d).reported hrep
  | corrected w => rw [hfound] at hrep; exact (CellsRead.met n d).reported hrep
  | poisoned w => rw [hfound] at hrep; exact (CellsRead.met n d).reported hrep

end

/-! ### Merging -/

/-- A word holds the written bytes of a part of a cell, and the old bytes elsewhere. -/
def Merged (part : List (Option Byte)) (old w : W32) : Prop :=
  ∀ j < 4, wordByte w j = (part.getD j none).getD (wordByte old j)

section
variable {n : Nat} {part : List (Option Byte)} {d : Dev} {w : W32}

/-- A whole cell takes its new data whatever it held, and its cluster reads nothing. -/
theorem mergeCell_whole (h : part.all Option.isSome = true) :
    mergeCell n part d = (some (BitVec.ofNat 32 (leNat (part.map (·.getD 0)))), d) := by
  unfold mergeCell
  exact if_pos h

/-- The bytes of a cell that is written whole. -/
theorem merged_whole (h : part.all Option.isSome = true) (hlen : part.length = 4) (old : W32) :
    Merged part old (BitVec.ofNat 32 (leNat (part.map (·.getD 0)))) := by
  intro j hj
  have hj' : j < part.length := by omega
  obtain ⟨b, hb⟩ := Option.isSome_iff_exists.mp (List.all_eq_true.mp h _ (List.getElem_mem hj'))
  rw [wordByte_leNat _ hj, List.getD_eq_getElem _ _ (by simpa using hj'), List.getD_eq_getElem _ _ hj', List.getElem_map, hb]
  rfl

/-- A part of a cell: an armed error drops it, and else a read without poison merges it. -/
theorem mergeCell_part (h : part.all Option.isSome = false) : mergeCell n part d =
    if armed d T.YRD (stationAt (4 * n)) 0 3 = some (bankOf d (4 * n)) then
      (none, flag0 T.YRD (stationAt (4 * n)) 3 (bankOf d (4 * n)) (fired T.YRD (stationAt (4 * n)) 0 d))
    else if (readCell n d).1.2 = true then
      (none, flag0 T.YRD (stationAt (4 * n)) 3 (bankOf d (4 * n)) (readCell n d).2)
    else (some (BitVec.ofNat 32 (leNat ((List.range 4).map (fun i =>
      (part.getD i none).getD ((leBytes 4 (readCell n d).1.1.toNat).getD i 0))))), (readCell n d).2) := by
  unfold mergeCell
  rw [h]
  rfl

/-- A cell that takes its write changes nothing of the yard yet, and will hold the merged data. -/
theorem mergeCell_some (hlen : part.length = 4) (h : (mergeCell n part d).1 = some w) :
    (mergeCell n part d).2.yard = d.yard ∧ Merged part (getCell d n).decode.data w := by
  cases hall : part.all Option.isSome with
  | true =>
    rw [mergeCell_whole hall] at h ⊢
    rw [← Option.some.inj h]
    exact ⟨rfl, merged_whole hall hlen _⟩
  | false =>
    rw [mergeCell_part hall] at h ⊢
    split_ifs at h ⊢ with h3 hp
    obtain ⟨hyard, hdata, -⟩ := readCell_clean (Bool.eq_false_iff.mpr hp)
    refine ⟨hyard, fun j hj => ?_⟩
    rw [← Option.some.inj h, wordByte_leNat _ hj, List.getD_eq_getElem _ _ (by simpa using hj), List.getElem_map,
      List.getElem_range, leBytes_word _ hj, hdata]

/-- Poison drops the write of a part of its cell. -/
theorem mergeCell_poison (hall : part.all Option.isSome = false) (h : (getCell d n).decode.poison = true) :
    (mergeCell n part d).1 = none := by
  have hread : (readCell n d).1.2 = true := by
    by_contra hp
    have hclean := (readCell_clean (Bool.eq_false_iff.mpr hp)).2.2
    rw [h] at hclean
    exact absurd hclean (by decide)
  rw [mergeCell_part hall, hread]
  split <;> rfl

/-- The read half of a merge leaves what reads leave. -/
theorem CellsRead.mergeCell (n : Nat) (part : List (Option Byte)) (d : Dev) : CellsRead d (mergeCell n part d).2 := by
  cases hall : part.all Option.isSome with
  | true => rw [mergeCell_whole hall]; exact .refl d
  | false =>
    rw [mergeCell_part hall]
    split_ifs
    · exact ((CellsRead.refl d).fired _).reported (Reported.refl _).flag0
    · exact (CellsRead.readCell n d).reported (Reported.refl _).flag0
    · exact CellsRead.readCell n d

/-- With no error armed in its cluster a part of a cell is taken unless the cell is poisoned, which it stays. -/
theorem mergeCell_unarmed (hall : part.all Option.isSome = false) (h0 : armed d T.YRD (stationAt (4 * n)) 0 0 = none)
    (h1 : armed d T.YRD (stationAt (4 * n)) 0 1 = none) (h3 : armed d T.YRD (stationAt (4 * n)) 0 3 = none) :
    (mergeCell n part d).1.isSome = !(getCell d n).decode.poison ∧
      ((getCell d n).decode.poison = true → (getCell (mergeCell n part d).2 n).decode.poison = true) := by
  refine ⟨?_, (CellsRead.mergeCell n part d).poison n⟩
  obtain ⟨e, hread, -⟩ := readCell_found n d
  rw [mergeCell_part hall, h3, if_neg (by simp), hread, cellFound_unarmed h0 h1]
  cases (getCell d n).decode.poison <;> rfl

end

/-! ### All cells of a write -/

/-- What the first `m` cells of a write would hold, and the module that their read halves leave (R134). -/
def mergeCells (a : Nat) (bs : List Byte) (m : Nat) (d : Dev) : List (Option W32) × Dev :=
  (List.range m).foldl (fun (r : List (Option W32) × Dev) i =>
    let x := mergeCell (a / 4 + i) (cellPart a bs (a / 4 + i)) r.2
    (r.1 ++ [x.1], x.2)) ([], d)

section
variable (a : Nat) (bs : List Byte) (m : Nat) (d : Dev)

theorem mergeCells_succ : mergeCells a bs (m + 1) d =
    let r := mergeCells a bs m d
    let x := mergeCell (a / 4 + m) (cellPart a bs (a / 4 + m)) r.2
    (r.1 ++ [x.1], x.2) := by
  simp only [mergeCells, List.range_succ, List.foldl_append, List.foldl_cons, List.foldl_nil]

/-- A write is stored when every cell takes its part, and dropped else. -/
theorem writeCells_eq : writeCells a bs d =
    let r := mergeCells a bs (cellsTouched a bs.length) d
    if r.1.all Option.isSome = true then (true, putWords (a / 4) (r.1.map (·.getD 0)) r.2) else (false, r.2) := rfl

theorem mergeCells_length : (mergeCells a bs m d).1.length = m := by
  induction m with
  | zero => rfl
  | succ m ih => rw [mergeCells_succ]; simp [ih]

theorem CellsRead.mergeCells : CellsRead d (mergeCells a bs m d).2 := by
  induction m with
  | zero => exact .refl d
  | succ m ih => rw [mergeCells_succ]; exact ih.trans (CellsRead.mergeCell ..)

theorem cellPart_length (n : Nat) : (cellPart a bs n).length = 4 := rfl

variable {a bs m d}

/-- Where every cell takes its part nothing of the yard has changed yet, and each cell will hold its merged data. -/
theorem mergeCells_all (h : (mergeCells a bs m d).1.all Option.isSome = true) : (mergeCells a bs m d).2.yard = d.yard ∧
    ∀ i < m, Merged (cellPart a bs (a / 4 + i)) (getCell d (a / 4 + i)).decode.data
      (((mergeCells a bs m d).1.map (·.getD 0)).getD i 0) := by
  induction m with
  | zero => exact ⟨rfl, fun i hi => absurd hi (Nat.not_lt_zero i)⟩
  | succ m ih =>
    rw [mergeCells_succ] at h ⊢
    simp only [List.all_append, List.all_cons, List.all_nil, Bool.and_true, Bool.and_eq_true] at h
    obtain ⟨hearlier, hlast⟩ := h
    obtain ⟨hyard, hwords⟩ := ih hearlier
    obtain ⟨w, hw⟩ := Option.isSome_iff_exists.mp hlast
    obtain ⟨hkept, hmerged⟩ := mergeCell_some (cellPart_length a bs _) hw
    refine ⟨hkept.trans hyard, fun i hi => ?_⟩
    have hlen : ((mergeCells a bs m d).1.map (·.getD 0)).length = m := by rw [List.length_map, mergeCells_length]
    rw [List.map_append]
    rcases Nat.lt_succ_iff_lt_or_eq.mp hi with hlt | rfl
    · rw [List.getD_append _ _ _ _ (by omega)]
      exact hwords i hlt
    · rw [List.getD_append_right _ _ _ _ (by omega), hlen, Nat.sub_self]
      simp only [hw, List.map_cons, List.map_nil, List.getD_cons_zero, Option.getD_some]
      rwa [getCell_congr hyard] at hmerged

/-- A poisoned cell that is written in part drops the write. -/
theorem mergeCells_poison {i : Nat} (hi : i < m) (hpart : (cellPart a bs (a / 4 + i)).all Option.isSome = false)
    (hp : (getCell d (a / 4 + i)).decode.poison = true) : (mergeCells a bs m d).1.all Option.isSome = false := by
  induction m with
  | zero => exact absurd hi (Nat.not_lt_zero i)
  | succ m ih =>
    rw [mergeCells_succ]
    simp only [List.all_append, List.all_cons, List.all_nil, Bool.and_true, Bool.and_eq_false_iff]
    rcases Nat.lt_succ_iff_lt_or_eq.mp hi with hlt | rfl
    · exact .inl (ih hlt)
    · rw [mergeCell_poison hpart ((CellsRead.mergeCells a bs i d).poison _ hp)]
      exact .inr rfl

end

/-! ### Storing -/

section
variable {d : Dev}

theorem getPage_updPage (p q : Nat) (f : PageEntry → PageEntry) (d : Dev) :
    getPage (updPage p f d) q = if q = p then f (getPage d p) else getPage d q := Map.get_upd ..

/-- A page that is no longer CLEAN has its cells where they were. -/
theorem getCell_dirty (a n : Nat) (d : Dev) : getCell (dirty a d) n = getCell d n := by
  have hpage : ∀ p, (getPage (dirty a d) p).valid = (getPage d p).valid ∧
      (getPage (dirty a d) p).desc = (getPage d p).desc := by
    intro p
    rw [dirty, getPage_updPage]
    split
    · next he => subst he; exact ⟨rfl, rfl⟩
    · exact ⟨rfl, rfl⟩
  have hregion : ∀ b, regionAt (dirty a d) b = regionAt d b := by
    intro b
    unfold regionAt
    dsimp only
    rw [(hpage _).1, (hpage _).2]
    rfl
  unfold getCell cellPlace pageTurned
  rw [hregion]
  rfl

/-- Words stored one after another are read back, and every other cell as before. -/
theorem getCell_putWords (n : Nat) (ws : List W32) (d : Dev) (m : Nat) : getCell (putWords n ws d) m =
    if n ≤ m ∧ m < n + ws.length then goodCell (ws.getD (m - n) 0) else getCell d m := by
  induction ws generalizing n d with
  | nil => rw [if_neg (by simp)]; rfl
  | cons w ws ih =>
    rw [putWords_cons, ih, getCell_putCell, getCell_dirty, List.length_cons]
    by_cases hm : m = n
    · subst hm
      rw [if_neg (by omega), if_pos rfl, if_pos (by omega), Nat.sub_self, List.getD_cons_zero]
    · by_cases hin : n + 1 ≤ m ∧ m < n + 1 + ws.length
      · rw [if_pos hin, if_pos (by omega), show m - n = (m - (n + 1)) + 1 by omega, List.getD_cons_succ]
      · rw [if_neg hin, if_neg hm, if_neg (by omega)]

end

section
variable {a : Nat} {bs : List Byte} {d : Dev}

/-- A write that is stored leaves its cells freshly encoded with their merged data, and the others as they were. -/
theorem writeCells_stored (h : (writeCells a bs d).1 = true) :
    (∀ n, (n < a / 4 ∨ a / 4 + cellsTouched a bs.length ≤ n) → getCell (writeCells a bs d).2 n = getCell d n) ∧
    ∀ i < cellsTouched a bs.length, ∃ w : W32, getCell (writeCells a bs d).2 (a / 4 + i) = goodCell w ∧
      Merged (cellPart a bs (a / 4 + i)) (getCell d (a / 4 + i)).decode.data w := by
  rw [writeCells_eq] at h ⊢
  dsimp only at h ⊢
  split_ifs at h ⊢ with hall
  obtain ⟨hyard, hmerged⟩ := mergeCells_all hall
  have hlen : ((mergeCells a bs (cellsTouched a bs.length) d).1.map (·.getD 0)).length = cellsTouched a bs.length := by
    rw [List.length_map, mergeCells_length]
  refine ⟨fun n hn => ?_, fun i hi => ⟨_, ?_, hmerged i hi⟩⟩
  · rw [getCell_putWords, hlen, if_neg (by omega), getCell_congr hyard]
  · rw [getCell_putWords, hlen, if_pos (by omega), Nat.add_sub_cancel_left]

/-- A write that is dropped leaves what the reads of its cells leave. -/
theorem writeCells_dropped (h : (writeCells a bs d).1 = false) : CellsRead d (writeCells a bs d).2 := by
  rw [writeCells_eq] at h ⊢
  dsimp only at h ⊢
  split_ifs at h ⊢
  exact CellsRead.mergeCells ..

end

/-- Settles O54: the read halves of a write leave every cell as it reads, so that a write is stored over the cells that it
found, or dropped from them. -/
theorem cellWritesMerge : Obligations.CellWritesMerge := by
  unfold Obligations.CellWritesMerge
  refine ⟨fun a bs d h => writeCells_stored h,
    fun n part d => ⟨fun hall => ?whole, fun hall h0 h1 h3 => mergeCell_unarmed hall h0 h1 h3⟩,
    fun acc a bs d hcheck hdropped => ?fails, fun a bs d => ⟨?poison, fun h n => ?dropped⟩, goodCell_decode⟩
  case whole =>
    rw [mergeCell_whole hall]
    exact ⟨rfl, rfl⟩
  case fails => simp [yardWrite, hcheck, hdropped]
  case poison =>
    rintro ⟨i, hi, hpart, hp⟩
    simp only [writeCells_eq, mergeCells_poison hi hpart hp, Bool.false_eq_true, if_false]
  case dropped =>
    have hread := writeCells_dropped h
    exact ⟨hread.data n, hread.unarmed n⟩

end Sys2Proof.Machine

/-! ## Tallies (R154) -/

namespace Sys2Proof.Machine

/-- The loop over an accumulator comes to a division, given as many rounds as it holds granules. -/
theorem wholeGranules_eq {granule : Nat} (hg : 0 < granule) {n v acc : Nat} (hv : v < 2 ^ 32) (hn : acc / granule ≤ n) :
    wholeGranules granule n v acc = ((v + acc / granule) % 2 ^ 32, acc % granule) := by
  induction n generalizing v acc with
  | zero =>
    have hless : acc < granule := (Nat.div_eq_zero_iff_lt hg).mp (Nat.le_zero.mp hn)
    simp only [wholeGranules, Nat.div_eq_of_lt hless, Nat.mod_eq_of_lt hless, Nat.add_zero, Nat.mod_eq_of_lt hv]
  | succ n ih =>
    rw [wholeGranules]
    split
    · next hle =>
      have hdiv : acc / granule = (acc - granule) / granule + 1 := by
        conv_lhs => rw [← Nat.sub_add_cancel hle, Nat.add_div_right _ hg]
      rw [ih (Nat.mod_lt _ (by decide)) (by omega), hdiv, Nat.mod_eq_sub_mod hle]
      congr 1
      omega
    · next hlt =>
      have hless : acc < granule := Nat.not_le.mp hlt
      simp only [Nat.div_eq_of_lt hless, Nat.mod_eq_of_lt hless, Nat.add_zero, Nat.mod_eq_of_lt hv]

section
variable {d e : Dev}

theorem getTally_congr (h : e.yard.tallies = d.yard.tallies) (t : Nat) : getTally e t = getTally d t := by
  rw [getTally, getTally, h]

/-- Cells that land change their own tally alone: its counts by a division, whatever flag and watches follow. -/
theorem getTally_tallyAdd (d : Dev) (t cells granule u : Nat) : getTally (tallyAdd t cells granule d) u =
    getTally (updTally t (fun x => { x with
      value := (x.value + (x.accum + cells) / granule) % 2 ^ 32, accum := (x.accum + cells) % granule }) d) u := by
  apply getTally_congr
  unfold tallyAdd
  extract_lets v acc up val d1 d2
  have hflag : d2.yard.tallies = d1.yard.tallies :=
    congrArg YardState.tallies (Reported.ite (Reported.refl d1).flag0 (.refl d1)).yard
  have hfired : (if up = 0 then d2 else fireWatches t (min val (2 ^ 32 - 1)) d2).yard.tallies = d2.yard.tallies := by
    split <;> rfl
  rw [hfired, hflag]
  rfl

end

/-- Settles O55: the division that a landing does is the loop of R154. -/
theorem tallyCountsWholeGranules : Obligations.TallyCountsWholeGranules := by
  unfold Obligations.TallyCountsWholeGranules
  intro d t cells granule hg hv
  refine ⟨?_, fun u hu => ?_⟩
  · dsimp only
    rw [getTally_tallyAdd, getTally_updTally_same, wholeGranules_eq hg hv (Nat.div_le_self _ _)]
  · rw [getTally_tallyAdd, getTally_updTally_other _ _ hu]

/-! ## Semaphores (R158 to R160) -/

section
variable {d e : Dev} {k : Nat}

/-- An answer to a waiter changes nothing of the yard. -/
@[simp] theorem answerSem_yard (h code : Nat) (d : Dev) : (answerSem h code d).yard = d.yard := by
  unfold answerSem
  split
  · rfl
  · split <;> rfl

theorem waitersOf_congr (h : e.yard.waiters = d.yard.waiters) (k : Nat) : waitersOf e k = waitersOf d k := by
  rw [waitersOf, waitersOf, h]

theorem getSem_congr (h : e.yard.sems = d.yard.sems) (k : Nat) : getSem e k = getSem d k := by
  rw [getSem, getSem, h]

theorem waitersOf_updSem (j : Nat) (f : Sem → Sem) (d : Dev) : waitersOf (updSem j f d) k = waitersOf d k := rfl

theorem getSem_dropWaiter (j h : Nat) (d : Dev) : getSem (dropWaiter j h d) k = getSem d k := rfl

/-- A holder's request leaves its semaphore's queue. -/
theorem waitersOf_dropWaiter (k h : Nat) (d : Dev) :
    waitersOf (dropWaiter k h d) k = (waitersOf d k).filter (fun w => w.holder ≠ h) := by
  simp only [waitersOf, dropWaiter, List.filter_filter]
  congr 1
  funext w
  by_cases hk : w.sem = k <;> simp [hk]

/-- The module once the first waiter of a counting semaphore is granted. -/
def grantFirst (k : Nat) (w : Waiter) (d : Dev) : Dev :=
  answerSem w.holder 0 (dropWaiter k w.holder (updSem k (fun s => { s with value := s.value - w.amount }) d))

theorem grantCounting_succ (n : Nat) {w : Waiter} {ws : List Waiter} (h : waitersOf d k = w :: ws) :
    grantCounting (n + 1) k d =
      if w.amount ≤ (getSem d k).value then grantCounting n k (grantFirst k w d) else d := by
  rw [grantCounting, h]
  rfl

theorem getSem_grantFirst (k : Nat) (w : Waiter) (d : Dev) :
    (getSem (grantFirst k w d) k).value = (getSem d k).value - w.amount := by
  rw [grantFirst, getSem_congr (congrArg YardState.sems (answerSem_yard ..)), getSem_dropWaiter,
    getSem_updSem_same]

/-- Granting the first waiter leaves the others, where each holder waits once. -/
theorem waitersOf_grantFirst {w : Waiter} {ws : List Waiter} (h : waitersOf d k = w :: ws)
    (hnodup : ((w :: ws).map (·.holder)).Nodup) : waitersOf (grantFirst k w d) k = ws := by
  have hothers : ∀ x ∈ ws, x.holder ≠ w.holder := by
    rw [List.map_cons, List.nodup_cons] at hnodup
    exact fun x hx he => hnodup.1 (he ▸ List.mem_map_of_mem hx)
  rw [grantFirst, waitersOf_congr (congrArg YardState.waiters (answerSem_yard ..)), waitersOf_dropWaiter,
    waitersOf_updSem, h, List.filter_cons_of_neg (by simp), List.filter_eq_self]
  simpa using hothers

/-- Granting, with as many rounds as there are waiters: the first ones are granted, until one asks for more than is left. -/
theorem grantCounting_inOrder {n : Nat} {ws : List Waiter} (h : waitersOf d k = ws) (hnodup : (ws.map (·.holder)).Nodup)
    (hn : ws.length ≤ n) : ∃ j ≤ ws.length, waitersOf (grantCounting n k d) k = ws.drop j ∧
      (getSem (grantCounting n k d) k).value + ((ws.take j).map (·.amount)).sum = (getSem d k).value ∧
      ∀ (w : Waiter) (rest : List Waiter), ws.drop j = w :: rest → (getSem (grantCounting n k d) k).value < w.amount := by
  induction ws generalizing d n with
  | nil =>
    have hsame : grantCounting n k d = d := by
      cases n with
      | zero => rfl
      | succ n => rw [grantCounting, h]
    rw [hsame]
    exact ⟨0, Nat.le_refl 0, h, rfl, fun w rest he => nomatch he⟩
  | cons w ws ih =>
    obtain ⟨n, rfl⟩ := Nat.exists_eq_add_of_lt (Nat.lt_of_lt_of_le (Nat.zero_lt_succ _) hn)
    rw [Nat.zero_add, grantCounting_succ n h]
    split
    · next hgranted =>
      obtain ⟨j, hj, hdrop, hsum, hblocked⟩ := ih (n := n) (waitersOf_grantFirst h hnodup)
        (List.nodup_cons.mp hnodup).2 (by simpa using hn)
      refine ⟨j + 1, Nat.succ_le_succ hj, hdrop, ?_, hblocked⟩
      rw [getSem_grantFirst] at hsum
      rw [List.take_succ_cons, List.map_cons, List.sum_cons]
      omega
    · next hblocked =>
      refine ⟨0, Nat.zero_le _, h, rfl, fun x rest he => ?_⟩
      obtain ⟨rfl, -⟩ := List.cons.inj he
      omega

end

/-- Settles O57: by induction on the queue. -/
theorem countingGrantsInOrder : Obligations.CountingGrantsInOrder := by
  unfold Obligations.CountingGrantsInOrder
  exact fun d k hnodup hlen => grantCounting_inOrder rfl hnodup hlen

section
variable {d : Dev} {k cmp h : Nat}

/-- A holder of this module reaches a cluster that its station's route does not cut off. -/
theorem holderCut_reached {st : Nat} (hcut : cutOff d (if h < 64 then some h else if h < 68 then
      homeStation (.ctl (Fin.ofNat 4 (h - 64))) else none) st = false) : holderCut d h st = false := by
  unfold holderCut clusterCut
  split_ifs at hcut ⊢ with hcoach
  · rw [show homeStation (.coach (Fin.ofNat 64 h)) = some h from congrArg some (Nat.mod_eq_of_lt hcoach), hcut, Bool.and_false]
  · rw [hcut, Bool.and_false]
  · rfl

section
variable (hout : clusterOut d (k / 256) = false) (hcut : holderCut d h (k / 256) = false)
include hout hcut

/-- A cluster that the holder reaches checks the owner of the semaphore, then its kind. -/
theorem semGuard_reached (lock : Bool) : semGuard d k cmp h lock =
    if cmp ≠ (getSem d k).owner ∧ cmp ≠ 0 then some 8
    else if (getSem d k).kind ≠ (if lock then .lock else .counting) then some 7 else none := by
  simp only [semGuard, hout, hcut, Bool.or_self, Bool.false_eq_true, if_false]
  cases lock <;> simp only [if_true, if_false, Bool.false_eq_true, bne_iff_ne]

theorem semGuard_refused (hcmp : cmp ≠ (getSem d k).owner) (h0 : cmp ≠ 0) (lock : Bool) : semGuard d k cmp h lock = some 8 := by
  rw [semGuard_reached hout hcut, if_pos ⟨hcmp, h0⟩]

variable (hcmp : cmp = (getSem d k).owner ∨ cmp = 0)
include hcmp

theorem semGuard_wrongKind {lock : Bool} (hkind : (getSem d k).kind ≠ if lock then .lock else .counting) :
    semGuard d k cmp h lock = some 7 := by
  rw [semGuard_reached hout hcut, if_neg (by tauto), if_pos hkind]

theorem semGuard_passes {lock : Bool} (hkind : (getSem d k).kind = if lock then .lock else .counting) :
    semGuard d k cmp h lock = none := by
  rw [semGuard_reached hout hcut, if_neg (by tauto), if_neg (not_not.mpr hkind)]

end

/-! ### Requests that queue -/

section
variable {amount timeout : Nat} {acquire : Bool}

theorem semQueue_once (ht : timeout = 0) : semQueue k cmp h amount timeout acquire d = (some 2, d) := if_pos ht

theorem semQueue_busy (ht : timeout ≠ 0) (hfull : 128 ≤ waitersUsed d (k / 256)) :
    semQueue k cmp h amount timeout acquire d = (some 3, flag0 T.YRD (k / 256) 5 (k % 256) d) := by
  rw [semQueue, if_neg ht, if_pos hfull]

theorem semQueue_waits (ht : timeout ≠ 0) (hroom : waitersUsed d (k / 256) < 128) :
    semQueue k cmp h amount timeout acquire d = (none, { d with yard := { d.yard with waiters := d.yard.waiters ++
      [⟨k, h, cmp, epochOf d h, acquire, amount, if timeout = 0xFFFFFFFF then none else some (tick d + timeout)⟩] } }) := by
  rw [semQueue, if_neg ht, if_neg (by omega)]

end

/-! ### The four operations once the checks have passed -/

section
variable {n timeout : Nat}

theorem semSignal_passed (hguard : semGuard d k cmp h false = none) : semSignal k cmp h n d =
    if 0xFFFFFF < (getSem d k).value + n then (6, flag0 T.YRD (k / 256) 6 (k % 256) d)
    else (0, grantCounting 128 k (updSem k (fun s => { s with value := s.value + n }) d)) := by
  rw [semSignal, hguard]

theorem semWait_passed (hguard : semGuard d k cmp h false = none) : semWait k cmp h n timeout d =
    if n ≤ (getSem d k).value ∧ (waitersOf d k).isEmpty then
      (some 0, updSem k (fun s => { s with value := s.value - n }) d)
    else semQueue k cmp h n timeout false d := by
  rw [semWait, hguard]

theorem semAcquire_passed (hguard : semGuard d k cmp h true = none) : semAcquire k cmp h timeout d =
    match (getSem d k).state with
    | .free => (some 0, updSem k (lockTaken d cmp h) d)
    | .broken => (some 1, updSem k (lockTaken d cmp h) d)
    | .held => if heldBy d (getSem d k) h then (some 5, d) else semQueue k cmp h 0 timeout true d := by
  simp only [semAcquire, hguard] <;> rfl

theorem semRelease_passed (hguard : semGuard d k cmp h true = none) : semRelease k cmp h d =
    if heldBy d (getSem d k) h then (0, handLock k 0 d) else (4, d) := by
  rw [semRelease, hguard]

/-- An operation that ends at its checks. -/
theorem semDo_stopped {c : Nat} {op : SemOp}
    (hguard : semGuard d k cmp h (decide (op = .acquire ∨ op = .release)) = some c) :
    semDo op k cmp h n timeout d = (some c, d) := by
  cases op with
  | signal => simp [semDo, semSignal, show semGuard d k cmp h false = some c from hguard]
  | wait => simp [semDo, semWait, show semGuard d k cmp h false = some c from hguard]
  | acquire => simp [semDo, semAcquire, show semGuard d k cmp h true = some c from hguard]
  | release => simp [semDo, semRelease, show semGuard d k cmp h true = some c from hguard]

end

theorem handLock_none (code : Nat) (hw : waitersOf d k = []) : handLock k code d = updSem k lockFree d := by
  rw [handLock, hw]

theorem handLock_first (code : Nat) {w : Waiter} {rest : List Waiter} (hw : waitersOf d k = w :: rest) : handLock k code d =
    answerSem w.holder code (dropWaiter k w.holder (updSem k (lockTaken d w.cmp w.holder) d)) := by
  rw [handLock, hw]

end

/-- Settles O56: the checks say which operations end at once, and each that passes them goes by VALUE, by the lock's state or
by the queue. -/
theorem semaphoreOperations : Obligations.SemaphoreOperations := by
  unfold Obligations.SemaphoreOperations
  intro d k cmp h n timeout x hout hreach
  have hcut := holderCut_reached hreach
  refine ⟨fun hne h0 op => semDo_stopped (semGuard_refused hout hcut hne h0 _), fun hcmp => ?_⟩
  refine ⟨fun hkind => ?counting, fun hkind => ?lock, fun hkind => ?notCounting, fun hkind => ?notLock⟩
  case counting =>
    have hguard : semGuard d k cmp h false = none := semGuard_passes hout hcut hcmp hkind
    refine ⟨fun hfits => ?_, fun hover => ?_, fun hle hnone => ?_, fun hblocked => ?_⟩
    · rw [semDo, semSignal_passed hguard, if_neg (Nat.not_lt.mpr hfits)]
    · rw [semDo, semSignal_passed hguard, if_pos hover]
    · rw [semDo, semWait_passed hguard, if_pos ⟨hle, by simp [hnone]⟩]
    · have hqueue : semDo .wait k cmp h n timeout d = semQueue k cmp h n timeout false d := by
        rw [semDo, semWait_passed hguard, if_neg]
        rintro ⟨hle, hempty⟩
        exact hblocked.elim (Nat.not_lt.mpr hle) (fun hne => hne (List.isEmpty_iff.mp hempty))
      rw [hqueue]
      exact ⟨semQueue_once, semQueue_waits, semQueue_busy⟩
  case lock =>
    have hguard : semGuard d k cmp h true = none := semGuard_passes hout hcut hcmp hkind
    refine ⟨fun hstate => ?_, fun hstate => ?_, fun hstate => ?held, fun hheld => ?mine, fun hheld => ?_⟩
    · rw [semDo, semAcquire_passed hguard, hstate]
    · rw [semDo, semAcquire_passed hguard, hstate]
    case held =>
      have hdo : semDo .acquire k cmp h n timeout d =
          if heldBy d x h then (some 5, d) else semQueue k cmp h 0 timeout true d := by
        rw [semDo, semAcquire_passed hguard, hstate]
      rw [hdo]
      refine ⟨fun hheld => if_pos hheld, fun hheld ht => ?_, fun hheld ht hroom => ?_, fun hheld ht hfull => ?_⟩
      · rw [if_neg (by simp [hheld]), semQueue_once ht]
      · rw [if_neg (by simp [hheld]), semQueue_waits ht hroom]
      · rw [if_neg (by simp [hheld]), semQueue_busy ht hfull]
    case mine =>
      have hdo : semDo .release k cmp h n timeout d = (some 0, handLock k 0 d) := by
        rw [semDo, semRelease_passed hguard, if_pos hheld]
      rw [hdo]
      exact ⟨fun hnone => by rw [handLock_none 0 hnone], fun w rest hfirst => by rw [handLock_first 0 hfirst]⟩
    · rw [semDo, semRelease_passed hguard, if_neg (by simp [x, hheld])]
  case notCounting =>
    have hguard : semGuard d k cmp h false = some 7 := semGuard_wrongKind hout hcut hcmp hkind
    exact ⟨semDo_stopped hguard, semDo_stopped hguard⟩
  case notLock =>
    have hguard : semGuard d k cmp h true = some 7 := semGuard_wrongKind hout hcut hcmp hkind
    exact ⟨semDo_stopped hguard, semDo_stopped hguard⟩

end Sys2Proof.Machine

/-! ## Stack memory, local RAM, the flash and the ledger RAM (R134, R199, R201, R252, R598) -/

namespace Sys2Proof.Machine

theorem Reported.stk {d e : Dev} (h : Reported d e) : e.stk = d.stk := by obtain ⟨_, _, _, _, _, rfl⟩ := h; rfl

/-! ### Lines of stack memory -/

/-- A freshly encoded line has no syndrome, and decodes by its metadata symbol. -/
theorem encodeLine_decode (w : BitVec 512) (p : Bool) : (encodeLine w p).decode = if p then .poisoned w else .good w := by
  have hzero : ∀ a, gfMul a 0 = 0 → (encodeLine w p).syndromes = (0, 0, 0) := by
    intro a _
    have h2 : gfMul 2 0 = 0 := by decide
    have h4 : gfMul 4 0 = 0 := by decide
    have h16 : gfMul 16 0 = 0 := by decide
    simp only [Line.syndromes, encodeLine, Nat.xor_self, h2, h4, h16]
  rw [Line.decode, hzero 0 (by decide)]
  cases p <;> rfl

theorem encodeLine_data (w : BitVec 512) (p : Bool) : (encodeLine w p).data = w := rfl

/-- An uncorrectable line delivers its data as it is stored. -/
theorem Line.decode_uncorrectable {l : Line} {w : BitVec 512} (h : l.decode = .uncorrectable w) : w = l.data := by
  unfold Line.decode at h
  dsimp only at h
  split at h
  · split_ifs at h
    exact (LineRead.uncorrectable.inj h).symm
  · split at h
    · exact (LineRead.uncorrectable.inj h).symm
    · split_ifs at h <;> exact (LineRead.uncorrectable.inj h).symm

theorem LineRead.noisy_data (r : LineRead) : r.noisy.data = r.data := by cases r <;> rfl

/-- The stored lines are the same. -/
def SameLines (d e : Dev) : Prop := e.stk.lines = d.stk.lines

theorem SameLines.reported {d e f : Dev} (h : SameLines d e) (g : Reported e f) : SameLines d f :=
  (congrArg StackState.lines g.stk).trans h

/-- Counting an uncorrectable read of a pseudo-channel changes no line. -/
theorem SameLines.countUe {d e : Dev} (h : SameLines d e) (p pc : Nat) : SameLines d (countUe p pc e) := by
  unfold Machine.countUe
  extract_lets ts f
  have hf : SameLines d f := h
  exact hf.reported (.ite (Reported.refl f).autoStable (.refl f))

theorem getLine_congr {d e : Dev} (h : SameLines d e) (n : Nat) : getLine e n = getLine d n := by
  rw [getLine, getLine, show e.stk.lines = d.stk.lines from h]

section
variable (n : Nat) (d : Dev)

/-- What a read of a line that is online finds, with the injections of its stack (R200, R55). -/
def LineFinds (r : LineRead) : Prop :=
  r = .uncorrectable (getLine d n).data ∨ r = (getLine d n).decode.noisy ∨ r = (getLine d n).decode

section
variable {n : Nat} {d : Dev} {r : LineRead} (h : LineFinds n d r)
include h

/-- A line found without poison delivers what the stored line decodes as. -/
theorem LineFinds.data_clean (hp : r.poison = false) : r.data = (getLine d n).decode.data := by
  rcases h with rfl | rfl | rfl
  · exact absurd hp (by simp [LineRead.poison])
  · exact LineRead.noisy_data _
  · rfl

/-- A line found uncorrectable delivers its data as it is stored. -/
theorem LineFinds.data_uncorrectable {w : BitVec 512} (hr : r = .uncorrectable w) : w = (getLine d n).data := by
  rcases h with rfl | rfl | rfl
  · exact (LineRead.uncorrectable.inj hr).symm
  · apply Line.decode_uncorrectable
    revert hr
    cases (getLine d n).decode <;> simp [LineRead.noisy]
  · exact Line.decode_uncorrectable hr

end

/-- A read of a line delivers poison, and then may rewrite the line as poisoned, or it changes no line and delivers what
the line decodes as (R200). -/
theorem readLine_cases : let x := readLine n d
    (x.1.2 = true ∧ (SameLines d x.2 ∨ SameLines (putLine n (encodeLine (getLine d n).data true) d) x.2)) ∨
    (x.1 = ((getLine d n).decode.data, false) ∧ SameLines d x.2) := by
  unfold readLine
  extract_lets o m p pc d0 d1 hit d2 l res x
  unfold x
  clear x
  split
  · have hd0 : SameLines d d0 := rfl
    exact .inl ⟨rfl, .inl (hd0.reported (Reported.refl d0).wr.flag0)⟩
  · have hres : LineFinds n d res := by
      unfold res LineFinds
      split_ifs
      · exact .inl rfl
      · exact .inr (.inl rfl)
      · exact .inr (.inr rfl)
    have hd2 : SameLines d d2 := by
      unfold d2
      split <;> rfl
    have hput (w) : SameLines (putLine n (encodeLine w true) d) (putLine n (encodeLine w true) d2) := by
      unfold SameLines putLine
      dsimp only
      rw [show d2.stk.lines = d.stk.lines from hd2]
    clear_value res d2
    cases res <;> dsimp only
    case good w => exact .inr ⟨congrArg (·, false) (hres.data_clean rfl), hd2⟩
    case corrected w => exact .inr ⟨congrArg (·, false) (hres.data_clean rfl), hd2.reported (Reported.refl d2).wr.flag0.cper⟩
    case poisoned w => exact .inl ⟨rfl, .inl (hd2.reported (Reported.refl d2).wr.flag0)⟩
    case uncorrectable w =>
      obtain rfl := hres.data_uncorrectable rfl
      refine .inl ⟨rfl, .inr (((hput _).reported (Reported.cper (.ite ?_ (Reported.wr (Reported.wr ?_))))).countUe p pc)⟩
      · exact (Reported.refl _).wr.flag0
      · exact (Reported.refl _).wr.flag0

end
/-! ### Merging lines -/

theorem leNat_lt (bs : List Byte) : leNat bs < 256 ^ bs.length := by
  induction bs with
  | nil => exact Nat.one_pos
  | cons b bs ih =>
    have hb : b.toNat < 256 := b.isLt
    rw [leNat, List.length_cons, pow_succ]
    omega

/-- A word of `n` bytes made of a number of `n` bytes holds that number. -/
theorem leNat_leBytes_ofNat {n : Nat} {bs : List Byte} (h : bs.length = n) :
    leNat (leBytes n (BitVec.ofNat (8 * n) (leNat bs)).toNat) = leNat bs := by
  have hpow : 2 ^ (8 * n) = 256 ^ n := pow_mul 2 8 n
  have hlt : leNat bs < 256 ^ n := h ▸ leNat_lt bs
  rw [leNat_leBytes, BitVec.toNat_ofNat, hpow, Nat.mod_eq_of_lt hlt, Nat.mod_eq_of_lt hlt]

/-- A line made of 64 bytes holds those bytes. -/
theorem lineBytes_lineOfBytes {bs : List Byte} (h : bs.length = 64) (b : Nat) :
    (lineBytes (lineOfBytes bs)).getD b 0 = bs.getD b 0 := by
  have hsame : leNat (lineBytes (lineOfBytes bs)) = leNat bs := by
    rw [lineBytes, lineOfBytes, List.take_of_length_le h.le]
    exact leNat_leBytes_ofNat h
  exact BitVec.eq_of_toNat_eq (by rw [← leNat_byte, hsame, leNat_byte])

/-- The bytes written in line `n` by a write of `bs` at `a`. -/
def linePart (a : Nat) (bs : List Byte) (n : Nat) : List (Option Byte) :=
  (List.range 64).map (fun i => if stackBase + n * 64 + i < a then none else bs[stackBase + n * 64 + i - a]?)

/-- A line holds the written bytes of a part of it, and the old bytes elsewhere. -/
def MergedLine (part : List (Option Byte)) (old w : BitVec 512) : Prop :=
  ∀ b < 64, (lineBytes w).getD b 0 = (part.getD b none).getD ((lineBytes old).getD b 0)

/-- The part of a line that is written, byte by byte. -/
theorem linePart_getD {a : Nat} (ha : stackBase ≤ a) (bs : List Byte) (n : Nat) {b : Nat} (hb : b < 64) (old : Byte) :
    ((linePart a bs n).getD b none).getD old =
      if a - stackBase ≤ 64 * n + b ∧ 64 * n + b < a - stackBase + bs.length then
        bs.getD (64 * n + b - (a - stackBase)) 0 else old := by
  rw [linePart, List.getD_eq_getElem _ _ (by simpa using hb), List.getElem_map, List.getElem_range]
  split
  · rw [if_neg (by omega)]
    rfl
  · rw [show stackBase + n * 64 + b - a = 64 * n + b - (a - stackBase) by omega]
    split
    · next hin => rw [List.getElem?_eq_getElem (by omega), List.getD_eq_getElem _ _ (by omega)]; rfl
    · next hout => rw [List.getElem?_eq_none (by omega)]; rfl

section
variable {n a : Nat} {bs : List Byte} {d : Dev} {w : BitVec 512}

/-- A line that is online takes its whole, or its part when it can be read. -/
theorem mergeLine_online (h : lineOnline d (n * 64) = true) : mergeLine n a bs d =
    if (linePart a bs n).all Option.isSome = true then
      (.ok (lineOfBytes ((linePart a bs n).map (·.getD 0))), openRow (n * 64) (noteAccess d))
    else if (readLine n d).1.2 = true then
      (.error .partialUe, flag0 T.STK (stackMap d.part (n * 64)).1 4 0 (readLine n d).2)
    else (.ok (lineOfBytes ((List.range 64).map (fun i =>
      ((linePart a bs n).getD i none).getD ((lineBytes (readLine n d).1.1).getD i 0)))), (readLine n d).2) := by
  simp only [mergeLine, h, Bool.not_true, Bool.false_eq_true, if_false]
  rfl

theorem mergeLine_offline (h : lineOnline d (n * 64) = false) : mergeLine n a bs d =
    (.error .stackOffline, bump (kS (stackMap d.part (n * 64)).1 1 0x04C) (noteAccess d)) := by
  simp only [mergeLine, h, Bool.not_false, if_true]

/-- A line that is written whole holds the new bytes. -/
theorem mergedLine_whole {part : List (Option Byte)} (h : part.all Option.isSome = true) (hlen : part.length = 64)
    (old : BitVec 512) : MergedLine part old (lineOfBytes (part.map (·.getD 0))) := by
  intro b hb
  have hb' : b < part.length := by omega
  obtain ⟨x, hx⟩ := Option.isSome_iff_exists.mp (List.all_eq_true.mp h _ (List.getElem_mem hb'))
  rw [lineBytes_lineOfBytes (by simpa using hlen), List.getD_eq_getElem _ _ (by simpa using hb'), List.getD_eq_getElem _ _ hb',
    List.getElem_map, hx]
  rfl

/-- A line that takes its write is not changed yet, and will hold the merged data. -/
theorem mergeLine_ok (h : (mergeLine n a bs d).1 = .ok w) :
    SameLines d (mergeLine n a bs d).2 ∧ MergedLine (linePart a bs n) (getLine d n).decode.data w := by
  cases hon : lineOnline d (n * 64) with
  | false =>
    rw [mergeLine_offline hon] at h
    exact nomatch h
  | true =>
    rw [mergeLine_online hon] at h ⊢
    split_ifs at h ⊢ with hall hp
    · rw [← Except.ok.inj h]
      exact ⟨rfl, mergedLine_whole hall rfl _⟩
    · rcases readLine_cases (n := n) (d := d) with ⟨hpoison, -⟩ | ⟨hdata, hsame⟩
      · exact absurd hpoison hp
      · refine ⟨hsame, fun b hb => ?_⟩
        rw [← Except.ok.inj h, lineBytes_lineOfBytes (by simp), List.getD_eq_getElem _ _ (by simpa using hb), List.getElem_map,
          List.getElem_range, hdata]

end

/-! ### All lines of a write -/

/-- What reads of the lines in `s` leave of the lines, whatever errors are armed: the stored data, and the other lines. -/
structure LinesRead (s : Nat → Prop) (d e : Dev) : Prop where
  data : ∀ j, (getLine e j).data = (getLine d j).data
  others : ∀ j, ¬ s j → getLine e j = getLine d j

section
variable {s : Nat → Prop} {d e f : Dev} {n : Nat}

theorem LinesRead.same (h : SameLines d e) : LinesRead s d e :=
  ⟨fun j => by rw [getLine_congr h], fun j _ => getLine_congr h j⟩

theorem LinesRead.trans (h : LinesRead s d e) (g : LinesRead s e f) : LinesRead s d f :=
  ⟨fun j => (g.data j).trans (h.data j), fun j hj => (g.others j hj).trans (h.others j hj)⟩

theorem LinesRead.reported (h : LinesRead s d e) (g : Reported e f) : LinesRead s d f :=
  h.trans (.same (SameLines.reported rfl g))

theorem LinesRead.rewritten (hn : s n) : LinesRead s d (putLine n (encodeLine (getLine d n).data true) d) where
  data j := by
    rw [getLine_putLine]
    split
    · next he => rw [he, encodeLine_data]
    · rfl
  others j hj := by
    rw [getLine_putLine, if_neg]
    rintro rfl
    exact hj hn

theorem LinesRead.readLine (hn : s n) : LinesRead s d (readLine n d).2 := by
  rcases readLine_cases (n := n) (d := d) with ⟨-, hsame | hput⟩ | ⟨-, hsame⟩
  · exact .same hsame
  · exact (LinesRead.rewritten hn).trans (.same hput)
  · exact .same hsame

theorem LinesRead.mergeLine (hn : s n) (a : Nat) (bs : List Byte) : LinesRead s d (mergeLine n a bs d).2 := by
  cases hon : lineOnline d (n * 64) with
  | false =>
    rw [mergeLine_offline hon]
    exact .same rfl
  | true =>
    rw [mergeLine_online hon]
    split_ifs
    · exact .same rfl
    · exact (LinesRead.readLine hn).reported (Reported.refl _).flag0
    · exact .readLine hn

end

/-- Why a line does not take its write, if it does not. -/
def lineFailure : Except Kind (BitVec 512) → Option Kind
  | .error k => some k
  | .ok _ => none

/-- What a line that takes its write would hold. -/
def lineTaken : Except Kind (BitVec 512) → BitVec 512
  | .ok w => w
  | .error _ => 0

/-- What the first `m` lines of a write would hold, and the module that their reads leave (R201). -/
def mergeLines (a : Nat) (bs : List Byte) (m : Nat) (d : Dev) : List (Except Kind (BitVec 512)) × Dev :=
  (List.range m).foldl (fun (r : List (Except Kind (BitVec 512)) × Dev) i =>
    let x := mergeLine ((a - stackBase) / 64 + i) a bs r.2
    (r.1 ++ [x.1], x.2)) ([], d)

/-- The lines that a write touches. -/
def linesTouched (a : Nat) (bs : List Byte) : Nat :=
  if bs.isEmpty then 0 else (a - stackBase + bs.length - 1) / 64 - (a - stackBase) / 64 + 1

section
variable {a : Nat} {bs : List Byte} {m : Nat} {d : Dev}

theorem mergeLines_succ (a : Nat) (bs : List Byte) (m : Nat) (d : Dev) : mergeLines a bs (m + 1) d =
    ((mergeLines a bs m d).1 ++ [(mergeLine ((a - stackBase) / 64 + m) a bs (mergeLines a bs m d).2).1],
      (mergeLine ((a - stackBase) / 64 + m) a bs (mergeLines a bs m d).2).2) := by
  simp only [mergeLines, List.range_succ, List.foldl_append, List.foldl_cons, List.foldl_nil]

theorem mergeLines_length : (mergeLines a bs m d).1.length = m := by
  induction m with
  | zero => rfl
  | succ m ih => rw [mergeLines_succ]; simp [ih]

theorem LinesRead.mergeLines {s : Nat → Prop} (hs : ∀ i < m, s ((a - stackBase) / 64 + i)) :
    LinesRead s d (mergeLines a bs m d).2 := by
  induction m with
  | zero => exact .same rfl
  | succ m ih =>
    rw [mergeLines_succ]
    exact (ih (fun i hi => hs i (Nat.lt_succ_of_lt hi))).trans (.mergeLine (hs m (Nat.lt_succ_self m)) a bs)

/-- Where every line takes its write none is changed yet, and each will hold its merged data. -/
theorem mergeLines_ok (h : (mergeLines a bs m d).1.findSome? lineFailure = none) : SameLines d (mergeLines a bs m d).2 ∧
    ∀ i < m, MergedLine (linePart a bs ((a - stackBase) / 64 + i)) (getLine d ((a - stackBase) / 64 + i)).decode.data
      (((mergeLines a bs m d).1.map lineTaken).getD i 0) := by
  induction m with
  | zero => exact ⟨rfl, fun i hi => absurd hi (Nat.not_lt_zero i)⟩
  | succ m ih =>
    rw [mergeLines_succ] at h ⊢
    rw [List.findSome?_append, Option.or_eq_none_iff] at h
    obtain ⟨hearlier, hlast⟩ := h
    obtain ⟨hsame, hwords⟩ := ih hearlier
    cases hx : (mergeLine ((a - stackBase) / 64 + m) a bs (mergeLines a bs m d).2).1 with
    | error k => simp [hx, lineFailure] at hlast
    | ok w =>
      obtain ⟨hkept, hmerged⟩ := mergeLine_ok hx
      refine ⟨Eq.trans hkept hsame, fun i hi => ?_⟩
      have hlen : ((mergeLines a bs m d).1.map lineTaken).length = m := by rw [List.length_map, mergeLines_length]
      rw [List.map_append]
      rcases Nat.lt_succ_iff_lt_or_eq.mp hi with hlt | rfl
      · rw [List.getD_append _ _ _ _ (by omega)]
        exact hwords i hlt
      · rw [List.getD_append_right _ _ _ _ (by omega), hlen, Nat.sub_self]
        rwa [getLine_congr hsame] at hmerged

theorem putLinesFrom_cons (n : Nat) (w : BitVec 512) (ws : List (BitVec 512)) :
    putLinesFrom n (w :: ws) = fun d => putLinesFrom (n + 1) ws (putLine n (encodeLine w false) d) := rfl

/-- Lines stored one after another are read back, and every other line as before. -/
theorem getLine_putLinesFrom (n : Nat) (ws : List (BitVec 512)) (d : Dev) (j : Nat) : getLine (putLinesFrom n ws d) j =
    if n ≤ j ∧ j < n + ws.length then encodeLine (ws.getD (j - n) 0) false else getLine d j := by
  induction ws generalizing n d with
  | nil => rw [if_neg (by simp)]; rfl
  | cons w ws ih =>
    rw [putLinesFrom_cons, ih, getLine_putLine, List.length_cons]
    by_cases hj : j = n
    · subst hj
      rw [if_neg (by omega), if_pos rfl, if_pos (by omega), Nat.sub_self, List.getD_cons_zero]
    · by_cases hin : n + 1 ≤ j ∧ j < n + 1 + ws.length
      · rw [if_pos hin, if_pos (by omega), show j - n = (j - (n + 1)) + 1 by omega, List.getD_cons_succ]
      · rw [if_neg hin, if_neg hj, if_neg (by omega)]

theorem SameLines.fired (ty inst page : Nat) (d : Dev) : SameLines d (fired ty inst page d) :=
  congrArg StackState.lines (wrB_stk ..)

/-- A write to stack memory that meets an armed error fails, and changes no line. -/
theorem landStack_hit (bs : List Byte)
    (h : armed d T.STK (stackMap d.part (a - stackBase)).1 0 5 = some (stackMap d.part (a - stackBase)).2.1) :
    ∃ e, landStack a bs d = (some .pathParity, e) ∧ SameLines d e := by
  unfold landStack
  refine ⟨_, if_pos h, (SameLines.fired T.STK (stackMap d.part (a - stackBase)).1 0 d).reported ?_⟩
  exact (Reported.refl _).flag0.cper

/-- Any other is stored when every line takes its part, and dropped when one does not (R201). -/
theorem landStack_clear
    (h : armed d T.STK (stackMap d.part (a - stackBase)).1 0 5 ≠ some (stackMap d.part (a - stackBase)).2.1) :
    landStack a bs d = match (mergeLines a bs (linesTouched a bs) d).1.findSome? lineFailure with
      | some k => (some k, (mergeLines a bs (linesTouched a bs) d).2)
      | none => (none, putLinesFrom ((a - stackBase) / 64) ((mergeLines a bs (linesTouched a bs) d).1.map lineTaken)
          (mergeLines a bs (linesTouched a bs) d).2) := by
  unfold landStack
  rw [if_neg h]
  rfl

/-- A write to stack memory leaves the lines it does not touch, and where it fails the data of every line. -/
theorem landStack_others : (∀ j, (j < (a - stackBase) / 64 ∨ (a - stackBase) / 64 + linesTouched a bs ≤ j) →
      getLine (landStack a bs d).2 j = getLine d j) ∧
    ((landStack a bs d).1 ≠ none → ∀ j, (getLine (landStack a bs d).2 j).data = (getLine d j).data) := by
  by_cases hhit : armed d T.STK (stackMap d.part (a - stackBase)).1 0 5 = some (stackMap d.part (a - stackBase)).2.1
  · obtain ⟨e, hfailed, hsame⟩ := landStack_hit bs hhit
    rw [hfailed]
    exact ⟨fun j _ => getLine_congr hsame j, fun _ j => by rw [getLine_congr hsame]⟩
  · have hread : LinesRead (fun j => (a - stackBase) / 64 ≤ j ∧ j < (a - stackBase) / 64 + linesTouched a bs) d
        (mergeLines a bs (linesTouched a bs) d).2 := LinesRead.mergeLines (fun i hi => ⟨by omega, by omega⟩)
    rw [landStack_clear hhit]
    cases (mergeLines a bs (linesTouched a bs) d).1.findSome? lineFailure with
    | some k => exact ⟨fun j hj => hread.others j (by omega), fun _ => hread.data⟩
    | none =>
      refine ⟨fun j hj => ?_, fun hne => absurd rfl hne⟩
      rw [getLine_putLinesFrom, List.length_map, mergeLines_length, if_neg (by omega), hread.others j (by omega)]

/-- A write to stack memory that succeeds leaves its lines freshly encoded with their merged data. -/
theorem landStack_stored (h : (landStack a bs d).1 = none) {i : Nat} (hi : i < linesTouched a bs) : ∃ w : BitVec 512,
    getLine (landStack a bs d).2 ((a - stackBase) / 64 + i) = encodeLine w false ∧
      MergedLine (linePart a bs ((a - stackBase) / 64 + i)) (getLine d ((a - stackBase) / 64 + i)).decode.data w := by
  by_cases hhit : armed d T.STK (stackMap d.part (a - stackBase)).1 0 5 = some (stackMap d.part (a - stackBase)).2.1
  · obtain ⟨e, hfailed, -⟩ := landStack_hit bs hhit
    rw [hfailed] at h
    exact nomatch h
  · rw [landStack_clear hhit] at h ⊢
    cases hfail : (mergeLines a bs (linesTouched a bs) d).1.findSome? lineFailure with
    | some k => simp [hfail] at h
    | none =>
      refine ⟨_, ?_, (mergeLines_ok hfail).2 i hi⟩
      rw [getLine_putLinesFrom, List.length_map, mergeLines_length, if_pos (by omega), Nat.add_sub_cancel_left]

end

/-! ### Local RAM -/

section
variable {d e : Dev}

theorem lramCell_congr (h : e.cores.lram = d.cores.lram) (n : Nat) : lramCell e n = lramCell d n := by
  rw [lramCell, lramCell, h]

theorem lramCell_putLramCell (n m : Nat) (c : Cell39) (d : Dev) :
    lramCell (putLramCell n c d) m = if m = n then c else lramCell d m := Map.get_set ..

/-- A read of a word delivers what it decodes as, and changes no other word. -/
theorem readLramCell_found (n : Nat) (d : Dev) :
    (readLramCell n d).1 = ((lramCell d n).decode.data, (lramCell d n).decode.poison) ∧
    ∀ j, j ≠ n → lramCell (readLramCell n d).2 j = lramCell d j := by
  unfold readLramCell
  cases hc : (lramCell d n).decode <;> dsimp only
  case good w => exact ⟨rfl, fun _ _ => rfl⟩
  case poisoned w => exact ⟨rfl, fun _ _ => rfl⟩
  case corrected w =>
    refine ⟨rfl, fun j _ => lramCell_congr (congrArg CoreState.lram (Reported.cores ?_)) j⟩
    exact (Reported.refl d).wr.flag0.cper
  case uncorrectable w =>
    refine ⟨rfl, fun j hj => ?_⟩
    have hother : lramCell (putLramCell n (poisonCell w) d) j = lramCell d j := by rw [lramCell_putLramCell, if_neg hj]
    refine (lramCell_congr (congrArg CoreState.lram (Reported.cores ?_)) j).trans hother
    refine Reported.score (Reported.cper (Reported.flag0 (.ite ?_ (Reported.wr (Reported.wr ?_)))))
    · exact (Reported.refl _).wr
    · exact (Reported.refl _).wr

/-- A word that is written holds its merged data, poisoned where it was poisoned and is written in part. -/
theorem lramCell_mergeLram {part : List (Option Byte)} (hlen : part.length = 4) (n : Nat) (d : Dev) :
    (∃ w : W32, lramCell (mergeLram n part d) n =
      (if (lramCell d n).decode.poison && !part.all Option.isSome then poisonCell w else goodCell w) ∧
      Merged part (lramCell d n).decode.data w) ∧
    ∀ j, j ≠ n → lramCell (mergeLram n part d) j = lramCell d j := by
  unfold mergeLram
  obtain ⟨hfound, hothers⟩ := readLramCell_found n d
  extract_lets full r old w
  have hmerged (word : W32)
      (hold : ∀ j < 4, (part.getD j none).getD (old.getD j 0) = (part.getD j none).getD (wordByte word j)) :
      Merged part word w := by
    intro j hj
    rw [wordByte_leNat _ hj, List.getD_eq_getElem _ _ (by simpa using hj), List.getElem_map, List.getElem_range, ← hold j hj]
    rfl
  cases hfull : full with
  | true =>
    have hr : r = ((0, false), d) := by simp only [r, hfull, if_true]
    refine ⟨⟨w, ?_, hmerged _ (fun j hj => ?_)⟩, fun j hj => ?_⟩
    · rw [lramCell_putLramCell, if_pos rfl, hr, show part.all Option.isSome = true from hfull]
      simp
    · have hj' : j < part.length := by omega
      obtain ⟨b, hb⟩ := Option.isSome_iff_exists.mp (List.all_eq_true.mp hfull _ (List.getElem_mem hj'))
      rw [List.getD_eq_getElem _ _ hj', hb]
      rfl
    · rw [lramCell_putLramCell, if_neg hj, hr]
  | false =>
    have hr : r = readLramCell n d := by simp only [r, hfull, if_false, Bool.false_eq_true]
    refine ⟨⟨w, ?_, hmerged _ (fun j hj => ?_)⟩, fun j hj => ?_⟩
    · rw [lramCell_putLramCell, if_pos rfl, hr, hfound, show part.all Option.isSome = false from hfull]
      simp
    · rw [show old = leBytes 4 (lramCell d n).decode.data.toNat by simp only [old, hr, hfound], leBytes_word _ hj]
    · rw [lramCell_putLramCell, if_neg hj, hr, hothers j hj]

/-- A write of local RAM, word by word. -/
theorem lramCell_writeLram (o : Nat) (bs : List Byte) (m : Nat) (d : Dev) :
    let e := foldBelow m (fun i d => mergeLram (o / 4 + i) (cellPart o bs (o / 4 + i)) d) d
    (∀ j, (j < o / 4 ∨ o / 4 + m ≤ j) → lramCell e j = lramCell d j) ∧
    ∀ i < m, ∃ w : W32, lramCell e (o / 4 + i) = (if (lramCell d (o / 4 + i)).decode.poison &&
        !(cellPart o bs (o / 4 + i)).all Option.isSome then poisonCell w else goodCell w) ∧
      Merged (cellPart o bs (o / 4 + i)) (lramCell d (o / 4 + i)).decode.data w := by
  induction m with
  | zero => exact ⟨fun _ _ => rfl, fun i hi => absurd hi (Nat.not_lt_zero i)⟩
  | succ m ih =>
    intro e
    have he : e = mergeLram (o / 4 + m) (cellPart o bs (o / 4 + m))
        (foldBelow m (fun i d => mergeLram (o / 4 + i) (cellPart o bs (o / 4 + i)) d) d) := by
      simp only [e, foldBelow, List.range_succ, List.foldl_append, List.foldl_cons, List.foldl_nil]
    obtain ⟨hbefore, hwords⟩ := ih
    rw [he]
    obtain ⟨⟨w, hw, hmerged⟩, hothers⟩ := lramCell_mergeLram (cellPart_length o bs (o / 4 + m)) (o / 4 + m)
      (foldBelow m (fun i d => mergeLram (o / 4 + i) (cellPart o bs (o / 4 + i)) d) d)
    refine ⟨fun j hj => (hothers j (by omega)).trans (hbefore j (by omega)), fun i hi => ?_⟩
    rcases Nat.lt_succ_iff_lt_or_eq.mp hi with hlt | rfl
    · rw [hothers (o / 4 + i) (by omega)]
      exact hwords i hlt
    · rw [hbefore (o / 4 + i) (by omega)] at hw hmerged
      exact ⟨w, hw, hmerged⟩

end

/-! ### The flash and the ledger RAM -/

theorem flashByte_setFlash (a b v : Nat) (d : Dev) : flashByte (setFlash a v d) b = if b = a then v else flashByte d b :=
  Map.get_set ..

/-- The first `m` bytes of a page buffer are programmed from `o` on, round the page. -/
theorem flashByte_programPage (o m : Nat) (hm : m ≤ 256) (d : Dev) (a : Nat) :
    flashByte (foldBelow m (fun i d => setFlash (o / 256 * 256 + (o + i) % 256)
      (flashByte d (o / 256 * 256 + (o + i) % 256) &&& bufByte d i) d) d) a =
    if a / 256 = o / 256 ∧ (a + 256 - o % 256) % 256 < m then flashByte d a &&& bufByte d ((a + 256 - o % 256) % 256)
    else flashByte d a := by
  induction m with
  | zero => rw [if_neg (by omega)]; rfl
  | succ m ih =>
    have ih := ih (by omega)
    have hbuf : ∀ (is : List Nat) (e : Dev), bufByte (is.foldl (fun d i => setFlash (o / 256 * 256 + (o + i) % 256)
        (flashByte d (o / 256 * 256 + (o + i) % 256) &&& bufByte d i) d) e) m = bufByte e m := by
      intro is
      induction is with
      | nil => exact fun _ => rfl
      | cons i is ihs => exact fun e => ihs _
    simp only [foldBelow, List.range_succ, List.foldl_append, List.foldl_cons, List.foldl_nil] at ih ⊢
    rw [flashByte_setFlash, hbuf]
    split
    · next he =>
      subst he
      rw [ih, if_neg (by omega), if_pos (by omega)]
      congr 2
      omega
    · next hne =>
      rw [ih]
      by_cases hin : a / 256 = o / 256 ∧ (a + 256 - o % 256) % 256 < m
      · rw [if_pos hin, if_pos (by omega)]
      · rw [if_neg hin, if_neg (by omega)]

/-- What is left of sparse data once the entries of some keys are taken out. -/
theorem Map.get_filter {α : Type} (c : Nat → α) (p : Nat → Bool) (m : Map α) (k : Nat) :
    Map.get c (m.filter (fun e => p e.1)) k = if p k = true then Map.get c m k else c k := by
  induction m with
  | nil => simp [Map.get]
  | cons e m ih =>
    obtain ⟨j, v⟩ := e
    by_cases hk : k = j
    · subst hk
      cases hp : p k <;> simp [hp, Map.get, ih]
    · cases hp : p j <;> simp [hp, Map.get, ih, hk]

theorem flashByte_eraseFlash (first count a : Nat) (d : Dev) : flashByte (eraseFlash first count d) a =
    if first ≤ a ∧ a < first + count then 0xFF else flashByte d a := by
  have hget := Map.get_filter (fun _ => 0xFF) (fun k => !inR k first count) d.xsp.flash a
  refine (show flashByte (eraseFlash first count d) a = _ from hget).trans ?_
  by_cases hin : first ≤ a ∧ a < first + count
  · rw [if_pos hin, if_neg (by simp [inR, hin])]
  · rw [if_neg hin, if_pos (by simp [inR]; omega)]
    rfl

/-- Words of the ledger RAM written one after another. -/
theorem ledRd_words (o : Nat) (ho : o % 4 = 0) (bs : List Byte) (m : Nat) (d : Dev) (k : Nat) :
    ledRd (foldBelow m (fun i d => ledWr (o + 4 * i) (leNat ((bs.drop (4 * i)).take 4)) d) d) k =
      if o / 4 ≤ k / 4 ∧ k / 4 < o / 4 + m then leNat ((bs.drop (4 * (k / 4 - o / 4))).take 4) else ledRd d k := by
  have hlt (i : Nat) : leNat ((bs.drop (4 * i)).take 4) < 2 ^ 32 :=
    calc leNat ((bs.drop (4 * i)).take 4) < 256 ^ ((bs.drop (4 * i)).take 4).length := leNat_lt _
      _ ≤ 256 ^ 4 := Nat.pow_le_pow_right (by decide) (List.length_take_le 4 _)
  induction m with
  | zero => rw [if_neg (by omega)]; rfl
  | succ m ih =>
    simp only [foldBelow, List.range_succ, List.foldl_append, List.foldl_cons, List.foldl_nil] at ih ⊢
    rw [ledRd_ledWr, ih]
    split
    · next he =>
      rw [if_pos (by omega), Nat.mod_eq_of_lt (hlt m), show k / 4 - o / 4 = m by omega]
    · next hne =>
      by_cases hin : o / 4 ≤ k / 4 ∧ k / 4 < o / 4 + m
      · rw [if_pos hin, if_pos (by omega)]
      · rw [if_neg hin, if_neg (by omega)]

/-- Settles O47: line by line, word by word and byte by byte, as each memory stores them. -/
theorem memoriesHoldWhatIsWritten : Obligations.MemoriesHoldWhatIsWritten := by
  unfold Obligations.MemoriesHoldWhatIsWritten
  refine ⟨encodeLine_decode, fun d => ⟨?stack, fun o bs => lramCell_writeLram o bs _ d, fun o a => ?program,
    fun first count a => flashByte_eraseFlash first count a d, fun o bs ho hlen k => ledRd_words o ho bs _ d k⟩⟩
  case stack =>
    intro a bs o n m r ha
    obtain ⟨hothers, hdropped⟩ := landStack_others (a := a) (bs := bs) (d := d)
    refine ⟨hothers, hdropped, fun hstored i hi => ?_⟩
    obtain ⟨w, hw, hmerged⟩ := landStack_stored hstored hi
    exact ⟨w, hw, fun b hb => (hmerged b hb).trans (linePart_getD ha bs (n + i) hb _)⟩
  case program =>
    refine (flashByte_programPage o 256 (Nat.le_refl _) d a).trans ?_
    simp only [show (a + 256 - o % 256) % 256 < 256 from Nat.mod_lt _ (by decide), and_true]

end Sys2Proof.Machine

/-! ## What the checks of accesses decide (R142, R302, R304) -/

namespace Sys2Proof.Machine

/-! ### The yard -/

section
variable (acc : Access) (r : Desc)

/-- Compartment 0 reads: neither POSTMORTEM nor a claim stops it (R142). -/
def supervisorReads : Bool := acc.cmp = 0 && !acc.write

/-- The region is claimed by another unit, and the claim stops the access (R173). -/
def claimStops : Bool :=
  match r.claim with
  | some u => u != acc.unit && !supervisorReads acc
  | none => false

/-- The rights that an access needs of a region (R142). -/
def hasRights : Bool :=
  (acc.cmp = 0 || (acc.cmp = r.owner && (if acc.write then r.wr else r.rd)) ||
    (!acc.write && r.readers.testBit acc.cmp && r.rd)) && (!acc.fetch || r.fetch) && (!acc.bar4 || r.host)

variable {acc r}

theorem supervisorReads_iff : supervisorReads acc = true ↔ acc.cmp = 0 ∧ acc.write = false := by
  simp [supervisorReads]

theorem claimStops_iff : claimStops acc r = true ↔
    (∃ u, r.claim = some u ∧ u ≠ acc.unit) ∧ ¬ (acc.cmp = 0 ∧ acc.write = false) := by
  rw [← supervisorReads_iff]
  cases hclaim : r.claim <;> simp [claimStops, hclaim]

theorem hasRights_iff : hasRights acc r = true ↔
    (acc.cmp = 0 ∨ (acc.cmp = r.owner ∧ (if acc.write then r.wr else r.rd) = true) ∨
      (acc.write = false ∧ r.readers.testBit acc.cmp = true ∧ r.rd = true)) ∧
    (acc.fetch = true → r.fetch = true) ∧ (acc.bar4 = true → r.host = true) := by
  simp only [hasRights, Bool.and_eq_true, Bool.or_eq_true, decide_eq_true_eq, Bool.not_eq_true', or_assoc, and_assoc]
  cases acc.fetch <;> cases acc.bar4 <;> simp

end

section
variable {d : Dev} {acc : Access} {a len : Nat}

/-- The checks of the region that holds an address, in the order of R142. -/
def regionVerdict (d : Dev) (acc : Access) (a len : Nat) (r : Desc) : Verdict :=
  if r.sweeping || (getPage d (a / 0x1000)).sweeping || unitState d T.YRD (stationAt a) = .resetting then .held
  else if r.base + r.bytes < a + len then .fail .bounds (some r.owner)
  else if r.held && !supervisorReads acc then .fail .postmortemHeld (some r.owner)
  else if claimStops acc r then .fail .claimed (some r.owner)
  else if hasRights acc r then .ok else .fail .refusedRights (some r.owner)

/-- Before the region: an access that others hold up, a cluster out of reach, out of service or out of use (R142). -/
theorem yardCheck_eq : yardCheck d acc a len =
    if behindHeld d acc.who a || yardSwitch d acc.who (stationAt a) then .held
    else if clusterCut d acc.who (stationAt a) || clusterOut d (stationAt a) then
      (if acc.write then .fail .unitStabled none else .poison)
    else if !enabled d T.YRD (stationAt a) then .fail .noRegion none
    else match regionAt d a with
      | none => .fail .noRegion none
      | some (_, r) => regionVerdict d acc a len r := by
  unfold yardCheck landingCheck
  dsimp only
  congr 3
  cases regionAt d a with
  | none => rfl
  | some e =>
    obtain ⟨id, r⟩ := e
    have hbounds : (!decide (a + len ≤ r.base + r.bytes)) = true ↔ r.base + r.bytes < a + len := by simp
    simp only [hbounds]
    rfl

/-- An access that passes lies in one region, whose rights it has. -/
theorem yardCheck_ok (h : yardCheck d acc a len = .ok) : ∃ (id : Nat) (r : Desc), regionAt d a = some (id, r) ∧
    a + len ≤ r.base + r.bytes ∧ hasRights acc r = true := by
  rw [yardCheck_eq] at h
  split_ifs at h
  split at h
  · exact nomatch h
  · next id r hregion =>
    unfold regionVerdict at h
    split_ifs at h with _ hbounds _ _ hrights
    exact ⟨id, r, hregion, Nat.not_lt.mp hbounds, hrights⟩

/-- No check looks at a cell. -/
theorem yardCheck_cells (cells : Map Cell39) (d : Dev) :
    yardCheck { d with yard := { d.yard with cells := cells } } acc a len = yardCheck d acc a len := rfl

theorem yardCheck_putCell (n : Nat) (c : Cell39) (d : Dev) : yardCheck (putCell n c d) acc a len = yardCheck d acc a len :=
  yardCheck_cells _ d

/-- What an access that does not pass is answered. -/
theorem yardRead_stopped (h : yardCheck d acc a len ≠ .ok) : (yardRead acc a len d).1 = match yardCheck d acc a len with
    | .ok => .held
    | .held => .held
    | .poison => .data (List.replicate len (0, true))
    | .fail k _ => .fail k := by
  unfold yardRead
  cases hcheck : yardCheck d acc a len with
  | ok => exact absurd hcheck h
  | held => rfl
  | poison => rfl
  | fail k o => rfl

section
variable {id : Nat} {r : Desc} (hpassing : behindHeld d acc.who a = false ∧ yardSwitch d acc.who (stationAt a) = false ∧
  clusterCut d acc.who (stationAt a) = false ∧ clusterOut d (stationAt a) = false ∧ enabled d T.YRD (stationAt a) = true)
include hpassing

/-- An access that nothing holds up and whose cluster is in use is judged by its region. -/
theorem yardCheck_region (hregion : regionAt d a = some (id, r)) : yardCheck d acc a len = regionVerdict d acc a len r := by
  obtain ⟨hbehind, hswitch, hcut, hout, henabled⟩ := hpassing
  simp only [yardCheck_eq, hbehind, hswitch, hcut, hout, henabled, hregion, Bool.or_self, Bool.not_true,
    Bool.false_eq_true, if_false]

theorem yardCheck_noRegion (hregion : regionAt d a = none) : yardCheck d acc a len = .fail .noRegion none := by
  obtain ⟨hbehind, hswitch, hcut, hout, henabled⟩ := hpassing
  simp only [yardCheck_eq, hbehind, hswitch, hcut, hout, henabled, hregion, Bool.or_self, Bool.not_true,
    Bool.false_eq_true, if_false]

end

/-! ### Stack memory -/

/-- The windows of a compartment that cover an access. -/
def coveringWindows (d : Dev) (acc : Access) (o len : Nat) : List Nat :=
  ((List.range 8).map (stkWin d acc.cmp)).filter (fun w => winCovers w o len)

theorem mem_coveringWindows {o w : Nat} : w ∈ coveringWindows d acc o len ↔
    ∃ k < 8, winCovers (stkWin d acc.cmp k) o len = true ∧ stkWin d acc.cmp k = w := by
  simp only [coveringWindows, List.mem_filter, List.mem_map, List.mem_range]
  constructor
  · rintro ⟨⟨k, hk, rfl⟩, hcovers⟩
    exact ⟨k, hk, hcovers, rfl⟩
  · rintro ⟨k, hk, hcovers, rfl⟩
    exact ⟨⟨k, hk, rfl⟩, hcovers⟩

theorem winAllows_iff (w : Nat) : winAllows acc w = true ↔ bit w (if acc.write then 61 else 62) = true ∧
    (acc.fetch = true → bit w 60 = true) ∧ (acc.bar4 = true → bit w 59 = true) := by
  simp only [winAllows, Bool.and_eq_true, Bool.or_eq_true, Bool.not_eq_true', and_assoc]
  cases acc.write <;> cases acc.fetch <;> cases acc.bar4 <;> simp

section
variable (husable : a - stackBase + len ≤ usable d) (hcmp : acc.cmp ≠ 0)
include husable hcmp

/-- A stack access of a compartment other than 0 is judged by the windows that cover it. -/
theorem stackCheck_windows : stackCheck d acc a len =
    if coveringWindows d acc (a - stackBase) len = [] then .fail .noRegion (winOwner d (a - stackBase))
    else if (coveringWindows d acc (a - stackBase) len).any (winAllows acc) && !beingZeroed d (a - stackBase) len then .ok
    else .fail .refusedRights (winOwner d (a - stackBase)) := by
  unfold stackCheck
  dsimp only
  rw [if_neg (Nat.not_lt.mpr husable), if_neg hcmp]
  simp only [List.isEmpty_iff]
  rfl

theorem stackCheck_uncovered (h : ∀ k < 8, ¬ winCovers (stkWin d acc.cmp k) (a - stackBase) len = true) :
    stackCheck d acc a len = .fail .noRegion (winOwner d (a - stackBase)) := by
  rw [stackCheck_windows husable hcmp, if_pos]
  refine List.eq_nil_iff_forall_not_mem.mpr fun w hw => ?_
  obtain ⟨k, hk, hcovers, -⟩ := mem_coveringWindows.mp hw
  exact h k hk hcovers

theorem stackCheck_covered (h : ∃ k < 8, winCovers (stkWin d acc.cmp k) (a - stackBase) len = true) :
    stackCheck d acc a len =
      if (coveringWindows d acc (a - stackBase) len).any (winAllows acc) && !beingZeroed d (a - stackBase) len then .ok
      else .fail .refusedRights (winOwner d (a - stackBase)) := by
  obtain ⟨k, hk, hcovers⟩ := h
  rw [stackCheck_windows husable hcmp, if_neg]
  exact List.ne_nil_of_mem (mem_coveringWindows.mpr ⟨k, hk, hcovers, rfl⟩)

/-- It passes exactly where a window that covers it has the right, in memory that is not being zeroed. -/
theorem stackCheck_ok_iff : stackCheck d acc a len = .ok ↔ beingZeroed d (a - stackBase) len = false ∧
    ∃ k < 8, winCovers (stkWin d acc.cmp k) (a - stackBase) len = true ∧ winAllows acc (stkWin d acc.cmp k) = true := by
  have hany : (coveringWindows d acc (a - stackBase) len).any (winAllows acc) = true ↔
      ∃ k < 8, winCovers (stkWin d acc.cmp k) (a - stackBase) len = true ∧ winAllows acc (stkWin d acc.cmp k) = true := by
    rw [List.any_eq_true]
    constructor
    · rintro ⟨w, hw, hallows⟩
      obtain ⟨k, hk, hcovers, rfl⟩ := mem_coveringWindows.mp hw
      exact ⟨k, hk, hcovers, hallows⟩
    · rintro ⟨k, hk, hcovers, hallows⟩
      exact ⟨_, mem_coveringWindows.mpr ⟨k, hk, hcovers, rfl⟩, hallows⟩
  by_cases hcovered : ∃ k < 8, winCovers (stkWin d acc.cmp k) (a - stackBase) len = true
  · rw [stackCheck_covered husable hcmp hcovered, ← hany]
    split
    · next h => simpa [and_comm] using h
    · next h => simpa [and_comm] using h
  · rw [stackCheck_uncovered husable hcmp (fun k hk hcovers => hcovered ⟨k, hk, hcovers⟩)]
    constructor
    · exact fun h => nomatch h
    · rintro ⟨-, k, hk, hcovers, -⟩
      exact absurd ⟨k, hk, hcovers⟩ hcovered

end

end

/-- Settles O8: the checks of the yard in their order, those of stack memory by the windows that cover the access. -/
theorem accessChecksDecide : Obligations.AccessChecksDecide := by
  unfold Obligations.AccessChecksDecide
  intro d acc a len
  refine ⟨fun hbehind hswitch hcut hout henabled => ?region, fun hcmp hok => ?passes, fun hstopped n c => ?contents, ?stack⟩
  case region =>
    refine ⟨yardCheck_noRegion ⟨hbehind, hswitch, hcut, hout, henabled⟩, fun id r hregion => ?_⟩
    have hverdict : yardCheck d acc a len = regionVerdict d acc a len r :=
      yardCheck_region ⟨hbehind, hswitch, hcut, hout, henabled⟩ hregion
    rw [hverdict]
    unfold regionVerdict
    refine ⟨fun hsweeps => if_pos (by simpa [or_assoc] using hsweeps), fun hregionStill hpageStill hrunning => ?_⟩
    rw [if_neg (by simp [hregionStill, hpageStill, hrunning])]
    refine ⟨fun hover => if_pos hover, fun hfits => ?_⟩
    rw [if_neg (Nat.not_lt.mpr hfits)]
    refine ⟨fun hheld hsup => ?_, fun hheld => ?_⟩
    · rw [if_pos]
      rw [← supervisorReads_iff] at hsup
      simp [hheld, hsup]
    · rw [if_neg (by rw [← supervisorReads_iff] at hheld; rcases hheld with h | h <;> simp [h])]
      refine ⟨fun hclaim hsup => if_pos (claimStops_iff.mpr ⟨hclaim, hsup⟩), fun hfree => ?_⟩
      have hunclaimed : ¬ claimStops acc r = true := by
        rw [claimStops_iff]
        rintro ⟨⟨u, hu, hne⟩, hsup⟩
        exact hfree.elim (fun h => hne (h u hu)) hsup
      rw [if_neg hunclaimed, ← hasRights_iff]
      exact ⟨fun hright => if_pos hright, fun hright => if_neg hright⟩
  case passes =>
    obtain ⟨id, r, hregion, hfits, hrights⟩ := yardCheck_ok hok
    obtain ⟨hbase, hfetch, hhost⟩ := hasRights_iff.mp hrights
    have hbase := hbase.resolve_left hcmp
    refine ⟨id, r, hregion, hfits, fun hw => ?_, fun hw => ?_, hfetch, hhost⟩
    · simpa [hw] using hbase
    · rcases hbase with ⟨howner, hrd⟩ | ⟨-, hreader, hrd⟩
      · exact ⟨.inl howner, by simpa [hw] using hrd⟩
      · exact ⟨.inr hreader, hrd⟩
  case contents =>
    rw [yardRead_stopped hstopped, yardRead_stopped ((yardCheck_putCell n c d).symm ▸ hstopped), yardCheck_putCell]
  case stack =>
    intro o covers
    refine ⟨fun hover => if_pos hover, fun husable => ⟨fun hcmp => ?_, fun hcmp => ⟨?_, ?_, ?_⟩⟩⟩
    · unfold stackCheck
      dsimp only
      rw [if_neg (Nat.not_lt.mpr husable), if_pos hcmp]
    · exact stackCheck_uncovered husable hcmp
    · rw [stackCheck_ok_iff husable hcmp]
      simp only [winAllows_iff]
      rfl
    · intro hcovered hstopped
      have hcheck := stackCheck_covered husable hcmp hcovered
      rw [hcheck] at hstopped ⊢
      split
      · next h => exact absurd (if_pos h) hstopped
      · rfl

end Sys2Proof.Machine

/-! ## Rows of the tallies (R154, R156, R157) -/

namespace Sys2Proof.Machine

/-! ### Words of the yard's pages -/

section
variable {c page off : Nat} (hc : c < 64) (hp : page < 4) (ho : off < 0x1000)
include hc hp ho

/-- Where a word of a cluster's pages lies. -/
theorem kY_place : keyTy (kY c page off) = 0x05 ∧ keyInst (kY c page off) = c ∧ keyPage (kY c page off) = page ∧
    keyOff (kY c page off) = off := by
  have hslot : slotOk T.YRD c page = true := slotOk_of (p := .vm4_42) hc hp
  exact ⟨rk_ty hslot ho, rk_inst hslot ho, rk_page hslot ho, rk_off _ _ _ ho⟩

/-- A write of a word of a cluster's pages that the block takes acts by the block's rule. -/
theorem effect_kY {s : State} {w : Who} {v : Nat} {e : Dev} (hput : mayPut s.begins w (kY c page off) v = true)
    (halign : off % 4 = 0) (hblock : 0x040 ≤ off) (hrearm : ¬ (page = 1 ∧ off = 0x050))
    (hacts : ∀ m, blockWrite w m (kY c page off) (v % 2 ^ 32) (touched w s.begins) = some e) :
    effect (regCmd w (kY c page off) v) s = .next (s.ends e) := by
  obtain ⟨-, -, hpage, hoff⟩ := kY_place hc hp ho
  refine effect_block hput (rk_mod4 _ _ _ halign) (by rw [hoff]; exact hblock) ?_ (hacts _)
  rw [hpage, hoff]
  exact fun h => hrearm h.2

end

/-- A write of TALLY_REARM rearms the selected tally (R156). -/
theorem storeWord_rearm {c : Nat} (hc : c < 64) (w : Who) (m : Nat) (d : Dev) :
    storeWord w m (kY c 1 0x050) 1 d = rearm (tallySel d c) d := by
  obtain ⟨hty, hinst, hpage, hoff⟩ := kY_place (page := 1) (off := 0x050) hc (by decide) (by decide)
  simp only [storeWord, hty, hinst, hpage, hoff]
  rfl

/-! ### Increments and watches -/

section
variable {d : Dev}

/-- The oldest increment, which nothing befalls, counts at a cluster that is in use (R154). -/
theorem tallyIncrement_first {x : Landed} {rest : List Landed} (hway : d.net.way = .clear) (hlanded : d.yard.landed = x :: rest)
    (hout : clusterOut d (x.tally / 1024) = false) (henabled : enabled d T.YRD (x.tally / 1024) = true) :
    tallyIncrement d = tallyAdd x.tally x.cells x.granule { d with yard := { d.yard with landed := rest } } := by
  unfold tallyIncrement
  rw [hlanded]
  dsimp only
  rw [sendTo_clear (d := { d with yard := { d.yard with landed := rest } }) _ _ _ _ _ hway, hout, henabled]
  rfl

section
variable {w : Watch} (htaken : watchTaken d w = true)
include htaken

/-- A watch whose threshold is met fires at once (R157). -/
theorem watchRegister_fires (h : w.thresh ≤ (getTally d w.tally).value) :
    watchRegister w d = push (.watchFired w.waiter) d := by
  have hwatch : watchTally w d = (.fired, d) := if_pos h
  simp only [watchRegister, htaken, hwatch, Bool.not_true, Bool.false_eq_true, if_false]

/-- One that is not met is registered while there is room. -/
theorem watchRegister_room (h : (getTally d w.tally).value < w.thresh) (hroom : watchesUsed d (w.tally / 1024) < 256) :
    watchRegister w d = { d with yard := { d.yard with watches := d.yard.watches ++ [w] } } := by
  have hwatch : watchTally w d = (.registered, { d with yard := { d.yard with watches := d.yard.watches ++ [w] } }) := by
    rw [watchTally, if_neg (by omega), if_pos hroom]
  simp only [watchRegister, htaken, hwatch, Bool.not_true, Bool.false_eq_true, if_false]

/-- One that finds no room is tried again, but for a core's (R157). -/
theorem watchRegister_full (h : (getTally d w.tally).value < w.thresh) (hfull : 256 ≤ watchesUsed d (w.tally / 1024))
    (hwaiter : ∀ u, w.waiter ≠ .core u) : watchRegister w d =
      (let e := flag0 T.YRD (w.tally / 1024) 7 (w.tally % 1024) d
       { e with dpt := { e.dpt with retries := e.dpt.retries ++ [w] } }) := by
  have hwatch : watchTally w d = (.full, flag0 T.YRD (w.tally / 1024) 7 (w.tally % 1024) d) := by
    rw [watchTally, if_neg (by omega), if_neg (by omega)]
  simp only [watchRegister, htaken, hwatch, Bool.not_true, Bool.false_eq_true, if_false]

end

end

/-- Settles O12: an increment goes by its cluster, a rearm is a write of the block, and a watch goes by the threshold and by
the room for it. -/
theorem tallyRowsComplete : Obligations.TallyRowsComplete := by
  unfold Obligations.TallyRowsComplete
  rintro s d rfl
  refine ⟨fun x rest hlanded hout henabled => ?increment,
    fun who c hput => ?rearm, fun tally thresh waiter htaken => ⟨fun hmet => effect_of (watchRegister_fires htaken hmet),
      fun hless hroom => effect_of (watchRegister_room htaken hless hroom),
      fun hless hfull hwaiter => effect_of (watchRegister_full htaken hless hfull hwaiter)⟩⟩
  case increment =>
    have hway : s.begins.net.way = .clear := rfl
    exact effect_clear (tallyIncrement_first hway hlanded hout henabled)
  case rearm =>
    refine (effect_regCmd hput (rk_mod4 _ _ _ (by decide))).trans ?_
    rw [show 1 % 2 ^ 32 = 1 from rfl, storeWord_rearm c.isLt]
    rfl

end Sys2Proof.Machine

/-! ## Rows of the semaphores (R159, R162, R164) -/

namespace Sys2Proof.Machine

/-- The first element that a search takes stands behind those that it passes over. -/
theorem find?_behind {α : Type} {p : α → Bool} {l pre rest : List α} {x : α} (hl : l = pre ++ x :: rest)
    (hpre : ∀ y ∈ pre, p y = false) (hx : p x = true) : l.find? p = some x := by
  have hnone : pre.find? p = none := List.find?_eq_none.mpr fun y hy => by rw [hpre y hy]; decide
  rw [hl, List.find?_append, hnone, List.find?_cons_of_pos hx]
  rfl

/-! ### Instructions -/

section
variable {e e2 : Dev} {h k n rd : Nat} {op : SemOp} {code : Option Nat}

/-- What a semaphore instruction comes to once its cluster has answered: a code in its register, or a wait. -/
theorem codeTo_eq (w : WaitFor) : codeTo h rd w (code, e2) =
    (match code with
     | some _ => .next
     | none => .waits w true, match code with
     | some n => updCore h (fun c => c.setS rd n false) e2
     | none => e2) := by
  cases code <;> rfl

/-- A semaphore instruction at its own module, which its cluster answers or queues. -/
theorem semOp_answered {ra rb : Nat} {x t : PVal} (hparity : ∀ ss vs, regParity h ss vs e = e) (hway : e.net.way = .clear)
    (hplain : plainRun e h = true) (hra : (getCore e h).sReg ra = x) (hrb : (getCore e h).sReg rb = t)
    (hcount : op = .signal → n ≠ 0) (hx : x.2 = false) (ht : t.2 = false) (hhere : toward e (coreWho h) x.1 = .here)
    (hsem : semAt (x.1 % 2 ^ 46) = some k) (hswitch : yardSwitch e (coreWho h) (k / 256) = false)
    (henabled : (enabled e T.YRD (k / 256) || clusterOut e (k / 256)) = true)
    (hdo : semDo op k (cmpOf e (coreWho h)) h n (t.1 % 2 ^ 32) e = (code, e2)) :
    semOp h op rd ra rb n e = codeTo h rd (.sem rd) (code, e2) := by
  have hsignal : (decide (op = .signal) && decide (n = 0)) = false := by simpa using hcount
  have hin : (!enabled e T.YRD (k / 256) && !clusterOut e (k / 256)) = false := by
    simpa [Bool.or_eq_true, or_iff_not_imp_left] using henabled
  simp only [semOp, hparity, hra, hrb, hsignal, clean_two hx ht, unsampled_plain hplain, coreAcc, hhere, hsem, hswitch, hin,
    sendTo_clear _ _ _ _ _ hway, hdo, Bool.false_eq_true, if_false, reduceCtorEq, decide_false, Bool.false_and]

/-! ### Timeouts, reaps and words -/

/-- The timeout of a holder's first request that is over is answered TIMEOUT (R159). -/
theorem semTimeout_first {d : Dev} {q : Waiter} {t : Nat} {pre rest : List Waiter} (hq : d.yard.waiters = pre ++ q :: rest)
    (hpre : ∀ x ∈ pre, x.holder = h → ∀ u, x.deadline = some u → tick d < u) (hh : q.holder = h) (ht : q.deadline = some t)
    (hover : t ≤ tick d) : semTimeout h d = answerSem h 2 (dropWaiter q.sem h d) := by
  unfold semTimeout
  rw [find?_behind hq (fun x hx => ?earlier) (by simp [hh, ht, hover])]
  case earlier =>
    rw [Bool.and_eq_false_iff]
    by_cases hx' : x.holder = h
    · right
      split
      · next u hu => exact decide_eq_false (Nat.not_le.mpr (hpre x hx hx' u hu))
      · rfl
    · exact .inl (decide_eq_false hx')

/-- A reap that nothing befalls reaches a cluster that is not cut off, and counts there (R162). -/
theorem lockReap_first {d : Dev} {r : Reap} {s : Nat} {pre rest : List Reap} (hway : d.net.way = .clear)
    (hr : d.yard.reaps = pre ++ r :: rest) (hpre : ∀ x ∈ pre, x.holder ≠ h) (hh : r.holder = h)
    (hcut : holderCut d h s = false) : lockReap h s d =
      (let e := reapAt r s d
       { e with yard := { e.yard with reaps := e.yard.reaps.map (fun x =>
         if x = r then { x with done := setBit x.done s } else x) } }) := by
  unfold lockReap
  rw [find?_behind hr (fun x hx => decide_eq_false (hpre x hx)) (decide_eq_true hh)]
  simp only [sendTo_clear _ _ _ _ _ hway, hcut, reduceCtorEq, Bool.false_eq_true, if_false]

end

/-- A write of a word of SEM[k] that the cluster takes (R164). -/
theorem effect_semKey {s : State} {who : Who} {c : Fin 64} {k : Fin 256} {hi : Bool} {v : W32}
    (hput : mayPut s.begins who (semKey c k hi) v.toNat = true) :
    effect (regCmd who (semKey c k hi) v.toNat) s =
      .next (s.ends (semWrite (c.val * 256 + k.val) hi v.toNat (touched who s.begins))) := by
  have hk := k.isLt
  have hword : b2n hi ≤ 1 := b2n_le_one hi
  have hoff : 0x800 + 8 * k.val + 4 * b2n hi < 0x1000 := by omega
  obtain ⟨hty, hinst, hpage, hat⟩ := kY_place c.isLt (page := 2) (by decide) hoff
  refine effect_kY c.isLt (by decide) hoff hput (by omega) (by omega) (by omega) fun m => ?_
  have hrange : inR (0x800 + 8 * k.val + 4 * b2n hi) 0x800 0x800 = true := by simp [inR]; omega
  have hhi : decide ((0x800 + 8 * k.val + 4 * b2n hi) % 8 = 4) = hi := by
    cases hi
    · exact decide_eq_false (by rw [show b2n false = 0 from rfl]; omega)
    · exact decide_eq_true (by rw [show b2n true = 1 from rfl]; omega)
  have hsem : (0x800 + 8 * k.val + 4 * b2n hi - 0x800) / 8 = k.val := by omega
  simp only [blockWrite, hty, hinst, hpage, hat, hrange, hhi, hsem, if_true, Nat.mod_eq_of_lt v.isLt]

/-- The high word sets OWNER and KIND, where the owner is not draining. -/
theorem semOwnerWrite_undrained {d : Dev} {s owner kind : Nat} (h : (getCmp d owner).draining = false) :
    semOwnerWrite s owner kind none d = semKind s kind (updSem s (fun x => { x with owner := owner }) d) := by
  simp only [semOwnerWrite, owe, h, Bool.false_eq_true, if_false, semOwned]

/-- Settles O13: an instruction takes what its cluster answers, a timeout and a reap take the first that is theirs, and the
words of SEM[k] are written as the block takes them. -/
theorem semaphoreRowsComplete : Obligations.SemaphoreRowsComplete := by
  unfold Obligations.SemaphoreRowsComplete
  rintro s d rfl
  refine ⟨?instructions, fun holder q t pre rest hq hpre hh ht hover => effect_of (semTimeout_first hq hpre hh ht hover),
    fun who c k value => ⟨fun hput hdrain => ?_, fun hput => effect_semKey hput⟩,
    fun holder c r pre rest hr hpre hh hcut => effect_clear (lockReap_first rfl hr hpre hh hcut), fun holder => effect_of rfl⟩
  case instructions =>
    rintro op row hrow core rd ra rb count w k e0 e e2 code hf rfl hplain x t hcount hx ht hhere hsem hswitch henabled hdo
    have hop : (fun d => semOp core.val op rd.val ra.val rb.val count.toNat (onWay .clear d)) e0 = _ :=
      (semOp_answered (regParity_onWay .clear hf) rfl hplain rfl rfl (fun h hc => hcount h (BitVec.eq_of_toNat_eq hc)) hx ht
        hhere hsem hswitch henabled hdo).trans (codeTo_eq _)
    have heffect : effect (semInstr op core rd ra rb count .clear) s = _ := effect_issue hf hop (by cases code <;> exact nofun)
    have hexec : exec (row core rd ra rb count .clear) s = effect (semInstr op core rd ra rb count .clear) s := by
      simp only [List.mem_cons, Prod.mk.injEq, List.not_mem_nil, or_false] at hrow
      rcases hrow with ⟨rfl, rfl⟩ | ⟨rfl, rfl⟩ | ⟨rfl, rfl⟩ | ⟨rfl, rfl⟩ <;> rfl
    rw [hexec, heffect]
    cases code <;> rfl
  · exact (effect_semKey hput).trans (by rw [semWrite, if_pos rfl, semOwnerWrite_undrained hdrain])

end Sys2Proof.Machine

/-! ## Atomics of a core (R135) -/

namespace Sys2Proof.Machine

section
variable {e e2 : Dev} {h rd ra rb : Nat} {op : AmoOp} {wide : Bool} {x v c : PVal}

/-- The operands of an atomic are without poison when those that it reads are: only a compare reads its target register. -/
theorem clean_atomic {f : Dev → CoreOut × Dev} (hx : x.2 = false) (hv : v.2 = false) (hc : op = .cas → c.2 = false) :
    clean ([x, v] ++ if op = .cas then [c] else []) f e = f e := by
  by_cases hop : op = .cas
  · simp [clean, hop, hx, hv, hc hop]
  · simp [clean, hop, hx, hv]

/-- An atomic at its own module that finds no page held takes what was in memory. -/
theorem amoOp_answered {acc : Access} {n old : Nat} {bad : Bool} (hparity : ∀ ss vs, regParity h ss vs e = e)
    (hway : e.net.way = .clear) (hplain : plainRun e h = true) (hn : n = if wide then 8 else 4)
    (hacc : acc = coreAcc e h true) (hra : (getCore e h).sReg ra = x) (hrb : (getCore e h).sReg rb = v)
    (hrd : (getCore e h).sReg rd = c) (hx : x.2 = false) (hv : v.2 = false) (hc : op = .cas → c.2 = false)
    (halign : x.1 % n = 0) (hhere : toward e acc.who x.1 = .here)
    (hfree : x.1 % 2 ^ 46 < yardEnd → yardCheck e { acc with write := false } (x.1 % 2 ^ 46) n ≠ .held)
    (hamo : amo acc (x.1 % 2 ^ 46) n op (v.1 % 2 ^ (8 * n)) (c.1 % 2 ^ (8 * n)) e = (.ok (old, bad), e2)) :
    amoOp h op rd ra rb wide e = simply h (fun c => c.setS rd old bad) e2 := by
  have hheld : (decide (x.1 % 2 ^ 46 < yardEnd) &&
      decide (yardCheck e { acc with write := false } (x.1 % 2 ^ 46) n = .held)) = false := by simpa using hfree
  simp only [amoOp, hparity, hra, hrb, hrd, ← hn, ← hacc, clean_atomic hx hv hc, halign, ne_eq, not_true_eq_false, if_false,
    unsampled_plain hplain, hhere, sendBus_clear _ _ hway, reduceCtorEq, hheld, hamo, Bool.false_eq_true]

end

/-- Settles O10: each row issues an atomic whose operands are read without a parity error and whose run has no sample to
cancel. -/
theorem atomicRowsComplete : Obligations.AtomicRowsComplete := by
  unfold Obligations.AtomicRowsComplete
  rintro s core rd ra rb wide op row hrow w e e0 e2 old bad hf rfl hplain n x v c acc b hx hv hc halign hhere hfree hamo
  have hop := amoOp_answered (regParity_onWay .clear hf) rfl hplain rfl rfl rfl rfl rfl hx hv hc halign hhere hfree hamo
  have hexec : exec (row core rd ra rb wide .clear) s = effect (atomic op core rd ra rb wide .clear) s := by
    simp only [List.mem_cons, Prod.mk.injEq, List.not_mem_nil, or_false] at hrow
    rcases hrow with ⟨rfl, rfl⟩ | ⟨rfl, rfl⟩ | ⟨rfl, rfl⟩ | ⟨rfl, rfl⟩ | ⟨rfl, rfl⟩ | ⟨rfl, rfl⟩ | ⟨rfl, rfl⟩ | ⟨rfl, rfl⟩ |
      ⟨rfl, rfl⟩ <;> rfl
  exact hexec.trans (effect_issue hf hop nofun)

end Sys2Proof.Machine

/-! ## Rows of accesses of the yard (R142, R165, R168, R183) -/

namespace Sys2Proof.Machine

section
variable {d e : Dev} {w : Who}

/-! ### Reads -/

/-- YARD_READ that nothing befalls is answered what the turntable reads. -/
theorem yardReadCmd_clear {a cells elem stride : Nat} {mode : TtMode} {bs : List PByte} (hway : d.net.way = .clear)
    (hyard : a < yardEnd) (hshape : ttShape w mode cells elem stride = true)
    (hread : ttRead { who := w, cmp := cmpOf d w, unit := w.unitId } a mode cells elem stride d = (.data bs, e)) :
    yardReadCmd w a mode cells elem stride .clear 0 d = answer w (.data (bs.map (·.1)) (bs.any (·.2))) e := by
  simp only [yardReadCmd, if_neg (Nat.not_le.mpr hyard), hshape, onWay_none hway, sendOff_clear _ _ hway, upsetCell, hread,
    endRead, readAnswer, Bool.not_true, Bool.false_eq_true, if_false, if_true, reduceCtorEq]

theorem yardGet_shaped {a cells elem stride : Nat} {mode : TtMode} {m : Mishap} {upset : BitVec 39}
    (hshape : ttShape w mode cells elem stride = true) : yardGet w a mode cells elem stride m upset d =
      memGet w a (.turn a mode cells elem stride) (yardReadCmd w (a % 2 ^ 46) mode cells elem stride m upset) d := by
  simp only [yardGet, hshape, Bool.not_true, Bool.false_eq_true, if_false]

/-! ### Writes -/

/-- A posted write within one cluster that need not wait is one part, under way with what it met at its target. -/
theorem postWrite_onePart {acc : Access} {tag serial a : Nat} {bs : List Byte} {o : WriteOut}
    (hone : clusterParts a bs.length = [(0, bs.length)]) (hwrite : memWrite acc a bs d = (o, e)) (hnow : o ≠ .held) :
    (postWrite false acc tag serial a bs d).2 =
      launch ⟨acc.who, acc.cmp, tag, serial, a, true, postedOutcome o, tick d, acc.stream⟩ e := by
  have hpart : partWrite false acc a bs d = (o, e) := by simp [partWrite, hwrite]
  simp only [postWrite, hone, List.foldl_cons, List.foldl_nil, Nat.add_zero, List.drop_zero, List.take_length, hpart]

theorem ringRefused_net (a n : Nat) : (ringRefused w a n d).net = d.net := by
  unfold ringRefused
  split
  · exact bumpBy_net ..
  · rfl

theorem serialOf_ringRefused (a n u : Nat) : serialOf (ringRefused w a n d) u = serialOf d u := by
  unfold ringRefused
  split <;> rfl

/-- YARD_WRITE within one cluster that nothing befalls lands in the step that issues it (log entry 5). -/
theorem yardWriteCmd_clear {a : Nat} {bs : List Byte} (hway : d.net.way = .clear) (hyard : a < yardEnd)
    (hone : clusterParts a bs.length = [(0, bs.length)])
    (hwrite : memWrite { who := w, cmp := cmpOf d w, write := true, unit := w.unitId } a bs (ringRefused w a 0 d) = (.ok, e)) :
    yardWriteCmd w a bs .clear false 0 d =
      launch ⟨w, cmpOf d w, tagOf d w.unitId, serialOf d w.unitId, a, true, .acked, tick d, false⟩ e := by
  have hclear : (ringRefused w a 0 d).net.way = .clear := (congrArg NetState.way (ringRefused_net a 0)).trans hway
  simp only [yardWriteCmd, if_neg (Nat.not_le.mpr hyard), Bool.false_eq_true, if_false, onWay_none hway, sendWrite,
    sendOff_clear _ _ hclear]
  rw [postWrite_onePart hone hwrite nofun, serialOf_ringRefused, tick_ringRefused]
  rfl

/-! ### Flights -/

/-- The first flight that a search takes leaves the others in their order. -/
theorem takeFlight_behind {p : Flight → Bool} {f : Flight} {pre : List Flight} (rest : List Flight)
    (hpre : ∀ x ∈ pre, p x = false) (hf : p f = true) : takeFlight p (pre ++ f :: rest) = (some f, pre ++ rest) := by
  induction pre with
  | nil => exact if_pos hf
  | cons x pre ih =>
    have hx : p x = false := hpre x List.mem_cons_self
    rw [List.cons_append, takeFlight, hx, ih fun y hy => hpre y (List.mem_cons_of_mem x hy)]
    rfl

variable {f : Flight} {pre rest : List Flight}

/-- The first of a requester's writes that failed is its notice (R168). -/
theorem noticeCmd_first {k : Kind} (hhost : w.isHost = false) (hflights : d.net.flights = pre ++ f :: rest)
    (hpre : ∀ x ∈ pre, x.who = w → x.posted = true → ∀ k, x.st ≠ .failed k) (hwho : f.who = w) (hposted : f.posted = true)
    (hfailed : f.st = .failed k) :
    noticeCmd w d = fenceCheck w (failureNotice f k { d with net := { d.net with flights := pre ++ rest } }) := by
  unfold noticeCmd
  rw [hhost, hflights]
  extract_lets isFail t
  have hpass : ∀ x ∈ pre, isFail x = false := by
    intro x hx
    simp only [isFail]
    split
    · next k hk =>
      by_contra hne
      obtain ⟨hw, hp⟩ : x.who = w ∧ x.posted = true := by simpa using hne
      exact hpre x hx hw hp k hk
    · rfl
  have ht : t = (some f, pre ++ rest) := takeFlight_behind rest hpass (by simp [isFail, hfailed, hwho, hposted])
  simp only [ht, hfailed, Bool.false_eq_true, if_false]

theorem ackCmd_taken
    (htaken : takeFlight (fun f => f.who = w && f.posted && f.st = .acked) d.net.flights = (some f, rest)) :
    ackCmd w d = fenceCheck w { d with net := { d.net with flights := rest } } := by
  rw [ackCmd, htaken]

theorem noticeReaches_unit (hhost : w.isHost = false) : noticeReaches w d = noticeCmd w d := by
  cases w with
  | host f => cases hhost
  | _ => rfl

/-- The first of a requester's accesses whose timer has run out, a read, is answered poison (R183). -/
theorem rspTimeout_read (hflights : d.net.flights = pre ++ f :: rest)
    (hpre : ∀ x ∈ pre, x.who = w → tick d < x.since + rdF d (rk T.TPK 0 0 0x044) 15 0) (hwho : f.who = w)
    (hread : f.posted = false) (hover : f.since + rdF d (rk T.TPK 0 0 0x044) 15 0 ≤ tick d) :
    rspTimeout w false d =
      answer w (.data [] true) (timedOut w { d with net := { d.net with flights := pre ++ rest } }) := by
  have hpass : ∀ x ∈ pre, (decide (x.who = w) && decide (x.since + rdF d (rk T.TPK 0 0 0x044) 15 0 ≤ tick d)) = false := by
    intro x hx
    rw [Bool.and_eq_false_iff]
    by_cases hw : x.who = w
    · exact .inr (decide_eq_false (Nat.not_le.mpr (hpre x hx hw)))
    · exact .inl (decide_eq_false hw)
  have hfirst := takeFlight_behind (f := f) (p := fun x => decide (x.who = w) &&
    decide (x.since + rdF d (rk T.TPK 0 0 0x044) 15 0 ≤ tick d)) rest hpass (by simp [hwho, hover])
  simp only [rspTimeout, hflights, hfirst, hread, Bool.not_false, if_true]

end

/-- Settles O9: a read and a write that nothing befalls act in their own step, and notices, timers and late answers take the
first flight that is theirs. -/
theorem yardAccessRowsComplete : Obligations.YardAccessRowsComplete := by
  unfold Obligations.YardAccessRowsComplete
  rintro s d rfl who
  have hway : s.begins.net.way = .clear := rfl
  refine ⟨fun addr mode cells elem stride bs e hhere hyard hshape hread => ?read, fun addr bytes e => ?write,
    fun f rest htaken => effect_of (ackCmd_taken htaken),
    fun k f pre rest hhost hflights hpre hwho hposted hfailed =>
      effect_of ((noticeReaches_unit hhost).trans (noticeCmd_first hhost hflights hpre hwho hposted hfailed)),
    fun f pre rest hflights hpre hwho hread hover => effect_of (rspTimeout_read hflights hpre hwho hread hover),
    fun hexpired => effect_of (if_pos hexpired)⟩
  case read =>
    have hget := (memGet_here (op := .turn addr.toNat mode cells.val elem.val stride.toNat) hhere).trans
      (yardReadCmd_clear hway hyard hshape hread)
    exact effect_of ((yardGet_shaped hshape).trans hget)
  case write =>
    intro a hhere hyard hone hwrite
    exact effect_of ((memPut_here hhere).trans (yardWriteCmd_clear hway hyard hone hwrite))

end Sys2Proof.Machine

/-! ## Waits, CSRs, exceptions and ends (R156, R166, R217, R219, R238, R239, R245, R248, R254) -/

namespace Sys2Proof.Machine

section
variable {d e : Dev} {h t thresh : Nat} {deadline : Option Nat}

/-! ### Watches of a core -/

theorem watchFor_met (hmet : thresh ≤ (getTally d t).value) : watchFor h t thresh deadline d = (.next, d) := by
  simp only [watchFor, watchTally, if_pos hmet]

theorem watchFor_registers (hless : (getTally d t).value < thresh) (hroom : watchesUsed d (t / 1024) < 256) :
    watchFor h t thresh deadline d = (.waits (.tally deadline) false,
      { d with yard := { d.yard with watches := d.yard.watches ++ [⟨t, thresh, .core h⟩] } }) := by
  simp only [watchFor, watchTally, if_neg (Nat.not_le.mpr hless), if_pos hroom]

/-- A core that waits for no tally issues its TWAIT. -/
theorem twait_issues {rd ra rb : Nat} (hidle : ∀ dl, (getCore d h).wait ≠ .tally dl) :
    twait h rd ra rb d = issue h 4 (twaitOp h rd ra rb) d := by
  unfold twait
  split
  · next dl hwait => exact absurd hwait (hidle dl)
  · rfl

/-! ### Programs of the supervisor -/

theorem superOnly_super {f : Dev → CoreOut × Dev} (hctl : 64 ≤ h) (hsuper : (getCore d h).super = true) :
    superOnly h f d = f d := by
  simp only [superOnly, if_neg (Nat.not_lt.mpr hctl), hsuper, Bool.not_true, Bool.false_eq_true, if_false]

/-- WFI goes on when an interrupt is pending (R254). -/
theorem wfiOp_super (hctl : 64 ≤ h) (hsuper : (getCore d h).super = true) :
    wfiOp h d = (if pendingEnabled d h ≠ 0 then .next else .waits .interrupt true, d) := by
  rw [wfiOp, superOnly_super hctl hsuper]
  split <;> rfl

end

section
variable {d e e2 : Dev} {h w rd ra rb : Nat} (hf : fetched d h 4 = some (w, e))

/-! ### Tallies -/

section
variable (hplain : plainRun e h = true) (ha : ((getCore e h).sReg ra).2 = false)
  (hswitch : yardSwitch e (coreWho h) (((getCore e h).sReg ra).1 % 2 ^ 16 / 1024) = false)
  (hreach : tallyReach e h (((getCore e h).sReg ra).1 % 2 ^ 16) = true)
  (hmine : tallyMine e h (((getCore e h).sReg ra).1 % 2 ^ 16) = true)
include hf hplain ha hswitch hreach hmine

/-- TREARM of a tally that the core may use (R156). -/
theorem trearm_fetched : trearm h ra e = (.next, rearm (((getCore e h).sReg ra).1 % 2 ^ 16) e) := by
  simp only [trearm, regParity_fetched hf, clean_one ha, unsampled_plain hplain, hswitch, hreach, hmine, Bool.and_self,
    Bool.false_eq_true, if_false, if_true]

/-- TWAIT of a tally that the core may use watches it (R238). -/
theorem twaitOp_fetched (hb : ((getCore e h).sReg rb).2 = false) (hc : ((getCore e h).sReg rd).2 = false) :
    twaitOp h rd ra rb e = watchFor h (((getCore e h).sReg ra).1 % 2 ^ 16) (((getCore e h).sReg rb).1 % 2 ^ 32)
      (if ((getCore e h).sReg rd).1 % 2 ^ 32 = 0xFFFFFFFF then none else some (tick e + ((getCore e h).sReg rd).1 % 2 ^ 32))
      e := by
  have hclean (f : Dev → CoreOut × Dev) :
      clean [(getCore e h).sReg ra, (getCore e h).sReg rb, (getCore e h).sReg rd] f e = f e := by
    simp only [clean, List.any_cons, List.any_nil, ha, hb, hc, Bool.or_self, Bool.false_eq_true, if_false]
  simp only [twaitOp, regParity_fetched hf, hclean, unsampled_plain hplain, hswitch, hreach, hmine, Bool.and_self,
    Bool.false_eq_true, if_false, if_true]

end

/-! ### CSRs -/

/-- A CSR that the core has is read; TIME and RANDOM cancel a sample. -/
theorem csrRead_allowed {n : Nat} (hok : csrBad e h n = none) (hplain : n = 3 ∨ n = 4 → plainRun e h = true) :
    csrRead h rd n e = (.next, updCore h (fun c => c.setS rd (csrValue h n e).1 false) (csrValue h n e).2) := by
  by_cases hn : n = 3 ∨ n = 4
  · have hsampled : (decide (n = 3) || decide (n = 4)) = true := by simpa using hn
    simp only [csrRead, hok, hsampled, if_true, unsampled_plain (hplain hn), simply]
  · have hsampled : (decide (n = 3) || decide (n = 4)) = false := by simpa using hn
    simp only [csrRead, hok, hsampled, Bool.false_eq_true, if_false, simply]

include hf in
theorem csrWrite_allowed {n : Nat} (hok : csrBad e h n = none) (ha : ((getCore e h).sReg ra).2 = false) :
    csrWrite h ra n e = (.next, updCore h (fun c => c.csrSet n ((getCore e h).sReg ra).1) e) := by
  simp only [csrWrite, hok, regParity_fetched hf, clean_one ha, simply]

/-! ### Ends, fences and returns -/

include hf in
theorem abortOp_fetched (hb : ((getCore e h).sReg rb).2 = false) :
    abortOp h rb e = (.stop 0x23 (((getCore e h).sReg rb).1 % 256), e) := by
  simp only [abortOp, regParity_fetched hf, clean_one hb]

theorem fenceOp_done (hnone : outstanding e (coreWho h) = 0) (horiginal : isDuplicate e h = false) :
    fenceOp h rd e = (.next, updCore h (fun c => { (c.setS rd c.fence false) with fence := 0 }) e) := by
  simp only [fenceOp, hnone, horiginal, Bool.false_eq_true, if_false, if_true, simply]

/-- A return from a frame that is read without poison (R245). -/
theorem xretOp_read {ie : Bool} {bs : List PByte} (hgood : bs.any (·.2) = false)
    (hread : coreRead h (getCore e h).sp 64 false (.frame ie) e = (.data bs, e2)) :
    xretOp h ie e = returns h ie (bs.map (·.1)) (foldAccess h 0 (getCore e h).sp false (bs.map (·.1)) e2) := by
  simp only [xretOp, hread, frameRead, hgood, Bool.false_eq_true, if_false]

include hf in
/-- SBRD of core 64 reads a word of a mailbox, and its last word frees it (R248). -/
theorem sbrdOp_fetched {word : Nat} (hh : h = 64) (hsuper : (getCore e h).super = true)
    (ha : ((getCore e h).sReg ra).2 = false) (hcore : ((getCore e h).sReg ra).1 ≤ 67) :
    sbrdOp h rd ra word e =
      (let j := ((getCore e h).sReg ra).1
       (.next, updCore h (fun c => c.setS rd ((getCore e j).box.frame.getD word 0) false)
         (if word = 7 then updCore j (fun c => { c with box := { c.box with full := false } }) e else e))) := by
  subst hh
  simp only [sbrdOp, ne_eq, not_true_eq_false, if_false, superOnly_super (Nat.le_refl 64) hsuper, regParity_fetched hf,
    clean_one ha, if_neg (Nat.not_lt.mpr hcore), simply]

end

/-- BRK halts a core to which a debugger is attached, and traps otherwise (R591). -/
theorem brk_fetched {d e : Dev} {h w : Nat} (hf : fetched d h 4 = some (w, e)) : brk h d = if attached e h
    then updCore h (fun c => { c with mode := .debugHalt, stepping := false }) e else conclude h 4 w (.trap 0x08 0) e := by
  unfold brk
  split
  · next hattached =>
    rw [issue_fetched (o := .stay) hf (if_pos hattached) nofun]
    rfl
  · next hfree => rw [issue_fetched (o := .trap 0x08 0) hf (if_neg hfree) nofun]

/-- Settles O18: each row issues an instruction whose operands are read without a parity error; what it comes to is said by the
lemma of its name. -/
theorem controlRowsComplete : Obligations.ControlRowsComplete := by
  unfold Obligations.ControlRowsComplete
  intro s core w e rd ra rb h hf a b c t
  refine ⟨fun hplain ha hswitch hreach hmine => ⟨effect_issue hf (trearm_fetched hf hplain ha hswitch hreach hmine) nofun,
      fun hidle hb hc => ?twait⟩,
    fun n hok => ?csrs, fun code => effect_issue hf rfl nofun, effect_of (brk_fetched hf), effect_issue hf rfl nofun,
    fun hb => effect_issue hf (abortOp_fetched hf hb) nofun,
    fun hnone horiginal => effect_issue hf (fenceOp_done hnone horiginal) nofun,
    fun bs e2 hgood => ⟨fun hread => effect_issue hf (xretOp_read hgood hread) nofun, fun hctl hsuper hread =>
      effect_issue hf ((superOnly_super hctl hsuper).trans (xretOp_read hgood hread)) nofun⟩,
    fun hctl hsuper => ⟨effect_issue hf (wfiOp_super hctl hsuper) (by split <;> exact nofun),
      fun word hh ha hcore => effect_issue hf (sbrdOp_fetched hf hh hsuper ha hcore) nofun⟩⟩
  case twait =>
    have hissued := effect_of (s := s) (twait_issues (rd := rd.val) (ra := ra.val) (rb := rb.val) hidle)
    have hop := twaitOp_fetched hf hplain ha hswitch hreach hmine hb hc
    refine ⟨fun hmet => ?_, fun hless hroom => ?_⟩
    · exact hissued.trans (effect_issue hf (hop.trans (watchFor_met hmet)) nofun)
    · exact hissued.trans (effect_issue hf (hop.trans (watchFor_registers hless hroom)) nofun)
  case csrs =>
    refine ⟨fun hplain => effect_issue hf (csrRead_allowed hok hplain) nofun,
      fun ha => effect_issue hf (csrWrite_allowed hf hok ha) nofun, fun hctl hsuper => ⟨fun hplain => ?_, fun ha => ?_⟩⟩
    · exact effect_issue hf ((superOnly_super hctl hsuper).trans (csrRead_allowed hok hplain)) nofun
    · exact effect_issue hf ((superOnly_super hctl hsuper).trans (csrWrite_allowed hf hok ha)) nofun

end Sys2Proof.Machine

/-! ## Region descriptors (R138 to R141) -/

namespace Sys2Proof.Machine

/-- A write of DESC_CMD that the cluster takes is the command of its code (R138). -/
theorem effect_descCmd {s : State} {who : Who} {c : Fin 64} {code : Nat} (hcode : code < 2 ^ 32)
    (hput : mayPut s.begins who (kY c.val 0 0x048) code = true) :
    effect (descReg who c code) s = .next (s.ends (descCmd c.val code (touched who s.begins))) := by
  obtain ⟨hty, hinst, hpage, hoff⟩ := kY_place (page := 0) (off := 0x048) c.isLt (by decide) (by decide)
  refine effect_kY c.isLt (by decide) (by decide) hput (by decide) (by decide) (by decide) fun m => ?_
  simp only [blockWrite, hty, hinst, hpage, hoff, if_true, Nat.mod_eq_of_lt hcode]

/-- RELEASE of a region that need not sweep frees its pages and its descriptor at once (R141). -/
theorem descRelease_unswept {d : Dev} {c : Nat} (hidle : descBusy d c = false) (hvalid : (getDesc d (descSel d c)).valid = true)
    (hsweep : ((getDesc d (descSel d c)).held || (getDesc d (descSel d c)).sweep ≠ 0) = false) :
    descRelease c d = descResult c 0 (updDesc (descSel d c) Desc.freed (freePages (getDesc d (descSel d c)) d)) := by
  simp only [descRelease, hidle, hvalid, hsweep, Bool.not_true, Bool.false_eq_true, if_false]

/-- The region of slot 0 of cluster 0, which need not sweep, is claimed by unit 5. -/
def claimedUnswept : State :=
  { State.reset with dev := { Dev.reset with yard := { Dev.reset.yard with
      descs := [(0, { w0 := 2 ^ 63 + 0x10000, claim := some 5 })] } } }

/-- Refutes O11: DESC_RELEASE of a region that need not sweep leaves a descriptor that no unit claims (`Desc.freed`); the
statement keeps the claim. A region comes to be claimed without a sweep of its own when DESC_MODIFY sets SWEEP to 0 while a unit
that runs has claimed it. -/
theorem not_descriptorRowsComplete : ¬ Obligations.DescriptorRowsComplete := by
  unfold Obligations.DescriptorRowsComplete
  rintro ⟨hcommands, -⟩
  let d := touched (.ctl 0) claimedUnswept.begins
  have hput : mayPut claimedUnswept.begins (.ctl 0) (kY 0 0 0x048) 2 = true := by decide
  have hidle : descBusy d 0 = false := by decide
  have hvalid : (getDesc d (descSel d 0)).valid = true := by decide
  have hsweep : ((getDesc d (descSel d 0)).held || (getDesc d (descSel d 0)).sweep ≠ 0) = false := by decide
  obtain ⟨-, -, hrelease, -⟩ := hcommands claimedUnswept (.ctl 0) 0 d rfl hidle
  have hclaimed := (hrelease hput hvalid).2 hsweep
  have hanswered : exec (.descRelease (.ctl 0) 0) claimedUnswept =
      .next (claimedUnswept.ends (descRelease 0 d)) :=
    effect_descCmd (c := 0) (by decide) hput
  rw [descRelease_unswept hidle hvalid hsweep] at hanswered
  have hsame := Host.Outcome.next.inj (hanswered.symm.trans hclaimed)
  exact absurd (congrArg (fun t : State => (getDesc t.dev 0).claim) hsame) (by decide)

end Sys2Proof.Machine
